-- ==== Sys2Proof/Word.lean ====
section
/-!
DEFINITION. The word types of the MV-8 and their plainest arithmetic. Nothing here can be mended later; every
bit-field or conversion that a rule of spec/ could show wrong stands in Machine/ instead.
-/

namespace Sys2Proof

/-- A tile's 32-bit word: scalar registers, vector lanes, scratchpad words (R117, R150). -/
abbrev Word := BitVec 32

/-- A byte of an addressed memory. -/
abbrev Byte := BitVec 8

/-- A 64-bit register or event payload. -/
abbrev DWord := BitVec 64

/-- A sparse table: keys rising, no entry equal to the default of its reader. Plain data. -/
abbrev Tab (α : Type) := List (Nat × α)

/-- A wire address of the logical tile grid is its linear index y * 280 + x (R4). -/
abbrev TileId := Nat

end Sys2Proof
end

