-- ==== Sys2Proof/Machine/Objects.lean ====
section
/-!
DEFINITION. The objects that reach the module from outside or leave it, as plain data: event records, posted writes,
mesh packets, Hikolink flits and tree records, images, ownership records. Commands of Syntax.lean carry them as operands.
-/

namespace Sys2Proof

/-- An event record (R366). `tide` is 0 and `noTide` set when the event concerns no tide. -/
structure EventRec where
  code : Nat
  sev : Nat
  replay : Bool := false
  noTide : Bool := true
  frozen : Bool := false
  part : Nat := 0xFF
  unit : Nat
  ts : Nat := 0
  tide : Nat := 0
  seq : Nat := 0
  payload : DWord
  deriving DecidableEq, Repr

/-- A telemetry record (R410): kind, index, timestamp and the DATA bytes from byte 16 on. -/
structure TelemetryRec where
  kind : Nat
  index : Nat
  ts : Nat
  data : List Byte
  deriving DecidableEq, Repr

/-- A completion record of 32 bytes (R308). -/
structure CompletionRec where
  stream : Nat
  kind : Nat
  pos : Nat
  tokens : List Word := []
  cause : Nat := 0
  tide : Nat := 0
  flags : Nat := 0
  accepted : Nat := 0
  deriving DecidableEq, Repr

/-- What the device issues toward the host, in the order it is issued (R358, R391): posted writes and MSI-X messages;
`platform` is a platform event message on the I3C port (R415). [DESIGN CHOICE, log entry 125] -/
inductive Posted where
  | event (addr : Nat) (r : EventRec)
  | telemetry (addr : Nat) (bytes : List Byte)
  | completion (part addr : Nat) (bytes : List Byte)
  | word (part addr : Nat) (v : Word)
  | buffer (mbx : Nat) (what : Nat) (bytes : List Byte)
  | msix (vector : Nat)
  | hostRead (part addr bytes : Nat)
  | platform (r : EventRec)
  deriving DecidableEq, Repr

/-- One entry of a tile queue: 1 to 4 words, the sending tile, and the link it came by at its receiver, 4 for the mesh
(R169, R171, R177). -/
structure QEntry where
  words : List Word
  sender : TileId
  link : Nat := 4
  deriving DecidableEq, Repr

/-- What a mesh packet carries (the kinds of R183). -/
inductive PacketKind where
  | entry | readReq | readResp | write | accWrite | writeDone | verdict | tiering | mgmt
  deriving DecidableEq, Repr

/-- Where a packet leaves the mesh (R185): a site's local port, an edge unit's outer port, a vertical access point. -/
inductive ExitPort where
  | localSite | outer | access
  deriving DecidableEq, Repr

/-- A unit at a packet's far end (R15, R186, R197): none where both ends are tiles, or a tile and a memory port. -/
inductive EdgeUnit where
  | none | stream | cxl | tiering | collWest | collEast | management
  | hikolink (port : Nat)
  deriving DecidableEq, Repr

/-- A mesh packet (R183, R185). `addr` is a byte address at the target, `port` a memory port index for HBM traffic,
`words` the words of a queue entry or the data as bytes in `data`. `failed` marks a failed answer (R166, R208). -/
structure Packet where
  kind : PacketKind
  vc : Nat
  yFirst : Bool := false
  srcRx : Nat := 0
  srcRy : Nat := 0
  dstRx : Nat := 0
  dstRy : Nat := 0
  exit : ExitPort := .localSite
  flits : Nat := 1
  src : TileId := 0
  dst : TileId := 0
  toPort : Option Nat := none
  unit : EdgeUnit := .none
  page : Nat := 0
  /-- a translated read or an append of `page`, and the tentative fill before the append (R245, R246) -/
  tiered : Bool := false
  fill : Nat := 0
  addr : Nat := 0
  len : Nat := 0
  data : List Byte := []
  words : List Word := []
  queue : Nat := 0
  tag : Nat := 0
  seqNo : Nat := 0
  acc : Nat := 0
  failed : Bool := false
  deriving DecidableEq, Repr

/-- A flit of a packet in a router buffer: the packet and the flit's index (R183). -/
structure Flit where
  pkt : Packet
  idx : Nat
  deriving DecidableEq, Repr

/-- CAUSE of a tree record (R333): event code, rank, unit id. -/
structure Cause where
  code : Nat := 0
  rank : Nat := 0
  unit : Nat := 0
  deriving DecidableEq, Repr

/-- A tree record (R333). -/
inductive TreeRec where
  | drumbeat (tide start step : Nat) (replay stop : Bool)
  | confirm (tide instant : Nat) (abandon : Bool) (cause : Cause)
  | action (tide act kind : Nat) (cause : Cause)
  | member (tide rank st : Nat)
  | done (tide count stepReq : Nat)
  | fault (tide kind : Nat) (cause : Cause)
  | settled (tide count kind : Nat) (cause : Cause)
  | recovered (tide count : Nat)
  | stopRequest (tide : Nat) (ends : Bool)
  deriving DecidableEq, Repr

/-- An identity beacon (R348, R350). [DEDUCED, log entry 61] -/
structure Beacon where
  serial : Nat
  variant : Nat
  arithEpoch : Nat
  fabMin : Nat
  fabMax : Nat
  linkLayer : Nat
  fwVersion : Nat
  jobId : Nat
  /-- the coordinates below are known: it is sent again once they are (steps 3 and 4 of R348) -/
  placed : Bool := true
  i : Nat := 0
  j : Nat := 0
  k : Nat := 0
  deriving DecidableEq, Repr

/-- The coordinates in a beacon. -/
def Beacon.coords (b : Beacon) : Nat × Nat × Nat := (b.i, b.j, b.k)

/-- The items of R350 of a neighbour agree with this device's. -/
def Beacon.agrees (b : Beacon) : Bool := b.arithEpoch = 1 && b.linkLayer = 1 && decide (b.fabMin ≤ 1) && decide (1 ≤ b.fabMax)

/-- How formation stops (R349): a step exceeds its bound, the training of a port fails, or the clock lock. -/
inductive FormStop where
  | timeout (step : Nat)
  | training
  | lock
  deriving DecidableEq, Repr

/-- A Hikolink flit (R316, R317): header fields, payload words, CRC; a CONTROL flit carries its records with their COPY, a BEACON
flit its device's identity. [DEDUCED, log entry 61] -/
structure HFlit where
  type : Nat
  last : Bool := false
  tideLo : Nat := 0
  channel : Nat := 0
  src : Nat := 0
  dst : Nat := 0
  block : Nat := 0
  index : Nat := 0
  words : List Word := []
  crc : Word := 0
  recs : List (Nat × TreeRec) := []
  beacon : Option Beacon := none
  deriving DecidableEq, Repr

/-- Flits of a message of type DATA pass in blocks of up to 64, each with LAST on its last flit (R316); a message ends with a block or a
flit that is not full. [DESIGN CHOICE, log entry 53] -/
def HFlit.ends (f : HFlit) : Bool := f.last && (f.type = 3 || decide (f.index < 63) || decide (f.words.length < 60))

/-- A flit carries a committing CONFIRM. -/
def HFlit.commits (f : HFlit) : Bool := f.recs.any fun r => match r.2 with
  | .confirm _ _ false _ => true
  | _ => false

/-- One entry of a verdict set, or of rank 0's outcome table (R341). -/
structure VerdictEntry where
  slot : Nat
  deferred : Bool := false
  rcount : Nat := 0
  accept : Option Nat := none
  rtokens : List Word := []
  deriving DecidableEq, Repr

/-- A weight range of WEIGHT_MAP: first scratchpad word, words, byte offset of the home copy (R225, R253). -/
structure WeightRange where
  word : Nat
  words : Nat
  home : Nat
  deriving DecidableEq, Repr

/-- What TILE_CODE, TILE_CONFIG, WEIGHT_MAP and CANARY_SLOTS give one tile (R232). -/
structure TileImage where
  tile : TileId
  entry : Nat := 0
  code : Tab (BitVec 128) := []
  qcfg : List Word := []
  qctl : Word := 0x14
  bellPorts : Word := 0
  persist : List Word := []
  weights : List WeightRange := []
  canary : Word := 0
  deriving DecidableEq, Repr

/-- The 96-byte TIDE_PARAMS block (R233). -/
structure TideParams where
  blockVersion : Nat := 1
  arithEpoch : Nat := 1
  fabricEpoch : Nat := 1
  stripeCount : Nat := 1
  replayLimit : Nat := 3
  nominalCc : Nat := 4096
  markNominalCc : Nat := 0
  markInterval : Nat := 0
  stretchWarnCc : Nat := 0
  jobDevices : Nat := 1
  weightDigest : BitVec 512 := 0
  deriving DecidableEq, Repr

/-- A receiver entry of ADMISSION_SCRIPT, the 64-bit word of R290. -/
structure Receiver where
  word : Nat
  firstSlot : Nat
  slots : Nat
  x : Nat
  y : Nat
  result : Bool
  deriving DecidableEq, Repr

/-- The ADMISSION_SCRIPT section (R290). -/
structure AdmissionSec where
  version : Nat := 1
  stepLimit : Nat := 16
  decodeSlots : Nat := 0
  decodeTokens : Nat := 1
  prefillSlots : Nat := 0
  prefillTokens : Nat := 32
  receivers : List Receiver := []
  code : List Word := []
  deriving DecidableEq, Repr

/-- The TIERING_SCRIPT section (R270). -/
structure TieringSec where
  version : Nat := 1
  lowFree : Nat := 0
  recency : Nat := 0
  ahead : Nat := 0
  code : List Word := []
  deriving DecidableEq, Repr

/-- A segment word of a collective plan (R343). -/
structure Segment where
  x : Nat
  y : Nat
  word : Nat
  noticeEn : Bool := false
  notice : Nat := 0
  len : Nat
  deriving DecidableEq, Repr

/-- A COLLECTIVE_SCRIPTS section: one reduction plan (R343). -/
structure CollPlan where
  version : Nat := 1
  plan : Nat
  op : Nat
  inFmt : Nat
  outFmt : Nat
  participants : List Nat
  elems : Nat
  interval : Nat := 0
  ins : List Segment
  outs : List Segment
  stepLimit : Nat := 0
  code : List Word := []
  deriving DecidableEq, Repr

/-- A channel table entry of FABRIC_SLOTS (R324). -/
structure Channel where
  id : Nat
  send : Bool
  port : Nat
  peer : Nat
  blockFlits : Nat
  noticeEn : Bool := false
  notice : Nat := 0
  x : Nat
  y : Nat
  word : Nat
  blocks : Nat
  deriving DecidableEq, Repr

/-- The FABRIC_SLOTS section: slot tables keyed port * 4096 + entry (an unlisted entry is 0, IDLE), and the channel table. -/
structure FabricSec where
  version : Nat := 1
  slots : Tab Word := []
  channels : List Channel := []
  deriving DecidableEq, Repr

/-- A POWER_PLAN entry (R457). -/
structure PowerEntry where
  offsetCc : Nat
  level : Nat
  tides : Nat
  deriving DecidableEq, Repr

/-- The sections of a program image (R232); `formOk` says that every section has its length and its reserved bytes 0. -/
structure ProgramBody where
  params : TideParams := {}
  tiles : List TileImage := []
  bells : Tab Word := []
  fabric : Option FabricSec := none
  admission : AdmissionSec := {}
  tiering : Option TieringSec := none
  plans : List CollPlan := []
  capacity : Option (Nat × Nat × List Word) := none
  canaryEntries : Nat := 0
  power : List PowerEntry := []
  formOk : Bool := true
  deriving DecidableEq, Repr

/-- A home-data section of a weight image (R502). -/
structure HomeData where
  offset : Nat
  bytes : List Byte
  deriving DecidableEq, Repr

/-- The home data of a weight image (R502). -/
structure WeightBody where
  home : List HomeData := []
  deriving DecidableEq, Repr

/-- A canary kernel record (R478): 64 bundles, EXPECTED and KERNEL_ID. -/
structure KernelRec where
  bundles : List (BitVec 128) := []
  expected : DWord := 0
  kernelId : Word := 0
  deriving DecidableEq, Repr

/-- A chunk of an image, or the whole (R501): its bytes, and beside them what the sections without a layout in the spec say:
TILE_CODE, TILE_CONFIG and WEIGHT_MAP per tile and CLUSTER_BELLS (R232). [DESIGN CHOICE, log entry 24] -/
structure Image where
  bytes : List Byte
  tiles : List TileImage := []
  bells : Tab Word := []
  deriving DecidableEq, Repr

/-- A page record of a parked stream in a host buffer (R274); `crcOk` says that its CRC matches and its zeros are 0. -/
structure ParkRec where
  page : Nat
  cfill : Nat
  crcOk : Bool
  data : List Byte := []
  deriving DecidableEq, Repr

/-- An SPDM request's parameters (R511): session, slot, measurement index, key-update operation.
[DESIGN CHOICE, log entry 23] -/
structure SpdmReq where
  session : Nat := 0
  slot : Nat := 0
  index : Nat := 0
  verifyOk : Bool := true
  deriving DecidableEq, Repr

end Sys2Proof
end

