-- ==== Sys2Proof/Syntax.lean ====
section
/-!
DEFINITION. The commands of the block: one constructor per row of spec/opcode_table.json. Tile operations carry the tile
(linear index, R4), their slot fields as encoded (R119, R127, R131, R134, R136) and, in `rsv`, the slot bits the opcode
leaves unused (R113). Mailbox commands carry the mailbox number: their parameters stand in the page's payload (R388).
-/

namespace Sys2Proof

/-- One command (one row of the table of operations and events). -/
inductive Instr where
  -- control slot (R119)
  | nop (t : TileId) (rsv : BitVec 19)
  | salu (t : TileId) (rd ra rb : BitVec 5) (fn : BitVec 4)
  | saddi (t : TileId) (rd ra : BitVec 5) (imm : BitVec 9)
  | sli (t : TileId) (rd : BitVec 5) (imm : BitVec 14)
  | slic (t : TileId) (rd : BitVec 5) (imm : BitVec 14)
  | sld (t : TileId) (rd ra : BitVec 5) (imm : BitVec 9)
  | sst (t : TileId) (rs ra : BitVec 5) (imm : BitVec 9)
  | scmp (t : TileId) (pd : BitVec 3) (ra rb : BitVec 5) (cond : BitVec 3) (rsv : BitVec 3)
  | scmpi (t : TileId) (pd : BitVec 3) (ra : BitVec 5) (cond : BitVec 3) (imm : BitVec 8)
  | plog (t : TileId) (pd pa pb : BitVec 3) (fn : BitVec 2) (rsv : BitVec 8)
  | scsr (t : TileId) (rd index : BitVec 5) (rsv : BitVec 9)
  | br (t : TileId) (inv : BitVec 1) (p : BitVec 3) (target : BitVec 10) (rsv : BitVec 5)
  | loop (t : TileId) (sc : BitVec 5) (endB : BitVec 10) (rsv : BitVec 4)
  | loopi (t : TileId) (count : BitVec 9) (endB : BitVec 10)
  | bellRing (t : TileId) (port : BitVec 2) (rsv : BitVec 17)
  | bellWait (t : TileId) (port : BitVec 2) (rsv : BitVec 17)
  | hintLight (t : TileId) (rsv : BitVec 18)
  | hintHeavy (t : TileId) (rsv : BitVec 18)
  | specConfirm (t : TileId) (sa sb : BitVec 5) (rsv : BitVec 8)
  | specDiscard (t : TileId) (sa : BitVec 5) (rsv : BitVec 13)
  | specConfirmVerdict (t : TileId) (sa sb : BitVec 5) (rsv : BitVec 8)
  | specDiscardVerdict (t : TileId) (sa : BitVec 5) (rsv : BitVec 13)
  | deferralNotice (t : TileId) (sa : BitVec 5) (rsv : BitVec 13)
  | end_ (t : TileId) (rsv : BitVec 19)
  -- array slot (R127)
  | arrNop (t : TileId) (rsv : BitVec 22)
  | arrRun (t : TileId) (mode : BitVec 2) (aonly keep wbuf : BitVec 1) (sW sK sA : BitVec 5) (rsv : BitVec 2)
  | arrWin (t : TileId) (array buffer : BitVec 1) (row : BitVec 2) (vA sS : BitVec 5) (rsv : BitVec 8)
  | arrRd (t : TileId) (array : BitVec 1) (imm : BitVec 10) (sI vD : BitVec 5) (rsv : BitVec 1)
  | arrWr (t : TileId) (array : BitVec 1) (imm : BitVec 10) (sI vS : BitVec 5) (rsv : BitVec 1)
  -- vector slot (R131)
  | vnop (t : TileId) (rsv : BitVec 22)
  | vadd (t : TileId) (vD vA vB : BitVec 5) (rsv : BitVec 7)
  | vsub (t : TileId) (vD vA vB : BitVec 5) (rsv : BitVec 7)
  | vmul (t : TileId) (vD vA vB : BitVec 5) (rsv : BitVec 7)
  | vfma (t : TileId) (vD vA vB vC : BitVec 5) (rsv : BitVec 2)
  | vmax (t : TileId) (vD vA vB : BitVec 5) (rsv : BitVec 7)
  | vmin (t : TileId) (vD vA vB : BitVec 5) (rsv : BitVec 7)
  | vabs (t : TileId) (vD vA : BitVec 5) (rsv : BitVec 12)
  | vneg (t : TileId) (vD vA : BitVec 5) (rsv : BitVec 12)
  | vmov (t : TileId) (vD vA : BitVec 5) (rsv : BitVec 12)
  | vbcast (t : TileId) (vD sA : BitVec 5) (rsv : BitVec 12)
  | vcmp (t : TileId) (vD vA vB : BitVec 5) (cond : BitVec 3) (rsv : BitVec 4)
  | vsel (t : TileId) (vD vA vB vC : BitVec 5) (rsv : BitVec 2)
  | vredsum (t : TileId) (vD vA : BitVec 5) (rsv : BitVec 12)
  | vredmax (t : TileId) (vD vA : BitVec 5) (rsv : BitVec 12)
  | vcvt (t : TileId) (vD vA vB : BitVec 5) (code : BitVec 4) (sat : BitVec 1) (rsv : BitVec 2)
  | vmxq (t : TileId) (vD vA : BitVec 5) (fmt : BitVec 4) (sD : BitVec 5) (rsv : BitVec 3)
  | vld (t : TileId) (vD sA : BitVec 5) (imm : BitVec 12)
  | vst (t : TileId) (vS sA : BitVec 5) (imm : BitVec 12)
  | vsfu (t : TileId) (vD vA : BitVec 5) (fn : BitVec 2) (rsv : BitVec 10)
  | vrng (t : TileId) (vD vA vB : BitVec 5) (rsv : BitVec 7)
  | viadd (t : TileId) (vD vA vB : BitVec 5) (rsv : BitVec 7)
  | vand (t : TileId) (vD vA vB : BitVec 5) (rsv : BitVec 7)
  | vshr (t : TileId) (vD vA vB : BitVec 5) (rsv : BitVec 7)
  | vext (t : TileId) (sD vA lane : BitVec 5) (rsv : BitVec 7)
  | vins (t : TileId) (vD sA lane : BitVec 5) (rsv : BitVec 7)
  -- mover slot (R134)
  | mvNop (t : TileId) (rsv : BitVec 20)
  | mvIssue (t : TileId) (tag : BitVec 4) (sD : BitVec 5) (rsv : BitVec 11)
  | mvWait (t : TileId) (mask : BitVec 16) (rsv : BitVec 4)
  | mvTest (t : TileId) (pd : BitVec 3) (tag : BitVec 4) (rsv : BitVec 13)
  -- queue slot (R136)
  | qNop (t : TileId) (rsv : BitVec 21)
  | qSend (t : TileId) (route queue : BitVec 3) (len : BitVec 2) (sS sT : BitVec 5) (rsv : BitVec 3)
  | qSendv (t : TileId) (route queue : BitVec 3) (len : BitVec 2) (vS : BitVec 5) (group : BitVec 3) (sT : BitVec 5)
  | qRecv (t : TileId) (queue : BitVec 3) (len : BitVec 2) (sD : BitVec 5) (rsv : BitVec 11)
  | qRecvv (t : TileId) (queue : BitVec 3) (len : BitVec 2) (vD : BitVec 5) (group : BitVec 3) (rsv : BitVec 8)
  | qTest (t : TileId) (pd queue : BitVec 3) (rsv : BitVec 15)
  -- tile events
  | waitRelease (t : TileId)
  | queueStall (t : TileId)
  | waitStall (t : TileId)
  | noEnd (t : TileId)
  | pendingRunStart (t : TileId)
  | arrayBlockDone (t : TileId)
  | cadenceApply (cluster : Nat)
  | scrubSlot (t : TileId) (bank : Nat)
  -- bells (R199 to R204)
  | bellRingArrive (t : TileId) (port : Nat)
  | bellChannelEvaluate (cluster chan : Nat)
  | bellFireArrive (t : TileId) (port : Nat)
  | tideCompleteRing (t : TileId)
  | partitionTideComplete (p : Nat)
  | faultBell (p : Nat)
  -- neighbour links and queues (R169 to R174)
  | linkTransferArrive (t : TileId) (dir : Nat) (flips : Nat)
  | heldEntryEnter (t : TileId) (dir : Nat)
  | creditReturn (t : TileId) (dir : Nat) (queue : Nat)
  | holdSignalArrive (t : TileId) (dir : Nat)
  | releaseSignalArrive (t : TileId) (dir : Nat)
  | absorbSignalArrive (t : TileId) (dir : Nat)
  | egressDepart (t : TileId)
  | meshEntryArrive (t : TileId)
  | parkedEntryEnter (t : TileId) (queue : Nat)
  | remoteAccessArrive (t : TileId)
  -- the mover (R248, R249)
  | moverRequest (t : TileId) (tag : Nat)
  | moverResponse (t : TileId) (tag : Nat)
  | moverComplete (t : TileId) (tag : Nat)
  | waitingAccessResume (page : Nat)
  -- mesh and memory ports
  | routerFlitPass (rx ry out : Nat) (flips : Nat)
  | edgeChannelPass (stripe : Nat) (east : Bool)
  | memportRequestArrive (port : Nat)
  | memportService (port : Nat) (err : Nat)
  | patrolScrub (port : Nat) (offset : Nat) (err : Nat)
  | hbmTempReport (port : Nat) (temp : Int)
  | hbmTripRecovery (port : Nat) (temp : Int) (markOk : Bool)
  -- tides (R212 to R224)
  | tideStart (p : Nat)
  | tideCommit (p : Nat)
  | abandon (p : Nat)
  | abandonSettled (p : Nat)
  | recovery (p : Nat)
  | recoveryComplete (p : Nat)
  | stopPoint (p : Nat)
  -- tiering (R264 to R275)
  | pageMoveStart (page : Nat)
  | pageMoveSwitch (page : Nat)
  | tieringScriptRun (p : Nat)
  | cxlUioComplete (frame : Nat) (poison : Bool)
  | cxlUioTimeout (frame : Nat) (windowLost : Bool)
  | parkComplete (slot : Nat)
  -- streams (R277 to R312)
  | streamDoorbell (slot : Nat) (producer : Word) (lowHalf : Bool)
  | ringSnoop (slot : Nat)
  | ringHeadRead (slot : Nat) (producer : Word)
  | submissionEntry (slot : Nat) (entry : BitVec 256)
  | promptRefRead (slot : Nat) (ok : Bool) (tokens : List Word)
  | admissionRun (p : Nat)
  | streamVerdictArrive (p : Nat)
  | resultsRead (p : Nat)
  | completionWrite (p : Nat)
  | drainComplete (slot : Nat)
  | streamCommandApply (p : Nat)
  | pageCommandApply (p : Nat)
  | pageBindTimeout (n : Nat)
  -- Hikolink (R313 to R353)
  | hikolinkFlitReceive (port : Nat) (f : HFlit) (fecBad : Bool) (fecCorrected : Nat)
  | lossOfSignal (port : Nat)
  | slotSend (port : Nat)
  | endpointPoll (chan : Nat)
  | receiveBlockComplete (chan : Nat)
  | drumbeat (tide start step : Nat) (replay stop : Bool)
  | confirm (tide instant : Nat) (abandonOutcome : Bool) (cause : Cause)
  | action (tide act kind : Nat) (cause : Cause)
  | member (rank st : Nat)
  | done (child tide count stepReq : Nat)
  | fault (child tide kind : Nat) (cause : Cause)
  | settled (child tide count kind : Nat) (cause : Cause)
  | recovered (child tide count : Nat)
  | doneSend
  | confirmSend
  | treeTimeout
  | clockLockLoss
  | collectiveScriptRun (p plan : Nat)
  | collectiveReduce (p plan : Nat) (ports : List (Nat × Nat))
  | identityBeacon (port : Nat) (b : Beacon)
  | jobFormStepTimeout (stop : FormStop)
  | formationComplete (rootClock : Nat) (epochsAgree : Bool) (links : List (Nat × Nat))
  | portShutdownDone (port : Nat)
  | referenceLoss
  -- host link (R354 to R384)
  | perstAssert
  | perstDeassert (width rate : Nat) (flit256 : Bool)
  | hotReset
  | functionLevelReset
  | hostLinkLoss
  | busMasterDisable
  | d3hotEntry
  | busMasterEnable
  | linkRetrain (width rate : Nat)
  | ideIntegrityFailure
  | ideKmKeyProgram
  | cacheEnableChange (enable : Bool)
  | msixUnmask (vector : Nat)
  | eventCoalesceTimer (vector : Nat)
  -- bring-up and resets (R417 to R430)
  | powerCheck
  | fuseApply
  | clockRoot (pllLocked gensLocked : Bool)
  | baseUp (sramOk regsOk : Bool)
  | mgmtBoot (flashOk runningOk otherOk : Bool)
  | hbmTrain (failed : BitVec 16)
  | memTest (rows : List (Nat × Nat × Bool))
  | clustersUp (failed : List Nat)
  | tileBist (failed : List (Nat × Nat))
  | meshCal (cause : Nat)
  | bootFabricTrain (failed : List (Nat × Nat))
  | ready
  | bootStepComplete
  | bootStepTimeout
  | bootReset (value : Word)
  | deviceResetBegin
  | unitResetDone (scope : Nat) (index : Nat)
  -- registers and the debug window
  | evrCtrl (value : Word)
  | tlrCtrl (value : Word)
  | mbxDoorbell (n : Nat) (value : BitVec 16) (bothBytes : Bool)
  | dbgTile (value : Word)
  | snap (value : Word)
  | debugWindowRead (offset : Nat)
  | debugWindowWrite (offset : Nat) (value : Word)
  | timeLoRead
  | registerWrite (offset : Nat) (value : BitVec 512) (size : Nat)
  -- mailbox commands (R396)
  | identify (n : Nat)
  | logRead (n : Nat)
  | heartbeatSet (n : Nat)
  | partitionCreate (n : Nat)
  | partitionDestroy (n : Nat)
  | partitionSet (n : Nat)
  | partitionQuery (n : Nat)
  | imageStage (n : Nat) (chunk : Image)
  | imageVerify (n : Nat)
  | programLoad (n : Nat)
  | weightLoad (n : Nat)
  | packInstall (n : Nat)
  | stageDiscard (n : Nat)
  | streamOpen (n : Nat)
  | streamClose (n : Nat)
  | streamPark (n : Nat)
  | streamResume (n : Nat) (buf : List Byte)
  | streamQuery (n : Nat)
  | tierWindows (n : Nat)
  | pageBind (n : Nat)
  | pageFree (n : Nat)
  | pageMapRead (n : Nat)
  | runStart (n : Nat)
  | runStop (n : Nat)
  | runSingle (n : Nat)
  | runStartTimeout (n : Nat)
  | powerCapSet (n : Nat)
  | freqStepSet (n : Nat)
  | powerQuery (n : Nat)
  | telemetryConfig (n : Nat)
  | countersRead (n : Nat)
  | canaryConfig (n : Nat)
  | tileObserve (n : Nat)
  | tileRepair (n : Nat)
  | scanRun (n : Nat) (failing : List (Nat × Nat))
  | blackboxRead (n : Nat)
  | fabricTrain (n : Nat) (trained : BitVec 6)
  | jobForm (n : Nat)
  | jobLeave (n : Nat)
  | jobJoin (n : Nat)
  | jobQuery (n : Nat)
  | fwActivate (n : Nat)
  | fwConfirm (n : Nat)
  | fwRollback (n : Nat)
  | ownerSet (n : Nat) (record : List Byte)
  | licenceInstall (n : Nat)
  | debugChallenge (n : Nat)
  | debugUnlock (n : Nat)
  | nonceExpire
  | queuePeek (n : Nat)
  | prepareRemove (n : Nat)
  -- out-of-band management and power-off (R415, R416)
  | pldmBase
  | pldmPlatform (sensor : Nat)
  | pldmFru
  | pldmFileTransfer (source : Nat)
  | emergencyPowerOff
  | blackboxCopyDone
  -- attestation (R511, R512)
  | getVersion
  | getCapabilities
  | negotiateAlgorithms (supported : Bool)
  | getDigests
  | getCertificate (slot : Nat)
  | challenge (slot : Nat)
  | getMeasurements (index : Nat)
  | keyExchange (req : SpdmReq)
  | finish (req : SpdmReq)
  | keyUpdate (req : SpdmReq)
  | heartbeat (req : SpdmReq)
  | endSession (req : SpdmReq)
  -- module power and pins (R524 to R534)
  | pwrEnRise
  | pwrgdRelease
  | pwrEnFall
  | mateOkRelease
  | inputSwitchOpen
  | vinUndervoltage (mv : Nat)
  | vinBrownout (mv : Nat)
  | vinOvervoltage (mv : Nat)
  | switchReclose (mv : Nat)
  | overcurrentLatch (ma : Nat) (overUs : Nat)
  | switchOvertemp (temp : Int)
  -- heat, clocks and power (R439 to R467)
  | clusterTempSample (cluster : Nat) (temps : List Int)
  | thermalRecovery (cluster : Nat) (temp : Int)
  | marginReport (cluster monitor mv : Nat)
  | powerCapEval (input : Nat × Nat)
  | phaseStaging
  | phaseLoss (phase : Nat)
  | pllLockLoss (index : Nat) (standby : Bool)
  | regulatorSettled
  | clockSwitch
  | clusterPowerUpDone (cluster : Nat)
  | telemetryPeriod (currents : List Nat)
  | heartbeatRegisterTick
  | heartbeatInterval
  | watchdogExpire
  -- canaries (R477 to R483)
  | canaryRun (t : TileId)
  | canaryCompare (t : TileId)
  -- management check-value units (R518, R519)
  | cvData8 (u : Nat) (v : Byte)
  | cvData16 (u : Nat) (v : BitVec 16)
  | cvData32 (u : Nat) (v : Word)
  | cvValue (u : Nat) (v : DWord)
  -- the last rows of the table
  | clusterPowerDownDone (cluster : Nat)
  | mateOkFall
  | heldPwrEnPowerUp
  | d3hotExit
  | doeDiscovery (index : Nat)
  deriving DecidableEq, Repr

end Sys2Proof
end

