-- ==== Sys2Proof/Machine/Crc.lean ====
section
/-!
DEFINITION. The computation of the check-value units (spec/19_check_units.md R518, R519): the configuration of a unit, its
register, and the standard CRC-32C and CRC-64/XZ the device itself uses.
-/

namespace Sys2Proof.Machine

/-- A unit's configuration (R518). -/
structure CvConf where
  width : Nat
  poly : Nat
  init : Nat
  xorout : Nat
  fold : Nat
  refin : Bool
  refout : Bool
  foldMode : Nat
  foldBytes : Nat
  deriving DecidableEq, Repr

/-- The context of CV_CTRL and the 64-bit fields (R518). -/
def cvConf (ctrl poly init xorout fold : Nat) : CvConf :=
  { width := ctrl % 128, poly := poly, init := init, xorout := xorout, fold := fold
    refin := ctrl / 2 ^ 30 % 2 = 1, refout := ctrl / 2 ^ 29 % 2 = 1
    foldMode := ctrl / 2 ^ 27 % 4, foldBytes := ctrl / 2 ^ 24 % 8 + 1 }

/-- A reserved WIDTH or FOLD_MODE 3 (R520). -/
def CvConf.bad (c : CvConf) : Bool := c.width = 0 || decide (c.width > 64) || c.foldMode = 3

/-- reflect(v, n) (R519). -/
def reflect (v : Nat) : Nat → Nat
  | 0 => 0
  | n + 1 => v % 2 * 2 ^ n + reflect (v / 2) n

/-- One bit of cv_byte: `b` is the input bit (R519). -/
def cvBit (c : CvConf) (r b : Nat) : Nat :=
  let top := (r / 2 ^ (c.width - 1) + b) % 2
  let r' := r * 2 % 2 ^ c.width
  if top = 1 then Nat.xor r' (c.poly % 2 ^ c.width) else r'

/-- cv_byte (R519). -/
def cvByte (c : CvConf) (r b : Nat) : Nat :=
  let b := if c.refin then reflect b 8 else b
  [7, 6, 5, 4, 3, 2, 1, 0].foldl (fun r k => cvBit c r (b / 2 ^ k % 2)) r

/-- A run of bytes fed. -/
def cvFeed (c : CvConf) (r : Nat) (l : List Byte) : Nat := l.foldl (fun r b => cvByte c r b.toNat) r

/-- cv_start (R519). -/
def cvStart (c : CvConf) : Nat :=
  let r := c.init % 2 ^ c.width
  let r := if c.foldMode = 2 then Nat.xor r (c.fold % 2 ^ c.width) else r
  if c.foldMode = 1 then (List.range c.foldBytes).foldl (fun r i => cvByte c r (c.fold / 2 ^ (8 * i) % 256)) r else r

/-- cv_value (R519). -/
def cvValue (c : CvConf) (r : Nat) : Nat :=
  let v := if c.refout then reflect r c.width else r
  Nat.xor v (c.xorout % 2 ^ c.width) % 2 ^ c.width

/-- The register from which cv_value gives `v` (R519). -/
def cvSet (c : CvConf) (v : Nat) : Nat :=
  let v := Nat.xor (v % 2 ^ c.width) (c.xorout % 2 ^ c.width)
  if c.refout then reflect v c.width else v

/-- CRC-32C (R522). -/
def crc32cConf : CvConf :=
  { width := 32, poly := 0x1EDC6F41, init := 0xFFFFFFFF, xorout := 0xFFFFFFFF, fold := 0, refin := true, refout := true
    foldMode := 0, foldBytes := 1 }

/-- CRC-32C of a byte list. -/
def crc32c (l : List Byte) : Nat := cvValue crc32cConf (cvFeed crc32cConf (cvStart crc32cConf) l)

/-- CRC-64/XZ (R480, R522). -/
def crc64xzConf : CvConf :=
  { width := 64, poly := 0x42F0E1EBA9EA3693, init := 0xFFFFFFFFFFFFFFFF, xorout := 0xFFFFFFFFFFFFFFFF, fold := 0
    refin := true, refout := true, foldMode := 0, foldBytes := 1 }

end Sys2Proof.Machine
end

