-- ==== Sys2Proof/Machine/Num.lean ====
section
/-!
DEFINITION. Number formats and exact arithmetic (spec/02_numerics.md): decoding and encoding of the formats of R34 to
R36, rounding, the vector unit's binary32 arithmetic (R55, R56), conversions (R43 to R45, R132), the special-function
unit (R57 to R60) and the counter-based generator (R61). All arithmetic is exact on Nat and Int and narrowed once.
-/

namespace Sys2Proof.Machine

/-- A decoded value: NaN, a signed infinity, or (-1)^neg * sig * 2^e. -/
inductive FVal where
  | nan
  | inf (neg : Bool)
  | fin (neg : Bool) (sig : Nat) (e : Int)
  deriving DecidableEq, Repr

/-- Element formats of the arrays (R33, R129). -/
inductive EFmt where
  | e4m3 | e5m2 | e3m2 | e2m3 | e2m1 | mxint8 | int8 | bf16
  deriving DecidableEq, Repr

/-- A value of sign, exponent and mantissa bits (R34), no special encodings. -/
def decodeFinite (ebits mbits bias : Nat) (x : Nat) : FVal :=
  let neg := x / 2 ^ (ebits + mbits) % 2 = 1
  let ex := x / 2 ^ mbits % 2 ^ ebits
  let m := x % 2 ^ mbits
  if ex = 0 then .fin neg m (1 - (bias : Int) - mbits)
  else .fin neg (2 ^ mbits + m) ((ex : Int) - bias - mbits)

/-- The same with IEEE infinities and NaNs at the highest exponent. -/
def decodeIeee (ebits mbits bias : Nat) (x : Nat) : FVal :=
  if x / 2 ^ mbits % 2 ^ ebits = 2 ^ ebits - 1 then
    if x % 2 ^ mbits = 0 then .inf (x / 2 ^ (ebits + mbits) % 2 = 1) else .nan
  else decodeFinite ebits mbits bias x

/-- Binary32 (R34). -/
def decodeFp32 (x : Word) : FVal := decodeIeee 8 23 127 x.toNat

/-- The value of an integer times 2^e. -/
def ofIntVal (i : Int) (e : Int) : FVal := .fin (i < 0) i.natAbs e

/-- An element encoding's value without its block scale (R34, R35). -/
def decodeElem (f : EFmt) (x : Nat) : FVal :=
  match f with
  | .e4m3 => if x % 128 = 127 then .nan else decodeFinite 4 3 7 (x % 256)
  | .e5m2 => decodeIeee 5 2 15 (x % 256)
  | .e3m2 => decodeFinite 3 2 3 (x % 64)
  | .e2m3 => decodeFinite 2 3 1 (x % 64)
  | .e2m1 => decodeFinite 2 1 1 (x % 16)
  | .mxint8 => ofIntVal (BitVec.ofNat 8 x).toInt (-6)
  | .int8 => ofIntVal (BitVec.ofNat 8 x).toInt 0
  | .bf16 => decodeIeee 8 7 127 (x % 65536)

/-- sig * 2^e to a multiple of 2^w, ties to even: the multiplier. -/
def roundShift (sig : Nat) (e w : Int) : Nat :=
  let s := w - e
  if s ≤ 0 then sig * 2 ^ (-s).toNat
  else
    let k := s.toNat
    let q := sig / 2 ^ k
    let r := sig % 2 ^ k
    let h := 2 ^ (k - 1)
    if r > h ∨ (r = h ∧ q % 2 = 1) then q + 1 else q

/-- round_fp32 of R58. -/
def roundFp32 (neg : Bool) (sig : Nat) (e : Int) : Word :=
  if sig = 0 then 0
  else
    let w0 : Int := max ((Nat.log2 sig : Int) + e - 23) (-149)
    let q0 := roundShift sig e w0
    let q := if q0 = 2 ^ 24 then 2 ^ 23 else q0
    let w := if q0 = 2 ^ 24 then w0 + 1 else w0
    let sg : Nat := if neg then 0x80000000 else 0
    if q < 2 ^ 23 then BitVec.ofNat 32 (sg + q)
    else if w + 23 > 127 then BitVec.ofNat 32 (sg + 0x7F800000)
    else BitVec.ofNat 32 (sg + (w + 150).toNat * 2 ^ 23 + (q - 2 ^ 23))

/-- The canonical NaN of binary32 (R37). -/
def nan32 : Word := 0x7FC00000

/-- A signed zero. -/
def zero32 (neg : Bool) : Word := if neg then 0x80000000 else 0

/-- A signed infinity. -/
def inf32 (neg : Bool) : Word := if neg then 0xFF800000 else 0x7F800000

/-- Any value to binary32, one rounding; a zero keeps its sign. -/
def encodeFp32 (v : FVal) : Word :=
  match v with
  | .nan => nan32
  | .inf n => inf32 n
  | .fin n sig e => if sig = 0 then zero32 n else roundFp32 n sig e

/-- (-1)^neg * sig. -/
def signed (neg : Bool) (sig : Nat) : Int := if neg then -(sig : Int) else sig

/-- The exact sum of two values; an exact zero sum is -0 only when both are -0 or negative zeros. -/
def addVal (a b : FVal) : FVal :=
  match a, b with
  | .nan, _ => .nan
  | _, .nan => .nan
  | .inf n, .inf m => if n = m then .inf n else .nan
  | .inf n, _ => .inf n
  | _, .inf m => .inf m
  | .fin n s e, .fin m t f =>
    let g := min e f
    let i := signed n s * 2 ^ (e - g).toNat + signed m t * 2 ^ (f - g).toNat
    if i = 0 then .fin (n && m && s = 0 && t = 0) 0 g else ofIntVal i g

/-- The exact product. -/
def mulVal (a b : FVal) : FVal :=
  match a, b with
  | .nan, _ => .nan
  | _, .nan => .nan
  | .inf n, .inf m => .inf (n ^^ m)
  | .inf n, .fin m t _ => if t = 0 then .nan else .inf (n ^^ m)
  | .fin n s _, .inf m => if s = 0 then .nan else .inf (n ^^ m)
  | .fin n s e, .fin m t f => .fin (n ^^ m) (s * t) (e + f)

/-- The sign inverted. -/
def negVal (a : FVal) : FVal :=
  match a with
  | .nan => .nan
  | .inf n => .inf (!n)
  | .fin n s e => .fin (!n) s e

/-- Binary32 addition (R51, R55). -/
def fadd (a b : Word) : Word := encodeFp32 (addVal (decodeFp32 a) (decodeFp32 b))

/-- Binary32 subtraction (R55). -/
def fsub (a b : Word) : Word := encodeFp32 (addVal (decodeFp32 a) (negVal (decodeFp32 b)))

/-- Binary32 multiplication (R55). -/
def fmul (a b : Word) : Word := encodeFp32 (mulVal (decodeFp32 a) (decodeFp32 b))

/-- Fused multiply-add, one rounding (R55). -/
def ffma (a b c : Word) : Word :=
  encodeFp32 (addVal (mulVal (decodeFp32 a) (decodeFp32 b)) (decodeFp32 c))

/-- Less-than of values, both zeros equal; false with a NaN. -/
def ltVal (a b : FVal) : Bool :=
  match a, b with
  | .nan, _ => false
  | _, .nan => false
  | .inf n, .inf m => n && !m
  | .inf n, _ => n
  | _, .inf m => !m
  | .fin n s e, .fin m t f =>
    let g := min e f
    decide (signed n s * 2 ^ (e - g).toNat < signed m t * 2 ^ (f - g).toNat)

/-- Equality of values, both zeros equal; false with a NaN. -/
def eqVal (a b : FVal) : Bool :=
  match a, b with
  | .nan, _ => false
  | _, .nan => false
  | .inf n, .inf m => n = m
  | .inf _, _ => false
  | _, .inf _ => false
  | .fin n s e, .fin m t f =>
    let g := min e f
    decide (signed n s * 2 ^ (e - g).toNat = signed m t * 2 ^ (f - g).toNat)

/-- Whether a binary32 word is a NaN. -/
def isNan32 (a : Word) : Bool := decodeFp32 a = .nan

/-- Maximum (R55): any NaN gives the canonical NaN, and +0 exceeds -0. -/
def fmax (a b : Word) : Word :=
  if isNan32 a || isNan32 b then nan32
  else if ltVal (decodeFp32 a) (decodeFp32 b) then b
  else if ltVal (decodeFp32 b) (decodeFp32 a) then a
  else a &&& b

/-- Minimum (R55): any NaN gives the canonical NaN, and -0 is below +0. -/
def fmin (a b : Word) : Word :=
  if isNan32 a || isNan32 b then nan32
  else if ltVal (decodeFp32 a) (decodeFp32 b) then a
  else if ltVal (decodeFp32 b) (decodeFp32 a) then b
  else a ||| b

/-- VABS (R131). -/
def fabs (a : Word) : Word := if isNan32 a then nan32 else a &&& 0x7FFFFFFF

/-- VNEG (R131). -/
def fneg (a : Word) : Word := if isNan32 a then nan32 else a ^^^ 0x80000000

/-- VCMP's conditions (R131): EQ, NE, LT, LE. -/
def fcmp (cond : Nat) (a b : Word) : Bool :=
  let x := decodeFp32 a
  let y := decodeFp32 b
  match cond with
  | 0 => eqVal x y
  | 1 => !(eqVal x y)
  | 2 => ltVal x y
  | _ => ltVal x y || eqVal x y

/-- One level of a pairwise tree: elements 2i and 2i + 1 combined. -/
def pairUp {α : Type} (f : α → α → α) : List α → List α
  | a :: b :: r => f a b :: pairUp f r
  | r => r

/-- The fixed pairwise tree of R56 over 32 lanes: five levels. -/
def tree32 {α : Type} (f : α → α → α) (d : α) (l : List α) : α :=
  (pairUp f (pairUp f (pairUp f (pairUp f (pairUp f l))))).headD d

/-- A non-negative sig * 2^e as a magnitude code of a narrow format, ties to even, unbounded above. -/
def roundCode (mbits bias sig : Nat) (e : Int) : Nat :=
  if sig = 0 then 0
  else
    let w : Int := max ((Nat.log2 sig : Int) + e - mbits) (1 - (bias : Int) - mbits)
    let q := roundShift sig e w
    if q < 2 ^ mbits then q else (w + mbits + bias).toNat * 2 ^ mbits + (q - 2 ^ mbits)

/-- sig * 2^e is at least n. -/
def atLeast (sig : Nat) (e : Int) (n : Nat) : Bool :=
  if 0 ≤ e then decide (sig * 2 ^ e.toNat ≥ n) else decide (sig ≥ n * 2 ^ (-e).toNat)

/-- FP32 to E4M3 (R43). -/
def toE4M3 (sat : Bool) (v : FVal) : Nat :=
  match v with
  | .nan => 0x7F
  | .inf n => if sat then (if n then 0xFE else 0x7E) else 0x7F
  | .fin n s e =>
    if !sat && atLeast s e 464 then 0x7F
    else (if n then 0x80 else 0) + min (roundCode 3 7 s e) 0x7E

/-- FP32 to E5M2 (R43). -/
def toE5M2 (sat : Bool) (v : FVal) : Nat :=
  match v with
  | .nan => 0x7E
  | .inf n => (if n then 0x80 else 0) + (if sat then 0x7B else 0x7C)
  | .fin n s e =>
    (if n then 0x80 else 0) +
      (if !sat && atLeast s e 61440 then 0x7C else min (roundCode 2 15 s e) 0x7B)

/-- FP32 to BF16 (R43). -/
def toBF16 (sat : Bool) (v : FVal) : Nat :=
  match v with
  | .nan => 0x7FC0
  | .inf n => (if n then 0x8000 else 0) + 0x7F80
  | .fin n s e =>
    (if n then 0x8000 else 0) + min (roundCode 7 127 s e) (if sat then 0x7F7F else 0x7F80)

/-- A value to the nearest integer, ties to even, saturating; NaN gives 0 (R44, R132). -/
def toIntSat (lo hi : Int) (v : FVal) : Int :=
  match v with
  | .nan => 0
  | .inf n => if n then lo else hi
  | .fin n s e => max lo (min hi (signed n (roundShift s e 0)))

/-- The scale of an E8M0 byte; 0xFF gives NaN (R36). -/
def scaleVal (v : Nat) : FVal := if v % 256 = 255 then .nan else .fin false 1 ((v % 256 : Nat) - (127 : Int))

/-- An element times its block scale (R38). -/
def scaledElem (f : EFmt) (x scale : Nat) : FVal := mulVal (decodeElem f x) (scaleVal scale)

/-- VCVT codes 0 to 14 (R132) on a lane `a` with the scale lane `b`. -/
def cvtLane (code : Nat) (sat : Bool) (a b : Word) : Word :=
  let v := decodeFp32 a
  let sc := b.toNat % 256
  match code with
  | 0 => BitVec.ofNat 32 (toE4M3 sat v)
  | 1 => BitVec.ofNat 32 (toE5M2 sat v)
  | 2 => BitVec.ofNat 32 (toBF16 sat v)
  | 3 => BitVec.ofNat 32 (BitVec.ofInt 8 (toIntSat (-128) 127 v)).toNat
  | 4 => BitVec.ofInt 32 (toIntSat (-2147483648) 2147483647 v)
  | 5 => encodeFp32 (ofIntVal a.toInt 0)
  | 6 => encodeFp32 (decodeElem .bf16 a.toNat)
  | 7 => encodeFp32 (decodeElem .int8 a.toNat)
  | 8 => encodeFp32 (scaledElem .e4m3 a.toNat sc)
  | 9 => encodeFp32 (scaledElem .e5m2 a.toNat sc)
  | 10 => encodeFp32 (scaledElem .e3m2 a.toNat sc)
  | 11 => encodeFp32 (scaledElem .e2m3 a.toNat sc)
  | 12 => encodeFp32 (scaledElem .e2m1 a.toNat sc)
  | 13 => encodeFp32 (scaledElem .mxint8 a.toNat sc)
  | _ => encodeFp32 (.fin false (a.toNat / 256) (-24))

/-- emax of R45. -/
def emaxOf (f : EFmt) : Int :=
  match f with
  | .e4m3 => 8
  | .e5m2 => 15
  | .e3m2 => 4
  | .e2m3 => 2
  | .e2m1 => 2
  | _ => 0

/-- to_element of R45: ties to even, saturating. -/
def toElement (f : EFmt) (neg : Bool) (s : Nat) (e : Int) : Nat :=
  match f with
  | .e4m3 => (if neg then 0x80 else 0) + min (roundCode 3 7 s e) 0x7E
  | .e5m2 => (if neg then 0x80 else 0) + min (roundCode 2 15 s e) 0x7B
  | .e3m2 => (if neg then 0x20 else 0) + min (roundCode 2 3 s e) 0x1F
  | .e2m3 => (if neg then 0x20 else 0) + min (roundCode 3 1 s e) 0x1F
  | .e2m1 => (if neg then 0x8 else 0) + min (roundCode 1 1 s e) 0x7
  | _ => (BitVec.ofInt 8 (signed neg (min (roundShift s (e + 6) 0) 127))).toNat

/-- Whether a value is finite. -/
def isFin (v : FVal) : Bool :=
  match v with
  | .fin _ _ _ => true
  | _ => false

/-- floor(log2 |v|) of a non-zero finite value, else none. -/
def floorLog2 (v : FVal) : Option Int :=
  match v with
  | .fin _ s e => if s = 0 then none else some ((Nat.log2 s : Int) + e)
  | _ => none

/-- The greater of two optional exponents. -/
def maxOpt (a b : Option Int) : Option Int :=
  match a, b with
  | some x, some y => some (max x y)
  | none, y => y
  | x, none => x

/-- mx_quantise (R45): the scale byte and the elements. -/
def mxQuantise (f : EFmt) (v : List Word) : Nat × List Nat :=
  let d := v.map decodeFp32
  if d.any (fun x => !(isFin x)) then (0xFF, v.map fun _ => 0)
  else
    match (d.map floorLog2).foldl maxOpt none with
    | none => (0, v.map fun _ => 0)
    | some m =>
      let x : Int := max (-127) (min 127 (m - emaxOf f))
      ((x + 127).toNat, d.map fun w => match w with
        | .fin n s e => toElement f n s (e - x)
        | _ => 0)

/-- VMXQ's formats (R133). -/
def vmxqFmt (n : Nat) : Option EFmt :=
  match n with
  | 0 => some .e4m3
  | 1 => some .e5m2
  | 2 => some .e3m2
  | 3 => some .e2m3
  | 4 => some .e2m1
  | 5 => some .mxint8
  | _ => none

/-- The largest integer whose square does not exceed n, bit by bit from 2^k down (R59). -/
def isqrtFrom (n : Nat) : Nat → Nat → Nat
  | 0, r => r
  | k + 1, r => isqrtFrom n k (if (r + 2 ^ k) * (r + 2 ^ k) ≤ n then r + 2 ^ k else r)

/-- isqrt (R59). -/
def isqrt (n : Nat) : Nat := isqrtFrom n (Nat.log2 n / 2 + 1) 0

/-- decompose (R58) of a finite non-zero value: the significand with its top bit at 23, and its exponent. -/
def normalise (sig : Nat) (e : Int) : Nat × Int :=
  let k := 23 - Nat.log2 sig
  (sig * 2 ^ k, e - k)

/-- rcp (R59). -/
def rcpFin (neg : Bool) (sig : Nat) (e : Int) : Word :=
  let (mx, ex) := normalise sig e
  let q := 2 ^ 100 / mx
  roundFp32 neg (2 * q + (if q * mx = 2 ^ 100 then 0 else 1)) (-101 - ex)

/-- rsqrt (R59). -/
def rsqrtFin (sig : Nat) (e : Int) : Word :=
  let (mx, ex0) := normalise sig e
  let odd := ex0 % 2 = 1
  let m := if odd then mx * 2 else mx
  let ex := if odd then ex0 - 1 else ex0
  let y := isqrt (2 ^ 200 / m)
  roundFp32 false (2 * y + (if y * y * m = 2 ^ 200 then 0 else 1)) (-101 - ex / 2)

/-- c[i] for i = 1 to 32: the integer nearest to 2^(2^-i) * 2^62 (R60). -/
def exp2Consts : List Nat :=
  [6521908912666391106, 5484249825272419512, 5029079263719320435, 4815862801830788490,
   4712668792719003884, 4661903986662671290, 4636727017470743990, 4624189567668517720,
   4617933561212708776, 4614808732577250068, 4613247111281068008, 4612466498810092975,
   4612076242109103707, 4611881126141011236, 4611783571252412754, 4611734794581956353,
   4611710406440186476, 4611698212417665819, 4611692115418496524, 4611689066921934630,
   4611687542674409371, 4611686780550835664, 4611686399489096040, 4611686208958238036,
   4611686113692811986, 4611686066060099699, 4611686042243743740, 4611686030335565807,
   4611686024381476851, 4611686021404432377, 4611686019915910140, 4611686019171649022]

/-- The truncating products of exp2 (R60): bit 32 - i of f selects c[i]. -/
def exp2Loop (f : Nat) : Nat → List Nat → Nat → Nat
  | _, [], p => p
  | i, c :: r, p => exp2Loop f (i + 1) r (if f / 2 ^ (32 - i) % 2 = 1 then p * c / 2 ^ 62 else p)

/-- exp2 (R60) of a finite value with -150 < x < 128. -/
def exp2Fin (neg : Bool) (sig : Nat) (e : Int) : Word :=
  let xf := signed neg (roundShift sig (e + 32) 0)
  let n := xf / 2 ^ 32
  let f := (xf % 2 ^ 32).toNat
  roundFp32 false (exp2Loop f 1 exp2Consts (2 ^ 62)) (n - 62)

/-- The squarings of log2 (R60): 64 result bits. -/
def log2Loop : Nat → Nat → Nat → Nat
  | 0, _, f => f
  | k + 1, z, f =>
    let z2 := z * z / 2 ^ 62
    if z2 ≥ 2 ^ 63 then log2Loop k (z2 / 2) (2 * f + 1) else log2Loop k z2 (2 * f)

/-- log2 (R60) of a positive finite value. -/
def log2Fin (sig : Nat) (e : Int) : Word :=
  let (mx, ex) := normalise sig e
  let t : Int := (ex + 23) * 2 ^ 64 + log2Loop 64 (mx * 2 ^ 39) 0
  if t = 0 then 0 else roundFp32 (t < 0) t.natAbs (-64)

/-- VSFU (R58): fn 0 exp2, 1 log2, 2 reciprocal, 3 reciprocal square root, special inputs first. -/
def sfu (fn : Nat) (x : Word) : Word :=
  match decodeFp32 x with
  | .nan => nan32
  | .inf neg =>
    match fn with
    | 0 => if neg then 0 else inf32 false
    | 1 => if neg then nan32 else inf32 false
    | 2 => zero32 neg
    | _ => if neg then nan32 else 0
  | .fin neg sig e =>
    if sig = 0 then
      match fn with
      | 0 => 0x3F800000
      | 1 => inf32 true
      | _ => inf32 neg
    else
      match fn with
      | 0 => if atLeast sig e 128 && !neg then inf32 false
             else if atLeast sig e 150 && neg then 0 else exp2Fin neg sig e
      | 1 => if neg then nan32 else log2Fin sig e
      | 2 => rcpFin neg sig e
      | _ => if neg then nan32 else rsqrtFin sig e

/-- One round of crng_block (R61) with the key words and rotations of the round. -/
def crngRound (k0 k2 mult : Word) (ra rb : Nat) (x : Word × Word × Word × Word) : Word × Word × Word × Word :=
  let (x0, x1, x2, x3) := x
  let x0 := x0 + k0
  let x2 := x2 + (k2 ^^^ (0x9E3779B9 * mult))
  let x0 := x0 + x1
  let x1 := x1.rotateLeft ra ^^^ x0
  let x2 := x2 + x3
  let x3 := x3.rotateLeft rb ^^^ x2
  (x0, x3, x2, x1)

/-- crng_block (R61). -/
def crngBlock (c k : List Word) : List Word :=
  let k0 := k.getD 0 0
  let k1 := k.getD 1 0
  let k2 := k.getD 2 0
  let k3 := k.getD 3 0
  let x := (c.getD 0 0, c.getD 1 0, c.getD 2 0, c.getD 3 0)
  let x := crngRound k0 k2 1 13 17 x
  let x := crngRound k1 k3 2 19 5 x
  let x := crngRound k2 k0 3 7 29 x
  let x := crngRound k3 k1 4 23 11 x
  [x.1 + k0, x.2.1 + k1, x.2.2.1 + k2, x.2.2.2 + k3]

/-- VRNG (R133): eight counters in the lanes of `a`, the key in lanes 0 to 3 of `b`. -/
def vrngLanes (a b : List Word) : List Word :=
  (List.range 8).flatMap fun m => crngBlock ((a.drop (4 * m)).take 4) (b.take 4)

/-- The uniform value of an output word (R62). -/
def uniformOf (w : Word) : Word := encodeFp32 (.fin false (w.toNat / 256) (-24))

end Sys2Proof.Machine
end

