-- ==== Sys2Proof/Machine/Flags.lean ====
section
/-!
DEFINITION. What sets a predicate or a mask: the comparison conditions of SCMP and SCMPI and the SALU functions (R120),
the predicate operations of PLOG (R119), and VCMP's mask (R131).
-/

namespace Sys2Proof.Machine

/-- fn(ra, rb) of SALU (R120); none for a reserved code. -/
def saluFn (fn : Nat) (a b : Word) : Option Word :=
  match fn with
  | 0 => some (a + b)
  | 1 => some (a - b)
  | 2 => some (a &&& b)
  | 3 => some (a ||| b)
  | 4 => some (a ^^^ b)
  | 5 => some (a <<< (b.toNat % 32))
  | 6 => some (a >>> (b.toNat % 32))
  | 7 => some (a.sshiftRight (b.toNat % 32))
  | 8 => some (a * b)
  | 9 => some (if a.slt b then a else b)
  | 10 => some (if a.slt b then b else a)
  | 11 => some (if a.ult b then a else b)
  | 12 => some (if a.ult b then b else a)
  | _ => none

/-- cond(ra, rb) of SCMP and SCMPI (R120); none for a reserved code. -/
def condFn (cond : Nat) (a b : Word) : Option Bool :=
  match cond with
  | 0 => some (a == b)
  | 1 => some (a != b)
  | 2 => some (a.slt b)
  | 3 => some (!(a.slt b))
  | 4 => some (a.ult b)
  | 5 => some (!(a.ult b))
  | _ => none

/-- PLOG's functions (R119). -/
def plogFn (fn : Nat) (a b : Bool) : Bool :=
  match fn with
  | 0 => a && b
  | 1 => a || b
  | 2 => a ^^ b
  | _ => a && !b

/-- A lane of VCMP (R131). -/
def cmpMask (cond : Nat) (a b : Word) : Word := if fcmp cond a b then 0xFFFFFFFF else 0

end Sys2Proof.Machine
end

