-- ==== Sys2Proof/Config.lean ====
section
/-!
DEFINITION. What the spec leaves to the part or leaves open: every constant here is opaque, so no proof can lean on a
value of it. The argument of each is the plain counter `State.freeCtr` (a fresh value each time) or the operands named.
-/

namespace Sys2Proof

/-- Which of the old and the new value a register read inside a write's latency window returns (R114: not fixed). -/
opaque Config.freeBit : Nat → Bool

/-- A 32-bit value the spec leaves open: a word of a discarded shadow range (R143), a moved tile's register (R469). -/
opaque Config.freeWord : Nat → Word

/-- A 64-byte debug nonce drawn from the crypto engine's random source (R513). -/
opaque Config.freeNonce : Nat → BitVec 512

/-- What an error of three or more bits in one coded word does: 0 reported, 1 miscorrected, 2 undetected (R158). [DESIGN CHOICE, log entry 7] -/
opaque Config.freeEcc : Nat → Nat

/-- Bundle `b` of kernel `k` of the base set: vendor data that is no part of the manual (R478). [DESIGN CHOICE, log entry 20] -/
opaque Config.baseBundle : Nat → Nat → BitVec 128

/-- EXPECTED of kernel `k` of the base set (R478). -/
opaque Config.baseExpected : Nat → BitVec 64

/-- KERNEL_ID of kernel `k` of the base set (R478). -/
opaque Config.baseKernelId : Nat → Word

/-- Milliseconds that the management core takes to restart after a watchdog, at most 2,000 (R386). [DESIGN CHOICE, log entry 171] -/
opaque Config.restartMs : Nat → Nat

/-- Version of a PLDM type served over I3C (R415): the manual names no number. [DESIGN CHOICE, log entry 168] -/
opaque Config.pldmVersion : Nat → Nat

/-- Criram's vendor ID (R357): the manual names no number. [DESIGN CHOICE, log entry 168] -/
opaque Config.vendorId : BitVec 16

/-- A word of the CXL component registers by offset and by what the host last wrote there (R359): laid out as CXL 3.1 defines them,
which is no part of the manual. [DESIGN CHOICE, log entry 168] -/
opaque Config.componentReg : Nat → Word → Word

end Sys2Proof
end

