-- ==== Sys2Proof/Machine/Crypto.lean ====
section
/-!
DEFINITION. The algorithms that spec/18_security.md names and leaves to their standards: SHA-512 (FIPS 180-4), HMAC and HKDF
over it (R495, R507), the group P-521 with ECDH and the ECDSA check of FIPS 186-5 (R497, R507), and AES-256-GCM (R507).
[PRESUMED, log entry 22: the algorithms are those standards']
-/

namespace Sys2Proof.Machine

/-! Byte strings, most significant byte first -/

/-- The number of a byte string, most significant byte first (R497). -/
def beNat (l : List Byte) : Nat := l.foldl (fun n b => n * 256 + b.toNat) 0

/-- The `n` low bytes of a number, most significant byte first. -/
def beBytes : Nat → Nat → List Byte
  | 0, _ => []
  | n + 1, v => BitVec.ofNat 8 (v / 256 ^ n) :: beBytes n v

/-- The bytes of two strings, each pair combined by exclusive or. -/
def xorBytes (a b : List Byte) : List Byte := List.zipWith (· ^^^ ·) a b

/-! SHA-512 -/

/-- Round constants: the first 64 bits of the fractional parts of the cube roots of the first 80 primes. -/
def shaRound : List Nat :=
  [0x428a2f98d728ae22, 0x7137449123ef65cd, 0xb5c0fbcfec4d3b2f, 0xe9b5dba58189dbbc]
  ++ [0x3956c25bf348b538, 0x59f111f1b605d019, 0x923f82a4af194f9b, 0xab1c5ed5da6d8118]
  ++ [0xd807aa98a3030242, 0x12835b0145706fbe, 0x243185be4ee4b28c, 0x550c7dc3d5ffb4e2]
  ++ [0x72be5d74f27b896f, 0x80deb1fe3b1696b1, 0x9bdc06a725c71235, 0xc19bf174cf692694]
  ++ [0xe49b69c19ef14ad2, 0xefbe4786384f25e3, 0x0fc19dc68b8cd5b5, 0x240ca1cc77ac9c65]
  ++ [0x2de92c6f592b0275, 0x4a7484aa6ea6e483, 0x5cb0a9dcbd41fbd4, 0x76f988da831153b5]
  ++ [0x983e5152ee66dfab, 0xa831c66d2db43210, 0xb00327c898fb213f, 0xbf597fc7beef0ee4]
  ++ [0xc6e00bf33da88fc2, 0xd5a79147930aa725, 0x06ca6351e003826f, 0x142929670a0e6e70]
  ++ [0x27b70a8546d22ffc, 0x2e1b21385c26c926, 0x4d2c6dfc5ac42aed, 0x53380d139d95b3df]
  ++ [0x650a73548baf63de, 0x766a0abb3c77b2a8, 0x81c2c92e47edaee6, 0x92722c851482353b]
  ++ [0xa2bfe8a14cf10364, 0xa81a664bbc423001, 0xc24b8b70d0f89791, 0xc76c51a30654be30]
  ++ [0xd192e819d6ef5218, 0xd69906245565a910, 0xf40e35855771202a, 0x106aa07032bbd1b8]
  ++ [0x19a4c116b8d2d0c8, 0x1e376c085141ab53, 0x2748774cdf8eeb99, 0x34b0bcb5e19b48a8]
  ++ [0x391c0cb3c5c95a63, 0x4ed8aa4ae3418acb, 0x5b9cca4f7763e373, 0x682e6ff3d6b2b8a3]
  ++ [0x748f82ee5defb2fc, 0x78a5636f43172f60, 0x84c87814a1f0ab72, 0x8cc702081a6439ec]
  ++ [0x90befffa23631e28, 0xa4506cebde82bde9, 0xbef9a3f7b2c67915, 0xc67178f2e372532b]
  ++ [0xca273eceea26619c, 0xd186b8c721c0c207, 0xeada7dd6cde0eb1e, 0xf57d4f7fee6ed178]
  ++ [0x06f067aa72176fba, 0x0a637dc5a2c898a6, 0x113f9804bef90dae, 0x1b710b35131c471b]
  ++ [0x28db77f523047d84, 0x32caab7b40c72493, 0x3c9ebe0a15c9bebc, 0x431d67c49c100d4c]
  ++ [0x4cc5d4becb3e42b6, 0x597f299cfc657e2a, 0x5fcb6fab3ad6faec, 0x6c44198c4a475817]

/-- The eight words of a SHA-512 state. -/
structure ShaState where
  a : Nat
  b : Nat
  c : Nat
  d : Nat
  e : Nat
  f : Nat
  g : Nat
  h : Nat

/-- The initial state: the first 64 bits of the fractional parts of the square roots of the first 8 primes. -/
def shaInit : ShaState :=
  { a := 0x6a09e667f3bcc908, b := 0xbb67ae8584caa73b, c := 0x3c6ef372fe94f82b, d := 0xa54ff53a5f1d36f1
    e := 0x510e527fade682d1, f := 0x9b05688c2b3e6c1f, g := 0x1f83d9abfb41bd6b, h := 0x5be0cd19137e2179 }

/-- A 64-bit word rotated right. -/
def rotr64 (x n : Nat) : Nat := x / 2 ^ n ||| x * 2 ^ (64 - n) % 2 ^ 64

/-- One round with constant `k` and schedule word `w`. -/
def ShaState.round (s : ShaState) (k w : Nat) : ShaState :=
  let ch := (s.e &&& s.f) ^^^ ((2 ^ 64 - 1 - s.e) &&& s.g)
  let maj := (s.a &&& s.b) ^^^ (s.a &&& s.c) ^^^ (s.b &&& s.c)
  let t := s.h + (rotr64 s.e 14 ^^^ rotr64 s.e 18 ^^^ rotr64 s.e 41) + ch + k + w
  { a := (t + (rotr64 s.a 28 ^^^ rotr64 s.a 34 ^^^ rotr64 s.a 39) + maj) % 2 ^ 64
    b := s.a, c := s.b, d := s.c, e := (s.d + t) % 2 ^ 64, f := s.e, g := s.f, h := s.g }

/-- The message schedule's next word from the last sixteen. -/
def shaNext (w : List Nat) : Nat :=
  let x := w.getD 1 0
  let y := w.getD 14 0
  ((rotr64 y 19 ^^^ rotr64 y 61 ^^^ y / 2 ^ 6) + w.getD 9 0 + (rotr64 x 1 ^^^ rotr64 x 8 ^^^ x / 2 ^ 7) + w.headD 0) % 2 ^ 64

/-- Every round of one block; `w` holds the next sixteen words of the schedule. -/
def shaRounds : List Nat → List Nat → ShaState → ShaState
  | [], _, s => s
  | k :: ks, w, s => shaRounds ks (w.tail ++ [shaNext w]) (s.round k (w.headD 0))

/-- A byte string as `n` words of 8 bytes. -/
def shaWords : Nat → List Byte → List Nat
  | 0, _ => []
  | n + 1, l => beNat (l.take 8) :: shaWords n (l.drop 8)

/-- One block of 128 bytes. -/
def ShaState.block (s : ShaState) (l : List Byte) : ShaState :=
  let r := shaRounds shaRound (shaWords 16 l) s
  let add := fun (x y : Nat) => (x + y) % 2 ^ 64
  { a := add s.a r.a, b := add s.b r.b, c := add s.c r.c, d := add s.d r.d, e := add s.e r.e, f := add s.f r.f, g := add s.g r.g
    h := add s.h r.h }

/-- `n` blocks. -/
def shaBlocks : Nat → ShaState → List Byte → ShaState
  | 0, s, _ => s
  | n + 1, s, l => shaBlocks n (s.block (l.take 128)) (l.drop 128)

/-- The padded message: a one bit, zeros, the length in bits as 16 bytes. -/
def shaPad (l : List Byte) : List Byte := l ++ [0x80] ++ List.replicate ((239 - l.length % 128) % 128) 0 ++ beBytes 16 (8 * l.length)

/-- SHA-512 as 64 bytes. -/
def shaBytes (l : List Byte) : List Byte :=
  let p := shaPad l
  let s := shaBlocks (p.length / 128) shaInit p
  [s.a, s.b, s.c, s.d, s.e, s.f, s.g, s.h].flatMap (beBytes 8)

/-- SHA-512 of a byte string, its first byte least significant as the device stores it (R8). -/
def sha512 (l : List Byte) : BitVec 512 := BitVec.ofNat 512 (beNat (shaBytes l).reverse)

/-! HMAC and HKDF over SHA-512 -/

/-- HMAC-SHA-512. -/
def hmac (key msg : List Byte) : List Byte :=
  let k := if key.length > 128 then shaBytes key else key
  let k := k ++ List.replicate (128 - k.length) 0
  shaBytes (k.map (· ^^^ 0x5C) ++ shaBytes (k.map (· ^^^ 0x36) ++ msg))

/-- T(i), T(i + 1), ... of HKDF-Expand: `n` blocks after the block `prev`. -/
def hkdfBlocks (prk info : List Byte) : Nat → Nat → List Byte → List Byte
  | 0, _, _ => []
  | n + 1, i, prev =>
    let t := hmac prk (prev ++ info ++ [BitVec.ofNat 8 i])
    t ++ hkdfBlocks prk info n (i + 1) t

/-- HKDF-Expand to `n` bytes. -/
def hkdfExpand (prk info : List Byte) (n : Nat) : List Byte := (hkdfBlocks prk info ((n + 63) / 64) 1 []).take n

/-- HKDF: Extract, then Expand. -/
def hkdf (salt ikm info : List Byte) (n : Nat) : List Byte := hkdfExpand (hmac salt ikm) info n

/-! The group P-521 -/

/-- The prime of the field. -/
def p521 : Nat := 2 ^ 521 - 1

/-- The order n of the group. -/
def n521 : Nat :=
  2 ^ 521 - 0x5ae79787c40d069948033feb708f65a2fc44a36477663b851449048e16ec79bf7

/-- The curve's constant b. -/
def b521 : Nat :=
  0x51953eb9618e1c9a1f929a21a0b68540eea2da725b99b315f3b8b489918ef109 * 2 ^ 264
    + 0xe156193951ec7e937b1652c0bd3bb1bf073573df883d2c34f1ef451fd46b503f00

/-- b^e mod m for an exponent of at most `n` bits. -/
def powMod (m b : Nat) : Nat → Nat → Nat
  | 0, _ => 1
  | n + 1, e =>
    let h := powMod m b n (e / 2)
    if e % 2 = 1 then h * h % m * b % m else h * h % m

/-- The difference in the field. -/
def fieldSub (a b : Nat) : Nat := (a + p521 - b) % p521

/-- A point (x / z^2, y / z^3); z = 0 is the point at infinity. -/
structure Point where
  x : Nat
  y : Nat
  z : Nat

/-- The base point. -/
def basePoint : Point :=
  { x := 0xc6858e06b70404e9cd9e3ecb662395b4429c648139053fb521f828af606b4d3d * 2 ^ 264
      + 0xbaa14b5e77efe75928fe1dc127a2ffa8de3348b3c1856a429bf97e7e31c2e5bd66
    y := 0x11839296a789a3bc0045c8a5fb42c7d1bd998f54449579b446817afbd17273e66 * 2 ^ 264
      + 0x2c97ee72995ef42640c550b9013fad0761353c7086a272c24088be94769fd16650
    z := 1 }

/-- Twice a point. -/
def Point.double (a : Point) : Point :=
  let d := a.z * a.z % p521
  let g := a.y * a.y % p521
  let b := a.x * g % p521
  let m := 3 * fieldSub a.x d * (a.x + d) % p521
  let x := fieldSub (m * m % p521) (8 * b % p521)
  { x := x, y := fieldSub (m * fieldSub (4 * b % p521) x % p521) (8 * g * g % p521), z := 2 * a.y * a.z % p521 }

/-- The sum of two points. -/
def Point.add (a b : Point) : Point :=
  if a.z = 0 then b
  else if b.z = 0 then a
  else
    let zz := a.z * a.z % p521
    let ww := b.z * b.z % p521
    let u := a.x * ww % p521
    let h := fieldSub (b.x * zz % p521) u
    let t := a.y * ww * b.z % p521
    let r := fieldSub (b.y * zz * a.z % p521) t
    if h = 0 then (if r = 0 then a.double else { x := 1, y := 1, z := 0 })
    else
      let hh := h * h % p521
      let v := u * hh % p521
      let x := fieldSub (fieldSub (r * r % p521) (hh * h % p521)) (2 * v % p521)
      { x := x, y := fieldSub (r * fieldSub v x % p521) (t * hh * h % p521), z := h * a.z * b.z % p521 }

/-- A point times a scalar of at most `n` bits. -/
def Point.times (a : Point) : Nat → Nat → Point
  | 0, _ => { x := 1, y := 1, z := 0 }
  | n + 1, k =>
    let d := (a.times n (k / 2)).double
    if k % 2 = 1 then d.add a else d

/-- The x-coordinate of a point that is not at infinity. -/
def Point.affineX (a : Point) : Nat := a.x * powMod p521 a.z 521 (p521 - 3) % p521

/-- The y-coordinate of a point that is not at infinity. -/
def Point.affineY (a : Point) : Nat := a.y * powMod p521 a.z 521 (p521 - 4) % p521

/-- The point of a public key, a number of 133 bytes: 0x04, X and Y (R497); none where it is no point of the curve. -/
def keyPoint (key : Nat) : Option Point :=
  let x := key / 2 ^ 528 % 2 ^ 528
  let y := key % 2 ^ 528
  if key / 2 ^ 1056 = 4 ∧ x < p521 ∧ y < p521 ∧ y * y % p521 = (x * x * x + (p521 - 3) * x + b521) % p521 then
    some { x := x, y := y, z := 1 }
  else none

/-- The public key of a secret scalar (R497). -/
def publicKey (d : Nat) : Nat :=
  let a := basePoint.times 521 d
  4 * 2 ^ 1056 + a.affineX * 2 ^ 528 + a.affineY

/-- ECDSA over SHA-512 (R497): the signature `sig` (r, then s) of `msg` verifies under `key`. -/
def ecdsaOk (key : Nat) (msg sig : List Byte) : Bool :=
  let r := beNat (sig.take 66)
  let s := beNat (sig.drop 66)
  let w := powMod n521 s 521 (n521 - 2)
  let e := beNat (shaBytes msg)
  match keyPoint key with
  | none => false
  | some q =>
    let a := (basePoint.times 521 (e * w % n521)).add (q.times 521 (r * w % n521))
    sig.length = 132 && decide (1 ≤ r) && decide (r < n521) && decide (1 ≤ s) && decide (s < n521) && decide (a.z ≠ 0)
      && decide (a.affineX % n521 = r)

/-- The 66-byte big-endian x-coordinate of ECDH of the scalar `d` with a public key (R507); none where it is no point. -/
def ecdh (d key : Nat) : Option (List Byte) := (keyPoint key).map fun q => beBytes 66 (q.times 521 d).affineX

/-! AES-256-GCM -/

/-- Twice a value of AES's byte field. -/
def aesDouble (a : Nat) : Nat := if a ≥ 128 then (2 * a) ^^^ 0x11B else 2 * a

/-- A product of AES's byte field, over `n` bits of the second factor. -/
def aesMul : Nat → Nat → Nat → Nat
  | 0, _, _ => 0
  | n + 1, a, b => (if b % 2 = 1 then a else 0) ^^^ aesMul n (aesDouble a) (b / 2)

/-- A power of AES's byte field. -/
def aesPow (a : Nat) : Nat → Nat
  | 0 => 1
  | n + 1 => aesMul 8 (aesPow a n) a

/-- The S-box: the inverse, then the affine map. -/
def aesSub (a : Nat) : Nat :=
  let b := aesPow a 254
  let rot := fun (k : Nat) => b * 2 ^ k % 256 ||| b / 2 ^ (8 - k)
  b ^^^ rot 1 ^^^ rot 2 ^^^ rot 3 ^^^ rot 4 ^^^ 0x63

/-- Exclusive or of two byte lists of the cipher. -/
def aesXor (a b : List Nat) : List Nat := List.zipWith (· ^^^ ·) a b

/-- The key schedule of AES-256: `n` more words after the words `w`, newest first, from word `i` on. -/
def aesKeys : Nat → Nat → List (List Nat) → List (List Nat)
  | 0, _, w => w.reverse
  | n + 1, i, w =>
    let t := w.headD []
    let t := if i % 8 = 0 then aesXor ((t.tail ++ t.take 1).map aesSub) [2 ^ (i / 8 - 1), 0, 0, 0]
      else if i % 8 = 4 then t.map aesSub else t
    aesKeys n (i + 1) (aesXor (w.getD 7 []) t :: w)

/-- A list cut into runs of 4. -/
def fours {α : Type} : Nat → List α → List (List α)
  | 0, _ => []
  | n + 1, l => l.take 4 :: fours n (l.drop 4)

/-- The 15 round keys of a 32-byte key. -/
def aesSchedule (key : List Byte) : List (List Nat) :=
  let w := aesKeys 52 8 (fours 8 (key.map fun b => b.toNat)).reverse
  (List.range 15).map fun r => ((w.drop (4 * r)).take 4).flatten

/-- ShiftRows of a state in column order. -/
def aesShift (l : List Nat) : List Nat := (List.range 16).map fun i => l.getD (i % 4 + 4 * ((i / 4 + i % 4) % 4)) 0

/-- MixColumns. -/
def aesMix (l : List Nat) : List Nat :=
  (List.range 16).map fun i =>
    let at_ := fun (k : Nat) => l.getD (i / 4 * 4 + (i + k) % 4) 0
    aesDouble (at_ 0) ^^^ aesDouble (at_ 1) ^^^ at_ 1 ^^^ at_ 2 ^^^ at_ 3

/-- One 16-byte block under a key schedule. -/
def aesBlock (ks : List (List Nat)) (l : List Byte) : List Byte :=
  let s := aesXor (l.map fun b => b.toNat) (ks.headD [])
  let s := ((ks.drop 1).take 13).foldl (fun s k => aesXor (aesMix (aesShift (s.map aesSub))) k) s
  (aesXor (aesShift (s.map aesSub)) (ks.getD 14 [])).map fun n => BitVec.ofNat 8 n

/-- The product of GHASH: `n` bits of `x`, most significant first, with `v`. -/
def ghashMul : Nat → Nat → Nat → Nat
  | 0, _, _ => 0
  | n + 1, x, v =>
    (if x / 2 ^ n % 2 = 1 then v else 0) ^^^ ghashMul n x (if v % 2 = 1 then v / 2 ^^^ 0xE1 * 2 ^ 120 else v / 2)

/-- GHASH of `n` blocks of 16 bytes, a last one short being filled with zeros. -/
def ghash (h : Nat) : Nat → Nat → List Byte → Nat
  | 0, y, _ => y
  | n + 1, y, l => ghash h n (ghashMul 128 (y ^^^ beNat (l.take 16 ++ List.replicate (16 - (l.take 16).length) 0)) h) (l.drop 16)

/-- The counter-mode stream over `l` from counter value `i` on. -/
def gcmStream (ks : List (List Nat)) (iv : List Byte) : Nat → Nat → List Byte → List Byte
  | 0, _, _ => []
  | n + 1, i, l => xorBytes (l.take 16) (aesBlock ks (iv ++ beBytes 4 i)) ++ gcmStream ks iv n (i + 1) (l.drop 16)

/-- AES-256-GCM decryption with a 12-byte IV: the plaintext, none where the 16-byte tag fails (R507). -/
def gcmOpen (key iv aad cipher tag : List Byte) : Option (List Byte) :=
  let ks := aesSchedule key
  let h := beNat (aesBlock ks (List.replicate 16 0))
  let n := (cipher.length + 15) / 16
  let y := ghash h n (ghash h ((aad.length + 15) / 16) 0 aad) cipher
  let y := ghash h 1 y (beBytes 8 (8 * aad.length) ++ beBytes 8 (8 * cipher.length))
  if xorBytes (beBytes 16 y) (aesBlock ks (iv ++ beBytes 4 1)) = tag then some (gcmStream ks iv n 2 cipher) else none

/-! The device keys (R495) -/

/-- The ASCII bytes of a text. -/
def ascii (t : String) : List Byte := t.toList.map fun c => BitVec.ofNat 8 c.toNat

/-- The secret scalar of an identity seed for an info string (R495). -/
def seedScalar (seed info : List Byte) : Nat := beNat (hkdf (List.replicate 64 0) seed info 80) % (n521 - 1) + 1

end Sys2Proof.Machine
end

