-- ==== Sys2Proof/Machine/State.lean ====
section
/-!
DEFINITION. The state of the module: everything the spec gives it, as plain data. Default field values are the values
after reset. Sub-records follow the spec's units: tile, cluster, partition, stream slot, page, memory port, router,
Hikolink port, job, mailbox, rings, boot, fuses, flash, power, pins.
-/

namespace Sys2Proof.Machine

/-- Why the block stops. The module reports every fault as an event and goes on, so no command stops it here. -/
inductive Fault where
  /-- Raised by no command: the spec gives every fault of the module an event and a next state. Safe. -/
  | none
  deriving DecidableEq, Repr

/-- Why a command has no meaning. -/
inductive Refusal where
  /-- Raised by Dispatch.lean for a command that has no meaning yet. Safe: nothing can be proved of it. -/
  | notModelled (mnemonic : String)
  deriving DecidableEq, Repr

/-- Fault kinds of R148, in the order stop, program, hardware, stall (R216). -/
inductive FaultKind where
  | stop | program | hardware | stall
  deriving DecidableEq, Repr

/-- A window row (R81): 32 entries of 16 bits and a scale byte. -/
structure WinRow where
  lanes : List (BitVec 16) := []
  scale : Byte := 0
  deriving DecidableEq, Repr

/-- Where a register write of a tile lands (R114, R115). `sum` adds a rounded block result to a running sum (R51, R52): `int`
for an INT32 sum, `zero` where ZERO drops the old sum (R74). -/
inductive Dest where
  | s (r : Nat) (v : Word)
  | v (r : Nat) (lanes : List (Nat × Word))
  | p (r : Nat) (b : Bool)
  | mem (w : Nat) (v : Word)
  | acc (k : Nat) (v : Word)
  | sum (k : Nat) (r : Option Word) (int zero : Bool)
  | win (k : Nat) (w : WinRow)
  deriving DecidableEq, Repr

/-- A write in flight: it lands at the end of enabled cycle `land`; `slot` 0 control to 4 queue (R115). -/
structure PendWrite where
  dest : Dest
  land : Nat
  issued : Nat
  slot : Nat
  deriving DecidableEq, Repr

/-- An active loop: body bundles first to last, passes left (R122). -/
structure LoopFrame where
  first : Nat
  last : Nat
  left : Nat
  deriving DecidableEq, Repr

/-- An accumulator entry (R73): 80-bit partial in units of its block, three flags, 32-bit running sum. `held` holds the products
of a BF16 half block, whose unit is known once the block is whole (R53, R54). -/
structure AccEntry where
  part : Int := 0
  held : List FVal := []
  nan : Bool := false
  posInf : Bool := false
  negInf : Bool := false
  sum : Word := 0
  deriving DecidableEq, Repr

/-- One column's weights of a K-block, or a token row's activations: a scale byte and element codes (R39, R93). -/
structure WBlock where
  scale : Nat
  elems : List Nat
  deriving DecidableEq, Repr

/-- Weights on their way over the weight bus (R543): the first byte and length of a panel row (0 in the plain layout), the
cycles the bus reads in, those done, and the bytes read. -/
structure BusLoad where
  addr : Nat := 0
  len : Nat := 0
  beta : Nat
  got : Nat := 0
  bytes : List Byte := []
  deriving DecidableEq, Repr

/-- A K-block of a WS operation (R80 to R83, R105, R106): its block time and element steps in cc, the cycles of it done, and
the window rows its steps see, each list from the cycle it names on (R130). -/
structure BlockRun where
  j : Nat
  load : BusLoad
  time : Nat
  steps : Nat
  cyc : Nat := 0
  views : List (Nat × List (Nat × WinRow)) := []
  deriving DecidableEq, Repr

/-- A pass of an SQ16 operation (R84 to R86): its shadow load, whether its weights have reached the active set, pass cycles
done, whether one was done in the last cycle, and the weights its cells keep once the next pass's are in the active set. -/
structure PassRun where
  p : Nat
  load : BusLoad
  inSet : Bool := false
  cyc : Nat := 0
  moved : Bool := false
  w : Option (List WBlock) := none
  deriving DecidableEq, Repr

/-- A running or pending ARR.RUN (R77, R128): its parameters, then how far it is. `opened` blocks or passes have begun their
weight reads; `rowAddr` is the next panel row's address; `stalled` holds the next cycle back (R155). -/
structure ArrRun where
  mode : Nat
  aonly : Bool
  keep : Bool
  wbuf : Nat
  wfmt : Nat
  afmt : Nat
  panel : Bool
  runLen : Nat
  waddr : Nat
  accBase : Nat
  rowsA : Nat
  rowsB : Nat
  stride : Nat
  aaddr : Nat
  issue : Nat := 0
  bundle : Nat := 0
  opened : Nat := 0
  rowAddr : Nat := 0
  stalled : Bool := false
  cur : Option BlockRun := none
  nxt : Option BlockRun := none
  passes : List PassRun := []
  /-- bytes of token rows the streams have read, each with its address (R87, R155), under array * 2^18 + pass * T + row -/
  acts : Tab (List (Nat × Byte)) := []
  deriving DecidableEq, Repr

/-- Tag states of the mover (R135). -/
inductive TagSt where
  | idle | active | landed
  deriving DecidableEq, Repr

/-- What an index entry says of its row (R240): skip it, a value at or above INDEX_LIMIT, an uncorrectable word, or the
index. -/
inductive IndexWay where
  | skip
  | bad (v entry : Nat)
  | failed
  | ix (v : Nat)
  deriving DecidableEq, Repr

/-- A mover request in flight (R248): `len` bytes of row `row` from position `pos`, whose index is `ix`; a tiered read names
its page. -/
structure MvReq where
  seqNo : Nat
  row : Nat
  pos : Nat
  len : Nat
  ix : Nat
  isRead : Bool
  deriving DecidableEq, Repr

/-- A mover tag: its state (R135), descriptor words (R236), progress and run-time record. -/
structure TagState where
  st : TagSt := .idle
  desc : List Word := []
  shadow : Bool := false
  bundle : Nat := 0
  order : Nat := 0
  row : Nat := 0
  pos : Nat := 0
  flying : List MvReq := []
  /-- elements whose access failed, those of them that several requests cover, and whether the tide's counts hold this
  descriptor (R249, R251) -/
  failed : Nat := 0
  failedCut : List Nat := []
  noted : Bool := false
  /-- the row whose index was read last, and what it said (R240) -/
  rowIx : Option (Nat × IndexWay) := none
  /-- the buffer of a transposed or packed transfer: where in the shape it stands, its bytes, how many are in, and how far it has
  been written out (R241, R242). Each tag has one of its own. [DESIGN CHOICE, log entry 158] -/
  bufAt : Nat × Nat := (0, 0)
  plane : List Host.Cell := []
  planeIn : Nat := 0
  planeOut : Nat := 0
  /-- the check-value unit's register, and whether it has read its context (R520) -/
  cvR : Nat := 0
  cvStarted : Bool := false
  cvCtx : List Word := []
  /-- a page whose move the next request waits for (R245, R266) -/
  waitPage : Option Nat := none
  /-- the destination range of a shadow descriptor as it stood at issue (R143) -/
  before : List (Nat × Word) := []
  deriving DecidableEq, Repr

/-- One inbound queue (R167 to R177). -/
structure Queue where
  entries : List QEntry := []
  headWord : Nat := 0
  absorbed : Nat := 0
  ended : Bool := false
  reset : Bool := false
  disabled : Bool := false
  /-- entries of an abandoned tide that it held, counted until the tide's events are raised (R173, R175) -/
  lost : Nat := 0
  lastSender : Option TileId := none
  deriving DecidableEq, Repr

/-- What travels on a neighbour link toward the tile on its far side (R179): a queue entry or a mover write. -/
inductive LinkMsg where
  | entry (queue : Nat) (e : QEntry)
  | write (addr : Nat) (data : List Byte) (tag seqNo : Nat)
  deriving DecidableEq, Repr

/-- Who takes a bank below the array reads (R153). -/
inductive PortUser where
  | scrub | moverRead | moverWrite | remote
  deriving DecidableEq, Repr

/-- A tile's first fault in a tide: event code and payload (R147, R149). -/
structure TileFaultRec where
  code : Nat
  payload : DWord
  bundle : Nat
  deriving DecidableEq, Repr

/-- A tile (R67, R117). Register files, predicates and memories list only what differs from 0. -/
structure Tile where
  code : Tab (BitVec 128) := []
  codeFlips : Tab Nat := []
  sregs : Tab Word := []
  preds : BitVec 8 := 1
  vregs : Tab (List Word) := []
  pend : List PendWrite := []
  /-- enabled cycles since tile reset (R89, R161) -/
  ecc : Nat := 0
  pc : Nat := 0
  entry : Nat := 0
  issuing : Bool := false
  bubble : Nat := 0
  loops : List LoopFrame := []
  /-- the operations of a bundle held in a wait, and the enabled cycles it has waited (R140, R141) -/
  held : List Instr := []
  heldFor : Nat := 0
  ended : Bool := false
  faulted : Option TileFaultRec := none
  heavy : Bool := false
  acc : Tab AccEntry := []
  win : Tab WinRow := []
  run : Option ArrRun := none
  pendRun : Option ArrRun := none
  /-- SQ16 operations whose last outputs still flow (R79, R85) -/
  tails : List ArrRun := []
  /-- the shadow weight set as loaded so far, and the active one (R84, R86) -/
  wShadow : List Byte := []
  wActive : List WBlock := []
  sfuAt : Option Nat := none
  /-- scratchpad bytes (R150) and flipped bits per word (R158) -/
  mem : List Host.Cell := []
  flips : Tab Nat := []
  /-- corrected lines that wait for their write-back, and whether they have been written since (R159, R161) -/
  corrList : Tab (List (Nat × Bool)) := []
  walk : Tab Nat := []
  missed : Nat := 0
  corrected : Nat := 0
  lineCorr : Tab Nat := []
  corrWindow : Nat := 0
  eccHigh : Bool := false
  eccRetired : Bool := false
  scrubReported : Bool := false
  /-- lines taken in this enabled cycle by rows 1 to 3 of R153, and the tide's conflict cycles (R154) -/
  lines : List (Nat × Nat) := []
  /-- banks taken by rows 6 and 7 of R153 in this cycle, and by whom; the mover access and the remote access at hand, each
  with the lines it still needs and whether it writes them; whose turn it is -/
  low : List (Nat × PortUser) := []
  mvBusy : Option (Nat × List (Nat × Bool)) := none
  rmBusy : Option (Nat × List (Nat × Bool)) := none
  rmTurn : Bool := false
  /-- the lines an access of row 7 touches, while its effect is worked out within a step -/
  touched : Option (List (Nat × Bool)) := none
  /-- banks that have had their scrub slot in this span of 64 cycles (R161) -/
  slotted : BitVec 16 := 0
  conflicted : Bool := false
  conflicts : Nat := 0
  tags : Tab TagState := []
  issueSeq : Nat := 0
  reqSeq : Nat := 0
  lastTag : Nat := 15
  /-- the last shadow tag served; whether the mover has issued in this cycle, and whose turn the mark channel is; the cycle
  from which a checked transfer may move its next byte (R248) -/
  lastShadow : Nat := 15
  mvIssued : Bool := false
  markTurn : Bool := false
  cvUntil : Nat := 0
  /-- fault reports that wait to leave for the management complex (R183, R197) -/
  reports : Nat := 0
  failedAcc : Nat := 0
  failedDesc : Nat := 0
  failedTags : BitVec 16 := 0
  queues : Tab Queue := []
  qcfg : Tab Word := []
  qctl : Word := 0x14
  qFlips : Tab Nat := []
  credits : Tab Nat := []
  /-- per link (0 N, 1 E, 2 S, 3 W): entries held at the receiving end, sends blocked, far tile known absorbing -/
  hold : Tab (List (Nat × QEntry)) := []
  blocked : BitVec 4 := 0
  farAbsorbs : BitVec 4 := 0
  out : Tab (List LinkMsg) := []
  /-- entries that entered a queue in this cycle: the queue, and their place in the order of R170 -/
  fresh : List (Nat × Nat) := []
  /-- per link: the entries and the bytes it has carried in this cycle, and the bytes of its next mover write that have come (R179) -/
  linkUse : Tab (Nat × Nat) := []
  linkMoved : Tab Nat := []
  creditsFlying : List (Nat × Nat) := []
  /-- link signals in flight to this tile: link, and 0 held, 1 released, 2 absorbing (R171, R174) -/
  sigFlying : List (Nat × Nat) := []
  egress : List Packet := []
  ingress : List (Nat × QEntry) := []
  /-- entries, mark writes and verdicts for which the tide-complete bell waits (R125) -/
  entriesFlying : Nat := 0
  /-- mark writes still to send: scratchpad byte, length, address in `State.hbm`; and those sent (R227) -/
  markLeft : List (Nat × Nat × Nat) := []
  markFlying : List Nat := []
  verdictsFlying : Nat := 0
  bellPorts : Word := 0
  pendRings : Tab Nat := []
  fireCnt : Tab Nat := []
  ringsFlying : List (Nat × Nat) := []
  firesFlying : List Nat := []
  rung : Bool := false
  /-- the bundle whose operations issue in this step, while they do -/
  cur : Option Nat := none
  /-- windows of R474 the counts above belong to -/
  corrWin : Nat := 0
  missWin : Nat := 0
  inReset : Bool := false
  persist : Tab Word := []
  weights : List WeightRange := []
  canary : Word := 0
  canaryRan : Bool := false
  canaryRunning : Bool := false
  canaryDueSince : Option Nat := none
  canaryMissedAt : Option Nat := none
  kernel : Nat := 0
  firstMismatch : Option Nat := none
  /-- the last bundle issued was followed in program order (R479) -/
  seqIssue : Bool := false
  /-- the enabled cycle of the canary slot's last bundle, and the value its feed gives (R480) -/
  canaryEnd : Option Nat := none
  canaryCrc : Nat := 0
  waitCycles : Nat := 0
  bundlesIssued : Nat := 0
  deriving DecidableEq, Repr

/-- A cluster: power, heat, monitors, bell collector, counts (R25, R199, R450 to R465). -/
structure Cluster where
  power : Bool := false
  /-- the header switches are in their staged switching, and whether they are closing (R455) -/
  switching : Bool := false
  rising : Bool := false
  /-- a power-up waits: for the cluster's own power-down, or for a place among the 8 (R431, R455) -/
  powerUpHeld : Bool := false
  /-- a power-down waits for the power-up that runs (R433) -/
  downHeld : Bool := false
  heldOpcode : Nat := 0
  heldMbx : Option Nat := none
  cadence : Nat := 8
  thermal : Nat := 8
  nextCadence : Option Nat := none
  temps : List Int := []
  below : Nat := 0
  tripped : Bool := false
  tripAt : Nat := 0
  margins : Tab Nat := []
  offsets : Tab Nat := []
  bellChan : Tab Word := []
  /-- uplinked rings passed to the device channel and not yet used by it -/
  passed : Tab Nat := []
  /-- fault reports that came in at the access point (R197) -/
  faultReports : Nat := 0
  meshCorr : Nat := 0
  meshHigh : Bool := false
  meshWin : Nat := 0
  deriving DecidableEq, Repr

/-- Partition states (R215, R397). -/
inductive PState where
  | none | empty | loaded | open_ | closing | boundary | abandoning | recovering
  deriving DecidableEq, Repr

/-- What set the kind of the current abandon (R216): kind, event code, unit id, rank. -/
structure FaultCause where
  kind : FaultKind
  code : Nat
  unit : Nat
  act : Nat := 0
  rank : Nat := 0
  deriving DecidableEq, Repr

/-- Prompt tokens of a stream, in order (R284): received ones, or ones still in host memory from an address on. -/
inductive PromptPart where
  | toks (l : List Word)
  | ref (addr n : Nat)
  deriving DecidableEq, Repr

/-- An admitted stream in its slot for a tide (R294, R295). -/
structure Admit where
  slot : Nat
  stream : Nat
  prefill : Bool
  sample : Bool
  noAppend : Bool := false
  drafter : Bool := false
  firstPos : Nat
  inputs : List Word
  /-- inputs after those, not all read from the host yet -/
  want : List PromptPart := []
  drafts : Nat := 0
  draftWant : Nat := 0
  /-- generated tokens the inputs stand for start after the prompt tokens among them -/
  prompts : Nat := 0
  deriving DecidableEq, Repr

/-- Result tokens read for a slot (R297). -/
structure SlotResult where
  stream : Nat
  rcount : Nat
  tokens : List Word
  clash : Bool := false
  deriving DecidableEq, Repr

/-- A verdict or deferral notice of the running tide, on its way to or at the stream engine (R144, R300). -/
structure Verdict where
  sa : Word
  sb : Word
  discard : Bool
  tile : TileId
  deriving DecidableEq, Repr

/-- Stream commands that act in the next boundary gap (R282). -/
inductive StreamCmd where
  | open_ (slot : Nat) (desc : List Byte)
  | close (slot : Nat)
  | park (slot : Nat) (target : Nat) (mbx : Nat)
  | resume (slot : Nat) (source : Nat) (recs : List ParkRec)
  deriving DecidableEq, Repr

/-- Page commands waiting for a boundary gap (R264, R406): the mailbox that carries them. -/
inductive PageCmd where
  | bind (mbx first count owner : Nat)
  | free (mbx first count : Nat)
  deriving DecidableEq, Repr

/-- A page move in progress: its destination frame (R263, R267). -/
structure Move where
  page : Nat
  dest : Nat
  demote : Bool
  forAppend : Bool := false
  /-- the tag its requests carry, how many 256-byte requests it takes, and those done (R267) -/
  tag : Nat := 0
  sent : Nat := 0
  done : Nat := 0
  deriving DecidableEq, Repr

/-- Packets dropped at one breakwater in the tide (R209). -/
structure BwDrop where
  src : TileId := 0
  dest : Nat := 0
  kind : Nat := 0
  count : Nat := 0
  deriving DecidableEq, Repr

/-- A collective plan's run-time record (R343 to R347): this device's contribution once it has been read, its own part of the result
once it is formed, and the flits that have come in for the plan. -/
structure PlanState where
  runs : Bool := false
  done : Bool := false
  accum : List Word := []
  tentative : Option (List Word) := none
  mine : Option (List Nat) := none
  own : Option (List Nat) := none
  rx : List HFlit := []
  deriving DecidableEq, Repr

/-- An unordered I/O request of a partition's CXL engine: a tile's translated read, or a part of a page's move (R245, R261, R267). -/
structure Uio where
  part : Nat
  frame : Nat
  page : Nat
  off : Nat
  tile : TileId
  tag : Nat
  seqNo : Nat
  len : Nat
  vc : Nat := 2
  /-- of a page's move (R267); a write carries its bytes -/
  move : Bool := false
  write : Bool := false
  data : List Byte := []
  /-- it has left on the link -/
  sent : Bool := false
  deriving DecidableEq, Repr

/-- A kernel of the list fixed at RUN_START (R481): one of the base set, or a pack's record. -/
inductive KernelSrc where
  | base (ix : Nat)
  | pack (k : KernelRec)
  deriving DecidableEq, Repr

/-- A partition (R205, R215 to R223, R307, R311, R397). [DESIGN CHOICE, log entry 31] -/
structure Partition where
  st : PState := .none
  firstStripe : Nat := 0
  stripeCount : Nat := 0
  cxlWeight : Nat := 16
  homeFrames : Nat := 0
  spillFrames : Nat := 0
  slotFirst : Nat := 0
  slotCount : Nat := 0
  cxlFirst : Nat := 0
  cxlCount : Nat := 0
  cringLog : Nat := 6
  cringBase : Nat := 0
  stopPending : Bool := false
  stopMbx : Option Nat := none
  enableHeld : Option Nat := none
  heldSingle : Bool := false
  single : Option Nat := none
  startMbx : Option Nat := none
  tide : Nat := 0
  ranSinceLoad : Bool := false
  inJob : Bool := false
  replaying : Bool := false
  replays : Nat := 0
  /-- abandons that do not count toward REPLAY_LIMIT, and how many of them each tile has caused (R482) -/
  freeAbandons : Nat := 0
  canaryAbandons : Tab Nat := []
  /-- OPEN, and the tide starts at the next drumbeat (R216) -/
  awaiting : Bool := false
  /-- start, commit point and next start of the tide, in the units of `time` (R213) -/
  startT : Nat := 0
  commitT : Nat := 0
  nextStartT : Nat := 0
  commitTs : Nat := 0
  lastStretch : Nat := 0
  bellReady : Bool := false
  resultsIn : Bool := false
  faultBell : Bool := false
  /-- the fault bell has been seen: no unit of the partition issues (R204) -/
  halted : Bool := false
  cause : Option FaultCause := none
  causes : List FaultCause := []
  /-- stall faults of earlier attempts at this tide: tile, event code, bundle (R148) -/
  stallSeen : List (TileId × Nat × Nat) := []
  named : List (TileId × Nat) := []
  /-- failing HBM rows of the abandoned tide: memory port and byte offset in its stack (R259) -/
  hbmRows : List (Nat × Nat) := []
  /-- the endpoints are being cleared (R328); the abandon has settled on this device -/
  cleared : Bool := false
  settled : Bool := false
  /-- recovery is complete on this device -/
  recovered : Bool := false
  /-- the abandoned tide was a mark tide, and its restores are still to be made (R220) -/
  restoreAll : Bool := false
  exhausted : Option Nat := none
  recoveryTimeout : Bool := false
  markLost : Bool := false
  image : Option ProgramBody := none
  imageDigest : BitVec 512 := 0
  /-- frames of the retained image (R401) -/
  imageFrames : List Nat := []
  weights : Option WeightBody := none
  weightsLoaded : Bool := false
  weightDigest : BitVec 512 := 0
  sealedWeights : Bool := false
  tidesCommitted : Nat := 0
  tidesStretched : Nat := 0
  stretchTotal : Nat := 0
  stretchMax : Nat := 0
  tidesAbandoned : Nat := 0
  tidesReplayed : Nat := 0
  /-- the stretched tides among the last 65,536 committed, the newest first: TIDES_COMMITTED at the commit, stretch (R224); and
  TIDES_STRETCHED, STRETCH_TOTAL_CC and STRETCH_MAX_CC before the last commit (R223, R447) -/
  stretches : List (Nat × Nat) := []
  before : Nat × Nat × Nat := (0, 0, 0)
  streamsAdmitted : Nat := 0
  deferrals : Nat := 0
  verdictsIgnored : Nat := 0
  draftsStale : Nat := 0
  doorbellsIgnored : Nat := 0
  admitHeld : Nat := 0
  markSlot : Option Nat := none
  verdicts : List Verdict := []
  results : List SlotResult := []
  admitted : List Admit := []
  nextAdmitted : List Admit := []
  /-- the tide the next tables are for, and whether they wait for host reads (R284, R297) -/
  admitTide : Option Nat := none
  tablesDue : Bool := false
  /-- completion records released and not yet written, the hold area of R379, and the ring's counters (R307) -/
  completions : List CompletionRec := []
  holdArea : List CompletionRec := []
  cringProducer : Nat := 0
  cringConsumer : Nat := 0
  reserved : Nat := 0
  /-- CLOSED records that wait and that no reservation covers -/
  unreserved : Nat := 0
  /-- stream commands that wait, each with the order of its doorbell (R282, R394), and how many have acted in this gap (R342) -/
  streamCmds : List (Nat × StreamCmd) := []
  streamActed : Nat := 0
  pageCmds : List PageCmd := []
  /-- the tiering script has run after the last commit (R271) -/
  tierRan : Bool := false
  moves : List Move := []
  /-- moves asked for and not yet begun: page, demote, for an append that waits (R266, R272) -/
  moveQueue : List (Nat × Bool × Bool) := []
  movesDropped : Nat := 0
  tierIgnored : Nat := 0
  bwWest : BwDrop := {}
  bwEast : BwDrop := {}
  canaryEn : Bool := true
  /-- kernels of the list fixed at the last RUN_START (R481) -/
  kernels : List KernelSrc := [.base 0]
  canaryInterval : Nat := 4096
  observeTides : Nat := 10000
  /-- what CANARY_CONFIG and TILE_OBSERVE set during a tide, applied from the next one (R396): EN, INTERVAL, OBSERVE_TIDES; tiles and
  whether their observation begins -/
  canaryNext : Option (Bool × Nat × Nat) := none
  observeNext : List (Nat × Bool) := []
  plans : Tab PlanState := []
  pagesLost : List Nat := []
  lastCommitted : Nat := 0
  /-- replays of the last committed tide (R224) -/
  lastReplays : Nat := 0
  deriving DecidableEq, Repr

/-- A submission ring entry the engine has read (R284): prompt tokens left, drafts, or the end of the stream. -/
inductive RingEntry where
  | tokens (left : Nat)
  | drafts (base : Nat) (toks : List Word) (used : Bool)
  | finish
  deriving DecidableEq, Repr

/-- Stream states (R278, R281). -/
inductive SState where
  | closed | open_ | active | parked | draining
  deriving DecidableEq, Repr

/-- A stream slot's descriptor (R278) and the engine's record of it. -/
structure Stream where
  st : SState := .closed
  enableHeld : Bool := false
  heldCmd : Option StreamCmd := none
  heldMbx : Option Nat := none
  parking : Bool := false
  parkTarget : Nat := 0
  parkBytes : Nat := 0
  /-- the mailbox whose data buffer takes a park to the host -/
  parkMbx : Nat := 0
  part : Nat := 0
  ringLog : Nat := 0
  doorbellOnly : Bool := false
  maxDraft : Nat := 0
  drafter : Bool := false
  pending : Bool := false
  tokenUnits : Nat := 0
  pageBase : Nat := 0
  pageCount : Nat := 0
  stopToken : Word := 0
  ringBase : Nat := 0
  consumer : Nat := 0
  producerSeen : Nat := 0
  tokenPos : Nat := 0
  sampleKey : BitVec 128 := 0
  temperature : Word := 0
  pendingToken : Word := 0
  tokenLimit : Nat := 0
  promptLeft : Nat := 0
  lastAdmit : Nat := 0
  draftLink : Nat := 0xFFFF
  cookie : DWord := 0
  priority : Nat := 0
  /-- entries read and not yet passed by CONSUMER, in ring order (R284) -/
  ringEntries : List RingEntry := []
  /-- prompt tokens received and not committed -/
  prompt : List PromptPart := []
  /-- a read of prompt tokens from the host in progress: address, count -/
  promptRef : Option (Nat × Nat) := none
  /-- drafts from the linked drafter, for positions from the first field on (R304) -/
  linkDrafts : Option (Nat × List Word) := none
  ringStopped : Bool := false
  deferredLast : Bool := false
  drainCause : Nat := 0
  closedWritten : Bool := false
  /-- for a drafter: the tide of the target's commit that gave it its inputs (R304) -/
  drafterAfter : Option Nat := none
  deriving DecidableEq, Repr

/-- Page states (R262). -/
inductive PgSt where
  | free | hbm | demoting | cxl | promoting | pinned
  deriving DecidableEq, Repr

/-- A page map entry (R262). -/
structure Page where
  st : PgSt := .free
  tier : Nat := 0
  frame : Nat := 0
  owner : Nat := 0
  tfill : Nat := 0
  cfill : Nat := 0
  deriving DecidableEq, Repr

/-- A memory port and its stack (R257, R258, R465). -/
structure MemPort where
  requests : List Packet := []
  /-- patrol-scrub reads that wait for a VC3 slot: byte offset, and the error each will find (R258) -/
  scrubs : List (Nat × Nat) := []
  vc3Skip : Nat := 0
  inSelfRefresh : Bool := false
  trained : Bool := false
  hot : Bool := false
  tripped : Bool := false
  tripAt : Nat := 0
  temp : Int := 0
  corrected : Nat := 0
  patrol : Nat := 0
  /-- the pseudo-channel of the granule last accessed (R256) -/
  channel : Nat := 0
  deriving DecidableEq, Repr

/-- Packets that a unit has sent to tiles and that are to be answered (R186): the sender's key, how far what it does is, the tag
they carry, the partition, how many there are, and the answers so far, by place. -/
structure UnitAcc where
  key : Nat
  phase : Nat
  tag : Nat
  part : Nat
  want : Nat
  got : Tab (List Byte) := []
  deriving DecidableEq, Repr

/-- A mesh router (R182, R188, R189): flits waiting per input, channel and route order; the input that holds each output's
channel; the round-robin pointer of each output; packets waiting to enter at the local, outer or access port. -/
structure Router where
  inq : Tab (List Flit) := []
  holder : Tab Nat := []
  rr : Tab Nat := []
  entering : Tab (List Packet) := []
  uncorrWindow : Nat := 0
  uncorrWin : Nat := 0
  /-- tide and replay count of the last MESH_UNCORRECTABLE -/
  uncorrAt : Option (Nat × Nat) := none
  deriving DecidableEq, Repr

/-- A Hikolink port (R315 to R335). -/
structure HPort where
  up : Bool := false
  shutting : Bool := false
  trainHeld : Option Nat := none
  /-- the port failed loopback calibration in bring-up and is left down (R424) -/
  calFailed : Bool := false
  rxSeq : Nat := 0
  txSeq : Nat := 0
  farRank : Nat := 0
  farPort : Nat := 0
  beacon : Option Beacon := none
  /-- this device's own beacon has gone out since the link trained: a first one, and one with its coordinates (R348) -/
  greeted : Bool := false
  named : Bool := false
  badRun : Nat := 0
  /-- bad flits among the last CONTROL flits in a row (R334) -/
  badCopies : Nat := 0
  /-- sequence number of the first copy of the last stop request acted on (R334) -/
  stopSeq : Option Nat := none
  badTide : Nat := 0
  badTotal : Nat := 0
  slot : Nat := 0
  fecCorrected : Nat := 0
  /-- flits that came in here and are to be forwarded, with their arrival time; flits staged to leave here; flits received
  here for this device's endpoints -/
  forward : List (Nat × HFlit) := []
  staged : List HFlit := []
  received : List HFlit := []
  urgent : List HFlit := []
  bulk : List HFlit := []
  absorbing : Bool := false
  absorbed : Nat := 0
  sent : List HFlit := []
  deriving DecidableEq, Repr

/-- The job and the drumbeat tree as this device sees them (R329 to R353). -/
structure Job where
  id : Nat := 0
  dimI : Nat := 0
  dimJ : Nat := 0
  dimK : Nat := 0
  rootSerial : Nat := 0
  rootI : Nat := 0
  rootJ : Nat := 0
  rootK : Nat := 0
  i : Nat := 0
  j : Nat := 0
  k : Nat := 0
  formed : Bool := false
  formingStep : Nat := 0
  formMbx : Option Nat := none
  joining : Bool := false
  left : Bool := false
  leaveMbx : Option Nat := none
  joined : Nat := 0
  fabricEpoch : Nat := 0
  clockLocked : Bool := true
  onRecovered : Bool := false
  away : List Nat := []
  broken : Bool := false
  /-- this member is cut off from the root and stops on its own (R352) -/
  cut : Bool := false
  /-- FABRIC_TREE_LOST has been raised (R334, R352) -/
  treeLost : Bool := false
  /-- the last tide this device has committed in the job (R353) -/
  lastTide : Nat := 0
  doneFrom : List (Nat × Nat) := []
  stepReq : Nat := 0
  doneSent : Bool := false
  verdictSets : List (Nat × List VerdictEntry) := []
  setSent : Bool := false
  outcome : List VerdictEntry := []
  outcomeSent : Bool := false
  confirmSent : Bool := false
  /-- job time of the first copy of the committing CONFIRM, once it has left the root: the commit point (R336) -/
  confirmAt : Option Nat := none
  /-- children's SETTLED records: child, count, kind, cause -/
  settledFrom : List (Nat × Nat × Nat × Cause) := []
  selfSettled : Bool := false
  recoveredFrom : List (Nat × Nat) := []
  selfRecovered : Bool := false
  lastAction : Nat := 0
  /-- the tide whose slots are sent (R316) -/
  slotTide : Nat := 0
  nextStart : Nat := 0
  nextStep : Nat := 0
  /-- a drumbeat of this run has given its step (R445) -/
  stepSet : Bool := false
  nextReplay : Bool := false
  nextStop : Bool := false
  beat : Bool := false
  /-- a stop is asked for by command (R340), or for the end of the tide that is done, which ends a RUN_SINGLE (R222) -/
  stopWanted : Bool := false
  endWanted : Bool := false
  tide : Nat := 0
  /-- the last ACTION and CONFIRM acted on, and the cause of the current abandon -/
  abandoned : Bool := false
  cause : Cause := {}
  stallCause : Option Cause := none
  /-- the number of the job's next tide, not yet committed (R212), and the abandons of it that do not count (R482): how many,
  and by rank * 2^32 + unit -/
  count : Nat := 0
  freeAbandons : Nat := 0
  canaries : Tab Nat := []
  lastControl : Nat := 0
  /-- messages of several flits not yet whole, by channel and source -/
  rx : Tab (List Word) := []
  /-- blocks each channel has passed in this tide: sends by channel id, receives by 65,536 + channel id -/
  chanBlocks : Tab Nat := []
  deriving DecidableEq, Repr

/-- A mailbox page (R388): registers, payload bytes, and the opcode of a command that has not acted yet; one that has acted
and is not done waits for what it began. -/
structure Mbx where
  opcode : Nat := 0
  seq : Nat := 0
  sglCount : Nat := 0
  length : Nat := 0
  noEvent : Bool := false
  noIrq : Bool := false
  done : Bool := true
  status : Nat := 0
  doneSeq : Nat := 0
  respLen : Nat := 0
  detail : Nat := 0
  offset : Nat := 0xFFFF
  ignored : Nat := 0
  payload : List Host.Cell := []
  running : Option Nat := none
  order : Nat := 0
  /-- since when the command waits for the mesh to drain (R210) -/
  drainAt : Option Nat := none
  deriving DecidableEq, Repr

/-- The event or telemetry ring control block (R364, R368). `dropsSince` counts drops since the last overflow record. -/
structure Ring where
  baseLo : Nat := 0
  baseHi : Nat := 0
  en : Bool := false
  minSev : Nat := 0
  coalesceUs : Nat := 0
  logSize : Nat := 6
  producer : Nat := 0
  consumer : Nat := 0
  dropped : Nat := 0
  dropsSince : Nat := 0
  unsignalled : Bool := false
  lastSignal : Nat := 0
  lastSeq : Nat := 0
  deriving DecidableEq, Repr

/-- The boot control block (R362) and what bring-up has sampled and found (R417 to R424). -/
structure Boot where
  memLevel : Nat := 0
  warm : Bool := false
  step : Nat := 0
  state : Nat := 0
  stStep : Nat := 0
  reached : Nat := 0
  error : Nat := 0
  /-- the time of the last GO -/
  goTime : Option Nat := none
  pathWarm : Bool := false
  pathLevel : Nat := 0
  /-- the running step has done its work: the cause it fails with, or none -/
  workDone : Bool := false
  failCause : Option Nat := none
  /-- events of steps 1 to 4, raised at MGMT_BOOT (R425) -/
  early : List EventRec := []
  /-- a device reset is announced (R428), and whether it is that of a firmware activation (R403) -/
  announced : Bool := false
  activation : Bool := false
  lastWasDeviceReset : Bool := false
  wasReady : Bool := false
  powerSteady : Bool := true
  selfRefreshed : Bool := false
  epoOrTrip : Bool := false
  fuseChanged : Bool := false
  poweredOff : Bool := false
  /-- the announced device reset is that of BOOT_RESET (R416) -/
  byBoot : Bool := false
  deriving DecidableEq, Repr

/-- The fuse map (R434). [DESIGN CHOICE, log entry 27] -/
structure Fuses where
  serial : Nat := 1
  deviceId : Nat := 0x0808
  stepping : Nat := 0xB0
  stripeMap : BitVec 8 := 0xFF
  portMap : BitVec 6 := 0x3F
  hbmGib : Nat := 576
  rootKeyDigest : BitVec 512 := 0xadf225851e15dd6be877397e5f3eb3aacef8dbdb728e23bdfcf8d13de59836ac80865e0012fc5aeeefaac21c66222fd4375bf6747f73babaf48ce9c06a67b927
  identitySeed : BitVec 512 := 0
  vminTrim : Tab Nat := []
  factoryRepair : Tab (BitVec 14) := []
  digest : BitVec 512 := 0xe419700feec8c002d795ee87d5991fd7821e458a6b2f00ac6c4056044e14de9fea271a7442e8e2e9ceb038a13941a479e9f723b9403a6e9ec88c5450505dac93
  deriving DecidableEq, Repr

/-- A repair record (R487). -/
structure RepairRec where
  type : Nat
  source : Nat
  cause : Nat
  object : Nat
  ts : Nat
  boot : Nat
  tide : Nat
  deriving DecidableEq, Repr

/-- A retired-frame record (R487). -/
structure RetiredRec where
  tier : Nat
  cause : Nat
  frame : Nat
  ts : Nat
  deriving DecidableEq, Repr

/-- A stored ownership record, licence, installed pack or firmware bank (R485, R499, R510, R402). -/
structure Pack where
  id : Nat
  version : Nat
  kernels : List KernelRec
  patterns : Nat
  size : Nat
  deriving DecidableEq, Repr

/-- A firmware bank. -/
structure FwBank where
  valid : Bool := false
  verified : Bool := false
  version : Nat := 0
  floor : Nat := 0
  digest : BitVec 512 := 0
  deriving DecidableEq, Repr

/-- A region generator (R442): N of its active and of its standby synthesiser, whether the second is the active one, and which of the
two have lost lock (false the first). A field generator's two hold one frequency. -/
structure Generator where
  active : Nat := 3
  standby : Nat := 3
  second : Bool := false
  lost : List Bool := []
  deriving DecidableEq, Repr

/-- Power, clocks and heat of the device (R439 to R466). [DESIGN CHOICE, log entry 30] -/
structure Power where
  step : Nat := 7
  /-- a faster step whose voltage every cluster regulator has settled at (R446) -/
  rising : Option Nat := none
  minStep : Nat := 0
  capStep : Nat := 0
  capW : Nat := 18000
  p1 : Nat := 0
  p1s : List Nat := []
  vinMv : Nat := 54000
  iinMa : Nat := 0
  lastSlow : Option Nat := none
  lastFast : Option Nat := none
  overCount : Nat := 0
  backstop : Bool := false
  thermalStep : Nat := 0
  thermalUntil : Nat := 0
  modulesOff : List Nat := []
  activePhases : Nat := 4
  pllLocked : Bool := false
  gensLocked : Bool := false
  /-- the region generators: 1 to 24 compute-die, 25 to 36 field (R442) -/
  gens : Tab Generator := []
  clockFailed : Bool := false
  /-- the clock has left step 7 since READY (R444) -/
  moved : Bool := false
  refOscillator : Bool := true
  currents : List Nat := []
  deriving DecidableEq, Repr

/-- A captured tile of the black box or the debug snapshot (R372, R491). -/
structure TileCapture where
  tile : TileId
  code : Nat := 0
  payload : DWord := 0
  sregs : List Word := []
  preds : BitVec 8 := 1
  vregs : List (List Word) := []
  tags : List Nat := []
  queues : List (List Word) := []
  corrected : Nat := 0
  observed : Bool := false
  deriving DecidableEq, Repr

/-- A black-box capture (R489). -/
structure Capture where
  tide : Nat := 0
  tiles : List TileCapture := []
  omitted : Nat := 0
  boot : Boot := {}
  power : Power := {}
  job : Job := {}
  parts : Tab Partition := []
  clusters : Tab Cluster := []
  deriving DecidableEq, Repr

/-- A black-box flash slot (R490, R492). -/
structure BbSlot where
  valid : Bool := false
  seq : Nat := 0
  count : Nat := 0
  trigger : Option EventRec := none
  events : List EventRec := []
  capture : Capture := {}
  deriving DecidableEq, Repr

/-- A copy of the repair log (R486). -/
structure RepairLog where
  valid : Bool := true
  seq : Nat := 0
  repairs : List RepairRec := []
  retired : List RetiredRec := []
  deriving DecidableEq, Repr

/-- Module flash (R540): repair log copies, banks, packs, owner, licences, floors, black-box slots, kept marks. [DESIGN CHOICE, log entry 28] -/
structure Flash where
  present : Bool := true
  /-- the vendor's root public key (R494) -/
  rootKey : Nat := 4 * 2 ^ 1056 + basePoint.x * 2 ^ 528 + basePoint.y
  log0 : RepairLog := {}
  log1 : RepairLog := {}
  bankB : Bool := false
  running : FwBank := { valid := true, version := 0x02030000 }
  other : FwBank := {}
  onTrial : Bool := false
  rolledBack : Bool := false
  fwFloor : Nat := 0
  activateCold : Bool := false
  packs : List Pack := []
  basePackKernels : Nat := 1
  ownerKey : Option Nat := none
  debugKey : Option Nat := none
  ownerSeq : Nat := 0
  licences : Tab Nat := []
  licenceBytes : Tab (List Byte) := []
  bootCount : Nat := 0
  stepsUnavailable : BitVec 8 := 0
  phasesLost : List Nat := []
  bb0 : BbSlot := {}
  bb1 : BbSlot := {}
  deriving DecidableEq, Repr

/-- A staging area (R400): kind, partition, bytes wanted and staged, the staged bytes, whether they were verified and the digest
they had then (R504), and the frames that hold a program or weight image.
[DESIGN CHOICE, log entry 95] -/
structure Stage where
  kind : Nat
  part : Nat
  total : Nat
  staged : Nat
  img : Image
  verified : Bool := false
  digest : BitVec 512 := 0
  frames : List Nat := []
  deriving DecidableEq, Repr

/-- The black box (R488 to R490): the event log, the latest capture, and a flash copy in progress: its slot, its trigger,
and the events raised since it began; and fault events of a member that has sent DONE, which wait to know their tide (R338). -/
structure BlackBox where
  log : List EventRec := []
  waiting : List EventRec := []
  capture : Capture := {}
  copying : Option (Nat × Option EventRec × Nat) := none
  sinceCopy : Bool := false
  deriving DecidableEq, Repr

/-- Debug access (R371, R513 to R515): open scopes, the outstanding nonce, the window's registers. -/
structure Debug where
  telemetry : Bool := false
  tile : Bool := false
  scan : Bool := false
  byVendor : Bool := false
  nonce : Option (Nat × BitVec 512 × Nat) := none
  selected : Nat := 0
  live : Bool := false
  snap : Option TileCapture := none
  ignored : Nat := 0
  deriving DecidableEq, Repr

/-- The host link (R354 to R384). -/
structure HostLink where
  trained : Bool := false
  width : Nat := 0
  rate : Nat := 0
  recoveries : Nat := 0
  busMaster : Bool := false
  d3hot : Bool := false
  cacheEnable : Bool := false
  /-- partitions that have not reached a stop point since Cache_Enable changed, and the value each still goes by (R374) -/
  cacheLag : List (Nat × Bool) := []
  uioEnable : Bool := false
  ideOn : Bool := false
  ideFailed : Bool := false
  access : Bool := false
  /-- access to host memory was lost and has not come back (R378, R380) -/
  lost : Bool := false
  msixEnable : Bool := false
  msixMask : BitVec 64 := 0xFFFFFFFFFFFFFFFF
  msixPending : BitVec 64 := 0
  lines : List Nat := []
  stale : List Nat := []
  badAccess : Nat := 0
  msixTable : Tab Word := []
  /-- what the host assigned to the BAR registers (R363); the IDE mode of CXL.cache, skid or containment (R376) -/
  barBase : Tab Word := []
  skid : Bool := false
  /-- what the host wrote into the CXL component registers (R359) -/
  component : Tab Word := []
  /-- events held in an outage wait for the event ring to be set up (R380) -/
  eventsHeld : Bool := false
  deriving DecidableEq, Repr

/-- The base connector's pins and the hot-swap controller (R524, R531 to R534). [DESIGN CHOICE, log entry 29] -/
structure Pins where
  pwrEn : Bool := true
  mateOk : Bool := true
  perst : Bool := true
  pwrgd : Bool := true
  attn : Bool := false
  switchOn : Bool := true
  latched : Bool := false
  lowSince : Option Nat := none
  opening : Bool := false
  openedAt : Option Nat := none
  riseHeld : Bool := false
  powering : Bool := false
  /-- the switch opened for a voltage out of range, and whether for one too high (R531) -/
  faultOpen : Bool := false
  overOpen : Bool := false
  deriving DecidableEq, Repr

/-- Observation of a tile's site (R483): committed tides seen since its start, and its cause. -/
structure Observation where
  tides : Nat
  cause : Nat
  deriving DecidableEq, Repr

/-- A management check-value unit (R518): context fields and the internal register. -/
structure CvUnit where
  ctrl : Word := 0
  poly : DWord := 0
  init : DWord := 0
  xorout : DWord := 0
  fold : DWord := 0
  r : DWord := 0
  deriving DecidableEq, Repr

/-- A unit reset in progress (R426, R427): scope 0 tile, 1 cluster, 2 partition; index; traffic absorbed; the mailbox whose
command ends with it, and that command's response. -/
structure UnitReset where
  scope : Nat
  index : Nat
  absorbed : Nat := 0
  mbx : Option Nat := none
  resp : List Byte := []
  deriving DecidableEq, Repr

/-- The SPDM responder (R511): negotiated, and its sessions. -/
structure Spdm where
  version : Bool := false
  caps : Bool := false
  algs : Bool := false
  sessions : List (Nat × Bool) := []
  keyGens : Tab Nat := []
  deriving DecidableEq, Repr

/-- Out-of-band and DOE responses last given (R354, R415, R511): a code and its values. -/
structure Response where
  code : Nat := 0
  vals : List Nat := []
  deriving DecidableEq, Repr

/-- A SCAN_RUN that waits for its cluster's power: its page, the cluster, the pattern set, the sites that will fail (R431, R484). -/
structure ScanWait where
  mbx : Nat
  cluster : Nat
  pack : Nat
  failing : List (Nat × Nat)
  deriving DecidableEq, Repr

/-- The module. -/
structure State where
  /-- commands waiting, first in first out: the model's own queue -/
  pending : List Instr := []
  /-- the model's counter of free values -/
  freeCtr : Nat := 0
  /-- device time since device reset in units of 1/4158 ns; the tile-cycle count; the timestamp's forward steps -/
  time : Nat := 0
  cc : Nat := 0
  tsStep : Nat := 0
  timeHi : Word := 0
  heartbeatReg : Word := 0
  /-- a FREQ_STEP_SET that is applied at the next tide boundary: its page (R396) -/
  freqWait : Option Nat := none
  /-- milliseconds left of a restart of the management core (R386) -/
  fwRestart : Nat := 0
  /-- ns that the hot-swap controller had counted when the device's time last began anew (R531) -/
  pinClock : Nat := 0
  heartbeatS : Nat := 0
  cmdsDone : Nat := 0
  /-- what the engines have issued on the CXL link, in order, and what has left on it (R211, R358) -/
  posted : List Posted := []
  sent : List Posted := []
  /-- the link's arbitration (R211): flit times since the last flit of the device's own traffic, the partition whose turn it is, the
  flits left of its quantum, and by class the flits of its first item that have passed -/
  cxlSince : Nat := 16
  cxlTurn : Nat := 0
  cxlLeft : Nat := 0
  cxlPart : Tab Nat := []
  lastRead : Nat := 0
  eventCount : Nat := 0
  boot : Boot := {}
  fuses : Fuses := {}
  fuseShown : Bool := false
  fwShown : Bool := false
  /-- the I3C port is served (R415) -/
  i3cUp : Bool := false
  ready : Bool := false
  flash : Flash := {}
  link : HostLink := {}
  evr : Ring := {}
  tlr : Ring := {}
  bb : BlackBox := {}
  mbx : Tab Mbx := []
  doorOrder : Nat := 0
  stages : List Stage := []
  scan : Option ScanWait := none
  /-- a FABRIC_TRAIN held for a port's shut-down (R431): its page, and the ports that will train -/
  trainWait : Option (Nat × BitVec 6) := none
  windows : List (Nat × Nat) := []
  tiles : Tab Tile := []
  clusters : Tab Cluster := []
  parts : Tab Partition := []
  streams : Tab Stream := []
  pages : Tab Page := []
  hbm : List Host.Cell := []
  cxl : List Host.Cell := []
  memports : Tab MemPort := []
  uio : List Uio := []
  /-- accesses of edge units to tiles that wait for their answers, and the next tag -/
  unitAcc : List UnitAcc := []
  unitSeq : Nat := 0
  /-- packets at the root of the service tree by partition, and whose turn was last (R197, R198) -/
  svc : Tab (List Packet) := []
  svcTurn : Nat := 0
  routers : Tab Router := []
  arrived : List Packet := []
  edge : Tab (List Packet) := []
  disabled : List (Nat × Nat) := []
  withdrawn : BitVec 8 := 0
  baseFaults : BitVec 8 := 0
  retired : List Nat := []
  hports : Tab HPort := []
  job : Job := {}
  power : Power := {}
  telemetryUs : Nat := 1000
  telemetryKinds : BitVec 3 := 0
  pins : Pins := {}
  observed : Tab Observation := []
  dbg : Debug := {}
  cv0 : CvUnit := {}
  cv1 : CvUnit := {}
  resets : List UnitReset := []
  preparing : Option Nat := none
  removeReady : Bool := false
  parkedCount : Nat := 0
  /-- doorbells of slots in no partition (R277, R370) -/
  doorbellsIgnored : Nat := 0
  spdm : Spdm := {}
  doe : Response := {}
  i3c : Response := {}
  meshTraffic : Nat := 0
  deriving DecidableEq, Repr

/-- The module right after reset (R384, R417): power is good, PERST# is asserted, the boot control block reads IDLE with
REACHED 0, every tile is unpowered, no partition exists, nothing is written to any memory. [DESIGN CHOICE, log entry 2] [DESIGN CHOICE, log entry 26] -/
def State.reset : State := {}

end Sys2Proof.Machine
end

