-- ==== Sys2Proof/Machine/Ops.lean ====
section
/-!
DEFINITION. The named operations every command is built from: sparse tables, canonical byte memories, the coordinate
systems of R3 to R7, R14 and R22, accessors of the units of State, the timestamp, raising an event (R365, R366, R369,
R490), and recording a fault against a tide (R147, R216).
-/

namespace Sys2Proof.Machine

/-- What every meaning answers. -/
abbrev Res := Host.Outcome State Fault Refusal

/-! Sparse tables -/

/-- The entry at key `k`, or the default. -/
def tget {α : Type} (d : α) : Tab α → Nat → α
  | [], _ => d
  | (i, v) :: r, k => if i = k then v else tget d r k

/-- The table with `v` at key `k`, keys rising. -/
def tset {α : Type} : Tab α → Nat → α → Tab α
  | [], k, v => [(k, v)]
  | (i, w) :: r, k, v =>
    if i = k then (k, v) :: r
    else if k < i then (k, v) :: (i, w) :: r
    else (i, w) :: tset r k v

/-- The table without key `k`. -/
def tdel {α : Type} (t : Tab α) (k : Nat) : Tab α := t.filter fun p => p.1 ≠ k

/-! Byte memories -/

/-- A byte of a memory: an unlisted address reads 0. [DESIGN CHOICE, log entry 25] -/
def memGet : List Host.Cell → Nat → Byte
  | [], _ => 0
  | (i, v) :: r, a => if i = a then v else memGet r a

/-- A byte written, keeping the canonical form: rising addresses, no zero byte listed. -/
def memSet : List Host.Cell → Nat → Byte → List Host.Cell
  | [], a, v => if v = 0 then [] else [(a, v)]
  | (i, w) :: r, a, v =>
    if i = a then (if v = 0 then r else (a, v) :: r)
    else if a < i then (if v = 0 then (i, w) :: r else (a, v) :: (i, w) :: r)
    else (i, w) :: memSet r a v

/-- Addresses rise strictly from `lo` and no listed byte is zero. -/
def memWfFrom : Nat → List Host.Cell → Bool
  | _, [] => true
  | lo, (i, v) :: r => decide (lo ≤ i) && decide (v ≠ 0) && memWfFrom (i + 1) r

/-- The canonical form of a memory. -/
def Memory.wf (m : List Host.Cell) : Bool := memWfFrom 0 m

/-- Bytes a, a + 1, ... of a memory. -/
def memBytes (m : List Host.Cell) (a n : Nat) : List Byte := (List.range n).map fun i => memGet m (a + i)

/-- A run of bytes written from `a` up. -/
def memPut : List Host.Cell → Nat → List Byte → List Host.Cell
  | m, _, [] => m
  | m, a, b :: r => memPut (memSet m a b) (a + 1) r

/-- The little-endian number of a byte list (R8). -/
def leNat : List Byte → Nat
  | [] => 0
  | b :: r => b.toNat + 256 * leNat r

/-- The n low bytes of a number, little-endian (R8). -/
def leBytes : Nat → Nat → List Byte
  | 0, _ => []
  | n + 1, v => BitVec.ofNat 8 v :: leBytes n (v / 256)

/-- A 32-bit word at word address `w`. -/
def wordAt (m : List Host.Cell) (w : Nat) : Word := BitVec.ofNat 32 (leNat (memBytes m (4 * w) 4))

/-- A 32-bit word written at word address `w`. -/
def putWord (m : List Host.Cell) (w : Nat) (v : Word) : List Host.Cell := memPut m (4 * w) (leBytes 4 v.toNat)

/-- Bits hi down to lo of a number. -/
def bits (v hi lo : Nat) : Nat := v / 2 ^ lo % 2 ^ (hi + 1 - lo)

/-- Bit i of a number. -/
def bit (v i : Nat) : Bool := v / 2 ^ i % 2 = 1

/-- A Boolean as 0 or 1. -/
def b01 (b : Bool) : Nat := if b then 1 else 0

/-- A count kept at or below its limit (the saturating fields of the spec). -/
def sat (v lim : Nat) : Nat := min v lim

/-- The bank of line `l` (R151). -/
def bankOfLine (l : Nat) : Nat :=
  bits l 3 3 * 8 + Nat.xor (Nat.xor (bits l 2 0) (bits l 6 4)) (Nat.xor (bits l 9 7) (bits l 12 10))

/-- Ones in a mask of at most 39 bits (32 data and 7 check bits, R158). -/
def popcount39 (m : Nat) : Nat := ((List.range 39).filter fun i => bit m i).length

/-! Accessors of the units -/

/-- Tile at linear index `t`. -/
def State.tile (s : State) (t : TileId) : Tile := tget {} s.tiles t
/-- The state with tile `t` replaced. -/
def State.setTile (s : State) (t : TileId) (x : Tile) : State := { s with tiles := tset s.tiles t x }
/-- The state with tile `t` changed. -/
def State.modTile (s : State) (t : TileId) (f : Tile → Tile) : State := s.setTile t (f (s.tile t))
/-- Cluster `c`. -/
def State.cluster (s : State) (c : Nat) : Cluster := tget {} s.clusters c
/-- The state with cluster `c` changed. -/
def State.modCluster (s : State) (c : Nat) (f : Cluster → Cluster) : State :=
  { s with clusters := tset s.clusters c (f (s.cluster c)) }
/-- Partition `p`. -/
def State.part (s : State) (p : Nat) : Partition := tget {} s.parts p
/-- The state with partition `p` changed. -/
def State.modPart (s : State) (p : Nat) (f : Partition → Partition) : State :=
  { s with parts := tset s.parts p (f (s.part p)) }
/-- Stream slot `n`. -/
def State.stream (s : State) (n : Nat) : Stream := tget {} s.streams n
/-- The state with stream slot `n` changed. -/
def State.modStream (s : State) (n : Nat) (f : Stream → Stream) : State :=
  { s with streams := tset s.streams n (f (s.stream n)) }
/-- Logical page `g`. -/
def State.page (s : State) (g : Nat) : Page := tget {} s.pages g
/-- The state with page `g` changed. -/
def State.modPage (s : State) (g : Nat) (f : Page → Page) : State :=
  { s with pages := tset s.pages g (f (s.page g)) }
/-- Memory port `m`. -/
def State.memport (s : State) (m : Nat) : MemPort := tget {} s.memports m
/-- The state with memory port `m` changed. -/
def State.modMemport (s : State) (m : Nat) (f : MemPort → MemPort) : State :=
  { s with memports := tset s.memports m (f (s.memport m)) }
/-- Router (rx, ry) under the key ry * 148 + rx. -/
def State.router (s : State) (k : Nat) : Router := tget {} s.routers k
/-- The state with router `k` changed. -/
def State.modRouter (s : State) (k : Nat) (f : Router → Router) : State :=
  { s with routers := tset s.routers k (f (s.router k)) }
/-- Hikolink port `q`. -/
def State.hport (s : State) (q : Nat) : HPort := tget {} s.hports q
/-- The state with Hikolink port `q` changed. -/
def State.modHport (s : State) (q : Nat) (f : HPort → HPort) : State :=
  { s with hports := tset s.hports q (f (s.hport q)) }
/-- Mailbox page `n`. -/
def State.mb (s : State) (n : Nat) : Mbx := tget {} s.mbx n
/-- The state with mailbox page `n` changed. -/
def State.modMb (s : State) (n : Nat) (f : Mbx → Mbx) : State := { s with mbx := tset s.mbx n (f (s.mb n)) }

/-- The state with the model's free-value counter advanced by `n`. [DESIGN CHOICE, log entry 5] -/
def State.used (s : State) (n : Nat) : State := { s with freeCtr := s.freeCtr + n }

/-! Time -/

/-- Units of `State.time` in one nanosecond. -/
def nsUnits : Nat := 4158

/-- The timestamp clock in ns (R361): it counts from device reset and steps forward at job formation (R332). [DESIGN CHOICE, log entry 34] -/
def State.now (s : State) : Nat := s.time / nsUnits + s.tsStep

/-- N of a tile-clock step (R444). -/
def stepN (n : Nat) : Nat := [12, 11, 10, 9, 8, 7, 6].getD n 3

/-- Units of `State.time` in one tile cycle of a step: root / 48 × N, with 27,720 units in 48 root cycles (R439, R444). -/
def cycleUnits (n : Nat) : Nat := 27720 / stepN n

/-- One hour in ns, the window of R474. -/
def hourNs : Nat := 3600000000000

/-! Coordinates (R3 to R7, R14, R20, R22) -/

/-- sigma0: the position of the lowest set bit of STRIPE_MAP (R3). -/
def State.sigma0 (s : State) : Nat := ((List.range 8).find? fun i => s.fuses.stripeMap.getLsbD i).getD 0

/-- Enabled stripes of the part (STRIPES, R361). -/
def State.stripes (s : State) : Nat := ((List.range 8).filter fun i => s.fuses.stripeMap.getLsbD i).length

/-- Logical x and y of a tile, and the linear index of a pair (R4). -/
def tileX (t : TileId) : Nat := t % 280
/-- Logical y. -/
def tileY (t : TileId) : Nat := t / 280
/-- Linear index. -/
def tileIx (x y : Nat) : TileId := y * 280 + x

/-- The tile lies in the logical grid of the part (R3). -/
def State.onGrid (s : State) (x y : Nat) : Bool := decide (x < 35 * s.stripes) && decide (y < 288)

/-- Logical stripe of a tile. -/
def tileStripe (t : TileId) : Nat := tileX t / 35

/-- Cluster index of a tile (R4). -/
def State.clusterOf (s : State) (t : TileId) : Nat := (tileStripe t + s.sigma0) * 36 + tileY t / 8

/-- Disabled offsets of the segment of physical stripe `sg` in row `py`, ascending (R22). -/
def State.segDisabled (s : State) (sg py : Nat) : List Nat :=
  (List.range 37).filter fun o => s.disabled.contains (37 * sg + o, py)

/-- phys_offset (R22). -/
def physOffset (k : Nat) (d : List Nat) : Nat := d.foldl (fun p o => if o ≤ p then p + 1 else p) k

/-- Physical site of a tile (R7, R22). -/
def State.siteOf (s : State) (t : TileId) : Nat × Nat :=
  let sg := tileStripe t + s.sigma0
  (37 * sg + physOffset (tileX t % 35) (s.segDisabled sg (tileY t)), tileY t)

/-- The logical tile at a physical site, if it holds one; a site of a stripe that is not enabled holds none (R3). -/
def State.tileAt (s : State) (px py : Nat) : Option TileId :=
  let sg := px / 37
  if sg < s.sigma0 ∨ s.sigma0 + s.stripes ≤ sg then none
  else
    ((List.range 35).find? fun k => physOffset k (s.segDisabled sg py) = px % 37 ∧ ¬ s.disabled.contains (px, py)).map
      fun k => tileIx (35 * (sg - s.sigma0) + k) py

/-- Tiles of a cluster, in ascending linear index. -/
def State.tilesOfCluster (s : State) (c : Nat) : List TileId :=
  if c / 36 < s.sigma0 ∨ s.sigma0 + s.stripes ≤ c / 36 then []
  else (List.range 8).flatMap fun dy => (List.range 35).map fun k =>
    tileIx (35 * (c / 36 - s.sigma0) + k) (8 * (c % 36) + dy)

/-- Partition `p` exists (it is not removed). -/
def State.exists? (s : State) (p : Nat) : Bool := decide ((s.part p).st ≠ .none)

/-- The partition that owns logical stripe `st` (R205). -/
def State.partOfStripe (s : State) (st : Nat) : Option Nat :=
  (List.range 8).find? fun p => s.exists? p && decide ((s.part p).firstStripe ≤ st)
    && decide (st < (s.part p).firstStripe + (s.part p).stripeCount)

/-- The partition of a tile. -/
def State.partOf (s : State) (t : TileId) : Option Nat := s.partOfStripe (tileStripe t)

/-- Tiles of a partition in ascending linear index. -/
def State.tilesOf (s : State) (p : Nat) : List TileId :=
  (List.range 288).flatMap fun y => (List.range (35 * (s.part p).stripeCount)).map fun k =>
    tileIx (35 * (s.part p).firstStripe + k) y

/-- Clusters of a partition (indices by physical stripe, R5). -/
def State.clustersOf (s : State) (p : Nat) : List Nat :=
  (List.range (s.part p).stripeCount).flatMap fun k => (List.range 36).map fun b =>
    ((s.part p).firstStripe + k + s.sigma0) * 36 + b

/-- Memory ports of a partition, stacks N then S of each of its stripes (R14). -/
def State.portsOf (s : State) (p : Nat) : List Nat :=
  (List.range (s.part p).stripeCount).flatMap fun k =>
    [(s.part p).firstStripe + k + s.sigma0, 8 + (s.part p).firstStripe + k + s.sigma0]

/-- The phases of a tide (R215). -/
def running (st : PState) : Bool :=
  match st with
  | .open_ => true
  | .closing => true
  | .boundary => true
  | .abandoning => true
  | .recovering => true
  | _ => false

/-- Tile power of a tile's cluster is on. -/
def State.powered (s : State) (t : TileId) : Bool := (s.cluster (s.clusterOf t)).power

/-- The tile absorbs entries and remote accesses for reset or power (R166, R174). -/
def State.down (s : State) (t : TileId) : Bool := (s.tile t).inReset || !(s.powered t)

/-- The tile absorbs queue entries (R174). -/
def State.absorbing (s : State) (t : TileId) : Bool := (s.tile t).ended || s.down t

/-! Unit ids (R366) -/

/-- Unit id of class `cls`, index `ix`. -/
def unitId (cls ix : Nat) : Nat := cls * 2 ^ 28 + ix
/-- The management complex. -/
def mgmtUnit : Nat := unitId 6 0
/-- The CXL unit. -/
def cxlUnit : Nat := unitId 5 0
/-- The tiering unit. -/
def tierUnit : Nat := unitId 7 0
/-- The stream engine. -/
def streamUnit : Nat := unitId 8 0

/-! Queue records (R177) and captures (R489, R491) -/

/-- Words free in queue `q` of a tile. -/
def Queue.words (q : Queue) : Nat := q.entries.foldl (fun n e => n + e.words.length) 0

/-- Queue `n` of a tile. -/
def Tile.queue (x : Tile) (n : Nat) : Queue := tget {} x.queues n
/-- QCFG_n (R167). -/
def Tile.qcfgOf (x : Tile) (n : Nat) : Word := tget 0 x.qcfg n
/-- EN of queue `n`. -/
def Tile.qEn (x : Tile) (n : Nat) : Bool := bit (x.qcfgOf n).toNat 31
/-- DEPTH of queue `n`. -/
def Tile.qDepth (x : Tile) (n : Nat) : Nat := bits (x.qcfgOf n).toNat 18 9
/-- BASE of queue `n`. -/
def Tile.qBase (x : Tile) (n : Nat) : Nat := bits (x.qcfgOf n).toNat 8 0

/-- The queue a held receive names. -/
def recvQueue (i : Instr) : Option Nat :=
  match i with
  | .qRecv _ q _ _ _ => some q.toNat
  | .qRecvv _ q _ _ _ _ => some q.toNat
  | _ => none

/-- The 32-byte record of queue `n` of tile `t` as eight words (R177). -/
def State.queueRecord (s : State) (t : TileId) (n : Nat) : List Word :=
  let x := s.tile t
  let q := x.queue n
  let head : List Word := match q.entries with
    | [] => []
    | e :: _ => e.words
  let stat := b01 (x.held.any fun i => recvQueue i = some n && q.entries.isEmpty) * 2 ^ 31
    + b01 (x.ingress.any fun e => e.1 = n) * 2 ^ 30 + b01 (s.absorbing t) * 2 ^ 29
    + (head.length - 1) * 2 ^ 20 + q.words * 2 ^ 10 + q.entries.length
  [x.qcfgOf n, BitVec.ofNat 32 stat, head.getD 0 0, head.getD 1 0, head.getD 2 0, head.getD 3 0,
    BitVec.ofNat 32 (sat q.absorbed 0xFFFFFFFF),
    BitVec.ofNat 32 (match q.lastSender with
      | some u => 2 ^ 31 + u
      | none => 0)]

/-- Number of a tag state in the captures. -/
def tagCode (g : TagSt) : Nat :=
  match g with
  | .idle => 0
  | .active => 1
  | .landed => 2

/-- Mover tag `n` of a tile. -/
def Tile.tag (x : Tile) (n : Nat) : TagState := tget {} x.tags n

/-- A tile's record: first fault, queues, tags, corrected errors, observation (R491); registers for the debug window. -/
def State.captureTile (s : State) (t : TileId) : TileCapture :=
  let x := s.tile t
  let site := s.siteOf t
  { tile := t
    code := (x.faulted.map fun f => f.code).getD 0
    payload := (x.faulted.map fun f => f.payload).getD 0
    sregs := (List.range 32).map fun r => tget 0 x.sregs r
    preds := x.preds
    vregs := (List.range 32).map fun r => tget [] x.vregs r
    tags := (List.range 16).map fun g => tagCode (x.tag g).st
    queues := (List.range 8).map fun q => s.queueRecord t q
    corrected := x.corrWindow
    observed := s.observed.any fun o => o.1 = site.2 * 296 + site.1 }

/-- Tiles that raised an event of severity 2 or above in the partition's tide, ascending (R489). -/
def State.captureTiles (s : State) (p tide : Nat) : List TileId :=
  ((s.bb.log.filter fun e => e.unit < 2 ^ 28 && e.sev ≥ 2 && !e.noTide && e.part = p && e.tide = tide).map fun e => e.unit).foldl
    (fun l t => if l.contains t then l else (l.filter (· < t)) ++ t :: l.filter (t < ·)) []

/-- A capture (R489): device, partition and cluster records as structured copies, and the tile records. -/
def State.takeCapture (s : State) (p tide : Nat) : State :=
  let ts := s.captureTiles p tide
  { s with bb := { s.bb with capture :=
      { tide := tide, tiles := (ts.take 4096).map s.captureTile, omitted := ts.length - 4096
        boot := s.boot, power := s.power, job := s.job, parts := s.parts, clusters := s.clusters } } }

/-! Events -/

/-- Signal an MSI-X vector: a masked vector sets its pending bit; disabled or without host access nothing is sent. -/
def State.msix (s : State) (v : Nat) : State :=
  if !s.link.msixEnable then s
  else if s.link.msixMask.getLsbD v then
    { s with link := { s.link with msixPending := s.link.msixPending ||| BitVec.ofNat 64 (2 ^ v) } }
  else if s.link.access then { s with posted := s.posted ++ [Posted.msix v] }
  else s

/-- Free records of a ring (R365). -/
def Ring.free (r : Ring) : Nat := 2 ^ r.logSize - (r.producer + 2 ^ 32 - r.consumer) % 2 ^ 32

/-- Ring base (R364). -/
def Ring.base (r : Ring) : Nat := r.baseHi * 2 ^ 32 + r.baseLo

/-- Vector 9 or 10: signalled at once when COALESCE_US have passed since the last signal, or when forced (R369). -/
def State.signalRing (s : State) (telemetry force : Bool) : State :=
  let r := if telemetry then s.tlr else s.evr
  if r.unsignalled && (force || decide (s.now ≥ r.lastSignal + r.coalesceUs * 1000)) then
    let r' := { r with unsignalled := false, lastSignal := s.now }
    (if telemetry then { s with tlr := r' } else { s with evr := r' }).msix (if telemetry then 10 else 9)
  else s

/-- The address of the event record after the one at `b`. -/
def Ring.after (r : Ring) (b : Nat) : Nat := r.base + 32 * (((b - r.base) / 32 + 1) % 2 ^ r.logSize)

/-- An event record not yet sent moves up by one place of the ring. -/
def Ring.shift (r : Ring) (p : Posted) : Posted :=
  match p with
  | .event b x => .event (r.after b) x
  | _ => p

/-- The writes that wait, with record `e` among them: behind every record whose stamp is earlier, and among those of its own stamp
in ascending unit id (R365); `a` is the next free place. -/
def Ring.place (r : Ring) (a : Nat) (e : EventRec) : List Posted → List Posted
  | [] => [.event a e]
  | .event b x :: l =>
    if x.ts = e.ts ∧ e.unit < x.unit then .event b e :: .event (r.after b) x :: l.map r.shift
    else .event b x :: r.place a e l
  | p :: l => p :: r.place a e l

/-- Write one record to the event ring and raise EVR_PRODUCER (R365). What an overflow record precedes is not moved before it. -/
def State.ringPut (s : State) (e : EventRec) : State :=
  let r := s.evr
  let a := r.base + 32 * (r.producer % 2 ^ r.logSize)
  let later := fun (p : Posted) => match p with
    | .event _ x => decide (x.code = 0x0904 ∧ x.ts = e.ts)
    | _ => false
  ({ s with
      posted := if e.code = 0x0904 ∨ s.posted.any later then s.posted ++ [Posted.event a e] else r.place a e s.posted
      evr := { r with producer := (r.producer + 1) % 2 ^ 32, unsignalled := true, lastSeq := s.eventCount } }).signalRing
    false (decide (e.sev ≥ 3))

/-- The log keeps the last 65,536 events (R488). -/
def pushLog (l : List EventRec) (e : EventRec) : List EventRec := (l ++ [e]).drop ((l.length + 1) - 65536)

/-- An event enters the log; a flash copy that runs counts the events raised since it began (R490). -/
def BlackBox.push (b : BlackBox) (e : EventRec) : BlackBox :=
  { b with log := pushLog b.log e, sinceCopy := true, copying := b.copying.map fun c => (c.1, c.2.1, c.2.2 + 1) }

/-- A HOST_EVENT_OVERFLOW record: an event of its own, written whatever MIN_SEV is (R365, R367). -/
def State.overflow (s : State) : State :=
  let e : EventRec := { code := 0x0904, sev := 2, unit := cxlUnit, ts := s.now, seq := s.eventCount % 65536,
                        payload := BitVec.ofNat 64 (sat s.evr.dropsSince 0xFFFFFFFF) }
  let s := { s with eventCount := s.eventCount + 1, bb := s.bb.push e,
                    evr := { s.evr with dropsSince := 0 } }
  s.ringPut e

/-- Records may reach the ring: it is enabled and host memory is accessible. -/
def State.ringOpen (s : State) : Bool := s.evr.en && s.link.access

/-- An overflow record if drops wait and there is room again (R365). -/
def State.overflowIfDue (s : State) : State :=
  if s.ringOpen && decide (s.evr.dropsSince > 0) && decide (s.evr.free ≥ 2) then s.overflow else s

/-- The ring's rules for one event already in the log (R365). -/
def State.toRing (s : State) (e : EventRec) : State :=
  if !s.ringOpen || decide (e.sev < s.evr.minSev) then s
  else
    let s := s.overflowIfDue
    if decide (s.evr.free ≥ 2) || (decide (e.sev = 4) && decide (s.evr.free ≥ 1)) then s.ringPut e
    else { s with evr := { s.evr with dropped := sat (s.evr.dropped + 1) 0xFFFFFFFF, dropsSince := s.evr.dropsSince + 1 } }

/-- The flash slot a copy goes to: the invalid one, else the one with the lower SEQ (R490). -/
def State.bbTarget (s : State) : Nat :=
  if !s.flash.bb0.valid then 0
  else if !s.flash.bb1.valid then 1
  else if s.flash.bb0.seq ≤ s.flash.bb1.seq then 0 else 1

/-- Start a flash copy of the black box: its slot is invalid until the header is written (R490). -/
def State.startCopy (s : State) (trigger : Option EventRec) : State :=
  let n := s.bbTarget
  let f := if n = 0 then { s.flash with bb0 := { s.flash.bb0 with valid := false } }
           else { s.flash with bb1 := { s.flash.bb1 with valid := false } }
  { s with flash := f, bb := { s.bb with copying := some (n, trigger, 0), sinceCopy := false } }

/-- Raise an event: SEQUENCE, stamp (now, unless it carries one), black box, ring (R365, R366, R488); a trigger freezes the black box (R490); severities 3
and 4 are forwarded over I3C (R415). -/
def State.raiseRec (s : State) (e : EventRec) (trigger : Bool) : State :=
  let freeze := (trigger || decide (e.sev = 4)) && s.bb.copying.isNone
  let e := { e with ts := if e.ts = 0 then s.now else e.ts, seq := s.eventCount % 65536, frozen := freeze }
  let s := if freeze then s.takeCapture e.part e.tide else s
  let s := { s with eventCount := s.eventCount + 1, bb := s.bb.push e }
  let s := if freeze then s.startCopy (some e) else s
  let s : State := if s.i3cUp && decide (e.sev ≥ 3) then { s with posted := s.posted ++ [Posted.platform e] } else s
  s.toRing e

/-- An event of the device that concerns no tide. -/
def State.raiseDev (s : State) (code sev unit payload : Nat) : State :=
  s.raiseRec { code := code, sev := sev, unit := unit, payload := BitVec.ofNat 64 payload } false

/-- A fold of a state change over a list. -/
def each {α : Type} (l : List α) (f : α → State → State) (s : State) : State := l.foldl (fun st a => f a st) s

/-- Events raised after the last one written to the ring that are still in the log, and how many no longer are (R380). [DEDUCED, log entry 70] -/
def State.heldEvents (s : State) : List EventRec × Nat :=
  let n := s.eventCount - s.evr.lastSeq
  let k := min n s.bb.log.length
  (s.bb.log.drop (s.bb.log.length - k), n - k)

/-- Once the event ring is set up and writes to host memory have resumed, the events held go to it (R380). -/
def State.writeHeldEvents (s : State) : State :=
  if !s.link.eventsHeld || !s.ringOpen then s
  else
    let h := s.heldEvents
    let s : State := { s with link := { s.link with eventsHeld := false }
                              evr := { s.evr with dropsSince := s.evr.dropsSince + h.2 } }
    each h.1 (fun e st => st.toRing e) s.overflowIfDue

/-- Host accesses reach the device. -/
def State.hostReaches (s : State) : Bool := s.link.trained && !s.link.ideFailed && !s.pins.perst

/-- Traffic that a unit in its reset absorbs is counted in that reset: scope and index (R427). -/
def State.noteReset (s : State) (scope ix : Nat) : State :=
  { s with resets := s.resets.map fun r => if r.scope = scope && r.index = ix then { r with absorbed := r.absorbed + 1 } else r }

/-- Rank of coordinates (R348). -/
def Job.rankAt (b : Job) (c : Nat × Nat × Nat) : Nat := c.1 + b.dimI * (c.2.1 + b.dimJ * c.2.2)

/-- This device's rank. -/
def Job.rank (b : Job) : Nat := b.rankAt (b.i, b.j, b.k)

/-- The tide of partition `p` is done on this device and its CONFIRM is awaited (R336, R338). -/
def State.afterDone (s : State) (p : Nat) : Bool :=
  let q := s.part p
  q.inJob && q.st = .closing && (s.job.doneSent || s.job.confirmAt.isSome)

/-- Raise an event; with `late`, a fault's event waits until its tide is known (R338). [DESIGN CHOICE, log entry 163] -/
def State.raiseFault (s : State) (late : Bool) (e : EventRec) : State :=
  if late && decide (e.sev ≥ 3) then { s with bb := { s.bb with waiting := s.bb.waiting ++ [{ e with ts := s.now }] } }
  else s.raiseRec e false

/-- The tide of a fault whose event waited, raised at a time of its own: the next one, from the commit point `c` on, or, where the tide
is abandoned, that one. -/
def lateEvent (c : Option Nat) (e : EventRec) : EventRec :=
  match c with
  | none => e
  | some c => { e with ts := max e.ts c, tide := (e.tide + 1) % 2 ^ 48, replay := false }

/-- The events that waited are raised (R338). -/
def State.releaseFaults (s : State) (c : Option Nat) : State :=
  each s.bb.waiting (fun e st => st.raiseRec (lateEvent c e) false) { s with bb := { s.bb with waiting := [] } }

/-- An event of a partition: it concerns the partition's tide while it runs (R366). -/
def State.raisePart (s : State) (p code sev unit payload : Nat) : State :=
  let q := s.part p
  s.raiseFault (s.afterDone p) { code := code, sev := sev, unit := unit, part := p, payload := BitVec.ofNat 64 payload
                                 noTide := !(running q.st), tide := if running q.st then q.tide else 0
                                 replay := running q.st && q.replaying }

/-- An event about a given tide of a partition (R175, R209, R224). -/
def State.raiseTide (s : State) (p tide : Nat) (replay : Bool) (code sev unit payload : Nat) : State :=
  s.raiseRec { code := code, sev := sev, unit := unit, part := p, payload := BitVec.ofNat 64 payload
               noTide := false, tide := tide, replay := replay } false

/-- An event whose source is a tile. -/
def State.raiseTile (s : State) (t : TileId) (code sev payload : Nat) : State :=
  match s.partOf t with
  | some p => s.raisePart p code sev t payload
  | none => s.raiseDev code sev t payload

/-! Faults against a tide -/

/-- The rank of a kind (R216): stop, program, hardware, stall. -/
def kindRank (k : FaultKind) : Nat :=
  match k with
  | .stop => 0
  | .program => 1
  | .hardware => 2
  | .stall => 3

/-- The cause that stands: the higher kind, the earlier among equals (R216). -/
def worse (a : Option FaultCause) (c : FaultCause) : Option FaultCause :=
  match a with
  | none => some c
  | some b => if kindRank c.kind < kindRank b.kind then some c else some b

/-- The fault's cause with the rank of this device where its partition runs in a job (R224, R333). -/
def State.ranked (s : State) (p : Nat) (c : FaultCause) : FaultCause :=
  { c with rank := if (s.part p).inJob then s.job.rank else c.rank }

/-- Record a fault against the running tide of partition `p` and drive its fault bell (R204, R216). -/
def State.addCause (s : State) (p : Nat) (c : FaultCause) : State :=
  let c := s.ranked p c
  if running (s.part p).st then
    s.modPart p fun q => { q with cause := worse q.cause c, causes := q.causes ++ [c], faultBell := true }
  else s

/-- Faults that name a tile for its site to be disabled (R470). -/
def namesTile (code : Nat) : Bool :=
  [0x0710, 0x0711, 0x0712, 0x0713, 0x0707].contains code

/-- The bundle index a fault of tile `t` names: the bundle in flight, else the one about to issue. -/
def Tile.bundle (x : Tile) : Nat := x.cur.getD x.pc

/-- The tile's partition runs a tide. -/
def State.inTide (s : State) (t : TileId) : Bool :=
  match s.partOf t with
  | some p => running (s.part p).st
  | none => false

/-- A tile fault (R147): only the first of a tide is reported; the tile stops issuing and drives the fault bell. Outside a
running tide the fault is reported and abandons nothing (R475). -/
def State.tileFault (s : State) (t : TileId) (code : Nat) (kind : FaultKind) (payload : Nat) : State :=
  let x := s.tile t
  if x.faulted.isSome then s.setTile t { x with issuing := false, held := [] }
  else
    let rec' : TileFaultRec := { code := code, payload := BitVec.ofNat 64 payload, bundle := x.bundle }
    let s := s.setTile t { x with issuing := false, held := [], bubble := 0, reports := x.reports + 1
                                  faulted := if s.inTide t then some rec' else none }
    let s := s.raiseTile t code 3 payload
    match s.partOf t with
    | some p => s.addCause p { kind := kind, code := code, unit := t }
    | none => s

/-- Payload of a program fault at slot `slot` (R149). -/
def Tile.slotPayload (x : Tile) (slot : Nat) : Nat := slot * 2 ^ 13 + x.bundle

/-- A fault of another unit against partition `p`: its event, and its cause. -/
def State.unitFault (s : State) (p code sev unit payload : Nat) (kind : FaultKind) (act : Nat) : State :=
  (s.raisePart p code sev unit payload).addCause p { kind := kind, code := code, unit := unit, act := act }

/-- `a` put into a sorted list, before the first entry that it need not follow. -/
def insertBy {α : Type} (le : α → α → Bool) (a : α) : List α → List α
  | [] => [a]
  | b :: l => if le a b then a :: b :: l else b :: insertBy le a l

/-- A list in the order of `le`; equals keep their order. -/
def sortBy {α : Type} (l : List α) (le : α → α → Bool) : List α := l.foldr (insertBy le) []

end Sys2Proof.Machine
end

