-- ==== Sys2Proof/Machine/Repair.lean ====
section
/-!
DEFINITION. Tile reset, rebuilding a tile from the retained image, home copies and marks, remapping by row shift, the
repair log, withdrawal of stripes, and observation (spec/17_reliability.md R468 to R475, R483, R486, R487; R252 to R254,
R411, R426).
-/

namespace Sys2Proof.Machine

/-- The neighbour tile of `t` over link `dir` (0 N, 1 E, 2 S, 3 W) within its partition (R137, R178). -/
def State.neighbour (s : State) (t : TileId) (dir : Nat) : Option TileId :=
  let x := tileX t
  let y := tileY t
  let n : Option (Nat × Nat) := match dir with
    | 0 => if y = 0 then none else some (x, y - 1)
    | 1 => some (x + 1, y)
    | 2 => some (x, y + 1)
    | _ => if x = 0 then none else some (x - 1, y)
  match n with
  | none => none
  | some p =>
    if s.onGrid p.1 p.2 && s.partOf t = s.partOf (tileIx p.1 p.2) && (s.partOf t).isSome then some (tileIx p.1 p.2) else none

/-- The link of the far tile that faces link `dir`. -/
def opposite (dir : Nat) : Nat := (dir + 2) % 4

/-- The signal of tile `t` to its neighbours that it absorbs (R174). -/
def State.signalAbsorb (s : State) (t : TileId) : State :=
  each [0, 1, 2, 3] (fun dir st => match st.neighbour t dir with
    | none => st
    | some u => st.modTile u fun x => { x with sigFlying := x.sigFlying ++ [(opposite dir, 2)] }) s

/-- Byte address in `State.hbm` of offset `o` in the stack of memory port `m` (R252). -/
def hbmAddr (m o : Nat) : Nat := m * 2 ^ 36 + o

/-- Byte of a frame of a stack (R252). -/
def frameByte (f o : Nat) : Nat := f * 2 ^ 19 + o

/-- A queue after a tile reset: empty; the tide's counts go on, and the entries it held are among them (R173, R175, R427). -/
def Tile.queueReset (x : Tile) (n : Nat) : Queue :=
  let q := x.queue n
  { absorbed := q.absorbed, ended := q.ended, reset := q.reset, disabled := q.disabled
    lost := q.lost + q.entries.length + (x.ingress.filter fun e => e.1 = n).length
      + (x.hold.flatMap fun h => h.2.filter fun e => e.1 = n).length }

/-- A tile after a tile reset (R426); the tide's counts and those that the firmware keeps stay, and what it has issued travels on
(R427). -/
def tileResetOf (x : Tile) : Tile :=
  { reqSeq := x.reqSeq, issueSeq := x.issueSeq
    queues := (List.range 8).filterMap fun n => if x.queueReset n = {} then none else some (n, x.queueReset n)
    egress := x.egress, out := x.out
    conflicts := x.conflicts, failedAcc := x.failedAcc, failedDesc := x.failedDesc, failedTags := x.failedTags
    inReset := x.inReset, corrWindow := x.corrWindow, corrWin := x.corrWin, eccHigh := x.eccHigh
    eccRetired := x.eccRetired, lineCorr := x.lineCorr, missWin := x.missWin, missed := x.missed
    canaryDueSince := x.canaryDueSince, canaryMissedAt := x.canaryMissedAt, firstMismatch := x.firstMismatch
    faulted := x.faulted }

/-- A tile after a reset of its partition: the tide's counts go too (R426). -/
def tileClear (x : Tile) : Tile :=
  { tileResetOf x with queues := [], conflicts := 0, failedAcc := 0, failedDesc := 0, failedTags := 0, inReset := true }

/-- Reset a tile (R426). -/
def State.resetTile (s : State) (t : TileId) : State := s.modTile t tileResetOf

/-- A unit reset begins: its traffic is absorbed until UNIT_RESET_DONE (R426, R427). -/
def State.beginReset (s : State) (scope ix : Nat) : State :=
  { s with resets := s.resets ++ [{ scope := scope, index := ix }] }

/-- A tile reset with its duration (R426); the neighbours are told that the tile absorbs (R174). -/
def State.startTileReset (s : State) (t : TileId) : State :=
  ((s.modTile t fun x => { tileResetOf x with inReset := true }).beginReset 0 t).signalAbsorb t

/-- The image's content for a tile (R232). -/
def State.imageOf (s : State) (t : TileId) : Option TileImage :=
  match s.partOf t with
  | none => none
  | some p =>
    match (s.part p).image with
    | none => none
    | some b => b.tiles.find? fun i => i.tile = t

/-- Instruction store and configuration from the retained image (R411, R469). -/
def configTile (x : Tile) (i : TileImage) : Tile :=
  { x with code := i.code, entry := i.entry, qctl := i.qctl, bellPorts := i.bellPorts, weights := i.weights, canary := i.canary
           codeFlips := []
           persist := (List.range 4).map fun k => (k, i.persist.getD k 0)
           qcfg := (List.range 8).map fun k => (k, i.qcfg.getD k 0) }

/-- `n` bytes of the home area of physical stripe `sg` from byte `a` on: the copy in stack N, and the copy in stack S where a group
of N is known to have an uncorrectable error (R253). -/
def State.homeBytes (s : State) (p sg a n : Nat) : List Byte :=
  let bad := ((s.part p).hbmRows.filter fun r => r.1 = sg).map fun r => r.2
  if bad.isEmpty then memBytes s.hbm (hbmAddr sg a) n
  else (List.range n).flatMap fun i =>
    memBytes s.hbm (hbmAddr (if bad.contains ((a + i) / 32 * 32) then 8 + sg else sg) (a + i)) 1

/-- Whole words put into the scratchpad from outside its ports, by a reload or a restore: fresh check bits (R160, R161). -/
def Tile.storeBytes (x : Tile) (a : Nat) (b : List Byte) : Tile :=
  { x with
    mem := memPut x.mem a b
    flips := x.flips.filter fun f => decide (4 * f.1 + 4 ≤ a) || decide (a + b.length ≤ 4 * f.1)
    corrList := x.corrList.map fun e => (e.1, e.2.map fun l =>
      if 16 * l.1 < a + b.length && a < 16 * l.1 + 16 then (l.1, true) else l) }

/-- Copy the weight ranges of a tile from its home copy (R253); zeros while the weights are not loaded. -/
def State.loadWeights (s : State) (t : TileId) : State :=
  let bytes := fun (w : WeightRange) => match s.partOf t with
    | some p => if (s.part p).weightsLoaded then s.homeBytes p (tileStripe t + s.sigma0) w.home (4 * w.words)
        else List.replicate (4 * w.words) 0
    | none => List.replicate (4 * w.words) 0
  s.modTile t fun x => x.weights.foldl (fun y w => y.storeBytes (4 * w.word) (bytes w)) x

/-- EN, START_LINE and LINE_COUNT of a PERSIST word (R226). -/
def persistEn (w : Word) : Bool := bit w.toNat 31
/-- First line of a persistent range. -/
def persistStart (w : Word) : Nat := bits w.toNat 27 14
/-- Lines of a persistent range. -/
def persistLines (w : Word) : Nat := bits w.toNat 10 0

/-- Declared ranges of a tile in ascending PERSIST index: first byte and length. -/
def Tile.persistRanges (x : Tile) : List (Nat × Nat) :=
  ((List.range 4).map fun k => tget 0 x.persist k).filterMap fun w =>
    if persistEn w then some (16 * persistStart w, 16 * persistLines w) else none

/-- Address in `State.hbm` of a tile's mark in slot `n` (R254). -/
def State.markAddr (s : State) (t : TileId) (n : Nat) : Nat :=
  let sg := tileStripe t + s.sigma0
  hbmAddr (if tileY t < 144 then sg else 8 + sg)
    (160 * n * 2 ^ 19 + ((tileY t % 144) * 35 + tileX t % 35) * 16384)

/-- Bytes `off` to `off` + 31 of a stack lie in the mark of a tile in slot `n` (R254): `port` serves the stack.
[DEDUCED, log entry 47] -/
def State.markHolds (s : State) (port n off : Nat) : Bool :=
  let rel := off - 160 * n * 2 ^ 19
  let k := rel / 16384
  let sg := port % 8
  decide (160 * n * 2 ^ 19 ≤ off) && decide (k < 5040) && decide (s.sigma0 ≤ sg)
    && decide (rel % 16384 < ((s.tile (tileIx (35 * (sg - s.sigma0) + k % 35) (k / 35 + 144 * (port / 8)))).persistRanges.foldl
      (fun m w => m + w.2) 0))

/-- Restore a tile's declared ranges from the current mark, or zeros when there is none (R220, R411). -/
def State.restoreMark (s : State) (t : TileId) : State :=
  let slot := match s.partOf t with
    | some p => (s.part p).markSlot
    | none => none
  s.modTile t fun x => (x.persistRanges.foldl (fun (acc : Tile × Nat) w =>
    (acc.1.storeBytes w.1 (match slot with
      | some n => memBytes s.hbm (s.markAddr t n + acc.2) w.2
      | none => List.replicate w.2 0), acc.2 + w.2)) (x, 0)).1

/-- Restore a tile: instruction store and configuration, weight ranges, persistent ranges (R411). [DEDUCED, log entry 45] -/
def State.restoreTile (s : State) (t : TileId) : State :=
  match s.imageOf t with
  | none => s
  | some i => ((s.modTile t fun x => configTile x i).loadWeights t).restoreMark t

/-- BELL_CHAN word `h` of cluster `c` in an image. -/
def bodyChan (b : ProgramBody) (c h : Nat) : Word := tget 0 b.bells (c * 16 + h)

/-- The bell channels of a cluster from its partition's image (R201, R232). -/
def State.restoreBells (s : State) (c : Nat) : State :=
  if c / 36 < s.sigma0 then s
  else
    match (s.partOfStripe (c / 36 - s.sigma0)).bind fun p => (s.part p).image with
    | none => s
    | some b => s.modCluster c fun k => { k with bellChan := (List.range 16).map fun h => (h, bodyChan b c h) }

/-- Rebuild a tile at its site: tile reset, then restore (R469). -/
def State.rebuildTile (s : State) (t : TileId) : State := (s.startTileReset t).restoreTile t

/-- Ones among the 72 bits of a stored half bundle (R116). -/
def popcount72 (m : Nat) : Nat := ((List.range 72).filter fun i => bit m i).length

/-- A copy read of a shifted tile finds a double-bit error (R469). What one of three or more bits gives is not stated. [DESIGN CHOICE, log entry 10] -/
def copyBad (c : Nat) (x : Tile) : Bool :=
  let bad := fun (k n : Nat) => decide (n = 2) || (decide (n ≥ 3) && Config.freeBit (c + k % 3664))
  x.flips.any (fun e => bad e.1 (popcount39 e.2)) || x.codeFlips.any fun e => bad e.1 (popcount72 e.2)

/-- A shifted tile (R469): scratchpad, instruction store and configuration are copied; registers, accumulators and window
rows are not kept, so they hold free values; queues are empty. [DESIGN CHOICE, log entry 9] -/
def shiftedTile (c : Nat) (x : Tile) : Tile :=
  { x with
    sregs := (List.range 32).map fun r => (r, Config.freeWord (c + r))
    preds := BitVec.ofNat 8 (Config.freeWord (c + 32)).toNat
    vregs := (List.range 32).map fun r => (r, (List.range 32).map fun l => Config.freeWord (c + 64 + 32 * r + l))
    acc := (List.range 2048).map fun e => (e, { sum := Config.freeWord (c + 1088 + e) })
    win := (List.range 16).map fun w => (w, WinRow.mk
      ((List.range 32).map fun l => BitVec.ofNat 16 (Config.freeWord (c + 3136 + 32 * w + l)).toNat)
      (BitVec.ofNat 8 (Config.freeWord (c + 3648 + w)).toNat))
    pend := [], run := none, pendRun := none, tails := [], wShadow := [], wActive := [], held := [], heldFor := 0, loops := [], queues := [], egress := []
    ingress := [], hold := [], out := [], issuing := false
    tags := [], qFlips := [], corrList := []
    flips := x.flips.filter fun e => decide (popcount39 e.2 ≥ 3)
    codeFlips := x.codeFlips.filter fun e => decide (popcount72 e.2 ≥ 3) }

/-- Free values one shifted tile uses. -/
def shiftedUses : Nat := 3664

/-- The repair log in use: the valid copy with the higher SEQ (R436, R486). -/
def Flash.log (f : Flash) : RepairLog :=
  if !f.log0.valid then f.log1 else if !f.log1.valid || decide (f.log1.seq ≤ f.log0.seq) then f.log0 else f.log1

/-- A copy is valid (R436). -/
def Flash.logValid (f : Flash) : Bool := f.log.valid

/-- The repair records; none where neither copy is valid (R436). -/
def Flash.repairs (f : Flash) : List RepairRec := if f.logValid then f.log.repairs else []

/-- The retired-frame records. -/
def Flash.retired (f : Flash) : List RetiredRec := if f.logValid then f.log.retired else []

/-- An update writes the whole log into an invalid copy, else into the one with the lower SEQ, one above the other's (R486). -/
def Flash.writeLog (f : Flash) (repairs : List RepairRec) (retired : List RetiredRec) : Flash :=
  let l := fun (o : RepairLog) => ({ valid := true, seq := o.seq + 1, repairs := repairs, retired := retired } : RepairLog)
  if !f.log0.valid || (f.log1.valid && decide (f.log0.seq < f.log1.seq)) then { f with log0 := l f.log1 }
  else { f with log1 := l f.log0 }

/-- Reserved repair-log records still needed: types 1 and 2 (R486). -/
def Flash.reserve (f : Flash) : Nat := 4616 - (f.repairs.filter fun r => r.type = 1 ∨ r.type = 2).length

/-- Log a repair record (R486, R487): a record that would take reserved space is not logged and REPAIR_LOG_FULL is raised. -/
def State.logRepair (s : State) (type source cause object tide : Nat) : State :=
  let r : RepairRec := { type := type, source := source, cause := cause, object := object, ts := s.now,
                         boot := s.flash.bootCount, tide := tide }
  let room := 24000 - s.flash.repairs.length
  if (type = 1 ∨ type = 2) ∧ room > 0 ∨ room > s.flash.reserve then
    { s with flash := s.flash.writeLog (s.flash.repairs ++ [r]) s.flash.retired }
  else s.raiseDev 0x070E 2 mgmtUnit type

/-- Retire a frame in the log (R259, R487). -/
def State.logRetired (s : State) (tier cause frame : Nat) : State :=
  let r : RetiredRec := { tier := tier, cause := cause, frame := frame, ts := s.now }
  { s with flash := s.flash.writeLog s.flash.repairs (s.flash.retired ++ [r]), retired := s.retired ++ [tier * 2 ^ 30 + frame] }

/-- Withdraw physical stripe `sg` (R24, R472). -/
def State.withdraw (s : State) (sg source cause tide : Nat) : State :=
  if s.withdrawn.getLsbD sg then s
  else ({ s with withdrawn := s.withdrawn ||| BitVec.ofNat 8 (2 ^ sg) }).logRepair 2 source cause sg tide

/-- Key of a site in the observation table. -/
def siteKey (px py : Nat) : Nat := py * 296 + px

/-- End observation of a site, if it is observed (R483). -/
def State.endObserve (s : State) (px py : Nat) (t : TileId) : State :=
  match s.observed.find? fun o => o.1 = siteKey px py with
  | none => s
  | some o => ({ s with observed := tdel s.observed (siteKey px py) }).raiseTile t 0x0703 1
      (o.2.cause * 2 ^ 60 + sat o.2.tides 0xFFFFFFFF)

/-- Place the site of a tile under observation (R483): a site already observed restarts only by command. -/
def State.beginObserve (s : State) (t : TileId) (cause : Nat) (restart : Bool) : State :=
  let site := s.siteOf t
  if (s.observed.any fun o => o.1 = siteKey site.1 site.2) && !restart then s
  else ({ s with observed := tset s.observed (siteKey site.1 site.2) { tides := 0, cause := cause } }).raiseTile t 0x0703 1
      (2 ^ 63 + cause * 2 ^ 60)

/-- TILE_OBSERVE acts (R483). -/
def State.setObserve (s : State) (t : TileId) (on : Bool) : State :=
  let site := s.siteOf t
  if on then s.beginObserve t 2 true else s.endObserve site.1 site.2 t

/-- What CANARY_CONFIG and TILE_OBSERVE set in partition `p` takes effect (R396). -/
def State.settleCanary (s : State) (p : Nat) : State :=
  let q := s.part p
  let s := s.modPart p fun y =>
    let y : Partition := match y.canaryNext with
      | none => y
      | some c => { y with canaryEn := c.1, canaryInterval := c.2.1, observeTides := c.2.2 }
    { y with canaryNext := none, observeNext := [] }
  each q.observeNext (fun e st => st.setObserve e.1 e.2) s

/-- The site of a tile is under observation. -/
def State.isObserved (s : State) (t : TileId) : Bool :=
  let site := s.siteOf t
  s.observed.any fun o => o.1 = siteKey site.1 site.2

/-- A segment has room for one more disabled site (R20). -/
def State.segHasRoom (s : State) (px py : Nat) : Bool := decide ((s.segDisabled (px / 37) py).length < 2)

/-- Disable the site (px, py) as a field repair and move the tiles of its segment (R468, R469); TILE_REMAPPED (R493). -/
def State.disableSite (s : State) (px py source cause tide : Nat) : State :=
  if s.disabled.contains (px, py) then s
  else
    let gone := s.tileAt px py
    let sg := px / 37
    let tiles := if sg < s.sigma0 then [] else (List.range 35).map fun k => tileIx (35 * (sg - s.sigma0) + k) py
    let shifted := tiles.filter fun t =>
      s.siteOf t ≠ ({ s with disabled := s.disabled ++ [(px, py)] }).siteOf t ∧ gone ≠ some t
    let s := match gone with
      | some t => s.endObserve px py t
      | none => s
    let s := each shifted (fun t st => st.endObserve (st.siteOf t).1 (st.siteOf t).2 t) s
    let s := { s with disabled := s.disabled ++ [(px, py)] }
    let again := shifted.filter fun t => copyBad s.freeCtr (s.tile t)
    let s := each shifted (fun t st => (st.modTile t (shiftedTile st.freeCtr)).used shiftedUses) s
    let s := each again (fun t st => st.rebuildTile t) s
    let s := match gone with
      | some t => s.rebuildTile t
      | none => s
    let s := s.logRepair 1 source cause (py * 65536 + px) tide
    s.raiseDev 0x0704 2 (unitId 1 (sg * 36 + py / 8))
      (px * 2 ^ 48 + py * 2 ^ 32 + (gone.getD 0x1FFFF) * 2 ^ 15 + shifted.length * 2 ^ 8
        + (match source with
           | 1 => 0
           | 2 => 1
           | 3 => 2
           | _ => 3) * 2 ^ 4 + (s.segDisabled sg py).length)

/-- SEGMENT_EXHAUSTED and the withdrawal of its stripe (R472). -/
def State.exhaust (s : State) (part : Option Nat) (px py source cause tide : Nat) : State :=
  let pay := px * 2 ^ 48 + py * 2 ^ 32
  let s := match part with
    | some p => s.raisePart p 0x0705 3 (unitId 2 (px / 37)) pay
    | none => s.raiseDev 0x0705 3 (unitId 2 (px / 37)) pay
  s.withdraw (px / 37) source cause tide

/-- A fault that names a tile, outside a running tide: the firmware remaps the tile at once as TILE_REPAIR does, or
leaves it where its segment has no spare left (R411, R475). -/
def State.remapNow (s : State) (t : TileId) (cause : Nat) : State :=
  let site := s.siteOf t
  if s.segHasRoom site.1 site.2 then s.disableSite site.1 site.2 4 cause 0 else s

/-- A hardware fault that names its tile (R470): within a tide it abandons the tide and the recovery remaps the tile;
outside one the tile is remapped at once (R475). -/
def State.hwFault (s : State) (t : TileId) (code payload : Nat) : State :=
  let first := (s.tile t).faulted.isNone
  let inTide := s.inTide t
  let s := s.tileFault t code .hardware payload
  if !first then s
  else if inTide then
    match s.partOf t with
    | some p => s.modPart p fun q => { q with named := q.named ++ [(t, code)] }
    | none => s
  else s.remapNow t code

/-- ECC_TILE_RETIRE (R475): raised by the firmware with the tile as source; it names the tile. -/
def State.retireFault (s : State) (t : TileId) (payload : Nat) : State :=
  let inTide := s.inTide t
  let s := s.raiseTile t 0x0707 3 payload
  if inTide then
    match s.partOf t with
    | some p => (s.addCause p { kind := .hardware, code := 0x0707, unit := t }).modPart p fun q =>
        { q with named := q.named ++ [(t, 0x0707)] }
    | none => s
  else s.remapNow t 0x0707

/-! Corrected-error counts (R473 to R475) -/

/-- The counts of a tile rolled to the current window. -/
def Tile.rolled (x : Tile) (win : Nat) : Tile :=
  if x.corrWin = win then x
  else { x with corrWin := win, corrWindow := 0, lineCorr := [], eccHigh := false, eccRetired := false }

/-- Count one corrected error of tile `t`; `line` names the scratchpad line, or 16,384 plus the pool line (R474). The
event gives no bank and row of a pool line: they are a free value. [DESIGN CHOICE, log entry 17] -/
def State.countCorrection (s : State) (t : TileId) (line : Option Nat) : State :=
  let x := (s.tile t).rolled (s.now / hourNs)
  let n := x.corrWindow + 1
  let k := match line with
    | some l => tget 0 x.lineCorr l + 1
    | none => 0
  let x := { x with corrWindow := n, corrected := x.corrected + 1
                    lineCorr := match line with
                      | some l => tset x.lineCorr l k
                      | none => x.lineCorr }
  let s := s.setTile t x
  let s := if n = 64 && !x.eccHigh then
      ((s.modTile t fun y => { y with eccHigh := true }).raiseTile t 0x0706 1 n).beginObserve t 1 false
    else s
  if (k ≥ 3 || n ≥ 1024) && !x.eccRetired then
    let l := line.getD 0
    let loc := if l < 16384 then bankOfLine l * 2 ^ 10 + l / 16 else bits (Config.freeWord s.freeCtr).toNat 13 0
    ((s.modTile t fun y => { y with eccRetired := true }).used 1).retireFault t
      (if k ≥ 3 then loc * 2 ^ 46 + sat n 0xFFFFFFFF else 2 ^ 60 + sat n 0xFFFFFFFF)
  else s

end Sys2Proof.Machine
end

