-- ==== Sys2Proof/Machine/Operands.lean ====
section
/-!
DEFINITION. How tile operations read and write: registers and predicates with the latency windows of R114 and the landing
order of R115, scratchpad words with their error correction (R158 to R160) and bank conflicts (R153, R154), and the gate
every tile operation passes before it issues (R113, R147).
-/

namespace Sys2Proof.Machine

/-! Registers -/

/-- The argument of the free choice for pending write `j`, read by operand `n` of slot `slot` of tile `t` (R114). -/
def State.freeKey (s : State) (t : TileId) (slot n j : Nat) : Nat :=
  (((s.freeCtr * 2 ^ 17 + t) * 8 + slot) * 8 + n) * 2 ^ 12 + j

/-- The value a read finds: the landed value, then, for each pending write to the register issued in an earlier cycle,
the old value or the new one, which is not fixed (R114). Writes issued in the same cycle are not seen. -/
def seen {α : Type} (ecc key : Nat) (upd : PendWrite → α → Option α) : Nat → List PendWrite → α → α
  | _, [], v => v
  | j, w :: r, v =>
    match upd w v with
    | some u => seen ecc key upd (j + 1) r (if w.issued < ecc && Config.freeBit (key + j) then u else v)
    | none => seen ecc key upd (j + 1) r v

/-- Scalar register `r` as operand `n` of slot `slot` reads it (R117): s0 reads 0. [DESIGN CHOICE, log entry 6] -/
def State.rs (s : State) (t : TileId) (slot n : Nat) (r : Nat) : Word :=
  let x := s.tile t
  if r = 0 then 0
  else seen x.ecc (s.freeKey t slot n 0) (fun w _ => match w.dest with
    | .s k v => if k = r then some v else none
    | _ => none) 0 x.pend (tget 0 x.sregs r)

/-- Predicate `p` as an operand: p0 reads 1 (R117). -/
def State.rp (s : State) (t : TileId) (slot n : Nat) (p : Nat) : Bool :=
  let x := s.tile t
  if p = 0 then true
  else seen x.ecc (s.freeKey t slot n 0) (fun w _ => match w.dest with
    | .p k v => if k = p then some v else none
    | _ => none) 0 x.pend (x.preds.getLsbD p)

/-- Lanes of a stored vector register: 32 words. -/
def lanesOf (l : List Word) : List Word := (List.range 32).map fun i => l.getD i 0

/-- Some lanes of a register replaced. -/
def putLanes (l : List Word) (ch : List (Nat × Word)) : List Word :=
  (List.range 32).map fun i => (ch.lookup i).getD (l.getD i 0)

/-- Vector register `r` as an operand. -/
def State.rv (s : State) (t : TileId) (slot n : Nat) (r : Nat) : List Word :=
  let x := s.tile t
  seen x.ecc (s.freeKey t slot n 0) (fun w v => match w.dest with
    | .v k ch => if k = r then some (putLanes v ch) else none
    | _ => none) 0 x.pend (lanesOf (tget [] x.vregs r))

/-- A write that lands at the end of the cycle `lat - 1` after this one (R114). -/
def Tile.later (x : Tile) (slot lat : Nat) (d : Dest) : Tile :=
  { x with pend := x.pend ++ [{ dest := d, land := x.ecc + lat - 1, issued := x.ecc, slot := slot }] }

/-- Write of a scalar register: writes to s0 are discarded (R117). -/
def Tile.wS (x : Tile) (slot lat r : Nat) (v : Word) : Tile := if r = 0 then x else x.later slot lat (.s r v)

/-- Write of a predicate: writes to p0 are discarded (R117). -/
def Tile.wP (x : Tile) (slot lat p : Nat) (b : Bool) : Tile := if p = 0 then x else x.later slot lat (.p p b)

/-- Write of a whole vector register. -/
def Tile.wV (x : Tile) (slot lat r : Nat) (l : List Word) : Tile :=
  x.later slot lat (.v r ((List.range 32).map fun i => (i, l.getD i 0)))

/-- Two destinations are one register or word. -/
def sameDest (a b : Dest) : Bool :=
  match a, b with
  | .s i _, .s j _ => i = j
  | .v i _, .v j _ => i = j
  | .p i _, .p j _ => i = j
  | .mem i _, .mem j _ => i = j
  | .acc i _, .acc j _ => i = j
  | .win i _, .win j _ => i = j
  | _, _ => false

/-- Of writes landing together, the first slot prevails, and within a slot the later issue (R115); the others are lost. -/
def survivors : List PendWrite → List PendWrite
  | [] => []
  | w :: r =>
    if r.any fun u => sameDest w.dest u.dest && decide (u.slot ≤ w.slot) then survivors r
    else w :: (survivors r).filter fun u => !(sameDest w.dest u.dest && decide (w.slot < u.slot))

/-- A running sum with a block result added (R51, R52): none where only ZERO takes effect. -/
def joinSum (int : Bool) (sum : Word) (r : Option Word) : Word :=
  match r with
  | none => sum
  | some v => if int then BitVec.ofInt 32 (max (-2147483648) (min 2147483647 (sum.toInt + v.toInt))) else fadd sum v

/-- A line that waits for its write-back has been written since (R161). -/
def Tile.lineWritten (x : Tile) (line : Nat) : Tile :=
  let b := bankOfLine line
  let l := tget ([] : List (Nat × Bool)) x.corrList b
  if l.any fun e => e.1 = line then
    { x with corrList := tset x.corrList b (l.map fun e => if e.1 = line then (line, true) else e) }
  else x

/-- One landed write. -/
def Tile.apply (x : Tile) (w : PendWrite) : Tile :=
  match w.dest with
  | .s r v => { x with sregs := tset x.sregs r v }
  | .p p b => { x with preds := if b then x.preds ||| BitVec.ofNat 8 (2 ^ p)
                                else x.preds &&& ~~~(BitVec.ofNat 8 (2 ^ p)) }
  | .v r ch => { x with vregs := tset x.vregs r (putLanes (lanesOf (tget [] x.vregs r)) ch) }
  | .mem a v => ({ x with mem := putWord x.mem a v, flips := tdel x.flips a } : Tile).lineWritten (a / 4)
  | .acc k v => { x with acc := tset x.acc k { tget {} x.acc k with sum := v } }
  | .sum k r int zero =>
    let e := tget ({} : AccEntry) x.acc k
    { x with acc := tset x.acc k { e with sum := joinSum int (if zero then 0 else e.sum) r } }
  | .win k w => { x with win := tset x.win k w }

/-- The end of an enabled cycle: every write due lands (R114, R115), and the cycle's bank lines are free again. -/
def Tile.landAll (x : Tile) : Tile :=
  let due := x.pend.filter fun w => decide (w.land ≤ x.ecc)
  let y := (survivors due).foldl Tile.apply { x with pend := x.pend.filter fun w => decide (x.ecc < w.land) }
  { y with ecc := y.ecc + 1, lines := [], low := [], mvIssued := false, conflicted := false, fresh := [], linkUse := [] }

/-! Scratchpad -/

/-- The scratchpad as requesters other than SLD and VLD see it: stores issued in earlier cycles are in (R156). -/
def Tile.memNow (x : Tile) : List Host.Cell :=
  x.pend.foldl (fun m w => match w.dest with
    | .mem a v => if w.issued < x.ecc then putWord m a v else m
    | _ => m) x.mem

/-- The flipped bits of a word as such requesters see it: a store on its way has fresh check bits (R160). -/
def Tile.flipsNow (x : Tile) (w : Nat) : Nat :=
  if x.pend.any fun p => match p.dest with
    | .mem a _ => decide (a = w) && decide (p.issued < x.ecc)
    | _ => false
  then 0 else tget 0 x.flips w

/-- A word and its flipped bits as such requesters read it. -/
def Tile.readNow (x : Tile) (w : Nat) : Word × Nat := (wordAt x.memNow w, x.flipsNow w)

/-- Place a corrected line in the scrubber's list and count the correction (R159). A read that corrects several words of a
line whose bank's list is full counts each of them. [DEDUCED, log entry 50] -/
def State.noteCorrection (s : State) (t : TileId) (line : Nat) : State :=
  let x := s.tile t
  let b := bankOfLine line
  let l := tget ([] : List (Nat × Bool)) x.corrList b
  if l.any fun e => e.1 = line then s
  else
    let s := if l.length < 4 then s.setTile t { x with corrList := tset x.corrList b (l ++ [(line, false)]) } else s
    s.countCorrection t (some line)

/-- What a read of word `w` finds when it is stored with flipped bits `m` (R158 to R160): the value returned, whether the read
is an uncorrectable error, and the state with the correction counted. Three or more flipped bits are not defined. -/
def State.checkWord (s : State) (t : TileId) (w : Nat) (v : Word) (m : Nat) : State × Word × Bool :=
  if m = 0 then (s, v, false)
  else if popcount39 m = 1 then (s.noteCorrection t (w / 4), v, false)
  else if popcount39 m = 2 then (s, v, true)
  else
    match Config.freeEcc s.freeCtr % 3 with
    | 0 => (s.used 1, v, true)
    | 1 => ((s.used 1).noteCorrection t (w / 4), Config.freeWord s.freeCtr, false)
    | _ => (s.used 1, v ^^^ BitVec.ofNat 32 m, false)

/-- Read words of a tile's scratchpad, checked; the first word found uncorrectable is named. `get` reads a word and its flipped bits. -/
def State.readWords (s : State) (t : TileId) (get : Nat → Word × Nat) : List Nat → State × List Word × Option Nat
  | [] => (s, [], none)
  | w :: r =>
    let (s1, v, bad) := s.checkWord t w (get w).1 (get w).2
    let (s2, vs, e) := s1.readWords t get r
    (s2, v :: vs, if bad then some w else e)

/-- Payload of a memory error (R162). -/
def eccPayload (remote req w : Nat) : Nat :=
  remote * 2 ^ 32 + req * 2 ^ 28 + bankOfLine (w / 4) * 2 ^ 24 + w

/-- SP_UNCORRECTABLE at tile `t` (R160, R162). -/
def State.spFault (s : State) (t : TileId) (remote req w : Nat) : State := s.hwFault t 0x0711 (eccPayload remote req w)

/-- The stores of earlier cycles made: their words have fresh check bits, and their lines have been written (R156, R160, R161). -/
def Tile.storesIn (x : Tile) : Tile :=
  let made := x.pend.filterMap fun p => match p.dest with
    | .mem a _ => if p.issued < x.ecc then some a else none
    | _ => none
  made.foldl (fun y a => ({ y with flips := tdel y.flips a } : Tile).lineWritten (a / 4))
    { x with
      mem := x.memNow
      pend := x.pend.filter fun p => match p.dest with
        | .mem _ _ => !(decide (p.issued < x.ecc))
        | _ => true }

/-- A full-word write by a requester outside the bundle: fresh check bits, and it follows stores of earlier cycles. -/
def Tile.writeWord (x : Tile) (w : Nat) (v : Word) : Tile :=
  let x := x.storesIn
  ({ x with mem := putWord x.mem w v, flips := tdel x.flips w } : Tile).lineWritten (w / 4)

/-- Whether line `l` is lost to a requester already served this cycle by the same bank (R154). -/
def Tile.lost (x : Tile) (l : Nat) : Bool := x.lines.any fun p => p.1 = bankOfLine l && p.2 ≠ l

/-- Take lines for rows 1 to 3 of R153; a cycle with a lost line is counted once (R154). -/
def Tile.take (x : Tile) (ls : List Nat) : Tile :=
  let bad := ls.any fun l => x.lost l
  { x with
    lines := x.lines ++ (ls.filter fun l => !(x.lost l)).map fun l => (bankOfLine l, l)
    conflicts := x.conflicts + b01 (bad && !x.conflicted)
    conflicted := x.conflicted || bad }

/-- The lines of a run of words, each once. -/
def linesOf (ws : List Nat) : List Nat := (ws.map (· / 4)).eraseDups

/-- A word as SLD or VLD reads it: a store issued in the cycle before reads old or new (R138). -/
def State.memSeen (s : State) (t : TileId) (slot : Nat) (w : Nat) : Word :=
  let x := s.tile t
  seen x.ecc (s.freeKey t slot 7 0) (fun p _ => match p.dest with
    | .mem a v => if a = w then some v else none
    | _ => none) 0 x.pend (wordAt x.mem w)

/-- The flipped bits of a word as SLD or VLD reads it: none in the new value of a store of the cycle before. -/
def State.flipsSeen (s : State) (t : TileId) (slot : Nat) (w : Nat) : Nat :=
  let x := s.tile t
  seen x.ecc (s.freeKey t slot 7 0) (fun p _ => match p.dest with
    | .mem a _ => if a = w then some 0 else none
    | _ => none) 0 x.pend (tget 0 x.flips w)

/-- A read of words in rows 1 to 3 of R153: lost lines read 0 and are not checked (R154); on an uncorrectable error the read
takes no effect and the tile faults (R147). Answers the words, or none on a fault. -/
def State.lineRead (s : State) (t : TileId) (req : Nat) (get : Nat → Word × Nat) (ws : List Nat) : State × Option (List Word) :=
  let x := s.tile t
  let lost := (linesOf ws).filter fun l => x.lost l
  let s1 := s.setTile t (x.take (linesOf ws))
  let ok := ws.filter fun w => !(lost.contains (w / 4))
  let (s2, vs, bad) := s1.readWords t get ok
  match bad with
  | some w => (s2.spFault t 0 req w, none)
  | none => (s2, some (ws.map fun w => (((ok.zip vs).lookup w).getD 0)))

/-- A program read of words by slot `slot` (R138, R154). -/
def State.progRead (s : State) (t : TileId) (slot req : Nat) (ws : List Nat) : State × Option (List Word) :=
  s.lineRead t req (fun w => (s.memSeen t slot w, s.flipsSeen t slot w)) ws

/-- A program write of words by slot `slot`: words in a lost line are not written (R154); visible at latency 2 (R138). -/
def State.progWrite (s : State) (t : TileId) (slot : Nat) (ws : List (Nat × Word)) : State :=
  let x := s.tile t
  let ok := ws.filter fun w => !(x.lost (w.1 / 4))
  s.setTile t (ok.foldl (fun y w => y.later slot 2 (.mem w.1 w.2)) (x.take (linesOf (ws.map (·.1)))))

/-! Issue -/

/-- Cadence `k` of 8 lets the tiles of a cluster run in tile cycle `c` (R88, R460). -/
def cadenceOn (k c : Nat) : Bool :=
  match k with
  | 6 => !(c % 8 = 3 || c % 8 = 7)
  | 4 => c % 2 = 0
  | _ => true

/-- The tile acts in this tile cycle: it is not down, and its cluster's cadence lets it run (R88, R89). -/
def State.acts (s : State) (t : TileId) : Bool := !(s.down t) && cadenceOn (s.cluster (s.clusterOf t)).cadence s.cc

/-- The tile issues operations: it acts, is in a tide and not ended, faulted or held; or its bundle is issuing now. -/
def State.canIssue (s : State) (t : TileId) : Bool :=
  let x := s.tile t
  s.acts t && (x.cur.isSome || (x.issuing && x.held.isEmpty))

/-- One operation of slot `slot`: nothing where the tile does not issue; a failed check of the first stage faults with its
code (R147); otherwise `k` is its effect. [DESIGN CHOICE, log entry 4] -/
def tileOp (t : TileId) (slot : Nat) (check : State → Option Nat) (k : State → State) (s : State) : Res :=
  if s.canIssue t then
    match check s with
    | some code => .next (s.tileFault t code .program ((s.tile t).slotPayload slot))
    | none => .next (k s)
  else .next s

/-- BAD_BUNDLE for non-zero unused bits (R113). -/
def unused (n : Nat) : State → Option Nat := fun _ => if n = 0 then none else some 0x0220

/-- BAD_BUNDLE when `b` fails. -/
def mustHold (b : Bool) (n : Nat) : State → Option Nat := fun _ => if b && n = 0 then none else some 0x0220

end Sys2Proof.Machine
end

