-- ==== Sys2Proof/Machine/Mesh.lean ====
section
/-!
DEFINITION. The routed mesh (spec/07_mesh_bells.md R182 to R190, R196, R206 to R209): routes, injection, one flit passing a
router's output, breakwater drops, the edge channel, and delivery. A delivered packet waits in `State.arrived` for the
command of its destination.
-/

namespace Sys2Proof.Machine

/-- The router of a site (R182). -/
def routerOfSite (site : Nat × Nat) : Nat × Nat := (site.1 / 2, site.2 / 2)

/-- The router of a tile's site. -/
def State.routerOf (s : State) (t : TileId) : Nat × Nat := routerOfSite (s.siteOf t)

/-- Key of a router in the table. -/
def routerKey (rx ry : Nat) : Nat := ry * 148 + rx

/-- attach_column (R186): physical stripe and the tile's router column. -/
def attachColumn (sg rx : Nat) : Nat :=
  let c := (37 * sg + 1) / 2
  if rx + 1 < c ∨ rx > c + 18 then c + rx % 18
  else if rx < c then c
  else if rx > c + 17 then c + 17
  else rx

/-- The router column on which a unit of the edge strips lies (R15). -/
def unitColumn (u : EdgeUnit) : Nat :=
  match u with
  | .collEast => 147
  | .hikolink q => if q < 3 then 0 else 147
  | _ => 0

/-- The router of a cluster's vertical access point (R197): cluster `c` is C(c / 36, c % 36). -/
def accessRouter (c : Nat) : Nat × Nat := ((37 * (c / 36) + 1) / 2 + 9, 4 * (c % 36) + 1)

/-- The router where the packets of the tile at router (_, ry) attach to a unit of the edge strips (R186). -/
def unitRouter (u : EdgeUnit) (ry : Nat) : Nat × Nat :=
  match u with
  | .hikolink q => (unitColumn u, 48 * (q % 3) + ry % 48)
  | _ => (unitColumn u, ry)

/-- The router where a tile's packets for memory port `m` attach (R186). -/
def State.portRouter (s : State) (t : TileId) (m : Nat) : Nat × Nat :=
  (attachColumn (m % 8) (s.routerOf t).1, if m < 8 then 0 else 143)

/-- Flits of a packet with n data bytes (R183). -/
def flitsOf (n : Nat) : Nat := 1 + (n - 32 + 63) / 64

/-- Ports of a router: 0 N, 1 E, 2 S, 3 W, 4 local, 5 outer, 6 access. -/
def exitCode (e : ExitPort) : Nat :=
  match e with
  | .localSite => 4
  | .outer => 5
  | .access => 6

/-- The output a packet takes at router (rx, ry) (R185). -/
def routeOut (p : Packet) (rx ry : Nat) : Nat :=
  let xStep := if p.dstRx > rx then 1 else 3
  let yStep := if p.dstRy > ry then 2 else 0
  if rx = p.dstRx ∧ ry = p.dstRy then exitCode p.exit
  else if p.yFirst then (if ry ≠ p.dstRy then yStep else xStep)
  else (if rx ≠ p.dstRx then xStep else yStep)

/-- Physical stripe `sg` is enabled (R3). -/
def State.stripeOn (s : State) (sg : Nat) : Bool := decide (s.sigma0 ≤ sg) && decide (sg < s.sigma0 + s.stripes)

/-- The partition of physical stripe `sg`. -/
def State.partOfPhys (s : State) (sg : Nat) : Option Nat := if sg < s.sigma0 then none else s.partOfStripe (sg - s.sigma0)

/-- A breakwater falls on router column `rx` (R205, R206): its two stripes are enabled and in different partitions, or one in none. -/
def State.shared (s : State) (rx : Nat) : Bool :=
  let w := 2 * rx / 37
  decide (rx % 37 = 18) && s.stripeOn w && s.stripeOn (w + 1) && s.partOfPhys w ≠ s.partOfPhys (w + 1)

/-- The tile whose partition a packet belongs to: a unit's packets carry the tile at their other end. -/
def pktOwner (p : Packet) : TileId :=
  if p.unit ≠ .none then (if p.exit = .localSite then p.dst else p.src)
  else match p.kind with
    | .readResp => p.dst
    | .writeDone => p.dst
    | _ => p.src

/-- The half of a shared router a packet uses, 0 the western (R206). -/
def State.half (s : State) (rx : Nat) (p : Packet) : Nat :=
  b01 (s.shared rx && s.partOf (pktOwner p) = s.partOfPhys (2 * rx / 37 + 1))

/-- Mesh cycles since device reset (R189). -/
def State.meshCycle (s : State) : Nat := s.time / 4620

/-- The half whose flits may pass an output in this mesh cycle: at a shared router the western one in the even cycles (R206). -/
def State.halfNow (s : State) (rx : Nat) : Nat := if s.shared rx then s.meshCycle % 2 else 0

/-- Key of an input buffer: port, half, virtual channel, route order (R185, R188, R206). -/
def bufKey (port half vc : Nat) (yFirst : Bool) : Nat := port * 16 + half * 8 + vc * 2 + b01 yFirst

/-- Key of a channel of an output: output, half, virtual channel (R189, R206). -/
def outKey (out half vc : Nat) : Nat := out * 8 + half * 4 + vc

/-- Move flits of waiting packets into a port's buffers while each has room for a packet (R188: 8 flits). -/
def Router.refill (r : Router) (half : Packet → Nat) (port : Nat) : Router :=
  (tget [] r.entering port).foldl (fun (q : Router) p =>
    let k := bufKey port (half p) p.vc p.yFirst
    let b := tget [] q.inq k
    let blocked := (tget [] q.entering port).any fun u => bufKey port (half u) u.vc u.yFirst = k
    if b.length + p.flits ≤ 8 && !blocked then
      { q with inq := tset q.inq k (b ++ (List.range p.flits).map fun i => { pkt := p, idx := i }) }
    else { q with entering := tset q.entering port (tget [] q.entering port ++ [p]) })
    { r with entering := tset r.entering port [] }

/-- A packet enters the mesh at a port of its source router. -/
def State.inject (s : State) (port : Nat) (p : Packet) : State :=
  s.modRouter (routerKey p.srcRx p.srcRy) fun r =>
    ({ r with entering := tset r.entering port (tget [] r.entering port ++ [p]) }).refill (s.half p.srcRx) port

/-- A packet with its ends and its way out of the mesh: one to an edge strip or an access point goes along y first (R185). -/
def routed (a b : Nat × Nat) (e : ExitPort) (p : Packet) : Packet :=
  { p with srcRx := a.1, srcRy := a.2, dstRx := b.1, dstRy := b.2, exit := e, yFirst := decide (e ≠ .localSite) }

/-- A packet from tile `t` to tile `d` (R185). -/
def State.sendToTile (s : State) (t d : TileId) (p : Packet) : State :=
  s.inject 4 (routed (s.routerOf t) (s.routerOf d) .localSite { p with src := t, dst := d, toPort := none, unit := .none })

/-- A packet from tile `t` to memory port `m` (R186). -/
def State.sendToPort (s : State) (t : TileId) (m : Nat) (p : Packet) : State :=
  s.inject 4 (routed (s.routerOf t) (s.portRouter t m) .outer { p with src := t, dst := t, toPort := some m, unit := .none })

/-- A memory port's answer to tile `t`: it leaves through the router the tile's packets use (R186). -/
def State.sendFromPort (s : State) (m : Nat) (t : TileId) (p : Packet) : State :=
  s.inject 5 (routed (s.portRouter t m) (s.routerOf t) .localSite { p with src := t, dst := t, toPort := none, unit := .none })

/-- A partition reaches the west (or east) edge units through that edge's outer ports (R196). -/
def State.edgeOpen (s : State) (p : Nat) (east : Bool) : Bool :=
  let q := s.part p
  (List.range s.stripes).all fun st =>
    let beyond := if east then decide (st ≥ q.firstStripe + q.stripeCount) else decide (st < q.firstStripe)
    !beyond || ((s.partOfStripe st).isNone && !(s.baseFaults.getLsbD (st + s.sigma0)))

/-- A tile's packets reach a unit through the edge's outer ports; else through the edge channel (R196). -/
def State.direct (s : State) (t : TileId) (u : EdgeUnit) : Bool :=
  match s.partOf t with
  | some i => s.edgeOpen i (decide (unitColumn u = 147))
  | none => true

/-- The router where a tile's packets for the edge channel attach (R196). -/
def State.channelRouter (s : State) (t : TileId) : Nat × Nat :=
  let a := s.routerOf t
  (attachColumn (tileStripe t + s.sigma0) a.1, if a.2 < 72 then 0 else 143)

/-- The router where a tile's packets to a unit leave the mesh, and by which port (R186, R196, R197). -/
def State.unitExit (s : State) (t : TileId) (u : EdgeUnit) : (Nat × Nat) × ExitPort :=
  if u = .management then (accessRouter (s.clusterOf t), .access)
  else if s.direct t u then (unitRouter u (s.routerOf t).2, .outer)
  else (s.channelRouter t, .outer)

/-- Key of a share of the edge channel: physical stripe, edge, and direction, 1 away from the edge units (R196). -/
def edgeKey (sg : Nat) (east inbound : Bool) : Nat := sg * 4 + 2 * b01 east + b01 inbound

/-- A packet enters its stripe's share of the edge channel. -/
def State.toEdge (s : State) (sg : Nat) (east inbound : Bool) (p : Packet) : State :=
  let k := edgeKey sg east inbound
  { s with edge := tset s.edge k (tget [] s.edge k ++ [p]) }

/-- A packet from tile `t` to a unit (R186, R196, R197). -/
def State.sendToUnit (s : State) (t : TileId) (u : EdgeUnit) (p : Packet) : State :=
  let e := s.unitExit t u
  s.inject 4 (routed (s.routerOf t) e.1 e.2 { p with src := t, dst := t, toPort := none, unit := u })

/-- A unit's packet to tile `t` leaves through the router the tile's packets to the unit use (R186, R196, R197). -/
def State.sendFromUnit (s : State) (u : EdgeUnit) (t : TileId) (p : Packet) : State :=
  let e := s.unitExit t u
  let q := routed e.1 (s.routerOf t) .localSite { p with dst := t, toPort := none, unit := u }
  if u = .management then s.inject 6 q
  else if s.direct t u then s.inject 5 q
  else s.toEdge (tileStripe t + s.sigma0) (decide (unitColumn u = 147)) true q

/-- A packet of the management complex, or of the stream engine by the service tree, waits at the root of the tree for its
partition's turn (R198, R297). -/
def State.toTree (s : State) (t : TileId) (p : Packet) : State :=
  let i := (s.partOf t).getD 8
  { s with svc := tset s.svc i (tget [] s.svc i ++ [{ p with kind := .mgmt, vc := 0, dst := t, unit := .management }]) }

/-- The root of the service tree passes a packet: the partitions take turns in a fixed rotation (R198). -/
def State.treePass (s : State) : State :=
  match ((List.range 9).map fun i => (s.svcTurn + 1 + i) % 9).find? fun i => !(tget [] s.svc i).isEmpty with
  | none => s
  | some i =>
    match tget [] s.svc i with
    | [] => s
    | p :: r => ({ s with svc := tset s.svc i r, svcTurn := i } : State).sendFromUnit .management p.dst p

/-- The routers of a move's requests at memory port `m` and at the tiering unit: no tile stands at their end, so the first column
wholly in the stripe is taken. [DESIGN CHOICE, log entry 130] -/
def tierRouters (m : Nat) : (Nat × Nat) × (Nat × Nat) :=
  let row := if m < 8 then 0 else 143
  (((37 * (m % 8) + 1) / 2, row), (0, row))

/-- The tile that stands for a partition's moves at memory port `m`: the first one of the stripe. -/
def State.tierTile (s : State) (m : Nat) : TileId := tileIx (35 * (m % 8 - s.sigma0)) 0

/-- A move's request from the tiering unit to memory port `m`, on VC3 (R183, R257, R272). -/
def State.tierToPort (s : State) (m : Nat) (p : Packet) : State :=
  let t := s.tierTile m
  let r := tierRouters m
  let q := { p with vc := 3, src := t, dst := t, toPort := some m, unit := .tiering }
  if s.direct t .tiering then s.inject 5 (routed r.2 r.1 .outer q)
  else s.toEdge (m % 8) false true (routed r.1 r.1 .outer q)

/-- The port's answer to a move's request. -/
def State.tierFromPort (s : State) (m : Nat) (p : Packet) : State :=
  let t := s.tierTile m
  let r := tierRouters m
  let q := { p with vc := 3, src := t, dst := t, toPort := none, unit := .tiering }
  s.inject 5 (routed r.1 (if s.direct t .tiering then r.2 else r.1) .outer q)

/-! Breakwaters -/

/-- Stripe of a packet's destination (R208): the target tile, or the memory port's stripe; edge units belong to all. -/
def State.destStripe (s : State) (p : Packet) : Option Nat :=
  match p.toPort with
  | some m => if m % 8 < s.sigma0 then some 8 else some (m % 8 - s.sigma0)
  | none => if p.unit ≠ .none then none else some (tileStripe p.dst)

/-- The packet's destination belongs to another partition or to a stripe in none (R208). -/
def State.foreign (s : State) (p : Packet) : Bool :=
  match s.destStripe p with
  | none => false
  | some st =>
    match s.partOf (pktOwner p) with
    | some i => s.partOfStripe st ≠ some i
    | none => false

/-- A packet that has left the mesh stands as delivered. -/
def State.deliver (s : State) (p : Packet) : State := { s with arrived := s.arrived ++ [p] }

/-- KIND and DEST of BREAKWATER_DROP (R209). -/
def dropKind (k : PacketKind) : Nat :=
  match k with
  | .entry => 0
  | .readReq => 1
  | .write => 2
  | .accWrite => 2
  | _ => 3

/-- Count a dropped packet at the breakwater on its side of the partition (R208, R209). -/
def BwDrop.add (b : BwDrop) (p : Packet) : BwDrop :=
  if b.count = 0 then
    { src := p.src, kind := dropKind p.kind, count := 1
      dest := match p.toPort with
        | some m => 0x1FF00 + m
        | none => p.dst }
  else { b with count := sat (b.count + 1) 0xFFFFFF }

/-! One flit passes a router output -/

/-- The neighbour router behind an output, and the input it arrives on there. -/
def neighbourRouter (rx ry out : Nat) : Nat × Nat × Nat :=
  match out with
  | 0 => (rx, ry - 1, 2)
  | 1 => (rx + 1, ry, 3)
  | 2 => (rx, ry + 1, 0)
  | _ => (rx - 1, ry, 1)

/-- Entries that have left the mesh for tile `t` and not yet entered it. -/
def State.entriesAt (s : State) (t : TileId) : Nat :=
  (s.arrived.filter fun p => p.kind = .entry && p.dst = t).length

/-- The flit can leave by this output (R172, R188, R190, R257): the next buffer, the tile's ingress buffer or the memory port has
room. -/
def State.roomFor (s : State) (rx ry out : Nat) (f : Flit) : Bool :=
  if out < 4 then
    let n := neighbourRouter rx ry out
    let k := bufKey n.2.2 (s.half n.1 f.pkt) f.pkt.vc f.pkt.yFirst
    decide ((tget [] (s.router (routerKey n.1 n.2.1)).inq k).length < 8)
  else
    match f.pkt.kind, f.pkt.toPort with
    | .entry, _ => s.down f.pkt.dst || decide ((s.tile f.pkt.dst).ingress.length + s.entriesAt f.pkt.dst < 8)
    | _, some m =>
      decide ((s.memport m).requests.length + (s.arrived.filter fun p => p.toPort = some m).length < 256)
    | _, none => true

/-- The front flit of an input's buffer that wants output `out` and may pass. -/
def State.candidate (s : State) (rx ry out vc inp : Nat) (yFirst : Bool) : Option Flit :=
  let b := tget [] (s.router (routerKey rx ry)).inq (bufKey inp (s.halfNow rx) vc yFirst)
  b.head?.filter fun f => routeOut f.pkt rx ry = out && s.roomFor rx ry out f

/-- The input and route order that may send on output `out`, channel `vc`: those of the packet that holds the channel, else the
next in round-robin order over the inputs (R188, R189). -/
def State.pick (s : State) (rx ry out vc : Nat) : Option (Nat × Flit) :=
  let r := s.router (routerKey rx ry)
  let k := outKey out (s.halfNow rx) vc
  let h := tget 0 r.holder k
  if h ≠ 0 then (s.candidate rx ry out vc ((h - 1) / 2) (decide ((h - 1) % 2 = 1))).map fun f => ((h - 1) / 2, f)
  else
    let start := tget 0 r.rr k
    (List.range 14).findSome? fun i =>
      let inp := (start + i / 2) % 7
      (s.candidate rx ry out vc inp (decide (i % 2 = 1))).map fun f => (inp, f)

/-- The flit that passes (R189): the VC3 quota, else the lowest channel with a flit ready. -/
def State.arbitrate (s : State) (rx ry out : Nat) : Option (Nat × Flit) :=
  let quota := if s.meshCycle % 8 = 7 then s.pick rx ry out 3 else none
  match quota with
  | some r => some r
  | none => (List.range 4).findSome? fun vc => s.pick rx ry out vc

/-- A read of a CXL frame that has come to the CXL port: a request of the partition's engine (R211, R245, R261). -/
def State.cxlRequest (s : State) (p : Packet) : State :=
  { s with uio := s.uio ++ [{ part := (s.partOf p.src).getD 8, frame := p.addr / 2 ^ 19, page := p.page, off := p.addr % 2 ^ 19
                              tile := p.src, tag := p.tag, seqNo := p.seqNo, len := p.len, vc := p.vc }] }

/-- The first record of a list that satisfies `f` is changed by `g`. -/
def modFirst {α : Type} (f : α → Bool) (g : α → α) : List α → List α
  | [] => []
  | a :: r => if f a then g a :: r else a :: modFirst f g r

/-- An answer to a unit's access: its place in the record. -/
def State.unitAnswer (s : State) (p : Packet) : State :=
  { s with unitAcc := modFirst (fun (a : UnitAcc) => a.tag = p.tag) (fun a =>
      { a with got := tset a.got p.seqNo p.data }) s.unitAcc }

/-- One more request of the move with tag `tag` is done (R267). -/
def State.moveDone (s : State) (i tag : Nat) : State :=
  s.modPart i fun q => { q with moves := modFirst (fun (v : Move) => v.tag = tag) (fun v => { v with done := v.done + 1 }) q.moves }

/-- A 256-byte request of a page's move is answered at the tiering unit (R267): read data go on to the second tier. -/
def State.moveAnswer (s : State) (p : Packet) : State :=
  match s.partOf p.src with
  | none => s
  | some i =>
    match (s.part i).moves.find? fun m => m.tag = p.tag with
    | none => s
    | some m =>
      if p.kind = .readResp then
        { s with uio := s.uio ++ [{ part := i, frame := m.dest, page := m.page, off := p.addr, tile := p.src, tag := p.tag
                                    seqNo := p.seqNo, len := p.len, vc := 3, move := true, write := true, data := p.data }] }
      else s.moveDone i p.tag

/-- A packet reaches the unit at its far end. -/
def State.sinkUnit (s : State) (p : Packet) : State :=
  match p.unit with
  | .cxl => s.cxlRequest p
  | .tiering => s.moveAnswer p
  | .management => s.modCluster (s.clusterOf p.src) fun c => { c with faultReports := c.faultReports + 1 }
  | _ => if p.kind = .verdict then s.deliver p else s.unitAnswer p

/-- A packet whose last flit has left the mesh: to its tile, memory port or unit, or into the edge channel (R186, R196). -/
def State.exitMesh (s : State) (p : Packet) (rx : Nat) : State :=
  if p.unit = .none || p.toPort.isSome || p.exit = .localSite then s.deliver p
  else if p.exit = .outer && rx ≠ unitColumn p.unit then s.toEdge (2 * rx / 37) (decide (unitColumn p.unit = 147)) false p
  else s.sinkUnit p

/-- Pass one flit: it leaves the input, the output's channel is held until the last flit, round robin moves on. -/
def State.passFlit (s : State) (rx ry out inp : Nat) (f : Flit) : State :=
  let k := routerKey rx ry
  let b := bufKey inp (s.half rx f.pkt) f.pkt.vc f.pkt.yFirst
  let o := outKey out (s.half rx f.pkt) f.pkt.vc
  let last := f.idx + 1 = f.pkt.flits
  let half := s.half rx
  let s := s.modRouter k fun r =>
    ({ r with
        inq := tset r.inq b ((tget [] r.inq b).drop 1)
        holder := tset r.holder o (if last then 0 else 2 * inp + b01 f.pkt.yFirst + 1)
        rr := if last then tset r.rr o ((inp + 1) % 7) else r.rr }).refill half inp
  let s := { s with meshTraffic := s.meshTraffic + 1 }
  if out < 4 then
    let n := neighbourRouter rx ry out
    let kb := bufKey n.2.2 (s.half n.1 f.pkt) f.pkt.vc f.pkt.yFirst
    s.modRouter (routerKey n.1 n.2.1) fun r => { r with inq := tset r.inq kb (tget [] r.inq kb ++ [f]) }
  else if last then s.exitMesh f.pkt rx else s

/-- The packets in the mesh, the edge channel and the service tree, and those delivered and not yet taken; one whose flits stand in
several buffers is named for each. -/
def State.meshPackets (s : State) : List Packet :=
  s.arrived ++ s.edge.flatMap (fun e => e.2) ++ s.svc.flatMap (fun e => e.2)
    ++ s.routers.flatMap fun r => r.2.entering.flatMap (fun e => e.2) ++ r.2.inq.flatMap fun b => b.2.map fun (x : Flit) => x.pkt

/-- A packet in the mesh, the edge channel, the service tree, or delivered and not yet taken, satisfies `f`. -/
def State.inMesh (s : State) (f : Packet → Bool) : Bool :=
  s.arrived.any f || s.edge.any (fun e => e.2.any f) || s.svc.any (fun e => e.2.any f)
    || s.routers.any fun r => r.2.entering.any (fun e => e.2.any f) || r.2.inq.any fun b => b.2.any fun (x : Flit) => f x.pkt

/-- Every packet of the mesh, the edge channel and the service tree changed by `g`, but those delivered. -/
def State.mapMesh (s : State) (g : Packet → Packet) : State :=
  { s with
    edge := s.edge.map fun e => (e.1, e.2.map g)
    svc := s.svc.map fun e => (e.1, e.2.map g)
    routers := s.routers.map fun r => (r.1, { r.2 with
      entering := r.2.entering.map fun e => (e.1, e.2.map g)
      inq := r.2.inq.map fun b => (b.1, b.2.map fun (f : Flit) => ({ f with pkt := g f.pkt } : Flit)) }) }

/-! Accesses of edge units to tiles (R186) -/

/-- The sender of an entry that no tile sent. -/
def noTile : TileId := 0x1FFFF

/-- The parts of a byte range, at most 256 bytes and within one aligned 256 bytes each. -/
def pieces : Nat → Nat → Nat → List (Nat × Nat)
  | 0, _, _ => []
  | k + 1, a, n => if n = 0 then [] else
    let l := min n (256 - a % 256)
    (a, l) :: pieces k (a + l) (n - l)

/-- A packet of a unit, and the place of its answer in the unit's record. -/
def State.unitSend (s : State) (tag : Nat) (e : Nat × Packet) : State :=
  s.sendFromUnit e.2.unit e.2.dst { e.2 with src := e.2.dst, tag := tag, seqNo := e.1 }

/-- A unit sends packets to tiles and waits for their answers under `key`. -/
def State.unitAsk (s : State) (key phase part : Nat) (l : List Packet) : State :=
  let tag := s.unitSeq
  let s : State := { s with unitSeq := tag + 1
                            unitAcc := s.unitAcc ++ [{ key := key, phase := phase, tag := tag, part := part, want := l.length }] }
  ((List.range l.length).zip l).foldl (fun st e => st.unitSend tag e) s

/-- Packets of unit `u` that read `n` bytes of a tile from byte `a` on. -/
def readPkts (u : EdgeUnit) (vc : Nat) (t : TileId) (a n : Nat) : List Packet :=
  (pieces (n / 256 + 2) a n).map fun p => { kind := .readReq, vc := vc, addr := p.1, len := p.2, dst := t, unit := u }

/-- Packets of unit `u` that write bytes of a tile from byte `a` on. -/
def writePkts (u : EdgeUnit) (vc : Nat) (t : TileId) (a : Nat) (b : List Byte) : List Packet :=
  (pieces (b.length / 256 + 2) a b.length).map fun p =>
    { kind := .write, vc := vc, addr := p.1, len := p.2, data := (b.drop (p.1 - a)).take p.2, flits := flitsOf p.2, dst := t, unit := u }

/-- How a unit's accesses under a key stand; done ones say which phase they were and what was read. -/
inductive UnitWay where
  | idle
  | waiting
  | done (phase : Nat) (bytes : List Byte)
  deriving DecidableEq, Repr

/-- The state of a unit's accesses, and the state with done ones taken out. -/
def State.unitTake (s : State) (key : Nat) : State × UnitWay :=
  match s.unitAcc.find? fun a => a.key = key with
  | none => (s, .idle)
  | some a =>
    if a.got.length < a.want then (s, .waiting)
    else ({ s with unitAcc := s.unitAcc.filter fun b => b.tag ≠ a.tag }
      , .done a.phase ((List.range a.want).flatMap fun i => tget [] a.got i))

/-- A unit's one-word notice to queue `q` of tile `t` (R326, R327). -/
def State.unitNotice (s : State) (u : EdgeUnit) (t : TileId) (q : Nat) (v : Word) : State :=
  s.sendFromUnit u t { kind := .entry, vc := 2, src := noTile, words := [v], queue := q }

/-- Take the first delivered packet that satisfies `f`. -/
def takeFirst {α : Type} (f : α → Bool) : List α → Option (α × List α)
  | [] => none
  | a :: r => if f a then some (a, r) else (takeFirst f r).map fun p => (p.1, a :: p.2)

end Sys2Proof.Machine
end

