-- ==== Sys2Proof/Machine/Pages.lean ====
section
/-!
DEFINITION. The page map (spec/10_memory_tiers.md R252, R262 to R269, R272, R273): frames, ownership, appends, moves,
commit and abandon of tentative fills, and page loss.
-/

namespace Sys2Proof.Machine

/-- Bytes of a page at or beyond its tentative fill read as 0 (R245). -/
def State.belowFill (s : State) (g off : Nat) (data : List Byte) : List Byte :=
  let k := (s.page g).tfill * 256 - off
  data.take k ++ List.replicate (data.length - k) 0

/-- The partition that owns a stream slot (R277). -/
def State.partOfSlot (s : State) (n : Nat) : Option Nat :=
  (List.range 8).find? fun p => s.exists? p && decide ((s.part p).slotFirst ≤ n)
    && decide (n < (s.part p).slotFirst + (s.part p).slotCount)

/-- The page is bound and its stream's slot belongs to partition `p` (R245, R263). -/
def State.ownsPage (s : State) (p g : Nat) : Bool :=
  decide ((s.page g).st ≠ .free) && s.partOfSlot (s.page g).owner = some p

/-- Number of a page state in an entry (R262). -/
def pgCode (st : PgSt) : Nat :=
  match st with
  | .free => 0
  | .hbm => 1
  | .demoting => 2
  | .cxl => 3
  | .promoting => 4
  | .pinned => 5

/-- A page map entry as its 64 bits (R262). -/
def Page.entry (g : Page) : Nat :=
  pgCode g.st * 2 ^ 61 + g.tier * 2 ^ 60 + g.frame * 2 ^ 39 + g.owner * 2 ^ 24 + g.tfill * 2 ^ 12 + g.cfill

/-- FRAME of an HBM frame: memory port and frame in the stack (R262). -/
def hbmFrame (m f : Nat) : Nat := m * 2 ^ 17 + f

/-- Address in `State.hbm` of byte `o` of the HBM frame `fr`. -/
def frameAddr (fr o : Nat) : Nat := hbmAddr (fr / 2 ^ 17) (frameByte (fr % 2 ^ 17) o)

/-- Address in `State.cxl` of byte `o` of CXL frame `fr` (R260). -/
def cxlAddr (fr o : Nat) : Nat := fr * 2 ^ 19 + o

/-- Frames in use: of a tier, by pages, by the destinations of moves, and in HBM by staged and retained images (R400, R401). -/
def State.framesUsed (s : State) (tier : Nat) : List Nat :=
  (s.pages.filter fun g => g.2.st ≠ .free ∧ g.2.tier = tier).map (fun g => g.2.frame)
    ++ (s.parts.flatMap fun p => (p.2.moves.filter fun m => m.demote = decide (tier = 1)).map (fun m => m.dest))
    ++ (if tier = 0 then (s.stages.flatMap fun g => g.frames) ++ s.parts.flatMap fun p => p.2.imageFrames else [])

/-- The frame is retired (R259). -/
def State.frameRetired (s : State) (tier fr : Nat) : Bool := s.retired.contains (tier * 2 ^ 30 + fr)

/-- Free tiered frames of memory port `m` for partition `p` (R252). -/
def State.freeHbm (s : State) (p m : Nat) : List Nat :=
  let used := s.framesUsed 0
  let lo := 320 + (s.part p).homeFrames + (s.part p).spillFrames
  ((List.range (73728 - lo)).map fun i => hbmFrame m (lo + i)).filter fun f =>
    !(used.contains f) && !(s.frameRetired 0 f)

/-- Free CXL frames of partition `p`: its range, within the windows given (R260). -/
def State.freeCxl (s : State) (p : Nat) : List Nat :=
  let used := s.framesUsed 1
  let total := s.windows.foldl (fun n w => n + w.2 / 2 ^ 19) 0
  ((List.range (s.part p).cxlCount).map fun i => (s.part p).cxlFirst + i).filter fun f =>
    !(used.contains f) && !(s.frameRetired 1 f) && decide (f < total)

/-- Free tiered HBM frames of a partition. -/
def State.freeHbmCount (s : State) (p : Nat) : Nat :=
  (s.portsOf p).foldl (fun n m => n + (s.freeHbm p m).length) 0

/-- The stack with the most free tiered frames, the lowest port on a tie (R264). -/
def State.bestPort (s : State) (p : Nat) : Option Nat :=
  ((sortBy (s.portsOf p) (· ≤ ·)).foldl (fun (b : Option (Nat × Nat)) m =>
    let n := (s.freeHbm p m).length
    match b with
    | none => if n = 0 then none else some (m, n)
    | some c => if c.2 < n then some (m, n) else b) none).map fun b => b.1

/-- One of the free frames: which one the spec does not say, so the choice is a free value. [DESIGN CHOICE, log entry 12] -/
def State.chooseFrom (s : State) (l : List Nat) : Option Nat :=
  match l with
  | [] => none
  | a :: r => some ((a :: r).getD ((Config.freeWord s.freeCtr).toNat % (r.length + 1)) a)

/-- A free HBM frame for partition `p` (R264). -/
def State.pickHbm (s : State) (p : Nat) : Option Nat :=
  match s.bestPort p with
  | none => none
  | some m => s.chooseFrom (s.freeHbm p m)

/-- A free CXL frame for partition `p`. -/
def State.pickCxl (s : State) (p : Nat) : Option Nat := s.chooseFrom (s.freeCxl p)

/-- Begin a move of page `g` (R32, R265, R267): the destination is reserved. A pinned page is never moved. No free frame: the move is
dropped and counted. -/
def State.startMove (s : State) (p g : Nat) (demote forAppend : Bool) : State :=
  let pg := s.page g
  let ok := if demote then pg.st = .hbm else pg.st = .cxl
  if !ok then s
  else
    match (if demote then s.pickCxl p else s.pickHbm p) with
    | none => s.modPart p fun q => { q with movesDropped := q.movesDropped + 1 }
    | some d =>
      let s : State := { s.used 1 with unitSeq := s.unitSeq + 1 }
      (s.modPage g fun x => { x with st := if demote then .demoting else .promoting }).modPart p fun q =>
        { q with moves := q.moves ++ [{ page := g, dest := d, demote := demote, forAppend := forAppend, tag := s.unitSeq
                                        sent := pg.cfill }] }

/-- Pages of a partition in a state. -/
def State.pagesIn (s : State) (p : Nat) (st : PgSt) : List Nat :=
  (s.pages.filter fun g => g.2.st = st && s.partOfSlot g.2.owner = some p).map fun g => g.1

/-- Moves asked for and not yet begun of pages that `f` holds of are forgotten: the pages are FREE. -/
def State.forgetMoves (s : State) (f : Nat → Bool) : State :=
  { s with parts := s.parts.map fun q => (q.1, { q.2 with moveQueue := q.2.moveQueue.filter fun m => !(f m.1) }) }

/-- A page is lost (R273): FREE at once; the owning stream is to be closed at the replay's commit. -/
def State.losePage (s : State) (g : Nat) : State :=
  let pg := s.page g
  if pg.st = .free then s
  else
    let s := (s.modPage g fun _ => {}).forgetMoves fun k => k = g
    match s.partOfSlot pg.owner with
    | none => s
    | some p =>
      let s := s.modPart p fun q => { q with moves := q.moves.filter fun m => m.page ≠ g
                                             pagesLost := q.pagesLost ++ [g * 2 ^ 15 + pg.owner] }
      s

/-- PAGE_LOST events of a partition: one for each stream, with its first page and the count (R273, R276). -/
def State.reportLost (s : State) (p : Nat) : State :=
  let l := (s.part p).pagesLost
  let owners := (l.map (· % 2 ^ 15)).eraseDups
  each owners (fun o st =>
    let mine := (l.filter fun v => v % 2 ^ 15 = o).map (· / 2 ^ 15)
    st.raisePart p 0x0401 3 tierUnit (o * 2 ^ 49 + (mine.foldl min (mine.headD 0)) * 2 ^ 27 + sat mine.length 0x7FFFFFF)) s

/-- A page whose frame is retired is lost if it holds committed content; an empty one stays as it is (R273).
[DESIGN CHOICE, log entry 137] -/
def State.loseIfHeld (s : State) (g : Nat) : State := if (s.page g).cfill > 0 then s.losePage g else s

/-- A CXL frame fails (R261): CXL_TIER_FAILED, the frame is retired, and its page lost, or the page whose copy failed. -/
def State.cxlFail (s : State) (p frame page cause : Nat) : State :=
  let s := s.unitFault p 0x0716 3 cxlUnit (cause * 2 ^ 62 + page * 2 ^ 40 + frame) .hardware 0
  (if s.frameRetired 1 frame then s else s.logRetired 1 2 frame).loseIfHeld page

/-- The CXL frames of the window that holds frame `fr`: the first, and how many (R260). -/
def windowOf : List (Nat × Nat) → Nat → Nat → Nat × Nat
  | [], first, _ => (first, 0)
  | w :: r, first, fr => let n := w.2 / 2 ^ 19; if fr < first + n then (first, n) else windowOf r (first + n) fr

/-- The page in a CXL frame. -/
def State.pageInCxl (s : State) (fr : Nat) : Option Nat :=
  (s.pages.find? fun g => g.2.st ≠ .free ∧ g.2.tier = 1 ∧ g.2.frame = fr).map fun g => g.1

/-- An expander is gone (R261): every page whose frame lies in the window of frame `fr` is lost, and those frames are retired; empty
frames of the window are retired only once a request to them fails. [DESIGN CHOICE, log entry 161] -/
def State.loseWindow (s : State) (fr : Nat) : State :=
  let w := windowOf s.windows 0 fr
  let l := s.pages.filter fun g => g.2.st ≠ .free && g.2.tier = 1 && decide (w.1 ≤ g.2.frame) && decide (g.2.frame < w.1 + w.2)
  each l (fun g st => (if st.frameRetired 1 g.2.frame then st else st.logRetired 1 2 g.2.frame).losePage g.1) s

/-- The partition whose CXL frames hold frame `fr` (R260). -/
def State.partOfCxl (s : State) (fr : Nat) : Option Nat :=
  (List.range 8).find? fun p => s.exists? p && decide ((s.part p).cxlFirst ≤ fr)
    && decide (fr < (s.part p).cxlFirst + (s.part p).cxlCount)

/-- The path to a window is lost with no request of frame `fr` in flight (R261): CXL_TIER_FAILED for that frame, against the
partition whose frame it is, then the window's pages. -/
def State.windowGone (s : State) (fr : Nat) : State :=
  let s := match s.partOfCxl fr with
    | some p => s.cxlFail p fr ((s.pageInCxl fr).getD 0) 2
    | none => (s.raiseDev 0x0716 3 cxlUnit (2 * 2 ^ 62 + fr)).logRetired 1 2 fr
  s.loseWindow fr

end Sys2Proof.Machine
end

