-- ==== Sys2Proof/Machine/Mover.lean ====
section
/-!
DEFINITION. The tile mover (spec/09_tile_mover.md): the descriptor and its checks at issue (R236 to R243), element order,
index lists, transposition and packing (R239 to R242), the accesses a request makes (R244 to R248), and completion (R249).
-/

namespace Sys2Proof.Machine

/-! The descriptor -/

/-- A decoded descriptor (R236). Counts are the numbers of elements, not minus 1. -/
structure Desc where
  op : Nat
  shadow : Bool
  bulk : Bool
  append : Bool
  transpose : Bool
  pack : Nat
  accInt : Bool
  check : Nat
  idx32 : Bool
  comp : Bool
  efmt : Nat
  src : Nat
  dst : Nat
  n0 : Nat
  n1 : Nat
  n2 : Nat
  n3 : Nat
  ss1 : Int
  ds1 : Int
  ss2 : Int
  ds2 : Int
  ss3 : Int
  ds3 : Int
  aux : Nat
  auxVal : Nat
  compWord : Nat
  chkWord : Nat
  deriving DecidableEq, Repr

/-- The fields of 16 descriptor words (R236). -/
def decodeDesc (w : List Word) : Desc :=
  let g := fun i => (w.getD i 0).toNat
  let i := fun k => (w.getD k 0).toInt
  { op := bits (g 0) 31 28, shadow := bit (g 0) 27, bulk := bit (g 0) 26, append := bit (g 0) 25
    transpose := bit (g 0) 24, pack := bits (g 0) 23 22, accInt := bit (g 0) 21, check := bits (g 0) 20 19
    idx32 := bit (g 0) 18, comp := bit (g 0) 17, efmt := bits (g 0) 16 13
    src := g 1 + g 2 * 2 ^ 32, dst := g 3 + g 4 * 2 ^ 32
    n0 := bits (g 5) 15 0 + 1, n1 := bits (g 5) 31 16 + 1, n2 := bits (g 6) 15 0 + 1, n3 := bits (g 6) 31 16 + 1
    ss1 := i 7, ds1 := i 8, ss2 := i 9, ds2 := i 10, ss3 := i 11, ds3 := i 12
    aux := bits (g 13) 17 0, auxVal := g 14, compWord := bits (g 15) 31 16, chkWord := bits (g 15) 15 0 }

/-- Address space code (R237). -/
def spaceOf (a : Nat) : Nat := a / 2 ^ 60

/-- The named bits of an address hold all of it (R237). -/
def addrOk (a : Nat) : Bool :=
  match spaceOf a with
  | 0 => decide (a % 2 ^ 60 < 2 ^ 18)
  | 1 => decide (a % 2 ^ 60 < 2 ^ 36)
  | 2 => decide (a % 2 ^ 60 < 2 ^ 20)
  | 3 => decide (a % 2 ^ 60 < 2 ^ 40)
  | 4 => decide (a % 2 ^ 60 < 2 ^ 41)
  | _ => false

/-- Byte address within its space (R163, R237). -/
def linOf (a : Nat) : Nat :=
  match spaceOf a with
  | 0 => bits a 17 0
  | 1 => 4 * bits a 15 0 + bits a 35 34
  | 2 => bits a 17 0
  | 3 => bits a 35 0
  | _ => bits a 40 0

/-- Element size of EFMT (R238). -/
def elemSize (efmt : Nat) : Nat :=
  match efmt with
  | 0 => 1
  | 1 => 2
  | 2 => 4
  | 3 => 132
  | 4 => 100
  | _ => 68

/-- Element bytes on the source side: 512 in lane form (R242). -/
def Desc.esS (d : Desc) : Nat := if d.pack = 1 then 512 else elemSize d.efmt
/-- Element bytes on the destination side. -/
def Desc.esD (d : Desc) : Nat := if d.pack = 2 then 512 else elemSize d.efmt
/-- The operation takes an index list (R240). -/
def Desc.indexed (d : Desc) : Bool := decide (d.op ≥ 1)
/-- Rows of the shape: (i3, i2, i1). -/
def Desc.rows (d : Desc) : Nat := d.n1 * d.n2 * d.n3

/-- Reserved fields and encodings, and fields that must be 0 (R236, R243). -/
def descFieldsOk (w : List Word) : Bool :=
  let d := decodeDesc w
  let g := fun i => (w.getD i 0).toNat
  decide (bits (g 0) 12 0 = 0) && decide (d.op ≤ 3) && decide (d.pack ≤ 2) && decide (d.check ≤ 2)
    && decide (d.efmt ≤ 5) && addrOk d.src && addrOk d.dst && decide (bits (g 13) 31 18 = 0)
    && (d.op = 3 || !d.accInt) && (d.indexed || d.pack ≠ 0 || d.aux = 0)
    && (d.indexed || (if d.append then decide (d.auxVal < 2 ^ 15) else d.auxVal = 0))
    && (d.comp || d.compWord = 0) && (d.check = 2 || d.chkWord = 0)

/-- The (count, stride) terms of one side (R239, R241), the indexed dimension over 0 to INDEX_LIMIT - 1 (R243). -/
def Desc.terms (d : Desc) (dest : Bool) : List (Nat × Int) :=
  if dest then
    if d.transpose then [(d.n1, (d.esD : Int)), (d.n0, d.ds1), (d.n2, d.ds2), (d.n3, d.ds3)]
    else [(d.n0, (d.esD : Int)), (if d.op ≥ 2 then d.auxVal else d.n1, d.ds1), (d.n2, d.ds2), (d.n3, d.ds3)]
  else [(d.n0, (d.esS : Int)), (if d.op = 1 then d.auxVal else d.n1, d.ss1), (d.n2, d.ss2), (d.n3, d.ss3)]

/-- Lowest and one past the highest byte of a side, relative to its address. -/
def Desc.extent (d : Desc) (dest : Bool) : Int × Int :=
  let es : Int := if dest then d.esD else d.esS
  (d.terms dest).foldl (fun r t =>
    (r.1 + min 0 (((t.1 : Int) - 1) * t.2), r.2 + max 0 (((t.1 : Int) - 1) * t.2))) (0, es)

/-- The indexed side is empty: INDEX_LIMIT 0 (R243). -/
def Desc.emptySide (d : Desc) (dest : Bool) : Bool :=
  decide (d.auxVal = 0) && (if dest then decide (d.op ≥ 2) else decide (d.op = 1))

/-- An HBM range lies in the fixed regions a descriptor may use (R255): home and spill as a source, spill as destination. -/
def State.fixedOk (s : State) (p lo hi : Nat) (dest : Bool) : Bool :=
  let q := s.part p
  decide ((if dest then 320 + q.homeFrames else 320) * 2 ^ 19 ≤ lo)
    && decide (hi ≤ (320 + q.homeFrames + q.spillFrames) * 2 ^ 19)

/-- Every element of one side lies in its space (R243, R255). -/
def State.sideOk (s : State) (t : TileId) (d : Desc) (dest : Bool) : Bool :=
  let a := if dest then d.dst else d.src
  let e := d.extent dest
  let lo := (linOf a : Int) + e.1
  let hi := (linOf a : Int) + e.2
  let inSpace := fun (size : Nat) => d.emptySide dest || (decide (0 ≤ lo) && decide (hi ≤ (size : Int)))
  match spaceOf a with
  | 0 => inSpace 262144
  | 1 => inSpace 262144 && s.onGrid (bits a 33 25) (bits a 24 16)
  | 2 => inSpace 262144 && (s.neighbour t (bits a 19 18)).isSome
  | 3 =>
    match s.partOf t with
    | none => false
    | some p => (s.portsOf p).contains (bits a 39 36) && decide (bits a 39 36 < 16)
        && (d.emptySide dest || (decide (0 ≤ lo) && s.fixedOk p lo.toNat hi.toNat dest))
  | _ => inSpace (2 ^ 41)

/-- The operation and flag rules of R241, R242, R244, R246 and R247, and which space may stand on which side (R237). [DEDUCED, log entry 44] -/
def descRulesOk (d : Desc) : Bool :=
  let sp := spaceOf d.src
  let dp := spaceOf d.dst
  (sp = 0 || dp = 0) && decide (sp ≠ 2) && (dp ≠ 4 || d.append)
    && (d.op ≠ 3 || (decide (dp ≤ 1) && d.efmt = 2))
    && (!d.transpose || (d.op = 0 && d.pack = 0 && decide (d.efmt ≤ 2) && decide (d.n0 ≤ 64) && decide (d.n1 ≤ 64)))
    && (d.pack = 0 || (d.op = 0 && !d.transpose && decide (d.efmt ≥ 3) && (if d.pack = 1 then sp = 0 else dp = 0)))
    && (!d.append || (d.op = 0 && dp = 4 && sp = 0))
    && (!d.shadow || (decide (d.op ≤ 1) && dp = 0 && !d.append && d.check = 0))

/-- Alignment of the addresses and of every stride (R243). -/
def descAligned (d : Desc) : Bool :=
  let m := match d.efmt with
    | 0 => 1
    | 1 => 2
    | _ => 4
  decide (linOf d.src % m = 0) && decide (linOf d.dst % m = 0)
    && [d.ss1, d.ds1, d.ss2, d.ds2, d.ss3, d.ds3].all fun v => decide (v % (m : Int) = 0)

/-- Offset of an element row on one side, with the index already taken (R239). -/
def rowOffS (d : Desc) (s1 i2 i3 : Nat) : Int := s1 * d.ss1 + i2 * d.ss2 + i3 * d.ss3
/-- The same at the destination. -/
def rowOffD (d : Desc) (d1 i2 i3 : Nat) : Int := d1 * d.ds1 + i2 * d.ds2 + i3 * d.ds3

/-- Some element of the shape writes the byte at offset `b` from DST (R243): dimension by dimension. -/
def reachable (es : Nat) : List (Nat × Int) → Int → Bool
  | [], b => decide (0 ≤ b) && decide (b < (es : Int))
  | t :: r, b => (List.range t.1).any fun k => reachable es r (b - k * t.2)

/-- Word `w` of the scratchpad lies in the scale list that an unpacking descriptor writes (R242). -/
def Desc.inScales (d : Desc) (w : Nat) : Bool :=
  d.pack = 2 && decide (d.aux < 4 * w + 4) && decide (4 * w < d.aux + 16 * (d.n0 * d.rows))

/-- The completion word lies inside the descriptor's own destination range, the scales of an unpacking one included (R242,
R243). -/
def State.compInside (_ : State) (t : TileId) (d : Desc) : Bool :=
  let dp := spaceOf d.dst
  let own := dp = 0 || (dp = 1 && tileIx (bits d.dst 33 25) (bits d.dst 24 16) = t)
  d.comp && ((own && !(d.emptySide true) && (List.range 4).any fun i =>
    reachable d.esD (d.terms true) ((4 * d.compWord + i : Nat) - (linOf d.dst : Int))) || d.inScales d.compWord)

/-- The index list or scale list ends within the scratchpad (R243). -/
def auxOk (d : Desc) : Bool :=
  (!d.indexed || decide (d.aux + d.n1 * (if d.idx32 then 4 else 2) ≤ 262144))
    && (d.pack = 0 || decide (d.aux + 16 * (d.n0 * d.rows) ≤ 262144))

/-- The checks of R243: no transfer starts unless all hold. -/
def State.descOk (s : State) (t : TileId) (w : List Word) : Bool :=
  let d := decodeDesc w
  descFieldsOk w && descRulesOk d && descAligned d && s.sideOk t d false && s.sideOk t d true && auxOk d
    && (d.check ≠ 2 || d.chkWord % 2 = 0) && !(s.compInside t d)

/-! Rows and positions -/

/-- (i1, i2, i3) of row `r` in element order (R239). -/
def Desc.rowIx (d : Desc) (r : Nat) : Nat × Nat × Nat := (r % d.n1, r / d.n1 % d.n2, r / (d.n1 * d.n2))

/-- Source byte offset of position `pos` of a row; `ix` replaces i1 for GATHER. -/
def Desc.srcAt (d : Desc) (row pos ix : Nat) : Int :=
  let (i1, i2, i3) := d.rowIx row
  rowOffS d (if d.op = 1 then ix else i1) i2 i3 + pos

/-- Destination byte offset of position `pos` of a row; `ix` replaces i1 for SCATTER. -/
def Desc.dstAt (d : Desc) (row pos ix : Nat) : Int :=
  let (i1, i2, i3) := d.rowIx row
  rowOffD d (if d.op ≥ 2 then ix else i1) i2 i3 + pos

/-- Destination offset of element i0 of a row under TRANSPOSE (R241). -/
def Desc.trAt (d : Desc) (row i0 : Nat) : Int :=
  let (i1, i2, i3) := d.rowIx row
  (i1 * elemSize d.efmt : Nat) + i0 * d.ds1 + i2 * d.ds2 + i3 * d.ds3

/-- Bytes of one row as positions count them: storage bytes of the side that is not in lane form. -/
def Desc.rowLen (d : Desc) : Nat := d.n0 * elemSize d.efmt

/-- An address moved by an offset. -/
def addOff (a : Nat) (o : Int) : Nat := ((a : Int) + o).toNat

/-- Length of the next request: at most 256 bytes, no 256-byte boundary of either address crossed (R248). [DEDUCED, log entry 43] -/
def reqLen (left a b : Nat) : Nat := min left (min (256 - a % 256) (256 - b % 256))

/-! Local bytes -/

/-- The words a byte range touches. -/
def wordsOf (a n : Nat) : List Nat := if n = 0 then [] else (List.range ((a + n - 1) / 4 - a / 4 + 1)).map fun i => a / 4 + i

/-- Note the lines that an access of row 7 of R153 touches, while its effect is worked out. -/
def Tile.touch (x : Tile) (ls : List (Nat × Bool)) : Tile := { x with touched := x.touched.map fun l => l ++ ls }

/-- Read bytes of a tile's own scratchpad with its error check; `remote` is 0 or the reader's unit id (R160, R162). -/
def State.readLocal (s : State) (t : TileId) (a n remote req : Nat) : State × List Byte × Bool :=
  let ws := wordsOf a n
  let s := s.modTile t fun x => x.touch ((linesOf ws).map fun l => (l, false))
  let (s1, vs, bad) := s.readWords t (s.tile t).readNow ws
  let bytes := (vs.flatMap fun v => leBytes 4 v.toNat).drop (a % 4)
  match bad with
  | some w => (s1.spFault t remote req w, bytes.take n, true)
  | none => (s1, bytes.take n, false)

/-- Read the whole line before a part of it is written (R157): its words, or none on an uncorrectable error (R160). -/
def State.readLine (s : State) (t : TileId) (l remote req : Nat) : State × Option (List Word) :=
  let r := s.readLocal t (16 * l) 16 remote req
  (r.1, if r.2.2 then none else some ((List.range 4).map fun i => BitVec.ofNat 32 (leNat ((r.2.1.drop (4 * i)).take 4))))

/-- Write the words `put` gives into line `l`; where some depend on what stood there, the line is read first (R157). -/
def State.writeLine (s : State) (t : TileId) (l : Nat) (whole : Bool) (remote req : Nat) (put : Nat → Word → Option Word) :
    State :=
  let r := if whole then (s, some ((List.range 4).map fun i => wordAt (s.tile t).memNow (4 * l + i)))
           else s.readLine t l remote req
  match r.2 with
  | none => r.1
  | some vs =>
    (r.1.modTile t fun x => x.touch [(l, true)]).modTile t fun x =>
      ((List.range 4).zip vs).foldl (fun y p => match put (4 * l + p.1) p.2 with
        | none => y
        | some v => y.writeWord (4 * l + p.1) v) x

/-- Write bytes: a whole word stores fresh check bits, a part of one is a read and a write of its line (R157, R160). -/
def State.writeLocal (s : State) (t : TileId) (a : Nat) (b : List Byte) (remote req : Nat) : State :=
  let byte := fun (i : Nat) => if a ≤ i then b[i - a]? else none
  let ws := wordsOf a b.length
  let whole := fun (w : Nat) => (List.range 4).all fun i => (byte (4 * w + i)).isSome
  each (linesOf ws) (fun l st => st.writeLine t l ((ws.filter fun w => w / 4 = l).all whole) remote req fun w v =>
    if ws.contains w then
      some (BitVec.ofNat 32 (leNat ((List.range 4).map fun i =>
        (byte (4 * w + i)).getD (BitVec.ofNat 8 (v.toNat / 2 ^ (8 * i))))))
    else none) s

/-- An accumulate-write of words from word address `w` up: each line is read and written (R157, R164). -/
def State.accLocal (s : State) (t : TileId) (w : Nat) (vals : List Word) (int : Bool) (remote req : Nat) : State :=
  each (linesOf ((List.range vals.length).map (w + ·))) (fun l st => st.writeLine t l false remote req fun a v =>
    if a < w then none else (vals[a - w]?).map fun u => if int then v + u else fadd v u) s

/-- 32-bit words of a byte list. -/
def wordsOfBytes : Nat → List Byte → List Word
  | 0, _ => []
  | n + 1, b => BitVec.ofNat 32 (leNat (b.take 4)) :: wordsOfBytes n (b.drop 4)

/-! Packing (R242) -/

/-- Element width of a storage group's format. -/
def groupWidth (efmt : Nat) : Nat :=
  match efmt with
  | 3 => 8
  | 4 => 6
  | _ => 4

/-- Byte offset of block `n`'s scale in its group (R39). -/
def groupScaleAt (efmt n : Nat) : Nat := if efmt = 3 then 33 * n else n

/-- Byte offset of block `n`'s data in its group (R39). -/
def groupDataAt (efmt n : Nat) : Nat :=
  match efmt with
  | 3 => 33 * n + 1
  | 4 => 4 + 24 * n
  | _ => 4 + 16 * n

/-- Element `j` of a packed block (R40). -/
def unpackElem (width : Nat) (data : List Byte) (j : Nat) : Nat :=
  match width with
  | 8 => (data.getD j 0).toNat
  | 6 => leNat ((data.drop (3 * (j / 4))).take 3) / 2 ^ (6 * (j % 4)) % 64
  | 16 => leNat ((data.drop (2 * j)).take 2)
  | _ => (data.getD (j / 2) 0).toNat / 2 ^ (4 * (j % 2)) % 16

/-- A block's elements packed into bytes (R40). -/
def packElems (width : Nat) (e : List Nat) : List Byte :=
  match width with
  | 8 => e.map (BitVec.ofNat 8)
  | 6 => (List.range 8).flatMap fun k =>
      leBytes 3 ((List.range 4).foldl (fun n t => n + e.getD (4 * k + t) 0 % 64 * 2 ^ (6 * t)) 0)
  | _ => (List.range 16).map fun k => BitVec.ofNat 8 (e.getD (2 * k) 0 % 16 + 16 * (e.getD (2 * k + 1) 0 % 16))

/-- A storage group's bytes from 128 lane words and four scales (R39, R242). -/
def packGroup (efmt : Nat) (lanes : List Word) (scales : List Nat) : List Byte :=
  let blk := fun n => packElems (groupWidth efmt) (((lanes.drop (32 * n)).take 32).map fun w => w.toNat % 256)
  let sc := fun n => BitVec.ofNat 8 (scales.getD n 0)
  if efmt = 3 then (List.range 4).flatMap fun n => sc n :: blk n
  else (List.range 4).map sc ++ (List.range 4).flatMap blk

/-- The 128 lane words of a storage group (R242). -/
def unpackGroup (efmt : Nat) (g : List Byte) : List Word :=
  (List.range 4).flatMap fun n => (List.range 32).map fun j =>
    BitVec.ofNat 32 (unpackElem (groupWidth efmt) (g.drop (groupDataAt efmt n)) j)

/-- The four scales of a storage group. -/
def groupScales (efmt : Nat) (g : List Byte) : List Nat :=
  (List.range 4).map fun n => (g.getD (groupScaleAt efmt n) 0).toNat

/-! Tags -/

/-- The state with tag `n` of tile `t` changed. -/
def State.modTag (s : State) (t : TileId) (n : Nat) (f : TagState → TagState) : State :=
  s.modTile t fun x => { x with tags := tset x.tags n (f (x.tag n)) }

/-- Requests of a tile in flight over all its tags (R248). -/
def Tile.inFlight (x : Tile) : Nat := x.tags.foldl (fun n g => n + g.2.flying.length) 0

/-- A descriptor has no request ready while an earlier checked one is ACTIVE (R521). -/
def Tile.checkedBefore (x : Tile) (g : TagState) : Bool :=
  decide ((decodeDesc g.desc).check ≠ 0) && x.tags.any fun h =>
    h.2.st = .active && decide ((decodeDesc h.2.desc).check ≠ 0) && decide (h.2.order < g.order)

/-- Bytes that a transfer collects before it writes any: a plane under TRANSPOSE, a group under PACK, of lane words or of storage
(R241, R242). -/
def Desc.bufSize (d : Desc) : Nat :=
  if d.transpose then d.n1 * d.rowLen else if d.pack = 1 then 512 else if d.pack = 2 then elemSize d.efmt else 0

/-- The buffer is whole: it is written out before anything else of the tag. -/
def TagState.full (g : TagState) : Bool :=
  decide (0 < (decodeDesc g.desc).bufSize) && decide ((decodeDesc g.desc).bufSize ≤ g.planeIn)

/-- A tag has a request ready (R248); a checked one moves at most a byte in an enabled cycle. -/
def Tile.ready (x : Tile) (n : Nat) : Bool :=
  let g := x.tag n
  g.st = .active && g.waitPage.isNone && !(x.checkedBefore g) && (decide (g.row < (decodeDesc g.desc).rows) || g.full)
    && ((decodeDesc g.desc).check = 0 || decide (x.cvUntil ≤ x.ecc))

/-- Tags from the one after `n` on, round. -/
def tagsAfter (n : Nat) : List Nat := (List.range 16).map fun i => (n + 1 + i) % 16

/-- The tag whose request issues (R248): ordinary tags in turn, shadow tags only when no ordinary one is ready. [DEDUCED, log entry 43] -/
def Tile.turn (x : Tile) : Option Nat :=
  match (tagsAfter x.lastTag).find? fun n => x.ready n && !(x.tag n).shadow with
  | some n => some n
  | none => (tagsAfter x.lastShadow).find? fun n => x.ready n

/-- A run-time fault of a descriptor (R251): it stops, and the tile faults with the event's payload. -/
def State.moverFault (s : State) (t : TileId) (n code payload : Nat) : State :=
  let g := (s.tile t).tag n
  (s.modTag t n fun h => { h with st := .idle, flying := [], waitPage := none }).tileFault t code .program
    (payload + n * 2 ^ 12 + g.bundle)

/-- Advance a tag past `len` bytes of its row. -/
def TagState.step (g : TagState) (d : Desc) (len : Nat) : TagState :=
  if g.pos + len ≥ d.rowLen then { g with row := g.row + 1, pos := 0 } else { g with pos := g.pos + len }

/-- Elements that a request covers: the first, the last, and those it covers only in part. -/
def Desc.covers (d : Desc) (row pos len : Nat) : Nat × Nat × List Nat :=
  let es := elemSize d.efmt
  let a := row * d.n0 + pos / es
  let b := row * d.n0 + (pos + len - 1) / es
  (a, b, (if pos % es = 0 then [] else [a]) ++ (if (pos + len) % es = 0 then [] else [b]))

/-- The accesses of a request failed: each of its elements counts once, whichever of its requests fail, in the descriptor and in
the tile's counts (R249, R251). [DESIGN CHOICE, log entry 127] -/
def State.failElems (s : State) (t : TileId) (n : Nat) (d : Desc) (row pos len : Nat) : State :=
  if len = 0 then s
  else
    let g := (s.tile t).tag n
    let c := d.covers row pos len
    let seen := (c.2.2.eraseDups.filter fun e => g.failedCut.contains e).length
    let k := c.2.1 + 1 - c.1 - seen
    (s.modTag t n fun h =>
      { h with failed := h.failed + k, failedCut := (h.failedCut ++ c.2.2).eraseDups, noted := true }).modTile t fun x =>
        { x with failedAcc := x.failedAcc + k
                 failedDesc := x.failedDesc + b01 (!g.noted)
                 failedTags := x.failedTags ||| BitVec.ofNat 16 (2 ^ n) }

/-- The check-value configuration of a context block (R518). -/
def ctxConf (c : List Word) : CvConf :=
  let g := fun i => (c.getD i 0).toNat
  cvConf (g 0) (g 2 + g 3 * 2 ^ 32) (g 4 + g 5 * 2 ^ 32) (g 6 + g 7 * 2 ^ 32) (g 8 + g 9 * 2 ^ 32)

/-- Feed the check-value unit of a checked descriptor with source bytes (R250, R520). -/
def State.feedCv (s : State) (t : TileId) (n : Nat) (b : List Byte) : State :=
  if (decodeDesc ((s.tile t).tag n).desc).check = 0 then s
  else s.modTag t n fun h =>
    let c := ctxConf h.cvCtx
    { h with cvR := if c.bad then 0 else cvFeed c h.cvR b }

/-- The source bytes of a request take the check-value unit a cycle each (R248). -/
def Tile.cvMoves (x : Tile) (d : Desc) (len : Nat) : Tile :=
  if d.check = 0 then x else { x with cvUntil := max x.cvUntil x.ecc + len }

/-- The unit reads its context block when the first request issues (R520); whether a word was uncorrectable. -/
def State.startCv (s : State) (t : TileId) (n : Nat) : State × Bool :=
  let g := (s.tile t).tag n
  if (decodeDesc g.desc).check = 0 || g.cvStarted then (s, false)
  else
    let q := s.readLocal t (4 * 0xFFF0) 64 0 6
    if q.2.2 then (q.1, true)
    else
      let ctx := (List.range 16).map fun i => BitVec.ofNat 32 (leNat ((q.2.1.drop (4 * i)).take 4))
      let c := ctxConf ctx
      let r := if c.bad then 0
        else if bit (ctx.getD 0 0).toNat 31 then cvStart c
        else cvSet c ((ctx.getD 10 0).toNat + (ctx.getD 11 0).toNat * 2 ^ 32)
      (q.1.modTag t n fun h => { h with cvStarted := true, cvCtx := ctx, cvR := r }, false)

/-- Bytes come into the tag's buffer at `a`; `pt` is the part of the shape that it collects. -/
def State.collect (s : State) (t : TileId) (n : Nat) (pt : Nat × Nat) (a : Nat) (b : List Byte) : State :=
  s.modTag t n fun h => { h with bufAt := pt, plane := memPut h.plane a b, planeIn := h.planeIn + b.length }

/-- Put the source bytes of a request into a local destination (R239, R241, R242, R244), those of a transposed plane or of a packed
group into the tag's buffer first. A failed read under SCATTER_ACC adds zeros. [DESIGN CHOICE, log entry 128] -/
def State.landLocal (s : State) (t : TileId) (n : Nat) (d : Desc) (row pos ix : Nat) (b : List Byte) : State :=
  let es := elemSize d.efmt
  if d.transpose then s.collect t n (row / d.n1 * d.n1, 0) ((row % d.n1) * d.rowLen + pos) b
  else if d.pack = 2 then s.collect t n (row, pos / es * es) (pos % es) b
  else if d.op = 3 then
    s.accLocal t (addOff (linOf d.dst) (d.dstAt row pos ix) / 4) (wordsOfBytes (b.length / 4) b) d.accInt 0 6
  else s.writeLocal t (addOff (linOf d.dst) (d.dstAt row pos ix)) b 0 6

/-- The tile a TILE address names. -/
def addrTile (a : Nat) : TileId := tileIx (bits a 33 25) (bits a 24 16)

/-- A new request in flight: its sequence number, recorded on the tag. -/
def State.fly (s : State) (t : TileId) (n row pos len ix : Nat) (isRead : Bool) : State × Nat :=
  let q := (s.tile t).reqSeq
  let s := s.modTile t fun x => { x with reqSeq := x.reqSeq + 1 }
  (s.modTag t n fun g => { g with flying := g.flying ++ [{ seqNo := q, row := row, pos := pos, len := len, ix := ix,
                                                            isRead := isRead }] }, q)

/-- Reads of the tag are in flight: a row written at once waits for them, so that writes keep the element order (R165). -/
def TagState.reading (g : TagState) : Bool := g.flying.any fun r => r.isRead

/-- The answer to request `q` of a tag may be taken now: reads are taken in the order of their requests (R165, R250), and not while
the buffer waits to be written out (R241). -/
def State.mayAnswer (s : State) (t : TileId) (n q : Nat) : Bool :=
  let g := (s.tile t).tag n
  match g.flying.find? fun r => r.seqNo = q with
  | none => true
  | some r => !r.isRead || (!g.full && g.flying.all fun h => !h.isRead || decide (q ≤ h.seqNo))

/-- Virtual channel of a request (R183). -/
def reqVc (d : Desc) : Nat := if d.bulk then 3 else 2

/-- What a tiered access finds at page `g` (R245, R246). -/
inductive PageWay where
  | hbm (frame : Nat)
  | cxl (frame : Nat)
  | wait
  | absent
  deriving DecidableEq, Repr

/-- A translated read's way to page `g` for partition `p` (R245). -/
def State.readWay (s : State) (p g : Nat) : PageWay :=
  if !(s.ownsPage p g) then .absent
  else
    match (s.page g).st with
    | .hbm => .hbm (s.page g).frame
    | .pinned => .hbm (s.page g).frame
    | .cxl => .cxl (s.page g).frame
    | .free => .absent
    | _ => .wait

/-- Fail a request's elements: zero bytes are fed and written, and the elements counted (R245, R249, R250). -/
def State.failRead (s : State) (t : TileId) (n : Nat) (d : Desc) (row pos len ix : Nat) : State :=
  let z : List Byte := List.replicate len 0
  ((s.feedCv t n z).landLocal t n d row pos ix z).failElems t n d row pos len

/-- Send a tiered read once its page is known (R245): a page in a move makes the tag wait. -/
def State.readTiered (s : State) (t : TileId) (n p : Nat) (d : Desc) (row pos len ix a : Nat) (pkt : Nat → Packet) : State :=
  let page := a / 2 ^ 19
  let go := fun (st : State) => (st.modTag t n fun g => g.step d len).modTile t fun x => x.cvMoves d len
  match s.readWay p page with
  | .hbm fr =>
    let q := s.fly t n row pos len ix true
    go (q.1.sendToPort t (fr / 2 ^ 17) { pkt q.2 with addr := frameByte (fr % 2 ^ 17) (a % 2 ^ 19), page := page, tiered := true })
  | .cxl fr =>
    let q := s.fly t n row pos len ix true
    go (q.1.sendToUnit t .cxl { pkt q.2 with addr := fr * 2 ^ 19 + a % 2 ^ 19, page := page })
  | .wait => s.modTag t n fun g => { g with waitPage := some page }
  | .absent => if ((s.tile t).tag n).reading then s else go (s.failRead t n d row pos len ix)

/-- Send the read of a remote source (R163, R245, R257). -/
def State.readRemote (s : State) (t : TileId) (n : Nat) (d : Desc) (row pos len ix : Nat) : State :=
  let a := addOff (linOf d.src) (d.srcAt row pos ix)
  let pkt := fun (q : Nat) => ({ kind := .readReq, vc := reqVc d, addr := a, len := len, tag := n, seqNo := q } : Packet)
  let go := fun (st : State) => (st.modTag t n fun g => g.step d len).modTile t fun x => x.cvMoves d len
  match spaceOf d.src with
  | 1 =>
    let q := s.fly t n row pos len ix true
    go (q.1.sendToTile t (addrTile d.src) (pkt q.2))
  | 3 =>
    let q := s.fly t n row pos len ix true
    go (q.1.sendToPort t (bits d.src 39 36) (pkt q.2))
  | _ =>
    match s.partOf t with
    | none => s
    | some p => s.readTiered t n p d row pos len ix a pkt

/-- The requests of a move's copy (R267): bytes 0 to CFILL * 256 - 1 in ascending 256-byte requests, on VC3 of the frame's memory
port or through the partition's CXL engine. -/
def State.moveRequest (s : State) (p : Nat) (m : Move) (fr i : Nat) : State :=
  if m.demote then
    s.tierToPort (fr / 2 ^ 17) { kind := .tiering, vc := 3, addr := frameByte (fr % 2 ^ 17) (256 * i), len := 256, tag := m.tag
                                 seqNo := i, page := m.page }
  else
    { s with uio := s.uio ++ [{ part := p, frame := fr, page := m.page, off := 256 * i, tile := s.tierTile (m.dest / 2 ^ 17)
                                tag := m.tag, seqNo := i, len := 256, vc := 3, move := true }] }

/-- A move begins (R265, R267, R272): the destination reserved, then its requests. -/
def State.beginMove (s : State) (p g : Nat) (demote forAppend : Bool) : State :=
  let n := (s.part p).moves.length
  let s := s.startMove p g demote forAppend
  match (s.part p).moves.drop n with
  | [] => s
  | m :: _ => each (List.range m.sent) (fun i st => st.moveRequest p m (s.page g).frame i) s

/-- Promotion of a page for a waiting append (R266, R272): at once, or queued while 64 moves of the partition are in flight. -/
def State.promoteForAppend (s : State) (p page : Nat) : State :=
  if (s.part p).moves.length < 64 then s.beginMove p page false true
  else if (s.part p).moveQueue.any fun m => m.1 = page && !m.2.1 && m.2.2 then s
  else s.modPart p fun q => { q with moveQueue := q.moveQueue ++ [(page, false, true)] }

/-- An append's way to page `page` (R32, R246, R266, R269): faults, a wait for the tiering unit, or the frame of the page, which is
pinned in HBM from then on. The fill is
tested for each request. [DESIGN CHOICE, log entry 129] -/
def State.appendWay (s : State) (t : TileId) (n : Nat) (d : Desc) (p page off len : Nat) : State × Option Nat :=
  let pg := s.page page
  if !(s.ownsPage p page) || pg.owner ≠ d.auxVal % 2 ^ 15 then (s.moverFault t n 0x022F (page * 2 ^ 42), none)
  else if off < pg.cfill * 256 then (s.moverFault t n 0x022F (page * 2 ^ 42 + 2 ^ 40), none)
  else
    let tf := max pg.tfill ((off + len + 255) / 256)
    match pg.st with
    | .pinned => (s.modPage page fun g => { g with tfill := tf }, some pg.frame)
    | .hbm =>
      if (s.pagesIn p .pinned).length ≥ 4096 * (s.part p).stripeCount then
        (s.moverFault t n 0x0235 (page * 2 ^ 42), none)
      else (s.modPage page fun g => { g with tfill := tf, st := .pinned }, some pg.frame)
    | .cxl => ((s.promoteForAppend p page).modTag t n fun g => { g with waitPage := some page }, none)
    | _ => (s.modTag t n fun g => { g with waitPage := some page }, none)

/-- Where the bytes of a request go (R237): a remote scratchpad, a neighbour link, a memory port with the address there, or the
frame of a pinned page, whose fill was `fill` before. -/
inductive SendWay where
  | tile (u : TileId) (addr : Nat)
  | link (dir addr : Nat)
  | port (m addr : Nat)
  | append (page frame off fill : Nat)
  deriving DecidableEq, Repr

/-- The way of `len` bytes at destination offset `off` (R237, R246): none while an append waits, and none once it faults. -/
def State.sendWay (s : State) (t : TileId) (n : Nat) (d : Desc) (off : Int) (len : Nat) : State × Option SendWay :=
  let a := addOff (linOf d.dst) off
  match spaceOf d.dst with
  | 1 => (s, some (.tile (addrTile d.dst) a))
  | 2 => (s, some (.link (bits d.dst 19 18) a))
  | 3 => (s, some (.port (bits d.dst 39 36) a))
  | _ =>
    match s.partOf t with
    | none => (s, none)
    | some p =>
      let q := s.appendWay t n d p (a / 2 ^ 19) (a % 2 ^ 19) len
      (q.1, q.2.map fun f => .append (a / 2 ^ 19) f (a % 2 ^ 19) (s.page (a / 2 ^ 19)).tfill)

/-- Send the bytes of a request on their way (R179, R183, R246). -/
def State.sendBytes (s : State) (t : TileId) (n : Nat) (d : Desc) (row pos ix : Nat) (way : SendWay) (b : List Byte) : State :=
  let q := s.fly t n row pos b.length ix false
  let pkt := fun (a : Nat) =>
    ({ kind := if d.op = 3 then .accWrite else .write, vc := reqVc d, addr := a, len := b.length, data := b, tag := n
       seqNo := q.2, flits := flitsOf b.length, acc := b01 d.accInt } : Packet)
  match way with
  | .tile u a => q.1.sendToTile t u (pkt a)
  | .link dir a => q.1.modTile t fun x => { x with out := tset x.out dir (tget [] x.out dir ++ [.write a b n q.2]) }
  | .port m a => q.1.sendToPort t m (pkt a)
  | .append g f off fill =>
    q.1.sendToPort t (f / 2 ^ 17) { pkt (frameByte (f % 2 ^ 17) off) with page := g, tiered := true, fill := fill }

/-- Read the index of a row from the list at AUX_ADDR, once for the requests of the row (R240). -/
def State.indexOf (s : State) (t : TileId) (n : Nat) (d : Desc) (row : Nat) : State × IndexWay :=
  if !d.indexed then (s, .ix (row % d.n1))
  else
    match ((s.tile t).tag n).rowIx.filter fun r => r.1 = row with
    | some r => (s, r.2)
    | none =>
      let k := if d.idx32 then 4 else 2
      let e := row % d.n1
      let q := s.readLocal t (d.aux + k * e) k 0 6
      let v := leNat q.2.1
      let w : IndexWay := if q.2.2 then .failed
        else if v = 2 ^ (8 * k) - 1 then .skip else if v ≥ d.auxVal then .bad v e else .ix v
      (q.1.modTag t n fun h => { h with rowIx := some (row, w) }, w)

/-- The source bytes of a local request, fed to the check-value unit (R250); the last part says whether a word was uncorrectable. -/
def State.localSource (s : State) (t : TileId) (n : Nat) (d : Desc) (row pos len ix : Nat) : State × List Byte × Bool :=
  let q := s.readLocal t (addOff (linOf d.src) (d.srcAt row pos ix)) len 0 6
  if q.2.2 then q else (q.1.feedCv t n q.2.1, q.2)

/-- One request into the lane-form buffer of a packed group (R242): lane bytes, and with the last of them the four scales. -/
def State.fillLanes (s : State) (t : TileId) (n : Nat) (d : Desc) (row pos : Nat) : State :=
  let g := (s.tile t).tag n
  let grp := pos / elemSize d.efmt
  let a := addOff (linOf d.src) (d.srcAt row (grp * 512 + g.planeIn) (row % d.n1))
  let len := reqLen (512 - g.planeIn) a 0
  let q := s.readLocal t a len 0 6
  if q.2.2 then q.1
  else
    let s := ((q.1.feedCv t n q.2.1).collect t n (row, pos) g.planeIn q.2.1).modTile t fun x => x.cvMoves d len
    if g.planeIn + len < 512 then s
    else
      let c := s.readLocal t (d.aux + 16 * (row * d.n0 + grp)) 16 0 6
      if c.2.2 then c.1
      else (c.1.modTag t n fun h => { h with plane := memPut h.plane 512 c.2.1 }).modTag t n fun h => h.step d (elemSize d.efmt)

/-- One request from the local scratchpad: its destination's way is found first, then its bytes are read and go; under TRANSPOSE or
PACK they go into the buffer. -/
def State.pushPiece (s : State) (t : TileId) (n : Nat) (d : Desc) (row pos len ix : Nat) : State :=
  let go := fun (st : State) => (st.modTag t n fun h => h.step d len).modTile t fun x => x.cvMoves d len
  if d.pack = 1 then s.fillLanes t n d row pos
  else if spaceOf d.dst = 0 || d.transpose then
    let r := s.localSource t n d row pos len ix
    if r.2.2 then r.1 else go (r.1.landLocal t n d row pos ix r.2.1)
  else
    let q := s.sendWay t n d (d.dstAt row pos ix) len
    match q.2 with
    | none => q.1
    | some way =>
      let r := q.1.localSource t n d row pos len ix
      if r.2.2 then r.1 else go (r.1.sendBytes t n d row pos ix way r.2.1)

/-- Bytes that a full buffer writes out, and of them the bytes of one request from `k` on: the place in the row its failures count
at, its destination offset, and the bytes (R241, R242, R248): an element of a plane, a run of lane words, a run of a storage
group. -/
def TagState.bufPiece (g : TagState) (d : Desc) : Nat × Nat × Int × List Byte :=
  let es := elemSize d.efmt
  let r := g.bufAt.1
  let p := g.bufAt.2
  let k := g.planeOut
  if d.transpose then
    let i1 := k / (d.n0 * es)
    let i0 := k / es % d.n0
    (r + i1, i0 * es, d.trAt (r + i1) i0, memBytes g.plane (i1 * d.rowLen + i0 * es) es)
  else if d.pack = 2 then
    let o := d.dstAt r (p / es * 512 + k) (r % d.n1)
    let lanes := (unpackGroup d.efmt (memBytes g.plane 0 es)).flatMap fun w => leBytes 4 w.toNat
    (r, p, o, (lanes.drop k).take (reqLen (512 - k) (addOff (linOf d.dst) o) 0))
  else
    let o := d.dstAt r (p + k) (r % d.n1)
    let grp := packGroup d.efmt (wordsOfBytes 128 (memBytes g.plane 0 512))
      ((wordsOfBytes 4 (memBytes g.plane 512 16)).map fun w => w.toNat % 256)
    (r, p + k, o, (grp.drop k).take (reqLen (es - k) (addOff (linOf d.dst) o) 0))

/-- Bytes that the buffer writes out. -/
def Desc.bufOut (d : Desc) : Nat :=
  if d.transpose then d.n1 * d.rowLen else if d.pack = 2 then 512 else elemSize d.efmt

/-- The buffer has written `len` more bytes: with the last it is empty. -/
def TagState.bufStep (g : TagState) (d : Desc) (len : Nat) : TagState :=
  if g.planeOut + len < d.bufOut then { g with planeOut := g.planeOut + len }
  else { g with plane := [], planeIn := 0, planeOut := 0 }

/-- The four scales of an unpacked group follow its last lane words (R242). -/
def State.putScales (s : State) (t : TileId) (d : Desc) (g : TagState) (len : Nat) : State :=
  if d.pack = 2 && decide (d.bufOut ≤ g.planeOut + len) then
    s.writeLocal t (d.aux + 16 * (g.bufAt.1 * d.n0 + g.bufAt.2 / elemSize d.efmt))
      ((groupScales d.efmt (memBytes g.plane 0 (elemSize d.efmt))).flatMap fun v => leBytes 4 v) 0 6
  else s

/-- One request out of a full buffer (R241, R242, R248). -/
def State.emptyBuf (s : State) (t : TileId) (n : Nat) (d : Desc) : State :=
  let g := (s.tile t).tag n
  let b := g.bufPiece d
  let len := b.2.2.2.length
  if spaceOf d.dst = 0 then
    ((s.writeLocal t (addOff (linOf d.dst) b.2.2.1) b.2.2.2 0 6).putScales t d g len).modTag t n fun h => h.bufStep d len
  else
    let q := s.sendWay t n d b.2.2.1 len
    match q.2 with
    | none => q.1
    | some way => (q.1.sendBytes t n d b.1 b.2.1 0 way b.2.2.2).modTag t n fun h => h.bufStep d len

/-- The part of a skipped row that the next request takes (R240): GATHER writes zeros, the others write nothing. -/
def State.skipPiece (s : State) (t : TileId) (n : Nat) (d : Desc) : State :=
  let g := (s.tile t).tag n
  if d.op ≠ 1 then s.modTag t n fun h => { h with row := h.row + 1, pos := 0 }
  else if g.reading then s
  else
    let len := reqLen (d.rowLen - g.pos) 0 (addOff (linOf d.dst) (d.dstAt g.row g.pos 0))
    let z : List Byte := List.replicate len 0
    if spaceOf d.dst = 0 then (s.landLocal t n d g.row g.pos 0 z).modTag t n fun h => h.step d len
    else
      let q := s.sendWay t n d (d.dstAt g.row g.pos 0) len
      match q.2 with
      | none => q.1
      | some way => (q.1.sendBytes t n d g.row g.pos 0 way z).modTag t n fun h => h.step d len

/-- Bytes of the next request (R248): where the buffer stands between, only the source's boundaries cut it. [DEDUCED, log entry 43] -/
def Desc.pieceLen (d : Desc) (row pos ix : Nat) : Nat :=
  let es := elemSize d.efmt
  let sa := addOff (linOf d.src) (d.srcAt row pos ix)
  let da := addOff (linOf d.dst) (d.dstAt row pos ix)
  if d.pack = 2 then reqLen (es - pos % es) sa 0
  else if d.transpose then reqLen (d.rowLen - pos) sa 0
  else reqLen (d.rowLen - pos) sa da

/-- The next request of tag `n` (R248): a full buffer is written out; else context, index, source, destination. A bad index stops the
descriptor once the rows before it are written (R240). [DEDUCED, log entry 42] -/
def State.moverStep (s : State) (t : TileId) (n : Nat) : State :=
  let c := s.startCv t n
  if c.2 then c.1
  else
    let g := (c.1.tile t).tag n
    let d := decodeDesc g.desc
    if g.full then c.1.emptyBuf t n d
    else
      let i := c.1.indexOf t n d g.row
      match i.2 with
      | .failed => i.1
      | .bad v e => if g.flying.isEmpty then i.1.moverFault t n 0x0232 (v * 2 ^ 32 + e * 2 ^ 16) else i.1
      | .skip => i.1.skipPiece t n d
      | .ix ix =>
        let len := d.pieceLen g.row g.pos ix
        if spaceOf d.src ≠ 0 then i.1.readRemote t n d g.row g.pos len ix else i.1.pushPiece t n d g.row g.pos len ix

/-- Finish a request: it leaves the tag's flight. -/
def TagState.done (g : TagState) (q : Nat) : TagState := { g with flying := g.flying.filter fun r => r.seqNo ≠ q }

/-- An answer to request `q` of tag `n` (R249): data written locally, or a write acknowledged; failures counted. -/
def State.moverAnswer (s : State) (t : TileId) (n q : Nat) (data : List Byte) (failed : Bool) : State :=
  let g := (s.tile t).tag n
  match g.flying.find? fun r => r.seqNo = q with
  | none => s
  | some r =>
    let d := decodeDesc g.desc
    let s := s.modTag t n fun h => h.done q
    let s := if failed then s.failElems t n d r.row r.pos r.len else s
    if !r.isRead then s
    else
      let data := if failed then List.replicate r.len 0 else data
      (s.feedCv t n data).landLocal t n d r.row r.pos r.ix data

/-- Words of a shadow descriptor's destination range, the scales of an unpacking one and its completion word included
(R143, R242, R247).
[DEDUCED, log entry 155] -/
def destWords (d : Desc) : List Nat :=
  let e := d.extent true
  let lo := addOff (linOf d.dst) e.1 / 4
  let hi := (addOff (linOf d.dst) e.2 + 3) / 4
  let lanes := ((List.range (hi - lo)).map fun i => lo + i).filter fun w => (List.range 4).any fun i =>
    reachable d.esD (d.terms true) ((4 * w + i : Nat) - (linOf d.dst : Int))
  let scales := if d.pack = 2 then wordsOf d.aux (16 * (d.n0 * d.rows)) else []
  lanes ++ (scales.filter fun w => !(lanes.contains w)) ++ (if d.comp then [d.compWord] else [])

/-! What a shadow descriptor fetches (R143) -/

/-- Completion word (R249). -/
def compValue (failed : Nat) (miss : Bool) : Word :=
  BitVec.ofNat 32 (2 ^ 31 + (b01 (decide (failed > 0)) + 2 * b01 miss) * 2 ^ 28 + sat failed 0xFFFFFFF)

/-- Bytes of a scratchpad as they stand. -/
def Tile.peek (x : Tile) (a n : Nat) : List Byte :=
  ((((wordsOf a n).flatMap fun w => leBytes 4 (wordAt x.memNow w).toNat).drop (a % 4))).take n

/-- A byte of tiered space as a read finds it, 0 where it fails, in a move, or beyond the fill (R245). -/
def State.peekTiered (s : State) (p b : Nat) : Byte :=
  if (s.page (b / 2 ^ 19)).tfill * 256 ≤ b % 2 ^ 19 then 0
  else match s.readWay p (b / 2 ^ 19) with
    | .hbm f => (memBytes s.hbm (hbmAddr (f / 2 ^ 17) (frameByte (f % 2 ^ 17) (b % 2 ^ 19))) 1).headD 0
    | .cxl f => (memBytes s.cxl (cxlAddr f (b % 2 ^ 19)) 1).headD 0
    | _ => 0

/-- The bytes a descriptor reads at source offset `o`, as they stand. -/
def State.peekSrc (s : State) (t : TileId) (d : Desc) (o : Int) (n : Nat) : List Byte :=
  let a := addOff (linOf d.src) o
  match spaceOf d.src with
  | 0 => (s.tile t).peek a n
  | 1 => (s.tile (addrTile d.src)).peek a n
  | 3 => memBytes s.hbm (hbmAddr (bits d.src 39 36) a) n
  | _ => match s.partOf t with
    | none => List.replicate n 0
    | some p => (List.range n).map fun i => s.peekTiered p (a + i)

/-- The index of a row, none where it is skipped (R240). -/
def Tile.peekIx (x : Tile) (d : Desc) (row : Nat) : Option Nat :=
  if d.indexed then
    let k := if d.idx32 then 4 else 2
    let v := leNat (x.peek (d.aux + k * (row % d.n1)) k)
    if v = 2 ^ (8 * k) - 1 then none else some v
  else some (row % d.n1)

/-- Element `i0` of a row as it comes into the scratchpad, put over `m` (R239, R241, R242). -/
def State.peekElem (s : State) (t : TileId) (d : Desc) (row i0 : Nat) (m : List Host.Cell) : List Host.Cell :=
  let es := elemSize d.efmt
  let src := match (s.tile t).peekIx d row with
    | none => List.replicate d.esS 0
    | some ix => s.peekSrc t d (d.srcAt row (i0 * d.esS) ix) d.esS
  let grp := row * d.n0 + i0
  let at' := addOff (linOf d.dst) (if d.transpose then d.trAt row i0 else d.dstAt row (i0 * d.esD) (row % d.n1))
  if d.pack = 2 then
    memPut (memPut m at' ((unpackGroup d.efmt src).flatMap fun w => leBytes 4 w.toNat)) (d.aux + 16 * grp)
      ((groupScales d.efmt src).flatMap fun v => leBytes 4 v)
  else if d.pack = 1 then
    memPut m at' (packGroup d.efmt (wordsOfBytes 128 src)
      ((wordsOfBytes 4 ((s.tile t).peek (d.aux + 16 * grp) 16)).map fun w => w.toNat % 256))
  else memPut m at' (src.take es)

/-- The scratchpad of a tile with all that a shadow descriptor fetches written over it, its completion word too (R143). -/
def State.wouldFetch (s : State) (t : TileId) (g : TagState) : List Host.Cell :=
  let d := decodeDesc g.desc
  let m := (List.range d.rows).foldl (fun m row => (List.range d.n0).foldl (fun m i0 => s.peekElem t d row i0 m) m) (s.tile t).mem
  if d.comp then putWord m d.compWord (compValue g.failed false) else m

/-- Discard a shadow tag (R143, R145): each word of its range holds the value before or the value fetched, not fixed which; where
its fetch had not been written, the value fetched is what the source holds. [DESIGN CHOICE, log entry 8] -/
def State.discardTag (s : State) (t : TileId) (n : Nat) : State :=
  let g := (s.tile t).tag n
  let c := s.freeCtr
  let m := s.wouldFetch t g
  let s := s.used (g.before.length + 1)
  let s := ((List.range g.before.length).zip g.before).foldl (fun st p =>
    let cur := wordAt (st.tile t).mem p.2.1
    let fetched := if g.st = .landed || cur ≠ p.2.2 then cur else wordAt m p.2.1
    st.modTile t fun x => x.writeWord p.2.1 (if Config.freeBit (c + p.1) then p.2.2 else fetched)) s
  (s.modTag t n fun _ => {}).modTile t fun x => { x with mvBusy := none }

end Sys2Proof.Machine
end

