-- ==== Sys2Proof/Machine/Weights.lean ====
section
/-!
DEFINITION. Weights and activations of the array pair: format codes (R129), the plain layout (R69), panels and their checks
(spec/04_sparse_weights.md R93 to R107), activation rows (R81, R87), block times (R82, R105, R106), and the exact block
accumulation (R48 to R54, R73).
-/

namespace Sys2Proof.Machine

/-- Element format of a WFMT or AFMT code (R129). -/
def fmtOf (code : Nat) : EFmt :=
  match code with
  | 0 => .e4m3
  | 1 => .e5m2
  | 2 => .e4m3
  | 3 => .e5m2
  | 4 => .e3m2
  | 5 => .e2m3
  | 6 => .e2m1
  | 7 => .mxint8
  | 8 => .int8
  | 9 => .bf16
  | n => if n = 10 then .e4m3 else if n = 11 then .e5m2 else if n = 12 then .e3m2 else if n = 13 then .e2m3
         else if n = 14 then .e2m1 else .mxint8

/-- The code names an MX format (R129). -/
def isMx (code : Nat) : Bool := decide (2 ≤ code) && decide (code ≠ 8) && decide (code ≠ 9)

/-- Element width in bits. -/
def widthOf (f : EFmt) : Nat :=
  match f with
  | .e3m2 => 6
  | .e2m3 => 6
  | .e2m1 => 4
  | .bf16 => 16
  | _ => 8

/-- A permitted pairing of R47; none for a reserved AFMT. -/
def pairOk (wfmt afmt : Nat) : Bool :=
  decide (afmt ≤ 9) && (if wfmt = 8 then afmt = 8 else if wfmt = 9 then afmt = 9 else decide (afmt ≤ 7))

/-- Storage-group code (EFMT of R238) of an MX width. -/
def groupFmt (width : Nat) : Nat :=
  match width with
  | 8 => 3
  | 6 => 4
  | _ => 5

/-- Bytes a column contributes to a group row (R69). -/
def unitBytes (wfmt : Nat) : Nat :=
  let w := widthOf (fmtOf wfmt)
  if isMx wfmt then elemSize (groupFmt w) else 16 * w

/-- Length of a padded group row of C columns (R69). -/
def plainRow (wfmt c : Nat) : Nat := (c * unitBytes wfmt + 255) / 256 * 256

/-- Columns of the operation's group (R78): mode 0 WS1, 1 WS4, 2 SQ16. -/
def columnsOf (mode : Nat) : Nat :=
  match mode with
  | 0 => 256
  | 1 => 64
  | _ => 16

/-- Bytes of block `j mod 4` in a column's unit: offset of the scale (if any), offset and length of the data (R39, R69). -/
def blockSpan (code j : Nat) : Nat × Nat :=
  let w := widthOf (fmtOf code)
  if isMx code then (groupDataAt (groupFmt w) (j % 4), 4 * w) else (4 * w * (j % 4), 4 * w)

/-- A sliver of a panel (R94 to R97): `kept` lists the K-elements it stores, ascending. -/
structure Sliver where
  code : Nat
  scale : Nat
  elems : List Nat
  kept : List Nat
  bond : Nat
  bad : Bool
  len : Nat
  deriving DecidableEq, Repr

/-- Bytes of a list of `p` elements (R95). -/
def listBytes (w p : Nat) : Nat :=
  match w with
  | 8 => p
  | 6 => 3 * ((p + 3) / 4)
  | 16 => 2 * p
  | _ => (p + 1) / 2

/-- K-elements a sliver body stores, in the order of its list (R95 to R97). -/
def keptOf (code : Nat) (b : List Byte) : List Nat :=
  match code with
  | 0 => []
  | 1 => List.range 32
  | 2 => (List.range 16).map fun v => 4 * (v / 2) + leNat (b.take 4) / 2 ^ (2 * v) % 4
  | _ => (List.range 32).filter (bit (leNat (b.take 4)))

/-- The place of K-element `k` in a sliver's list. -/
def placeOf (kept : List Nat) (k : Nat) : Option Nat := (List.range kept.length).find? fun i => kept[i]? = some k

/-- Parse the body of a sliver (R94 to R97): `b` is the body's bytes on. A weight not stored is +0 (R100). -/
def parseSliver (w code : Nat) (b : List Byte) : Sliver :=
  let kept := keptOf code b
  let l := b.drop (match code with
    | 1 => 0
    | 2 => 4
    | _ => 5)
  let ctl := (b.getD 4 0).toNat
  { code := code, kept := kept
    scale := if code = 0 then 127 else 0
    elems := (List.range 32).map fun k => ((placeOf kept k).map (unpackElem w l)).getD 0
    bond := if code = 3 then ctl % 4 else 0
    bad := match code with
      | 2 => (List.range 8).any fun g => decide (kept.getD (2 * g) 0 ≥ kept.getD (2 * g + 1) 0)
      | 3 => ctl % 4 = 3 || decide (ctl / 4 ≠ 0)
      | _ => false
    len := match code with
      | 0 => 0
      | 1 => 4 * w
      | 2 => 4 + 2 * w
      | _ => (5 + listBytes w kept.length + 3) / 4 * 4 }

/-- Slivers of a panel from its bodies on, taking scales in order (R93). -/
def parseBodies (w : Nat) : List Nat → List Byte → List Byte → List Sliver
  | [], _, _ => []
  | c :: r, scales, b =>
    let v := parseSliver w c b
    if c = 0 then v :: parseBodies w r scales b
    else { v with scale := (scales.headD 0).toNat } :: parseBodies w r (scales.drop 1) (b.drop v.len)

/-- A panel: its 16 slivers and its length (R93). -/
def parsePanel (w : Nat) (b : List Byte) : List Sliver × Nat :=
  let h := leNat (b.take 4)
  let codes := (List.range 16).map fun n => h / 2 ^ (2 * n) % 4
  let q := (codes.filter (· ≠ 0)).length
  let sl := (q + 3) / 4 * 4
  let v := parseBodies w codes (b.drop 4) (b.drop (4 + sl))
  (v, 4 + sl + v.foldl (fun n x => n + x.len) 0)

/-- Panels of a row, each directly after the one before (R99). -/
def parseRow (w : Nat) : Nat → List Byte → List (List Sliver) × Nat
  | 0, _ => ([], 0)
  | k + 1, b =>
    let (p, n) := parsePanel w b
    let (r, m) := parseRow w k (b.drop n)
    (p :: r, n + m)

/-- Columns a bond code spans. -/
def bondWidth (b : Nat) : Nat := if b = 1 then 2 else if b = 2 then 4 else 1

/-- A panel's bonds are valid (R98). -/
def bondsOk (p : List Sliver) : Bool :=
  ((List.range 16).zip p).all fun x =>
    let w := bondWidth x.2.bond
    w = 1 || (x.1 % w = 0 && (List.range (w - 1)).all fun i =>
      match p[x.1 + 1 + i]? with
      | none => false
      | some m => m.code = 0 || (m.code = 3 && m.bond = 0))

/-- A panel row breaks R107. -/
def rowBad (wfmt start : Nat) (row : List (List Sliver)) (len : Nat) : Bool :=
  row.any (fun p => p.any (·.bad) || !(bondsOk p)
    || ((wfmt = 8 || wfmt = 9) && p.any fun v => decide (v.code ≠ 0) && decide (v.scale ≠ 127)))
  || decide (start + (len + 255) / 256 * 256 > 262144)

/-- Element rate r in quarters (R70): 8 for r = 2, 4 for r = 1, 1 for BF16. -/
def rateQ (wfmt : Nat) : Nat := if fmtOf wfmt = .e2m1 then 8 else if wfmt = 9 then 1 else 4

/-- ceil(h / r) in cc. -/
def stepsOf (wfmt h : Nat) : Nat := (4 * h + rateQ wfmt - 1) / rateQ wfmt

/-- Loads h_G of a panel's column groups (R105). -/
def panelLoads (p : List Sliver) : List Nat :=
  ((List.range 16).zip p).filterMap fun x =>
    let w := bondWidth x.2.bond
    let inBond := (List.range 16).any fun a =>
      match p[a]? with
      | some v => decide (bondWidth v.bond > 1) && decide (a < x.1) && decide (x.1 < a + bondWidth v.bond)
      | none => false
    if inBond then none
    else
      let total := ((List.range w).map fun i => ((p[x.1 + i]?).map (·.kept.length)).getD 0).foldl (· + ·) 0
      some ((total + w - 1) / w)

/-- Element steps of a panel row in a WS mode, in cc (R105). -/
def panelSteps (wfmt : Nat) (row : List (List Sliver)) : Nat :=
  ((row.flatMap panelLoads).map (stepsOf wfmt)).foldl max (16 / rateQ wfmt)

/-- Time of a panel row in a WS mode (R106). -/
def panelTime (wfmt : Nat) (row : List (List Sliver)) (len : Nat) : Nat := max (panelSteps wfmt row) ((len + 255) / 256)

/-- Time of a dense block in a WS mode (R82). -/
def denseTime (wfmt c : Nat) : Nat :=
  max (stepsOf wfmt 32) ((c * (4 * widthOf (fmtOf wfmt) + b01 (isMx wfmt)) + 255) / 256)

/-! Exact block accumulation -/

/-- Units of an entry's partial: 2^-340, fine enough for every product and truncation of R48 and R53. -/
def accUnit : Int := 340

/-- A finite product in units of 2^-340. -/
def toUnits (v : FVal) : Int :=
  match v with
  | .fin n s e => signed n s * 2 ^ (e + accUnit).toNat
  | _ => 0

/-- The products of one block, or half block. -/
def productsOf (wf af : EFmt) (w a : List Nat) : List FVal :=
  (w.zip a).map fun p => mulVal (decodeElem wf p.1) (decodeElem af p.2)

/-- Truncate toward zero to a multiple of 2^k units. -/
def truncUnits (i : Int) (k : Nat) : Int := (i.natAbs / 2 ^ k * 2 ^ k : Nat) * (if i < 0 then -1 else 1)

/-- The exact sum of a block's products (R48, R53). -/
def blockSum (bf : Bool) (ps : List FVal) : Int :=
  if bf then
    match (ps.map floorLog2).foldl maxOpt none with
    | none => 0
    | some e => ps.foldl (fun n v => n + truncUnits (toUnits v) (e - 72 + accUnit).toNat) 0
  else ps.foldl (fun n v => n + toUnits v) 0

/-- Add a block's or half block's products to an entry (R48, R49, R54). A BF16 product is truncated by the largest of its whole
block (R53), so the products of a half stand with the entry until the block is complete. -/
def AccEntry.addProducts (e : AccEntry) (bf : Bool) (ps : List FVal) : AccEntry :=
  { e with
    part := if bf then blockSum true (e.held ++ ps) else e.part + blockSum false ps
    held := if bf then e.held ++ ps else []
    nan := e.nan || ps.any (· == .nan)
    posInf := e.posInf || ps.any (· == .inf false)
    negInf := e.negInf || ps.any (· == .inf true) }

/-- The block result (R49, R50): scale codes a and w, one rounding. -/
def AccEntry.result (e : AccEntry) (a w : Nat) : Word :=
  if e.nan || a = 255 || w = 255 || (e.posInf && e.negInf) then nan32
  else if e.posInf then inf32 false
  else if e.negInf then inf32 true
  else roundFp32 (e.part < 0) e.part.natAbs ((a : Int) + w - 254 - accUnit)

/-- What a completed block adds to the running sum (R50, R52): the rounded result, or the exact INT32 block sum. -/
def AccEntry.blockResult (e : AccEntry) (int8 : Bool) (a w : Nat) : Word :=
  if int8 then BitVec.ofInt 32 (e.part / 2 ^ accUnit.toNat) else e.result a w

end Sys2Proof.Machine
end

