-- ==== Sys2Proof/Machine/ArrayPair.lean ====
section
/-!
DEFINITION. The array pair at work (spec/03_tile_arrays.md R67 to R89, spec/04_sparse_weights.md R99 to R109,
spec/06_scratchpad_queues.md R153, R155, R543): the cycles of a running ARR.RUN, the bytes its weight bus and activation
streams read in each of them, and the block results that join the running sums.
-/

namespace Sys2Proof.Machine

/-! Shape of an operation -/

/-- Length unit of SQ16 cycles: 4 with BF16 weights (R86). -/
def ArrRun.sq (r : ArrRun) : Nat := if r.wfmt = 9 then 4 else 1

/-- Cycles from one pass to the next (R86). -/
def ArrRun.gap (r : ArrRun) : Nat := r.sq * max r.rowsA 4

/-- Cycles of a pass until its last output has left row 15 (R85). -/
def ArrRun.span (r : ArrRun) : Nat := r.sq * (r.rowsA + 30)

/-- Passes cover half a K-block each (R84). -/
def ArrRun.halves (r : ArrRun) : Bool := decide (r.mode = 2) && rateQ r.wfmt ≠ 8

/-- K-block of block or pass `p` (R84). -/
def ArrRun.blockOf (r : ArrRun) (p : Nat) : Nat := if r.halves then p / 2 else p

/-- Half of the K-block a pass covers: none where it covers the whole of it (R84). -/
def ArrRun.halfOf (r : ArrRun) (p : Nat) : Option Nat := if r.halves then some (p % 2) else none

/-- K-blocks of the run (R84). -/
def ArrRun.blocks (r : ArrRun) : Nat := if r.halves then (r.runLen + 1) / 2 else r.runLen

/-- Token rows in use, as (array, row). -/
def ArrRun.rowKeys (r : ArrRun) : List (Nat × Nat) :=
  (List.range r.rowsA).map (fun i => (0, i)) ++ (List.range r.rowsB).map fun i => (1, i)

/-- Accumulator entry of output (row, n) of an array (R78), under array * 1024 + entry. -/
def ArrRun.entryOf (r : ArrRun) (array row n : Nat) : Nat := array * 1024 + r.accBase + columnsOf r.mode * row + n

/-- First element and number of elements that a block or a half takes. -/
def halfSpan (half : Option Nat) : Nat × Nat :=
  match half with
  | none => (0, 32)
  | some h => (16 * h, 16)

/-! The bytes read -/

/-- Bytes a column's block or half takes: scale byte, then data (R68, R69, R82). -/
def columnBytes (code : Nat) (half : Option Nat) : Nat := b01 (isMx code) + (halfSpan half).2 * widthOf (fmtOf code) / 8

/-- Addresses of the scale byte and of the data of block `j`, or its half, in a unit at `base` (R39, R69, R87). -/
def blockAddrs (code base j : Nat) (half : Option Nat) : List Nat :=
  let w := widthOf (fmtOf code)
  let h := halfSpan half
  (if isMx code then [base + groupScaleAt (groupFmt w) (j % 4)] else [])
    ++ (List.range (h.2 * w / 8)).map fun i => base + (blockSpan code j).1 + h.1 * w / 8 + i

/-- The elements that such bytes hold; in formats without a scale the scale is 1 (R39, R40). -/
def blockFrom (code : Nat) (half : Option Nat) (b : List Byte) : WBlock :=
  { scale := if isMx code then (b.headD 0).toNat else 127
    elems := (List.range (halfSpan half).2).map (unpackElem (widthOf (fmtOf code)) (b.drop (b01 (isMx code)))) }

/-- Addresses the weight bus reads for block or pass `p`, in the order it reads them. [DESIGN CHOICE, log entry 41] -/
def ArrRun.loadAddrs (r : ArrRun) (p : Nat) (l : BusLoad) : List Nat :=
  if r.panel then (List.range l.len).map (l.addr + ·)
  else
    let j := r.blockOf p
    (List.range (columnsOf r.mode)).flatMap fun n =>
      blockAddrs r.wfmt (r.waddr + j / 4 * plainRow r.wfmt (columnsOf r.mode) + n * unitBytes r.wfmt) j (r.halfOf p)

/-- Read bytes of the scratchpad by address, each word checked once (R159). -/
def State.readBytes (s : State) (t : TileId) (l : List Nat) (req : Nat) : State × List Byte × Bool :=
  let ws := (l.map (· / 4)).eraseDups
  let (s1, vs, bad) := s.readWords t (s.tile t).readNow ws
  let b := l.map fun a => BitVec.ofNat 8 ((((ws.zip vs).lookup (a / 4)).getD 0).toNat / 2 ^ (8 * (a % 4)))
  match bad with
  | some w => (s1.spFault t 0 req w, b, true)
  | none => (s1, b, false)

/-- Slivers of the panel row in a byte string, and its length (R93, R99). -/
def ArrRun.parse (r : ArrRun) (b : List Byte) : List (List Sliver) × Nat :=
  parseRow (widthOf (fmtOf r.wfmt)) (columnsOf r.mode / 16) b

/-- The next panel row as it stands in memory, and whether it breaks R107. -/
def State.panelRow (s : State) (t : TileId) (r : ArrRun) : List (List Sliver) × Nat × Bool :=
  let p := r.parse (memBytes (s.tile t).memNow r.rowAddr 19200)
  (p.1, p.2, rowBad r.wfmt r.rowAddr p.1 p.2)

/-- A sliver as the weights of a block or half (R100). -/
def Sliver.block (v : Sliver) (half : Option Nat) : WBlock :=
  { scale := v.scale, elems := (v.elems.drop (halfSpan half).1).take (halfSpan half).2 }

/-- The weights in the bytes of block or pass `p`, one block per column. -/
def ArrRun.weightsOf (r : ArrRun) (p : Nat) (b : List Byte) : List WBlock :=
  let half := r.halfOf p
  if r.panel then (r.parse b).1.flatMap fun q => q.map fun v => v.block half
  else (List.range (columnsOf r.mode)).map fun n =>
    blockFrom r.wfmt half ((b.drop (n * columnBytes r.wfmt half)).take (columnBytes r.wfmt half))

/-- A finished panel load still satisfies R107, and is as long as it was at its first read. [DESIGN CHOICE, log entry 41] -/
def ArrRun.loadOk (r : ArrRun) (l : BusLoad) (b : List Byte) : Bool :=
  let p := r.parse b
  !r.panel || (decide (p.2 = l.len) && !(rowBad r.wfmt l.addr p.1 p.2))

/-! Activation streams of SQ16 (R87, R155, R543) -/

/-- Pass and row of the `ix`-th token row of a stream. -/
def ArrRun.rowAt (r : ArrRun) (ix : Nat) : Nat × Nat := (ix / r.rowsA, ix % r.rowsA)

/-- Bytes of a token row of an array that its pass reads (R87). -/
def ArrRun.actAddrs (r : ArrRun) (array ix : Nat) : List Nat :=
  let (p, row) := r.rowAt ix
  let j := r.blockOf p
  blockAddrs r.afmt (r.aaddr + (array * r.rowsA + row) * r.stride + j / 4 * unitBytes r.afmt) j (r.halfOf p)

/-- The places of such bytes: address, and the cycles after the row's entry at which the byte's first element enters a cell. The
scale enters with the first element (R85, R87). -/
def ArrRun.actPlaces (r : ArrRun) (array ix : Nat) : List (Nat × Nat) :=
  let l := r.actAddrs array ix
  let m := b01 (isMx r.afmt)
  let perCell := widthOf (fmtOf r.afmt) * max 1 (rateQ r.wfmt / 4)
  ((List.range l.length).zip l).map fun p => (p.2, if p.1 < m then 0 else r.sq * (8 * (p.1 - m) / perCell))

/-- Lines of the scratchpad that hold such bytes. -/
def linesOfBytes (l : List Nat) : List Nat := ((l.filter (· < 262144)).map (· / 16)).eraseDups

/-- A line's bank is held by a requester of rows 1 to 3 in this cycle. -/
def Tile.bankHeld (x : Tile) (l : Nat) : Bool := decide (l < 16384) && x.lines.any fun p => p.1 = bankOfLine l

/-- Key of a token row in `ArrRun.acts`. -/
def actKey (array ix : Nat) : Nat := array * 2 ^ 18 + ix

/-- The bytes of a token row that its stream has read. -/
def ArrRun.actRow (r : ArrRun) (array ix : Nat) : List (Nat × Byte) := tget [] r.acts (actKey array ix)

/-- The activations of a token row, as its bytes were read. -/
def ArrRun.actsOf (r : ArrRun) (array ix : Nat) : WBlock :=
  blockFrom r.afmt (r.halfOf (r.rowAt ix).1) ((r.actAddrs array ix).map fun a => ((r.actRow array ix).lookup a).getD 0)

/-- Lines of a token row still to be read, each with the cycles after the row's entry that are left for it. -/
def ArrRun.rowLines (r : ArrRun) (array ix : Nat) : List (Nat × Nat) :=
  let got := r.actRow array ix
  let left := (r.actPlaces array ix).filter fun p => !(got.any fun g => g.1 = p.1)
  ((left.map fun p => p.1 / 16).eraseDups).map fun l =>
    (l, ((left.filter fun p => p.1 / 16 = l).map (·.2)).foldl min (64 * r.sq))

/-- Read a line of a token row into a stream's buffer. Bytes past the scratchpad's end are not stated: free values. [DESIGN CHOICE, log entry 13] -/
def State.readAct (s : State) (t : TileId) (r : ArrRun) (array ix line : Nat) : State × ArrRun × Bool :=
  let l := (r.actAddrs array ix).filter fun a => a / 16 = line
  let q := s.readBytes t (l.filter (· < 262144)) 3
  let b := if line < 16384 then q.2.1 else (List.range l.length).map fun i => BitVec.ofNat 8 (Config.freeWord (s.freeCtr + i)).toNat
  (q.1.used (if line < 16384 then 0 else l.length)
    , { r with acts := tset r.acts (actKey array ix) (r.actRow array ix ++ l.zip b) }, q.2.2)

/-- Arrays whose stream reads. -/
def ArrRun.arrays (r : ArrRun) : List Nat := if r.rowsB = 0 then [0] else [0, 1]

/-- Cycles until a token row is due: it enters the array in the cycle after (R85, R86). -/
def ArrRun.dueIn (r : ArrRun) (p : PassRun) (ix : Nat) : Int :=
  let a := r.rowAt ix
  ((a.1 : Int) - p.p) * r.gap + (a.2 * r.sq : Nat) - p.cyc

/-- The lines a stream has still to read, as (row, line, cycles left): those of the rows whose elements still enter, and of the
next rows, within the 32 lines of its buffer (R155). -/
def ArrRun.wanted (r : ArrRun) (array : Nat) : List (Nat × Nat × Nat) :=
  match r.passes.head?, r.passes.getLast? with
  | some h, some p =>
    let from' := p.p * r.rowsA + min r.rowsA (p.cyc / r.sq)
    let lo := max (h.p * r.rowsA) (from' - 16)
    let rows := ((List.range 48).map (lo + ·)).filter fun ix => decide (ix < r.runLen * r.rowsA)
    let total := fun (ix : Nat) => (linesOfBytes (r.actAddrs array ix)).length
    let inBuffer := rows.filter fun ix => decide (ix ≤ from')
      || decide ((((List.range (ix + 1 - from')).map fun k => total (from' + k)).foldl (· + ·) 0) ≤ 32)
    inBuffer.flatMap fun ix => (r.rowLines array ix).map fun l => (ix, l.1, (r.dueIn p ix + (l.2 : Int)).toNat)
  | _, _ => []

/-- How many lines a stream must read in this cycle so that two in each later one keep every row in time: those due now at least
(R85, R155). [DESIGN CHOICE, log entry 14] -/
def mustRead (l : List (Nat × Nat × Nat)) : Nat :=
  let within := fun k => (l.filter fun w => decide (w.2.2 ≤ k)).length
  max (within 0) (min 2 (((List.range 33).map fun k => within k - 2 * k).foldl max 0))

/-- The lines of `wanted` in the order of the time left. -/
def byTime (l : List (Nat × Nat × Nat)) : List (Nat × Nat × Nat) :=
  (List.range 97).flatMap fun k => l.filter fun w => w.2.2 = k

/-- The lines a stream must read in this cycle. -/
def ArrRun.dueRow (r : ArrRun) (array : Nat) : List (Nat × Nat × Nat) :=
  let l := r.wanted array
  (byTime l).take (mustRead l)

/-- A held bank holds bytes of activation rows that the operation's passes cover (R87, R543). -/
def Tile.takesAct (x : Tile) (r : ArrRun) : Bool :=
  !x.lines.isEmpty && r.arrays.any fun a => (List.range (r.runLen * r.rowsA)).any fun ix =>
    (linesOfBytes (r.actAddrs a ix)).any x.bankHeld

/-- The streams' read window is open: the last activation of the last pass has not entered (R85, R543). -/
def ArrRun.streams (r : ArrRun) : Bool :=
  match r.passes.getLast? with
  | none => false
  | some p => decide (p.p + 1 < r.runLen) || decide (p.cyc < r.sq * (r.rowsA + 15))

/-! A cycle's steps: element steps and pass cycles (R80, R85) -/

/-- Window rows that block `j` reads (R81). -/
def Tile.winRows (x : Tile) (r : ArrRun) (j : Nat) : List (Nat × WinRow) :=
  r.rowKeys.map fun a =>
    let k := a.1 * 8 + (r.wbuf + j) % 2 * 4 + a.2
    (a.1 * 4 + a.2, tget ({} : WinRow) x.win k)

/-- One cycle of a block: it sees the window rows as they stand (R130). -/
def BlockRun.step (b : BlockRun) (rows : List (Nat × WinRow)) : BlockRun :=
  { b with cyc := b.cyc + 1
           views := if b.views.getLast?.map (·.2) = some rows then b.views else b.views ++ [(b.cyc, rows)] }

/-- One cycle of an operation, unless a moved read holds it back (R155). -/
def ArrRun.step (x : Tile) (r : ArrRun) : ArrRun :=
  if r.stalled then { r with stalled := false, passes := r.passes.map fun p => { p with moved := false } }
  else
    { r with cur := r.cur.map fun b => b.step (x.winRows r b.j)
             passes := r.passes.map fun p => { p with cyc := p.cyc + 1, moved := true } }

/-- Every pass has begun, and the cycle in which one more would begin is here (R79, R86). -/
def ArrRun.allRead (r : ArrRun) : Bool :=
  decide (r.mode = 2) && decide (r.opened = r.runLen) && (match r.passes.getLast? with
    | none => true
    | some p => decide (p.cyc ≥ r.gap))

/-- The steps of this cycle. An SQ16 operation whose reads are done leaves its place; its last outputs flow on (R79). -/
def Tile.arrStep (x : Tile) : Tile :=
  let tails := x.tails.map (·.step x)
  match x.run.map (·.step x) with
  | none => { x with tails := tails }
  | some r => if r.allRead then { x with run := none, tails := tails ++ [r] } else { x with run := some r, tails := tails }

/-! Which reads a cycle makes (R83, R86, R106, R155, R543) -/

/-- The operation's next block or pass begins its weight reads in this cycle. -/
def ArrRun.opens (r : ArrRun) (c : Nat) : Bool :=
  decide (r.issue + 1 ≤ c) && decide (r.opened < r.runLen) && (if r.mode < 2 then
      r.nxt.isNone && (match r.cur with
        | none => true
        | some b => decide (b.cyc = b.time))
    else match r.passes.getLast? with
      | none => true
      | some p => decide (p.cyc ≥ r.gap))

/-- The load at hand has bytes to come: `got` of its cycles are done. -/
def BusLoad.due (l : BusLoad) (cyc : Nat) : Bool := decide (l.got < l.beta) && decide (l.got ≤ cyc)

/-- The weight bus goes on with the load at hand in this cycle. -/
def ArrRun.loads (r : ArrRun) : Bool :=
  match r.cur, r.passes.getLast? with
  | some b, _ => b.load.due b.cyc
  | none, some p => p.load.due p.cyc
  | none, none => false

/-- A WS operation takes the last element step of its last block in this cycle. -/
def ArrRun.lastStep (r : ArrRun) : Bool :=
  decide (r.mode < 2) && decide (r.opened = r.runLen) && r.nxt.isNone && (match r.cur with
    | none => true
    | some b => decide (b.cyc = b.time))

/-- Every output of an SQ16 operation has left row 15. -/
def ArrRun.flowed (r : ArrRun) : Bool := r.passes.all fun p => decide (p.cyc ≥ r.span)

/-- The pair is free for a pending operation from the next cycle on (R79). -/
def Tile.freeNext (x : Tile) (r : ArrRun) : Bool :=
  (match x.run with
   | none => true
   | some q => q.lastStep) && (decide (r.mode = 2) || x.tails.all (·.flowed))

/-- The operation whose reads this cycle makes, and whether it is the pending one. -/
def Tile.reader (x : Tile) : Option (Bool × ArrRun) :=
  match x.pendRun with
  | some p => if x.freeNext p && p.opens x.ecc then some (true, p) else x.run.map fun r => (false, r)
  | none => x.run.map fun r => (false, r)

/-- The weight bus needs the banks in this cycle: all of them (R543). -/
def Tile.busReads (x : Tile) : Bool :=
  match x.reader with
  | none => false
  | some q => q.2.opens x.ecc || q.2.loads

/-- Lines the streams must read in this cycle. -/
def Tile.dueLines (x : Tile) : List Nat :=
  match x.reader with
  | none => []
  | some q => if q.2.mode = 2 then q.2.arrays.flatMap fun a => (q.2.dueRow a).map (·.2.1) else []

/-- Bank `b` is needed by rows 4 and 5 of R153 in the cycle, once its steps are taken. -/
def Tile.arrNeeds (x : Tile) (b : Nat) : Bool := x.busReads || x.dueLines.any fun l => bankOfLine l = b

/-! Faults of the pair -/

/-- What stays of an operation that stops: a WS block already in its last step, SQ16 passes whose reads are done. [DESIGN CHOICE, log entry 126] -/
def ArrRun.stopped (r : ArrRun) : ArrRun :=
  { r with runLen := r.opened, nxt := none, stalled := false
           cur := r.cur.filter fun b => decide (b.cyc = b.time)
           passes := r.passes.filter fun p => p.inSet && decide (p.cyc ≥ r.sq * r.rowsA) }

/-- The pair stops: the operation whose reads fail adds nothing more, and a pending one never starts. [DESIGN CHOICE, log entry 126] -/
def State.stopPair (s : State) (t : TileId) : State :=
  s.modTile t fun x =>
    let q := x.run.map (·.stopped)
    { x with pendRun := none
             run := q.filter fun r => r.cur.isSome
             tails := x.tails ++ (q.filter fun r => decide (r.mode = 2) && !r.passes.isEmpty).toList }

/-- PANEL_FORMAT (R107): the row adds no product, and the fault names the ARR.RUN's bundle. -/
def State.panelFault (s : State) (t : TileId) (r : ArrRun) : State :=
  (s.stopPair t).tileFault t 0x0224 .program (2 ^ 13 + r.bundle)

/-! A cycle's reads -/

/-- The next 256 bytes of a load, and whether a word was uncorrectable: in SQ16 they go to the shadow weight set. -/
def State.busChunk (s : State) (t : TileId) (r : ArrRun) (p : Nat) (l : BusLoad) : State × BusLoad × Bool :=
  let q := s.readBytes t (((r.loadAddrs p l).drop (256 * l.got)).take 256) 4
  if r.mode = 2 then
    (q.1.modTile t fun x => { x with wShadow := (if l.got = 0 then [] else x.wShadow) ++ q.2.1 }, { l with got := l.got + 1 }, q.2.2)
  else (q.1, { l with got := l.got + 1, bytes := l.bytes ++ q.2.1 }, q.2.2)

/-- The bytes a load has read. -/
def Tile.loadBytes (x : Tile) (r : ArrRun) (l : BusLoad) : List Byte := if r.mode = 2 then x.wShadow else l.bytes

/-- Cycles of the weight bus for a block or pass (R86, R106, R543). -/
def ArrRun.busTime (r : ArrRun) (len : Nat) : Nat :=
  if r.mode = 2 then 4 * r.sq
  else if r.panel then (len + 255) / 256
  else (columnsOf r.mode * columnBytes r.wfmt none + 255) / 256

/-- The block or pass `r.opened` begins: its row's check, its first 256 bytes, and its place in the operation. None where the
row is bad. -/
def State.openNext (s : State) (t : TileId) (r : ArrRun) : State × Option (ArrRun × Bool) :=
  let row := if r.panel then s.panelRow t r else ([], 0, false)
  if row.2.2 then (s, none)
  else
    let p := r.opened
    let q := s.busChunk t r p { addr := r.rowAddr, len := row.2.1, beta := r.busTime row.2.1 }
    let r := { r with opened := p + 1
                      rowAddr := if r.panel && (!r.halves || p % 2 = 1) then r.rowAddr + (row.2.1 + 255) / 256 * 256
                        else r.rowAddr }
    let time := if r.panel then panelTime r.wfmt row.1 row.2.1 else denseTime r.wfmt (columnsOf r.mode)
    let steps := if r.panel then panelSteps r.wfmt row.1 else stepsOf r.wfmt 32
    (q.1, some (if r.mode < 2 then { r with nxt := some { j := p, load := q.2.1, time := time, steps := steps } }
      else { r with passes := r.passes ++ [{ p := p, load := q.2.1 }] }, q.2.2))

/-- Put the operation a cycle's reads were made for back in its place. -/
def Tile.putReader (x : Tile) (pending : Bool) (r : ArrRun) : Tile :=
  if pending then { x with pendRun := some r } else { x with run := some r }

/-- A complete shadow load becomes the active set; the pass before keeps the weights its cells still hold (R84, R86). -/
def Tile.passLoaded (x : Tile) (r : ArrRun) : Tile × ArrRun :=
  match r.passes.getLast? with
  | none => (x, r)
  | some p =>
    if p.inSet || decide (p.load.got < p.load.beta) then (x, r)
    else
      let old := r.passes.dropLast.map fun q => if q.inSet && q.w.isNone then { q with w := some x.wActive } else q
      let tails := x.tails.map fun y => { y with passes := y.passes.map fun q =>
        if q.inSet && q.w.isNone then { q with w := some x.wActive } else q }
      ({ x with wActive := r.weightsOf p.p x.wShadow, tails := tails }
        , { r with passes := old ++ [{ p with inSet := true }] })

/-- One more 256 bytes of the load at hand. -/
def State.loadMore (s : State) (t : TileId) (r : ArrRun) : State × ArrRun × Bool :=
  match r.cur, r.passes.getLast? with
  | some b, _ =>
    let q := s.busChunk t r b.j b.load
    (q.1, { r with cur := some { b with load := q.2.1 } }, q.2.2)
  | none, some p =>
    let q := s.busChunk t r p.p p.load
    (q.1, { r with passes := r.passes.dropLast ++ [{ p with load := q.2.1 }] }, q.2.2)
  | none, none => (s, r, false)

/-- The load that the reads of this cycle went to. -/
def ArrRun.loadAtHand (r : ArrRun) : Option BusLoad :=
  match r.nxt, r.cur, r.passes.getLast? with
  | some b, _, _ => some b.load
  | none, some b, _ => some b.load
  | none, none, some p => some p.load
  | _, _, _ => none

/-- The weight bus in this cycle: it opens a block or pass, goes on with one, or rests. None where a panel row is bad. -/
def State.busCycle (s : State) (t : TileId) (r : ArrRun) : State × Option (ArrRun × Bool) :=
  if r.opens (s.tile t).ecc then s.openNext t r
  else if r.loads then
    let q := s.loadMore t r
    (q.1, some q.2)
  else (s, some (r, false))

/-- Read lines of token rows whose banks no requester of rows 1 to 3 holds. -/
def State.readRowLines (t : TileId) (array : Nat) : List (Nat × Nat × Nat) → State × ArrRun × Bool → State × ArrRun × Bool
  | [], q => q
  | w :: l, q =>
    if (q.1.tile t).bankHeld w.2.1 then State.readRowLines t array l q
    else
      let u := q.1.readAct t q.2.1 array w.1 w.2.1
      State.readRowLines t array l (u.1, u.2.1, q.2.2 || u.2.2)

/-- Bank of line `l` is not used in this cycle: by rows 1 to 3, by the lines `taken` of the streams, by the weight bus or by rows 6
and 7 (R153). -/
def Tile.bankIdle (x : Tile) (bus : Bool) (taken : List Nat) (l : Nat) : Bool :=
  decide (16384 ≤ l) || (!bus && !(x.bankHeld l) && !(taken.any fun k => bankOfLine k = bankOfLine l)
    && !(x.low.any fun p => p.1 = bankOfLine l))

/-- A stream may read ahead, two lines in a cycle at most: which lines it reads early is not stated (R543), a free value. It takes
idle banks only. [DESIGN CHOICE, log entry 14] -/
def State.readAhead (s : State) (t : TileId) (r : ArrRun) (array : Nat) (bus : Bool) (taken : List Nat) (n : Nat) :
    State × ArrRun × Bool :=
  let l := ((byTime (r.wanted array)).filter fun w => (s.tile t).bankIdle bus taken w.2.1).take (2 - n)
  let l := if (l.map fun w => bankOfLine w.2.1).eraseDups.length = l.length then l else l.take 1
  State.readRowLines t array (l.take (Config.freeEcc s.freeCtr % 3)) (s.used 1, r, false)

/-- The streams in this cycle: the lines that are due, where their banks are free, and perhaps more (R155, R543). -/
def State.streamCycle (s : State) (t : TileId) (r : ArrRun) (bus : Bool) : State × ArrRun × Bool :=
  if r.mode ≠ 2 then (s, r, false)
  else
    let must := r.arrays.map fun a => (a, r.dueRow a)
    let q := must.foldl (fun acc d => State.readRowLines t d.1 d.2 acc) (s, r, false)
    (must.foldl (fun (acc : (State × ArrRun × Bool) × List Nat) d =>
      let u := acc.1.1.readAhead t acc.1.2.1 d.1 bus acc.2 d.2.length
      ((u.1, u.2.1, acc.1.2.2 || u.2.2)
        , acc.2 ++ (acc.1.2.1.wanted d.1).filterMap fun w =>
            if (u.2.1.wanted d.1).any fun v => v.1 = w.1 && v.2.1 = w.2.1 then none else some w.2.1))
      (q, must.flatMap fun d => d.2.map (·.2.1))).1

/-- A read of this cycle met a requester of rows 1 to 3, so the operation's next cycle is held back (R155). A stream's read
may be such a read in any cycle of its window (R543): a free value. [DESIGN CHOICE, log entry 14] -/
def State.heldBack (s : State) (t : TileId) (r : ArrRun) : Bool :=
  let x := s.tile t
  (r.loads && !x.lines.isEmpty) || x.dueLines.any x.bankHeld
    || (!r.passes.isEmpty && r.opens x.ecc && !x.lines.isEmpty)
    || (decide (r.mode = 2) && r.streams && x.takesAct r && Config.freeBit s.freeCtr)

/-- A result of an earlier operation is still to join entry `k`. -/
def Tile.resultDue (x : Tile) (pending : Bool) (k : Nat) : Bool :=
  let uses := fun (r : ArrRun) => r.rowKeys.any fun a =>
    decide (r.entryOf a.1 a.2 0 ≤ k) && decide (k < r.entryOf a.1 a.2 0 + columnsOf r.mode)
  (x.pend.any fun w => match w.dest with
    | .sum n _ _ _ => decide (n = k)
    | _ => false) || x.tails.any uses || (pending && x.run.any uses)

/-- ZERO sets the running sums to 0 before the first block (R74). An entry that an earlier operation's results are still to join
keeps its sum for R83's reads until this operation's first result replaces it. [DEDUCED, log entry 170] -/
def Tile.zeroStart (x : Tile) (pending : Bool) (r : ArrRun) : Tile :=
  if r.keep then x
  else
    { x with acc := (r.rowKeys.flatMap fun a => (List.range (columnsOf r.mode)).map (r.entryOf a.1 a.2)).foldl (fun m k =>
        if x.resultDue pending k then m else tset m k { tget ({} : AccEntry) m k with sum := 0 }) x.acc }

/-- The array reads of the cycle that ends (R83, R86, R106, R155, R543). -/
def State.arrReads (s : State) (t : TileId) : State :=
  match (s.tile t).reader with
  | none => s
  | some (pending, r) =>
    let stall := s.heldBack t r
    let s := s.used 1
    let bus := if (s.tile t).lines.isEmpty then s.busCycle t r else (s, some (r, false))
    match bus.2 with
    | none => bus.1.panelFault t r
    | some (r1, bad) =>
      let st := bus.1.streamCycle t r1 (s.tile t).busReads
      let r2 : ArrRun := { st.2.1 with stalled := stall }
      if bad || st.2.2 then (st.1.modTile t fun x => x.putReader pending r).stopPair t
      else if r2.loadAtHand.any fun l => decide (l.got = l.beta) && !(r2.loadOk l ((st.1.tile t).loadBytes r2 l)) then st.1.panelFault t r
      else st.1.modTile t fun x =>
        let x := if r.opened = 0 ∧ r2.opened = 1 then x.zeroStart pending r2 else x
        (x.passLoaded r2).1.putReader pending (x.passLoaded r2).2

/-- The streams of operations whose passes have all begun: a last activation may be held back (R543), a free value, and the
running operation behind it with it. [DESIGN CHOICE, log entry 14] -/
def State.tailReads (s : State) (t : TileId) : State :=
  let x := s.tile t
  if x.tails.any fun r => r.streams && x.takesAct r then
    if Config.freeBit s.freeCtr then
      (s.used 1).setTile t { x with
        tails := x.tails.map fun r => { r with stalled := true }
        run := x.run.map fun r => { r with stalled := r.stalled || r.cur.isSome || !r.passes.isEmpty } }
    else s.used 1
  else s

/-! Results -/

/-- Element steps in which each K-element of a panel's column is taken, none for one it does not store (R103, R104). -/
def listSteps (wfmt : Nat) (p : List Sliver) (c : Nat) : List (Option Nat) :=
  let anchor := ((List.range (c + 1)).reverse.find? fun a => match p[a]? with
    | some v => decide (c < a + bondWidth v.bond) && decide (1 < bondWidth v.bond)
    | none => false).getD c
  let w := bondWidth ((p[anchor]?.map (·.bond)).getD 0)
  let before := (((p.drop anchor).take (c - anchor)).map (·.kept.length)).foldl (· + ·) 0
  let kept := (p[c]?.map (·.kept)).getD []
  (List.range 32).map fun k => (placeOf kept k).map fun i => 4 * ((before + i) / w) / rateQ wfmt

/-- The cycle of each K-element of each column of a block: for BF16 the first of the 4 cc of its step. [DESIGN CHOICE, log entry 41] -/
def ArrRun.stepTable (r : ArrRun) (l : BusLoad) : List (List (Option Nat)) :=
  if r.panel then (r.parse l.bytes).1.flatMap fun p => (List.range 16).map (listSteps r.wfmt p)
  else List.replicate (columnsOf r.mode) ((List.range 32).map fun k => some (4 * k / rateQ r.wfmt))

/-- Cycle of the block in which the element step that begins at `c` is taken: the last one ends the block (R83, R106). [DESIGN CHOICE, log entry 41] -/
def BlockRun.cycleOf (b : BlockRun) (unit c : Nat) : Nat := if c + unit ≥ b.steps then b.time - unit else c

/-- The window rows seen in cycle `c` of a block, or after its last cycle. -/
def BlockRun.viewAt (b : BlockRun) (c : Option Nat) : List (Nat × WinRow) :=
  (match c with
   | some c => ((b.views.filter fun v => decide (v.1 ≤ c)).getLast?.map (·.2)).getD []
   | none => (b.views.getLast?.map (·.2)).getD [])

/-- Activation code of element `k` of a window row (R81): 16 bits for BF16, else the low 8. -/
def winElem (afmt : Nat) (w : WinRow) (k : Nat) : Nat :=
  let v := (w.lanes.getD k 0).toNat
  if afmt = 9 then v else v % 256

/-- Activations that the products of a column and a token row take: each from the row as it stood in the element's step. A
weight that is not stored meets the entry as it stands at the block's end, and the scale byte is the row's at the block's end.
[DESIGN CHOICE, log entry 41] -/
def BlockRun.actsFor (b : BlockRun) (r : ArrRun) (row : Nat) (steps : List (Option Nat)) : WBlock :=
  let at' := fun (c : Option Nat) => ((b.viewAt c).lookup row).getD {}
  { scale := if isMx r.afmt then (at' none).scale.toNat else 127
    elems := (List.range 32).map fun k =>
      winElem r.afmt (at' ((steps.getD k none).map (b.cycleOf (max 1 (4 / rateQ r.wfmt))))) k }

/-- A block's result joins its entry's running sum after `wait` more cycles (R50 to R52, R74, R83, R86). -/
def Tile.addResult (x : Tile) (r : ArrRun) (k wait : Nat) (res : Option Word) (zero : Bool) : Tile :=
  { x with pend := x.pend ++
      [{ dest := .sum k res (decide (r.wfmt = 8)) zero, land := x.ecc + wait, issued := x.ecc, slot := 1 }] }

/-- The first result that an operation with ZERO gives an entry joins a sum of 0 (R74). [DEDUCED, log entry 170] -/
def ArrRun.zeroes (r : ArrRun) (j : Nat) : Bool := !r.keep && decide (j = 0)

/-- The last products of a WS block are in: every entry in use is rounded, and its result added (R73, R80, R83, R104). A partial
that an earlier half 0 left is dropped. [DESIGN CHOICE, log entry 40] -/
def Tile.wsDone (x : Tile) (r : ArrRun) (b : BlockRun) : Tile :=
  let w := r.weightsOf b.j b.load.bytes
  let steps := r.stepTable b.load
  r.rowKeys.foldl (fun y a => ((List.range w.length).zip (w.zip steps)).foldl (fun y p =>
    let acts := b.actsFor r (a.1 * 4 + a.2) p.2.2
    let k := r.entryOf a.1 a.2 p.1
    let e := ({} : AccEntry).addProducts (r.wfmt = 9) (productsOf (fmtOf r.wfmt) (fmtOf r.afmt) p.2.1.elems acts.elems)
    { y with acc := tset y.acc k { sum := (tget ({} : AccEntry) y.acc k).sum } }.addResult r k 2
      (some (e.blockResult (r.wfmt = 8) acts.scale p.2.1.scale)) (r.zeroes b.j)) y) x

/-- Output (row, n) of a pass leaves row 15 (R84, R85): half 0 leaves its exact partial, a whole block or half 1 is rounded
and added. A partial left by an earlier half 0 is not added to. [DESIGN CHOICE, log entry 40] -/
def Tile.sqOutput (x : Tile) (r : ArrRun) (p : PassRun) (array row n : Nat) : Tile :=
  let w := (p.w.getD x.wActive).getD n { scale := 0, elems := [] }
  let a := r.actsOf array (p.p * r.rowsA + row)
  let k := r.entryOf array row n
  let old := tget ({} : AccEntry) x.acc k
  let half := r.halfOf p.p
  let base : AccEntry := if half = some 1 then old else { sum := old.sum }
  let e := base.addProducts (r.wfmt = 9) (productsOf (fmtOf r.wfmt) (fmtOf r.afmt) w.elems a.elems)
  let wait := if r.sq = 4 then 20 else 2
  if half = some 0 then
    let y := { x with acc := tset x.acc k e }
    if r.zeroes p.p then y.addResult r k wait none true else y
  else ({ x with acc := tset x.acc k { sum := old.sum } } : Tile).addResult r k wait
    (some (e.blockResult (r.wfmt = 8) a.scale w.scale)) (half.isNone && r.zeroes p.p)

/-- The outputs that left row 15 in the cycle that ended (R85). -/
def Tile.sqOutputs (x : Tile) (r : ArrRun) : Tile :=
  r.passes.foldl (fun y p =>
    if p.moved && decide ((p.cyc - 1) % r.sq = 0) then
      (r.rowKeys.flatMap fun a => (List.range 16).map fun n => (a, n)).foldl (fun z o =>
        if o.1.2 + 15 + o.2 = (p.cyc - 1) / r.sq then z.sqOutput r p o.1.1 o.1.2 o.2 else z) y
    else y) x

/-- Passes whose outputs are all out leave, with their token rows. -/
def ArrRun.settle (r : ArrRun) : ArrRun :=
  let ps := r.passes.filter fun p => decide (p.cyc < r.span)
  { r with passes := ps.map fun p => { p with moved := false }
           acts := r.acts.filter fun a => match ps.head? with
             | some p => decide (p.p * r.rowsA ≤ a.1 % 2 ^ 18)
             | none => decide (r.opened * r.rowsA ≤ a.1 % 2 ^ 18) }

/-- The end of a WS operation's block, or the first one's start. -/
def Tile.nextBlock (x : Tile) (r : ArrRun) : Tile :=
  match r.cur with
  | none => { x with run := if r.nxt.isNone && decide (r.opened = r.runLen) then none
                            else some { r with cur := r.nxt, nxt := none } }
  | some b =>
    if b.cyc < b.time then x
    else
      let y := x.wsDone r b
      { y with run := if r.nxt.isNone && decide (r.opened = r.runLen) then none
                      else some { r with cur := r.nxt, nxt := none } }

/-- ARRAY_BLOCK_DONE (R73): blocks and outputs whose last products were added in the cycle that ended. -/
def Tile.blockDone (x : Tile) : Tile :=
  let x := x.tails.foldl Tile.sqOutputs x
  let x := { x with tails := (x.tails.map ArrRun.settle).filter fun r => !r.passes.isEmpty }
  match x.run with
  | none => x
  | some r => if r.mode < 2 then x.nextBlock r else { x.sqOutputs r with run := some r.settle }

/-- ARRAY_BLOCK_DONE, in an enabled cycle (R89): nothing before a block's last cycle. -/
def execArrayBlockDone (t : TileId) (s : State) : Res :=
  .next (if s.acts t then s.modTile t Tile.blockDone else s)

/-- The pending operation becomes the running one once the pair is free (R79). -/
def Tile.startPending (x : Tile) : Tile :=
  match x.pendRun with
  | none => x
  | some r =>
    if x.run.isNone && (decide (r.mode = 2) || x.tails.isEmpty) then
      { x with pendRun := none
               run := some (if r.cur.isNone then { r with cur := r.nxt, nxt := none } else r) }
    else x

/-- PENDING_RUN_START, in an enabled cycle (R79, R89). -/
def execPendingRunStart (t : TileId) (s : State) : Res :=
  .next (if s.acts t then s.modTile t Tile.startPending else s)

/-- The array events due in this cycle: a block's end, then the pending operation's start (R79, R83, R86). -/
def State.arrTick (s : State) (t : TileId) : State :=
  match execArrayBlockDone t s with
  | .next u => (match execPendingRunStart t u with
    | .next v => v
    | _ => u)
  | _ => s

end Sys2Proof.Machine
end

