-- ==== Sys2Proof/Machine/Queues.lean ====
section
/-!
DEFINITION. Tile queues, credits, hold registers, absorption and the neighbour links (spec/06_scratchpad_queues.md R167 to
R180), and the waits of a bundle (R140).
-/

namespace Sys2Proof.Machine

/-- The state with queue `n` of tile `t` changed. -/
def State.modQueue (s : State) (t : TileId) (n : Nat) (f : Queue → Queue) : State :=
  s.modTile t fun x => { x with queues := tset x.queues n (f (x.queue n)) }

/-- Words free in queue `n` (R169). -/
def Tile.qRoom (x : Tile) (n : Nat) : Nat := x.qDepth n - (x.queue n).words

/-- Traffic absorbed by a unit in its reset is counted there (R427). -/
def State.noteAbsorbed (s : State) (t : TileId) : State :=
  { s with resets := s.resets.map fun r =>
      let hit := (r.scope = 0 && r.index = t) || (r.scope = 1 && r.index = s.clusterOf t)
        || (r.scope = 2 && s.partOf t = some r.index)
      if hit then { r with absorbed := r.absorbed + 1 } else r }

/-- An entry the tile `u` sent has entered its queue or been absorbed (R125, R174). -/
def State.entryDone (s : State) (u : TileId) : State :=
  if u < 80640 then s.modTile u fun x => { x with entriesFlying := x.entriesFlying - 1 } else s

/-- Absorb an entry at tile `t` (R174, R175): exactly one of ENDED, RESET and DISABLED is noted. -/
def State.absorb (s : State) (t : TileId) (n : Nat) (e : QEntry) : State :=
  let x := s.tile t
  let down := s.down t
  let s := s.modQueue t n fun q =>
    if x.ended then { q with absorbed := q.absorbed + 1, ended := true }
    else if down then { q with absorbed := q.absorbed + 1, reset := true }
    else { q with absorbed := q.absorbed + 1, disabled := true }
  (if down then s.noteAbsorbed t else s).entryDone e.sender

/-- Pool words the entry at the tail of queue `n` takes, and their stored errors cleared (R169). -/
def Tile.freshWords (x : Tile) (n : Nat) (k : Nat) : Tile :=
  let q := x.queue n
  let at' := fun i => x.qBase n + (q.headWord + q.words + i) % (max 1 (x.qDepth n))
  { x with qFlips := (List.range k).foldl (fun m i => tdel m (at' i)) x.qFlips }

/-- Places of the entries that entered queue `n` in this cycle and come after place `k` in the order of R170. -/
def Tile.laterThan (x : Tile) (n k : Nat) : List Nat := (x.fresh.filter fun f => f.1 = n && decide (k < f.2)).map fun f => f.2

/-- An entry enters queue `n` of tile `t` at place `k` of R170, its link or 4 for the ingress buffer: before those of the same cycle
that come after it (R169, R170). -/
def State.enter (s : State) (t : TileId) (n k : Nat) (e : QEntry) : State :=
  let late := ((s.tile t).laterThan n k).length
  let s := s.modTile t fun x => { x.freshWords n e.words.length with fresh := x.fresh ++ [(n, k)] }
  (s.modQueue t n fun q =>
    { q with
      entries := q.entries.take (q.entries.length - late) ++ [e] ++ q.entries.drop (q.entries.length - late)
      lastSender := if late = 0 then some e.sender else q.lastSender }).entryDone e.sender

/-- A signal of kind `k` from tile `t` over its link `dir` to the tile beyond (R171). -/
def State.signalLink (s : State) (t : TileId) (dir k : Nat) : State :=
  match s.neighbour t dir with
  | none => s
  | some u => s.modTile u fun x => { x with sigFlying := x.sigFlying ++ [(opposite dir, k)] }

/-- Take the first signal of kind `k` in flight on link `dir` of tile `t`. -/
def State.takeSignal (s : State) (t : TileId) (dir k : Nat) : Option State :=
  match takeFirst (fun p => p.1 = dir && p.2 = k) (s.tile t).sigFlying with
  | none => none
  | some r => some (s.modTile t fun x => { x with sigFlying := r.2 })

/-- An entry waits at the end of link `k`, whose sender is told, or, from the mesh, in the ingress buffer (R171, R172). -/
def State.holdAt (s : State) (t : TileId) (n k : Nat) (e : QEntry) : State :=
  if k < 4 then (s.modTile t fun x => { x with hold := tset x.hold k ((n, e) :: tget [] x.hold k) }).signalLink t k 0
  else s.modTile t fun x => { x with ingress := (n, e) :: x.ingress }

/-- The last entry of queue `n` of this cycle, which came by place `k`, gives its room to one before it: it is as if it had found
none. -/
def State.putBack (s : State) (t : TileId) (n k : Nat) : State :=
  match ((s.tile t).queue n).entries.getLast? with
  | none => s
  | some e =>
    let s := (s.modTile t fun x => { x with fresh := x.fresh.erase (n, k) }).modQueue t n fun q => { q with entries := q.entries.dropLast }
    (if e.sender < 80640 then s.modTile e.sender fun x => { x with entriesFlying := x.entriesFlying + 1 } else s).holdAt t n k e

/-- Room of queue `n` for an entry at place `k` of R170: what is free, and what entries of the same cycle after it have taken. -/
def Tile.roomAt (x : Tile) (n k : Nat) : Nat :=
  let q := x.queue n
  x.qRoom n + ((q.entries.drop (q.entries.length - (x.laterThan n k).length)).foldl (fun m e => m + e.words.length) 0)

/-- Entries of the same cycle that come after place `k` go back, the last first, until `need` words are free. -/
def State.makeRoom (s : State) (t : TileId) (n k need : Nat) : State :=
  each (sortBy ((s.tile t).laterThan n k) fun a b => b ≤ a) (fun r st =>
    if (st.tile t).qRoom n < need then st.putBack t n r else st) s

/-- An entry with room for it enters, in the order of R170. -/
def State.enterAt (s : State) (t : TileId) (n k : Nat) (e : QEntry) : State := (s.makeRoom t n k e.words.length).enter t n k e

/-- A neighbour-route entry arrives at tile `t` by its link `dir` (R171, R174). -/
def State.linkEntry (s : State) (t : TileId) (dir n : Nat) (e : QEntry) : State :=
  let e := { e with link := dir }
  if s.absorbing t then s.absorb t n e
  else if (s.tile t).qEn n && decide ((s.tile t).roomAt n dir ≥ e.words.length) then s.enterAt t n dir e
  else s.holdAt t n dir e

/-- Pop the head entry of queue `n` (R169, R171): its words are free at once, its credit returns by its link. -/
def State.pop (s : State) (t : TileId) (n : Nat) (e : QEntry) : State :=
  let s := s.modQueue t n fun q =>
    { q with entries := q.entries.drop 1
             headWord := (q.headWord + e.words.length) % (max 1 ((s.tile t).qDepth n)) }
  if e.link < 4 then
    s.modTile e.sender fun x =>
      { x with creditsFlying := x.creditsFlying ++ [(opposite e.link * 8 + n, e.words.length)] }
  else s

/-- Pool word of word `i` of the head entry. -/
def Tile.headPool (x : Tile) (n i : Nat) : Nat :=
  x.qBase n + ((x.queue n).headWord + i) % (max 1 (x.qDepth n))

/-- Read the head entry's pool words with their code (R162): its words, or the pool word found uncorrectable, the last one where
there are several. [DESIGN CHOICE, log entry 162] -/
def State.readHead (s : State) (t : TileId) (n : Nat) (e : QEntry) : State × List Word × Option Nat :=
  ((List.range e.words.length).zip e.words).foldl (fun acc p =>
    let w := (s.tile t).headPool n p.1
    let m := tget 0 (s.tile t).qFlips w
    let k := popcount39 m
    let one := fun (st : State) => (st.modTile t fun x => { x with qFlips := tdel x.qFlips w }).countCorrection t
      (some (16384 + w / 4))
    if m = 0 then (acc.1, acc.2.1 ++ [p.2], acc.2.2)
    else if k = 1 then (one acc.1, acc.2.1 ++ [p.2], acc.2.2)
    else if k = 2 then (acc.1, acc.2.1 ++ [p.2], some w)
    else match Config.freeEcc s.freeCtr % 3 with
      | 0 => (acc.1.used 1, acc.2.1 ++ [p.2], some w)
      | 1 => (one (acc.1.used 1), acc.2.1 ++ [Config.freeWord (s.freeCtr + p.1)], acc.2.2)
      | _ => (acc.1.used 1, acc.2.1 ++ [p.2 ^^^ BitVec.ofNat 32 m], acc.2.2)) (s, [], none)

/-! Sends and receives -/

/-- The register words of Q.SEND. -/
def State.sendWords (s : State) (t : TileId) (sS len : Nat) : List Word :=
  (List.range (len + 1)).map fun i => s.rs t 4 i (sS + i)

/-- The lanes of Q.SENDV. -/
def State.sendLanes (s : State) (t : TileId) (vS group len : Nat) : List Word :=
  ((s.rv t 4 0 vS).drop (4 * group)).take (len + 1)

/-- The mesh target of sT (R137): none when it is outside the grid or bits [31:18] are not 0. -/
def State.meshTarget (s : State) (v : Word) : Option TileId :=
  if v.toNat < 2 ^ 18 ∧ s.onGrid (bits v.toNat 17 9) (bits v.toNat 8 0) then
    some (tileIx (bits v.toNat 17 9) (bits v.toNat 8 0))
  else none

/-- A send of `len` words by `route` to `queue` would wait (R140, R171, R172). A sender that knows the far tile absorbs sends also while
a held state it has seen blocks the link (R174). [DEDUCED, log entry 133] -/
def State.sendWaits (s : State) (t : TileId) (route queue len : Nat) : Bool :=
  let x := s.tile t
  if route < 4 then
    (s.neighbour t route).isSome && !(x.farAbsorbs.getLsbD route)
      && (x.blocked.getLsbD route || decide (tget 0 x.credits (route * 8 + queue) < len))
  else if route = 4 then decide (x.egress.length ≥ 4)
  else false

/-- The checks of Q.SEND and Q.SENDV (R136, R137): BAD_BUNDLE, then QUEUE_TARGET. -/
def State.sendCheck (s : State) (t : TileId) (route rsv sT : Nat) (rangeOk : Bool) : Option Nat :=
  if rsv ≠ 0 ∨ route > 4 ∨ (route < 4 ∧ sT ≠ 0) ∨ !rangeOk then some 0x0220
  else if route < 4 then (if (s.neighbour t route).isNone then some 0x022C else none)
  else if (s.meshTarget (s.rs t 4 5 sT)).isNone then some 0x022C else none

/-- Send an entry (R137, R171, R172). -/
def State.send (s : State) (t : TileId) (route queue sT : Nat) (ws : List Word) : State :=
  let e : QEntry := { words := ws, sender := t }
  if route < 4 then
    s.modTile t fun x =>
      { x with
        credits := if x.farAbsorbs.getLsbD route then x.credits
          else tset x.credits (route * 8 + queue) (tget 0 x.credits (route * 8 + queue) - ws.length)
        out := tset x.out route (tget [] x.out route ++ [.entry queue e])
        entriesFlying := x.entriesFlying + 1 }
  else
    match s.meshTarget (s.rs t 4 5 sT) with
    | none => s
    | some d => s.modTile t fun x =>
      { x with
        egress := x.egress ++ [{ kind := .entry, vc := 2, words := ws, queue := queue, src := t, dst := d
                                 len := 4 * ws.length }]
        entriesFlying := x.entriesFlying + 1 }

/-! Waits of a bundle (R140) -/

/-- A tag is IDLE or LANDED (R134). -/
def Tile.tagFree (x : Tile) (n : Nat) : Bool := (x.tag n).st ≠ .active

/-- A wait of this operation is unmet (R140). -/
def State.waitUnmet (s : State) (i : Instr) : Bool :=
  match i with
  | .qSend t route queue len _ _ _ => s.sendWaits t route.toNat queue.toNat (len.toNat + 1)
  | .qSendv t route queue len _ _ _ => s.sendWaits t route.toNat queue.toNat (len.toNat + 1)
  | .qRecv t queue _ _ _ => ((s.tile t).queue queue.toNat).entries.isEmpty
  | .qRecvv t queue _ _ _ _ => ((s.tile t).queue queue.toNat).entries.isEmpty
  | .mvWait t mask _ => (List.range 16).any fun n => mask.getLsbD n && !((s.tile t).tagFree n)
  | .bellWait t port _ => bit (s.tile t).bellPorts.toNat (5 * port.toNat + 4) && tget 0 (s.tile t).fireCnt port.toNat = 0
  | _ => false

/-- The operation waits on a queue (R141). -/
def isQueueWait (i : Instr) : Bool :=
  match i with
  | .qSend _ _ _ _ _ _ _ => true
  | .qSendv _ _ _ _ _ _ _ => true
  | .qRecv _ _ _ _ _ => true
  | .qRecvv _ _ _ _ _ _ => true
  | _ => false

/-- A waiting operation: a tile that can issue holds it while its wait is unmet, with no check made (R140). -/
def waitOp (i : Instr) (t : TileId) (slot : Nat) (check : State → Option Nat) (k : State → State) (s : State) : Res :=
  if s.canIssue t && (s.tile t).cur.isNone && s.waitUnmet i then
    .next (s.modTile t fun x => { x with held := [i], heldFor := 0 })
  else tileOp t slot check k s

end Sys2Proof.Machine
end

