-- ==== Sys2Proof/Machine/TileCtl.lean ====
section
/-!
DEFINITION. The control slot (spec/05_tile_program.md R117 to R126, R138, R142 to R145, R300): every operation of R119,
the advance of the program counter, loops, and END.
-/

namespace Sys2Proof.Machine

/-- After bundle `pc`: the innermost loop that ends there returns, or its passes are done and the next one is asked (R122). -/
def backEdge (pc : Nat) : List LoopFrame → Nat × List LoopFrame
  | [] => (pc + 1, [])
  | f :: r =>
    if f.last = pc then
      if f.left > 1 then (f.first, { first := f.first, last := f.last, left := f.left - 1 } :: r) else backEdge pc r
    else (pc + 1, f :: r)

/-- Sequential issue after this bundle (R122, R126). -/
def Tile.advance (x : Tile) : Tile := { x with pc := (backEdge x.pc x.loops).1, loops := (backEdge x.pc x.loops).2 }

/-- The state with tile `t` advanced past its bundle. -/
def State.advance (s : State) (t : TileId) : State := s.modTile t Tile.advance

/-- One control-slot operation that goes on to the next bundle. -/
def ctlOp (t : TileId) (check : State → Option Nat) (k : State → State) (s : State) : Res :=
  tileOp t 0 check (fun s => (k s).advance t) s

/-- A scalar result at latency `lat` and a step to the next bundle. -/
def ctlScalar (t : TileId) (rsv lat rd : Nat) (v : State → Word) (s : State) : Res :=
  ctlOp t (unused rsv) (fun s => s.modTile t fun x => x.wS 0 lat rd (v s)) s

/-- NOP (R119). -/
def execNop (t : TileId) (rsv : BitVec 19) (s : State) : Res := ctlOp t (unused rsv.toNat) id s

/-- SALU (R120): MUL at latency 3, the others at 1 (R138). -/
def execSalu (t : TileId) (rd ra rb : BitVec 5) (fn : BitVec 4) (s : State) : Res :=
  ctlOp t (mustHold (decide (fn.toNat < 13)) 0) (fun s =>
    s.modTile t fun x => x.wS 0 (if fn.toNat = 8 then 3 else 1) rd.toNat
      ((saluFn fn.toNat (s.rs t 0 0 ra.toNat) (s.rs t 0 1 rb.toNat)).getD 0)) s

/-- SADDI (R119). -/
def execSaddi (t : TileId) (rd ra : BitVec 5) (imm : BitVec 9) (s : State) : Res :=
  ctlScalar t 0 1 rd.toNat (fun s => s.rs t 0 0 ra.toNat + imm.signExtend 32) s

/-- SLI (R119). -/
def execSli (t : TileId) (rd : BitVec 5) (imm : BitVec 14) (s : State) : Res :=
  ctlScalar t 0 1 rd.toNat (fun _ => imm.signExtend 32) s

/-- SLIC (R119). -/
def execSlic (t : TileId) (rd : BitVec 5) (imm : BitVec 14) (s : State) : Res :=
  ctlScalar t 0 1 rd.toNat (fun s => (s.rs t 0 0 rd.toNat <<< 14) ||| imm.zeroExtend 32) s

/-- Word address of a scalar access: (ra + imm) modulo 65,536 (R119, R133). -/
def State.scalarWord (s : State) (t : TileId) (ra imm : Nat) : Nat := ((s.rs t 0 0 ra).toNat + imm) % 65536

/-- SLD: a scratchpad word into rd at latency 3 (R119, R138). -/
def execSld (t : TileId) (rd ra : BitVec 5) (imm : BitVec 9) (s : State) : Res :=
  ctlOp t (unused 0) (fun s =>
    let r := s.progRead t 0 0 [s.scalarWord t ra.toNat imm.toNat]
    match r.2 with
    | none => r.1
    | some l => r.1.modTile t fun x => x.wS 0 3 rd.toNat (l.headD 0)) s

/-- SST: rs to a scratchpad word (R119, R138). -/
def execSst (t : TileId) (rs ra : BitVec 5) (imm : BitVec 9) (s : State) : Res :=
  ctlOp t (unused 0) (fun s => s.progWrite t 0 [(s.scalarWord t ra.toNat imm.toNat, s.rs t 0 1 rs.toNat)]) s

/-- A comparison into a predicate at latency 1. -/
def ctlCmp (t : TileId) (rsv pd cond : Nat) (a b : State → Word) (s : State) : Res :=
  ctlOp t (mustHold (decide (cond < 6)) rsv) (fun s =>
    s.modTile t fun x => x.wP 0 1 pd ((condFn cond (a s) (b s)).getD false)) s

/-- SCMP (R120). -/
def execScmp (t : TileId) (pd : BitVec 3) (ra rb : BitVec 5) (cond rsv : BitVec 3) (s : State) : Res :=
  ctlCmp t rsv.toNat pd.toNat cond.toNat (fun s => s.rs t 0 0 ra.toNat) (fun s => s.rs t 0 1 rb.toNat) s

/-- SCMPI: imm is sign-extended (R120). -/
def execScmpi (t : TileId) (pd : BitVec 3) (ra : BitVec 5) (cond : BitVec 3) (imm : BitVec 8) (s : State) : Res :=
  ctlCmp t 0 pd.toNat cond.toNat (fun s => s.rs t 0 0 ra.toNat) (fun _ => imm.signExtend 32) s

/-- PLOG (R119). -/
def execPlog (t : TileId) (pd pa pb : BitVec 3) (fn : BitVec 2) (rsv : BitVec 8) (s : State) : Res :=
  ctlOp t (unused rsv.toNat) (fun s =>
    s.modTile t fun x => x.wP 0 1 pd.toNat (plogFn fn.toNat (s.rp t 0 0 pa.toNat) (s.rp t 0 1 pb.toNat))) s

/-- The device's rank (R348), 0 when it is in no job. -/
def State.rank (s : State) : Nat := if s.job.formed then s.job.i + s.job.dimI * (s.job.j + s.job.dimJ * s.job.k) else 0

/-- A status value of SCSR (R118). -/
def State.statusValue (s : State) (t : TileId) (i : Nat) : Word :=
  let p := s.partOf t
  let tide := (p.map fun q => (s.part q).tide).getD 0
  match i with
  | 0 => BitVec.ofNat 32 (tileX t)
  | 1 => BitVec.ofNat 32 (tileY t)
  | 2 => BitVec.ofNat 32 tide
  | 3 => BitVec.ofNat 32 (bits tide 47 32)
  | 4 => BitVec.ofNat 32 (p.getD 0)
  | _ => BitVec.ofNat 32 s.rank

/-- SCSR (R118). -/
def execScsr (t : TileId) (rd index : BitVec 5) (rsv : BitVec 9) (s : State) : Res :=
  ctlOp t (mustHold (decide (index.toNat < 6)) rsv.toNat) (fun s =>
    s.modTile t fun x => x.wS 0 1 rd.toNat (s.statusValue t index.toNat)) s

/-- A taken branch: two cycles without issue, and loops that do not hold the target end (R121, R122). -/
def Tile.branch (x : Tile) (target : Nat) : Tile :=
  { x with pc := target, bubble := 2, loops := x.loops.filter fun f => f.first ≤ target ∧ target ≤ f.last }

/-- BR (R119, R121). -/
def execBr (t : TileId) (inv : BitVec 1) (p : BitVec 3) (target : BitVec 10) (rsv : BitVec 5) (s : State) : Res :=
  tileOp t 0 (unused rsv.toNat) (fun s =>
    if (s.rp t 0 0 p.toNat) ^^ decide (inv.toNat = 1) then s.modTile t fun x => x.branch target.toNat else s.advance t) s

/-- The checks of a loop operation (R122). -/
def loopCheck (t : TileId) (rsv : Nat) (count : State → Nat) (last : Nat) (s : State) : Option Nat :=
  let x := s.tile t
  let beyond := match x.loops with
    | [] => false
    | f :: _ => decide (f.last < last)
  if rsv ≠ 0 ∨ last < x.pc + 1 ∨ beyond = true then some 0x0220
  else if count s > 0 ∧ x.loops.length ≥ 4 then some 0x0226
  else none

/-- Start a loop, or skip its body for a count of 0 (R122). [DEDUCED, log entry 37] -/
def Tile.startLoop (x : Tile) (count last : Nat) : Tile :=
  if count = 0 then { x with pc := last + 1 }
  else { x with pc := x.pc + 1, loops := { first := x.pc + 1, last := last, left := count } :: x.loops }

/-- A loop operation. -/
def ctlLoop (t : TileId) (rsv : Nat) (count : State → Nat) (last : Nat) (s : State) : Res :=
  tileOp t 0 (loopCheck t rsv count last) (fun s => s.modTile t fun x => x.startLoop (count s) last) s

/-- LOOP: the count from sc, unsigned (R122). -/
def execLoop (t : TileId) (sc : BitVec 5) (endB : BitVec 10) (rsv : BitVec 4) (s : State) : Res :=
  ctlLoop t rsv.toNat (fun s => (s.rs t 0 0 sc.toNat).toNat) endB.toNat s

/-- LOOPI (R122). -/
def execLoopi (t : TileId) (count : BitVec 9) (endB : BitVec 10) (s : State) : Res :=
  ctlLoop t 0 (fun _ => count.toNat) endB.toNat s

/-- Port `p` of the tile is bound (R200). -/
def Tile.bellBound (x : Tile) (p : Nat) : Bool := bit x.bellPorts.toNat (5 * p + 4)

/-- The cluster channel of port `p` (R200). -/
def Tile.bellChannel (x : Tile) (p : Nat) : Nat := bits x.bellPorts.toNat (5 * p + 3) (5 * p)

/-- BAD_BUNDLE of the bell operations (R123). -/
def bellCheck (t : TileId) (rsv port : Nat) (s : State) : Option Nat :=
  if rsv = 0 && (s.tile t).bellBound port then none else some 0x0220

/-- BELL.RING: a ring on its way to the collector, which names its bundle (R123, R149). -/
def execBellRing (t : TileId) (port : BitVec 2) (rsv : BitVec 17) (s : State) : Res :=
  ctlOp t (bellCheck t rsv.toNat port.toNat) (fun s =>
    s.modTile t fun x => { x with ringsFlying := x.ringsFlying ++ [(port.toNat, x.bundle)] }) s

/-- BELL.WAIT: lowers the fire count as it issues (R123). -/
def execBellWait (t : TileId) (port : BitVec 2) (rsv : BitVec 17) (s : State) : Res :=
  if s.canIssue t && (s.tile t).cur.isNone && s.waitUnmet (.bellWait t port rsv) then
    .next (s.modTile t fun x => { x with held := [.bellWait t port rsv], heldFor := 0 })
  else ctlOp t (bellCheck t rsv.toNat port.toNat) (fun s =>
    s.modTile t fun x => { x with fireCnt := tset x.fireCnt port.toNat (tget 0 x.fireCnt port.toNat - 1) }) s

/-- HINT.LIGHT (R124). -/
def execHintLight (t : TileId) (rsv : BitVec 18) (s : State) : Res :=
  ctlOp t (unused rsv.toNat) (fun s => s.modTile t fun x => { x with heavy := false }) s

/-- HINT.HEAVY (R124). -/
def execHintHeavy (t : TileId) (rsv : BitVec 18) (s : State) : Res :=
  ctlOp t (unused rsv.toNat) (fun s => s.modTile t fun x => { x with heavy := true }) s

/-- BAD_BUNDLE of SPEC with kind 0 (R143). -/
def specCheck (t : TileId) (rsv sa sb : Nat) (s : State) : Option Nat :=
  if rsv ≠ 0 ∨ sb ≠ 0 ∨ (s.rs t 0 0 sa).toNat ≥ 2 ^ 16 then some 0x0220 else none

/-- Tags a SPEC operation of kind 0 names. -/
def State.specTags (s : State) (t : TileId) (sa : Nat) : List Nat :=
  (List.range 16).filter fun n => bit (s.rs t 0 0 sa).toNat n

/-- Confirm one tag (R143): LANDED turns IDLE, an ACTIVE shadow descriptor turns ordinary. -/
def TagState.confirm (g : TagState) : TagState :=
  match g.st with
  | .landed => {}
  | .active => { g with shadow := false }
  | .idle => g

/-- Discard one tag (R143): nothing for an idle tag or a descriptor that is not shadow. -/
def State.specDiscardTag (s : State) (t : TileId) (n : Nat) : State :=
  let g := (s.tile t).tag n
  if g.st = .landed ∨ (g.st = .active ∧ g.shadow) then s.discardTag t n else s

/-- SPEC.CONFIRM of kind 0 (R143). -/
def execSpecConfirm (t : TileId) (sa sb : BitVec 5) (rsv : BitVec 8) (s : State) : Res :=
  ctlOp t (specCheck t rsv.toNat sa.toNat sb.toNat) (fun s =>
    each (s.specTags t sa.toNat) (fun n st => st.modTag t n TagState.confirm) s) s

/-- SPEC.DISCARD of kind 0 (R143). -/
def execSpecDiscard (t : TileId) (sa : BitVec 5) (rsv : BitVec 13) (s : State) : Res :=
  ctlOp t (specCheck t rsv.toNat sa.toNat 0) (fun s =>
    each (s.specTags t sa.toNat) (fun n st => st.specDiscardTag t n) s) s

/-- A verdict or deferral notice on its way to the stream engine (R144, R300); END's bell waits for it (R125). -/
def State.issueVerdict (s : State) (t : TileId) (sa sb : Word) (discard : Bool) : State :=
  (s.modTile t fun x => { x with verdictsFlying := x.verdictsFlying + 1 }).sendToUnit t .stream
    { kind := .verdict, vc := 2, words := [sa, sb], acc := b01 discard, src := t, dst := t }

/-- SPEC.CONFIRM of kind 1 (R144). -/
def execSpecConfirmVerdict (t : TileId) (sa sb : BitVec 5) (rsv : BitVec 8) (s : State) : Res :=
  ctlOp t (unused rsv.toNat) (fun s => s.issueVerdict t (s.rs t 0 0 sa.toNat) (s.rs t 0 1 sb.toNat) false) s

/-- SPEC.DISCARD of kind 1 (R144). -/
def execSpecDiscardVerdict (t : TileId) (sa : BitVec 5) (rsv : BitVec 13) (s : State) : Res :=
  ctlOp t (unused rsv.toNat) (fun s => s.issueVerdict t (s.rs t 0 0 sa.toNat) 0 true) s

/-- A deferral notice: SPEC.DISCARD of kind 1 whose sa has bit 15 set (R300); the stream engine reads that bit. -/
def execDeferralNotice (t : TileId) (sa : BitVec 5) (rsv : BitVec 13) (s : State) : Res :=
  ctlOp t (unused rsv.toNat) (fun s => s.issueVerdict t (s.rs t 0 0 sa.toNat) 0 true) s

/-- The running tide of the tile's partition is a mark tide (R227). -/
def State.markTide (s : State) (t : TileId) : Bool :=
  match s.partOf t with
  | none => false
  | some p =>
    let n := ((s.part p).image.map fun b => b.params.markInterval).getD 0
    decide (0 < n) && decide ((s.part p).tide % n = n - 1)

/-- A canary due and not run as END issues stays due; CANARY_MISSED is raised at most once per tile and window (R481). -/
def State.canaryMissed (s : State) (t : TileId) : State :=
  let x := s.tile t
  let tide := ((s.partOf t).map fun q => (s.part q).tide).getD 0
  match x.canaryDueSince with
  | none => s
  | some d =>
    if x.canaryRan ∨ x.canaryMissedAt = some (s.now / hourNs) then s
    else (s.modTile t fun y => { y with canaryMissedAt := some (s.now / hourNs) }).raiseTile t 0x0702 1
      (sat (tide - d + 1) 0xFFFFFFFF * 2 ^ 16 + bits x.canary.toNat 23 14)

/-- The requests of a mark range: scratchpad byte, length, address in `State.hbm`; none crosses 256 bytes of either (R248). -/
def markPieces : Nat → Nat → Nat → Nat → List (Nat × Nat × Nat)
  | 0, _, _, _ => []
  | k + 1, a, n, h =>
    if n = 0 then [] else
      let l := reqLen n a h
      (a, l, h) :: markPieces k (a + l) (n - l) (h + l)

/-- The mark writes of a tile, one range after another, to the slot that is not current (R227, R254). -/
def State.markWrites (s : State) (t : TileId) : List (Nat × Nat × Nat) :=
  let slot := match s.partOf t with
    | some p => 1 - ((s.part p).markSlot.getD 1)
    | none => 0
  ((s.tile t).persistRanges.foldl (fun (acc : List (Nat × Nat × Nat) × Nat) r =>
    (acc.1 ++ markPieces (r.2 / 16 + 1) r.1 r.2 acc.2, acc.2 + r.2)) ([], s.markAddr t slot)).1

/-- END (R122, R125, R174, R227): issue stops, loops end, entries are absorbed and the neighbours told, mark writes issue. -/
def State.endTile (s : State) (t : TileId) : State :=
  ((s.modTile t fun x =>
    { x with
      issuing := false, ended := true, loops := []
      markLeft := if s.markTide t then s.markWrites t else [] }).signalAbsorb t).canaryMissed t

/-- END (R119, R125). -/
def execEnd (t : TileId) (rsv : BitVec 19) (s : State) : Res := tileOp t 0 (unused rsv.toNat) (fun s => s.endTile t) s

end Sys2Proof.Machine
end

