-- ==== Sys2Proof/Machine/Ports.lean ====
section
/-!
DEFINITION. Row 7 of the bank ports (spec/06_scratchpad_queues.md R153, R157, R164; spec/09_tile_mover.md R248): an access of the
mover or of a remote tile takes its lines one by one, each in a cycle in which no requester above it needs the bank, and has
its effect when it has had them all.
-/

namespace Sys2Proof.Machine

/-- No requester of rows 1 to 6 needs bank `b` in this cycle, and row 7 has not used it (R153): `y` is the tile with the cycle's
array steps taken, and a bank whose scrub slot is due is the scrubber's. -/
def Tile.portFree (x y : Tile) (b : Nat) : Bool :=
  !(x.lines.any fun p => p.1 = b) && !(y.arrNeeds b) && x.slotted.getLsbD b && !(x.low.any fun p => p.1 = b)

/-- The mover has lines left in this cycle: 4 read and 4 written (R248). -/
def Tile.moverLines (x : Tile) (write : Bool) : Bool :=
  decide ((x.low.filter fun p => p.2 = (if write then PortUser.moverWrite else .moverRead)).length < 4)

/-- The other side of row 7 waits for the bank, and it is its turn (R153). -/
def Tile.othersTurn (x : Tile) (remote : Bool) (b : Nat) : Bool :=
  let other := if remote then x.mvBusy else x.rmBusy
  x.rmTurn ≠ remote && (other.any fun o => o.2.any fun l => bankOfLine l.1 = b)

/-- Give an access the lines it can have in this cycle; the others remain. -/
def Tile.servePort (y : Tile) (remote : Bool) : List (Nat × Bool) → Tile → Tile × List (Nat × Bool)
  | [], x => (x, [])
  | l :: r, x =>
    let b := bankOfLine l.1
    if x.portFree y b && !(x.othersTurn remote b) && (remote || x.moverLines l.2) then
      Tile.servePort y remote r
        { x with low := x.low ++ [(b, if remote then .remote else if l.2 then .moverWrite else .moverRead)], rmTurn := !remote }
    else
      let q := Tile.servePort y remote r x
      (q.1, l :: q.2)

/-- The access at hand on one side of row 7. -/
def Tile.busy (x : Tile) (remote : Bool) : Option (Nat × List (Nat × Bool)) := if remote then x.rmBusy else x.mvBusy

/-- The tile with the access at hand on one side of row 7. -/
def Tile.setBusy (x : Tile) (remote : Bool) (b : Option (Nat × List (Nat × Bool))) : Tile :=
  if remote then { x with rmBusy := b } else { x with mvBusy := b }

/-- The lines that an effect on a tile touches. -/
def State.linesOfEffect (s : State) (t : TileId) (k : State → State) : List (Nat × Bool) :=
  (((k (s.modTile t fun x => { x with touched := some [] })).tile t).touched).getD []

/-- An access of row 7 under `key`: it takes what lines it can, and once it has had them all its effect `k` is made. While another
access of the same side is at hand, it waits. [DESIGN CHOICE, log entry 131] -/
def State.atPort (s : State) (t : TileId) (remote : Bool) (key : Nat) (k : State → State) : State :=
  let x := s.tile t
  let want := match x.busy remote with
    | some b => if b.1 = key then some b.2 else none
    | none => some (s.linesOfEffect t k)
  match want with
  | none => s
  | some ls =>
    let q := Tile.servePort x.arrStep remote ls x
    if q.2.isEmpty then k (s.setTile t (q.1.setBusy remote none)) else s.setTile t (q.1.setBusy remote (some (key, q.2)))

end Sys2Proof.Machine
end

