-- ==== Sys2Proof/Machine/TileMv.lean ====
section
/-!
DEFINITION. The mover slot (spec/05_tile_program.md R134, R135) and the mover's events (spec/09_tile_mover.md R248 to R251,
spec/06_scratchpad_queues.md R164 to R166, spec/10_memory_tiers.md R266, spec/19_check_units.md R520).
-/

namespace Sys2Proof.Machine

/-- MV.NOP. -/
def execMvNop (t : TileId) (rsv : BitVec 20) (s : State) : Res := tileOp t 3 (unused rsv.toNat) id s

/-- First word of the descriptor MV.ISSUE names: sD[15:0] (R134). -/
def State.descWord (s : State) (t : TileId) (sD : Nat) : Nat := (s.rs t 3 0 sD).toNat % 65536

/-- First-stage checks of MV.ISSUE: BAD_BUNDLE, MOVER_TAG, then MOVER_DESC for a misaligned address (R147). -/
def mvIssueCheck (t : TileId) (rsv tag sD : Nat) (s : State) : Option Nat :=
  if rsv ≠ 0 then some 0x0220
  else if ((s.tile t).tag tag).st ≠ .idle then some 0x0229
  else if s.descWord t sD % 16 ≠ 0 then some 0x022A
  else none

/-- A tag with a fresh descriptor; a shadow one records its destination range as it stands (R143). -/
def Tile.newTag (x : Tile) (w : List Word) : TagState :=
  let d := decodeDesc w
  { st := .active, desc := w, shadow := d.shadow, bundle := x.bundle, order := x.issueSeq
    before := if d.shadow then (destWords d).map fun a => (a, wordAt x.memNow a) else [] }

/-- MV.ISSUE (R134, R135, R147): fetch the descriptor's four lines, check its content, start it. The fetch sees the stores of
earlier cycles (R156). -/
def execMvIssue (t : TileId) (tag : BitVec 4) (sD : BitVec 5) (rsv : BitVec 11) (s : State) : Res :=
  tileOp t 3 (mvIssueCheck t rsv.toNat tag.toNat sD.toNat) (fun s =>
    let a := s.descWord t sD.toNat
    let r := s.lineRead t 2 (s.tile t).readNow ((List.range 16).map fun i => a + i)
    match r.2 with
    | none => r.1
    | some w =>
      if r.1.descOk t w then
        r.1.modTile t fun x => { x with issueSeq := x.issueSeq + 1, tags := tset x.tags tag.toNat (x.newTag w) }
      else r.1.tileFault t 0x022A .program ((r.1.tile t).slotPayload 3)) s

/-- MV.WAIT (R134, R140): no effect of its own once it issues. -/
def execMvWait (t : TileId) (mask : BitVec 16) (rsv : BitVec 4) (s : State) : Res :=
  waitOp (.mvWait t mask rsv) t 3 (unused rsv.toNat) id s

/-- MV.TEST (R134). -/
def execMvTest (t : TileId) (pd : BitVec 3) (tag : BitVec 4) (rsv : BitVec 13) (s : State) : Res :=
  tileOp t 3 (unused rsv.toNat) (fun s => s.modTile t fun x => x.wP 3 1 pd.toNat (x.tagFree tag.toNat)) s

/-! Events of the mover -/

/-- A fault of the tile's partition has been seen over the fault bell: its units issue nothing (R204). -/
def State.haltedAt (s : State) (t : TileId) : Bool :=
  match s.partOf t with
  | some p => (s.part p).halted
  | none => false

/-- The mark channel has a write to send, and it is its turn in row 7 (R248). -/
def Tile.markFirst (x : Tile) : Bool := !x.markLeft.isEmpty && x.markTurn

/-- Tag `n` has the mover's next request: it goes on with the one at hand, or its turn has come and fewer than 64 are in flight. -/
def Tile.mayRequest (x : Tile) (n : Nat) : Bool :=
  !x.mvIssued && (match x.mvBusy with
    | some b => decide (b.1 = n)
    | none => x.turn = some n && decide (x.inFlight + x.markFlying.length < 64) && !x.markFirst)

/-- Tag `n` issues in this cycle: the turn of its kind moves on. -/
def Tile.tagIssues (x : Tile) (n : Nat) : Tile :=
  if (x.tag n).shadow then { x with mvIssued := true, markTurn := true, lastShadow := n }
  else { x with mvIssued := true, markTurn := true, lastTag := n }

/-- MOVER_REQUEST (R248): the tag whose turn it is issues one request, at most one in an enabled cycle and 64 of the tile in
flight. -/
def execMoverRequest (t : TileId) (tag : Nat) (s : State) : Res :=
  if s.acts t && !(s.haltedAt t) && (s.tile t).mayRequest tag then
    .next (s.atPort t false tag fun st => (st.modTile t fun x => x.tagIssues tag).moverStep t tag)
  else .next s

/-- An answer that has been delivered to a tag of a tile. -/
def isAnswer (t : TileId) (tag : Nat) (p : Packet) : Bool :=
  (p.kind = .readResp || p.kind = .writeDone) && p.toPort.isNone && (p.unit = .none || p.unit = .cxl) && p.dst = t && p.tag = tag

/-- The first answer delivered to a tag that may be taken. -/
def State.firstAnswer (s : State) (t : TileId) (tag : Nat) : Option (Packet × List Packet) :=
  takeFirst (fun (p : Packet) => isAnswer t tag p && s.mayAnswer t tag p.seqNo) s.arrived

/-- An answer to an earlier request of a tile that is down: its router discards it, and a reset counts it (R427). -/
def State.dropAnswer (s : State) (t : TileId) (tag : Nat) : State :=
  match takeFirst (isAnswer t tag) s.arrived with
  | none => s
  | some r => ({ s with arrived := r.2 } : State).noteAbsorbed t

/-- The tag takes its first answer. -/
def State.takeAnswer (s : State) (t : TileId) (tag : Nat) : State :=
  match s.firstAnswer t tag with
  | none => s
  | some r => ({ s with arrived := r.2 } : State).moverAnswer t tag r.1.seqNo r.1.data r.1.failed

/-- MOVER_RESPONSE (R249, R427): the first answer delivered to this tag is taken, and its bytes are written as the ports allow; a
tile that is down takes none. -/
def execMoverResponse (t : TileId) (tag : Nat) (s : State) : Res :=
  if s.down t then .next (s.dropAnswer t tag)
  else if s.acts t && (s.firstAnswer t tag).isSome then .next (s.atPort t false (16 + tag) fun st => st.takeAnswer t tag) else .next s

/-- The context block after a checked descriptor: START 0 and CV_VALUE (R520). -/
def State.writeContext (s : State) (t : TileId) (g : TagState) : State :=
  let c := ctxConf g.cvCtx
  let v := if c.bad then 0 else cvValue c g.cvR
  (s.writeLocal t (4 * 0xFFF0) (leBytes 4 ((g.cvCtx.getD 0 0).toNat % 2 ^ 31)) 0 6).writeLocal t (4 * 0xFFFA) (leBytes 8 v) 0 6

/-- The check of CHECK 2 (R250, R520): whether it mismatches, and whether the word read was uncorrectable. -/
def State.checkMiss (s : State) (t : TileId) (g : TagState) (d : Desc) : State × Bool × Bool :=
  if d.check ≠ 2 then (s, false, false)
  else
    let c := ctxConf g.cvCtx
    let (s1, b, bad) := s.readLocal t (4 * d.chkWord) 8 0 6
    (s1, c.bad || decide (leNat b ≠ cvValue c g.cvR), bad)

/-- A descriptor completes (R249, R250, R520): context, check, completion word, tag state. Its failed accesses were counted as they
were found. [DESIGN CHOICE, log entry 127] -/
def State.completeTag (s : State) (t : TileId) (n : Nat) : State :=
  let q := s.startCv t n
  if q.2 then q.1
  else
    let g := (q.1.tile t).tag n
    let d := decodeDesc g.desc
    let (s, miss, bad) := q.1.checkMiss t g d
    if bad then s
    else
      let s := if d.check = 0 then s else s.writeContext t g
      let s := if miss then s.raiseTile t 0x0234 2 (n * 2 ^ 12 + g.bundle) else s
      let s := if d.comp then s.writeLocal t (4 * d.compWord) (leBytes 4 (compValue g.failed miss).toNat) 0 6 else s
      s.modTile t fun x => { x with tags := tset x.tags n (if g.shadow then { g with st := .landed } else {}) }

/-- Every request of the tag's shape is made and answered (R249); a checked one has moved its last byte (R248). -/
def Tile.tagDone (x : Tile) (n : Nat) : Bool :=
  let g := x.tag n
  let d := decodeDesc g.desc
  g.st = .active && g.flying.isEmpty && g.planeIn = 0 && g.waitPage.isNone && !(x.checkedBefore g) && decide (g.row ≥ d.rows)
    && (d.check = 0 || decide (x.cvUntil ≤ x.ecc))

/-- MOVER_COMPLETE (R249): once every request of the shape is made and answered. -/
def execMoverComplete (t : TileId) (tag : Nat) (s : State) : Res :=
  if (s.tile t).tagDone tag && s.acts t then .next (s.atPort t false (32 + tag) fun st => st.completeTag t tag) else .next s

/-! The mark channel (R227, R248) -/

/-- The tag that the mark channel's packets carry. -/
def markTag : Nat := 16

/-- The next mark write is read and sent, on VC3.
[DESIGN CHOICE, log entry 48] -/
def State.markSend (s : State) (t : TileId) : State :=
  match (s.tile t).markLeft with
  | [] => s
  | w :: r =>
    let q := s.readLocal t w.1 w.2.1 0 6
    if q.2.2 then q.1
    else
      let n := (q.1.tile t).reqSeq
      (q.1.modTile t fun x => { x with markLeft := r, markFlying := x.markFlying ++ [n], reqSeq := n + 1, markTurn := false }).sendToPort
        t (w.2.2 / 2 ^ 36) { kind := .write, vc := 3, addr := w.2.2 % 2 ^ 36, len := w.2.1, data := q.2.1, tag := markTag
                             seqNo := n, flits := flitsOf w.2.1 }

/-- The mark channel may go on in the cycle that ends: it takes turns with the tags, and follows the stores of END's cycle. -/
def Tile.markGoes (x : Tile) : Bool :=
  !x.markLeft.isEmpty && decide (x.inFlight + x.markFlying.length < 64) && (match x.mvBusy with
    | some b => decide (b.1 = 48)
    | none => x.markTurn || x.turn.isNone)
    && !(x.pend.any fun w => match w.dest with
      | .mem _ _ => decide (w.issued = x.ecc)
      | _ => false)

/-- One cycle of the mark channel: completions are taken, and a write goes on. -/
def State.markCycle (s : State) (t : TileId) : State :=
  let mine := fun (p : Packet) => p.kind = .writeDone && p.unit = .none && p.toPort.isNone && p.dst = t && p.tag = markTag
  let done := s.arrived.filter mine
  let s := if done.isEmpty then s
    else ({ s with arrived := s.arrived.filter fun p => !(mine p) } : State).modTile t fun x =>
      { x with markFlying := x.markFlying.filter fun n => !(done.any fun p => p.seqNo = n) }
  if (s.tile t).markGoes && !(s.haltedAt t) then s.atPort t false 48 fun st => st.markSend t else s

/-- WAITING_ACCESS_RESUME (R245, R266): accesses that waited for the page's move proceed after the switch. -/
def execWaitingAccessResume (page : Nat) (s : State) : Res :=
  if (s.page page).st = .demoting ∨ (s.page page).st = .promoting then .next s
  else .next { s with tiles := s.tiles.map fun p => (p.1, { p.2 with tags := p.2.tags.map fun g =>
    (g.1, if g.2.waitPage = some page then { g.2 with waitPage := none } else g.2) }) }

/-- Packets a scratchpad serves: remote accesses of tiles and units, and writes that come by the service tree. -/
def isRemote (p : Packet) : Bool :=
  (p.kind = .readReq || p.kind = .write || p.kind = .accWrite || p.kind = .mgmt) && p.toPort.isNone && p.exit = .localSite

/-- Answer a remote access from tile `t` to its issuer, on VC1 or on VC3 for bulk traffic (R183). [DESIGN CHOICE, log entry 49] -/
def State.answerRemote (s : State) (t : TileId) (p : Packet) (data : List Byte) (failed : Bool) : State :=
  let a : Packet :=
    { kind := if p.kind = .readReq then .readResp else .writeDone
      vc := if p.vc = 3 then 3 else 1
      data := data, len := data.length, flits := flitsOf data.length, tag := p.tag, seqNo := p.seqNo, failed := failed }
  if p.kind = .mgmt then s
  else if p.unit = .none then s.sendToTile t p.src a
  else s.sendToUnit t p.unit a

/-- One remote access at its target (R164, R166): absorbed by a tile that is down, else served by its scratchpad. A read
that finds an uncorrectable error is not answered: the tide is abandoned (R160). [DEDUCED, log entry 117] -/
def State.serveRemote (s : State) (t : TileId) (p : Packet) : State :=
  let a := p.addr % 262144
  let by' := if p.unit = .none then p.src else 0
  if s.down t then
    (s.noteAbsorbed t).answerRemote t p (if p.kind = .readReq then List.replicate p.len 0 else []) true
  else if p.kind = .readReq then
    let (s1, b, bad) := s.readLocal t a p.len by' 7
    if bad then s1 else s1.answerRemote t p b false
  else if p.kind = .accWrite then
    (s.accLocal t (a / 4) (wordsOfBytes (p.data.length / 4) p.data) (decide (p.acc = 1)) by' 7).answerRemote t p [] false
  else (s.writeLocal t a p.data by' 7).answerRemote t p [] false

/-- The first remote access delivered to the tile is served. -/
def State.takeRemote (s : State) (t : TileId) : State :=
  match takeFirst (fun (p : Packet) => isRemote p && p.dst = t) s.arrived with
  | none => s
  | some r => ({ s with arrived := r.2 } : State).serveRemote t r.1

/-- REMOTE_ACCESS_ARRIVE (R164): the first access delivered to this tile, as the ports allow; a tile that is down absorbs it. -/
def execRemoteAccessArrive (t : TileId) (s : State) : Res :=
  if !(s.arrived.any fun p => isRemote p && p.dst = t) then .next s
  else if s.down t then .next (s.takeRemote t)
  else if s.acts t then .next (s.atPort t true 0 fun st => st.takeRemote t)
  else .next s

end Sys2Proof.Machine
end

