-- ==== Sys2Proof/Machine/Bells.lean ====
section
/-!
DEFINITION. Bells (spec/07_mesh_bells.md R199 to R204, spec/05_tile_program.md R123, R125), the scrubber (R161), and the
cadence of a cluster (R88). The instants of the mc and cc at which these happen are the sender's: a command whose
condition does not hold changes nothing.
-/

namespace Sys2Proof.Machine

/-- BELL_RING_ARRIVE (R202): the port's pending count rises, or BELL_OVERFLOW names the BELL.RING's bundle (R149). -/
def execBellRingArrive (t : TileId) (port : Nat) (s : State) : Res :=
  match takeFirst (fun (r : Nat × Nat) => r.1 = port) (s.tile t).ringsFlying with
  | none => .next s
  | some r =>
    let s := s.modTile t fun x => { x with ringsFlying := r.2 }
    let n := tget 0 (s.tile t).pendRings port
    if n ≥ 255 then .next (s.tileFault t 0x0228 .program r.1.2)
    else .next (s.modTile t fun x => { x with pendRings := tset x.pendRings port (n + 1) })

/-- The port word by which the collector knows a tile: that of the image while the tile is down, so that its ports count on (R200,
R203). -/
def State.portWord (s : State) (t : TileId) : Word :=
  if s.down t then ((s.imageOf t).map fun i => i.bellPorts).getD 0 else (s.tile t).bellPorts

/-- The bound ports of a cluster channel: tile and port (R200). -/
def State.boundPorts (s : State) (c chan : Nat) : List (TileId × Nat) :=
  (s.tilesOfCluster c).flatMap fun t => ((List.range 4).filter fun p =>
    bit (s.portWord t).toNat (5 * p + 4) && decide (bits (s.portWord t).toNat (5 * p + 3) (5 * p) = chan)).map fun p => (t, p)

/-- A bound port has a ring pending, or counts so: its tile has ended, is under reset or is powered off (R202, R203). -/
def State.ringPending (s : State) (tp : TileId × Nat) : Bool :=
  s.absorbing tp.1 || decide (tget 0 (s.tile tp.1).pendRings tp.2 ≥ 1)

/-- Lower the pending counts of the ports by one (R202). -/
def State.useRings (s : State) (l : List (TileId × Nat)) : State :=
  each l (fun tp st => st.modTile tp.1 fun x =>
    { x with pendRings := tset x.pendRings tp.2 (tget 0 x.pendRings tp.2 - 1) }) s

/-- Send a fire to each port (R202). -/
def State.sendFires (s : State) (l : List (TileId × Nat)) : State :=
  each l (fun tp st => st.modTile tp.1 fun x => { x with firesFlying := x.firesFlying ++ [tp.2] }) s

/-- MODE of a channel word (R200). -/
def chanMode (w : Word) : Nat := bits w.toNat 7 6
/-- DEVCH of a channel word. -/
def chanDev (w : Word) : Nat := bits w.toNat 5 0

/-- BELL_CHAN word `chan` of cluster `c`. -/
def State.chanWord (s : State) (c chan : Nat) : Word := tget 0 (s.cluster c).bellChan chan

/-- Cluster channels uplinked to device channel `d`. -/
def State.uplinks (s : State) (d : Nat) : List (Nat × Nat) :=
  s.clusters.flatMap fun c => ((List.range 16).filter fun h =>
    chanMode (s.chanWord c.1 h) = 2 && chanDev (s.chanWord c.1 h) = d).map fun h => (c.1, h)

/-- The device channel fires when every uplinked cluster channel has passed a ring (R202). Rings passed beyond the one a fire uses stay
for later fires. [DESIGN CHOICE, log entry 134] -/
def State.deviceFire (s : State) (d : Nat) : State :=
  let u := s.uplinks d
  if u.all fun ch => decide (tget 0 (s.cluster ch.1).passed ch.2 ≥ 1) then
    let s := each u (fun ch st => st.modCluster ch.1 fun c =>
      { c with passed := tset c.passed ch.2 (tget 0 c.passed ch.2 - 1) }) s
    s.sendFires (u.flatMap fun ch => s.boundPorts ch.1 ch.2)
  else s

/-- BELL_CHANNEL_EVALUATE (R202). -/
def execBellChannelEvaluate (cluster chan : Nat) (s : State) : Res :=
  let w := s.chanWord cluster chan
  let ports := s.boundPorts cluster chan
  if ports.isEmpty || !(ports.all s.ringPending) then .next s
  else if chanMode w = 1 then .next ((s.useRings ports).sendFires ports)
  else if chanMode w = 2 then
    .next (((s.useRings ports).modCluster cluster fun c =>
      { c with passed := tset c.passed chan (tget 0 c.passed chan + 1) }).deviceFire (chanDev w))
  else .next s

/-- BELL_FIRE_ARRIVE (R123): the fire count rises; at 255 it stays, and a tile still running faults. -/
def execBellFireArrive (t : TileId) (port : Nat) (s : State) : Res :=
  match takeFirst (fun (p : Nat) => p = port) (s.tile t).firesFlying with
  | none => .next s
  | some r =>
    let s := s.modTile t fun x => { x with firesFlying := r.2 }
    let n := tget 0 (s.tile t).fireCnt port
    if n < 255 then .next (s.modTile t fun x => { x with fireCnt := tset x.fireCnt port (n + 1) })
    else if s.absorbing t then .next s
    else .next (s.tileFault t 0x0228 .program (s.tile t).bundle)

/-! The tide-complete bell -/

/-- Every ordinary descriptor of the tile has completed (R125). -/
def Tile.moverQuiet (x : Tile) : Bool := x.tags.all fun g => !(g.2.st = .active && !g.2.shadow)

/-- Every block result has been added to its running sum. -/
def Tile.sumsIn (x : Tile) : Bool :=
  x.pend.all fun w => match w.dest with
    | .sum _ _ _ _ => false
    | _ => true

/-- The conditions of R125 for an ended tile, its mark writes among them (R227). -/
def Tile.drained (x : Tile) : Bool :=
  x.ended && x.run.isNone && x.pendRun.isNone && x.tails.isEmpty && x.sumsIn && x.moverQuiet && decide (x.entriesFlying = 0)
    && decide (x.verdictsFlying = 0) && x.markLeft.isEmpty && x.markFlying.isEmpty

/-- TIDE_COMPLETE_RING (R89, R125). -/
def execTideCompleteRing (t : TileId) (s : State) : Res :=
  if (s.tile t).drained && !(s.tile t).rung && s.acts t then
    .next (s.modTile t fun x => { x with rung := true })
  else .next s

/-! The scrubber (R159, R161) -/

/-- The line of row `row` that lies in bank `b` (R151). -/
def lineOf (b row : Nat) : Nat := ((List.range 16).map (16 * row + ·)).find? (fun l => bankOfLine l = b) |>.getD (16 * row)

/-- The word addresses of a line. -/
def lineWords (l : Nat) : List Nat := (List.range 4).map (4 * l + ·)

/-- Write back a corrected line: its single-bit errors are gone. -/
def State.writeBack (s : State) (t : TileId) (b l : Nat) : State :=
  s.modTile t fun x =>
    { x with
      corrList := tset x.corrList b ((tget ([] : List (Nat × Bool)) x.corrList b).filter fun k => k.1 ≠ l)
      flips := (lineWords l).foldl (fun f w => if popcount39 (tget 0 f w) = 1 then tdel f w else f) x.flips }

/-- Read the next line of the walk of a bank. -/
def State.walkLine (s : State) (t : TileId) (b : Nat) : State :=
  let row := tget 0 (s.tile t).walk b
  let s := s.modTile t fun x => { x with walk := tset x.walk b ((row + 1) % 1024) }
  let (s1, _, bad) := s.readWords t (s.tile t).readNow (lineWords (lineOf b row))
  match bad with
  | some w => s1.spFault t 0 5 w
  | none => s1

/-- A missed slot: counted in its 1 s window, and SCRUB_MISSED once per window (R161, R474). -/
def State.missSlot (s : State) (t : TileId) : State :=
  let win := s.now / 1000000000
  let x := s.tile t
  let x := if x.missWin = win then x else { x with missWin := win, missed := 0, scrubReported := false }
  let s := s.setTile t { x with missed := x.missed + 1, scrubReported := true }
  if x.scrubReported then s else s.raiseTile t 0x0708 2 (sat (x.missed + 1) 0xFFFFFFFF)

/-- Bank `b` has not had its slot in this span, and no requester of rows 1 to 5 needs it in this cycle (R161); `y` is the
tile with the cycle's array steps taken. -/
def Tile.slotDue (x y : Tile) (b : Nat) : Bool :=
  decide (b < 16) && !(x.slotted.getLsbD b) && !(x.lines.any fun p => p.1 = b) && !(y.arrNeeds b)

/-- A slot of bank `b` (R161): write-backs of lines written since are dropped, then the first corrected line is written back,
else a line of the walk is read. [DEDUCED, log entry 50] -/
def State.scrubSlot (s : State) (t : TileId) (b : Nat) : State :=
  let s := s.modTile t fun x =>
    { x with slotted := x.slotted ||| BitVec.ofNat 16 (2 ^ b)
             low := x.low ++ [(b, PortUser.scrub)]
             corrList := tset x.corrList b ((tget ([] : List (Nat × Bool)) x.corrList b).filter fun e => !e.2) }
  match tget ([] : List (Nat × Bool)) (s.tile t).corrList b with
  | l :: _ => s.writeBack t b l.1
  | [] => s.walkLine t b

/-- SCRUB_SLOT (R161): the slot of a bank, in the cycle in which it is due. -/
def execScrubSlot (t : TileId) (bank : Nat) (s : State) : Res :=
  if s.acts t && (s.tile t).slotDue (s.tile t).arrStep bank then .next (s.scrubSlot t bank) else .next s

/-- The scrubber in the cycle that ends: every slot due, and at a span's end the slots missed (R161). -/
def State.scrubCycle (s : State) (t : TileId) : State :=
  let s := each (List.range 16) (fun b st => if (st.tile t).slotDue (s.tile t) b then st.scrubSlot t b else st) s
  if (s.tile t).ecc % 64 = 63 then
    (each ((List.range 16).filter fun b => !((s.tile t).slotted.getLsbD b)) (fun _ st => st.missSlot t) s).modTile t
      fun x => { x with slotted := 0 }
  else s

/-- CADENCE_APPLY (R88): at a tile-cycle count that is 0 modulo 8. -/
def execCadenceApply (cluster : Nat) (s : State) : Res :=
  match (s.cluster cluster).nextCadence with
  | none => .next s
  | some k =>
    if s.cc % 8 = 0 then .next (s.modCluster cluster fun c => { c with cadence := k, nextCadence := none }) else .next s

/-- NO_END (R126, R149). -/
def execNoEnd (t : TileId) (s : State) : Res :=
  if s.canIssue t && decide ((s.tile t).pc ≥ 1024) then
    .next (s.tileFault t 0x0227 .program (7 * 2 ^ 13 + 1023))
  else .next s

end Sys2Proof.Machine
end

