-- ==== Sys2Proof/Machine/Sections.lean ====
section
/-!
DEFINITION. The bytes of signed objects: the image envelope and its digest (spec/18_security.md R501, R502), signer blocks and
signatures (R497, R498), the key table and the decryption of sealed sections (R506, R507), and the sections of program images
whose layout the spec gives (R233, R270, R290, R298, R324, R343, R457, R477), home data (R502) and kernel records (R478).
-/

namespace Sys2Proof.Machine

/-! Fields of a byte string -/

/-- The little-endian number in bytes `o` to `o + n - 1` (R8). -/
def fieldOf (l : List Byte) (o n : Nat) : Nat := leNat ((l.drop o).take n)

/-- Bytes `o` to `o + n - 1` are 0. -/
def zeroAt (l : List Byte) (o n : Nat) : Bool := ((l.drop o).take n).all fun b => b = 0

/-- The first `n` runs of `k` bytes. -/
def runsOf (k : Nat) : Nat → List Byte → List (List Byte)
  | 0, _ => []
  | n + 1, l => l.take k :: runsOf k n (l.drop k)

/-- The first `n` words of 4 bytes. -/
def wordList (n : Nat) (l : List Byte) : List Word := (runsOf 4 n l).map fun r => BitVec.ofNat 32 (leNat r)

/-- A list brought to `n` entries, zeros filling it. -/
def fill (n : Nat) (l : List Byte) : List Byte := (l ++ List.replicate n 0).take n

/-- KIND is 1 or 2: an image of a partition (R399). -/
def ofPart (kind : Nat) : Bool := kind = 1 || kind = 2

/-! Signatures (R497, R498) -/

/-- An object, whose last 132 bytes sign every byte before them, verifies under a key (R497). -/
def signedBy (key : Nat) (o : List Byte) : Bool := ecdsaOk key (o.take (o.length - 132)) (o.drop (o.length - 132))

/-- The key of 133 bytes from byte `o` on. -/
def keyAt (l : List Byte) (o : Nat) : Nat := beNat ((l.drop o).take 133)

/-- SHA-512 of a public key (R497, R512); 0 where there is none. -/
def keyDigest : Option Nat → Nat
  | none => 0
  | some k => (sha512 (beBytes 133 k)).toNat

/-- A signer block's reserved byte or PURPOSES bit is set (R498). -/
def signerForm (b : List Byte) : Bool :=
  zeroAt b 133 3 && decide (fieldOf b 140 4 = fieldOf b 140 4 % 2 + bits (fieldOf b 140 4) 3 3 * 8 + bits (fieldOf b 140 4) 10 8 * 256)

/-- A signer block endorses its key for a purpose under the root key (R498). -/
def endorses (root : Nat) (b : List Byte) (purpose : Nat) : Bool := signedBy root (b.take 276) && bit (fieldOf b 140 4) purpose

/-- The root key in flash is accepted: its digest is the fused one (R434, R494). -/
def State.rootOk (s : State) : Bool := keyDigest (some s.flash.rootKey) = s.fuses.rootKeyDigest.toNat

/-- DETAIL of a vendor object's SIGNATURE_FAIL, 0 for none: under the root key, or under the key of its signer block, which has
to be endorsed for the purpose (R498, R502, R503). -/
def State.vendorFault (s : State) (o : List Byte) (endorsed : Bool) (block : List Byte) (purpose : Nat) : Nat :=
  if !endorsed then (if s.rootOk && signedBy s.flash.rootKey o then 0 else 1)
  else if !(s.rootOk && endorses s.flash.rootKey block purpose) then 3
  else if signedBy (keyAt block 0) o then 0 else 1

/-! The image envelope (R501, R502) -/

/-- An entry of the section table. -/
structure Section where
  type : Nat
  offset : Nat
  length : Nat
  deriving DecidableEq, Repr

/-- The header of an image (R501). -/
structure Header where
  kind : Nat
  sealed : Bool
  endorsed : Bool
  version : Nat
  floor : Nat
  total : Nat
  serial : Nat
  stepping : Nat
  packId : Nat
  count : Nat
  deriving DecidableEq, Repr

/-- The header's fields. -/
def headerOf (b : List Byte) : Header :=
  { kind := fieldOf b 6 1, sealed := bit (fieldOf b 7 1) 0, endorsed := bit (fieldOf b 7 1) 1, version := fieldOf b 8 4, floor := fieldOf b 12 4
    total := fieldOf b 16 8, serial := fieldOf b 24 8, stepping := fieldOf b 32 1, packId := fieldOf b 34 2, count := fieldOf b 36 4 }

/-- The 32-byte entry `i` of the section table. -/
def tableEntry (b : List Byte) (i : Nat) : List Byte := (b.drop (512 + 32 * i)).take 32

/-- The section table. -/
def sectionsOf (b : List Byte) : List Section :=
  (runsOf 32 (fieldOf b 36 4) (b.drop 512)).map fun e => { type := fieldOf e 0 2, offset := fieldOf e 8 8, length := fieldOf e 16 8 }

/-- The bytes of a section. -/
def Section.bytes (x : Section) (b : List Byte) : List Byte := (b.drop x.offset).take x.length

/-- The sections ascend from byte `at_` on without overlap, at multiples of 256, with zeros between them, and end by byte `last`. -/
def placed (b : List Byte) (last : Nat) : Nat → List Section → Bool
  | at_, [] => decide (at_ ≤ last) && zeroAt b at_ (last - at_)
  | at_, x :: r =>
    decide (x.offset % 256 = 0) && decide (at_ ≤ x.offset) && zeroAt b at_ (x.offset - at_) && placed b last (x.offset + x.length) r

/-- The envelope keeps R501: every field in its range, every reserved byte 0, the sections in their places. -/
def envelopeOk (b : List Byte) : Bool :=
  let h := headerOf b
  let block := (b.drop 64).take 276
  fieldOf b 0 4 = 0x4956424D && fieldOf b 4 2 = 1 && decide (h.kind ≤ 3) && decide (fieldOf b 7 1 ≤ 3) && (!h.sealed || h.kind = 2)
    && (h.kind = 0 || h.floor = 0) && (h.kind = 0 || h.kind = 3 || h.stepping = 0) && zeroAt b 33 1
    && (if h.kind = 3 then decide (h.packId ≠ 0) else decide (h.packId = 0)) && decide (1 ≤ h.count) && decide (h.count ≤ 4096)
    && zeroAt b 40 24 && (if h.endorsed then signerForm block else zeroAt b 64 276) && zeroAt b 340 172
    && (runsOf 32 h.count (b.drop 512)).all (fun e => zeroAt e 2 6 && zeroAt e 24 8)
    && placed b (h.total - 132) (512 + 32 * h.count) (sectionsOf b)

/-- The image digest (R502). -/
def imageDigest (b : List Byte) : BitVec 512 := sha512 (b.take (b.length - 132))

/-- The bytes of the first section of a type. -/
def sectionOf (b : List Byte) (type : Nat) : Option (List Byte) := ((sectionsOf b).find? fun x => x.type = type).map fun x => x.bytes b

/-- The bytes of every section of a type, in table order. -/
def sectionsAt (b : List Byte) (type : Nat) : List (List Byte) := ((sectionsOf b).filter fun x => x.type = type).map fun x => x.bytes b

/-! Sealed weight images (R506, R507) -/

/-- The key table's entry for a serial number (R506). -/
def keyEntry (table : List Byte) (serial : Nat) : Option (List Byte) :=
  (runsOf 64 (fieldOf table 136 4) (table.drop 144)).find? fun e => fieldOf e 0 8 = serial

/-- The secret scalar of the sealing key (R495).
[DEDUCED, log entry 153] -/
def sealScalar (seed : List Byte) : Nat := seedScalar seed (ascii "MBVN seal v1")

/-- The secret scalar of the identity key (R495). -/
def identityScalar (seed : List Byte) : Nat := seedScalar seed (ascii "MBVN identity v1")

/-- The content key K_c of a sealed image, unwrapped for the device of a sealing scalar and serial (R507). -/
def contentKey (b : List Byte) (scalar serial : Nat) : Option (List Byte) :=
  match sectionOf b 0x0201 with
  | none => none
  | some table =>
    match keyEntry table serial, ecdh scalar (keyAt table 0) with
    | some e, some z =>
      let kw := hkdf (b.take 64) z (ascii "MBVN seal v1" ++ leBytes 8 serial) 32
      gcmOpen kw (List.replicate 12 0) (leBytes 8 serial) ((e.drop 8).take 32) ((e.drop 40).take 16)
    | _, _ => none

/-- Section `i` of the table, counted from 1, decrypted under K_c (R507). -/
def openSection (b key : List Byte) (i : Nat) (x : Section) : Option (List Byte) :=
  let l := x.bytes b
  gcmOpen key (leBytes 4 i ++ List.replicate 8 0) (tableEntry b (i - 1)) (l.take (l.length - 16)) (l.drop (l.length - 16))

/-- Every member, or none where one is missing. -/
def allSome {α : Type} : List (Option α) → Option (List α)
  | [] => some []
  | none :: _ => none
  | some a :: r => (allSome r).map fun l => a :: l

/-- The plain bytes of a weight image's home-data sections; none where a key or a section's tag fails (R502, R507). -/
def homeSections (b : List Byte) (scalar serial : Nat) : Option (List (List Byte)) :=
  if (headerOf b).sealed then
    match contentKey b scalar serial with
    | none => none
    | some k => allSome (((sectionsOf b).zipIdx.filter fun e => e.1.type = 0x0202).map fun e => openSection b k (e.2 + 1) e.1)
  else some (sectionsAt b 0x0202)

/-- A home-data section: the home offset, then the bytes (R502). -/
def homeDataOf (l : List Byte) : HomeData := { offset := fieldOf l 0 8, bytes := l.drop 8 }

/-! Pattern packs (R478, R502) -/

/-- A kernel record of 1,040 bytes (R478). -/
def kernelOf (r : List Byte) : KernelRec :=
  { bundles := (runsOf 16 64 r).map fun e => BitVec.ofNat 128 (leNat e)
    expected := BitVec.ofNat 64 (fieldOf r 1024 8), kernelId := BitVec.ofNat 32 (fieldOf r 1032 4) }

/-- The kernel records of a pack. -/
def kernelsOf (b : List Byte) : List KernelRec :=
  (sectionsAt b 0x0301).flatMap fun l => (runsOf 1040 (l.length / 1040) l).map kernelOf

/-- Sections of scan patterns, whose encoding is internal (R485). -/
def patternsOf (b : List Byte) : Nat := ((sectionsOf b).filter fun x => x.type = 0x0302).length

/-! Sections of a program image -/

/-- TIDE_PARAMS (R233). -/
def paramsOf (l : List Byte) : TideParams :=
  { blockVersion := fieldOf l 0 2, arithEpoch := fieldOf l 2 1, fabricEpoch := fieldOf l 3 1, stripeCount := fieldOf l 4 1, replayLimit := fieldOf l 5 1
    nominalCc := fieldOf l 8 4, markNominalCc := fieldOf l 12 4, markInterval := fieldOf l 16 4, stretchWarnCc := fieldOf l 20 4
    jobDevices := fieldOf l 24 2, weightDigest := BitVec.ofNat 512 (fieldOf l 32 64) }

/-- TIDE_PARAMS is 96 bytes long with its reserved bytes 0 (R233). -/
def paramsForm (l : List Byte) : Bool := l.length = 96 && zeroAt l 6 2 && zeroAt l 26 6

/-- A receiver entry's 64-bit word (R290). -/
def receiverOf (e : List Byte) : Receiver :=
  let v := leNat e
  { word := bits v 63 48, firstSlot := bits v 47 35, slots := bits v 34 26 + 1, x := bits v 25 17, y := bits v 16 8, result := bit v 7 }

/-- ADMISSION_SCRIPT (R290). -/
def admissionOf (l : List Byte) : AdmissionSec :=
  let n := fieldOf l 12 2
  { version := fieldOf l 0 2, stepLimit := fieldOf l 4 2, decodeSlots := fieldOf l 6 2, decodeTokens := fieldOf l 8 1, prefillSlots := fieldOf l 9 1
    prefillTokens := fieldOf l 10 2, receivers := (runsOf 8 n (l.drop 16)).map receiverOf
    code := wordList (fieldOf l 2 2) (l.drop (16 + 8 * n)) }

/-- ADMISSION_SCRIPT's length and reserved fields (R290). -/
def admissionForm (l : List Byte) : Bool :=
  let n := fieldOf l 12 2
  l.length = 16 + 8 * n + 4 * fieldOf l 2 2 && zeroAt l 14 2 && (runsOf 8 n (l.drop 16)).all fun e => bits (leNat e) 6 0 = 0

/-- TIERING_SCRIPT (R270). -/
def tieringOf (l : List Byte) : TieringSec :=
  { version := fieldOf l 0 2, lowFree := fieldOf l 4 4, recency := fieldOf l 8 1, ahead := fieldOf l 9 1, code := wordList (fieldOf l 2 2) (l.drop 16) }

/-- TIERING_SCRIPT's length and reserved bytes (R270). -/
def tieringForm (l : List Byte) : Bool := l.length = 16 + 4 * fieldOf l 2 2 && zeroAt l 10 6

/-- A channel table entry (R324). -/
def channelOf (e : List Byte) : Channel :=
  { id := fieldOf e 0 2, send := fieldOf e 2 1 = 0, port := fieldOf e 3 1, peer := fieldOf e 4 2, blockFlits := fieldOf e 6 1
    noticeEn := bit (fieldOf e 7 1) 7, notice := fieldOf e 7 1 % 8, x := fieldOf e 8 2, y := fieldOf e 10 2, word := fieldOf e 12 2, blocks := fieldOf e 14 2 }

/-- FABRIC_SLOTS (R324): an entry that is 0 is not listed. -/
def fabricOf (l : List Byte) : FabricSec :=
  { version := fieldOf l 0 2
    slots := ((wordList 24576 (l.drop 8)).zipIdx.filter fun e => decide (e.1 ≠ 0)).map fun e => (e.2, e.1)
    channels := (runsOf 16 (fieldOf l 2 2) (l.drop 98312)).map channelOf }

/-- FABRIC_SLOTS' length, reserved bytes and reserved values (R324). -/
def fabricForm (l : List Byte) : Bool :=
  let n := fieldOf l 2 2
  l.length = 98312 + 16 * n && zeroAt l 4 4
    && (runsOf 16 n (l.drop 98312)).all fun e => decide (fieldOf e 2 1 ≤ 1) && bits (fieldOf e 7 1) 6 3 = 0

/-- A segment word (R343). -/
def segmentOf (e : List Byte) : Segment :=
  let v := leNat e
  { x := bits v 63 55, y := bits v 54 46, word := bits v 45 30, noticeEn := bit v 29, notice := bits v 28 26, len := bits v 20 0 }

/-- A COLLECTIVE_SCRIPTS section (R343). -/
def planOf (l : List Byte) : CollPlan :=
  let n := fieldOf l 16 2
  let m := fieldOf l 18 2
  let ranks := fieldOf l 24 128
  { version := fieldOf l 0 2, plan := fieldOf l 2 1, op := fieldOf l 3 1, inFmt := fieldOf l 4 1, outFmt := fieldOf l 5 1
    participants := (List.range 1024).filter (bit ranks), elems := fieldOf l 8 4, interval := fieldOf l 12 4
    ins := (runsOf 8 n (l.drop 152)).map segmentOf, outs := (runsOf 8 m (l.drop (152 + 8 * n))).map segmentOf
    stepLimit := fieldOf l 22 2, code := wordList (fieldOf l 20 2) (l.drop (152 + 8 * (n + m))) }

/-- A COLLECTIVE_SCRIPTS section's length, its P against RANKS, and its segments' reserved bits (R343). -/
def planForm (l : List Byte) : Bool :=
  let n := fieldOf l 16 2 + fieldOf l 18 2
  l.length = 152 + 8 * n + 4 * fieldOf l 20 2 && decide ((planOf l).participants.length = fieldOf l 6 2)
    && (runsOf 8 n (l.drop 152)).all fun e => bits (leNat e) 25 21 = 0

/-- EXPERT_CAPACITY (R298): layers, experts, words. -/
def capacityOf (l : List Byte) : Nat × Nat × List Word :=
  (fieldOf l 2 2, fieldOf l 4 2, wordList (fieldOf l 2 2 * fieldOf l 4 2) (l.drop 8))

/-- EXPERT_CAPACITY's version, length and reserved bytes (R298). -/
def capacityForm (l : List Byte) : Bool := fieldOf l 0 2 = 1 && l.length = 8 + 4 * (fieldOf l 2 2 * fieldOf l 4 2) && zeroAt l 6 2

/-- CANARY_SLOTS' header and length (R477). -/
def canaryForm (l : List Byte) : Bool := fieldOf l 0 2 = 1 && zeroAt l 2 2 && l.length = 8 + 4 * fieldOf l 4 4

/-- The CANARY_SLOTS entries that are not 0, with their places (R477). -/
def canaryWords (l : List Byte) : List (Nat × Word) :=
  ((wordList (fieldOf l 4 4) (l.drop 8)).zipIdx.filter fun e => decide (e.1 ≠ 0)).map fun e => (e.2, e.1)

/-- POWER_PLAN (R457). -/
def powerOf (l : List Byte) : List PowerEntry :=
  (runsOf 8 (fieldOf l 2 2) (l.drop 8)).map fun e => { offsetCc := fieldOf e 0 4, level := fieldOf e 4 2, tides := fieldOf e 6 1 }

/-- POWER_PLAN's version, length and reserved bytes (R457). -/
def powerForm (l : List Byte) : Bool :=
  fieldOf l 0 2 = 1 && l.length = 8 + 8 * fieldOf l 2 2 && zeroAt l 4 4 && (runsOf 8 (fieldOf l 2 2) (l.drop 8)).all fun e => zeroAt e 7 1

/-- The tile of place `k` in ascending linear index within `count` stripes from logical stripe `first` on (R477). -/
def cellOf (first count k : Nat) : TileId := k / (35 * count) * 280 + (35 * first + k % (35 * count))

/-- The tiles of an image with their CANARY_SLOTS words; a tile that only that section names is added. -/
def withCanaries (tiles : List TileImage) (l : List (TileId × Word)) : List TileImage :=
  tiles.map (fun i => { i with canary := (l.lookup i.tile).getD 0 })
    ++ (l.filter fun e => !(tiles.any fun i => i.tile = e.1)).map fun e => { tile := e.1, canary := e.2 }

/-- The sections of a program image for a partition of `count` stripes from logical stripe `first` on (R232). The sections whose
layout the spec does not give stand beside the bytes. [DESIGN CHOICE, log entry 24] -/
def programOf (g : Image) (first count : Nat) : ProgramBody :=
  let b := g.bytes
  let sec := fun (k : Nat) => (sectionOf b k).getD []
  let can := sec 0x010B
  { params := paramsOf (sec 0x0101), bells := g.bells, fabric := (sectionOf b 0x0106).map fabricOf
    tiles := withCanaries g.tiles ((canaryWords can).map fun e => (cellOf first count e.1, e.2))
    admission := admissionOf (sec 0x0107), tiering := (sectionOf b 0x0108).map tieringOf, plans := (sectionsAt b 0x0109).map planOf
    capacity := (sectionOf b 0x010A).map capacityOf, canaryEntries := fieldOf can 4 4, power := powerOf (sec 0x010C)
    formOk := paramsForm (sec 0x0101) && admissionForm (sec 0x0107) && canaryForm can && powerForm (sec 0x010C)
      && (sectionsAt b 0x0106).all fabricForm && (sectionsAt b 0x0108).all tieringForm && (sectionsAt b 0x0109).all planForm
      && (sectionsAt b 0x010A).all capacityForm }

end Sys2Proof.Machine
end

