-- ==== Sys2Proof/Machine/Mailbox.lean ====
section
/-!
DEFINITION. The mailbox page (spec/14_mailboxes.md R388 to R395, R414, R542): parameters of the running command and its
completion.
-/

namespace Sys2Proof.Machine

/-- Status codes of R542. -/
def stOk : Nat := 0
/-- BAD_OPCODE. -/
def stOpcode : Nat := 0x0101
/-- BAD_LENGTH. -/
def stLength : Nat := 0x0102
/-- BAD_FIELD. -/
def stField : Nat := 0x0103
/-- NOT_PERMITTED. -/
def stDenied : Nat := 0x0104
/-- LICENCE_MISSING. -/
def stLicence : Nat := 0x0105
/-- SIGNATURE_FAIL. -/
def stSignature : Nat := 0x0106
/-- VERSION_MISMATCH. -/
def stVersion : Nat := 0x0107
/-- BUSY. -/
def stBusy : Nat := 0x0108
/-- RESOURCE_EXHAUSTED. -/
def stResource : Nat := 0x0109
/-- HW_FAULT. -/
def stHw : Nat := 0x010A

/-- `k` payload bytes from offset `o` of page `n`, as a number. -/
def State.param (s : State) (n o k : Nat) : Nat := leNat (memBytes (s.mb n).payload o k)

/-- Payload bytes of page `n`. -/
def State.paramBytes (s : State) (n o k : Nat) : List Byte := memBytes (s.mb n).payload o k

/-- Severity of MBX_COMPLETE (R414). -/
def completeSev (status : Nat) : Nat := if status = 0 then 0 else if status = stHw then 3 else 1

/-- A command completes (R391): the response inline from payload byte 0 and to the data buffer, the registers, MBX_COMPLETE
unless NO_EVENT, MSI-X vector n unless NO_IRQ. -/
def State.finish (s : State) (n status : Nat) (resp buf : List Byte) (detail offset : Nat) : State :=
  let m := s.mb n
  if m.done then s
  else
    let s : State := if buf.isEmpty then s else { s with posted := s.posted ++ [Posted.buffer n m.opcode buf] }
    let s := s.modMb n fun m => { m with
      payload := memPut m.payload 0 resp, respLen := resp.length + buf.length, detail := detail, offset := offset
      doneSeq := m.seq, done := true, status := status, running := none, drainAt := none }
    let s : State := { s with cmdsDone := s.cmdsDone + 1 }
    let s := if m.noEvent then s
      else s.raiseRec { code := 0x0910, sev := completeSev status, unit := mgmtUnit, part := if n = 0 then 0xFF else n - 1
                        payload := BitVec.ofNat 64 (m.opcode * 2 ^ 48 + m.seq * 2 ^ 32 + status * 2 ^ 16 + n) } false
    if m.noIrq then s else s.msix n

/-- A command completes with OK and an inline response. -/
def State.okWith (s : State) (n : Nat) (resp : List Byte) : State := s.finish n stOk resp [] 0 0xFFFF

/-- A command completes with a status other than OK. -/
def State.failWith (s : State) (n status detail : Nat) : State := s.finish n status [] [] detail 0xFFFF

/-- A command completes with BAD_FIELD or BAD_LENGTH naming a payload byte (R388). -/
def State.failAt (s : State) (n status offset : Nat) : State := s.finish n status [] [] 0 offset

/-- An enable that acts takes the device out of removal readiness: the attention signal is released and
HOST_REMOVE_CANCELLED names the command (R382). -/
def State.cancelRemove (s : State) (opcode : Nat) : State :=
  if s.removeReady then
    let s : State := { s with removeReady := false, pins := { s.pins with attn := false } }
    s.raiseDev 0x0906 1 cxlUnit (opcode * 2 ^ 48)
  else s

/-- A held command, if there is one, completes. -/
def State.okHeld (s : State) (m : Option Nat) (resp : List Byte) : State :=
  match m with
  | none => s
  | some n => s.okWith n resp

end Sys2Proof.Machine
end

