-- ==== Sys2Proof/Machine/MeshEv.lean ====
section
/-!
DEFINITION. Events of the mesh and of the memory ports: a flit passing a router (spec/07_mesh_bells.md R184, R188, R189,
R208, R476), the edge channel (R196), requests at a memory port and their service, the patrol scrubber and stack
temperatures (spec/10_memory_tiers.md R257, R258, spec/16_clocks_power_heat.md R465).
-/

namespace Sys2Proof.Machine

/-! Routers -/

/-- Physical stripe of a site column. -/
def stripeOfCol (px : Nat) : Nat := px / 37

/-- Stripes of the part that hold a site the router serves, two for a straddling router (R3, R476). -/
def State.routerStripes (s : State) (rx : Nat) : List Nat :=
  [stripeOfCol (2 * rx), stripeOfCol (2 * rx + 1)].eraseDups.filter s.stripeOn

/-- Cluster of router (rx, ry): that of its north-west site in the part (R3, R182). [DEDUCED, log entry 116] -/
def State.routerCluster (s : State) (rx ry : Nat) : Nat := (s.routerStripes rx).headD (stripeOfCol (2 * rx)) * 36 + (2 * ry) / 8

/-- A corrected flit error: counted in its window, MESH_ECC_HIGH at 256 once per window (R184, R474). -/
def State.meshCorrected (s : State) (rx ry : Nat) : State :=
  let c := s.routerCluster rx ry
  let win := s.now / hourNs
  let k := s.cluster c
  let k := if k.meshWin = win then k else { k with meshWin := win, meshCorr := 0, meshHigh := false }
  let n := k.meshCorr + 1
  let s := s.modCluster c fun _ => { k with meshCorr := n, meshHigh := k.meshHigh || decide (n ≥ 256) }
  if n ≥ 256 && !k.meshHigh then s.raiseDev 0x0709 2 (unitId 1 c) (sat n 0xFFFFFFFF) else s

/-- A fault of a router: of the partition whose packet it carried, or of none. -/
def State.routerFault (s : State) (p : Option Nat) (rx ry code payload : Nat) (kind : FaultKind) (act : Nat) : State :=
  let unit := unitId 1 (s.routerCluster rx ry)
  match p with
  | some p => s.unitFault p code 3 unit payload kind act
  | none => s.raiseDev code 3 unit payload

/-- BASE_DIE_FAULT (R476): a program fault with ACTION 9, and the withdrawal of the router's stripes. -/
def State.baseDieFault (s : State) (p : Option Nat) (rx ry : Nat) : State :=
  let l := s.routerStripes rx
  let m := l.foldl (fun n sg => n + 2 ^ sg) 0
  let tide := (p.map fun i => (s.part i).tide).getD 0
  let s := s.routerFault p rx ry 0x070A (m * 2 ^ 16 + rx * 2 ^ 8 + ry) .program 9
  let s := each l (fun sg st => st.withdraw sg 1 0x070A tide) s
  { s with baseFaults := s.baseFaults ||| BitVec.ofNat 8 m }

/-- MESH_UNCORRECTABLE at a router (R184), with the escalation of R476: twice in two attempts at one tide, or three times in
an hour. -/
def State.meshUncorrectable (s : State) (p : Option Nat) (rx ry : Nat) : State :=
  let key := routerKey rx ry
  let q := (p.map s.part).getD {}
  let win := s.now / hourNs
  let r := s.router key
  let n := if r.uncorrWin = win then r.uncorrWindow + 1 else 1
  let again := match r.uncorrAt with
    | some a => running q.st && decide (a.1 = q.tide) && decide (a.2 ≠ q.replays)
    | none => false
  let s := s.modRouter key fun x => { x with
    uncorrWin := win, uncorrWindow := n, uncorrAt := if p.isSome then some (q.tide, q.replays) else r.uncorrAt }
  let s := s.routerFault p rx ry 0x0714 (rx * 2 ^ 8 + ry) .hardware 0
  if again || n ≥ 3 then s.baseDieFault p rx ry else s

/-- A packet whose first data word is not known. [DESIGN CHOICE, log entry 11] -/
def spoil (c : Nat) (p : Packet) : Packet :=
  { p with
    data := (leBytes 4 (Config.freeWord c).toNat ++ p.data.drop 4).take p.data.length
    words := if p.words.isEmpty then [] else Config.freeWord c :: p.words.drop 1 }

/-- Every flit of a packet in the mesh carries its new content. -/
def State.spoilPacket (s : State) (p : Packet) : State :=
  { s.used 1 with routers := s.routers.map fun r => (r.1, { r.2 with inq := r.2.inq.map fun b =>
    (b.1, b.2.map fun (f : Flit) => if f.pkt = p then ({ f with pkt := spoil s.freeCtr p } : Flit) else f) }) }

/-- Flipped bits in a word of the flit (R184, R158): 1 corrected and counted, 2 reported, 3 or more not defined. A packet
that passes with an error not corrected has an unknown word. -/
def State.flitError (s : State) (rx ry flips : Nat) (f : Flit) : State :=
  let report := fun (st : State) => st.meshUncorrectable (st.partOf (pktOwner f.pkt)) rx ry
  match flips with
  | 0 => s
  | 1 => s.meshCorrected rx ry
  | 2 => (report s).spoilPacket f.pkt
  | _ =>
    match Config.freeEcc s.freeCtr % 3 with
    | 0 => (report (s.used 1)).spoilPacket f.pkt
    | 1 => ((s.used 1).meshCorrected rx ry).spoilPacket f.pkt
    | _ => (s.used 1).spoilPacket f.pkt

/-! Breakwaters -/

/-- The failed answer to a read of tile `p.src` that its own router drops: it comes back on VC1 (R166, R208). -/
def State.answerDrop (s : State) (p : Packet) : State :=
  s.sendToTile p.src p.src { kind := .readResp, vc := 1, data := List.replicate p.len 0, len := p.len, flits := flitsOf p.len
                             tag := p.tag, seqNo := p.seqNo, failed := true }

/-- Drop a packet at a breakwater: reads are answered failed; writes and entries are discarded, and their sender waits on them no
longer: a write's elements have failed (R208, R249). What a partition in its reset sent or was sent is counted there (R427). -/
def State.dropPacket (s : State) (p : Packet) : State :=
  let s := match s.partOf (pktOwner p) with
    | none => s
    | some i => s.modPart i fun q =>
      if (s.destStripe p).getD 8 < q.firstStripe then { q with bwWest := q.bwWest.add p }
      else { q with bwEast := q.bwEast.add p }
  let s := match (s.destStripe p).bind s.partOfStripe with
    | none => s
    | some i => s.noteReset 2 i
  match p.kind with
  | .readReq => s.answerDrop p
  | .write => s.moverAnswer p.src p.tag p.seqNo [] true
  | .accWrite => s.moverAnswer p.src p.tag p.seqNo [] true
  | .entry => s.modTile p.src fun x => { x with entriesFlying := x.entriesFlying - 1 }
  | _ => s

/-- The front packets of the local input that a breakwater drops (R208): the first router of the route is the source's. -/
def State.dropFront (s : State) (rx ry half vc : Nat) (o : Bool) : State :=
  let k := routerKey rx ry
  let b := bufKey 4 half vc o
  match (tget [] (s.router k).inq b).head? with
  | none => s
  | some f =>
    if f.idx = 0 && s.foreign f.pkt then
      (s.modRouter k fun r => ({ r with inq := tset r.inq b ((tget [] r.inq b).drop f.pkt.flits) }).refill (s.half rx) 4).dropPacket
        f.pkt
    else s

/-- Drop what the breakwater stops at this router. -/
def State.dropForeign (s : State) (rx ry : Nat) : State :=
  each (List.range 16) (fun i st => st.dropFront rx ry (i / 8) (i / 2 % 4) (decide (i % 2 = 1))) s

/-- ROUTER_FLIT_PASS (R189): drops of R208 first, then one flit passes output `out`. [DESIGN CHOICE, log entry 3] -/
def execRouterFlitPass (rx ry out flips : Nat) (s : State) : Res :=
  let s := s.dropForeign rx ry
  match s.arbitrate rx ry out with
  | none => .next s
  | some (inp, f) =>
    let s := s.flitError rx ry flips f
    match s.candidate rx ry out f.pkt.vc inp f.pkt.yFirst with
    | none => .next s
    | some g => .next (s.passFlit rx ry out inp g)

/-- The first packet in a share of the edge channel leaves it: for its unit, or into the mesh toward its tile or port (R196). -/
def State.edgePass (s : State) (stripe : Nat) (east inbound : Bool) : State :=
  let k := edgeKey stripe east inbound
  match tget [] s.edge k with
  | [] => s
  | p :: r =>
    let s : State := { s with edge := tset s.edge k r }
    if inbound then s.inject 5 p else s.sinkUnit p

/-- EDGE_CHANNEL_PASS (R196): the stripe's share is served, in each direction. -/
def execEdgeChannelPass (stripe : Nat) (east : Bool) (s : State) : Res :=
  .next ((s.edgePass stripe east false).edgePass stripe east true)

/-! Memory ports -/

/-- MEMPORT_REQUEST_ARRIVE (R257): the first request delivered to the port is queued; the port holds up to 256. -/
def execMemportRequestArrive (port : Nat) (s : State) : Res :=
  match takeFirst (fun (p : Packet) => p.toPort = some port) s.arrived with
  | none => .next s
  | some r =>
    if (s.memport port).requests.length < 256 then
      .next (({ s with arrived := r.2 }).modMemport port fun m => { m with requests := m.requests ++ [r.1] })
    else .next s

/-- The partition that owns a memory port's stack (R14, R205). -/
def State.partOfPort (s : State) (port : Nat) : Option Nat :=
  if port % 8 < s.sigma0 then none else s.partOfStripe (port % 8 - s.sigma0)

/-- Region of a byte of a stack (R252, R276): 0 mark, 1 home, 2 spill, 3 tiered. -/
def Partition.region (q : Partition) (off : Nat) : Nat :=
  let f := off / 2 ^ 19
  if f < 320 then 0 else if f < 320 + q.homeFrames then 1 else if f < 320 + q.homeFrames + q.spillFrames then 2 else 3

/-- The page in an HBM frame. -/
def State.pageInFrame (s : State) (fr : Nat) : Option Nat :=
  (s.pages.find? fun g => g.2.st ≠ .free ∧ g.2.tier = 0 ∧ g.2.frame = fr).map fun g => g.1

/-- Record a fault against the tide that runs, or against the next one (R258). -/
def State.stampCause (s : State) (p : Nat) (c : FaultCause) : State :=
  let c := s.ranked p c
  s.modPart p fun q => { q with cause := worse q.cause c, causes := q.causes ++ [c], faultBell := running q.st || q.faultBell }

/-- HBM_UNCORRECTABLE (R258, R276) at byte `off` of a port's stack; in a stack that no partition owns REGION is the mark area's for
its frames and tiered beyond. [DESIGN CHOICE, log entry 160] -/
def State.hbmUncorrectable (s : State) (port off : Nat) : State :=
  let off := off / 32 * 32
  match s.partOfPort port with
  | none => s.raiseDev 0x0715 3 (unitId 3 port) ((if off / 2 ^ 19 < 320 then 0 else 3) * 2 ^ 62 + off)
  | some p =>
    let rg := (s.part p).region off
    let pg := if rg = 3 then (s.pageInFrame (hbmFrame port (off / 2 ^ 19))).getD 0 else 0
    let s := s.raisePart p 0x0715 3 (unitId 3 port) (rg * 2 ^ 62 + pg * 2 ^ 40 + off)
    (s.stampCause p { kind := .hardware, code := 0x0715, unit := unitId 3 port }).modPart p fun q =>
      { q with hbmRows := q.hbmRows ++ [(port, off)] }

/-- The next service slot is one of VC3 (R257): no other request waits, or the last seven slots passed VC3 by. -/
def MemPort.bulkTurn (m : MemPort) : Bool := !(m.requests.any fun p => p.vc ≠ 3) || decide (m.vc3Skip ≥ 7)

/-- The request a port serves next (R257): arrival order, VC3 after the others but at least one slot in 8. -/
def MemPort.pick (m : MemPort) : Option (Packet × List Packet) :=
  match (if m.bulkTurn then takeFirst (fun (p : Packet) => p.vc = 3) m.requests else none) with
  | some b => some b
  | none => takeFirst (fun (p : Packet) => p.vc ≠ 3) m.requests

/-- The port's VC3 count after serving a request of channel `vc`, `r` waiting behind it. -/
def MemPort.served (m : MemPort) (vc : Nat) (r : List Packet) : MemPort :=
  { m with requests := r
           vc3Skip := if vc = 3 then 0 else if r.any (fun u => u.vc = 3) || !m.scrubs.isEmpty then m.vc3Skip + 1 else 0 }

/-- pseudo_channel (R256): data is interleaved over a stack's 32 pseudo-channels in granules of 256 bytes. -/
def pseudoChannel (offset : Nat) : Nat :=
  let g := offset / 256
  (g % 32) ^^^ (g / 32 % 32) ^^^ (g / 1024 % 32)

/-- The port goes to the pseudo-channel of a byte of its stack. -/
def MemPort.goTo (m : MemPort) (offset : Nat) : MemPort := { m with channel := pseudoChannel offset }

/-- A request only reads: a tile's read, or the first half of a move out of HBM. -/
def isPortRead (p : Packet) : Bool := p.kind = .readReq || (p.kind = .tiering && p.data.isEmpty)

/-- The port's answer to a request, to the tile it came from or to the tiering unit. -/
def State.portAnswer (s : State) (port : Nat) (p : Packet) (data : List Byte) : State :=
  let a : Packet :=
    { kind := if isPortRead p then .readResp else .writeDone, vc := if p.vc = 3 then 3 else 1, data := data, len := data.length
      flits := flitsOf data.length, tag := p.tag, seqNo := p.seqNo, page := p.page }
  if p.unit = .tiering then s.tierFromPort port { a with addr := p.addr % 2 ^ 19 } else s.sendFromPort port p.src a

/-- Appends to page `g` on their way to its frame, in the mesh or at the port. -/
def State.appendsOf (s : State) (port g : Nat) : List Packet :=
  let mine := fun (p : Packet) => p.tiered && p.kind = .write && p.page = g
  (s.meshPackets ++ (s.memport port).requests).filter mine

/-- Bytes of page data from offset `off` on that an append still on its way brings, beyond the fill it found: they read as before
it, as 0 (R245). -/
def hideAppend (off : Nat) (data : List Byte) (p : Packet) : List Byte :=
  let a := p.addr % 2 ^ 19
  (List.range data.length).map fun i =>
    if decide (a ≤ off + i) && decide (p.fill * 256 ≤ off + i) && decide (off + i < a + p.data.length) then 0 else data.getD i 0

/-- What a read at the port finds; a translated one sees its page as it stands, below its fill (R245). -/
def State.portData (s : State) (port : Nat) (p : Packet) : List Byte :=
  let b := memBytes s.hbm (hbmAddr port p.addr) p.len
  if p.tiered then
    (s.appendsOf port p.page).foldl (hideAppend (p.addr % 2 ^ 19)) (s.belowFill p.page (p.addr % 2 ^ 19) b)
  else b

/-- The move that a copy request belongs to is still under way. -/
def State.moveAt (s : State) (p : Packet) : Bool :=
  match s.partOf p.src with
  | some i => (s.part i).moves.any fun m => m.tag = p.tag
  | none => false

/-- One request done: a read answered, a write made and acknowledged. `err` 1 is a corrected error of the read, 2 an
uncorrectable one, whose data is not sent: the first group of the request that holds it is named (R258, R276). A page whose copy
fails so is lost at once (R267, R273). [DESIGN CHOICE, log entry 132] -/
def State.portDone (s : State) (port : Nat) (p : Packet) (err : Nat) : State :=
  let s := s.modMemport port fun m => m.goTo p.addr
  if isPortRead p then
    if err ≥ 2 then
      let groups := (p.addr % 32 + p.len + 31) / 32
      let s := (s.used 1).hbmUncorrectable port (p.addr + 32 * ((Config.freeWord s.freeCtr).toNat % max 1 groups))
      if p.kind = .tiering && s.moveAt p then s.losePage p.page else s
    else
      let s := if err = 1 then s.modMemport port fun m => { m with corrected := m.corrected + 1 } else s
      s.portAnswer port p (s.portData port p)
  else ({ s with hbm := memPut s.hbm (hbmAddr port p.addr) p.data } : State).portAnswer port p []

/-- A patrol read takes a VC3 slot (R258): corrected data are written back, an uncorrectable group is reported. -/
def State.scrubGranule (s : State) (port offset err : Nat) : State :=
  let s := s.modMemport port fun x =>
    { (x.goTo offset).served 3 x.requests with patrol := offset / 256, corrected := x.corrected + b01 (decide (err = 1)) }
  if err ≥ 2 then s.hbmUncorrectable port offset else s

/-- The port serves nothing: tripped, in self-refresh or not trained (R465). -/
def MemPort.still (m : MemPort) : Bool := m.tripped || m.inSelfRefresh || !m.trained

/-- MEMPORT_SERVICE (R257, R258, R465): one service slot; a waiting patrol read takes a VC3 slot before the other VC3 requests.
[DESIGN CHOICE, log entry 159] -/
def execMemportService (port err : Nat) (s : State) : Res :=
  let m := s.memport port
  if m.still then .next s
  else match (if m.bulkTurn then m.scrubs else []) with
    | c :: r => .next ((s.modMemport port fun x => { x with scrubs := r }).scrubGranule port c.1 c.2)
    | [] => match m.pick with
      | none => .next s
      | some r => .next ((s.modMemport port fun x => x.served r.1.vc r.2).portDone port r.1 err)

/-- PATROL_SCRUB (R258): one granule read, corrected and written back, in a VC3 slot: at once where no request comes before it, else
it waits for its slot. -/
def execPatrolScrub (port offset err : Nat) (s : State) : Res :=
  let m := s.memport port
  if m.still then .next s
  else if m.bulkTurn && m.scrubs.isEmpty then .next (s.scrubGranule port offset err)
  else .next (s.modMemport port fun x => { x with scrubs := x.scrubs ++ [(offset, err)] })

/-- A temperature as the int16 of an event payload, in units of 1/16 °C (R467). -/
def tempField (t : Int) : Nat := (t % 65536).toNat

/-- A hardware fault of a memory port against the partition that owns its stack, or an event of the device. -/
def State.portFault (s : State) (port code payload : Nat) : State :=
  match s.partOfPort port with
  | some p => s.unitFault p code 3 (unitId 3 port) payload .hardware 0
  | none => s.raiseDev code 3 (unitId 3 port) payload

/-- An event of a memory port. -/
def State.portEvent (s : State) (port code sev payload : Nat) : State :=
  match s.partOfPort port with
  | some p => s.raisePart p code sev (unitId 3 port) payload
  | none => s.raiseDev code sev (unitId 3 port) payload

/-- HBM_TEMP_REPORT (R3, R465): of a stack of an enabled stripe; temperatures in units of 1/16 °C. -/
def execHbmTempReport (port : Nat) (temp : Int) (s : State) : Res :=
  if !s.stripeOn (port % 8) then .next s else
  let m := s.memport port
  let s := s.modMemport port fun x => { x with temp := temp }
  let s := if temp ≥ 85 * 16 ∧ !m.hot then
      (s.modMemport port fun x => { x with hot := true }).portEvent port 0x0608 2 (tempField temp * 2 ^ 32 + 1)
    else if temp < 82 * 16 ∧ m.hot then
      (s.modMemport port fun x => { x with hot := false }).portEvent port 0x0608 2 (tempField temp * 2 ^ 32)
    else s
  if temp ≥ 95 * 16 ∧ !m.tripped then
    .next ({ (s.modMemport port fun x => { x with tripped := true, inSelfRefresh := true, tripAt := s.now }) with
      boot := { s.boot with epoOrTrip := true } }.portFault port 0x0609 (tempField temp * 2 ^ 32))
  else .next s

/-- HBM_TRIP_RECOVERY (R465): below 80 °C the stack leaves self-refresh and its mark area is read; not cooled within 5 s,
the partition's run stops with ACTION 7. [DESIGN CHOICE, log entry 18] -/
def execHbmTripRecovery (port : Nat) (temp : Int) (markOk : Bool) (s : State) : Res :=
  let m := s.memport port
  if !m.tripped then .next s
  else if temp < 80 * 16 then
    let s := s.modMemport port fun x => { x with tripped := false, inSelfRefresh := false, temp := temp }
    if markOk then .next s
    else
      let off := (Config.freeWord s.freeCtr).toNat % (320 * 2 ^ 19)
      .next ((s.used 1).hbmUncorrectable port off)
  else if s.now - m.tripAt > 5000000000 then
    match s.partOfPort port with
    | none => .next s
    | some p => .next (s.modPart p fun q => { q with recoveryTimeout := true })
  else .next s

end Sys2Proof.Machine
end

