-- ==== Sys2Proof/Machine/Fabric.lean ====
section
/-!
DEFINITION. The Hikolink fabric as data (spec/12_hikolink_jobs.md R313 to R339): torus and drumbeat-tree geometry, flit
bytes and CRC, control-slot queues, slot tables, channels, and faults of the fabric.
-/

namespace Sys2Proof.Machine

/-! Geometry (R313, R329, R348) -/

/-- Steps from `r` to `c` going + round a ring of `n`. -/
def ringPlus (n c r : Nat) : Nat := (c + n - r % n) % n

/-- Along one dimension: whether the tree reaches `c` from `r` going +; none at the root's own coordinate. -/
def treeDir (n c r : Nat) : Option Bool := if c = r then none else some (decide (2 * ringPlus n c r ≤ n))

/-- The port toward the parent of the device at (i, j, k) (R329): along k, else j, else i. -/
def Job.parentPortAt (b : Job) (i j k : Nat) : Option Nat :=
  match treeDir b.dimK k b.rootK with
  | some plus => some (if plus then 2 else 5)
  | none =>
    match treeDir b.dimJ j b.rootJ with
    | some plus => some (if plus then 1 else 4)
    | none =>
      match treeDir b.dimI i b.rootI with
      | some plus => some (if plus then 0 else 3)
      | none => none

/-- This device's parent port; none on the timing root. -/
def Job.parentPort (b : Job) : Option Nat := b.parentPortAt b.i b.j b.k

/-- The coordinates one step along port `q` from (i, j, k) (R313). -/
def Job.stepFrom (b : Job) (q i j k : Nat) : Nat × Nat × Nat :=
  match q with
  | 0 => ((i + b.dimI - 1) % b.dimI, j, k)
  | 1 => (i, (j + b.dimJ - 1) % b.dimJ, k)
  | 2 => (i, j, (k + b.dimK - 1) % b.dimK)
  | 3 => ((i + 1) % b.dimI, j, k)
  | 4 => (i, (j + 1) % b.dimJ, k)
  | _ => (i, j, (k + 1) % b.dimK)

/-- The coordinates of the neighbour on port `q`. -/
def Job.neighbour (b : Job) (q : Nat) : Nat × Nat × Nat := b.stepFrom q b.i b.j b.k

/-- The timing root's rank. -/
def Job.rootRank (b : Job) : Nat := b.rankAt (b.rootI, b.rootJ, b.rootK)

/-- Devices of the job. -/
def Job.devices (b : Job) : Nat := b.dimI * b.dimJ * b.dimK

/-- Ports the job's dimensions need: a dimension of size 1 uses neither of its ports (R313). -/
def Job.needsPort (b : Job) (q : Nat) : Bool :=
  match q % 3 with
  | 0 => decide (b.dimI > 1)
  | 1 => decide (b.dimJ > 1)
  | _ => decide (b.dimK > 1)

/-- The needed ports. -/
def Job.ports (b : Job) : List Nat := (List.range 6).filter b.needsPort

/-- Ports to this device's children in the tree (R329). -/
def Job.childPorts (b : Job) : List Nat :=
  b.ports.filter fun q =>
    let c := b.neighbour q
    b.parentPortAt c.1 c.2.1 c.2.2 = some ((q + 3) % 6)

/-- This device is the timing root of its job, or of its own partitions outside one (R29). -/
def State.isRoot (s : State) : Bool := !s.job.formed || s.job.parentPort.isNone

/-! Flits (R316 to R318) -/

/-- CAUSE of a tree record as its 64 bits (R333). -/
def causeBits (c : Cause) : Nat := c.code * 2 ^ 48 + c.rank * 2 ^ 38 + c.unit

/-- A tree record's kind, tide and bytes 8 to 31 (R333). [DESIGN CHOICE, log entry 53] -/
def recFields (r : TreeRec) : Nat × Nat × List Byte :=
  match r with
  | .drumbeat tide start step replay stop => (0x01, tide, leBytes 8 start ++ leBytes 1 step ++ leBytes 15 (b01 replay + 2 * b01 stop))
  | .confirm tide instant ab c => (0x02, tide, leBytes 8 instant ++ leBytes 8 (b01 ab) ++ leBytes 8 (causeBits c))
  | .action tide act kind c => (0x03, tide, leBytes 1 act ++ leBytes 15 kind ++ leBytes 8 (causeBits c))
  | .member tide rank st => (0x04, tide, leBytes 2 rank ++ leBytes 22 st)
  | .done tide count step => (0x11, tide, leBytes 2 count ++ leBytes 22 step)
  | .fault tide kind c => (0x12, tide, leBytes 1 0 ++ leBytes 15 kind ++ leBytes 8 (causeBits c))
  | .settled tide count kind c => (0x13, tide, leBytes 2 count ++ leBytes 14 kind ++ leBytes 8 (causeBits c))
  | .recovered tide count => (0x14, tide, leBytes 24 count)
  | .stopRequest tide ends => (0x15, tide, leBytes 24 (b01 ends))

/-- The 32 bytes of a tree record with its copy number. -/
def recBytes (copy : Nat) (r : TreeRec) : List Byte :=
  let f := recFields r
  leBytes 1 f.1 ++ leBytes 1 copy ++ leBytes 6 f.2.1 ++ f.2.2

/-- Payload words valid. -/
def flitCount (f : HFlit) : Nat := if f.type = 2 then 8 * f.recs.length else f.words.length

/-- Bytes 0 to 251 of a flit (R316). -/
def flitBytes (f : HFlit) : List Byte :=
  let body := if f.type = 2 then f.recs.flatMap fun r => recBytes r.1 r.2 else f.words.flatMap fun w => leBytes 4 w.toNat
  let pos := if f.type = 1 then leBytes 2 f.block ++ leBytes 1 f.index
    else if f.type = 3 then leBytes 3 (f.block * 256 + f.index) else leBytes 3 0
  leBytes 1 (f.type + 16 * b01 f.last) ++ leBytes 1 f.tideLo ++ leBytes 2 f.channel ++ leBytes 2 f.src ++ leBytes 2 f.dst
    ++ pos ++ leBytes 1 (flitCount f) ++ (body ++ List.replicate 240 0).take 240

/-- The CRC of a flit with sequence number `n`, from rank and port (R318). -/
def flitCrc (f : HFlit) (n rank port : Nat) : Word :=
  let fold := n * 2 ^ 16 + (if f.type = 5 then 0 else rank * 2 ^ 6 + port * 2 ^ 3)
  BitVec.ofNat 32 (crc32c (leBytes 8 fold ++ flitBytes f))

/-! Control-slot queues (R333 to R335) -/

/-- Queue a record on port `q`: four copies in consecutive control slots (R334). -/
def State.queueRec (s : State) (q : Nat) (r : TreeRec) : State :=
  let l : List HFlit := [0, 1, 2, 3].map fun c =>
    { type := 2, src := s.job.rank, dst := (s.hport q).farRank, recs := [(c, r)] }
  s.modHport q fun x => { x with urgent := x.urgent ++ l }

/-- Send a record to the parent. -/
def State.sendUp (s : State) (r : TreeRec) : State :=
  match s.job.parentPort with
  | none => s
  | some q => s.queueRec q r

/-- Send a record to every child. -/
def State.sendDown (s : State) (r : TreeRec) : State := each s.job.childPorts (fun q st => st.queueRec q r) s

/-- Cut a message into flits of up to 60 words of a channel, from flit number `i` on. -/
def flitsOfWords (type ch src dst : Nat) : Nat → Nat → List Word → List HFlit
  | 0, _, _ => []
  | n + 1, i, ws =>
    let per := if type = 3 then 256 else 64
    let f : HFlit := { type := type, channel := ch, src := src, dst := dst, words := ws.take 60
                       last := decide (ws.length ≤ 60) || (type ≠ 3 && decide (i % 64 = 63)), block := i / per, index := i % per }
    if ws.length ≤ 60 && f.ends then [f] else f :: flitsOfWords type ch src dst n (i + 1) (ws.drop 60)

/-- A message as flits. -/
def messageFlits (type ch src dst : Nat) (ws : List Word) : List HFlit := flitsOfWords type ch src dst (ws.length + 2) 0 ws

/-- Queue tree data on a port: the outcome table is urgent, the rest bulk (R335). Rank 0 originates all of it (R341, R342). -/
def State.queueTree (s : State) (q ch : Nat) (ws : List Word) : State :=
  let l := messageFlits 3 ch 0 (s.hport q).farRank ws
  if ch = 0xFFF1 then s.modHport q fun x => { x with urgent := x.urgent ++ l }
  else s.modHport q fun x => { x with bulk := x.bulk ++ l }

/-- Tree data up the tree. -/
def State.treeUp (s : State) (ch : Nat) (ws : List Word) : State :=
  match s.job.parentPort with
  | none => s
  | some q => s.queueTree q ch ws

/-- Tree data down to every child. -/
def State.treeDown (s : State) (ch : Nat) (ws : List Word) : State :=
  each s.job.childPorts (fun q st => st.queueTree q ch ws) s

/-! Slot tables and channels (R320 to R324) -/

/-- Fabric sections of the partitions that hold an image, with their partitions. -/
def State.fabricSecs (s : State) : List (Nat × FabricSec) :=
  s.parts.filterMap fun p => match p.2.image with
    | none => none
    | some b => b.fabric.map fun f => (p.1, f)

/-- Entry `k` of port `q`'s slot table: the first section that fills it. [DESIGN CHOICE, log entry 52] -/
def State.slotEntry (s : State) (q k : Nat) : Nat :=
  ((s.fabricSecs.map fun f => (tget 0 f.2.slots (q * 4096 + k)).toNat).find? fun v => v ≠ 0).getD 0

/-- KIND of a slot table entry (R321). -/
def slotKind (v : Nat) : Nat := bits v 31 30
/-- IN_PORT of a slot table entry. -/
def slotIn (v : Nat) : Nat := bits v 29 27
/-- CHANNEL of a slot table entry. -/
def slotChan (v : Nat) : Nat := bits v 15 0

/-- Some output port forwards this channel from this input (R323). -/
def State.forwards (s : State) (inp ch : Nat) : Bool :=
  s.fabricSecs.any fun f => f.2.slots.any fun e =>
    slotKind e.2.toNat = 2 && slotIn e.2.toNat = inp && slotChan e.2.toNat = ch

/-- The output port with a LOCAL entry for a channel. -/
def State.localPort (s : State) (ch : Nat) : Option Nat :=
  (List.range 6).find? fun q => s.fabricSecs.any fun f => f.2.slots.any fun e =>
    decide (e.1 / 4096 = q) && slotKind e.2.toNat = 1 && slotChan e.2.toNat = ch

/-- A channel of this device by id and role, with its partition (R324). -/
def State.channel (s : State) (ch : Nat) (send : Bool) : Option (Nat × Channel) :=
  s.fabricSecs.findSome? fun f => (f.2.channels.find? fun c => c.id = ch && c.send = send).map fun c => (f.1, c)

/-- Send channels of a port. -/
def State.sendChannels (s : State) (q : Nat) : Nat :=
  s.fabricSecs.foldl (fun n f => n + (f.2.channels.filter fun c => c.send && decide (c.port = q)).length) 0

/-- The header line of an endpoint: the unit that serves it, its tile and word (R324, R343). -/
structure Endpoint where
  unit : EdgeUnit
  tile : TileId
  word : Nat
  noticeEn : Bool
  notice : Nat
  deriving DecidableEq, Repr

/-- A channel's endpoint at port `q`. -/
def chanEndpoint (q : Nat) (c : Channel) : Endpoint :=
  { unit := .hikolink q, tile := tileIx c.x c.y, word := c.word, noticeEn := c.noticeEn, notice := c.notice }

/-- The half of the collective engine that serves tile `t`: the one nearer to its router. [DESIGN CHOICE, log entry 135] -/
def State.collHalf (s : State) (t : TileId) : EdgeUnit := if (s.routerOf t).1 < 74 then .collWest else .collEast

/-- A segment's endpoint, served by the half that `half` gives. -/
def segEndpoint (half : TileId → EdgeUnit) (g : Segment) : Endpoint :=
  { unit := half (tileIx g.x g.y), tile := tileIx g.x g.y, word := g.word, noticeEn := g.noticeEn, notice := g.notice }

/-- The value READY and DONE take for block `b` of a tide (R325). -/
def blockValue (tide b : Nat) : Word := BitVec.ofNat 32 (tide % 65536 * 65536 + b)

/-- The read of word `i` of an endpoint's header line, on VC2 (R325). -/
def Endpoint.ask (e : Endpoint) (i : Nat) : List Packet := readPkts e.unit 2 e.tile (4 * (e.word + i)) 4

/-- The write of word `i` of an endpoint's header line (R325). -/
def Endpoint.put (e : Endpoint) (i : Nat) (v : Word) : List Packet :=
  writePkts e.unit 2 e.tile (4 * (e.word + i)) (leBytes 4 v.toNat)

/-- The read of an endpoint's data, on VC3 (R325). -/
def Endpoint.read (e : Endpoint) (n : Nat) : List Packet := readPkts e.unit 3 e.tile (4 * e.word + 16) n

/-- The write of an endpoint's data, on VC3 (R325). -/
def Endpoint.write (e : Endpoint) (b : List Byte) : List Packet := writePkts e.unit 3 e.tile (4 * e.word + 16) b

/-- The one-word notice to an endpoint's queue (R326, R327). -/
def State.notify (s : State) (v : Word) (e : Endpoint) : State := if e.noticeEn then s.unitNotice e.unit e.tile e.notice v else s

/-- Every endpoint of a section. -/
def secEndpoints (f : FabricSec) : List Endpoint := f.channels.map fun c => chanEndpoint c.port c

/-- Every endpoint of a partition: its channels and its plans' segments. -/
def bodyEndpoints (half : TileId → EdgeUnit) (b : ProgramBody) : List Endpoint :=
  (match b.fabric with
   | none => []
   | some f => secEndpoints f) ++ b.plans.flatMap fun c => (c.ins ++ c.outs).map (segEndpoint half)

/-- Key of the writes that clear a partition's endpoints. -/
def keyClear (p : Nat) : Nat := 8 + p

/-- READY and DONE of every endpoint of a partition become 0xFFFF_FFFF (R328): the writes are sent. -/
def State.clearEndpoints (s : State) (p : Nat) : State :=
  let l := ((s.part p).image.map (bodyEndpoints s.collHalf)).getD []
  (s.unitAsk (keyClear p) 0 p (l.flatMap fun e => e.put 0 0xFFFFFFFF ++ e.put 1 0xFFFFFFFF)).modPart p fun q =>
    { q with cleared := true }

/-- The partition's image has endpoints. -/
def State.hasEndpoints (s : State) (p : Nat) : Bool := !(((s.part p).image.map (bodyEndpoints s.collHalf)).getD []).isEmpty

/-- Every staged, held and received flit of the tide is discarded, with the blocks passed (R328). -/
def State.dropFlits (s : State) : State :=
  each (List.range 6) (fun q st => st.modHport q fun x => { x with forward := [], staged := [], received := [] })
    { s with job := { s.job with chanBlocks := [], rx := s.job.rx.filter fun e => e.1 / 1024 ≥ 0xFFF0 } }

/-! Faults of the fabric (R338, R339, R352) -/

/-- Partitions of this device that run in the job. -/
def State.jobParts (s : State) : List Nat := (s.parts.filter fun p => running p.2.st && p.2.inJob).map fun p => p.1

/-- Those of them that run its tide: one whose first tide has not started waits for the next drumbeat (R216, R337). -/
def State.tideParts (s : State) : List Nat :=
  s.jobParts.filter fun p => !((s.part p).st = .open_ && (s.part p).awaiting && !(s.part p).replaying)

/-- The tide a record of this device concerns: that of its partitions in the job, else the last drumbeat's. -/
def State.jobTide (s : State) : Nat :=
  match s.jobParts with
  | [] => s.job.tide
  | p :: _ => (s.part p).tide

/-- A fault of the fabric or the job: its event, stamped against the job's tide, and its cause in every partition that runs
in the job (R337). -/
def State.jobFault (s : State) (code sev unit payload : Nat) (kind : FaultKind) (act : Nat) : State :=
  let ps := s.jobParts
  let s := s.raiseFault (ps.any s.afterDone) { code := code, sev := sev, unit := unit, payload := BitVec.ofNat 64 payload
                                               noTide := ps.isEmpty, tide := if ps.isEmpty then 0 else s.jobTide
                                               replay := !ps.isEmpty && s.job.nextReplay }
  each ps (fun p st => st.addCause p { kind := kind, code := code, unit := unit, act := act }) s

/-- The device runs on its own oscillator and keeps counting from the job clock (R332, R440). -/
def State.ownClock (s : State) : State :=
  { s with job := { s.job with onRecovered := false }, power := { s.power with refOscillator := true } }

/-- The job has lost the link of port `q`: it is broken, and without its parent this device is cut off, unless the neighbour had left
(R351, R352). -/
def State.lostLink (s : State) (gone : Bool) (q : Nat) : State :=
  { s with job := { s.job with broken := s.job.broken || !gone, cut := s.job.cut || (!gone && s.job.parentPort = some q) } }

/-- FABRIC_LINK_DOWN (R319, R353): the port is down; a stop fault while it is a port of the job. A member that has
left is not lost (R351). The port absorbs what is addressed to its neighbour from then on (R352). [DESIGN CHOICE, log entry 120] -/
def State.linkDown (s : State) (q cause : Nat) : State :=
  let s := s.modHport q fun x => { x with
    up := false, greeted := false, named := false, absorbing := x.absorbing || (s.job.formed && s.job.needsPort q) }
  let pay := cause * 2 ^ 62 + (s.hport q).farRank * 2 ^ 48
  if s.job.formed && s.job.needsPort q then
    let gone := s.job.away.contains (s.hport q).farRank
    ((if gone then s else s.ownClock).lostLink gone q).jobFault 0x0502 4 (unitId 4 q) pay .stop 6
  else s.raiseDev 0x0502 4 (unitId 4 q) pay

/-- FABRIC_FLIT_LOST on a port: `what` 0 DATA, 1 POISON, 2 TREE_DATA (R319, R353). -/
def State.flitLost (s : State) (q : Nat) (f : HFlit) (what : Nat) : State :=
  s.jobFault 0x0501 3 (unitId 4 q) (f.channel * 2 ^ 48 + f.src * 2 ^ 38 + what * 2 ^ 36 + (s.hport q).badTide) .hardware 0

/-- FABRIC_OVERRUN (R323). -/
def State.overrun (s : State) (q ch cause : Nat) : State :=
  s.jobFault 0x0503 3 (unitId 4 q) (ch * 2 ^ 48 + cause * 2 ^ 46) .program 0

end Sys2Proof.Machine
end

