-- ==== Sys2Proof/Machine/Script.lean ====
section
/-!
DEFINITION. The script machine of the stream engine, the tiering unit and the collective engine
(spec/11_streams.md R288, R289): its load checks and its runs.
-/

namespace Sys2Proof.Machine

/-- Opcode of a script instruction (R288). -/
def scOp (w : Word) : Nat := bits w.toNat 31 26
/-- Field rd. -/
def scRd (w : Word) : Nat := bits w.toNat 25 22
/-- Field ra. -/
def scRa (w : Word) : Nat := bits w.toNat 21 18
/-- Field rb. -/
def scRb (w : Word) : Nat := bits w.toNat 17 14
/-- Field imm. -/
def scImm (w : Word) : Nat := bits w.toNat 13 0

/-- The fields an instruction leaves unused are 0, and its opcode is not reserved (R288, R289). -/
def scForm (w : Word) : Bool :=
  let o := scOp w
  if o = 0 then decide (w.toNat = 0)
  else if o ≤ 0x0C then decide (scImm w = 0)
  else if o ≤ 0x0E then decide (scRb w = 0)
  else if o = 0x0F then decide (scRa w = 0) && decide (scRb w = 0) && decide (scImm w < 64)
  else if o ≤ 0x12 then decide (scRd w = 0) && decide (scImm w < 256) && decide (scImm w ≠ 0)
  else if o = 0x13 then decide (scRd w = 0) && decide (scRb w = 0) && decide (scImm w < 256)
  else false

/-- The load checks of R289. -/
def scriptOk (code : List Word) : Bool :=
  decide (1 ≤ code.length) && decide (code.length ≤ 256) && code.all scForm
    && ((List.range code.length).zip code).all (fun p =>
      decide (scOp p.2 < 0x10) || decide (p.1 + scImm p.2 ≤ code.length))
    && decide ((code.filter fun w => scOp w = 0x13).length ≤ 1)

/-- A run of a script: its next instruction, its registers and its loop (first, last, passes left). -/
structure ScRun where
  pc : Nat := 0
  regs : List Word := []
  loop : Option (Nat × Nat × Nat) := none
  deriving DecidableEq, Repr

/-- Register r of a run: r0 reads 0. -/
def ScRun.reg (x : ScRun) (r : Nat) : Word := if r = 0 then 0 else x.regs.getD r 0

/-- Registers with one written: writes to r0 are discarded. -/
def ScRun.put (x : ScRun) (r : Nat) (v : Word) : ScRun :=
  if r = 0 then x else { x with regs := (List.range 16).map fun i => if i = r then v else x.regs.getD i 0 }

/-- What an instruction writes to rd, if it writes it (R288). -/
def ScRun.result (x : ScRun) (inp : Nat → Word) (w : Word) : Option Word :=
  let a := x.reg (scRa w)
  let b := x.reg (scRb w)
  match scOp w with
  | 0x01 => some (a + b)
  | 0x02 => some (a - b)
  | 0x03 => some (a &&& b)
  | 0x04 => some (a ||| b)
  | 0x05 => some (a ^^^ b)
  | 0x06 => some (a <<< (b.toNat % 32))
  | 0x07 => some (a >>> (b.toNat % 32))
  | 0x08 => some (a * b)
  | 0x09 => some (if a.ult b then a else b)
  | 0x0A => some (if a.ult b then b else a)
  | 0x0B => some (if a.ult b then 1 else 0)
  | 0x0C => some (if a.slt b then 1 else 0)
  | 0x0D => some (a + (BitVec.ofNat 14 (scImm w)).signExtend 32)
  | 0x0E => some ((a <<< 14) ||| BitVec.ofNat 32 (scImm w))
  | 0x0F => some (inp (scImm w % 64))
  | _ => none

/-- The branch is taken. -/
def ScRun.taken (x : ScRun) (w : Word) : Bool :=
  let a := x.reg (scRa w)
  let b := x.reg (scRb w)
  match scOp w with
  | 0x10 => a == b
  | 0x11 => a != b
  | 0x12 => a.ult b
  | _ => false

/-- After the instruction at `pc` in sequence: the loop returns, or ends, at its last instruction. -/
def ScRun.next (x : ScRun) : ScRun :=
  match x.loop with
  | some (f, l, n) =>
    if x.pc = l then
      if n > 1 then { x with pc := f, loop := some (f, l, n - 1) } else { x with pc := x.pc + 1, loop := none }
    else { x with pc := x.pc + 1 }
  | none => { x with pc := x.pc + 1 }

/-- A transfer to `target`: past the loop's last instruction it ends the loop. -/
def ScRun.goto (x : ScRun) (target : Nat) : ScRun :=
  { x with pc := target, loop := match x.loop with
      | some (f, l, n) => if target > l then none else some (f, l, n)
      | none => none }

/-- One instruction (R288): END is answered with none. -/
def ScRun.step (x : ScRun) (inp : Nat → Word) (w : Word) : Option ScRun :=
  if scOp w = 0 then none
  else if scOp w = 0x13 then
    let n := (x.reg (scRa w)).toNat
    if n = 0 || scImm w = 0 then some (x.goto (x.pc + scImm w + 1))
    else some { x with pc := x.pc + 1, loop := some (x.pc + 1, x.pc + scImm w, n) }
  else if x.taken w then some (x.goto (x.pc + scImm w))
  else match x.result inp w with
    | some v => some ((x.put (scRd w) v).next)
    | none => some x.next

/-- A run of at most `limit` steps: the registers at its end, and whether it ended before the limit. -/
def runScript (code : List Word) (inp : Nat → Word) : Nat → ScRun → List Word × Bool
  | limit, x =>
    match code[x.pc]? with
    | none => (x.regs, true)
    | some w =>
      match limit with
      | 0 => (x.regs, false)
      | n + 1 =>
        match x.step inp w with
        | none => (x.regs, true)
        | some y => runScript code inp n y

/-- Registers r0 to r15 from the named ones. -/
def scriptRegs (l : List (Nat × Nat)) : List Word :=
  (List.range 16).map fun i => BitVec.ofNat 32 ((l.lookup i).getD 0)

end Sys2Proof.Machine
end

