-- ==== Sys2Proof/Machine/Streams.lean ====
section
/-!
DEFINITION. The stream engine's records and what a commit does to them (spec/11_streams.md R277 to R312): descriptors,
ring entries, admission, slot tables, results, outcomes and completion records.
-/

namespace Sys2Proof.Machine

/-! Ring lines (R286, R307, R373, R374) -/

/-- Key of a partition's completion ring line among the cached lines. [DESIGN CHOICE, log entry 123] -/
def cringKey (p : Nat) : Nat := 32768 + p

/-- The partition whose ring line has key `k`. -/
def State.keyPart (s : State) (k : Nat) : Option Nat := if k ≥ 32768 then some (k - 32768) else s.partOfSlot k

/-- Cache_Enable as a partition goes by it: as it was, from a change until the partition's next stop point (R374). -/
def State.cacheAt (s : State) (p : Nat) : Bool :=
  match s.link.cacheLag.find? fun e => e.1 = p with
  | some e => e.2
  | none => s.link.cacheEnable

/-- The line with key `k` is one the engine may hold through CXL.cache. -/
def State.cached (s : State) (k : Nat) : Bool :=
  match s.keyPart k with
  | some p => s.cacheAt p
  | none => s.link.cacheEnable

/-- Ring lines the engine watches through CXL.cache (R373). -/
def State.watched (s : State) : List Nat :=
  ((s.streams.filter fun x => x.2.st ≠ .closed && x.2.st ≠ .parked && !x.2.doorbellOnly).map fun x => x.1)
    ++ (s.parts.filter fun p => p.2.st ≠ .none).map fun p => cringKey p.1

/-- The engine is to read a ring-head line again (R286, R373). -/
def State.wantLine (s : State) (k : Nat) : State :=
  { s with link := { s.link with lines := s.link.lines.filter (· ≠ k)
                                 stale := if s.link.stale.contains k then s.link.stale else s.link.stale ++ [k] } }

/-- Forget a ring line. -/
def State.dropLine (s : State) (k : Nat) : State :=
  { s with link := { s.link with lines := s.link.lines.filter (· ≠ k), stale := s.link.stale.filter (· ≠ k) } }

/-- The lines that satisfy `f` are given up, and those of them that may be cached are to be read (R373, R374). -/
def State.readLinesOf (s : State) (f : Nat → Bool) : State :=
  let keep := fun (l : List Nat) => l.filter fun k => !(f k)
  { s with link := { s.link with lines := keep s.link.lines
                                 stale := keep s.link.stale ++ s.watched.filter fun k => f k && s.cached k } }

/-- Every watched line is to be read (again); without CXL.cache none is (R374, R380). -/
def State.readLines (s : State) : State := s.readLinesOf fun _ => true

/-- A stop point of partition `p`: a change of Cache_Enable takes effect for it (R374). -/
def State.applyCache (s : State) (p : Nat) : State :=
  if s.link.cacheLag.any fun e => e.1 = p then
    State.readLinesOf { s with link := { s.link with cacheLag := s.link.cacheLag.filter fun e => e.1 ≠ p } } fun k => s.keyPart k = some p
  else s

/-- Only rank 0 of a job runs the stream engine's host side (R310). -/
def State.streamRoot (s : State) : Bool := !s.job.formed || decide (s.job.i + s.job.j + s.job.k = 0)

/-- Without CXL.cache the engine reads the completion ring's CONSUMER by CXL.io: in each boundary gap, and when admission is held back
for want of completion records (R374). -/
def State.readConsumer (s : State) (p : Nat) : State :=
  if s.cacheAt p || !s.link.access || !s.streamRoot then s
  else { s.wantLine (cringKey p) with posted := s.posted ++ [Posted.hostRead p ((s.part p).cringBase + 64) 4] }

/-! Descriptors (R278) -/

/-- Number of a stream state (R278). -/
def ssCode (x : SState) : Nat :=
  match x with
  | .closed => 0
  | .open_ => 1
  | .active => 2
  | .parked => 3
  | .draining => 4

/-- SCTL (R278). -/
def Stream.sctl (x : Stream) : Nat :=
  ssCode x.st * 2 ^ 29 + b01 x.enableHeld * 2 ^ 28 + b01 x.parking * 2 ^ 27 + x.part * 2 ^ 24 + x.ringLog * 2 ^ 20
    + b01 x.doorbellOnly * 2 ^ 19 + x.maxDraft * 2 ^ 16 + b01 x.drafter * 2 ^ 15 + b01 x.pending * 2 ^ 14 + x.tokenUnits

/-- A stream slot's 128-byte descriptor (R278). -/
def Stream.bytes (x : Stream) : List Byte :=
  leBytes 4 x.sctl ++ leBytes 4 x.pageBase ++ leBytes 4 x.pageCount ++ leBytes 4 x.stopToken.toNat ++ leBytes 8 x.ringBase
    ++ leBytes 4 x.consumer ++ leBytes 4 x.producerSeen ++ leBytes 8 x.tokenPos ++ leBytes 16 x.sampleKey.toNat
    ++ leBytes 4 x.temperature.toNat ++ leBytes 4 x.pendingToken.toNat ++ leBytes 4 x.tokenLimit ++ leBytes 4 x.promptLeft
    ++ leBytes 6 x.lastAdmit ++ leBytes 2 x.draftLink ++ leBytes 8 x.cookie.toNat ++ leBytes 40 x.priority

/-- A slot opened with a descriptor of STREAM_OPEN (R278, R404). -/
def openStream (part : Nat) (d : List Byte) : Stream :=
  let f := fun (o n : Nat) => leNat ((d.drop o).take n)
  let c := f 0 4
  { st := .open_, part := part, ringLog := bits c 23 20, doorbellOnly := bit c 19, maxDraft := bits c 18 16
    drafter := bit c 15, tokenUnits := bits c 11 0, pageBase := f 4 4, pageCount := f 8 4
    stopToken := BitVec.ofNat 32 (f 12 4), ringBase := f 16 8, sampleKey := BitVec.ofNat 128 (f 40 16)
    temperature := BitVec.ofNat 32 (f 56 4), tokenLimit := f 64 4, draftLink := f 78 2
    cookie := BitVec.ofNat 64 (f 80 8), priority := f 88 1 }

/-- A stream state by its number. -/
def ssOf (n : Nat) : SState :=
  match n with
  | 1 => .open_
  | 2 => .active
  | 3 => .parked
  | 4 => .draining
  | _ => .closed

/-- This device's copy of a descriptor of the stream root: all 128 bytes, the engine's own record kept (R310, R342). -/
def Stream.copyOf (x : Stream) (d : List Byte) : Stream :=
  let f := fun (o n : Nat) => leNat ((d.drop o).take n)
  let c := f 0 4
  { x with
    st := ssOf (bits c 31 29), enableHeld := bit c 28, parking := bit c 27, part := bits c 26 24, ringLog := bits c 23 20
    doorbellOnly := bit c 19, maxDraft := bits c 18 16, drafter := bit c 15, pending := bit c 14, tokenUnits := bits c 11 0
    pageBase := f 4 4, pageCount := f 8 4, stopToken := BitVec.ofNat 32 (f 12 4), ringBase := f 16 8, consumer := f 24 4
    producerSeen := f 28 4, tokenPos := f 32 8, sampleKey := BitVec.ofNat 128 (f 40 16)
    temperature := BitVec.ofNat 32 (f 56 4), pendingToken := BitVec.ofNat 32 (f 60 4), tokenLimit := f 64 4
    promptLeft := f 68 4, lastAdmit := f 72 6, draftLink := f 78 2, cookie := BitVec.ofNat 64 (f 80 8), priority := f 88 1 }

/-- Open and not draining or parked. -/
def isOpen (x : SState) : Bool := x = .open_ || x = .active

/-- OPEN or ACTIVE, by whether there is input (R281). -/
def Stream.refresh (x : Stream) : Stream :=
  if isOpen x.st then { x with st := if x.pending || decide (x.promptLeft > 0) then .active else .open_ } else x

/-- Tokens per page: k = floor(2,048 / u) (R280). -/
def Stream.perPage (x : Stream) : Nat := 2048 / x.tokenUnits

/-- The slot is admitted to the tide at hand or to the next one. -/
def State.isAdmitted (s : State) (slot : Nat) : Bool :=
  match s.partOfSlot slot with
  | none => false
  | some p => ((s.part p).admitted ++ (s.part p).nextAdmitted).any fun a => a.stream = slot

/-- A stream becomes DRAINING; the first cause stands (R281, R306). -/
def State.drain (s : State) (slot cause : Nat) : State :=
  s.modStream slot fun x => if isOpen x.st then { x with st := .draining, drainCause := cause } else x

/-- The CLOSED record of a draining stream that is in no admitted tide (R281, R309); a drafter writes none (R304). `covered`: it is
one of the records reserved at the stream's admission (R307). -/
def State.closeOut (s : State) (slot : Nat) (covered : Bool) : State :=
  let x := s.stream slot
  if x.st = .draining ∧ !x.closedWritten ∧ !(s.isAdmitted slot) then
    let s := s.modStream slot fun y => { y with closedWritten := true }
    match s.partOfSlot slot with
    | none => s
    | some p =>
      if x.drafter || !s.streamRoot then s
      else s.modPart p fun q => { q with unreserved := q.unreserved + b01 (!covered), completions := q.completions ++
        [{ stream := slot, kind := 3, pos := x.tokenPos % 2 ^ 32, cause := x.drainCause, tide := q.lastCommitted }] }
  else s

/-- STREAM_RING_FAULT (R285, R287, R312): the stream drains, and closes where it is in no admitted tide (R281). -/
def State.ringFault (s : State) (slot cause : Nat) : State :=
  let x := s.stream slot
  let pay := slot * 2 ^ 49 + cause * 2 ^ 47 + x.consumer
  let s := match s.partOfSlot slot with
    | some p => s.raisePart p 0x0302 2 streamUnit pay
    | none => s.raiseDev 0x0302 2 streamUnit pay
  ((s.modStream slot fun y => { y with ringStopped := true }).drain slot 5).closeOut slot false

/-! Ring entries (R284, R303) -/

/-- `b` is behind `pos` modulo 2^32: by less than half the range (R303). [DESIGN CHOICE, log entry 165] -/
def behind (b pos : Nat) : Bool :=
  let d := (pos % 2 ^ 32 + 2 ^ 32 - b) % 2 ^ 32
  decide (0 < d) && decide (d < 2 ^ 31)

/-- Prompt tokens committed are taken from the entries in order. -/
def consumeTokens : Nat → List RingEntry → List RingEntry
  | _, [] => []
  | n, .tokens l :: r => .tokens (l - n) :: consumeTokens (n - l) r
  | n, e :: r => e :: consumeTokens n r

/-- Drafts entries behind the position are consumed: the entries, and how many were stale (R303). -/
def staleDrafts (pos : Nat) : List RingEntry → List RingEntry × Nat
  | [] => ([], 0)
  | .drafts b t false :: r =>
    let q := staleDrafts pos r
    if behind b pos then (.drafts b t true :: q.1, q.2 + 1) else (.drafts b t false :: q.1, q.2)
  | e :: r => (e :: (staleDrafts pos r).1, (staleDrafts pos r).2)

/-- The drafts entry is ready at `pos`. -/
def draftReady (pos : Nat) (e : RingEntry) : Bool :=
  match e with
  | .drafts b _ false => b = pos % 2 ^ 32
  | _ => false

/-- Entries whose drafts a tide's slot took are used: the first ready ones, that hold the first `n` drafts. -/
def useDrafts (pos : Nat) : Nat → List RingEntry → List RingEntry
  | _, [] => []
  | n, .drafts b t false :: r =>
    if b = pos % 2 ^ 32 ∧ 0 < n then .drafts b t true :: useDrafts pos (n - t.length) r else .drafts b t false :: useDrafts pos n r
  | n, e :: r => e :: useDrafts pos n r

/-- Entries CONSUMER passes: what is left, and how many passed (R284). -/
def passEntries : List RingEntry → List RingEntry × Nat
  | .tokens 0 :: r => let q := passEntries r; (q.1, q.2 + 1)
  | .drafts _ _ true :: r => let q := passEntries r; (q.1, q.2 + 1)
  | .finish :: r => (r, 1)
  | l => (l, 0)

/-- FINISH takes effect: every prompt token before it has committed (R284). -/
def finishDue : List RingEntry → Bool
  | [] => false
  | .finish :: _ => true
  | .tokens l :: r => l = 0 && finishDue r
  | .drafts _ _ _ :: r => finishDue r

/-- Settle a stream's entries at its position: stale drafts, CONSUMER, FINISH. -/
def State.settleRing (s : State) (slot : Nat) (write : Bool) : State :=
  let x := s.stream slot
  let st := staleDrafts x.tokenPos x.ringEntries
  let ps := passEntries st.1
  let c := (x.consumer + ps.2) % 2 ^ 32
  let s := s.modStream slot fun y => { y with ringEntries := ps.1, consumer := c }
  let s := match s.partOfSlot slot with
    | some p => s.modPart p fun q => { q with draftsStale := (q.draftsStale + st.2) % 2 ^ 32 }
    | none => s
  let s := if write && decide (ps.2 > 0) && s.link.access && s.streamRoot then
      { s with posted := s.posted ++ [Posted.word x.part (x.ringBase + 64) (BitVec.ofNat 32 c)] }
    else s
  if finishDue st.1 then (s.drain slot 2).closeOut slot false else s

/-- Drafts ready for the stream's position (R303, R304): consecutive ready entries of the ring join. -/
def Stream.draftsReady (x : Stream) : List Word :=
  if x.draftLink = 0xFFFF then
    ((x.ringEntries.dropWhile fun e => !(draftReady x.tokenPos e)).takeWhile (draftReady x.tokenPos)).flatMap fun e => match e with
      | .drafts _ t _ => t
      | _ => []
  else match x.linkDrafts with
    | some (b, t) => if b = x.tokenPos then t else []
    | none => []

/-- Drafts of the linked drafter that a commit of its target leaves behind, when `n` of them were in the tide (R304, R311). -/
def Stream.drifted (x : Stream) (n : Nat) : Nat :=
  match x.linkDrafts with
  | some (b, t) => if b = x.tokenPos then t.length - n else t.length
  | none => 0

/-! Prompt tokens (R284) -/

/-- The first `n` prompt tokens. -/
def promptTake : Nat → List PromptPart → List PromptPart
  | _, [] => []
  | n, .toks l :: r => .toks (l.take n) :: (if l.length < n then promptTake (n - l.length) r else [])
  | n, .ref a k :: r => .ref a (min k n) :: (if k < n then promptTake (n - k) r else [])

/-- The prompt without its first `n` tokens. -/
def promptDrop : Nat → List PromptPart → List PromptPart
  | _, [] => []
  | n, .toks l :: r => if l.length ≤ n then promptDrop (n - l.length) r else .toks (l.drop n) :: r
  | n, .ref a k :: r => if k ≤ n then promptDrop (n - k) r else .ref (a + 4 * n) (k - n) :: r

/-- Tokens in parts of a prompt. -/
def promptLen (l : List PromptPart) : Nat :=
  l.foldl (fun n p => n + match p with
    | .toks l => l.length
    | .ref _ k => k) 0

/-- Leading tokens that the engine holds, and the parts after them. -/
def heldTokens : List PromptPart → List Word × List PromptPart
  | .toks l :: r => (l ++ (heldTokens r).1, (heldTokens r).2)
  | l => ([], l)

/-- Held tokens join an admitted stream's inputs. -/
def Admit.absorb (a : Admit) : Admit :=
  let h := heldTokens a.want
  { a with inputs := a.inputs ++ h.1, want := h.2 }

/-- Inputs of an admitted stream. -/
def Admit.count (a : Admit) : Nat := a.inputs.length + promptLen a.want

/-! Admission (R290 to R296, R307) -/

/-- The pages of a stream: page numbers and entries (R263). -/
def State.pagesOf (s : State) (slot : Nat) : List (Nat × Page) :=
  s.pages.filter fun g => g.2.st ≠ .free ∧ g.2.owner = slot

/-- The candidates of tide `tide` in ascending slot (R292). -/
def State.candidates (s : State) (p tide : Nat) : List Nat :=
  let q := s.part p
  ((List.range q.slotCount).map (q.slotFirst + ·)).filter fun n =>
    let x := s.stream n
    x.st = .active && !x.parking && !(q.admitted.any fun a => a.stream = n)
      && (!x.drafter || (match x.drafterAfter with
        | some c => decide (tide ≠ c + 1)
        | none => false))

/-- The script registers of a candidate (R293). [DEDUCED, log entry 114] -/
def State.admitRegs (s : State) (n tide : Nat) : List Word :=
  let x := s.stream n
  let ready := x.draftsReady.length
  let r2 := b01 x.pending + 2 * b01 (decide (x.promptLeft > 0)) + 4 * b01 (decide (ready > 0)) + 8 * b01 x.deferredLast
    + 16 * b01 ((s.pagesOf n).any fun g => g.2.st = .cxl)
  scriptRegs [(1, n), (2, r2), (3, sat (tide - x.lastAdmit) 0xFFFFFFFF), (4, x.promptLeft), (5, ready), (6, x.priority),
    (7, x.tokenPos % 2 ^ 32)]

/-- Word `w` of a stream's descriptor. -/
def Stream.word (x : Stream) (w : Nat) : Word := BitVec.ofNat 32 (leNat ((x.bytes.drop (4 * w)).take 4))

/-- One candidate's run: rank, drafts wanted, and whether the step limit was reached (R293). -/
def State.admitScore (s : State) (sec : AdmissionSec) (n tide : Nat) : Nat × Nat × Bool :=
  let r := runScript sec.code (fun w => if w < 32 then (s.stream n).word w else 0) sec.stepLimit { regs := s.admitRegs n tide }
  if r.2 then ((r.1.getD 15 0).toNat, (r.1.getD 14 0).toNat, true) else (0, 0, false)

/-- A candidate with its rank, drafts wanted and tides since its last admission. -/
structure Scored where
  slot : Nat
  rank : Nat
  want : Nat
  age : Nat
  deriving DecidableEq, Repr

/-- `a` is taken before `b` (R294). -/
def Scored.before (a b : Scored) : Bool :=
  decide (b.rank < a.rank) || (a.rank = b.rank && (decide (b.age < a.age) || (a.age = b.age && decide (a.slot ≤ b.slot))))

/-- Records that may still be reserved (R307). -/
def Partition.recordsLeft (q : Partition) (taken : Nat) : Nat :=
  2 ^ q.cringLog - ((q.cringProducer + 2 ^ 32 - q.cringConsumer) % 2 ^ 32 + q.holdArea.length + q.unreserved + q.reserved + taken)

/-- Take candidates in order until the slots are filled; a candidate without its reservation is skipped (R294, R307). -/
def takeCandidates (q : Partition) (each' : Nat) : Nat → Nat → List Scored → List Scored × Nat × Nat
  | _, taken, [] => ([], taken, 0)
  | 0, taken, _ => ([], taken, 0)
  | n + 1, taken, c :: r =>
    if q.recordsLeft taken ≥ each' then
      let t := takeCandidates q each' n (taken + each') r
      (c :: t.1, t.2.1, t.2.2)
    else
      let t := takeCandidates q each' (n + 1) taken r
      (t.1, t.2.1, t.2.2 + 1)

/-- A stream's place in a tide's tables (R294, R295). -/
def State.admitOf (s : State) (sec : AdmissionSec) (slot : Nat) (c : Scored) : Admit :=
  let x := s.stream c.slot
  let pend := if x.pending then [x.pendingToken] else []
  let first := if x.pending then x.tokenPos - 1 else x.tokenPos
  if x.promptLeft > 0 then
    let n := min x.promptLeft (sec.prefillTokens - pend.length)
    ({ slot := slot, stream := c.slot, prefill := true, sample := decide (n = x.promptLeft), drafter := x.drafter
       firstPos := first, inputs := pend, want := promptTake n x.prompt, prompts := n
       draftWant := if x.drafter then (s.stream x.draftLink).maxDraft else 0 } : Admit).absorb
  else
    let ready := x.draftsReady
    let d := min (min c.want ready.length) (min (sec.decodeTokens - 1) x.maxDraft)
    { slot := slot, stream := c.slot, prefill := false, sample := true, firstPos := first
      inputs := pend ++ ready.take d, drafts := d }

/-- A page the inputs append to is FREE (R296): pages of the stream's range only. -/
def State.lacksPage (s : State) (a : Admit) : Bool :=
  let x := s.stream a.stream
  (List.range a.count).any fun i =>
    let g := (a.firstPos + i) / x.perPage
    decide (g < x.pageCount) && (s.page (x.pageBase + g)).st = .free

/-- NO_APPEND of each admitted stream on this device, as the tables are about to be written (R296). -/
def State.checkAppends (s : State) (l : List Admit) : List Admit := l.map fun a => { a with noAppend := s.lacksPage a }

/-- Admission for tide `tide` of a partition (R292 to R296, R311, R312). Where the completion ring lacks room for both groups, prefill
reserves first. [DESIGN CHOICE, log entry 164] -/
def State.admission (s : State) (p tide : Nat) : State :=
  let sec := (((s.part p).image).map fun b => b.admission).getD {}
  let cands := s.candidates p tide
  let scores := cands.map fun n => (n, s.admitScore sec n tide)
  let s := each (scores.filter fun c => !c.2.2.2) (fun c st => st.raisePart p 0x0303 2 streamUnit (c.1 * 2 ^ 49)) s
  let q := s.part p
  let sc := (scores.map fun c => ({ slot := c.1, rank := c.2.1, want := c.2.2.1,
                                    age := sat (tide - (s.stream c.1).lastAdmit) 0xFFFFFFFF } : Scored)).filter
    fun c => c.rank ≠ 0
  let pre := sortBy (sc.filter fun c => (s.stream c.slot).promptLeft > 0) Scored.before
  let dec := sortBy (sc.filter fun c => (s.stream c.slot).promptLeft = 0) Scored.before
  let tp := takeCandidates q 2 sec.prefillSlots 0 pre
  let td := takeCandidates q 3 sec.decodeSlots tp.2.1 dec
  let held := tp.2.2 + td.2.2
  let place := fun (l : List Scored) (first : Nat) =>
    let l := sortBy l fun a b => a.slot ≤ b.slot
    ((List.range l.length).zip l).map fun e => s.admitOf sec (first + e.1) e.2
  let adm := place td.1 0 ++ place tp.1 sec.decodeSlots
  let s := s.modPart p fun q => { q with
    nextAdmitted := adm, admitTide := some tide, reserved := q.reserved + td.2.1
    streamsAdmitted := (q.streamsAdmitted + adm.length) % 2 ^ 48, admitHeld := (q.admitHeld + held) % 2 ^ 32 }
  let s := each adm (fun a st => st.modStream a.stream fun x => { x with lastAdmit := tide }) s
  if held > 0 then (s.readConsumer p).raisePart p 0x0304 1 streamUnit (sat held 0xFFFFFFFF) else s

/-! Tables (R291, R295, R297) -/

/-- The engine's 92 bytes of a slot's record (R295). -/
def State.recordBytes (s : State) (a : Option Admit) : List Byte :=
  match a with
  | none => leBytes 2 0xFFFF ++ leBytes 90 0
  | some a =>
    let x := s.stream a.stream
    leBytes 2 a.stream ++ leBytes 1 (if a.prefill then 2 else 1)
      ++ leBytes 1 (b01 a.sample + 2 * b01 a.noAppend + 4 * b01 a.drafter) ++ leBytes 2 a.inputs.length ++ leBytes 2 a.drafts
      ++ leBytes 8 a.firstPos ++ leBytes 16 x.sampleKey.toNat ++ leBytes 4 x.temperature.toNat ++ leBytes 4 x.pageBase
      ++ leBytes 2 x.tokenUnits ++ leBytes 2 a.draftWant
      ++ (if a.prefill then leBytes 32 0
          else (List.range 8).flatMap fun i => leBytes 4 (a.inputs.getD i 0).toNat)
      ++ leBytes 16 0

/-- Prefill slots of a receiver's range. -/
def recvPrefills (r : Receiver) (sec : AdmissionSec) : List Nat :=
  ((List.range r.slots).map (r.firstSlot + ·)).filter fun n => sec.decodeSlots ≤ n

/-- B: the bytes of a receiver's buffer (R291). -/
def recvSize (r : Receiver) (sec : AdmissionSec) : Nat :=
  64 + 128 * r.slots + 4 * sec.prefillTokens * (recvPrefills r sec).length

/-- First byte of buffer `b` (R291). -/
def recvBase (r : Receiver) (sec : AdmissionSec) (b : Nat) : Nat :=
  4 * r.word + b * ((recvSize r sec + 255) / 256 * 256)

/-- Write bytes into a tile by the service tree, in packets of up to 32 bytes (R183, R197, R297). -/
def State.treeWrite (s : State) (t : TileId) (a : Nat) (b : List Byte) : State :=
  each (List.range ((b.length + 31) / 32)) (fun i st =>
    let d := (b.drop (32 * i)).take 32
    st.toTree t { kind := .mgmt, vc := 0, addr := a + 32 * i, len := d.length, data := d }) s

/-- The tables of a tide into every receiver, header last (R297). -/
def State.writeTables (s : State) (p tide : Nat) (adm : List Admit) : State :=
  let sec := (((s.part p).image).map fun b => b.admission).getD {}
  each sec.receivers (fun r st =>
    let t := tileIx r.x r.y
    let a := recvBase r sec (tide % 2)
    let st := each (List.range r.slots) (fun i st =>
      st.treeWrite t (a + 64 + 128 * i) (st.recordBytes (adm.find? fun m => m.slot = r.firstSlot + i))) st
    let pre := recvPrefills r sec
    let st := each ((List.range pre.length).zip pre) (fun e st =>
      match adm.find? fun m => m.slot = e.2 with
      | none => st
      | some m => st.treeWrite t (a + 64 + 128 * r.slots + 4 * sec.prefillTokens * e.1)
          (m.inputs.flatMap fun w => leBytes 4 w.toNat)) st
    st.treeWrite t a (leBytes 4 (tide % 2 ^ 32) ++ leBytes 60 0)) s

/-- The result places of a tide: the admitted stream, its tile and the first byte, by receiver with RESULT set (R295, R297). -/
def State.resultPlaces (s : State) (p : Nat) : List (Nat × TileId × Nat) :=
  let q := s.part p
  let sec := (q.image.map fun b => b.admission).getD {}
  (sec.receivers.filter fun r => r.result).flatMap fun r =>
    let a := recvBase r sec (q.tide % 2)
    (q.admitted.filter fun m => decide (r.firstSlot ≤ m.slot) && decide (m.slot < r.firstSlot + r.slots)).map fun m =>
      (m.stream, tileIx r.x r.y, a + 64 + 128 * (m.slot - r.firstSlot) + 92)

/-- A reported result joins those of the tide: two receivers that differ clash (R297). -/
def addResult (l : List SlotResult) (stream n : Nat) (toks : List Word) : List SlotResult :=
  match l.find? fun e => e.stream = stream with
  | none => l ++ [{ stream := stream, rcount := n, tokens := toks }]
  | some e => if e.rcount = n && e.tokens.take n = toks.take n then l
      else l.map fun e => if e.stream = stream then { e with clash := true } else e

/-- The results in the bytes read, 36 for each place. -/
def resultsOf : List (Nat × TileId × Nat) → List Byte → List SlotResult → List SlotResult
  | [], _, l => l
  | e :: r, b, l => resultsOf r (b.drop 36) (addResult l e.1 (leNat (b.take 2)) (wordsOfBytes 8 ((b.take 36).drop 4)))

/-- Key of a partition's result reads. -/
def keyResults (p : Nat) : Nat := p

/-- Read the results of a tide from the receivers with RESULT set, over the mesh (R297). -/
def State.readResults (s : State) (p : Nat) : State :=
  match s.unitTake (keyResults p) with
  | (_, .waiting) => s
  | (s1, .done _ b) => s1.modPart p fun q => { q with results := resultsOf (s.resultPlaces p) b [], resultsIn := true }
  | (_, .idle) =>
    match s.resultPlaces p with
    | [] => s.modPart p fun q => { q with results := [], resultsIn := true }
    | l => s.unitAsk (keyResults p) 0 p (l.flatMap fun e => readPkts .stream 2 e.2.1 e.2.2 36)

/-! Outcomes and commit (R300, R305, R306) -/

/-- Results a slot is expected to report (R295). -/
def Admit.expected (a : Admit) : Nat :=
  if a.drafter then a.draftWant else if a.prefill then b01 a.sample else a.drafts + 1

/-- The outcome this device gives a stream (R144, R296, R297, R305, R310): the smallest verdict, capped at DRAFTS; any notice or NO_APPEND
defers it. A clash between receivers, and a count other than the expected one, shows as a count no slot has (R341). -/
def Partition.outcomeOf (q : Partition) (stream : Nat) : VerdictEntry :=
  let mine := q.verdicts.filter fun v => bits v.sa.toNat 14 0 = stream
  let vs := mine.filter fun v => !(v.discard && bit v.sa.toNat 15)
  let acc := (vs.map fun v => if v.discard then 0 else v.sb.toNat).foldl
    (fun (m : Option Nat) n => match m with
      | none => some n
      | some k => some (min k n)) none
  let res := q.results.find? fun e => e.stream = stream
  let adm := q.admitted.find? fun a => a.stream = stream
  let drafts := (adm.map fun a => a.drafts).getD 0
  { slot := stream
    deferred := mine.any (fun v => v.discard && bit v.sa.toNat 15) || q.admitted.any fun a => a.stream = stream && a.noAppend
    accept := acc.map (min · drafts)
    rcount := match res with
      | some e => if e.clash || adm.any (fun a => e.rcount ≠ a.expected) then 15 else min e.rcount 15
      | none => 0
    rtokens := (res.map fun e => e.tokens).getD [] }

/-- Two devices' entries for one slot (R310): the smallest verdict, any deferral; different results show as a count no slot
has. -/
def joinEntry (a b : VerdictEntry) : VerdictEntry :=
  let none' := fun (e : VerdictEntry) => e.rcount = 0
  { slot := a.slot, deferred := a.deferred || b.deferred
    accept := match a.accept, b.accept with
      | none, y => y
      | x, none => x
      | some m, some n => some (min m n)
    rcount := if none' a then b.rcount else if none' b then a.rcount
      else if a.rcount = b.rcount && a.rtokens.take a.rcount = b.rtokens.take a.rcount then a.rcount else 15
    rtokens := if none' a then b.rtokens else a.rtokens }

/-- Entries of all devices combined, one per stream slot, in ascending slot (R310, R341). -/
def joinEntries (l : List VerdictEntry) : List VerdictEntry :=
  (sortBy (l.map fun e => e.slot).eraseDups (· ≤ ·)).filterMap fun n =>
    match l.filter fun e => e.slot = n with
    | [] => none
    | e :: r => some (r.foldl joinEntry e)

/-- A generated list cut after its first stop token (R305). -/
def cutStop (stop : Word) : List Word → List Word
  | [] => []
  | w :: r => if stop ≠ 0xFFFFFFFF ∧ w = stop then [w] else w :: cutStop stop r

/-- What a stream commits: tokens generated, inputs kept, and the drafts accepted (R305). -/
structure Commit where
  gen : List Word
  kept : Nat
  acc : Nat
  deriving DecidableEq, Repr

/-- Positions the stream's page range still has (R280). -/
def Stream.roomLeft (x : Stream) : Nat := x.pageCount * x.perPage - x.tokenPos

/-- Prompt tokens of the slot that are committed: the stream holds at most PAGE_COUNT x k tokens (R280).
[DESIGN CHOICE, log entry 139] -/
def Stream.promptsIn (x : Stream) (a : Admit) : Nat := min a.prompts x.roomLeft

/-- The committed tokens of an admitted stream with outcome `e` (R280, R305). `missing` stands for a token this device lacks. -/
def Stream.commit (x : Stream) (a : Admit) (e : VerdictEntry) (missing : Word) : Commit :=
  let acc := min (e.accept.getD 0) a.drafts
  let tok := fun i => e.rtokens.getD i missing
  let all := if a.drafter then []
    else if a.prefill then (if a.sample then [tok 0] else [])
    else ((a.inputs.drop 1).take acc) ++ [tok acc]
  let base := x.tokenPos + x.promptsIn a
  let held := all.take (x.roomLeft - x.promptsIn a)
  let lim := if x.tokenLimit = 0 then held else held.take (x.tokenLimit - base)
  let gen := cutStop x.stopToken lim
  { gen := gen, acc := acc, kept := if a.prefill then a.inputs.length else 1 + min gen.length acc }

/-- The 32 bytes of a completion record (R308). -/
def recordOf (r : CompletionRec) : List Byte :=
  leBytes 2 r.stream ++ leBytes 1 r.kind ++ leBytes 1 r.tokens.length ++ leBytes 4 r.pos
    ++ (if r.kind = 3 then leBytes 16 r.cause else (List.range 4).flatMap fun i => leBytes 4 (r.tokens.getD i 0).toNat)
    ++ leBytes 6 r.tide ++ leBytes 1 r.flags ++ leBytes 1 r.accepted

/-- TOKENS records: four tokens each, in position order; STOP and LIMIT on the last (R308). [DEDUCED, log entry 113] -/
def tokenRecords (stream pos tide acc : Nat) (spec stop limit : Bool) : Nat → List Word → List CompletionRec
  | 0, _ => []
  | _, [] => []
  | n + 1, l =>
    let last := decide (l.length ≤ 4)
    { stream := stream, kind := 1, pos := pos % 2 ^ 32, tokens := l.take 4, tide := tide, accepted := acc
      flags := b01 (stop && last) + 2 * b01 (limit && last) + 4 * b01 spec }
      :: tokenRecords stream (pos + 4) tide acc spec stop limit n (l.drop 4)

/-- Settle one page at a commit: CFILL, and TFILL with it (R32, R268). -/
def Page.settle (g : Page) (fill : Nat) : Page := { g with st := .hbm, cfill := fill, tfill := fill }

/-- Fill of page `i` of a stream's range when content is kept below position `e` (R305). -/
def Stream.fillAt (x : Stream) (g : Page) (i e : Nat) : Nat :=
  min g.tfill (max g.cfill (x.tokenUnits * min (e - i * x.perPage) x.perPage))

/-- Settle the pinned pages a stream owns: `e` none drops what the tide appended. [DEDUCED, log entry 111] -/
def State.settlePages (s : State) (slot : Nat) (e : Option Nat) : State :=
  let x := s.stream slot
  { s with pages := s.pages.map fun g =>
      if g.2.st = .pinned ∧ g.2.owner = slot then
        (g.1, g.2.settle (match e with
          | none => g.2.cfill
          | some pos => x.fillAt g.2 (g.1 - x.pageBase) pos))
      else g }

/-- The link between a target and its drafter is effective: both open, each naming the other (R405). -/
def State.linked (s : State) (x d : Nat) : Bool :=
  (s.stream d).drafter && (s.stream d).draftLink = x && (s.stream x).draftLink = d && isOpen (s.stream x).st
    && isOpen (s.stream d).st

/-- A target's new tokens become its drafter's inputs (R304). [DEDUCED, log entry 115] -/
def State.feedDrafter (s : State) (slot tide : Nat) (toks : List Word) : State :=
  let d := (s.stream slot).draftLink
  if d ≠ 0xFFFF && !(s.stream slot).drafter && s.linked slot d && !toks.isEmpty then
    s.modStream d fun y => ({ y with prompt := y.prompt ++ [PromptPart.toks toks], promptLeft := y.promptLeft + toks.length
                                     drafterAfter := some tide } : Stream).refresh
  else s

/-- A drafter's results become drafts of its target, or are dropped and counted where the target has moved (R304). -/
def State.giveDrafts (s : State) (p slot : Nat) (a : Admit) (e : VerdictEntry) : State :=
  let x := (s.stream slot).draftLink
  let s := if (s.stream slot).promptLeft = 0 then s.modStream slot fun y => { y with drafterAfter := none } else s
  if !(s.linked x slot) || a.draftWant = 0 then s
  else if (s.stream slot).promptLeft > 0 then
    s.modPart p fun q => { q with draftsStale := (q.draftsStale + a.draftWant) % 2 ^ 32 }
  else s.modStream x fun y => { y with linkDrafts := some (y.tokenPos, e.rtokens.take a.draftWant) }

/-- The prompt tokens an admitted stream commits. -/
def Stream.newPrompts (x : Stream) (a : Admit) : List Word := (a.inputs.drop (a.inputs.length - a.prompts)).take (x.promptsIn a)

/-- The descriptor and ring of a stream after its commit. PENDING_TOKEN is the last generated token; where a tide generates none, no
token is pending. [DEDUCED, log entry 140] -/
def Stream.advance (y : Stream) (a : Admit) (gen : List Word) : Stream :=
  ({ y with
     tokenPos := y.tokenPos + y.promptsIn a + gen.length, promptLeft := y.promptLeft - y.promptsIn a
     prompt := promptDrop (y.promptsIn a) y.prompt, pending := !gen.isEmpty, pendingToken := gen.getLastD 0, deferredLast := false
     linkDrafts := none, ringEntries := consumeTokens (y.promptsIn a) (useDrafts y.tokenPos a.drafts y.ringEntries) } : Stream).refresh

/-- The causes for which a commit drains its stream (R306): the stop token, the limit, the page range. -/
def State.drainAfter (s : State) (slot : Nat) (x : Stream) (new : List Word) (pos : Nat) : State :=
  if x.stopToken ≠ 0xFFFFFFFF ∧ new.contains x.stopToken then s.drain slot 0
  else if x.tokenLimit ≠ 0 ∧ pos ≥ x.tokenLimit then s.drain slot 1
  else if pos ≥ x.pageCount * x.perPage then s.drain slot 7
  else s

/-- Commit one admitted stream (R305, R306): a page lost comes first, then a deferral. A FINISH that falls due in a commit gives its
cause before the causes that the commit itself meets. [DESIGN CHOICE, log entries 15 and 166] [DEDUCED, log entry 110] -/
def State.commitStream (s : State) (p tide : Nat) (a : Admit) (e : VerdictEntry) (lost : Bool) : State :=
  let slot := a.stream
  let x := s.stream slot
  if lost then (s.settlePages slot none).drain slot 4
  else if e.deferred then
    ((s.settlePages slot none).modStream slot fun y => { y with deferredLast := true }).modPart p fun q =>
      { q with deferrals := (q.deferrals + 1) % 2 ^ 32 }
  else if e.rcount ≠ a.expected then (s.settlePages slot none).drain slot 6
  else
    let c := x.commit a e (Config.freeWord s.freeCtr)
    let new := x.newPrompts a ++ c.gen
    let pos := x.tokenPos + new.length
    let s := (s.settlePages slot (some (a.firstPos + c.kept))).used 1
    let s := (s.modStream slot fun y => y.advance a c.gen).modPart p fun q => { q with draftsStale := (q.draftsStale + x.drifted a.drafts) % 2 ^ 32 }
    let s := if a.drafter then s.giveDrafts p slot a e else s.feedDrafter slot tide new
    let s := if a.drafter || !s.streamRoot then s
      else
        let stop := decide (x.stopToken ≠ 0xFFFFFFFF) && c.gen.contains x.stopToken
        let limit := decide (x.tokenLimit ≠ 0) && decide (pos ≥ x.tokenLimit)
        let recs := tokenRecords slot (pos - c.gen.length) tide c.acc (decide (a.drafts > 0)) stop limit 3 c.gen
        s.modPart p fun q => { q with completions := q.completions ++ recs }
    (s.settleRing slot true).drainAfter slot x new pos

/-- The outcome of a stream: the job's where there is one (R310), else this device's. -/
def State.outcome (s : State) (p slot : Nat) : VerdictEntry :=
  if s.job.formed then (s.job.outcome.find? fun e => e.slot = slot).getD ((s.part p).outcomeOf slot)
  else (s.part p).outcomeOf slot

/-- A stream that lost a page, a PARKED one too, becomes DRAINING with cause 4 (R273, R281, R306). -/
def State.drainLost (s : State) (slot : Nat) : State :=
  s.modStream slot fun x => if isOpen x.st || x.st = .parked then { x with st := .draining, drainCause := 4 } else x

/-- Commit every admitted stream in ascending slot, then settle the pinned pages of all others (R217, R268, R305). The tide's records
stand in ascending stream slot, a CLOSED one after its stream's tokens (R309). In a job, a page lost on another device than rank 0
drains that device's copy of the stream only. [DESIGN CHOICE, log entry 167] -/
def State.commitStreams (s : State) (p tide : Nat) : State :=
  let q := s.part p
  let before := q.completions.length
  let lost := q.pagesLost.map (· % 2 ^ 15)
  let adm := sortBy q.admitted fun a b => a.stream ≤ b.stream
  let s := each adm (fun a st => st.commitStream p tide a (st.outcome p a.stream) (lost.contains a.stream)) s
  let s := { s with pages := s.pages.map fun g =>
    if g.2.st = .pinned ∧ s.partOfSlot g.2.owner = some p then (g.1, g.2.settle g.2.tfill) else g }
  let s := each (lost.filter fun o => !(adm.any fun a => a.stream = o)) (fun o st => st.drainLost o) s
  let s := s.modPart p fun q => { q with admitted := [], lastCommitted := tide, pagesLost := [] }
  let s := each ((List.range q.slotCount).map (q.slotFirst + ·)) (fun n st => st.closeOut n (adm.any fun a => a.stream = n)) s
  s.modPart p fun q => { q with
    completions := q.completions.take before ++ sortBy (q.completions.drop before) fun a b => a.stream ≤ b.stream }

end Sys2Proof.Machine
end

