-- ==== Sys2Proof/Machine/StreamEv.lean ====
section
/-!
DEFINITION. Commands of the stream engine and of the tiering unit (spec/11_streams.md R281 to R312,
spec/10_memory_tiers.md R261 to R275, R406): doorbells and ring heads, ring entries, admission, verdicts, results,
completions, stream and page commands in the boundary gap, page moves, parking.
-/

namespace Sys2Proof.Machine

/-- A licence is installed (R437): 0 partitions, 1 streams, 2 second tier, 3 sealed weights. -/
def State.licensed (s : State) (b : Nat) : Bool := s.flash.licences.any fun l => l.1 = b

/-- The slot exists for commands, entries and doorbells (R277): in a slot range created under the streams licence it does so even where
that licence is missing later (R438). -/
def State.slotUsable (s : State) (n : Nat) : Bool :=
  decide (n < 8192) || (decide (n < 32768) && (s.licensed 1 || (s.partOfSlot n).isSome))

/-- Address of entry `i` of a submission ring (R283). -/
def Stream.entryAddr (x : Stream) (i : Nat) : Nat := x.ringBase + 128 + 32 * (i % 2 ^ (x.ringLog + 4))

/-- The engine reads the ring entries up to producer value `v` from the host (R283, R284). -/
def State.readEntries (s : State) (x : Stream) (v : Nat) : State :=
  let d := (v + 2 ^ 32 - x.producerSeen) % 2 ^ 32
  { s with posted := s.posted ++ (List.range d).map fun i => Posted.hostRead x.part (x.entryAddr (x.producerSeen + i)) 32 }

/-- A producer value from either path (R287). -/
def State.producerValue (s : State) (slot v : Nat) : State :=
  let x := s.stream slot
  let d := (v + 2 ^ 32 - x.producerSeen) % 2 ^ 32
  let room := (x.consumer + 2 ^ (x.ringLog + 4) + 2 ^ 32 - x.producerSeen) % 2 ^ 32
  if x.st = .closed ∨ x.st = .parked then s
  else if d ≤ room then (s.readEntries x v).modStream slot fun y => { y with producerSeen := v }
  else s.ringFault slot 0

/-- STREAM_DOORBELL (R277, R286, R287, R370, R380): a write that reaches only the high half is ignored, one during an outage is lost; one
of a slot that is CLOSED, PARKED or in no partition is ignored and counted, by its partition or else by the device. -/
def execStreamDoorbell (slot : Nat) (producer : Word) (lowHalf : Bool) (s : State) : Res :=
  let count := fun (st : State) => match st.partOfSlot slot with
    | some p => st.modPart p fun q => { q with doorbellsIgnored := (q.doorbellsIgnored + 1) % 2 ^ 32 }
    | none => { st with doorbellsIgnored := (st.doorbellsIgnored + 1) % 2 ^ 32 }
  if !lowHalf || !s.hostReaches || s.link.lost then .next s
  else if !(s.slotUsable slot) || !s.streamRoot || (s.partOfSlot slot).isNone || (s.stream slot).st = .closed
      || (s.stream slot).st = .parked then .next (count s)
  else .next (s.producerValue slot producer.toNat)

/-- RING_SNOOP (R286, R373): the line is given up, to be read again. Keys from 32,768 up are completion rings. -/
def execRingSnoop (slot : Nat) (s : State) : Res :=
  if s.link.lines.contains slot then .next (s.wantLine slot) else .next s

/-- RING_HEAD_READ (R286, R307, R373, R374): the producer of a submission ring, or a completion ring's CONSUMER. -/
def execRingHeadRead (slot : Nat) (producer : Word) (s : State) : Res :=
  if !(s.link.access && s.link.stale.contains slot) then .next s
  else
    let s : State := { s with link := { s.link with
      stale := s.link.stale.filter (· ≠ slot)
      lines := if s.cached slot then s.link.lines ++ [slot] else s.link.lines } }
    if slot ≥ 32768 then .next (s.modPart (slot - 32768) fun q => { q with cringConsumer := producer.toNat })
    else if s.streamRoot then .next (s.producerValue slot producer.toNat)
    else .next s

/-- A submission ring entry's fields (R284). -/
structure Entry where
  kind : Nat
  count : Nat
  pos : Nat
  payload : List Byte
  deriving DecidableEq, Repr

/-- The entry of 32 bytes. -/
def entryOf (e : BitVec 256) : Entry × Nat :=
  let b := leBytes 32 e.toNat
  ({ kind := leNat (b.take 1), count := leNat ((b.drop 1).take 1), pos := leNat ((b.drop 4).take 4), payload := b.drop 8 },
    leNat ((b.drop 2).take 2))

/-- The entry is a bad one (R285). -/
def Entry.bad (e : Entry) : Bool :=
  let zero := fun (n : Nat) => (e.payload.drop n).any fun b => b ≠ 0
  match e.kind with
  | 1 => e.count = 0 || decide (e.count > 6) || decide (e.pos ≠ 0) || zero (4 * e.count)
  | 2 => e.count = 0 || decide (e.count > 6) || zero (4 * e.count)
  | 3 =>
    let n := leNat ((e.payload.drop 8).take 4)
    e.count ≠ 0 || decide (e.pos ≠ 0) || n = 0 || decide (n > 2 ^ 20) || decide (leNat (e.payload.take 1) % 4 ≠ 0) || zero 12
  | 4 => e.count ≠ 0 || decide (e.pos ≠ 0) || zero 0
  | _ => true

/-- Token ids of an entry. -/
def Entry.tokens (e : Entry) : List Word := wordsOfBytes e.count e.payload

/-- Take one good entry into the stream (R284, R303). [DEDUCED, log entry 112] -/
def State.takeEntry (s : State) (slot : Nat) (e : Entry) : State :=
  match e.kind with
  | 1 => (s.modStream slot fun x => ({ x with
      prompt := x.prompt ++ [PromptPart.toks e.tokens], promptLeft := x.promptLeft + e.count
      ringEntries := x.ringEntries ++ [RingEntry.tokens e.count] } : Stream).refresh).settleRing slot false
  | 2 => (s.modStream slot fun x => { x with ringEntries := x.ringEntries ++ [RingEntry.drafts e.pos e.tokens false] }).settleRing
      slot false
  | 3 =>
    let a := leNat (e.payload.take 8)
    let n := leNat ((e.payload.drop 8).take 4)
    s.modStream slot fun x => ({ x with
      prompt := x.prompt ++ [PromptPart.ref a n], promptLeft := x.promptLeft + n
      ringEntries := x.ringEntries ++ [RingEntry.tokens n] } : Stream).refresh
  | _ => (s.modStream slot fun x => { x with ringEntries := x.ringEntries ++ [RingEntry.finish] }).settleRing slot false

/-- The partition of a slot is in its reset. -/
def State.partResets (s : State) (slot : Nat) : Bool := s.resets.any fun r => r.scope = 2 && s.partOfSlot slot = some r.index

/-- Data of a host read that reaches the engine during its partition's reset is discarded and counted; the engine reads it again
(R427). -/
def State.absorbRead (s : State) (slot : Nat) : State :=
  match s.partOfSlot slot with
  | none => s
  | some p => s.noteReset 2 p

/-- SUBMISSION_ENTRY (R284, R285, R378): the next entry of the ring, up to the last producer value accepted. -/
def execSubmissionEntry (slot : Nat) (entry : BitVec 256) (s : State) : Res :=
  let x := s.stream slot
  let unread := decide (x.ringEntries.length < (x.producerSeen + 2 ^ 32 - x.consumer) % 2 ^ 32)
  if !(isOpen x.st) || x.ringStopped || !unread || !s.streamRoot || !s.link.access then .next s
  else if s.partResets slot then .next (s.absorbRead slot)
  else
    let e := entryOf entry
    if e.2 ≠ 0 || e.1.bad then .next (s.ringFault slot 1) else .next (s.takeEntry slot e.1)

/-! Tree data and verdict sets of a job (R341, R342). The byte layout of the tables and descriptors in flits is the model's. -/

/-- An admitted stream as words. -/
def admitWords (a : Admit) : List Word :=
  ([a.slot, a.stream, b01 a.prefill + 2 * b01 a.sample + 4 * b01 a.noAppend + 8 * b01 a.drafter, a.firstPos % 2 ^ 32,
    a.firstPos / 2 ^ 32, a.drafts, a.draftWant, a.prompts, a.inputs.length].map (BitVec.ofNat 32)) ++ a.inputs

/-- Admitted streams read back from words. -/
def admitsOfWords : Nat → List Word → List Admit
  | 0, _ => []
  | k + 1, a :: b :: c :: d :: e :: f :: g :: h :: n :: r =>
    { slot := a.toNat, stream := b.toNat, prefill := bit c.toNat 0, sample := bit c.toNat 1, noAppend := bit c.toNat 2
      drafter := bit c.toNat 3, firstPos := d.toNat + 2 ^ 32 * e.toNat, drafts := f.toNat, draftWant := g.toNat
      prompts := h.toNat, inputs := r.take n.toNat } :: admitsOfWords k (r.drop n.toNat)
  | _, _ => []

/-- Tree data from rank 0: up to the root, or down where rank 0 is the root (R342). -/
def State.castTree (s : State) (ch : Nat) (ws : List Word) : State :=
  if s.isRoot then s.treeDown ch ws else s.treeUp ch ws

/-- Rank 0 sends a stream's descriptor to every device. -/
def State.castStream (s : State) (n : Nat) : State :=
  if s.job.formed && s.streamRoot then
    s.castTree 0xFFF2 (BitVec.ofNat 32 n :: wordsOfBytes 32 (s.stream n).bytes)
  else s

/-- Rank 0 sends a tide's admission tables, after the descriptors of the streams in them. -/
def State.castTables (s : State) (p tide : Nat) : State :=
  if s.job.formed && s.streamRoot then
    let l := (s.part p).nextAdmitted
    let s := each l (fun a st => st.castStream a.stream) s
    s.castTree 0xFFF0 ([BitVec.ofNat 32 p, BitVec.ofNat 32 tide, BitVec.ofNat 32 (tide / 2 ^ 32)] ++ l.flatMap admitWords)
  else s

/-- The four bytes of an outcome (R341). -/
def entryWord (e : VerdictEntry) : Word :=
  BitVec.ofNat 32 (e.slot * 2 ^ 17 + b01 e.deferred * 2 ^ 16 + e.rcount * 2 ^ 12 + (match e.accept with
    | none => 15
    | some n => n % 16))

/-- An outcome read back; `toks` are its result tokens where they came along. -/
def entryOfWord (w : Word) (toks : List Word) : VerdictEntry :=
  { slot := bits w.toNat 31 17, deferred := bit w.toNat 16, rcount := bits w.toNat 15 12
    accept := if bits w.toNat 3 0 = 15 then none else some (bits w.toNat 3 0), rtokens := toks }

/-- Entries of 36 bytes read back (R341). -/
def entriesOfWords : Nat → List Word → List VerdictEntry
  | 0, _ => []
  | _, [] => []
  | k + 1, w :: r => entryOfWord w (r.take 8) :: entriesOfWords k (r.drop 8)

/-- This device's verdict set (R341). -/
def State.verdictSet (s : State) : List VerdictEntry :=
  s.jobParts.flatMap fun p =>
    let q := s.part p
    let slots := (q.verdicts.map (fun v => bits v.sa.toNat 14 0) ++ q.results.map (fun r => r.stream)
      ++ (q.admitted.filter fun a => a.noAppend).map fun a => a.stream).eraseDups
    slots.map fun n => q.outcomeOf n

/-- The verdict set is formed once every partition that runs in the job has its results; it leaves by the port with LOCAL
entries for channel 0xFFE0, or stays here on rank 0 (R341). -/
def State.stageVerdictSet (s : State) : State :=
  if !s.job.formed || s.job.setSent || !(s.tideParts.all fun p => (s.part p).resultsIn) then s
  else
    let l := s.verdictSet
    if s.job.rank = 0 then { s with job := { s.job with setSent := true, verdictSets := s.job.verdictSets ++ [(0, l)] } }
    else match s.localPort 0xFFE0 with
      | none => s
      | some q =>
        let ws := l.flatMap fun e => entryWord e :: (List.range 8).map fun i => e.rtokens.getD i 0
        s.modHport q fun x => { x with staged := x.staged ++ messageFlits 1 0xFFE0 s.job.rank 0 ws }

/-- Prompt tokens that the next tables still lack are read from the host (R284): one read of a stream at a time. -/
def State.readPrompts (s : State) (p : Nat) : State :=
  each (s.part p).nextAdmitted (fun a st =>
    match a.want with
    | .ref addr n :: _ =>
      if (st.stream a.stream).promptRef = some (addr, n) then st
      else ({ st with posted := st.posted ++ [Posted.hostRead p addr (4 * n)] }).modStream a.stream fun x =>
        { x with promptRef := some (addr, n) }
    | _ => st) s

/-- The next tide's tables are written once every input is there, with the pages checked (R296); else the engine reads what is missing (R284, R297). -/
def State.buildTables (s : State) (p : Nat) : State :=
  let q := s.part p
  if q.nextAdmitted.all fun a => a.want.isEmpty then
    let n := q.admitTide.getD 0
    let l := s.checkAppends q.nextAdmitted
    ((s.modPart p fun q => { q with tablesDue := false, nextAdmitted := l }).writeTables p n l).castTables p n
  else (s.modPart p fun q => { q with tablesDue := true }).readPrompts p

/-- ADMISSION_RUN (R292): for the tide after the one that runs, once. -/
def execAdmissionRun (p : Nat) (s : State) : Res :=
  let q := s.part p
  if (q.st = .open_ ∨ q.st = .closing) ∧ !q.awaiting ∧ q.admitTide ≠ some (q.tide + 1) ∧ s.streamRoot then
    .next ((s.admission p (q.tide + 1)).buildTables p)
  else .next s

/-- Tokens read from the host join the stream's inputs. -/
def Admit.fill (a : Admit) (toks : List Word) : Admit :=
  match a.want with
  | .ref _ n :: r => ({ a with inputs := a.inputs ++ (List.range n).map (fun i => toks.getD i 0), want := r } : Admit).absorb
  | _ => a

/-- PROMPT_REF_READ (R284, R285, R378, R427): the tokens of the host read take their place in the stream's inputs; a read that fails is handled
as a bad entry is, and the stream's slot stays empty. [DESIGN CHOICE, log entry 141] -/
def execPromptRefRead (slot : Nat) (ok : Bool) (tokens : List Word) (s : State) : Res :=
  if (s.stream slot).promptRef.isNone || !s.link.access then .next s
  else if s.partResets slot then .next (s.absorbRead slot)
  else
    let s := s.modStream slot fun x => { x with promptRef := none }
    let s := if ok then s else s.ringFault slot 2
    match s.partOfSlot slot with
    | none => .next s
    | some p =>
      let l := (s.part p).nextAdmitted
      let l := if ok then l.map fun a => if a.stream = slot then a.fill tokens else a
        else l.filter fun a => decide (a.stream ≠ slot) || a.want.isEmpty
      let s := s.modPart p fun q => { q with nextAdmitted := l }
      if (s.part p).tablesDue then .next (s.buildTables p) else .next s

/-- STREAM_VERDICT_ARRIVE (R144, R300): recorded for the tide, or ignored and counted. -/
def execStreamVerdictArrive (p : Nat) (s : State) : Res :=
  match takeFirst (fun (k : Packet) => k.kind = .verdict && s.partOf k.src = some p) s.arrived with
  | none => .next s
  | some r =>
    let v : Verdict := { sa := r.1.words.getD 0 0, sb := r.1.words.getD 1 0, discard := decide (r.1.acc = 1), tile := r.1.src }
    let s := ({ s with arrived := r.2 }).modTile v.tile fun x => { x with verdictsFlying := x.verdictsFlying - 1 }
    if r.1.failed then .next { s with arrived := r.2 } else
    let n := bits v.sa.toNat 14 0
    let notice := v.discard && bit v.sa.toNat 15
    let ok := decide (v.sa.toNat < 2 ^ 16) && (s.part p).admitted.any fun a =>
      a.stream = n && (notice || decide (a.drafts > 0))
    .next (s.modPart p fun q =>
      if ok then { q with verdicts := q.verdicts ++ [v] } else { q with verdictsIgnored := (q.verdictsIgnored + 1) % 2 ^ 32 })

/-- RESULTS_READ (R297): after the tide-complete bell and before the commit point. -/
def execResultsRead (p : Nat) (s : State) : Res :=
  let q := s.part p
  if q.st = .closing ∧ q.bellReady ∧ !q.resultsIn then .next (s.readResults p).stageVerdictSet else .next s

/-- Records that the completion ring has room for (R307). -/
def Partition.ringRoom (q : Partition) : Nat := 2 ^ q.cringLog - (q.cringProducer + 2 ^ 32 - q.cringConsumer) % 2 ^ 32

/-- Write records to the completion ring in order, then PRODUCER, then the interrupt (R309). -/
def State.putRecords (s : State) (p : Nat) (l : List CompletionRec) : State :=
  if l.isEmpty then s
  else
    let q := s.part p
    let recs := ((List.range l.length).zip l).map fun e =>
      Posted.completion p (q.cringBase + 128 + 32 * ((q.cringProducer + e.1) % 2 ^ q.cringLog)) (recordOf e.2)
    let n := (q.cringProducer + l.length) % 2 ^ 32
    let s := { s with posted := s.posted ++ recs ++ [Posted.word p q.cringBase (BitVec.ofNat 32 n)] }
    (s.modPart p fun q => { q with cringProducer := n }).msix (11 + p)

/-- Records reserved for the streams admitted to the next tide (R307). -/
def Partition.stillReserved (q : Partition) : Nat :=
  (q.admitted ++ q.nextAdmitted).foldl (fun n a => n + if a.prefill then 2 else 3) 0

/-- As many of the waiting records as the ring has room for are written, in order; the others wait (R307, R309). -/
def State.flushRecords (s : State) (p : Nat) : State :=
  let q := s.part p
  let l := q.completions.drop q.ringRoom
  (s.modPart p fun q => { q with completions := l, reserved := q.stillReserved, unreserved := l.length }).putRecords p
    (q.completions.take q.ringRoom)

/-- Records a completion hold area has room for (R379): two frames of 512 KiB, 32 bytes a record. -/
def holdRoom : Nat := 32768

/-- Where record `i` of a partition's hold area lies (R254, R379): the memory port of stack N of the westernmost stripe, and the byte
within its mark area, from frame 158. What lies there is `holdArea`, which nothing else reads or writes. [DESIGN CHOICE, log entry 173] -/
def State.holdPlace (s : State) (p i : Nat) : Nat × Nat := ((s.part p).firstStripe + s.sigma0, 158 * 2 ^ 19 + 32 * i)

/-- The waiting records go to the partition's hold area, behind those it holds, as far as it has room (R378, R379). -/
def State.holdRecords (s : State) (p : Nat) : State :=
  s.modPart p fun q =>
    let n := holdRoom - q.holdArea.length
    { q with holdArea := q.holdArea ++ q.completions.take n, completions := q.completions.drop n, reserved := q.stillReserved
             unreserved := (q.completions.drop n).length }

/-- COMPLETION_WRITE (R307, R309, R378, R379): without access to host memory the records go to the hold area. -/
def execCompletionWrite (p : Nat) (s : State) : Res :=
  if s.link.access then .next (s.flushRecords p) else .next (s.holdRecords p)

/-- Free every page of a stream (R281). -/
def State.freePages (s : State) (slot : Nat) : State :=
  let s := s.forgetMoves fun g => (s.page g).owner = slot && (s.page g).st ≠ .free
  { s with pages := s.pages.map fun g => if g.2.st ≠ .free ∧ g.2.owner = slot then (g.1, ({} : Page)) else g }

/-- Open a slot and ask for its ring line (R281, R373). -/
def State.openSlot (s : State) (slot : Nat) (d : List Byte) : State :=
  let p := (s.partOfSlot slot).getD 0
  let s := { s with streams := tset s.streams slot (openStream p d) }
  if (s.stream slot).doorbellOnly || !(s.cached slot) then s else s.wantLine slot

/-- A stream's pages that stand in HBM. -/
def State.hbmPagesOf (s : State) (slot : Nat) : List Nat :=
  ((s.pagesOf slot).filter fun g => g.2.st = .hbm).map fun g => g.1

/-- R274 forbids a park: the stream is admitted, or holds a PINNED page. -/
def State.parkForbidden (s : State) (slot : Nat) : Bool :=
  s.isAdmitted slot || (s.pagesOf slot).any fun g => g.2.st = .pinned

/-- Start a park (R274): to the second tier every HBM page is demoted. -/
def State.startPark (s : State) (slot target : Nat) : State :=
  let s := s.modStream slot fun x => { x with parking := true, parkTarget := target, parkBytes := 0 }
  if target = 0 then
    match s.partOfSlot slot with
    | none => s
    | some p =>
      let l := (s.hbmPagesOf slot).map fun g => (g, true, false)
      s.modPart p fun q => { q with moveQueue := q.moveQueue ++ l }
  else s

/-- A host page record may be bound (R275). -/
def State.recordBad (s : State) (slot : Nat) (seen' : List Nat) (r : ParkRec) : Bool :=
  let x := s.stream slot
  !r.crcOk || (s.page r.page).st ≠ .free || decide (r.cfill > 2048) || decide (r.page < x.pageBase)
    || decide (r.page ≥ x.pageBase + x.pageCount) || seen'.contains r.page

/-- A page that comes to HBM while its stream parks in the second tier is demoted with the others (R274). -/
def State.parkPage (s : State) (p g : Nat) : State :=
  let x := s.stream (s.page g).owner
  if x.parking && decide (x.parkTarget = 0) then s.modPart p fun q => { q with moveQueue := q.moveQueue ++ [(g, true, false)] } else s

/-- Bind one page for a stream, in HBM where a frame is free and otherwise in CXL (R264). -/
def State.bindPage (s : State) (p g owner : Nat) : Option State :=
  match s.pickHbm p with
  | some f => some (((s.used 1).modPage g fun _ => { st := .hbm, tier := 0, frame := f, owner := owner }).parkPage p g)
  | none =>
    match s.pickCxl p with
    | some f => some ((s.used 1).modPage g fun _ => { st := .cxl, tier := 1, frame := f, owner := owner })
    | none => none

/-- Bind a page and fill it from its record (R275). -/
def State.bindRecord (s : State) (p slot : Nat) (r : ParkRec) : State :=
  match s.bindPage p r.page slot with
  | none => s
  | some t =>
    let g := t.page r.page
    let b := (r.data ++ List.replicate (r.cfill * 256) 0).take (r.cfill * 256)
    let t := t.modPage r.page fun x => { x with cfill := r.cfill, tfill := r.cfill }
    if g.tier = 0 then { t with hbm := memPut t.hbm (frameAddr g.frame 0) b }
    else { t with cxl := memPut t.cxl (cxlAddr g.frame 0) b }

/-- The stream becomes OPEN again, ACTIVE if it has input (R275, R281). -/
def State.resume (s : State) (slot : Nat) : State :=
  let s := s.modStream slot fun x => ({ x with st := .open_ } : Stream).refresh
  if (s.stream slot).doorbellOnly || !(s.cached slot) then s else s.wantLine slot

/-- The slot of a stream command. -/
def StreamCmd.slot (c : StreamCmd) : Nat :=
  match c with
  | .open_ n _ => n
  | .close n => n
  | .park n _ _ => n
  | .resume n _ _ => n

/-- A stream command acts (R281, R282); `o` is the order of its doorbell. -/
def State.applyStreamCmd (s : State) (o : Nat) (c : StreamCmd) : State :=
  match c with
  | .open_ slot d => if (s.stream slot).st = .closed then s.openSlot slot d else s
  | .close slot =>
    if (s.stream slot).st = .parked then
      (s.modStream slot fun x => { x with st := .draining, drainCause := 3 }).closeOut slot false
    else (s.drain slot 3).closeOut slot false
  | .park slot target m =>
    if !isOpen (s.stream slot).st then s
    else if s.parkForbidden slot then s.modPart ((s.partOfSlot slot).getD 0) fun q => { q with streamCmds := q.streamCmds ++ [(o, c)] }
    else (s.startPark slot target).modStream slot fun x => { x with parkMbx := m }
  | .resume slot source recs =>
    if (s.stream slot).st ≠ .parked then s
    else
      let s := match s.partOfSlot slot with
        | some p => if source = 1 then each recs (fun r st => st.bindRecord p slot r) s else s
        | none => s
      s.resume slot

/-- Stream and page commands may act: in a boundary gap, or while the partition is not running (R264, R282). -/
def Partition.gap (q : Partition) : Bool := !(running q.st) || q.st = .boundary

/-- Mailbox, first page and count of a waiting page command. -/
def PageCmd.range (c : PageCmd) : Nat × Nat × Nat :=
  match c with
  | .bind m f k _ => (m, f, k)
  | .free m f k => (m, f, k)

/-- In a job, this device's copy of the owner has not come yet (R406). -/
def State.awaitsOwner (s : State) (owner : Nat) : Bool := !s.streamRoot && !(isOpen (s.stream owner).st)

/-- Pages of a range. -/
def pageRange (f k : Nat) : List Nat := (List.range k).map (f + ·)

/-- The command still waits: for the owner's copy, or for another partition's gap. -/
def State.pageCmdWaits (s : State) (c : PageCmd) : Bool :=
  match c with
  | .bind _ _ _ owner => s.awaitsOwner owner
  | .free _ f k => (pageRange f k).any fun g => match s.partOfSlot (s.page g).owner with
    | none => false
    | some p => (s.page g).st ≠ .free && !(s.part p).gap

/-- The order of a page command's doorbell: its mailbox holds it still. -/
def State.pageOrder (s : State) (c : PageCmd) : Nat := (s.mb c.range.1).order

/-- Stream commands of partition `p` that may act in this gap: in a job at most 64 in a tide (R342). -/
def State.streamRoom (s : State) (p : Nat) : Nat :=
  let q := s.part p
  if s.job.formed && running q.st then 64 - q.streamActed else q.streamCmds.length

/-- The waiting stream commands that act next: those before the first page command that may act (R394). -/
def State.streamsNext (s : State) (p : Nat) : List (Nat × StreamCmd) :=
  let q := s.part p
  (q.streamCmds.take (s.streamRoom p)).takeWhile fun c =>
    q.pageCmds.all fun g => s.pageCmdWaits g || decide (c.1 < s.pageOrder g)

/-- STREAM_COMMAND_APPLY (R282, R394): the waiting commands act in the order of their doorbells. -/
def execStreamCommandApply (p : Nat) (s : State) : Res :=
  let q := s.part p
  if q.gap then
    let l := s.streamsNext p
    .next (each l (fun c st => (st.applyStreamCmd c.1 c.2).castStream c.2.slot)
      (s.modPart p fun q => { q with streamCmds := q.streamCmds.drop l.length, streamActed := q.streamActed + l.length }))
  else .next s

/-- STREAM_CLOSED (R312). -/
def State.closedEvent (s : State) (slot : Nat) (x : Stream) : State :=
  let pay := slot * 2 ^ 49 + x.drainCause * 2 ^ 40 + sat x.tokenPos (2 ^ 40 - 1)
  let sev := if x.drainCause ≤ 3 then 0 else 2
  match s.partOfSlot slot with
  | some p => s.raisePart p 0x0301 sev streamUnit pay
  | none => s.raiseDev 0x0301 sev streamUnit pay

/-! Parking (R274, R414) -/

/-- The byte form of a page record, without its CRC word's value: header, CRC-32C over header and data, zeros, data. -/
def parkBytes (page cfill : Nat) (data : List Byte) : List Byte :=
  let h := leBytes 8 (page + cfill * 2 ^ 22)
  h ++ leBytes 4 (crc32c (h ++ data)) ++ leBytes 4 0 ++ data

/-- A page's committed bytes, from the tier it stands in. -/
def State.pageData (s : State) (g : Page) : List Byte :=
  if g.tier = 0 then memBytes s.hbm (frameAddr g.frame 0) (g.cfill * 256)
  else memBytes s.cxl (cxlAddr g.frame 0) (g.cfill * 256)

/-- STREAM_PARKED (R414): it carries no tide. -/
def State.parkedEvent (s : State) (slot target n : Nat) : State :=
  s.raiseRec { code := 0x0305, sev := 0, unit := streamUnit, part := (s.partOfSlot slot).getD 0xFF
               payload := BitVec.ofNat 64 (slot * 2 ^ 49 + target * 2 ^ 48 + sat n 0xFFFFFFFF) } false

/-! Tiering (R265 to R273) -/

/-- The move that begins next (R272): the first one for a waiting append, else the first one asked for. -/
def Partition.nextMove (q : Partition) : Option (Nat × Bool × Bool) :=
  match q.moveQueue.find? fun m => m.2.2 with
  | some m => some m
  | none => q.moveQueue.head?

/-- PAGE_MOVE_START (R272): this page's move begins, if it is the next in order and fewer than 64 of the partition are in flight. -/
def execPageMoveStart (page : Nat) (s : State) : Res :=
  match s.partOfSlot (s.page page).owner with
  | none => .next s
  | some p =>
    let q := s.part p
    match q.nextMove with
    | none => .next s
    | some m =>
      if m.1 ≠ page ∨ q.moves.length ≥ 64 then .next s
      else .next ((s.modPart p fun q => { q with moveQueue := q.moveQueue.erase m }).beginMove p page m.2.1 m.2.2)

/-- The page's entry switches in one write, and the source frame is free (R265, R267); a page of a stream that parks in the second
tier and has come to HBM is demoted in its turn (R274). -/
def State.switchPage (s : State) (p page : Nat) (m : Move) : State :=
  let s := (s.modPart p fun q => { q with moves := q.moves.filter fun u => u.tag ≠ m.tag }).modPage page fun x =>
    { x with frame := m.dest, tier := if m.demote then 1 else 0, st := if m.demote then .cxl else .hbm, tfill := x.cfill }
  if m.demote then s else s.parkPage p page

/-- PAGE_MOVE_SWITCH (R267): once every byte is copied. -/
def execPageMoveSwitch (page : Nat) (s : State) : Res :=
  match s.partOfSlot (s.page page).owner with
  | none => .next s
  | some p =>
    match (s.part p).moves.find? fun m => m.page = page with
    | none => .next s
    | some m => if m.done = m.sent then .next (s.switchPage p page m) else .next s

/-- The candidates of a tiering run: slot, and whether it is an admitted candidate (R271). -/
def State.tierCandidates (s : State) (p : Nat) (sec : TieringSec) : List (Nat × Bool) :=
  let q := s.part p
  let open' := ((List.range q.slotCount).map (q.slotFirst + ·)).filter fun n => (s.stream n).st = .open_
  let old := sortBy open' fun a b =>
    decide ((s.stream a).lastAdmit < (s.stream b).lastAdmit)
      || ((s.stream a).lastAdmit = (s.stream b).lastAdmit && decide (a ≤ b))
  let next := ((sortBy q.nextAdmitted fun a b => a.slot ≤ b.slot).map fun a => a.stream).filter fun n =>
    (s.pagesOf n).any fun g => g.2.tier = 1
  (old.take sec.recency).map (fun n => (n, false)) ++ (next.take sec.ahead).map fun n => (n, true)

/-- The script registers of a tiering candidate (R271). -/
def State.tierRegs (s : State) (p : Nat) (c : Nat × Bool) (hbmFree cxlFree : Nat) : List Word :=
  let g := s.pagesOf c.1
  scriptRegs [(1, c.1), (2, (s.stream c.1).lastAdmit % 2 ^ 32), (3, (s.part p).lastCommitted % 2 ^ 32),
    (4, (g.filter fun x => x.2.st = .hbm ∨ x.2.st = .pinned).length), (5, (g.filter fun x => x.2.st = .cxl).length),
    (6, hbmFree), (7, cxlFree), (8, b01 c.2)]

/-- One candidate's verdict is carried out: the state, and the frames it reserves in each tier (R271, R272, R274). -/
def State.tierVerdict (s : State) (p : Nat) (n v : Nat) : State × Nat × Nat :=
  let pages := s.pagesOf n
  let push := fun (l : List Nat) (demote : Bool) => s.modPart p fun q =>
    { q with moveQueue := q.moveQueue ++ l.map fun g => (g, demote, false) }
  match v with
  | 1 =>
    if s.isAdmitted n then (s.modPart p fun q => { q with tierIgnored := q.tierIgnored + 1 }, 0, 0)
    else
      let l := (pages.filter fun g => g.2.st = .hbm).map fun g => g.1
      (push l true, 0, l.length)
  | 2 =>
    let l := (pages.filter fun g => g.2.st = .cxl).map fun g => g.1
    (push l false, l.length, 0)
  | 3 =>
    if s.isAdmitted n || pages.any (fun g => g.2.st = .pinned) || (s.stream n).parking then (s, 0, 0)
    else (s.startPark n 0, 0, (s.hbmPagesOf n).length)
  | _ => (s, 0, 0)

/-- TIERING_SCRIPT_RUN (R271): once after a commit, when the free tiered HBM frames are fewer than LOW_FREE, or always. -/
def execTieringScriptRun (p : Nat) (s : State) : Res :=
  match (s.part p).image.bind fun b => b.tiering with
  | none => .next s
  | some sec =>
    let free := s.freeHbmCount p
    if (s.part p).st ≠ .boundary ∨ (s.part p).tierRan ∨ (sec.lowFree ≠ 0 ∧ free ≥ sec.lowFree) then .next s
    else
      let s := s.modPart p fun q => { q with tierRan := true }
      let r := (s.tierCandidates p sec).foldl (fun (acc : State × Nat × Nat) c =>
        let run := runScript sec.code (fun _ => 0) 1024 { regs := acc.1.tierRegs p c acc.2.1 acc.2.2 }
        if run.2 then
          let t := acc.1.tierVerdict p c.1 (run.1.getD 15 0).toNat
          (t.1, acc.2.1 - t.2.1, acc.2.2 - t.2.2)
        else (acc.1.raisePart p 0x0402 2 tierUnit (c.1 * 2 ^ 49), acc.2)) (s, free, (s.freeCxl p).length)
      .next r.1

/-- The first request of a frame in flight (R261), and the list without it. -/
def State.takeUio (s : State) (frame : Nat) : Option (Uio × List Uio) := takeFirst (fun (u : Uio) => u.sent && decide (u.frame = frame)) s.uio

/-- A tile's translated read is answered through the mesh (R183, R186, R245). -/
def State.uioAnswer (s : State) (u : Uio) (data : List Byte) (failed : Bool) : State :=
  s.sendFromUnit .cxl u.tile { kind := .readResp, vc := if u.vc = 3 then 3 else 1, src := u.tile, data := data, len := data.length
                               flits := flitsOf data.length, tag := u.tag, seqNo := u.seqNo, failed := failed }

/-- A request of a move is done in the second tier (R267): what it read goes on to the HBM destination, what it writes is written. -/
def State.uioMove (s : State) (u : Uio) : State :=
  if u.write then ({ s with cxl := memPut s.cxl (cxlAddr u.frame u.off) u.data } : State).moveDone u.part u.tag
  else
    match (s.part u.part).moves.find? fun m => m.tag = u.tag with
    | none => s
    | some m => s.tierToPort (m.dest / 2 ^ 17)
        { kind := .tiering, vc := 3, addr := frameByte (m.dest % 2 ^ 17) u.off, len := u.len
          data := memBytes s.cxl (cxlAddr u.frame u.off) u.len, flits := flitsOf u.len, tag := u.tag, seqNo := u.seqNo, page := u.page }

/-- A request of a move is still wanted: its page has not been lost. -/
def State.moveWanted (s : State) (u : Uio) : Bool := (s.part u.part).moves.any fun m => m.tag = u.tag

/-- A request fails with `cause` 0 poison, 1 timeout, 2 window lost (R261): the read is answered with zeros, counted as failed. -/
def State.uioFail (s : State) (u : Uio) (cause : Nat) : State :=
  if u.move then (if s.moveWanted u then (s.cxlFail u.part u.frame u.page cause).losePage u.page else s)
  else (s.cxlFail u.part u.frame u.page cause).uioAnswer u (List.replicate u.len 0) true

/-- A completion for the engine of a partition in its reset, of a tile's read: the CXL port discards it, and the reset counts it
(R427). -/
def State.uioDropped (s : State) (u : Uio) : Bool := !u.move && s.resets.any fun r => r.scope = 2 && r.index = u.part

/-- CXL_UIO_COMPLETE (R261, R427): the data of a translated read or a part of a move, or poison, which retires the frame and loses its
page. -/
def execCxlUioComplete (frame : Nat) (poison : Bool) (s : State) : Res :=
  match s.takeUio frame with
  | none => .next s
  | some r =>
    let s : State := { s with uio := r.2 }
    let u := r.1
    if s.uioDropped u then .next (s.noteReset 2 u.part)
    else if poison then .next (s.uioFail u 0)
    else if u.move then (if s.moveWanted u then .next (s.uioMove u) else .next s)
    else .next (s.uioAnswer u (s.belowFill u.page u.off (memBytes s.cxl (cxlAddr frame u.off) u.len)) false)

/-- CXL_UIO_TIMEOUT (R261): not completed within 100 µs; or the path to the window is lost with its expander, and with it every
page in the window. -/
def execCxlUioTimeout (frame : Nat) (windowLost : Bool) (s : State) : Res :=
  match s.takeUio frame with
  | none => .next (if windowLost then s.windowGone frame else s)
  | some r =>
    let s : State := { s with uio := r.2 }
    if windowLost then .next ((s.uioFail r.1 2).loseWindow frame) else .next (s.uioFail r.1 1)

end Sys2Proof.Machine
end

