-- ==== Sys2Proof/Machine/TileQ.lean ====
section
/-!
DEFINITION. The queue slot (spec/05_tile_program.md R136, R137), the links, credits, buffers and absorption behind it
(spec/06_scratchpad_queues.md R169 to R180), and the stall limit (R141, R149, R176).
-/

namespace Sys2Proof.Machine

/-- Q.NOP. -/
def execQNop (t : TileId) (rsv : BitVec 21) (s : State) : Res := tileOp t 4 (unused rsv.toNat) id s

/-- Q.SEND (R136, R137, R171, R172). -/
def execQSend (t : TileId) (route queue : BitVec 3) (len : BitVec 2) (sS sT : BitVec 5) (rsv : BitVec 3) (s : State) : Res :=
  waitOp (.qSend t route queue len sS sT rsv) t 4
    (fun s => s.sendCheck t route.toNat rsv.toNat sT.toNat (decide (sS.toNat + len.toNat ≤ 31)))
    (fun s => s.send t route.toNat queue.toNat sT.toNat (s.sendWords t sS.toNat len.toNat)) s

/-- Q.SENDV: lanes 4 group to 4 group + len (R136). -/
def execQSendv (t : TileId) (route queue : BitVec 3) (len : BitVec 2) (vS : BitVec 5) (group : BitVec 3) (sT : BitVec 5)
    (s : State) : Res :=
  waitOp (.qSendv t route queue len vS group sT) t 4
    (fun s => s.sendCheck t route.toNat 0 sT.toNat true)
    (fun s => s.send t route.toNat queue.toNat sT.toNat (s.sendLanes t vS.toNat group.toNat len.toNat)) s

/-- The checks of a receive: BAD_BUNDLE, then QUEUE_TUPLE, which leaves the entry in place (R136). -/
def recvCheck (t : TileId) (rsv queue len : Nat) (rangeOk : Bool) (s : State) : Option Nat :=
  if rsv ≠ 0 ∨ !rangeOk then some 0x0220
  else match ((s.tile t).queue queue).entries with
    | [] => none
    | e :: _ => if e.words.length ≠ len + 1 then some 0x022B else none

/-- Pop the head entry and hand its words on; an uncorrectable pool word faults and nothing is popped (R147, R162). -/
def State.recv (s : State) (t : TileId) (queue : Nat) (k : List Word → Tile → Tile) : State :=
  match ((s.tile t).queue queue).entries with
  | [] => s
  | e :: _ =>
    let (s1, ws, bad) := s.readHead t queue e
    match bad with
    | some w => s1.hwFault t 0x0712 (8 * 2 ^ 28 + w)
    | none => (s1.pop t queue e).modTile t (k ws)

/-- Q.RECV: the entry's words into sD onward at latency 2 (R136, R138). -/
def execQRecv (t : TileId) (queue : BitVec 3) (len : BitVec 2) (sD : BitVec 5) (rsv : BitVec 11) (s : State) : Res :=
  waitOp (.qRecv t queue len sD rsv) t 4
    (recvCheck t rsv.toNat queue.toNat len.toNat (decide (sD.toNat + len.toNat ≤ 31)))
    (fun s => s.recv t queue.toNat fun ws x =>
      ((List.range ws.length).zip ws).foldl (fun y p => y.wS 4 2 (sD.toNat + p.1) p.2) x) s

/-- Q.RECVV: the entry's words into lanes 4 group onward of vD at latency 2. -/
def execQRecvv (t : TileId) (queue : BitVec 3) (len : BitVec 2) (vD : BitVec 5) (group : BitVec 3) (rsv : BitVec 8)
    (s : State) : Res :=
  waitOp (.qRecvv t queue len vD group rsv) t 4
    (recvCheck t rsv.toNat queue.toNat len.toNat true)
    (fun s => s.recv t queue.toNat fun ws x =>
      x.later 4 2 (.v vD.toNat (((List.range ws.length).zip ws).map fun p => (4 * group.toNat + p.1, p.2)))) s

/-- Q.TEST (R136). -/
def execQTest (t : TileId) (pd queue : BitVec 3) (rsv : BitVec 15) (s : State) : Res :=
  tileOp t 4 (unused rsv.toNat) (fun s =>
    s.modTile t fun x => x.wP 4 1 pd.toNat (!(x.queue queue.toNat).entries.isEmpty)) s

/-! The stall limit -/

/-- The wait of tile `t` has lasted 2^STALL_EXP enabled cycles (R141, R168). -/
def State.stalled (s : State) (t : TileId) : Bool :=
  let x := s.tile t
  s.acts t && !x.held.isEmpty && decide (x.heldFor ≥ 2 ^ bits x.qctl.toNat 4 0)

/-- OTHER, DIR and QUEUE of QUEUE_STALL for a queue wait (R149). -/
def State.stallPayload (s : State) (t : TileId) (i : Instr) : Nat :=
  let send := fun (route queue sT : Nat) =>
    let d := if route < 4 then s.neighbour t route else s.meshTarget (s.rs t 4 5 sT)
    d.getD 0 * 2 ^ 32 + queue * 2 ^ 16
  let recv := fun (queue : Nat) =>
    ((((s.tile t).queue queue).lastSender).getD 0xFFFFFFFF) * 2 ^ 32 + 2 ^ 19 + queue * 2 ^ 16
  match i with
  | .qSend _ route queue _ _ sT _ => send route.toNat queue.toNat sT.toNat
  | .qSendv _ route queue _ _ _ sT => send route.toNat queue.toNat sT.toNat
  | .qRecv _ queue _ _ _ => recv queue.toNat
  | .qRecvv _ queue _ _ _ _ => recv queue.toNat
  | _ => 0

/-- The waits of a held bundle still unmet. -/
def State.unmet (s : State) (t : TileId) : List Instr := (s.tile t).held.filter fun i => s.waitUnmet i

/-- QUEUE_STALL (R141, R176). -/
def execQueueStall (t : TileId) (s : State) : Res :=
  match (s.unmet t).find? isQueueWait with
  | none => .next s
  | some i =>
    if s.stalled t then
      .next (s.tileFault t 0x022D .stall (s.stallPayload t i + (s.tile t).slotPayload 4))
    else .next s

/-- Slot of a wait that is no queue wait. -/
def waitSlot (i : Instr) : Nat :=
  match i with
  | .bellWait _ _ _ => 0
  | _ => 3

/-- WAIT_STALL (R141): no unmet wait is a queue wait. -/
def execWaitStall (t : TileId) (s : State) : Res :=
  match s.unmet t with
  | [] => .next s
  | i :: r =>
    if s.stalled t && !((i :: r).any isQueueWait) then
      .next (s.tileFault t 0x022E .stall ((s.tile t).slotPayload (((i :: r).map waitSlot).foldl min 3)))
    else .next s

/-! Links -/

/-- What a link word's flipped bits do at the receiver (R158, R179): corrected and counted, reported, or, for three bits or
more, not defined. Answers the state, whether the word is lost, and whether it is changed. -/
def State.linkWord (s : State) (t : TileId) (dir flips : Nat) : State × Bool × Bool :=
  let bad := fun (st : State) => st.hwFault t 0x0713 (9 * 2 ^ 28 + dir * 2 ^ 16)
  match flips with
  | 0 => (s, false, false)
  | 1 => (s.countCorrection t none, false, false)
  | 2 => (bad s, true, false)
  | _ =>
    match Config.freeEcc s.freeCtr % 3 with
    | 0 => (bad (s.used 1), true, false)
    | 1 => ((s.used 1).countCorrection t none, false, true)
    | _ => (s.used 1, false, true)

/-- A mover write arriving over a link (R166, R179): discarded by a tile that is down, else written and acknowledged. -/
def State.linkWrite (s : State) (t u : TileId) (addr : Nat) (data : List Byte) (tag seqNo : Nat) : State :=
  if s.down t then (s.noteAbsorbed t).moverAnswer u tag seqNo [] true
  else (s.writeLocal t (addr % 262144) data u 7).moverAnswer u tag seqNo [] false

/-- A message of a link is a queue entry. -/
def isEntry (m : LinkMsg) : Bool :=
  match m with
  | .entry _ _ => true
  | _ => false

/-- The tile's queue and link ports act: in an enabled cycle (R89, R180), or, where the tile is down, as absorbers. -/
def State.portsAct (s : State) (t : TileId) : Bool := s.down t || s.acts t

/-- An entry that comes before link `k` in the order of R170 (4 stands for the mesh) is held for queue `n` and has room. -/
def Tile.readyBefore (x : Tile) (n k : Nat) : Bool :=
  (List.range k).any fun d => (tget [] x.hold d).any fun h => h.1 = n && decide (h.2.words.length ≤ x.qRoom n)

/-- Link `dir` carries one more queue entry of `len` bytes in this cycle: it has carried none, and the bytes are left (R179). -/
def Tile.linkFree (x : Tile) (dir len : Nat) : Bool :=
  let u := tget (0, 0) x.linkUse dir
  u.1 = 0 && decide (u.2 + len ≤ 32)

/-- Link `dir` has carried `n` entries and `b` bytes more in this cycle. -/
def Tile.useLink (x : Tile) (dir n b : Nat) : Tile :=
  let u := tget (0, 0) x.linkUse dir
  { x with linkUse := tset x.linkUse dir (u.1 + n, u.2 + b) }

/-- The first words of a message as its flipped bits leave them. -/
def spoilWord (c : Bool) (w : Word) (l : List Word) : List Word := if c then w :: l.drop 1 else l

/-- The first queue entry of link `dir` passes, one in a cycle, unless one is held or an earlier one goes first (R170, R171, R179).
Answers whether one passed. -/
def State.entryPass (s : State) (t u : TileId) (dir flips : Nat) : State × Bool :=
  let o := opposite dir
  let x := s.tile t
  match takeFirst isEntry (tget [] (s.tile u).out o) with
  | some (.entry n e, r) =>
    if !(tget [] x.hold dir).isEmpty || !(s.down t || x.linkFree dir (4 * e.words.length))
        || (!(s.absorbing t) && decide (e.words.length ≤ x.qRoom n) && x.readyBefore n dir) then
      (s, false)
    else
      let s := (s.modTile u fun y => { y with out := tset y.out o r }).modTile t fun y => y.useLink dir 1 (4 * e.words.length)
      let w := Config.freeWord s.freeCtr
      let q := s.linkWord t dir flips
      if q.2.1 then (q.1, true) else (q.1.linkEntry t dir n { e with words := spoilWord q.2.2 w e.words }, true)
  | _ => (s, false)

/-- A mover write is on the link. -/
def isLinkWrite (m : LinkMsg) : Bool := !(isEntry m)

/-- The first mover write of link `dir` takes its effect. -/
def State.takeWrite (s : State) (t u : TileId) (dir flips : Nat) : State :=
  let o := opposite dir
  match takeFirst isLinkWrite (tget [] (s.tile u).out o) with
  | some (.write a d tag n, r) =>
    let s := (s.modTile u fun y => { y with out := tset y.out o r }).modTile t fun y => { y with linkMoved := tset y.linkMoved dir 0 }
    let w := Config.freeWord s.freeCtr
    let q := s.linkWord t dir flips
    if q.2.1 then q.1
    else q.1.linkWrite t u a (if q.2.2 then (leBytes 4 w.toNat ++ d.drop 4).take d.length else d) tag n
  | _ => s

/-- Length of the first mover write on link `dir`. -/
def State.writeLen (s : State) (u : TileId) (dir : Nat) : Option Nat :=
  match takeFirst isLinkWrite (tget [] (s.tile u).out (opposite dir)) with
  | some (.write _ d _ _, _) => some d.length
  | _ => none

/-- The bytes that the entries of this cycle leave free carry the first mover write of link `dir` on (R179); once it has come whole it
is written as the ports of the tile allow (R153). -/
def State.writePass (s : State) (t u : TileId) (dir flips : Nat) : State :=
  match s.writeLen u dir with
  | none => s
  | some len =>
    if s.down t then s.takeWrite t u dir flips
    else
      let had := tget 0 (s.tile t).linkMoved dir
      let b := min (len - had) (32 - (tget (0, 0) (s.tile t).linkUse dir).2)
      let s := s.modTile t fun x => { x.useLink dir 0 b with linkMoved := tset x.linkMoved dir (had + b) }
      if had + b < len then s else s.atPort t true (1 + dir) fun st => st.takeWrite t u dir flips

/-- LINK_TRANSFER_ARRIVE (R171, R179, R180): one cycle of the link, a queue entry and bytes of a mover write. `flips` bits of a word are
flipped on the way, of the entry if one passes, else of the write that has come whole. -/
def execLinkTransferArrive (t : TileId) (dir flips : Nat) (s : State) : Res :=
  match s.neighbour t dir with
  | none => .next s
  | some u =>
    if s.portsAct t then
      let q := s.entryPass t u dir flips
      .next (q.1.writePass t u dir (if q.2 then 0 else flips))
    else .next s

/-- HELD_ENTRY_ENTER (R170, R171): once there is room, or once the tile absorbs; the release is signalled. -/
def execHeldEntryEnter (t : TileId) (dir : Nat) (s : State) : Res :=
  match tget [] (s.tile t).hold dir with
  | [] => .next s
  | (n, e) :: _ =>
    let clear := fun (st : State) => (st.modTile t fun x => { x with hold := tset x.hold dir ((tget [] x.hold dir).drop 1) }).signalLink t dir 1
    if !(s.portsAct t) then .next s
    else if s.absorbing t then .next (clear (s.absorb t n e))
    else if decide ((s.tile t).roomAt n dir ≥ e.words.length) && !((s.tile t).readyBefore n dir) then
      .next ((clear s).enterAt t n dir e)
    else .next s

/-- CREDIT_RETURN (R171). -/
def execCreditReturn (t : TileId) (dir queue : Nat) (s : State) : Res :=
  let k := dir * 8 + queue
  match takeFirst (fun p => p.1 = k) (s.tile t).creditsFlying with
  | none => .next s
  | some r =>
    if s.portsAct t then
      .next (s.modTile t fun x => { x with creditsFlying := r.2, credits := tset x.credits k (tget 0 x.credits k + r.1.2) })
    else .next s

/-- A signal of kind `k` on link `dir` reaches tile `t`, in an enabled cycle (R180). -/
def State.signalAt (s : State) (t : TileId) (dir k : Nat) : Option State := if s.portsAct t then s.takeSignal t dir k else none

/-- HOLD_SIGNAL_ARRIVE (R171): sends on the link wait. -/
def execHoldSignalArrive (t : TileId) (dir : Nat) (s : State) : Res :=
  match s.signalAt t dir 0 with
  | none => .next s
  | some s' => .next (s'.modTile t fun x => { x with blocked := x.blocked ||| BitVec.ofNat 4 (2 ^ dir) })

/-- RELEASE_SIGNAL_ARRIVE (R171). -/
def execReleaseSignalArrive (t : TileId) (dir : Nat) (s : State) : Res :=
  match s.signalAt t dir 1 with
  | none => .next s
  | some s' => .next (s'.modTile t fun x => { x with blocked := x.blocked &&& ~~~(BitVec.ofNat 4 (2 ^ dir)) })

/-- ABSORB_SIGNAL_ARRIVE (R174): credit waits for that tile end. -/
def execAbsorbSignalArrive (t : TileId) (dir : Nat) (s : State) : Res :=
  match s.signalAt t dir 2 with
  | none => .next s
  | some s' => .next (s'.modTile t fun x => { x with farAbsorbs := x.farAbsorbs ||| BitVec.ofNat 4 (2 ^ dir) })

/-! The mesh route -/

/-- The local port of the tile's router takes one more packet of VC2 (R188). -/
def State.localRoom (s : State) (t : TileId) (p : Packet) : Bool :=
  let a := s.routerOf t
  let r := s.router (routerKey a.1 a.2)
  let k := bufKey 4 (s.half a.1 p) 2 false
  decide ((tget [] r.inq k).length < 8) && !((tget [] r.entering 4).any fun u => bufKey 4 (s.half a.1 u) u.vc u.yFirst = k)

/-- EGRESS_DEPART (R172, R427): the buffer's first entry enters the mesh on VC2, once the router has room for it; of a tile that is
down too. -/
def execEgressDepart (t : TileId) (s : State) : Res :=
  match (s.tile t).egress with
  | [] => .next s
  | p :: r =>
    if s.portsAct t && s.localRoom t p then .next ((s.modTile t fun x => { x with egress := r }).sendToTile t p.dst p) else .next s

/-- An entry from the mesh at its tile (R170, R172, R174): absorbed, entered, parked, or kept waiting, as any is while the buffer is
full. An entry of an abandoned tide is discarded (R173). -/
def execMeshEntryArrive (t : TileId) (s : State) : Res :=
  match takeFirst (fun (p : Packet) => p.kind = .entry && p.dst = t) s.arrived with
  | none => .next s
  | some r =>
    let x := s.tile t
    let n := r.1.queue
    let e : QEntry := { words := r.1.words, sender := r.1.src }
    let s' : State := { s with arrived := r.2 }
    if r.1.failed then .next s'
    else if !(s.portsAct t) then .next s
    else if s.absorbing t || !(x.qEn n) then .next (s'.absorb t n e)
    else if x.ingress.length ≥ 8 then .next s
    else if decide (x.qRoom n ≥ e.words.length) && !(x.ingress.any fun i => i.1 = n) then
      (if x.readyBefore n 4 then .next s else .next (s'.enter t n 4 e))
    else .next (s'.modTile t fun x => { x with ingress := x.ingress ++ [(n, e)] })

/-- PARKED_ENTRY_ENTER (R170, R172): the first entry parked for the queue, once there is room or the tile absorbs. -/
def execParkedEntryEnter (t : TileId) (queue : Nat) (s : State) : Res :=
  match takeFirst (fun (i : Nat × QEntry) => i.1 = queue) (s.tile t).ingress with
  | none => .next s
  | some r =>
    let s' := s.modTile t fun x => { x with ingress := r.2 }
    if !(s.portsAct t) then .next s
    else if s.absorbing t then .next (s'.absorb t queue r.1.2)
    else if decide ((s.tile t).qRoom queue ≥ r.1.2.words.length) && !((s.tile t).readyBefore queue 4) then
      .next (s'.enter t queue 4 r.1.2)
    else .next s

end Sys2Proof.Machine
end

