-- ==== Sys2Proof/Machine/Tide.lean ====
section
/-!
DEFINITION. What tides are made of (spec/08_tides.md R213 to R235, with R125, R154, R175, R209, R251, R259, R469 to R483):
the start of a tide, its commit, its abandon, recovery, the end of a run, and the events at a tide's end.
-/

namespace Sys2Proof.Machine

/-- The tide parameter block of a partition's image (R233). -/
def State.params (s : State) (p : Nat) : TideParams := ((s.part p).image.map fun b => b.params).getD {}

/-- Tide `n` is a mark tide (R227). -/
def markTideOf (a : TideParams) (n : Nat) : Bool := decide (0 < a.markInterval) && decide (n % a.markInterval = a.markInterval - 1)

/-- N_T, the nominal length of tide `n` (R213, R233). -/
def nominalOf (a : TideParams) (n : Nat) : Nat :=
  if markTideOf a n && decide (a.markNominalCc ≠ 0) then a.markNominalCc else a.nominalCc

/-- G (R213). -/
def gapCc : Nat := 1024

/-! The start of a tide -/

/-- The canary of tile `t` is due in tide `n` (R481). -/
def State.canaryDue (s : State) (p n : Nat) (t : TileId) : Bool :=
  let q := s.part p
  bit (s.tile t).canary.toNat 31 && q.canaryEn && (decide (n % q.canaryInterval = t % q.canaryInterval) || s.isObserved t)

/-- The credits of tile `t` at a tide start: the far queue's depth where it is enabled (R173). -/
def State.fullCredits (s : State) (t : TileId) : Tab Nat :=
  [0, 1, 2, 3].flatMap fun dir => match s.neighbour t dir with
    | none => []
    | some u => (List.range 8).filterMap fun q =>
        if (s.tile u).qEn q then some (dir * 8 + q, (s.tile u).qDepth q) else none

/-- The neighbours of tile `t` that are down, as link bits. -/
def State.downLinks (s : State) (t : TileId) : BitVec 4 :=
  BitVec.ofNat 4 (([0, 1, 2, 3].filter fun dir => match s.neighbour t dir with
    | none => false
    | some u => s.down u).foldl (fun m d => m + 2 ^ d) 0)

/-- The mover writes still on a link: its queue entries are gone. -/
def dropEntries (l : Tab (List LinkMsg)) : Tab (List LinkMsg) := l.map fun q => (q.1, q.2.filter fun m => !isEntry m)

/-- A tile at the start of tide `n` (R126, R173, R123, R202): it issues from its entry bundle, queues and buffers are empty,
credits full, bell counts clear. -/
def State.tideTile (s : State) (p n : Nat) (t : TileId) (x : Tile) : Tile :=
  { x with
    pc := x.entry, issuing := !(s.down t), bubble := 0, loops := [], held := [], heldFor := 0, ended := false, rung := false
    faulted := none, queues := [], egress := [], ingress := [], hold := [], out := dropEntries x.out, blocked := 0
    credits := s.fullCredits t, creditsFlying := [], sigFlying := [], farAbsorbs := s.downLinks t, entriesFlying := 0
    verdictsFlying := 0, markLeft := [], markFlying := [], pendRings := [], fireCnt := [], ringsFlying := [], firesFlying := []
    conflicts := 0, canaryRan := false, canaryRunning := false, canaryEnd := none, seqIssue := false
    canaryDueSince := if s.canaryDue p n t then some (x.canaryDueSince.getD n) else x.canaryDueSince }

/-- Tide `(s.part p).tide` starts (R213, R216): with the admission made for it, which a replay keeps (R219). -/
def State.startTide (s : State) (p : Nat) (replay : Bool) : State :=
  let s := if replay then s else s.settleCanary p
  let q := s.part p
  let n := q.tide
  let built := decide (q.admitTide = some n)
  let adm := if built then q.nextAdmitted else if replay then q.admitted else []
  let s' := each (s.tilesOf p) (fun t st => st.modTile t (s.tideTile p n t)) (s.applyCache p)
  let s' := each (s.clustersOf p) (fun c st => st.modCluster c fun k => { k with passed := [] }) s'
  let s' := if q.inJob then
      each (List.range 6) (fun h st => st.modHport h fun x => { x with slot := 0, badTide := 0 })
        { s' with job := { s'.job with slotTide := n } }
    else s'
  s'.modPart p fun y => { y with
    st := .open_, awaiting := false, startT := s.time, bellReady := false, resultsIn := false, faultBell := false, halted := false
    cause := none, causes := [], named := [], hbmRows := [], settled := false, recovered := false, restoreAll := false
    exhausted := none, recoveryTimeout := false, markLost := false
    verdicts := [], results := [], admitted := adm, nextAdmitted := if built || !replay then [] else y.nextAdmitted
    admitTide := if built then none else y.admitTide
    replaying := replay, ranSinceLoad := true }

/-! The end of a tide: events of R154, R175, R209, R251 -/

/-- Entries discarded for queue `n` of tile `t`: in the queue, parked, held, or in an egress buffer of the partition. [DESIGN CHOICE, log entry 56] -/
def State.leftover (s : State) (out : List Packet) (t : TileId) (n : Nat) : Nat :=
  let x := s.tile t
  (x.queue n).entries.length + (x.ingress.filter fun e => e.1 = n).length
    + (x.hold.flatMap fun h => h.2.filter fun e => e.1 = n).length
    + (out.filter fun (k : Packet) => k.dst = t && k.queue = n).length

/-- QUEUE_ABSORBED of one queue (R175). -/
def State.queueEvent (s : State) (p tide : Nat) (replay : Bool) (out : List Packet) (t : TileId) (n : Nat) : State :=
  let q := (s.tile t).queue n
  let left := s.leftover out t n + q.lost
  if q.absorbed = 0 ∧ left = 0 then s
  else s.raiseTide p tide replay 0x0230 1 t (sat q.absorbed 0xFFFFFFFF * 2 ^ 32 + sat left 0xFFFF * 2 ^ 16
    + b01 q.ended * 2 ^ 7 + b01 q.reset * 2 ^ 6 + b01 q.disabled * 2 ^ 5 + n)

/-- The events of one tile, and its buffers emptied (R173). -/
def State.tileEnd (s : State) (p tide : Nat) (replay : Bool) (out : List Packet) (t : TileId) : State :=
  let s := each (List.range 8) (fun n st => st.queueEvent p tide replay out t n) s
  let x := s.tile t
  let s := if x.conflicts = 0 then s else s.raiseTide p tide replay 0x0231 2 t (sat x.conflicts 0xFFFFFFFF)
  let s := if x.failedAcc = 0 then s
    else s.raiseTide p tide replay 0x0233 2 t
      (sat x.failedAcc 0xFFFFFFFF * 2 ^ 32 + sat x.failedDesc 0xFFFF * 2 ^ 16 + x.failedTags.toNat)
  s.modTile t fun y => { y with queues := [], egress := [], ingress := [], hold := [], out := dropEntries y.out
                                conflicts := 0, failedAcc := 0, failedDesc := 0, failedTags := 0
                                tags := y.tags.map fun g => (g.1, { g.2 with noted := false }) }

/-- BREAKWATER_DROP of one breakwater (R209). -/
def State.dropEvent (s : State) (p tide : Nat) (replay : Bool) (b : BwDrop) : State :=
  if b.count = 0 then s
  else s.raiseTide p tide replay 0x0240 2 (unitId 2 (tileStripe b.src + s.sigma0))
    (b.src * 2 ^ 47 + b.dest * 2 ^ 30 + b.kind * 2 ^ 28 + sat b.count 0xFFFFFF)

/-- Every event of a tide's end, tiles in ascending index, then breakwaters. -/
def State.endEvents (s : State) (p tide : Nat) (replay : Bool) : State :=
  let out := (s.tilesOf p).flatMap fun t => (s.tile t).egress
  let s := each (s.tilesOf p) (fun t st => st.tileEnd p tide replay out t) s
  let q := s.part p
  (((s.dropEvent p tide replay q.bwWest).dropEvent p tide replay q.bwEast)).modPart p fun q =>
    { q with bwWest := {}, bwEast := {} }

/-- The entries of an abandoned tide that stand in queue `n` are lost, and counted until the tide's events (R173, R175). -/
def State.loseQueue (s : State) (out : List Packet) (t : TileId) (n : Nat) : State :=
  let k := s.leftover out t n
  if k = 0 then s else s.modQueue t n fun q => { q with entries := [], lost := q.lost + k }

/-- The queues and buffers of the partition are emptied at an abandon (R173, R218); what is absorbed and dropped until it ends belongs
to the tide as well. -/
def State.loseQueues (s : State) (p : Nat) : State :=
  let out := (s.tilesOf p).flatMap fun t => (s.tile t).egress
  let s := each (s.tilesOf p) (fun t st => each (List.range 8) (fun n st => st.loseQueue out t n) st) s
  each (s.tilesOf p) (fun t st => st.modTile t fun y =>
    { y with egress := [], ingress := [], hold := [], out := dropEntries y.out }) s

/-! Commit (R217, R223, R224) -/

/-- A plan at a commit: the tentative accumulator becomes the accumulator, or +0 after a reducing tide (R347). -/
def State.commitPlans (s : State) (p tide : Nat) : State :=
  let plans := ((s.part p).image.map fun b => b.plans).getD []
  s.modPart p fun q => { q with plans := q.plans.map fun e =>
    let iv := ((plans.find? fun (c : CollPlan) => c.plan = e.1).map fun c => c.interval).getD 0
    let v : PlanState := match e.2.tentative with
      | none => { accum := e.2.accum }
      | some l => { accum := if iv ≠ 0 ∧ tide % iv = iv - 1 then [] else l }
    (e.1, v) }

/-- Observation counts at a commit (R483): a site observed for OBSERVE_TIDES committed tides is observed no more. -/
def State.countObserved (s : State) (p : Nat) : State :=
  each s.observed (fun o st =>
    match st.tileAt (o.1 % 296) (o.1 / 296) with
    | none => st
    | some t =>
      if st.partOf t ≠ some p then st
      else
        let st : State := { st with observed := tset st.observed o.1 { o.2 with tides := o.2.tides + 1 } }
        if o.2.tides + 1 ≥ (st.part p).observeTides then st.endObserve (o.1 % 296) (o.1 / 296) t else st) s

/-- The stretch of the tide committed last, and the counters and the list of stretched tides that it gives with what stood before
(R223, R224). -/
def Partition.stretched (q : Partition) (stretch : Nat) : Partition :=
  let ix := q.tidesCommitted
  let old := q.stretches.filter fun e => e.1 ≠ ix && decide ((ix + 2 ^ 48 - e.1) % 2 ^ 48 < 65536)
  { q with
    lastStretch := stretch
    tidesStretched := (q.before.1 + b01 (decide (stretch > 0))) % 2 ^ 48
    stretchTotal := sat (q.before.2.1 + stretch) (2 ^ 64 - 1)
    stretchMax := sat (max q.before.2.2 stretch) 0xFFFFFFFF
    stretches := if stretch = 0 then old else (ix, stretch) :: old }

/-- The tide's figures at commit point `c` (R213, R223): stretch and the next start. `u` is the length of a tile cycle. -/
def Partition.figures (q : Partition) (nominal c u : Nat) : Partition :=
  ({ q with
     commitT := c, nextStartT := max (q.startT + nominal * u) (c + gapCc * u)
     tidesCommitted := (q.tidesCommitted + 1) % 2 ^ 48
     tidesReplayed := (q.tidesReplayed + b01 q.replaying) % 2 ^ 32
     before := (q.tidesStretched, q.stretchTotal, q.stretchMax) } : Partition).stretched
    ((c + gapCc * u - q.startT - nominal * u) / u)

/-- DEBUG_WAIT_PROFILE of every cluster of the partition, while the telemetry scope is open (R516); the counts start again. -/
def State.waitProfile (s : State) (p : Nat) : State :=
  let s := if !s.dbg.telemetry then s
    else each (s.clustersOf p) (fun c st =>
      let ts := st.tilesOfCluster c
      let w := ts.foldl (fun n t => n + (st.tile t).waitCycles) 0
      let b := ts.foldl (fun n t => n + (st.tile t).bundlesIssued) 0
      st.raiseDev 0x0A01 0 (unitId 1 c) (sat w 0xFFFFFFFF * 2 ^ 32 + sat (b / 65536) 0xFFFFFFFF)) s
  each (s.tilesOf p) (fun t st => st.modTile t fun x => { x with waitCycles := 0, bundlesIssued := 0 }) s

/-- TIDE_STRETCH, TIDE_REPLAYED and TIDE_SUMMARY of a committed tide (R224). -/
def State.commitEvents (s : State) (p tide : Nat) (replay : Bool) : State :=
  let q := s.part p
  let warn := (s.params p).stretchWarnCc
  let ev := fun (st : State) (code sev pay : Nat) => st.raiseTide p tide replay code sev mgmtUnit pay
  let s := if warn ≠ 0 ∧ q.lastStretch > warn then
      ev s 0x0201 1 (sat q.lastStretch 0xFFFFFFFF * 2 ^ 32 + sat ((q.commitT - q.startT) / cycleUnits s.power.step) 0xFFFFFFFF)
    else s
  let s := if replay then ev s 0x0203 1 0 else s
  if tide % 65536 = 0 then
    (ev s 0x0204 0 (q.stretches.length * 2 ^ 32 + sat (q.stretches.foldl (fun m e => max m e.2) 0) 0xFFFFFFFF)).waitProfile p
  else s

/-- The commit of the tide of partition `p` at commit point `c`, in units of `time` (R217): marks, streams, pages,
completions and plans together; then the events of the tide's end. Faults stamped later belong to the next tide. -/
def State.commitTide (s : State) (p c : Nat) : State :=
  let q := s.part p
  let n := q.tide
  let a := s.params p
  let s := s.reportLost p
  let s := s.commitStreams p n
  let s := s.commitPlans p n
  let s := s.modPart p fun y =>
    ({ y with markSlot := if markTideOf a n then y.markSlot.map (1 - ·) else y.markSlot } : Partition).figures (nominalOf a n) c
      (cycleUnits s.power.step)
  let s := s.modPart p fun y => { y with st := .boundary, commitTs := s.now, tierRan := false, streamActed := 0 }
  let s := (s.endEvents p n q.replaying).commitEvents p n q.replaying
  let s := s.countObserved p
  let s := each ((s.tilesOf p).filter fun t => (s.tile t).canaryRan) (fun t st => st.modTile t fun x =>
    { x with canaryDueSince := none, firstMismatch := none }) s
  (s.readConsumer p).modPart p fun y => { y with
    tide := (n + 1) % 2 ^ 48, replaying := false, lastReplays := q.replays, replays := 0, freeAbandons := 0, canaryAbandons := [], stallSeen := []
    bellReady := false, resultsIn := false, verdicts := [], results := [] }

/-! Abandon (R218) -/

/-- A tile in an abandon: issue, array operations and descriptors that are not shadow stop; waits are withdrawn. -/
def abandonTile (x : Tile) : Tile :=
  { x with issuing := false, held := [], heldFor := 0, bubble := 0, loops := [], run := none, pendRun := none, tails := [], markLeft := []
           markFlying := [], mvBusy := none, linkMoved := []
           verdictsFlying := 0, canaryRunning := false, canaryEnd := none
           tags := x.tags.map fun g => if g.2.st = .active ∧ !g.2.shadow then (g.1, ({} : TagState)) else g }

/-- Shadow tags of a tile. -/
def Tile.shadowTags (x : Tile) : List Nat :=
  (x.tags.filter fun g => g.2.st = .landed ∨ (g.2.st = .active ∧ g.2.shadow)).map fun g => g.1

/-- A queue entry, a verdict, or a unit's read of an abandoned tide on its way through the mesh: it is discarded where it
arrives. -/
def staleIn (s : State) (p : Nat) (k : Packet) : Bool :=
  (k.kind = .entry || k.kind = .verdict || (k.kind = .readReq && k.unit ≠ .none && k.unit ≠ .cxl)) && s.partOf (pktOwner k) = some p

/-- The packet marked to be discarded. -/
def markStale (s : State) (p : Nat) (k : Packet) : Packet := if staleIn s p k then { k with failed := true } else k

/-- Queue entries, verdicts and reads of edge units of the partition in the mesh are dropped (R145, R173, R218), and the units
wait for no answer of the tide. -/
def State.dropInMesh (s : State) (p : Nat) : State :=
  { s.mapMesh (markStale s p) with
    arrived := s.arrived.filter fun k => !(staleIn s p k)
    unitAcc := s.unitAcc.filter fun a => a.part ≠ p }

/-- Tentative appends are dropped: every pinned page of the partition returns to its committed fill (R32, R268). -/
def State.unpin (s : State) (p : Nat) : State :=
  { s with pages := s.pages.map fun g =>
    if g.2.st = .pinned ∧ s.partOfSlot g.2.owner = some p then (g.1, g.2.settle g.2.cfill) else g }

/-- Plans at an abandon: what the tide contributed is discarded (R218, R347). -/
def Partition.abandonPlans (q : Partition) : Partition :=
  { q with plans := q.plans.map fun e => (e.1, ({ accum := e.2.accum } : PlanState)) }

/-- In a job, an abandon leaves no drumbeat to start from, and the stop that ends a RUN_SINGLE waits for the replay's commit (R216,
R222). -/
def State.abandonBeat (s : State) : State := { s with job := { s.job with beat := false, endWanted := false } }

/-- The last partition of the job's run has stopped: no stop is asked for any more. -/
def State.dropStops (s : State) : State :=
  if s.jobParts.isEmpty then { s with job := { s.job with stopWanted := false, endWanted := false } } else s

/-- The abandon begins: of the running tide, or of the next one, which has not started (R216, R218). The capture comes
before anything is discarded (R489); the admission of the tide is kept (R219). -/
def State.beginAbandon (s : State) (p : Nat) : State :=
  let q := s.part p
  let ts := s.tilesOf p
  let s := s.releaseFaults none
  let s := s.takeCapture p q.tide
  let s := each ts (fun t st => each (st.tile t).shadowTags (fun n st => st.discardTag t n) st) s
  let s := each ts (fun t st => st.modTile t abandonTile) s
  let s := ((s.dropInMesh p).unpin p).loseQueues p
  let s := if q.inJob then s.abandonBeat else s
  s.modPart p fun y =>
    ({ y with
       st := .abandoning, awaiting := false, faultBell := false, halted := false, cleared := false, settled := false, verdicts := []
       results := []
       bellReady := false, resultsIn := false
       moveQueue := y.moveQueue.filter fun m => !m.2.2
       restoreAll := markTideOf (s.params p) y.tide } : Partition).abandonPlans

/-- Admission tables of the partition are still on their way (R297). -/
def State.tablesFlying (s : State) (p : Nat) : Bool :=
  s.inMesh fun k => k.kind = .mgmt && k.exit = .localSite && s.partOf k.dst = some p

/-- A write or accumulate-write of the partition is still on its way: in the mesh, at a memory port or on a link (R218). -/
def State.writesFlying (s : State) (p : Nat) : Bool :=
  let mine := fun (k : Packet) => (k.kind = .write || k.kind = .accWrite || k.kind = .mgmt) && s.partOf (pktOwner k) = some p
  s.inMesh mine || s.memports.any (fun m => m.2.requests.any mine)
    || (s.tilesOf p).any fun t => (s.tile t).out.any fun q => q.2.any fun m => !(isEntry m)

/-- The ACTION that RUN_STOPPED carries for a cause that stops the run (R224). -/
def FaultCause.stopAction (c : FaultCause) : Nat :=
  if c.act ≠ 0 then c.act
  else match c.kind with
    | .stall => 2
    | _ => 1

/-- The bits of TIDE_ABANDON and RUN_STOPPED above ACTION (R224). -/
def causeField (c : Option FaultCause) (replays : Nat) : Nat :=
  match c with
  | none => min replays 15 * 2 ^ 12
  | some c => c.code * 2 ^ 48 + c.unit * 2 ^ 16 + min replays 15 * 2 ^ 12 + c.rank / 256 % 16 * 2 ^ 8

/-- Stall faults of the abandon: tile, code, bundle (R148). -/
def State.stalls (s : State) (q : Partition) : List (TileId × Nat × Nat) :=
  (q.causes.filter fun c => c.kind = .stall).map fun c => (c.unit, c.code, ((s.tile c.unit).faulted.map fun f => f.bundle).getD 0)

/-- The abandon does not count toward REPLAY_LIMIT (R482): only canary mismatches, at most twice for each tile in a tide. -/
def Partition.freeAbandon (q : Partition) : Bool :=
  !q.causes.isEmpty && q.causes.all fun c => c.code = 0x0701 && decide (tget 0 q.canaryAbandons c.unit < 2)

/-- The outcome of an abandon outside a job: ACTION of TIDE_ABANDON, and of RUN_STOPPED where it stops (R216, R221). -/
def State.verdictOf (s : State) (p : Nat) : Nat × Nat :=
  let q := s.part p
  let full := decide (q.replays - q.freeAbandons ≥ (s.params p).replayLimit) && !q.freeAbandon
  match q.cause with
  | none => if full then (2, 3) else (0, 0)
  | some c =>
    match c.kind with
    | .stop => (2, c.stopAction)
    | .program => (2, c.stopAction)
    | .stall => if (s.stalls q).any (fun k => q.stallSeen.contains k) then (2, 2) else if full then (2, 3) else (0, 0)
    | .hardware => if full then (2, 3) else (1, 0)

/-! The end of a run (R222, R224, R408) -/

/-- A canary mismatch whose outcome is applied although another fault stops the run (R482). -/
def State.canaryOutcome (s : State) (p : Nat) : State :=
  each ((s.part p).named.filter fun e => e.2 = 0x0701) (fun e st =>
    if st.isObserved e.1 then st.remapNow e.1 0x0701 else st.beginObserve e.1 0 false) s

/-- The events of an abandoned tide's end, once what its abandon and recovery absorbed is known (R175, R209, R251, R427). -/
def State.abandonEvents (s : State) (p : Nat) : State :=
  let q := s.part p
  if q.st = .abandoning || q.st = .recovering then s.endEvents p q.tide q.replaying else s

/-- The partition enters LOADED from a running state: RUN_STOPPED, and the commands that waited for it complete, among them a job's
RUN_START that no tide has started for (R408). [DESIGN CHOICE, log entry 148] A held
RUN_START or RUN_SINGLE stays in `enableHeld` for the start that follows. -/
def State.toLoaded (s : State) (p action field tide : Nat) : State :=
  let q := s.part p
  let s := s.abandonEvents p
  let pay := if action = 6 then q.lastCommitted * 2 ^ 16 + 6 else field + action
  let s := s.raiseTide p tide q.replaying 0x0205 (if action = 0 then 0 else 3) mgmtUnit pay
  let s := if action = 0 then s else s.canaryOutcome p
  let s := s.modPart p fun y => { y with
    st := .loaded, stopPending := false, stopMbx := none, single := none, startMbx := none, awaiting := false
    replaying := false, replays := 0, freeAbandons := 0, canaryAbandons := [], cause := none, causes := [], stallSeen := []
    named := [], hbmRows := [], faultBell := false, halted := false, settled := false, recovered := false, restoreAll := false
    exhausted := none, recoveryTimeout := false, markLost := false, inJob := false, admitted := []
    nextAdmitted := [], admitTide := none, tablesDue := false, reserved := 0 }
  let s := ((if q.inJob then s.dropStops else s).applyCache p).settleCanary p
  let s := each ((List.range q.slotCount).map (q.slotFirst + ·)) (fun n st => st.closeOut n false) s
  let s := s.okHeld q.stopMbx (leBytes 6 q.tide)
  let s := match q.startMbx with
    | none => s
    | some m => if action ≠ 0 then s.failWith m stHw action else s.failWith m stBusy 0
  match q.single with
  | none => s
  | some m =>
    if action ≠ 0 then s.failWith m stHw action
    else s.okWith m (leBytes 6 q.lastCommitted ++ leBytes 2 0 ++ leBytes 4 (sat q.lastStretch 0xFFFFFFFF))

/-- The causes of an abandon have had their effect; one that does not count is counted as such (R482). -/
def Partition.closeCauses (q : Partition) : Partition :=
  { q with
    cause := none, causes := [], freeAbandons := q.freeAbandons + b01 q.freeAbandon
    canaryAbandons := if q.freeAbandon then
        q.causes.foldl (fun t c => tset t c.unit (tget 0 t c.unit + 1)) q.canaryAbandons
      else q.canaryAbandons }

/-- A replay waits to start (R216); the abandoned tide's tables are written again, or, of a tide that had not started, once they can
be (R219, R297). A fault stamped since the recovery was complete is the replay's. -/
def State.awaitReplay (s : State) (p : Nat) : State :=
  let q := s.part p
  let s := s.abandonEvents p
  let s := if q.admitTide ≠ some q.tide then s.writeTables p q.tide q.admitted
    else if q.tablesDue then s else s.writeTables p q.tide q.nextAdmitted
  s.modPart p fun q =>
    { (if q.recovered then q else q.closeCauses) with
      st := .open_, awaiting := true, replaying := true, replays := q.replays + 1, settled := false, recovered := false }

/-- The abandon's outcome is carried out (R216, R222, R224): TIDE_ABANDON, then a replay, a recovery, or the end of the run. -/
def State.actOnAbandon (s : State) (p act stop : Nat) : State :=
  let q := s.part p
  let field := causeField q.cause q.replays
  let s := s.raiseTide p q.tide q.replaying 0x0202 2 mgmtUnit (field + act)
  let s := s.modPart p fun y => { y with
    tidesAbandoned := (y.tidesAbandoned + 1) % 2 ^ 32, stallSeen := y.stallSeen ++ s.stalls q, settled := false }
  match act with
  | 0 => s.awaitReplay p
  | 1 => s.modPart p fun y => { y with st := .recovering, cause := none }
  | _ => s.toLoaded p stop field q.tide

/-! Recovery (R220, R259, R469 to R472, R482) -/

/-- The named tiles in the order of repair, each once: ascending cluster, then ascending offset (R470). A code that remaps stands
before a canary mismatch (R482). -/
def State.repairOrder (s : State) (l : List (TileId × Nat)) : List (TileId × Nat) :=
  let once := (l.filter (·.2 ≠ 0x0701) ++ l.filter (·.2 = 0x0701)).foldl
    (fun (acc : List (TileId × Nat)) e => if acc.any fun a => a.1 = e.1 then acc else acc ++ [e]) []
  sortBy once fun a b =>
    let ka := s.clusterOf a.1 * 296 + (s.siteOf a.1).1
    let kb := s.clusterOf b.1 * 296 + (s.siteOf b.1).1
    decide (ka < kb) || (ka = kb && decide (tileY a.1 ≤ tileY b.1))

/-- Repair one named tile (R470, R472, R482). A first canary mismatch only puts its site under observation; a tile of a
withdrawn stripe is not repaired; a full segment is exhausted. -/
def State.repairTile (s : State) (p tide : Nat) (e : TileId × Nat) : State :=
  let t := e.1
  let site := s.siteOf t
  let sg := tileStripe t + s.sigma0
  let isFirst := e.2 = 0x0701 && !(s.isObserved t)
  if isFirst then s.beginObserve t 0 false
  else if s.withdrawn.getLsbD sg then s
  else if s.segHasRoom site.1 site.2 then s.disableSite site.1 site.2 1 e.2 tide
  else
    (s.exhaust (some p) site.1 site.2 1 e.2 tide).modPart p fun q => { q with exhausted := some sg }

/-- A spare row is left in the stack: the spec fixes no number, so this is a free value. [DESIGN CHOICE, log entry 16] -/
def State.spareRow (s : State) : Bool := Config.freeBit s.freeCtr

/-- A group of 32 bytes at byte `o` of frame `fr` is lost: where the frame holds staged bytes, they become free values (R504). -/
def State.spoilStaged (s : State) (fr o : Nat) : State :=
  let v := (List.range 8).flatMap fun i => leBytes 4 (Config.freeWord (s.freeCtr + i)).toNat
  let hit := fun (g : Stage) => match g.frames.idxOf? fr with
    | none => g
    | some i =>
      let a := i * 2 ^ 19 + o
      { g with img := { g.img with bytes := (g.img.bytes.take a ++ v ++ g.img.bytes.drop (a + 32)).take g.img.bytes.length } }
  ({ s with stages := s.stages.map hit }).used 8

/-- Handle one failing HBM row (R259). The row stands for the failing group, and a page with CFILL 0 is not lost.
[DESIGN CHOICE, log entries 46, 137] -/
def State.repairRow (s : State) (p tide : Nat) (r : Nat × Nat) : State :=
  let port := r.1
  let off := r.2
  let spare := s.spareRow
  let row := (Config.freeWord s.freeCtr).toNat % 2 ^ 28
  let s := s.used 1
  let s := if spare then s.logRepair 3 1 0x0715 (port * 2 ^ 28 + row) tide else s
  let lose := fun (st : State) => (st.withdraw (port % 8) 1 0x0715 tide).modPart p fun q => { q with markLost := true }
  match (s.part p).region off with
  | 0 =>
    let current := match (s.part p).markSlot with
      | some n => s.markHolds port n off
      | none => false
    if !spare then lose s else if current then s.modPart p fun q => { q with markLost := true } else s
  | 1 =>
    if spare then { s with hbm := memPut s.hbm (hbmAddr port off) (memBytes s.hbm (hbmAddr ((port + 8) % 16) off) 32) }
    else lose s
  | 2 => if spare then { s with hbm := memPut s.hbm (hbmAddr port off) (List.replicate 32 0) } else lose s
  | _ =>
    let fr := hbmFrame port (off / 2 ^ 19)
    let s := if s.frameRetired 0 fr then s else s.logRetired 0 (if spare then 0 else 1) fr
    match s.pageInFrame fr with
    | none => s.spoilStaged fr (off % 2 ^ 19)
    | some g =>
      if (s.part p).moves.any fun m => m.page = g then s.losePage g else s.loseIfHeld g

/-- Steps 1 to 3 of a recovery (R220): named tiles and failing rows; after a mark tide every tile's persistent ranges. -/
def State.repairAll (s : State) (p : Nat) : State :=
  let q := s.part p
  let order := s.repairOrder q.named
  let s := each order (fun e st => st.repairTile p q.tide e) s
  let s := each q.hbmRows (fun r st => st.repairRow p q.tide r) s
  let s := if q.restoreAll then
      each ((s.tilesOf p).filter fun t => !(order.any fun e => e.1 = t && e.2 = 0x0701)) (fun t st => st.restoreMark t) s
    else s
  s.modPart p fun y => { y with named := [], hbmRows := [], restoreAll := false }

/-- Why a recovery cannot complete: the ACTION and the cause of RUN_STOPPED (R216, R224). -/
def State.recoveryStop (s : State) (p : Nat) : Option (Nat × FaultCause) :=
  let q := s.part p
  match q.exhausted with
  | some sg => some (4, { kind := .program, code := 0x0705, unit := unitId 2 sg })
  | none =>
    if q.markLost then some (5, { kind := .program, code := 0x0715, unit := mgmtUnit })
    else if q.recoveryTimeout then
      some (7, (q.causes.find? fun c => c.code = 0x0607 || c.code = 0x0609).getD { kind := .hardware, code := 0x0607, unit := mgmtUnit })
    else match q.cause with
      | some c => if c.kind = .stop ∨ c.kind = .program then some (c.stopAction, c) else none
      | none => none

/-- Repair work is left (R220). -/
def Partition.repairLeft (q : Partition) : Bool := !q.named.isEmpty || !q.hbmRows.isEmpty || q.restoreAll

/-- A unit reset of the partition's tiles is still running. -/
def State.resetsLeft (s : State) (p : Nat) : Bool :=
  s.resets.any fun r => (r.scope = 0 && s.partOf r.index = some p) || (r.scope = 2 && r.index = p)
    || (r.scope = 1 && (s.clustersOf p).contains r.index)

/-- A cluster or stack of the partition is tripped and not yet recovered (R464, R465). -/
def State.tripLeft (s : State) (p : Nat) : Bool :=
  (s.clustersOf p).any (fun c => (s.cluster c).tripped) || (s.portsOf p).any fun m => (s.memport m).tripped

end Sys2Proof.Machine
end

