-- ==== Sys2Proof/Machine/JobOps.lean ====
section
/-!
DEFINITION. The job's part in a tide (spec/12_hikolink_jobs.md R336 to R340, R352; spec/08_tides.md R216, R221, R235): faults
sent up the tree, the abandon on every partition, SETTLED, ACTION and RECOVERED; and the start of a run.
-/

namespace Sys2Proof.Machine

/-- KIND of the tree records (R333). -/
def kindCode (k : FaultKind) : Nat :=
  match k with
  | .program => 0
  | .hardware => 1
  | .stall => 2
  | .stop => 3

/-- A kind by its code. -/
def kindOf (n : Nat) : FaultKind :=
  match n with
  | 0 => .program
  | 1 => .hardware
  | 2 => .stall
  | _ => .stop

/-- The CAUSE of a local fault. -/
def causeOf (c : Option FaultCause) : Cause :=
  match c with
  | none => {}
  | some c => { code := c.code, rank := c.rank, unit := c.unit }

/-- Every partition of the job that has not begun its abandon begins it (R337, R339). -/
def State.abandonJob (s : State) : State :=
  each (s.jobParts.filter fun p => (s.part p).st ≠ .abandoning && (s.part p).st ≠ .recovering) (fun p st => st.beginAbandon p) s

/-- The root's CONFIRM has fixed the commit point of the tide that still closes (R336). -/
def State.confirmed (s : State) : Bool := s.job.confirmAt.isSome && s.jobParts.any fun p => (s.part p).st = .closing

/-- A CONFIRM that was to commit and has not left yet is withdrawn (R339). -/
def State.dropConfirm (s : State) : State :=
  each s.job.childPorts (fun q st => st.modHport q fun x => { x with urgent := x.urgent.filter fun f => !f.commits }) s

/-- The root turns the tide's CONFIRM into an abandon (R339), unless it has already sent it to commit. -/
def State.rootAbandon (s : State) (c : Cause) : State :=
  if s.job.abandoned || s.confirmed then s
  else
    let s := s.dropConfirm
    let s : State := { s with job := { s.job with abandoned := true, cause := c } }
    (s.sendDown (.confirm s.jobTide s.now true c)).abandonJob

/-- A device that raises a fault stamped before the commit point sends FAULT; the root abandons the tide (R339). -/
def State.reportFault (s : State) (p : Nat) : State :=
  if !s.job.formed || !(s.part p).inJob then s
  else if s.isRoot then s.rootAbandon (causeOf (s.part p).cause)
  else
    let k := match (s.part p).cause with
      | some c => kindCode c.kind
      | none => 2
    s.sendUp (.fault s.jobTide k (causeOf (s.part p).cause))

/-- The higher of two kinds with their causes, the first where they are equal (R216). -/
def higher (a b : Nat × Cause) : Nat × Cause := if kindRank (kindOf b.1) < kindRank (kindOf a.1) then b else a

/-- The highest fault of this device's partitions: its kind and cause; stall with no cause where it has none. -/
def State.ownFault (s : State) : Nat × Cause :=
  s.jobParts.foldl (fun a p => match (s.part p).cause with
    | none => a
    | some c => higher a (kindCode c.kind, causeOf (some c))) (2, {})

/-- The highest fault of the subtree. -/
def State.subtreeFault (s : State) : Nat × Cause :=
  s.job.settledFrom.foldl (fun a r => if r.2.2.2.code = 0 then a
    else if a.2.code = 0 then (r.2.2.1, r.2.2.2) else higher a (r.2.2.1, r.2.2.2)) s.ownFault

/-- ACTION of RUN_STOPPED for a cause that stops a job's run (R224). A stall that is repeated, and at REPLAY_LIMIT, carries 2.
[DESIGN CHOICE, log entry 145] -/
def stopOf (kind : Nat) (c : Cause) (repeated full : Bool) : Nat :=
  match kindOf kind with
  | .stop => if c.code = 0x060B then 8 else if c.code = 0x060A then 10 else 6
  | .program => if c.code = 0x0705 then 4 else if c.code = 0x070A then 9 else if c.code = 0x0715 then 5 else 1
  | .stall => if full && !repeated then 3 else 2
  | .hardware => if full then 3 else if c.code = 0x0607 || c.code = 0x0609 then 7 else if c.code = 0x0715 then 5 else 3

/-- A stall of the job is one seen before in this tide (R148): on this device at the same bundle, on another with the same CAUSE. -/
def State.stallAgain (s : State) (c : Cause) : Bool :=
  (s.jobParts.any fun p => (s.stalls (s.part p)).any fun k => (s.part p).stallSeen.contains k)
    || (decide (c.rank ≠ s.job.rank) && s.job.stallCause = some c)

/-- Key of a device's tile in `Job.canaries`. -/
def causeKey (c : Cause) : Nat := c.rank * 2 ^ 32 + c.unit

/-- The job's abandon does not count toward REPLAY_LIMIT (R482): its CAUSE and every cause of this device are canary mismatches,
at most twice for a tile in a tide. [DEDUCED, log entry 146] -/
def State.jobFree (s : State) (kind : Nat) (c : Cause) : Bool :=
  kindOf kind = .hardware && c.code = 0x0701 && decide (tget 0 s.job.canaries (causeKey c) < 2)
    && s.jobParts.all fun p => (s.part p).causes.all fun k => k.code = 0x0701

/-- The abandon of this kind and cause would need one replay more than REPLAY_LIMIT (R221). -/
def State.jobFull (s : State) (kind : Nat) (c : Cause) : Bool :=
  match s.jobParts with
  | [] => false
  | p :: _ => decide ((s.part p).replays - s.job.freeAbandons ≥ (s.params p).replayLimit) && !(s.jobFree kind c)

/-- What the job keeps of an abandon's outcome: the CAUSE of a stall, and that the abandon does not count. -/
def State.noteAction (s : State) (kind : Nat) (c : Cause) : State :=
  let free := s.jobFree kind c
  { s with job := { s.job with
    stallCause := if kindOf kind = .stall then some c else s.job.stallCause
    freeAbandons := s.job.freeAbandons + b01 free
    canaries := if free then tset s.job.canaries (causeKey c) (tget 0 s.job.canaries (causeKey c) + 1) else s.job.canaries } }

/-- A fault of stop kind that came after this device had settled stands: it stops the replay, or the recovery (R216, R441). -/
def State.keepStop (s : State) (p : Nat) (own : Option FaultCause) : State :=
  match own with
  | none => s
  | some c => s.modPart p fun q => { q with cause := some c, causes := [c], faultBell := true }

/-- An ACTION acts on every partition of the job (R216, R339). -/
def State.applyAction (s : State) (act kind : Nat) (c : Cause) : State :=
  let stop := stopOf kind c (s.stallAgain c) (s.jobFull kind c)
  each s.jobParts (fun p st =>
    let own := (st.part p).cause.filter fun k => act ≠ 2 && k.kind = .stop
    let st := st.modPart p fun q => { q with
      cause := some { kind := kindOf kind, code := c.code, unit := c.unit, act := stop, rank := c.rank } }
    match (st.part p).st with
    | .abandoning => (st.actOnAbandon p act stop).keepStop p own
    | .recovering => if act = 2 then st.toLoaded p stop (causeField (st.part p).cause (st.part p).replays) (st.part p).tide else st
    | _ => st) (s.noteAction kind c)

/-- The root chooses ACTION (R216, R221, R339). -/
def State.chooseAction (s : State) : Nat × Nat × Cause :=
  let f := s.subtreeFault
  let full := s.jobFull f.1 f.2
  let act := match kindOf f.1 with
    | .stop => 2
    | .program => 2
    | .stall => if s.stallAgain f.2 || full then 2 else 0
    | .hardware => if full then 2 else 1
  (act, f.1, f.2)

/-- Devices in this device's subtree, by the records of its children. -/
def countOf (l : List Nat) : Nat := 1 + l.foldl (· + ·) 0

/-- Children the tree still reaches (R352). -/
def State.liveChildren (s : State) : List Nat := s.job.childPorts.filter fun q => (s.hport q).up

/-- SETTLED goes up once this device and every child have settled; the root then sends ACTION (R339). [DESIGN CHOICE, log entry 55] -/
def State.maybeSettled (s : State) : State :=
  let kids := s.liveChildren.length
  if !s.job.formed || s.job.selfSettled || decide (s.job.settledFrom.length < kids)
      || !(s.jobParts.all fun p => (s.part p).settled) then s
  else
    let f := s.subtreeFault
    let n := countOf (s.job.settledFrom.map fun r => r.2.1)
    let s : State := { s with job := { s.job with selfSettled := true } }
    if s.isRoot then
      let a := s.chooseAction
      (s.sendDown (.action s.jobTide a.1 a.2.1 a.2.2)).applyAction a.1 a.2.1 a.2.2
    else s.sendUp (.settled s.jobTide n f.1 f.2)

/-- RECOVERED goes up once this device and every child have recovered (R339). -/
def State.maybeRecovered (s : State) : State :=
  if !s.job.formed || s.job.selfRecovered || decide (s.job.recoveredFrom.length < s.liveChildren.length)
      || !(s.jobParts.all fun p => (s.part p).recovered) then s
  else
    let n := countOf (s.job.recoveredFrom.map fun r => r.2)
    let s : State := { s with job := { s.job with selfRecovered := true } }
    if s.isRoot then s else s.sendUp (.recovered s.jobTide n)

/-! The start of a run (R216, R227, R235, R408) -/

/-- A stripe of the partition is withdrawn: its logical number (R472). -/
def State.withdrawnIn (s : State) (p : Nat) : Option Nat :=
  ((List.range (s.part p).stripeCount).map ((s.part p).firstStripe + ·)).find? fun k => s.withdrawn.getLsbD (k + s.sigma0)

/-- Partitions of a job carry equal NOMINAL_CC, MARK_NOMINAL_CC, MARK_INTERVAL and REPLAY_LIMIT (R235). -/
def State.sameParams (s : State) (p : Nat) : Bool :=
  s.jobParts.all fun q => (s.params q).nominalCc = (s.params p).nominalCc && (s.params q).markNominalCc = (s.params p).markNominalCc
    && (s.params q).markInterval = (s.params p).markInterval && (s.params q).replayLimit = (s.params p).replayLimit

/-- Why a RUN_START or RUN_SINGLE that acts on a LOADED partition is refused: status and DETAIL (R235, R351, R408, R441, R472). [DEDUCED, log entry 109] -/
def State.runRefusal (s : State) (p : Nat) (setTide : Bool) : Option (Nat × Nat) :=
  let q := s.part p
  if setTide && (q.ranSinceLoad || s.job.formed) then some (stField, 0)
  else if s.job.formed && !(s.sameParams p) then some (stField, 0)
  else if !q.weightsLoaded || q.weightDigest ≠ (s.params p).weightDigest then some (stDenied, 0)
  else if s.job.formed && (decide (s.job.joined < (s.params p).jobDevices) || s.job.left || s.job.broken || !s.job.away.isEmpty)
    then some (stDenied, 0)
  else if s.power.clockFailed || s.boot.poweredOff then some (stDenied, 0)
  else match s.withdrawnIn p with
    | some k => some (stHw, k)
    | none => none

/-- Copy a tile's declared ranges to mark slot `n`, one after another, as its words read with their checks (R159, R160, R227,
R254). -/
def State.writeMark (s : State) (t : TileId) (n : Nat) : State :=
  ((s.tile t).persistRanges.foldl (fun (acc : State × Nat) w =>
    let r := acc.1.readLocal t w.1 w.2 0 6
    ({ r.1 with hbm := memPut r.1.hbm acc.2 r.2.1 }, acc.2 + w.2)) (s, s.markAddr t n)).1

/-- The run starts (R216, R227): every persistent range goes to mark slot 0, which is current; the first tide starts at once,
or at the next drumbeat in a job, whose tides have numbers of their own (R212). [DESIGN CHOICE, log entry 59] -/
def State.startRun (s : State) (p n : Nat) (single : Bool) (first : Option Nat) : State :=
  let s := each (s.tilesOf p) (fun t st => st.writeMark t 0) s
  let s : State := if s.job.formed && s.jobParts.isEmpty then
      { s with job := { s.job with stallCause := none, freeAbandons := 0, canaries := [], stepSet := false } }
    else s
  let s := s.modPart p fun q => { q with
    st := .open_, awaiting := true, markSlot := some 0, tide := if s.job.formed then s.job.count else first.getD q.tide, inJob := s.job.formed, replaying := false
    kernels := (List.range s.flash.basePackKernels).map KernelSrc.base ++ s.flash.packs.flatMap fun k => k.kernels.map KernelSrc.pack
    replays := 0, stopPending := false, single := if single then some n else none
    startMbx := if single then none else some n, enableHeld := none, heldSingle := false
    plans := q.plans.map fun e => (e.1, ({} : PlanState)) }
  if s.job.formed then s
  else
    let m := (s.part p).startMbx
    ((s.startTide p false).modPart p fun q => { q with startMbx := none }).okHeld m []

/-- A start of the job that waits for its first drumbeat ends with BAD_FIELD: its partitions' tide parameters differ (R235). -/
def State.dropStart (s : State) (p : Nat) : State :=
  let q := s.part p
  if q.inJob && q.st = .open_ && q.awaiting && !q.replaying then
    let s := s.modPart p fun y => { y with
      st := .loaded, awaiting := false, inJob := false, startMbx := none, single := none, stopPending := false, stopMbx := none }
    let s := s.okHeld q.stopMbx (leBytes 6 q.tide)
    match q.startMbx.or q.single with
    | none => s
    | some n => s.finish n stField [] [] 0 0xFFFF
  else s

/-- A RUN_START or RUN_SINGLE acts (R222, R235, R382, R408). [DESIGN CHOICE, log entry 148] -/
def State.actRun (s : State) (p n : Nat) (single : Bool) (first : Option Nat) : State :=
  match s.runRefusal p first.isSome with
  | some r =>
    let s := if s.job.formed && !(s.sameParams p) then each s.jobParts (fun k st => st.dropStart k) s else s
    (s.modPart p fun q => { q with enableHeld := none, heldSingle := false }).finish n r.1 [] [] r.2
      (if r.1 = stField ∧ first.isSome then 1 else 0xFFFF)
  | none => (s.cancelRemove (s.mb n).opcode).startRun p n single first

/-- SET_TIDE's first tide number in a RUN_START's parameter block (R407). -/
def State.firstTideOf (s : State) (n : Nat) : Option Nat :=
  if (s.mb n).opcode = 0x0501 ∧ bit (s.param n 1 1) 0 then some (s.param n 2 6) else none

/-- A held RUN_START or RUN_SINGLE acts once the partition is LOADED and no PREPARE_REMOVE runs (R222, R382). -/
def State.actHeld (s : State) (p : Nat) : State :=
  let q := s.part p
  match q.enableHeld with
  | none => s
  | some n => if q.st = .loaded && s.preparing.isNone then s.actRun p n q.heldSingle (s.firstTideOf n) else s

/-! Hikolink port shut-down (R431) -/

/-- Announce resetting on every port that is up (R428): the neighbours absorb what is addressed to this device. -/
def State.announceReset (s : State) : State :=
  each ((List.range 6).filter fun q => (s.hport q).up) (fun q st => st.queueRec q (.member st.jobTide st.job.rank 2)) s

/-- A port's shut-down begins: 64 flit times of announcement, then lanes off. -/
def State.portShutBegin (s : State) (q : Nat) : State :=
  if (s.hport q).up && !(s.hport q).shutting then (s.modHport q fun x => { x with shutting := true }).queueRec q (.member s.jobTide s.job.rank 2) else s

/-- Every partition of the job that ran in it has stopped: a JOB_LEAVE completes, and the job's ports shut down (R351,
R431). -/
def State.leaveIfStopped (s : State) : State :=
  match s.job.leaveMbx with
  | none => s
  | some n =>
    if s.jobParts.isEmpty then
      let s := s.ownClock
      let s : State := { s with job := { s.job with leaveMbx := none, left := true } }
      (each s.job.ports (fun q st => st.portShutBegin q) s).okWith n []
    else s

/-- Partitions that run. -/
def State.runningParts (s : State) : List Nat := (s.parts.filter fun p => running p.2.st).map fun p => p.1

/-- A tide boundary: a FREQ_STEP_SET is applied, and completes (R396, R409). -/
def State.freqApplied (s : State) : State :=
  match s.freqWait with
  | none => s
  | some n => State.okWith { s with freqWait := none } n []

/-- What waited for a run to end goes on: held starts, a JOB_LEAVE, a FREQ_STEP_SET once nothing runs. -/
def State.goOn (s : State) : State :=
  let s := if s.runningParts.isEmpty then s.freqApplied else s
  (each (List.range 8) (fun p st => st.actHeld p) s).leaveIfStopped

/-- A stop is asked for in the job (R340): the request goes up the tree to the root. -/
def State.askStop (s : State) : State :=
  if s.job.stopWanted then s
  else
    let s : State := { s with job := { s.job with stopWanted := true } }
    if s.isRoot then s else s.sendUp (.stopRequest s.jobTide false)

/-- A partition is to stop at its next stop point (R222). -/
def State.requestStop (s : State) (p : Nat) : State :=
  if !running (s.part p).st then s
  else
    let s := s.modPart p fun q => { q with stopPending := true }
    if (s.part p).inJob then s.askStop else s

end Sys2Proof.Machine
end

