-- ==== Sys2Proof/Machine/PowerOps.lean ====
section
/-!
DEFINITION. Tile-clock steps, voltages and caps (spec/16_clocks_power_heat.md R444 to R453, R459, R460), and the switching
of cluster power and Hikolink ports with their held enables (R431, R432, R455).
-/

namespace Sys2Proof.Machine

/-- Phases lost for good (R459). -/
def State.lostPhases (s : State) : Nat := s.flash.phasesLost.length

/-- EFFECTIVE_W (R459). -/
def State.effectiveW (s : State) : Nat := min s.power.capW (18000 * (384 - s.lostPhases) / 384)

/-- V(c, n) in mV (R450). -/
def State.voltage (s : State) (c n : Nat) : Nat :=
  600 + 5 * tget 0 s.fuses.vminTrim (c * 8 + n) + 75 + tget 0 (s.cluster c).offsets n

/-- The voltage a cluster holds in mV (R446, R447, R455): that of the running step, or of the faster one its regulator has settled at;
0 without power. -/
def State.heldMv (s : State) (c : Nat) : Nat :=
  if (s.cluster c).power then max (s.voltage c s.power.step) ((s.power.rising.map (s.voltage c)).getD 0) else 0

/-- The clocks derived from the root (R439). -/
inductive Clock where
  | root
  | hbmPhy
  | tile
  | hbmController
  | base
  | management
  | serdes
  deriving DecidableEq, Repr

/-- A clock's frequency in kHz at a tile-clock step: the reference of 100 MHz, times 72 and divided (R439, R443, R444). -/
def Clock.khz (c : Clock) (step : Nat) : Nat :=
  let root := 100000 * 72
  match c with
  | .root => root
  | .hbmPhy => root / 3
  | .tile => root * stepN step / 48
  | .hbmController => root / 6
  | .base => root / 8
  | .management => root / 12
  | .serdes => root / 36

/-- Phases of a vertical module that are active: of those not lost, as many as the staging asks for (R458, R459). -/
def State.phasesOn (s : State) (m : Nat) : Nat :=
  if s.power.modulesOff.contains m then 0
  else min s.power.activePhases (16 - (s.flash.phasesLost.filter fun f => f / 16 = m).length)

/-- The fastest step that is available (R453); step 7 where none is. -/
def State.fastest (s : State) : Nat := ((List.range 8).find? fun n => !(s.flash.stepsUnavailable.getLsbD n)).getD 7

/-- The step held after a thermal trip, while it is held (R445, R463). -/
def State.thermalHold (s : State) : Nat :=
  if s.power.thermalUntil > s.now || (List.range 288).any (fun c => (s.cluster c).tripped) then s.power.thermalStep else 0

/-- The device's own step with the CAUSE of STEP_CHANGED (R445, R467): the largest-numbered of its four terms. -/
def State.ownStep (s : State) : Nat × Nat :=
  [(s.power.capStep, 1), (s.fastest, 2), (s.thermalHold, 3)].foldl (fun a b => if a.1 < b.1 then b else a) (s.power.minStep, 0)

/-- The step the device asks for (R446): a faster one only once every cluster regulator has settled at its voltage. -/
def State.stepRequest (s : State) : Nat :=
  let own := s.ownStep.1
  if own ≥ s.power.step || s.power.rising = some own then own else s.power.step

/-- The step the next switch goes to: in a job's run that of its last drumbeat, which an abandon does not take back, else the device's own
(R445, R449). -/
def State.stepWanted (s : State) : Nat :=
  if s.job.formed && !s.jobParts.isEmpty then (if s.job.stepSet then s.job.nextStep else s.power.step) else s.stepRequest

/-- A job's run waits for its first drumbeat, or for the start that it gives. -/
def Partition.firstWait (q : Partition) : Bool := q.st = .open_ && q.awaiting && !q.replaying

/-- A running partition is between two tides: in its boundary gap, before the first tide of its run, or in the abandon of a tide that has
not started or before that tide's replay (R216, R447, R449). -/
def Partition.inGap (q : Partition) : Bool :=
  q.st = .boundary || q.firstWait
    || ((q.st = .abandoning || q.st = .recovering || (q.st = .open_ && q.awaiting)) && decide (q.startT ≤ q.commitT))

/-- A step change is due: the starts that follow a boundary gap wait for the switch (R447, R448). -/
def State.stepDue (s : State) : Bool := decide (s.stepWanted ≠ s.power.step)

/-- The input voltage: one outside 44 to 58 V ends the validity of retained state (R419). -/
def State.inputAt (s : State) (mv : Nat) : State :=
  { s with power := { s.power with vinMv := mv }
           boot := { s.boot with powerSteady := s.boot.powerSteady && decide (44000 ≤ mv) && decide (mv ≤ 58000) } }

/-! Cluster power (R455, R431, R432) -/

/-- Clusters in their staged switching. -/
def State.switchingCount (s : State) : Nat := ((List.range 288).filter fun c => (s.cluster c).switching).length

/-- UNIT_ENABLE_HELD (R432): an enable waits for the unit's shut-down. -/
def State.enableHeldEvent (s : State) (unit opcode : Nat) : State := s.raiseDev 0x0107 1 unit (opcode * 2 ^ 48)

/-- A tile whose power goes: it issues nothing and holds nothing. -/
def darkTile (x : Tile) : Tile := { tileResetOf x with inReset := x.inReset }

/-- Waiting power-ups begin, in ascending cluster index, while fewer than 8 clusters switch (R455). -/
def State.fillSlots (s : State) : State :=
  each (List.range 288) (fun c st =>
    let k := st.cluster c
    if k.powerUpHeld && !k.switching && decide (st.switchingCount < 8) then
      st.modCluster c fun k => { k with powerUpHeld := false, switching := true, rising := true }
    else st) s

/-- A cluster's header switches begin to open (R455): its tiles stop and absorb, and what they held is lost. A held power-up is
cancelled (R432), and a SCAN_RUN with it. -/
def State.openSwitches (s : State) (c : Nat) : State :=
  let k := s.cluster c
  let s := each (s.tilesOfCluster c) (fun t st => (st.modTile t darkTile).signalAbsorb t) s
  let s := s.modCluster c fun k => { k with power := false, switching := k.power || k.switching, rising := false
                                            powerUpHeld := false, heldMbx := none }
  match k.heldMbx with
  | none => s
  | some n => State.failWith { s with scan := s.scan.filter fun w => w.mbx ≠ n } n stBusy 0

/-- A cluster is to lose its power: at once, or when the power-up that runs has ended (R433). -/
def State.powerDownBegin (s : State) (c : Nat) : State :=
  if (s.cluster c).rising then s.modCluster c fun k => { k with downHeld := true } else s.openSwitches c

/-- A cluster's power-up is asked for: it begins as soon as a place is free, or is held while the cluster's own power-down
runs (R431, R455). -/
def State.powerUpBegin (s : State) (c opcode : Nat) (mbx : Option Nat) : State :=
  let k := s.cluster c
  if k.power || k.rising || k.powerUpHeld then s
  else
    let s := s.modCluster c fun k => { k with powerUpHeld := true, heldOpcode := opcode, heldMbx := mbx }
    if k.switching then s.enableHeldEvent (unitId 1 c) opcode else s.fillSlots

end Sys2Proof.Machine
end

