-- ==== Sys2Proof/Machine/TideEv.lean ====
section
/-!
DEFINITION. Events of the tide state machine (spec/08_tides.md R213 to R222, spec/07_mesh_bells.md R204): the start of a tide,
the tide-complete and fault bells, commit, abandon, recovery and stop points. A command whose condition does not hold
changes nothing: the instants at which these happen are the sender's.
-/

namespace Sys2Proof.Machine

/-- The drumbeat of the partition's tide has been acted on and its START has come (R340). -/
def State.beatDue (s : State) (p : Nat) : Bool :=
  s.job.beat && decide (s.job.tide = (s.part p).tide) && decide (s.job.nextStart ≤ s.now)

/-- A due step change keeps the start that follows a boundary gap waiting, a run's first start in a job, and the replay of a tide
abandoned in the gap (R445, R447 to R449). [DEDUCED, log entry 119] -/
def State.startHeld (s : State) (p : Nat) : Bool := (s.part p).inGap && s.stepDue

/-- TIDE_START (R213, R216): at S_T+1 after a boundary gap, or for the first tide of a run or a replay; in a job at the
drumbeat's START. Tables not yet written are waited for (R297). [DESIGN CHOICE, log entry 141] A fault or a stop that waits takes the start's place. -/
def execTideStart (p : Nat) (s : State) : Res :=
  let q := s.part p
  let ready := q.cause.isNone && (!q.inJob || s.beatDue p) && !s.startHeld p
  let stop := if q.inJob then s.job.nextStop else q.stopPending
  if q.st = .boundary then
    if ready && !stop && !q.tablesDue && (q.inJob || (q.single.isNone && decide (q.nextStartT ≤ s.time))) then .next (s.startTide p false).freqApplied
    else .next s
  else if q.st = .open_ && q.awaiting && ready && !(q.replaying && (stop || q.tablesDue || s.tablesFlying p)) then
    .next (((s.startTide p q.replaying).modPart p fun y => { y with startMbx := none }).okHeld q.startMbx [])
  else .next s

/-- PARTITION_TIDE_COMPLETE (R199, R204, R216): every enabled tile of the partition has rung. -/
def execPartitionTideComplete (p : Nat) (s : State) : Res :=
  let q := s.part p
  if q.st = .open_ && !q.awaiting && (s.tilesOf p).all (fun t => (s.tile t).rung) then
    .next (s.modPart p fun y => { y with st := .closing, bellReady := true })
  else .next s

/-- FAULT_BELL (R204): every tile and unit of the partition stops issuing. -/
def execFaultBell (p : Nat) (s : State) : Res :=
  if (s.part p).faultBell then
    .next ((each (s.tilesOf p) (fun t st => st.modTile t fun x => { x with issuing := false, held := [] }) s).modPart p fun q =>
      { q with faultBell := false, halted := true })
  else .next s

/-- TIDE_COMMIT (R29, R30, R217): outside a job, once the bell has rung and the results are in, and no fault was stamped. -/
def execTideCommit (p : Nat) (s : State) : Res :=
  let q := s.part p
  if q.st = .closing && q.bellReady && q.resultsIn && q.cause.isNone && !q.inJob then .next (s.commitTide p s.time) else .next s

/-- ABANDON (R30, R216, R218, R336, R338): a stamped fault abandons the tide, or the next one in a boundary gap. In a job, a fault
of a device that has sent DONE, and one of the root once its CONFIRM has fixed the commit point, belong to the next tide. -/
def execAbandon (p : Nat) (s : State) : Res :=
  let q := s.part p
  let phase := q.st = .open_ || q.st = .closing || q.st = .boundary
  let later := q.inJob && q.st = .closing && (if s.isRoot then s.job.confirmAt.isSome else s.job.doneSent)
  if phase && q.cause.isSome && !later then
    let s := s.reportFault p
    .next (if (s.part p).st = .abandoning then s else s.beginAbandon p)
  else .next s

/-- ABANDON_SETTLED (R216, R218, R328, R339): every write of the partition has landed or been absorbed; then its endpoints are
cleared, and once those writes have landed too it settles. Outside a job the outcome follows; in a job SETTLED goes up the tree. [DESIGN CHOICE, log entry 57] -/
def execAbandonSettled (p : Nat) (s : State) : Res :=
  let q := s.part p
  if q.st ≠ .abandoning || q.settled || s.writesFlying p then .next s
  else if !q.cleared && s.hasEndpoints p then .next (s.clearEndpoints p)
  else
    let s := (s.dropFlits.dropInMesh p).modPart p fun y => { y with settled := true }
    if q.inJob && !s.job.cut then .next s.maybeSettled.goOn
    else
      let v := s.verdictOf p
      .next (s.actOnAbandon p v.1 v.2).goOn

/-- A recovery that cannot complete (R216, R472): RUN_STOPPED; in a job FAULT goes up, or the root sends ACTION 2. -/
def State.failRecovery (s : State) (p action : Nat) (c : FaultCause) : State :=
  let s := s.modPart p fun q => { q with cause := some { c with act := action, rank := s.job.rank } }
  let k := causeOf (s.part p).cause
  if !(s.part p).inJob || s.job.cut then s.toLoaded p action (causeField (s.part p).cause (s.part p).replays) (s.part p).tide
  else if s.isRoot then (s.sendDown (.action s.jobTide 2 (kindCode c.kind) k)).applyAction 2 (kindCode c.kind) k
  else s.sendUp (.fault s.jobTide (kindCode c.kind) k)

/-- RECOVERY (R220, R259, R469, R472): named tiles and failing rows are repaired; where it cannot complete the run stops. -/
def execRecovery (p : Nat) (s : State) : Res :=
  if (s.part p).st ≠ .recovering then .next s
  else
    let s := if (s.part p).repairLeft then s.repairAll p else s
    match s.recoveryStop p with
    | some r => .next (s.failRecovery p r.1 r.2).goOn
    | none => .next (s.modPart p fun q => { q with cause := none })

/-- RECOVERY_COMPLETE (R220): nothing is left to repair, no reset runs, no unit is tripped. Outside a job the replay waits to
start; in a job RECOVERED goes up the tree. -/
def execRecoveryComplete (p : Nat) (s : State) : Res :=
  let q := s.part p
  if q.st ≠ .recovering || q.repairLeft || q.cause.isSome || (s.recoveryStop p).isSome || s.resetsLeft p || s.tripLeft p
      || q.recovered then .next s
  else if q.inJob then .next (s.modPart p fun y => { y.closeCauses with recovered := true }).maybeRecovered
  else .next (s.awaitReplay p)

/-- A stop takes the place of the next tide's start: at the end of a boundary gap, or of a replay (R222, R340). [DESIGN CHOICE, log entry 58] -/
def State.atStopPoint (s : State) (p : Nat) : Bool :=
  let q := s.part p
  let gap := q.st = .boundary && q.cause.isNone
  let replay := q.st = .open_ && q.awaiting && q.replaying
  if q.inJob then (gap || replay) && s.job.nextStop && s.beatDue p
  else (gap && decide (q.nextStartT ≤ s.time) && (q.stopPending || q.single.isSome)) || (replay && q.stopPending)

/-- STOP_POINT (R222): the partition enters LOADED by command. -/
def execStopPoint (p : Nat) (s : State) : Res :=
  let q := s.part p
  if s.atStopPoint p then
    let gap := q.st = .boundary
    .next (s.toLoaded p 0 (causeField none (if gap then q.lastReplays else q.replays - 1)) (if gap then q.lastCommitted else q.tide)).goOn
  else .next s

end Sys2Proof.Machine
end

