-- ==== Sys2Proof/Machine/FabricEv.lean ====
section
/-!
DEFINITION. Events of the Hikolink fabric (spec/12_hikolink_jobs.md R315 to R328, R334, R335, R341 to R347): flits in and out,
channels and their endpoints, collectives.
-/

namespace Sys2Proof.Machine

/-! Messages of the tree -/

/-- Words of tree data that are whole act here and travel on: from below up to the root, from the root down (R341, R342). Each device
checks the pages of the admitted streams in its own page map (R296). -/
def State.treeMessage (s : State) (ch : Nat) (ws : List Word) (fromParent : Bool) : State :=
  let s := if fromParent then s.treeDown ch ws
    else if s.isRoot then (if ch = 0xFFF1 then s else s.treeDown ch ws)
    else s.treeUp ch ws
  if !(fromParent || s.isRoot) then s
  else if ch = 0xFFF1 then (if s.streamRoot then s else { s with job := { s.job with outcome := ws.map fun w => entryOfWord w [] } })
  else if s.streamRoot then s
  else if ch = 0xFFF2 then
    match ws with
    | [] => s
    | n :: d => s.modStream n.toNat fun x => x.copyOf (d.flatMap fun w => leBytes 4 w.toNat)
  else
    match ws with
    | p :: lo :: hi :: r =>
      let tide := lo.toNat + 2 ^ 32 * hi.toNat
      let l := s.checkAppends (admitsOfWords r.length r)
      (s.modPart p.toNat fun q => { q with nextAdmitted := l, admitTide := some tide }).writeTables p.toNat tide l
    | _ => s

/-- A verdict set that is whole is kept at rank 0 (R341). -/
def State.takeVerdictSet (s : State) (src : Nat) (ws : List Word) : State :=
  { s with job := { s.job with verdictSets := s.job.verdictSets ++ [(src, entriesOfWords ws.length ws)] } }

/-- Add a flit's words to its message; the last flit completes it. -/
def State.gather (s : State) (f : HFlit) (done : List Word → State → State) : State :=
  let k := f.channel * 1024 + f.src
  let ws := tget [] s.job.rx k ++ f.words
  if f.ends then done ws { s with job := { s.job with rx := tdel s.job.rx k } }
  else { s with job := { s.job with rx := tset s.job.rx k ws } }

/-! HIKOLINK_FLIT_RECEIVE -/

/-- A DATA or POISON flit to be forwarded (R322, R323). -/
def State.holdForward (s : State) (q : Nat) (f : HFlit) : State :=
  if !(s.forwards q f.channel) then s.overrun q f.channel 3
  else if (s.hport q).forward.length ≥ 512 then s.overrun q f.channel 0
  else s.modHport q fun x => { x with forward := x.forward ++ [(s.time, f)] }

/-- The partition whose plan a collective channel is: the first one with that plan in its image. [DESIGN CHOICE, log entry 52] -/
def State.planPart (s : State) (ch : Nat) : Option Nat :=
  if ch < 0xFF00 ∨ 0xFF3F < ch then none
  else (s.parts.find? fun p => (p.2.image.map fun b => b.plans.any fun c => c.plan = ch - 0xFF00).getD false).map fun p => p.1

/-- A flit comes into a plan's staging. -/
def Partition.planFlit (q : Partition) (plan : Nat) (f : HFlit) : Partition :=
  let v := tget {} q.plans plan
  { q with plans := tset q.plans plan { v with rx := v.rx ++ [f] } }

/-- A DATA flit for this device (R322, R323, R343): a verdict set, a plan's staging, or receive staging. -/
def State.holdReceived (s : State) (q : Nat) (f : HFlit) : State :=
  if f.channel = 0xFFE0 then s.gather f fun ws st => st.takeVerdictSet f.src ws
  else if let some p := s.planPart f.channel then
    s.modPart p fun y => y.planFlit (f.channel - 0xFF00) f
  else if (s.hport q).received.length ≥ 1024 then s.overrun q f.channel 2
  else s.modHport q fun x => { x with received := x.received ++ [f] }

/-- Copy `c` of a stop request from below (R334, R340): the first good copy acts, and the root takes it, others pass it up. One for the
end of a tide that is abandoned meanwhile asks for nothing: its member asks again (R222). [DESIGN CHOICE, log entry 147] -/
def State.takeStop (s : State) (q c : Nat) (ends : Bool) : State :=
  let x := s.hport q
  let first := (x.rxSeq + 2 ^ 48 - 16 * c) % 2 ^ 48
  if !s.job.formed || x.stopSeq = some first then s
  else
    let s := s.modHport q fun y => { y with stopSeq := some first }
    if !s.isRoot then s.sendUp (.stopRequest s.jobTide ends)
    else if !ends then { s with job := { s.job with stopWanted := true } }
    else if s.job.abandoned then s else { s with job := { s.job with endWanted := true } }

/-- A flit that is good (R319, R322, R334, R335). -/
def State.goodFlit (s : State) (q : Nat) (f : HFlit) : State :=
  match f.type with
  | 1 => if f.dst = s.job.rank then s.holdReceived q f else s.holdForward q f
  | 4 => if s.forwards q f.channel then s.holdForward q f else s.flitLost q f 1
  | 2 =>
    let s : State := if s.job.parentPort = some q then { s with job := { s.job with lastControl := s.now } } else s
    each f.recs (fun r st => match r.2 with
      | .stopRequest _ ends => st.takeStop q r.1 ends
      | _ => st) s
  | 3 =>
    let fromParent := s.job.parentPort = some q
    s.gather f fun ws st => st.treeMessage f.channel ws fromParent
  | _ => s

/-- What a flit of a reserved type stands for, by its channel (R317, R319, R321). [DESIGN CHOICE, log entry 136] -/
def State.slotType (s : State) (q : Nat) (f : HFlit) : Nat :=
  if f.type < 6 then f.type
  else if f.channel ≥ 0xFFF0 then 3
  else if s.forwards q f.channel || (s.channel f.channel false).isSome || decide (0xFF00 ≤ f.channel) then 1
  else 0

/-- A flit that is bad, by the type its slot gives it (R319). [DEDUCED, log entry 51] -/
def State.badFlit (s : State) (q : Nat) (f : HFlit) : State :=
  match s.slotType q f with
  | 1 =>
    if s.forwards q f.channel then s.holdForward q { type := 4, channel := f.channel } else s.flitLost q f 0
  | 4 => if s.forwards q f.channel then s.holdForward q { type := 4, channel := f.channel } else s.flitLost q f 1
  | 3 => s.flitLost q f 2
  | _ => s

/-- HIKOLINK_FLIT_RECEIVE (R318, R319). The header fields of a bad flit stand for what the slot gives. -/
def execHikolinkFlitReceive (port : Nat) (f : HFlit) (fecBad : Bool) (fecCorrected : Nat) (s : State) : Res :=
  let x := s.hport port
  if !x.up then .next s
  else
    let bad := fecBad || decide (f.crc ≠ flitCrc f x.rxSeq x.farRank x.farPort) || decide (f.type ≥ 6)
    let s := s.modHport port fun y => { y with
      rxSeq := (y.rxSeq + 1) % 2 ^ 48, fecCorrected := y.fecCorrected + fecCorrected
      badRun := if bad then y.badRun + 1 else 0
      badCopies := if s.slotType port f ≠ 2 then y.badCopies else if bad then y.badCopies + 1 else 0
      badTide := y.badTide + b01 bad, badTotal := y.badTotal + b01 bad }
    if !bad then .next (s.goodFlit port f)
    else
      let s := s.badFlit port f
      .next (if x.badRun + 1 = 16 then s.linkDown port 0 else s)

/-- LOSS_OF_SIGNAL (R319). -/
def execLossOfSignal (port : Nat) (s : State) : Res :=
  if (s.hport port).up then .next (s.linkDown port 1) else .next s

/-! SLOT_SEND -/

/-- The earliest time a flit that came in at `a` may leave: 108 mc later (R322). -/
def forwardReady (now a : Nat) : Bool := decide (a + 108 * 4620 ≤ now)

/-- The flit a port sends when it has nothing to send (R316, R317). -/
def State.idleFlit (s : State) (q : Nat) : HFlit := { type := 0, src := s.job.rank, dst := (s.hport q).farRank }

/-- The flit of a data slot, and the state without it (R321). -/
def State.dataSlot (s : State) (v : Nat) (q : Nat) : State × HFlit :=
  match slotKind v with
  | 1 =>
    match takeFirst (fun (f : HFlit) => f.channel = slotChan v) (s.hport q).staged with
    | none => (s, s.idleFlit q)
    | some r => (s.modHport q fun x => { x with staged := r.2 }, r.1)
  | 2 =>
    let i := slotIn v
    match takeFirst (fun (f : Nat × HFlit) => f.2.channel = slotChan v) (s.hport i).forward with
    | none => (s, s.idleFlit q)
    | some r => if forwardReady s.time r.1.1 then (s.modHport i fun x => { x with forward := r.2 }, r.1.2) else (s, s.idleFlit q)
  | _ => (s, s.idleFlit q)

/-- The flit of a control slot (R321, R335). -/
def State.controlSlot (s : State) (q : Nat) : State × HFlit :=
  match (s.hport q).urgent with
  | f :: r => (s.modHport q fun x => { x with urgent := r }, f)
  | [] =>
    match (s.hport q).bulk with
    | f :: r => (s.modHport q fun x => { x with bulk := r }, f)
    | [] => (s, { type := 2, src := s.job.rank, dst := (s.hport q).farRank })

/-- A flit as it goes on the wire: tide, sequence number, CRC (R316, R318). -/
def State.wired (s : State) (q : Nat) (f : HFlit) : HFlit :=
  let f : HFlit := { f with tideLo := if f.type = 4 then 0 else s.job.slotTide % 256 }
  { f with crc := flitCrc f (s.hport q).txSeq s.job.rank q }

/-- Put a flit on the wire. Toward a neighbour that absorbs, it is absorbed and counted here, and IDLE goes in its place
(R317, R351, R352); a port that is down sends nothing. -/
def State.emit (s : State) (q : Nat) (f : HFlit) : State :=
  let s := if f.channel = 0xFFE0 && f.ends && decide (f.src = s.job.rank) then { s with job := { s.job with setSent := true } } else s
  let eaten := (s.hport q).absorbing && decide (f.type ≠ 0)
  let w := s.wired q (if eaten then s.idleFlit q else f)
  if !(s.hport q).up && (s.hport q).absorbing then s.modHport q fun y => { y with absorbed := y.absorbed + b01 eaten }
  else s.modHport q fun y => { y with absorbed := y.absorbed + b01 eaten, sent := y.sent ++ [w], txSeq := (y.txSeq + 1) % 2 ^ 48 }

/-- This device's identity beacon (R65, R348, R350), `placed` with its coordinates. -/
def State.ownBeacon (s : State) (placed : Bool) : Beacon :=
  { serial := s.fuses.serial, variant := s.fuses.deviceId, arithEpoch := 1, fabMin := 1, fabMax := 1, linkLayer := 1
    fwVersion := s.flash.running.version, jobId := s.job.id, placed := placed
    i := if placed then s.job.i else 0, j := if placed then s.job.j else 0, k := if placed then s.job.k else 0 }

/-- The device's beacon with coordinates is due (R348, R351). -/
def State.placedDue (s : State) (q : Nat) : Bool := !(s.hport q).named && (decide (s.job.formingStep ≥ 4) || (s.job.formed && (s.hport q).up))

/-- The device's beacon is due on a port: the link has trained for a job that forms, first without and then with coordinates, or it
has trained again with a neighbour that rejoins (R348, R351). [DEDUCED, log entry 61] -/
def State.beaconDue (s : State) (q : Nat) : Bool :=
  let x := s.hport q
  s.job.needsPort q && !x.shutting && (s.placedDue q || (!x.greeted && decide (s.job.formingStep ≥ 2)))

/-- The first beacon on a port precedes the one with coordinates. -/
def State.placedNext (s : State) (q : Nat) : Bool := (s.hport q).greeted && s.placedDue q

/-- The BEACON flit (R316, R317): SRC and DST are 0 before coordinates are assigned. -/
def State.beaconFlit (s : State) (q : Nat) (placed : Bool) : HFlit :=
  { type := 5, src := if placed then s.job.rank else 0, dst := if placed then s.job.rankAt (s.job.neighbour q) else 0
    beacon := some (s.ownBeacon placed) }

/-- A committing CONFIRM as it leaves the root: INSTANT is the job time of its first copy (R336). -/
def stampConfirm (t : Nat) (r : Nat × TreeRec) : Nat × TreeRec :=
  match r.2 with
  | .confirm tide _ false c => (r.1, .confirm tide t false c)
  | _ => r

/-- A control slot's flit as it leaves: the first copy of the root's committing CONFIRM fixes the commit point (R336). -/
def State.fixInstant (s : State) (f : HFlit) : State × HFlit :=
  if s.isRoot && f.commits then
    let t := s.job.confirmAt.getD s.now
    ({ s with job := { s.job with confirmAt := some t } }, { f with recs := f.recs.map (stampConfirm t) })
  else (s, f)

/-- SLOT_SEND (R317, R320, R321, R348): one flit time of an output port. -/
def execSlotSend (port : Nat) (s : State) : Res :=
  let x := s.hport port
  if s.beaconDue port then
    let placed := s.placedNext port
    .next ((s.modHport port fun y => { y with greeted := true, named := y.named || placed }).emit port (s.beaconFlit port placed))
  else if !x.up && !x.absorbing then .next s
  else
    let k := x.slot % 4096
    let r := if k % 16 = 0 then s.controlSlot port else s.dataSlot (s.slotEntry port k) port
    let g := r.1.fixInstant r.2
    .next ((g.1.modHport port fun y => { y with slot := y.slot + 1 }).emit port g.2)

/-! Endpoints (R325 to R327) -/

/-- The endpoint engines of a partition act: its tide runs and no fault has stopped it (R204, R328). -/
def Partition.engines (q : Partition) : Bool := (q.st = .open_ || q.st = .closing) && !q.awaiting && !q.halted

/-- The key of a send channel's accesses. -/
def keySend (chan : Nat) : Nat := 2 ^ 20 + chan
/-- The key of a receive channel's accesses. -/
def keyRecv (chan : Nat) : Nat := 2 ^ 21 + chan

/-- Send staging of the channel's port has room for a block (R323, R326). -/
def State.stagingRoom (s : State) (c : Channel) : Bool :=
  decide (((s.hport c.port).staged.filter fun f => f.channel = c.id).length + c.blockFlits ≤ 1024 / max 1 (s.sendChannels c.port))

/-- A block's data as flits in send staging. -/
def State.stageBlock (s : State) (c : Channel) (b : Nat) (d : List Byte) : State :=
  let l : List HFlit := (List.range c.blockFlits).map fun i =>
    { type := 1, last := decide (i + 1 = c.blockFlits), channel := c.id, src := s.job.rank, dst := c.peer, block := b
      index := i, words := wordsOfBytes 60 (d.drop (240 * i)) }
  let s := s.modHport c.port fun x => { x with staged := x.staged ++ l }
  { s with job := { s.job with chanBlocks := tset s.job.chanBlocks c.id (b + 1) } }

/-- What a send endpoint does next (R326): phase 0 reads READY, 1 the block's data, 2 writes DONE. -/
def State.sendNext (s : State) (p : Nat) (c : Channel) : State :=
  let e := chanEndpoint c.port c
  let b := tget 0 s.job.chanBlocks c.id
  let v := blockValue (s.part p).tide b
  match s.unitTake (keySend c.id) with
  | (_, .waiting) => s
  | (_, .idle) => if b ≥ c.blocks then s else s.unitAsk (keySend c.id) 0 p (e.ask 0)
  | (s, .done 0 r) =>
    if leNat r = v.toNat && s.stagingRoom c then s.unitAsk (keySend c.id) 1 p (e.read (240 * c.blockFlits)) else s
  | (s, .done 1 r) => (s.stageBlock c b r).unitAsk (keySend c.id) 2 p (e.put 1 v)
  | (s, .done _ _) => s.notify (blockValue (s.part p).tide (b - 1)) e

/-- ENDPOINT_POLL of a send channel (R325, R326): READY is read; a block that is ready and has room in staging is read and
staged, DONE written, and the notice sent: one of these at a time, as the answers come. -/
def execEndpointPoll (chan : Nat) (s : State) : Res :=
  match s.channel chan true with
  | none => .next s
  | some pc => if (s.part pc.1).engines then .next (s.sendNext pc.1 pc.2) else .next s

/-- Flits of block `b` of a channel received at any port. -/
def State.blockFlits (s : State) (chan b : Nat) : List HFlit :=
  (List.range 6).flatMap fun q => (s.hport q).received.filter fun f => f.channel = chan && f.block = b

/-- The port at which a channel's block came in: its endpoint engine delivers the block. [DESIGN CHOICE, log entry 135] -/
def State.recvPort (s : State) (chan b : Nat) : Nat :=
  ((List.range 6).find? fun q => (s.hport q).received.any fun f => f.channel = chan && f.block = b).getD 0

/-- The data of a block, 60 words for each flit in order. -/
def blockBytes (l : List HFlit) : List Byte :=
  (sortBy l fun x y => decide (x.index ≤ y.index)).flatMap fun f =>
    ((f.words ++ List.replicate 60 0).take 60).flatMap fun w => leBytes 4 w.toNat

/-- A delivered block leaves receive staging, and the channel goes on to the next. -/
def State.blockPassed (s : State) (chan b : Nat) : State :=
  let s := each (List.range 6) (fun p st => st.modHport p fun x =>
    { x with received := x.received.filter fun f => !(decide (f.channel = chan) && decide (f.block = b)) }) s
  { s with job := { s.job with chanBlocks := tset s.job.chanBlocks (65536 + chan) (b + 1) } }

/-- What a receive endpoint does next with its whole block (R327): phase 0 reads DONE, 1 writes the data, 2 writes READY. -/
def State.recvNext (s : State) (p : Nat) (c : Channel) : State :=
  let b := tget 0 s.job.chanBlocks (65536 + c.id)
  let e := chanEndpoint (s.recvPort c.id b) c
  let tide := (s.part p).tide
  let data := e.write (blockBytes (s.blockFlits c.id b))
  match s.unitTake (keyRecv c.id) with
  | (_, .waiting) => s
  | (_, .idle) =>
    if b ≥ c.blocks then s
    else if b = 0 then s.unitAsk (keyRecv c.id) 1 p data
    else s.unitAsk (keyRecv c.id) 0 p (e.ask 1)
  | (s, .done 0 r) => if leNat r = (blockValue tide (b - 1)).toNat then s.unitAsk (keyRecv c.id) 1 p data else s
  | (s, .done 1 _) => s.unitAsk (keyRecv c.id) 2 p (e.put 0 (blockValue tide b))
  | (s, .done _ _) => (s.blockPassed c.id b).notify (blockValue tide b) e

/-- RECEIVE_BLOCK_COMPLETE (R327): a whole block, once DONE shows the one before it, is written, then READY, then the notice: one
of these at a time, as the answers come. -/
def execReceiveBlockComplete (chan : Nat) (s : State) : Res :=
  match s.channel chan false with
  | none => .next s
  | some pc =>
    let whole := decide ((s.blockFlits chan (tget 0 s.job.chanBlocks (65536 + chan))).length ≥ pc.2.blockFlits)
    if (s.part pc.1).engines && whole then .next (s.recvNext pc.1 pc.2) else .next s

/-! Collectives (R343 to R347) -/

/-- Bytes of an element of a collective format. -/
def collSize (fmt : Nat) : Nat := if fmt = 0 then 4 else if fmt = 1 then 2 else 1

/-- An element as FP32, exactly (R42). -/
def collToFp32 (fmt v : Nat) : Word :=
  match fmt with
  | 0 => BitVec.ofNat 32 v
  | 1 => encodeFp32 (decodeElem .bf16 v)
  | 2 => encodeFp32 (decodeElem .e4m3 v)
  | _ => encodeFp32 (decodeElem .e5m2 v)

/-- An FP32 value as an element of a format, in mode SAT (R43). -/
def collOfFp32 (fmt : Nat) (w : Word) : Nat :=
  match fmt with
  | 0 => w.toNat
  | 1 => toBF16 true (decodeFp32 w)
  | 2 => toE4M3 true (decodeFp32 w)
  | _ => toE5M2 true (decodeFp32 w)

/-- `n` packed elements of a format. -/
def unpackColl (fmt : Nat) : Nat → List Byte → List Nat
  | 0, _ => []
  | n + 1, b => leNat (b.take (collSize fmt)) :: unpackColl fmt n (b.drop (collSize fmt))

/-- Elements packed. -/
def packColl (fmt : Nat) (l : List Nat) : List Byte := l.flatMap fun v => leBytes (collSize fmt) v

/-- The fixed tree of R345 over P values: pairs are added, an odd last value passes up unchanged. -/
def treeLevel : List Word → List Word
  | a :: b :: r => fadd a b :: treeLevel r
  | l => l

/-- tree_sum (R345). -/
def treeSum : Nat → List Word → Word
  | 0, l => l.headD 0
  | n + 1, l => if l.length ≤ 1 then l.headD 0 else treeSum n (treeLevel l)

/-- The plan of a partition. -/
def State.plan (s : State) (p plan : Nat) : Option CollPlan :=
  match (s.part p).image with
  | none => none
  | some b => b.plans.find? fun c => c.plan = plan

/-- A plan's run-time record. -/
def State.planState (s : State) (p plan : Nat) : PlanState := tget {} (s.part p).plans plan

/-- Replace a plan's record. -/
def State.setPlan (s : State) (p plan : Nat) (v : PlanState) : State :=
  s.modPart p fun q => { q with plans := tset q.plans plan v }

/-- COLLECTIVE_SCRIPT_RUN (R344): at the start of a tide the plan's script decides whether it runs. -/
def execCollectiveScriptRun (p plan : Nat) (s : State) : Res :=
  match s.plan p plan with
  | none => .next s
  | some c =>
    let q := s.part p
    if q.st ≠ .open_ then .next s
    else if c.code.isEmpty then .next (s.setPlan p plan { s.planState p plan with runs := true })
    else
      let r := runScript c.code (fun _ => 0) c.stepLimit
        { regs := scriptRegs [(1, plan), (2, q.tide % 2 ^ 32), (3, q.tide / 2 ^ 32), (4, s.rank)] }
      let s := if r.2 then s else s.raisePart p 0x0520 2 (unitId 9 0) (plan * 2 ^ 58)
      .next (s.setPlan p plan { s.planState p plan with runs := !r.2 || decide ((r.1.getD 15 0) = 0) })

/-- The contribution of this device in the bytes read of its input segments, in order (R343). -/
def contribution (c : CollPlan) : List Segment → List Byte → List Nat
  | [], _ => []
  | g :: r, b => unpackColl c.inFmt g.len b ++ contribution c r (b.drop (g.len * collSize c.inFmt))

/-- The writes of a result over the output segments, on VC3 (R327, R344). -/
def State.resultPkts (s : State) (c : CollPlan) : List Segment → List Nat → List Packet
  | [], _ => []
  | g :: r, l => (segEndpoint s.collHalf g).write (packColl c.outFmt (l.take g.len)) ++ State.resultPkts s c r (l.drop g.len)

/-- Key of a plan's accesses. -/
def keyPlan (p plan : Nat) : Nat := 2 ^ 22 + 64 * p + plan

/-! What participants send each other (R343, R346): DATA flits on the plan's channel, a contribution from block 0 on, an ALL_REDUCE's
converted shard from block 32,768 on. The spec gives no layout. [DESIGN CHOICE, log entry 54] -/

/-- The channel of a plan's flits (R343). -/
def planChannel (plan : Nat) : Nat := 0xFF00 + plan

/-- First block of the converted shards. -/
def shardBlock : Nat := 32768

/-- Participants in ascending rank (R343). -/
def planRanks (c : CollPlan) : List Nat := sortBy c.participants (· ≤ ·)

/-- Elements of shard `k` of a list (R343): from k x s on, s = ceil(E / P). -/
def planShard {α : Type} (c : CollPlan) (k : Nat) (l : List α) : List α :=
  let sz := (c.elems + c.participants.length - 1) / max 1 c.participants.length
  (l.drop (k * sz)).take sz

/-- Position of a rank among the participants. -/
def planPos (c : CollPlan) (r : Nat) : Nat := (c.participants.filter fun x => x < r).length

/-- The plan reduces in this tide (R346, R347): a DEFERRED one only every INTERVAL tides; an ALL_GATHER never. -/
def planReduces (c : CollPlan) (tide : Nat) : Bool :=
  decide (c.op < 2) || (decide (c.op > 2) && decide (c.interval ≠ 0) && decide (tide % c.interval = c.interval - 1))

/-- The plan delivers a result in this tide: every one but a DEFERRED plan outside its reducing tides (R347). -/
def planDelivers (c : CollPlan) (tide : Nat) : Bool := c.op = 2 || planReduces c tide

/-- The format in which contributions pass: IN_FMT, or FP32 for a DEFERRED plan's accumulator (R346, R347). -/
def planSendFmt (c : CollPlan) : Nat := if c.op > 2 then 0 else c.inFmt

/-- Elements as the words of a message. -/
def collWords (fmt : Nat) (l : List Nat) : List Word :=
  let b := packColl fmt l
  wordsOfBytes ((b.length + 3) / 4) b

/-- A message as DATA flits from block `b0` on; none where it is empty. -/
def planFlits (ch src dst b0 : Nat) (ws : List Word) : List HFlit :=
  if ws.isEmpty then [] else (messageFlits 1 ch src dst ws).map fun f => { f with block := b0 + f.block }

/-- The port by which a plan's flits to a rank leave: of those with LOCAL entries for its channel, the one asked for, or the first. -/
def State.planPort (s : State) (ch : Nat) (ports : List (Nat × Nat)) (r : Nat) : Option Nat :=
  let can := fun (q : Nat) => s.fabricSecs.any fun f => f.2.slots.any fun e =>
    decide (e.1 / 4096 = q) && slotKind e.2.toNat = 1 && slotChan e.2.toNat = ch
  match ports.find? fun e => e.1 = r && can e.2 with
  | some e => some e.2
  | none => s.localPort ch

/-- Words for another participant are staged; they leave in the channel's LOCAL slots (R321, R326). -/
def State.planSend (s : State) (c : CollPlan) (ports : List (Nat × Nat)) (b0 r : Nat) (ws : List Word) : State :=
  match s.planPort (planChannel c.plan) ports r with
  | none => s
  | some q => s.modHport q fun x => { x with staged := x.staged ++ planFlits (planChannel c.plan) s.rank r b0 ws }

/-- Words for every other participant, by its position. -/
def State.planSendAll (s : State) (c : CollPlan) (ports : List (Nat × Nat)) (b0 : Nat) (ws : Nat → List Word) : State :=
  each ((planRanks c).filter (· ≠ s.rank)) (fun r st => st.planSend c ports b0 r (ws (planPos c r))) s

/-- The words that have come in from rank `r`, of its contribution or, with `late`, of its converted shard. -/
def PlanState.wordsFrom (v : PlanState) (r : Nat) (late : Bool) : List Word :=
  let l := v.rx.filter fun f => f.src = r && (decide (f.block ≥ shardBlock) == late)
  (sortBy l fun a b => decide (64 * a.block + a.index ≤ 64 * b.block + b.index)).flatMap fun f => f.words

/-- `n` elements of format `fmt` from rank `r`, once they are whole. -/
def PlanState.elemsFrom (v : PlanState) (r : Nat) (late : Bool) (fmt n : Nat) : Option (List Nat) :=
  let ws := v.wordsFrom r late
  if ws.length ≥ (n * collSize fmt + 3) / 4 then some (unpackColl fmt n (ws.flatMap fun w => leBytes 4 w.toNat)) else none

/-- Element-wise tree sum of contributions in FP32, converted to the output format (R346). -/
def reduceAll (outFmt : Nat) (e : Nat) (l : List (List Word)) : List Nat :=
  (List.range e).map fun i => collOfFp32 outFmt (treeSum l.length (l.map fun c => c.getD i 0))

/-- This device's part of the result, once every other participant's contribution to it is in: its shard of the sums, or, for an
ALL_GATHER, all contributions in position order (R346). `m` is its own contribution. -/
def planOwn (c : CollPlan) (own : Nat) (v : PlanState) (m : List Nat) : Option (List Nat) :=
  let k := planPos c own
  let mine := if c.op = 2 then m else planShard c k m
  let rows := allSome ((planRanks c).map fun r => if r = own then some mine else v.elemsFrom r false (planSendFmt c) mine.length)
  rows.map fun l => if c.op = 2 then l.flatMap (fun x => x)
    else reduceAll c.outFmt mine.length (l.map fun x => x.map (collToFp32 (planSendFmt c)))

/-- The whole result as this device writes it, once every converted shard it needs is in (R346). -/
def planWhole (c : CollPlan) (own : Nat) (v : PlanState) (part : List Nat) : Option (List Nat) :=
  if c.op = 1 ∨ c.op = 2 then some part
  else (allSome ((planRanks c).map fun r => if r = own then some part
    else v.elemsFrom r true c.outFmt (planShard c (planPos c r) (List.range c.elems)).length)).map fun l => l.flatMap fun x => x

/-- The contribution has been read: it goes to the others, a DEFERRED plan adds it to its tentative accumulator, and DONE of the input
segments is written (R326, R344, R346, R347). -/
def State.planRead (s : State) (p : Nat) (c : CollPlan) (ports : List (Nat × Nat)) (b : List Byte) : State :=
  let v := s.planState p c.plan
  let m := contribution c c.ins b
  let tent := (List.range c.elems).map fun i => fadd (v.accum.getD i 0) (collToFp32 c.inFmt (m.getD i 0))
  let mine := if c.op > 2 then tent.map (·.toNat) else m
  let s := s.setPlan p c.plan { v with mine := some mine, tentative := if c.op > 2 then some tent else none }
  let tide := (s.part p).tide
  let s := if c.op = 2 then s.planSendAll c ports 0 fun _ => collWords (planSendFmt c) mine
    else if planReduces c tide then s.planSendAll c ports 0 fun k => collWords (planSendFmt c) (planShard c k mine) else s
  s.unitAsk (keyPlan p c.plan) 2 p (c.ins.flatMap fun g => (segEndpoint s.collHalf g).put 1 (blockValue tide 0))

/-- The plan waits for flits of the others: it forms its own part, which an ALL_REDUCE sends on, then, with the rest in, writes the
result. -/
def State.planGather (s : State) (p : Nat) (c : CollPlan) (ports : List (Nat × Nat)) (m : List Nat) : State :=
  let v := s.planState p c.plan
  match v.own with
  | none =>
    match planOwn c s.rank v m with
    | none => s
    | some part =>
      let s := s.setPlan p c.plan { v with own := some part }
      if c.op = 1 ∨ c.op = 2 then s else s.planSendAll c ports shardBlock fun _ => collWords c.outFmt part
  | some part =>
    match planWhole c s.rank v part with
    | none => s
    | some l => s.unitAsk (keyPlan p c.plan) 3 p (s.resultPkts c c.outs l)

/-- What the collective engine does next for a plan: phase 0 reads READY of the input segments, 1 their data, 2 writes DONE; then the
contributions are gathered; 3 writes the result, 4 READY of the output segments; notices follow (R325 to R327, R344, R346). -/
def State.planNext (s : State) (p : Nat) (c : CollPlan) (ports : List (Nat × Nat)) : State :=
  let key := keyPlan p c.plan
  let v := blockValue (s.part p).tide 0
  let ins := c.ins.map (segEndpoint s.collHalf)
  let outs := c.outs.map (segEndpoint s.collHalf)
  let finish := fun (st : State) => st.setPlan p c.plan { st.planState p c.plan with done := true }
  match s.unitTake key with
  | (_, .waiting) => s
  | (_, .idle) =>
    match (s.planState p c.plan).mine with
    | none => s.unitAsk key 0 p (ins.flatMap fun e => e.ask 0)
    | some m => s.planGather p c ports m
  | (s, .done 0 b) =>
    if (wordsOfBytes ins.length b).all fun w => w = v then
      s.unitAsk key 1 p (c.ins.flatMap fun g => (segEndpoint s.collHalf g).read (g.len * collSize c.inFmt))
    else s
  | (s, .done 1 b) => s.planRead p c ports b
  | (s, .done 2 _) =>
    let s := each ins (fun e st => st.notify v e) s
    if planDelivers c (s.part p).tide then s else finish s
  | (s, .done 3 _) => s.unitAsk key 4 p (outs.flatMap fun e => e.put 0 v)
  | (s, .done _ _) => finish (each outs (fun e st => st.notify v e) s)

/-- COLLECTIVE_REDUCE (R343 to R347): the collective engine goes one step on with a plan that runs in the tide, until it is done;
`ports` names, for a participant's rank, the port by which flits to it leave. -/
def execCollectiveReduce (p plan : Nat) (ports : List (Nat × Nat)) (s : State) : Res :=
  match s.plan p plan with
  | none => .next s
  | some c =>
    let ps := s.planState p plan
    if (s.part p).engines && ps.runs && !ps.done then .next (s.planNext p c ports) else .next s

end Sys2Proof.Machine
end

