-- ==== Sys2Proof/Machine/JobEv.lean ====
section
/-!
DEFINITION. Records of the drumbeat tree and the forming of a job (spec/12_hikolink_jobs.md R329 to R352, R431, R440). A
record acts on this device and travels on; the operand `child` is the port the record came in by.
-/

namespace Sys2Proof.Machine

/-! DRUMBEAT (R339, R340) -/

/-- Ns of the job clock for an instant in units of `time`, rounded up. -/
def State.jobNs (s : State) (t : Nat) : Nat := (t + nsUnits - 1) / nsUnits + s.tsStep

/-- Start of the tide after a gap in which the tile clock goes from cycle length `u` to `v` (R213, R447). -/
def Partition.startAfter (q : Partition) (nominal u v : Nat) : Nat :=
  max (q.startT + nominal * u) (q.commitT + 512 * (u + v))

/-- START of the next tide, computed at the root from the job's partitions (R213, R340). [DESIGN CHOICE, log entry 60] -/
def State.rootStart (s : State) (step : Nat) : Nat :=
  (s.jobParts.filter fun p => (s.part p).st = .boundary).foldl (fun m p =>
    max m (s.jobNs ((s.part p).startAfter (nominalOf (s.params p) ((s.part p).tide - 1)) (cycleUnits s.power.step) (cycleUnits step)))) 0

/-- Every partition of the job waits for a drumbeat; a recovery is complete on every device (R215, R220). -/
def State.beatReady (s : State) : Bool :=
  s.jobParts.all fun p =>
    let q := s.part p
    q.st = .boundary || q.awaiting || (q.st = .recovering && q.recovered && q.cause.isNone && !q.repairLeft && s.job.selfRecovered)

/-- The tide number of the root's next DRUMBEAT (R212). -/
def State.beatTide (s : State) : Nat :=
  match s.jobParts with
  | [] => s.job.count
  | p :: _ => (s.part p).tide

/-- A drumbeat's per-tide fields. -/
def Job.onBeat (b : Job) (tide start step : Nat) (replay stop : Bool) : Job :=
  { b with
    tide := tide, nextStart := start, nextStep := step, nextReplay := replay, nextStop := stop, beat := true, stepSet := true, endWanted := false
    doneFrom := [], stepReq := 0, doneSent := false, verdictSets := [], setSent := false, outcome := [], outcomeSent := false
    confirmSent := false, confirmAt := none, settledFrom := [], selfSettled := false, recoveredFrom := [], selfRecovered := false, abandoned := false
    cause := {}, chanBlocks := [] }

/-- DRUMBEAT (R212, R340): tide number, START, STEP, REPLAY and STOP of the next tide. On the root they are its own: the start of
R213, the largest step asked for, a replay that is due, and a stop that any member asked for or that ends a RUN_SINGLE; a stop
asked for before the run's first tide waits for a stop point (R433). [DESIGN CHOICE, log entries 121 and 147] -/
def execDrumbeat (tide start step : Nat) (replay stop : Bool) (s : State) : Res :=
  if !s.job.formed then .next s
  else if s.isRoot && !s.beatReady then .next s
  else
    let root := s.isRoot
    let again := s.jobParts.any fun p => (s.part p).st = .recovering || (s.part p).replaying
    let replay := if root then again else replay
    let gap := root && !replay && s.jobParts.any fun p => (s.part p).st = .boundary
    let ends := gap && s.jobParts.any fun p => (s.part p).single.isSome
    let tide := if root then s.beatTide else tide
    let step := if gap then max s.job.stepReq s.stepRequest else step
    let start := if gap then s.rootStart step else start
    let stop := if root then (s.job.stopWanted || (gap && s.job.endWanted) || ends) && (gap || replay) else stop
    let s : State := { s with job := { s.job.onBeat tide start step replay stop with
                                       stopWanted := s.job.stopWanted && !stop } }
    let s := s.sendDown (.drumbeat tide start step replay stop)
    let s := each (s.jobParts.filter fun p => (s.part p).awaiting && !(s.part p).replaying) (fun p st =>
      st.modPart p fun q => { q with tide := tide }) s
    if replay then
      .next (each (s.jobParts.filter fun p => (s.part p).st = .recovering && (s.part p).recovered) (fun p st => st.awaitReplay p) s)
    else .next s

/-! CONFIRM (R336, R338, R339) -/

/-- The job's tide commits on this device (R336): every partition of it, at INSTANT. -/
def State.commitJob (s : State) (instant : Nat) : State :=
  let s : State := { s with job := { s.job with
    count := (s.jobTide + 1) % 2 ^ 48, lastTide := s.jobTide, stallCause := none, freeAbandons := 0, canaries := [] } }
  State.releaseFaults (c := some instant) <| each (s.jobParts.filter fun p => (s.part p).st = .closing) (fun p st => st.commitTide p ((instant - st.tsStep) * nsUnits)) s

/-- CONFIRM (R336, R339): commits or abandons the job's tide in every partition of the job. On the root the commit point is the
instant its own CONFIRM left. -/
def execConfirm (tide instant : Nat) (abandonOutcome : Bool) (cause : Cause) (s : State) : Res :=
  if !s.job.formed || decide (tide ≠ s.jobTide) || s.job.abandoned then .next s
  else if abandonOutcome then
    if s.isRoot then .next (s.rootAbandon cause)
    else
      let s : State := { s with job := { s.job with abandoned := true, cause := cause } }
      .next (s.sendDown (.confirm tide instant true cause)).abandonJob
  else if s.isRoot then
    match s.job.confirmAt with
    | none => .next s
    | some t => .next (s.commitJob t)
  else .next ((s.sendDown (.confirm tide instant false cause)).commitJob instant)

/-- ACTION (R339): replay, repair then replay, or stop, in every partition of the job. -/
def execAction (tide act kind : Nat) (cause : Cause) (s : State) : Res :=
  if !s.job.formed || s.isRoot || decide (tide ≠ s.jobTide) then .next s
  else .next ((s.sendDown (.action tide act kind cause)).applyAction act kind cause).goOn

/-! MEMBER (R351) -/

/-- The device at coordinates `c` lies in this device's subtree: the tree leads from it to here. -/
def Job.below (b : Job) : Nat → Nat × Nat × Nat → Bool
  | 0, _ => false
  | n + 1, c =>
    match b.parentPortAt c.1 c.2.1 c.2.2 with
    | none => false
    | some q =>
      let u := b.stepFrom q c.1 c.2.1 c.2.2
      u = (b.i, b.j, b.k) || b.below n u

/-- Coordinates of a rank (R348). -/
def Job.coordsOf (b : Job) (r : Nat) : Nat × Nat × Nat :=
  (r % max 1 b.dimI, r / max 1 b.dimI % max 1 b.dimJ, r / max 1 (b.dimI * b.dimJ))

/-- JOB_MEMBER (R353). [DEDUCED, log entry 62] -/
def State.memberEvent (s : State) (rank st : Nat) : State := s.raiseDev 0x0512 1 mgmtUnit (rank * 2 ^ 48 + st * 2 ^ 40)

/-- A MEMBER record travels on: up from a device below, and down from the root. -/
def State.passMember (s : State) (rank st : Nat) (news : Bool) : State :=
  if s.isRoot then (if news then s.sendDown (.member s.jobTide rank st) else s)
  else if news && s.job.below 16 (s.job.coordsOf rank) then s.sendUp (.member s.jobTide rank st)
  else s.sendDown (.member s.jobTide rank st)

/-- This device lies in the subtree of the device of rank `r`. -/
def Job.under (b : Job) (r : Nat) : Bool :=
  let c := b.coordsOf r
  ({ b with i := c.1, j := c.2.1, k := c.2.2 }).below 16 (b.i, b.j, b.k)

/-- The reference of a device below one that resets, or that has joined again: its own oscillator, or the clock recovered on
its parent port (R330, R351). The record travels on down the subtree. [DEDUCED, log entry 151] -/
def State.subtreeClock (s : State) (rank : Nat) (own : Bool) : State :=
  if s.job.formed && s.job.under rank then
    { s with job := { s.job with onRecovered := !own }, power := { s.power with refOscillator := own } }
  else s

/-- A device of the job is lost: the job is broken (R352), and this device runs on its own oscillator (R332). -/
def State.lostMember (s : State) (rank : Nat) : State :=
  let s := s.ownClock
  { s with job := { s.job with away := s.job.away ++ [rank], joined := s.job.joined - 1, broken := true } }

/-- MEMBER (R351): 0 leaving, 1 joined, 2 resetting, 3 lost. A resetting neighbour's flits are absorbed here; one that has
not left its job is a lost link. -/
def execMember (rank st : Nat) (s : State) : Res :=
  let known := s.job.away.contains rank
  match st with
  | 0 =>
    if !s.job.formed then .next s
    else
      let s := if known then s else (({ s with job := { s.job with
          away := s.job.away ++ [rank], joined := s.job.joined - 1
          stopWanted := s.job.stopWanted || (s.isRoot && !s.jobParts.isEmpty) } }).memberEvent rank 0)
      .next (s.passMember rank 0 (!known))
  | 1 =>
    if !s.job.formed then .next s
    else
      let s := if known then (({ s with job := { s.job with
          away := s.job.away.filter (· ≠ rank), joined := s.job.joined + 1 } }).memberEvent rank 1).subtreeClock rank false else s
      .next (s.passMember rank 1 known)
  | 2 =>
    let hit := (List.range 6).filter fun q => (s.hport q).up && (s.hport q).farRank = rank && s.job.needsPort q
    let s := each hit (fun q st => st.modHport q fun x => { x with absorbing := true }) s
    let s := if s.job.formed && (!hit.isEmpty || s.job.under rank) then (s.subtreeClock rank true).memberEvent rank 2 else s
    let s := if s.job.formed && s.job.under rank then s.sendDown (.member s.jobTide rank 2) else s
    if known || !s.job.formed then .next s else .next (each hit (fun q st => st.linkDown q 2) s)
  | _ =>
    if !s.job.formed then .next s
    else
      let s := if known then s else (s.lostMember rank).memberEvent rank 3
      .next (s.passMember rank 3 (!known))

/-! Up records (R336, R339) -/

/-- A child of the tree, heard for the first time. -/
def State.newChild (s : State) (child : Nat) (seen : List Nat) : Bool := s.job.childPorts.contains child && !seen.contains child

/-- DONE (R336). -/
def execDone (child tide count stepReq : Nat) (s : State) : Res :=
  if s.job.formed && decide (tide = s.job.tide) && s.newChild child (s.job.doneFrom.map fun d => d.1) then
    .next { s with job := { s.job with doneFrom := s.job.doneFrom ++ [(child, count)], stepReq := max s.job.stepReq stepReq } }
  else .next s

/-- FAULT (R339): the root abandons the tide, or stops a recovery that cannot complete (R216); others pass it up. -/
def execFault (child tide kind : Nat) (cause : Cause) (s : State) : Res :=
  if !s.job.formed || !s.job.childPorts.contains child || decide (tide ≠ s.jobTide) then .next s
  else if !s.isRoot then .next (s.sendUp (.fault tide kind cause))
  else if s.jobParts.any fun p => (s.part p).st = .recovering then
    .next ((s.sendDown (.action tide 2 kind cause)).applyAction 2 kind cause).goOn
  else .next (s.rootAbandon cause)

/-- SETTLED (R339). -/
def execSettled (child tide count kind : Nat) (cause : Cause) (s : State) : Res :=
  if s.job.formed && decide (tide = s.jobTide) && s.newChild child (s.job.settledFrom.map fun d => d.1) then
    .next (State.maybeSettled { s with job := { s.job with
      settledFrom := s.job.settledFrom ++ [(child, count, kind, cause)] } }).goOn
  else .next s

/-- RECOVERED (R339). -/
def execRecovered (child tide count : Nat) (s : State) : Res :=
  if s.job.formed && decide (tide = s.jobTide) && s.newChild child (s.job.recoveredFrom.map fun d => d.1) then
    .next (State.maybeRecovered { s with job := { s.job with recoveredFrom := s.job.recoveredFrom ++ [(child, count)] } })
  else .next s

/-! DONE_SEND and CONFIRM_SEND (R336) -/

/-- Every partition of the job on this device that runs the tide has rung, its results are in, nothing has faulted, and every child
is done. -/
def State.deviceDone (s : State) : Bool :=
  s.job.formed && !s.tideParts.isEmpty && !s.job.abandoned && decide (s.job.doneFrom.length ≥ s.job.childPorts.length)
    && s.tideParts.all fun p =>
      let q := s.part p
      q.st = .closing && q.bellReady && q.resultsIn && q.cause.isNone

/-- Rank 0 holds the verdict sets of every device. -/
def State.setsIn (s : State) : Bool := decide (((s.job.verdictSets.map fun v => v.1).eraseDups).length ≥ s.job.devices)

/-- The outcome table as words (R341). -/
def State.outcomeWords (s : State) : List Word := s.job.outcome.map entryWord

/-- Rank 0 forms the outcome table (R336, R341). -/
def State.formOutcome (s : State) : State :=
  { s with job := { s.job with outcome := joinEntries (s.job.verdictSets.flatMap fun v => v.2), outcomeSent := true } }

/-- This device's verdict set has left; on rank 0, every device's has come in. -/
def State.setsDone (s : State) : Bool := s.job.setSent && (!s.streamRoot || s.setsIn)

/-- DONE_SEND (R336): on a device other than the root. Rank 0 sends the outcome table before its DONE. Where the tide ends a
RUN_SINGLE, a stop request goes before it. [DESIGN CHOICE, log entry 147] -/
def execDoneSend (s : State) : Res :=
  if s.isRoot || s.job.doneSent || !s.deviceDone || !s.setsDone then .next s
  else
    let s := if s.jobParts.any fun p => (s.part p).single.isSome then s.sendUp (.stopRequest s.job.tide true) else s
    let s := if s.streamRoot then
        let t := s.formOutcome
        t.treeUp 0xFFF1 t.outcomeWords
      else s
    let n := countOf (s.job.doneFrom.map fun d => d.2)
    .next ({ s with job := { s.job with doneSent := true } }.sendUp (.done s.job.tide n (max s.job.stepReq s.stepRequest)))

/-- CONFIRM_SEND (R336): the root sends the outcome table and a committing CONFIRM; INSTANT is fixed as its first copy leaves, or, where
no device is below the root, now. -/
def execConfirmSend (s : State) : Res :=
  if !s.job.formed || !s.isRoot || s.job.confirmSent || !s.deviceDone || !s.setsDone then .next s
  else
    let s := if s.streamRoot then s.formOutcome else s
    let s := s.treeDown 0xFFF1 s.outcomeWords
    .next ({ s with job := { s.job with
      confirmSent := true, confirmAt := if s.job.childPorts.isEmpty then some s.now else none } }.sendDown (.confirm s.job.tide s.now false {}))

/-! Loss of the tree and of lock (R330, R334, R352, R440) -/

/-- A hop has lost all four copies of a record: four bad CONTROL flits in a row on a port of the job (R334). -/
def State.copiesLost (s : State) : Bool := s.job.ports.any fun q => decide ((s.hport q).badCopies ≥ 4)

/-- No good CONTROL flit has come from the parent for 10 µs (R334). -/
def State.parentSilent (s : State) : Bool := !s.isRoot && decide (s.job.lastControl + 10000 ≤ s.now)

/-- TREE_TIMEOUT (R334, R352): FABRIC_TREE_LOST, once. A member whose parent is lost is cut off and stops on its own. -/
def execTreeTimeout (s : State) : Res :=
  if !s.job.formed || s.job.treeLost || !(s.copiesLost || s.parentSilent) then .next s
  else
    let away := match s.job.parentPort with
      | none => false
      | some q => s.parentSilent || decide ((s.hport q).badCopies ≥ 4)
    let s := ({ s.ownClock with job := { s.ownClock.job with
      cut := s.job.cut || away, broken := true, treeLost := true } }).jobFault 0x0504 4 mgmtUnit s.job.lastTide .stop 6
    .next (each (s.jobParts.filter fun p => (s.part p).st = .abandoning && (s.part p).settled) (fun p st => st.actOnAbandon p 2 6) s).goOn

/-- FABRIC_CLOCK_UNLOCK (R330, R353): the device runs on its own oscillator and the job's runs stop. -/
def State.clockUnlock (s : State) : State :=
  let parent := match s.job.parentPort with
    | some q => s.job.rankAt (s.job.neighbour q)
    | none => 0
  ({ s with job := { s.job with clockLocked := false, onRecovered := false }
            power := { s.power with refOscillator := true } }).jobFault 0x0505 4 (unitId 0xB 0) (parent * 2 ^ 48) .stop 6

/-- CLOCK_LOCK_LOSS (R330). -/
def execClockLockLoss (s : State) : Res :=
  if s.job.formed && s.job.clockLocked && !s.isRoot then .next s.clockUnlock else .next s

/-- REFERENCE_LOSS (R440): the root PLL switches to the module oscillator; FABRIC_CLOCK_UNLOCK is raised once. -/
def execReferenceLoss (s : State) : Res :=
  if !s.job.onRecovered then .next s
  else if s.job.formed && s.job.clockLocked then .next s.clockUnlock
  else .next { s with job := { s.job with onRecovered := false }, power := { s.power with refOscillator := true } }

/-! Forming a job (R348 to R350, R413) -/

/-- Formation fails (R349, R413): JOB_FORM_FAILED, and the command's completion. -/
def State.formFail (s : State) (step cause port : Nat) : State :=
  let m := s.job.formMbx
  let s : State := { s with job := { s.job with formingStep := 0, formMbx := none, joining := false
                                                formed := s.job.formed && s.job.joining } }
  let s := s.raiseDev 0x0511 3 mgmtUnit (step * 2 ^ 56 + cause * 2 ^ 48 + port * 2 ^ 40)
  match m with
  | none => s
  | some n => s.failWith n (if cause = 6 then stVersion else stHw) (step * 256 + cause)

/-- Coordinates have come from the parent's beacon (step 4 of R348). -/
def State.coordsKnown (s : State) : Bool := decide (s.job.formingStep ≥ 4)

/-- A port has trained with its neighbour: sequence numbers start at 0 (R318). One that failed calibration stays down (R424). -/
def trainPort (x : HPort) (port : Nat) (b : Beacon) : HPort :=
  if x.calFailed then x else
  let x : HPort := if (x.up || x.greeted || x.named) && !x.absorbing then x
    else { x with rxSeq := 0, txSeq := 0, badRun := 0, badCopies := 0, greeted := false, named := false }
  { x with up := true, absorbing := false, beacon := some b, farPort := (port + 3) % 6 }

/-- The neighbour on a port of a formed job has left it and trains again to rejoin (R351). -/
def State.rejoining (s : State) (port : Nat) : Bool :=
  s.job.formed && s.job.formingStep = 0 && s.job.away.contains (s.job.rankAt (s.job.neighbour port))

/-- A beacon with coordinates has come in on a port. -/
def State.placedAt (s : State) (q : Nat) : Option Beacon := (s.hport q).beacon.filter fun b => b.placed

/-- A port whose neighbour claims a coordinate of another member: the root's, this device's, or that of another neighbour (R349). -/
def State.duplicate (s : State) : Option Nat :=
  s.job.ports.find? fun q => match s.placedAt q with
    | none => false
    | some b =>
      (b.coords = (s.job.rootI, s.job.rootJ, s.job.rootK) && b.serial ≠ s.job.rootSerial)
        || (s.coordsKnown && b.coords = (s.job.i, s.job.j, s.job.k) && b.serial ≠ s.fuses.serial)
        || s.job.ports.any fun r => (s.placedAt r).any fun o => o.coords = b.coords && o.serial ≠ b.serial

/-- A port whose neighbour has other coordinates than the port implies (R349). -/
def State.miscabled (s : State) : Option Nat :=
  if s.coordsKnown then s.job.ports.find? fun q => (s.placedAt q).any fun b => b.coords ≠ s.job.neighbour q else none

/-- The device takes its parent's coordinates plus its parent port's step (step 4 of R348): from the beacon of a port that is then
the one toward the parent. -/
def State.takePlace (s : State) (port : Nat) (b : Beacon) : State :=
  let c := s.job.stepFrom ((port + 3) % 6) b.i b.j b.k
  if s.coordsKnown || s.job.parentPortAt c.1 c.2.1 c.2.2 ≠ some port then s
  else { s with job := { s.job with i := c.1, j := c.2.1, k := c.2.2, formingStep := 4 } }

/-- IDENTITY_BEACON (R348 to R351): the neighbour on a port has trained and names itself, at first without coordinates. The parent's
give this device its own, and every neighbour's are checked. One that rejoins is held to R350 and to its place. -/
def execIdentityBeacon (port : Nat) (b : Beacon) (s : State) : Res :=
  if !s.job.needsPort port || (s.hport port).shutting || (s.hport port).calFailed then .next s
  else if s.rejoining port then
    if !b.agrees then .next (s.raiseDev 0x0511 3 mgmtUnit (7 * 2 ^ 56 + 6 * 2 ^ 48 + port * 2 ^ 40))
    else if b.jobId = s.job.id ∧ (!b.placed ∨ s.job.neighbour port = b.coords) then
      .next (s.modHport port fun x => { trainPort x port b with farRank := s.job.rankAt (s.job.neighbour port) })
    else .next s
  else if s.job.formingStep = 0 then .next s
  else
    let s := s.modHport port fun x => trainPort x port b
    if b.jobId ≠ s.job.id then .next (s.formFail 3 2 port)
    else if !b.placed then .next s
    else
      let s := s.takePlace port b
      match s.duplicate with
      | some q => .next (s.formFail 4 3 q)
      | none => match s.miscabled with
        | some q => .next (s.formFail 4 2 q)
        | none => .next (s.modHport port fun x => { x with farRank := s.job.rankAt b.coords })

/-- The step formation has reached: training or first beacons, coordinates, or what follows once every neighbour has been checked. -/
def State.stepReached (s : State) : Nat :=
  if s.job.ports.any fun q => (s.hport q).beacon.isNone then 2
  else if !s.coordsKnown || s.job.ports.any fun q => (s.placedAt q).isNone then 4
  else 5

/-- The step that formation stops in (R348, R349): while a port has shown no beacon, training or, with all ports trained, the beacons;
once the neighbours have been checked, lock, calibration or the epoch check. -/
def State.stopStep (s : State) (stop : FormStop) : Nat :=
  match s.stepReached, stop with
  | 2, .timeout 3 => 3
  | 5, .timeout n => min 7 (max 5 n)
  | n, _ => n

/-- JOB_FORM_STEP_TIMEOUT (R349): a step exceeds its bound, a port fails training, or the lock fails. -/
def execJobFormStepTimeout (stop : FormStop) (s : State) : Res :=
  if s.job.formingStep = 0 then .next s
  else
    let step := s.stopStep stop
    let port := (s.job.ports.find? fun q => (s.hport q).beacon.isNone).getD 0
    .next (s.formFail step (if stop = .training ∧ step = 2 then 1 else if stop = .lock ∧ step = 5 then 5 else 0) port)

/-- Epochs and link layers of this device and its neighbours agree (R350). -/
def State.neighboursAgree (s : State) : Bool :=
  s.job.ports.all fun q => match (s.hport q).beacon with
    | none => false
    | some b => b.agrees

/-- The timestamp clock steps forward to the job clock (R332). -/
def State.stepTime (s : State) (target : Nat) : State :=
  let d := target - s.now
  if d = 0 then s else ({ s with tsStep := s.tsStep + d }).raiseDev 0x0513 0 mgmtUnit d

/-- D_hop of a tree link in steps of 10.24 ns, from its RTT_max in ps (R331). -/
def dHop (rtt : Nat) : Nat := (rtt + 60000 + 20479) / 20480

/-- The first link whose D_hop exceeds 307.2 ns (R331). -/
def slowLink (links : List (Nat × Nat)) : Option (Nat × Nat) := links.find? fun l => decide (30 < dHop l.2)

/-- FORMATION_COMPLETE (R332, R348 to R351): the last of steps 5 to 7. `rootClock` is the job clock; on the root it is the
largest timestamp value received, to which the root's rule is applied. `links` are the tree links measured: port and RTT_max. -/
def execFormationComplete (rootClock : Nat) (epochsAgree : Bool) (links : List (Nat × Nat)) (s : State) : Res :=
  if s.job.formingStep = 0 || decide (s.stepReached ≠ 5) then .next s
  else if let some l := slowLink links then .next (s.formFail 6 4 l.1)
  else if !epochsAgree || !s.neighboursAgree then .next (s.formFail 7 6 0)
  else
    let b := s.job
    let root := b.parentPort.isNone
    let away := if b.joining then b.away.filter (· ≠ b.rank) else []
    let s := s.stepTime (if root then max rootClock s.now + 1000000 else rootClock)
    let m := b.formMbx
    let s : State := { s with
      job := { b with formed := true, formingStep := 0, formMbx := none, joining := false, left := false, joined := b.devices - away.length
                      fabricEpoch := 1, clockLocked := true, onRecovered := !root, away := away, broken := false, cut := false, treeLost := false
                      beat := false, stopWanted := false, endWanted := false, abandoned := false, lastControl := s.now }
      power := { s.power with refOscillator := root } }
    let s := if b.joining then
        let s := s.memberEvent b.rank 1
        if root then s.sendDown (.member s.jobTide b.rank 1) else s.sendUp (.member s.jobTide b.rank 1)
      else s.raiseDev 0x0510 0 mgmtUnit ((b.dimI - 1) * 2 ^ 60 + (b.dimJ - 1) * 2 ^ 57 + (b.dimK - 1) * 2 ^ 54 + b.rank * 2 ^ 44
        + b.rootRank * 2 ^ 34 + 1)
    .next (s.okHeld m [])

end Sys2Proof.Machine
end

