-- ==== Sys2Proof/Machine/Emergency.lean ====
section
/-!
DEFINITION. The emergency power-off (spec/14_mailboxes.md R416; R441, R466, R533): fault bells, the announcement, tiles, HBM
and SerDes off, the end of every run, the black box frozen and copied, commands in flight failed.
-/

namespace Sys2Proof.Machine

/-- A run ends at once with an ACTION of its own (R224): its tide is abandoned and the partition enters LOADED. -/
def State.stopNow (s : State) (p : Nat) (c : FaultCause) : State :=
  let s := s.modPart p fun q => { q with cause := some c }
  match (s.part p).st with
  | .recovering => s.toLoaded p c.act (causeField (some c) (s.part p).replays) (s.part p).tide
  | .abandoning => s.actOnAbandon p 2 c.act
  | _ => (s.beginAbandon p).actOnAbandon p 2 c.act

/-- A partition whose waiting commands have failed: what they began goes on without them. No mailbox has number 15. -/
def Partition.dropHolders (q : Partition) (loading : Bool) : Partition :=
  let q : Partition := { q with
    stopMbx := none, startMbx := none, enableHeld := none, heldSingle := false, single := q.single.map fun _ => 15, pageCmds := [] }
  if loading then { q with st := .empty, image := none, imageFrames := [], weightsLoaded := false } else q

/-- The weights of a partition count as not loaded (R401, R504). -/
def Partition.unloaded (q : Partition) : Partition := { q with weightsLoaded := false, sealedWeights := false, weights := none }

/-- A WEIGHT_LOAD of partition `p` is in flight. -/
def State.weightsComing (s : State) (p : Nat) : Bool :=
  (List.range 9).any fun n => !(s.mb n).done && decide ((s.mb n).running = some 0x0204) && decide (s.param n 0 1 = p)
    && decide (n = 0 ∨ n - 1 = p)

/-- Every command in flight on a mailbox completes with HW_FAULT (R386, R416); nothing waits for one any more. A partition
whose load or removal had not ended is left EMPTY, one whose WEIGHT_LOAD fails so has its weights not loaded (R401). -/
def State.failAll (s : State) : State :=
  let gone := (List.range 8).filter s.weightsComing
  let s := { s with parts := s.parts.map fun q => if gone.contains q.1 then (q.1, q.2.unloaded) else q }
  let s := each (List.range 9) (fun n st => if (st.mb n).done then st else st.failWith n stHw 0) s
  { s with
    parts := s.parts.map fun p => (p.1, p.2.dropHolders (s.resets.any fun r => r.scope = 2 && r.index = p.1 && r.mbx.isSome))
    streams := s.streams.map fun x => (x.1, ({ x.2 with enableHeld := false, heldCmd := none, heldMbx := none } : Stream))
    hports := s.hports.map fun h => (h.1, ({ h.2 with trainHeld := none } : HPort))
    clusters := s.clusters.map fun c => (c.1, ({ c.2 with heldMbx := none } : Cluster))
    resets := s.resets.map fun r => ({ r with mbx := none, resp := [] } : UnitReset)
    job := { s.job with formMbx := none, formingStep := 0, leaveMbx := s.job.leaveMbx.map fun _ => 15 }
    preparing := none, scan := none, trainWait := none, freqWait := none }

/-- Commands in flight on the mailboxes. -/
def State.inFlight (s : State) : Nat := ((List.range 9).filter fun n => !(s.mb n).done).length

/-- Freeze the black box without an event (R416, R490): a capture and its flash copy, unless a copy runs. -/
def State.freezeNow (s : State) : State :=
  if s.bb.copying.isSome then s else (s.takeCapture 0xFF 0).startCopy none

/-- The emergency power-off (R416). `c` is what every run stops with; the SerDes go off once the ports have announced resetting.
[DESIGN CHOICE, log entry 74] -/
def State.emergencyOff (s : State) (c : FaultCause) : State :=
  if s.boot.poweredOff then s
  else
    let s := each s.runningParts (fun p st => st.modPart p fun q => { q with faultBell := true }) s
    let s := each (List.range 6) (fun q st => st.portShutBegin q) s
    let s := s.freezeNow
    let s := each s.runningParts (fun p st => st.stopNow p c) s
    let s := each (List.range 288) (fun k st => if (st.cluster k).power || (st.cluster k).rising || (st.cluster k).powerUpHeld then st.powerDownBegin k else st) s
    let s := each (List.range 16) (fun m st => st.modMemport m fun x => { x with trained := false, requests := [], inSelfRefresh := false }) s
    let s : State := { s with boot := { s.boot with poweredOff := true, epoOrTrip := true }, hbm := [] }
    s.failAll.goOn

/-- The cause of a run stopped by the effecter or a pin: no event names it. -/
def effecterCause : FaultCause := { kind := .stop, code := 0, unit := mgmtUnit, act := 10 }

/-- EMERGENCY_POWER_OFF (R415, R416): the effecter of I3C, while the port is served. -/
def execEmergencyPowerOff (s : State) : Res := if s.i3cUp then .next (s.emergencyOff effecterCause) else .next s

end Sys2Proof.Machine
end

