-- ==== Sys2Proof/Machine/PowerEv.lean ====
section
/-!
DEFINITION. Events of heat, clocks and power (spec/16_clocks_power_heat.md R441 to R465; R410): cluster temperatures and
trips, margins, the power cap, phases, lock, step changes, staged switching, telemetry.
-/

namespace Sys2Proof.Machine

/-- The partition a cluster belongs to, if any. -/
def State.partOfCluster (s : State) (c : Nat) : Option Nat :=
  if c / 36 < s.sigma0 then none else s.partOfStripe (c / 36 - s.sigma0)

/-- An event of a cluster. -/
def State.clusterEvent (s : State) (c code sev payload : Nat) : State :=
  match s.partOfCluster c with
  | some p => s.raisePart p code sev (unitId 1 c) payload
  | none => s.raiseDev code sev (unitId 1 c) payload

/-- The slower of a cluster's thermal cadence and the power backstop's (R461). -/
def State.cadenceOf (s : State) (c : Nat) : Nat := if s.power.backstop then 4 else (s.cluster c).thermal

/-- Ask for a cluster's cadence; it takes effect at the next count that is 0 modulo 8 (R462). -/
def State.askCadence (s : State) (c : Nat) : State :=
  let k := s.cadenceOf c
  s.modCluster c fun x => { x with nextCadence := if k = x.cadence then none else some k }

/-! Heat (R462 to R464) -/

/-- Cadence and count of samples below the return threshold after a sample of `t` sixteenths of a degree (R462): 50 samples
of 20 µs are 1 ms. [DEDUCED, log entry 64] -/
def thermalNext (level below : Nat) (t : Int) : Nat × Nat :=
  if t ≥ 102 * 16 then (4, 0)
  else if t ≥ 95 * 16 ∧ level = 8 then (6, 0)
  else
    let cool := (level = 4 && decide (t < 99 * 16)) || (level = 6 && decide (t < 92 * 16))
    if !cool then (level, 0)
    else if below + 1 ≥ 50 then (level + 2, 0)
    else (level, below + 1)

/-- The highest of a cluster's sensors and its number. -/
def hottest (l : List Int) : Int × Nat :=
  ((List.range l.length).zip l).foldl (fun (a : Int × Nat) e => if e.2 > a.1 then (e.2, e.1) else a) (l.headD 0, 0)

/-- A thermal trip (R463): THERMAL_TRIP, the fault bell of a running partition, the tiles stop, the switches open. -/
def State.trip (s : State) (c sensor : Nat) (t : Int) : State :=
  let pay := sensor * 2 ^ 62 + tempField t * 2 ^ 32
  let s := match s.partOfCluster c with
    | some p => s.unitFault p 0x0607 3 (unitId 1 c) pay .hardware 0
    | none => s.raiseDev 0x0607 3 (unitId 1 c) pay
  let s : State := { s with power := { s.power with thermalStep := min 7 (s.power.step + 1) } }
  let s := s.powerDownBegin c
  s.modCluster c fun k => { k with tripped := true, tripAt := s.now }

/-- CLUSTER_TEMP_SAMPLE (R3, R433, R462, R463): of a cluster of an enabled stripe, temperatures in sixteenths of a degree. A trip during a power-up waits for its end. -/
def execClusterTempSample (cluster : Nat) (temps : List Int) (s : State) : Res :=
  if !s.stripeOn (cluster / 36) then .next s else
  let h := hottest temps
  let k := s.cluster cluster
  let n := thermalNext k.thermal k.below h.1
  let s := s.modCluster cluster fun x => { x with temps := temps, thermal := n.1, below := n.2 }
  let s := if n.1 ≠ k.thermal then
      (s.clusterEvent cluster 0x0606 1 (n.1 * 2 ^ 60 + tempField h.1 * 2 ^ 32)).askCadence cluster
    else s
  if h.1 ≥ 110 * 16 ∧ ((k.power ∧ !k.tripped) ∨ (k.rising ∧ !k.downHeld)) then .next (s.trip cluster h.2 h.1) else .next s

/-- THERMAL_RECOVERY (R464): below 90 °C the cluster is powered up; not cooled within 2 s, the run stops with ACTION 7. -/
def execThermalRecovery (cluster : Nat) (temp : Int) (s : State) : Res :=
  let k := s.cluster cluster
  if !k.tripped || s.boot.poweredOff then .next s
  else if temp < 90 * 16 then .next (s.powerUpBegin cluster 0 none)
  else if s.now - k.tripAt > 2000000000 then
    match s.partOfCluster cluster with
    | none => .next s
    | some p => .next (s.modPart p fun q => { q with recoveryTimeout := running q.st })
  else .next s

/-! Margins (R450 to R453) -/

/-- Mark step `n` and every faster step unavailable (R453). [DESIGN CHOICE, log entry 65] -/
def State.markStep (s : State) (n : Nat) : State :=
  if s.flash.stepsUnavailable.getLsbD n then s
  else
    let f := { s.flash with stepsUnavailable := s.flash.stepsUnavailable ||| BitVec.ofNat 8 (2 ^ (n + 1) - 1) }
    ({ s with flash := f }).logRepair 5 4 0x0605 n 0

/-- MARGIN_REPORT (R3, R451 to R453): of a cluster of an enabled stripe. -/
def execMarginReport (cluster monitor mv : Nat) (s : State) : Res :=
  if !s.stripeOn (cluster / 36) then .next s else
  let mv := min mv 255
  let s := s.modCluster cluster fun k => { k with margins := tset k.margins monitor mv }
  if mv ≥ 25 then .next s
  else
    let n := s.power.step
    let off := tget 0 (s.cluster cluster).offsets n
    let bad := decide (off ≥ 20) || decide (s.voltage cluster n + 5 > 850)
    let s := if bad then s.markStep n
      else s.modCluster cluster fun k => { k with offsets := tset k.offsets n (off + 5) }
    let off' := tget 0 (s.cluster cluster).offsets n
    .next (s.clusterEvent cluster 0x0605 2 (monitor * 2 ^ 62 + mv * 2 ^ 48 + off' * 2 ^ 40 + n * 2 ^ 36 + b01 bad * 2 ^ 32))

/-! The power cap (R460, R461) -/

/-- Sum and count of the last `n` values. [DEDUCED, log entry 63] -/
def lastSum (l : List Nat) (n : Nat) : Nat × Nat :=
  let k := l.drop (l.length - n)
  (k.foldl (· + ·) 0, k.length)

/-- Set or release the cadence backstop (R461). -/
def State.setBackstop (s : State) (on : Bool) : State :=
  if s.power.backstop = on then s
  else
    let s : State := { s with power := { s.power with backstop := on, overCount := if on then s.power.overCount else 0 } }
    let s := each ((List.range 288).filter fun c => (s.cluster c).power) (fun c st => st.askCadence c) s
    s.raiseDev 0x0603 2 (unitId 0xA 0) (s.power.p1 * 2 ^ 32 + b01 on)

/-- The step of R445's terms other than the cap. -/
def State.otherStep (s : State) : Nat := max s.power.minStep (max s.fastest s.thermalHold)

/-- P10 is above EFFECTIVE_W. -/
def State.overCap (s : State) : Bool :=
  let a := lastSum s.power.p1s 10
  decide (a.1 > s.effectiveW * a.2)

/-- The cap's request, one step slower or one step faster (R460). -/
def State.capRequest (s : State) : State :=
  let w := s.effectiveW
  let a := lastSum s.power.p1s 10
  let b := lastSum s.power.p1s 100
  let since : Option Nat → Nat → Bool := fun t ns => match t with
    | none => true
    | some u => decide (s.now ≥ u + ns)
  if s.overCap || decide (s.power.p1 > w + 3000) then
    if since s.power.lastSlow 10000000 then
      let pw := { s.power with capStep := max s.otherStep (min 7 (s.power.step + 1)), lastSlow := some s.now }
      ({ s with power := pw }).raiseDev 0x0602 1 (unitId 0xA 0) (a.1 / max 1 a.2 * 2 ^ 32 + w)
    else s
  else if decide (100 * b.1 < 85 * w * b.2) && since s.power.lastFast 100000000 && since s.power.lastSlow 1000000000
      && decide (s.otherStep < s.power.capStep) then
    { s with power := { s.power with capStep := s.power.capStep - 1, lastFast := some s.now } }
  else s

/-- POWER_CAP_EVAL (R456, R460, R461): `input` is what the hot-swap controller measured over the millisecond that ended, in mV and mA;
P1 is their product in W, rounded down. [DESIGN CHOICE, log entry 172] -/
def execPowerCapEval (input : Nat × Nat) (s : State) : Res :=
  let s := s.inputAt input.1
  let p1 := input.1 * input.2 / 1000000
  let l := s.power.p1s ++ [p1]
  let s : State := { s with power := { s.power with p1 := p1, p1s := l.drop (l.length - 100), iinMa := input.2 } }
  let s := s.capRequest
  let late := s.overCap && decide (s.power.capStep > s.power.step)
  let n := if late then s.power.overCount + 1 else 0
  let s : State := { s with power := { s.power with overCount := n } }
  if p1 > 21000 ∨ n ≥ 10 then .next (s.setBackstop true)
  else if s.power.capStep ≤ s.power.step then .next (s.setBackstop false)
  else .next s

/-! Phases (R457 to R459) -/

/-- ceil(20 × a / b). -/
def ceil20 (a b : Nat) : Nat := (20 * a + b - 1) / b

/-- A POWER_PLAN entry applies to a tide (R457). -/
def PowerEntry.applies (e : PowerEntry) (mark : Bool) : Bool :=
  e.tides = 0 || (e.tides = 1 && mark) || (e.tides = 2 && !mark)

/-- The largest LEVEL a plan reaches between cycles `a` and `b` of its tide. -/
def planLevel (l : List PowerEntry) (mark : Bool) (a b : Nat) : Nat :=
  let m := l.filter fun e => PowerEntry.applies e mark
  let cur := (m.filter fun e => decide (e.offsetCc ≤ a)).getLast?
  let now := match cur with
    | some e => e.level
    | none => 0
  (m.filter fun e => decide (a < e.offsetCc) && decide (e.offsetCc ≤ b)).foldl (fun n e => max n e.level) now

/-- The largest LEVEL partition `p` reaches within the next 20 µs: in its running tide, or from its next start. -/
def State.levelSoon (s : State) (p : Nat) : Nat :=
  let q := s.part p
  let u := cycleUnits s.power.step
  let w := 20000 * nsUnits
  let mark := markTideOf (s.params p) q.tide
  match q.image with
  | none => 0
  | some b =>
    if (q.st = .open_ && !q.awaiting) || q.st = .closing then
      let a := (s.time - q.startT) / u
      planLevel b.power mark a (a + w / u)
    else if q.st = .boundary && decide (q.nextStartT ≤ s.time + w) then
      planLevel b.power mark 0 ((s.time + w - q.nextStartT) / u)
    else 0

/-- PHASE_STAGING (R458): the phases each module keeps active, at the load the firmware foresees. -/
def execPhaseStaging (s : State) : Res :=
  let plan := s.runningParts.foldl (fun n p => max n (ceil20 (s.levelSoon p * (s.part p).stripeCount) (1024 * max 1 s.stripes))) 0
  let heavy := (s.tiles.filter fun t => t.2.heavy).length
  let n := max (ceil20 s.power.p1 18000) (max plan (ceil20 heavy (10080 * max 1 s.stripes)))
  .next { s with power := { s.power with activePhases := min 16 (max 4 n) } }

/-- PHASE_LOSS (R459): a phase is shed; the eighth of a module takes the module off. -/
def execPhaseLoss (phase : Nat) (s : State) : Res :=
  if s.flash.phasesLost.contains phase || phase ≥ 384 then .next s
  else
    let m := phase / 16
    let lost := s.flash.phasesLost ++ [phase]
    let off := decide ((lost.filter fun f => f / 16 = m).length ≥ 8)
    let lost := if off then lost ++ ((List.range 16).map (16 * m + ·)).filter fun f => !lost.contains f else lost
    let s : State := { s with
      flash := { s.flash with phasesLost := lost }
      power := { s.power with modulesOff := if off then s.power.modulesOff ++ [m] else s.power.modulesOff } }
    let s := s.logRepair 4 4 0x0604 phase 0
    let w := s.effectiveW
    let s := s.raiseDev 0x0604 2 (unitId 0xA phase) (s.lostPhases * 2 ^ 48 + b01 off * 2 ^ 47 + w)
    if w < 3000 then .next (s.emergencyOff effecterCause) else .next s

/-! Clocks (R441, R442, R446 to R449) -/

/-- PLL_LOCK_LOSS (R441, R442): 0 root, 1 to 24 compute-die, 25 to 36 field generators; `standby` names the synthesiser that lost lock.
A field generator whose first synthesiser loses lock is taken over by its second. [DEDUCED, log entry 118] -/
def execPllLockLoss (index : Nat) (standby : Bool) (s : State) : Res :=
  let g := tget {} s.power.gens index
  let lost := g.lost ++ [xor g.second standby]
  let put := fun (g : Generator) => { s with power := { s.power with gens := if index = 0 then s.power.gens else tset s.power.gens index g } }
  if index ≥ 25 ∧ !standby ∧ g.lost.isEmpty then .next (put { g with lost := lost, second := !g.second })
  else
    let c : FaultCause := { kind := .stop, code := 0x060B, unit := unitId 0xB index, act := 8 }
    let s := (put { g with lost := lost }).raiseDev 0x060B 4 (unitId 0xB index) (b01 standby)
    let s : State := { s with power := { s.power with
      clockFailed := true, pllLocked := s.power.pllLocked && decide (index ≠ 0), gensLocked := s.power.gensLocked && decide (index = 0) } }
    .next (each s.runningParts (fun p st => st.addCause p c) s)

/-- REGULATOR_SETTLED (R446): every cluster regulator holds the voltage of the faster step the device wants. -/
def execRegulatorSettled (s : State) : Res :=
  let own := s.ownStep.1
  if own < s.power.step then .next { s with power := { s.power with rising := some own } } else .next s

/-- The latest commit point among the running partitions (R448). -/
def State.latestCommit (s : State) : Nat := s.runningParts.foldl (fun m p => max m (s.part p).commitT) 0

/-- The switch may take place: no running partition is in a tide, each is in its boundary gap or waits there for a start or a replay, and
512 cc have passed since the latest commit point, or none runs (R447 to R449). -/
def State.switchReady (s : State) : Bool :=
  s.runningParts.all (fun p => (s.part p).inGap)
    && (s.runningParts.isEmpty || decide (s.latestCommit + 512 * cycleUnits s.power.step ≤ s.time))

/-- Every compute-die generator's standby synthesiser, set to N of step `n`, is exchanged with the active one (R447). -/
def Power.exchange (w : Power) (n : Nat) : Power :=
  { w with gens := (List.range 24).foldl (fun l i =>
      let g := tget {} l (i + 1)
      tset l (i + 1) { g with active := stepN n, standby := stepN w.step, second := !g.second }) w.gens }

/-- A partition's next start and stretch after a switch from cycle length `u` to `v` in its gap; `cl` is the latest commit
point (R223, R447, R448). -/
def Partition.onSwitch (q : Partition) (nominal u v cl : Nat) : Partition :=
  let n := max (q.startAfter nominal u v) (cl + 512 * (u + v))
  ({ q with nextStartT := n } : Partition).stretched ((n - (q.startT + nominal * u)) / u)

/-- CAUSE of STEP_CHANGED (R467): the move at READY, the device's own reason, or another member's request. -/
def State.stepCause (s : State) (n : Nat) : Nat :=
  if !s.power.moved then 5 else if s.ownStep.1 = n then s.ownStep.2 else 4

/-- CLOCK_SWITCH (R447 to R449). -/
def execClockSwitch (s : State) : Res :=
  let n := s.stepWanted
  if n = s.power.step || !s.ready || !s.switchReady then .next s
  else
    let u := cycleUnits s.power.step
    let v := cycleUnits n
    let cl := s.latestCommit
    let old := s.power.step
    let cause := s.stepCause n
    let s := each (s.runningParts.filter fun p => !(s.part p).firstWait) (fun p st => st.modPart p fun q =>
      q.onSwitch (nominalOf (st.params p) (q.tide - 1)) u v (if q.inJob then q.commitT else cl)) s
    let s : State := { s with power := { s.power.exchange n with step := n, rising := none, moved := true } }
    let s := (s.raiseDev 0x0601 0 (unitId 0xB 0) (old * 2 ^ 60 + n * 2 ^ 56 + cause * 2 ^ 48)).freqApplied
    if s.power.capStep ≤ n then .next (s.setBackstop false) else .next s

/-! Staged switching (R426, R455) -/

/-- A cluster reset (R426): every tile, the 16 bell channels and the collector's counts. -/
def State.startClusterReset (s : State) (c : Nat) : State :=
  let s := each (s.tilesOfCluster c) (fun t st => (st.modTile t fun x => { tileResetOf x with inReset := true }).signalAbsorb t) s
  (s.modCluster c fun k => { k with bellChan := [], passed := [] }).beginReset 1 c

/-- CLUSTER_POWER_DOWN_DONE (R455): the switches are open; a power-up that waited for it begins. -/
def execClusterPowerDownDone (cluster : Nat) (s : State) : Res :=
  let k := s.cluster cluster
  if !k.switching || k.rising then .next s
  else .next (s.modCluster cluster fun x => { x with switching := false }).fillSlots

/-! Telemetry (R368, R409, R410) -/

/-- The 64 bytes of a telemetry record (R410); bytes 4 to 7 are named by no field and are 0. -/
def TelemetryRec.bytes (r : TelemetryRec) : List Byte :=
  leBytes 2 r.kind ++ leBytes 2 r.index ++ leBytes 4 0 ++ leBytes 8 r.ts ++ ((List.range 48).map fun i => r.data.getD i 0)

/-- One record to the telemetry ring, or a count of it (R368). [DEDUCED, log entry 66] -/
def State.tlrPut (s : State) (kind index : Nat) (data : List Byte) : State :=
  let r := s.tlr
  if !r.en || !s.link.access then s
  else if r.free = 0 then { s with tlr := { r with dropped := sat (r.dropped + 1) 0xFFFFFFFF } }
  else
    let a := r.base + 64 * (r.producer % 2 ^ r.logSize)
    ({ s with
        posted := s.posted ++ [Posted.telemetry a (TelemetryRec.bytes { kind := kind, index := index, ts := s.now, data := data })]
        tlr := { r with producer := (r.producer + 1) % 2 ^ 32, unsignalled := true } }).signalRing true false

/-- Clusters at a cadence below 8 of 8. -/
def State.throttled (s : State) : Nat := ((List.range 288).filter fun c => decide ((s.cluster c).cadence < 8)).length

/-- P_IN, the mean of the last 1 ms. -/
def State.powerIn (s : State) : Nat := s.power.p1

/-- A temperature sensor by its number (R410). -/
def State.sensor (s : State) (n : Nat) : Int :=
  if n < 1152 then (s.cluster (n / 4)).temps.getD (n % 4) 0
  else if n < 1168 then (s.memport (n - 1152)).temp
  else 0

/-- POWER_QUERY bytes 8 to 23 (R409). -/
def State.powerRec (s : State) : List Byte :=
  leBytes 4 s.power.vinMv ++ leBytes 4 s.power.iinMa ++ leBytes 4 s.powerIn ++ leBytes 1 s.power.step ++ leBytes 1 s.power.minStep
    ++ leBytes 2 s.lostPhases

/-- The power figures of POWER_QUERY (R409, R415). -/
def State.powerFigures (s : State) : List Nat :=
  [s.power.capW, s.effectiveW, s.power.vinMv, s.power.iinMa, s.powerIn, s.power.step, s.power.minStep, s.lostPhases, s.throttled]

/-- TELEMETRY_PERIOD (R410): `currents` gives the mean current of each domain in units of 10 mA. -/
def execTelemetryPeriod (currents : List Nat) (s : State) : Res :=
  let s : State := { s with power := { s.power with currents := currents } }
  let cur := fun (n : Nat) => if n ≤ 317 then min (currents.getD n 0) 65535 else 0
  let s := if s.telemetryKinds.getLsbD 0 then
      each (List.range 14) (fun i st => st.tlrPut 0 i ((List.range 24).flatMap fun n => leBytes 2 (cur (24 * i + n)))) s
    else s
  let s := if s.telemetryKinds.getLsbD 1 then
      each (List.range 49) (fun i st => st.tlrPut 1 i ((List.range 24).flatMap fun n => leBytes 2 ((st.sensor (24 * i + n)) % 65536).toNat)) s
    else s
  .next (if s.telemetryKinds.getLsbD 2 then s.tlrPut 2 0 s.powerRec else s)

end Sys2Proof.Machine
end

