-- ==== Sys2Proof/Machine/HostLink.lean ====
section
/-!
DEFINITION. The host link (spec/13_cxl_interface.md R354 to R380): resets that reach the device through it, loss of access to
host memory and its return, CXL.cache, IDE, MSI-X.
-/

namespace Sys2Proof.Machine

/-- Access to host memory is lost (R378): HOST_LINK_DOWN, cached lines dropped, every running partition stops at its next
stop point. -/
def State.loseAccess (s : State) (cause : Nat) : State :=
  if !s.link.access then s
  else
    let s : State := { s with link := { s.link with access := false, lost := true, eventsHeld := true, lines := [], stale := [] } }
    let s := s.raiseDev 0x0902 3 cxlUnit (cause * 2 ^ 60)
    each s.runningParts (fun p st => st.requestStop p) s

/-- A host-interface reset (R363): command register, MSI-X table, ring controls, ring-head cache and IDE keys are cleared. [DEDUCED, log entry 67] -/
def State.hostReset (s : State) : State :=
  let s := s.loseAccess 1
  let clear := fun (r : Ring) => { r with baseLo := 0, baseHi := 0, en := false, minSev := 0, coalesceUs := 0, logSize := 6 }
  { s with
    link := { s.link with busMaster := false, d3hot := false, cacheEnable := false, cacheLag := [], uioEnable := false
                          ideOn := false, ideFailed := false, msixEnable := false, msixMask := 0xFFFFFFFFFFFFFFFF
                          msixPending := 0, msixTable := [], barBase := [], skid := false, lines := [], stale := [] }
    evr := clear s.evr, tlr := clear s.tlr }

/-- Every condition of access to host memory holds (R378, R380, R384). -/
def State.mayAccess (s : State) : Bool :=
  s.link.trained && s.link.busMaster && !s.link.d3hot && !s.link.ideFailed && !s.pins.perst

/-- Completion records held in all partitions. [DEDUCED, log entry 99] -/
def State.heldRecords (s : State) : Nat := s.parts.foldl (fun n p => n + p.2.holdArea.length) 0

/-- Access to host memory returns (R380): held events, held completion records, cached lines, HOST_LINK_UP. -/
def State.regainAccess (s : State) : State :=
  if s.link.access || !s.mayAccess then s
  else
    let was := s.link.lost
    let s : State := { s with link := { s.link with access := true, lost := false } }
    if !was then s.readLines
    else
      let s := s.writeHeldEvents
      let n := s.heldRecords
      let s := each (List.range 8) (fun p st =>
        (st.modPart p fun q => { q with completions := q.holdArea ++ q.completions, holdArea := [] }).flushRecords p) s
      s.readLines.raiseDev 0x0903 1 cxlUnit (sat n 0xFFFFFFFF)

/-- A device reset is announced on every port that is up (R428); DEVICE_RESET_BEGIN follows. -/
def State.announceDeviceReset (s : State) : State :=
  if s.boot.announced then s
  else ({ s with boot := { s.boot with announced := true } }).announceReset

/-- PERST_ASSERT (R363, R428): a device reset with a host-interface reset. -/
def execPerstAssert (s : State) : Res :=
  let s := s.hostReset
  .next (State.announceDeviceReset { s with pins := { s.pins with perst := true }, link := { s.link with trained := false } })

/-- A width and rate the link trains at (R355). -/
def linkOk (width rate : Nat) : Bool := [8, 4, 2, 1].contains width && [64, 32, 16, 8].contains rate

/-- PERST_DEASSERT (R355, R384, R532): with power good the link trains, in 256-byte flit mode or not at all. -/
def execPerstDeassert (width rate : Nat) (flit256 : Bool) (s : State) : Res :=
  if !s.pins.perst || !s.pins.pwrgd then .next s
  else
    let ok := flit256 && linkOk width rate
    .next { s with
      pins := { s.pins with perst := false }
      link := { s.link with trained := ok, width := if ok then width else 0, rate := if ok then rate else 0 } }

/-- HOT_RESET (R363): a host-interface reset. -/
def execHotReset (s : State) : Res := .next s.hostReset

/-- FUNCTION_LEVEL_RESET (R363): a host-interface reset. -/
def execFunctionLevelReset (s : State) : Res := .next s.hostReset

/-- HOST_LINK_LOSS (R378). -/
def execHostLinkLoss (s : State) : Res :=
  let s := s.loseAccess 0
  .next { s with link := { s.link with trained := false } }

/-- BUS_MASTER_DISABLE (R378). -/
def execBusMasterDisable (s : State) : Res :=
  let s := s.loseAccess 2
  .next { s with link := { s.link with busMaster := false } }

/-- D3HOT_ENTRY (R378). -/
def execD3hotEntry (s : State) : Res :=
  let s := s.loseAccess 3
  .next { s with link := { s.link with d3hot := true } }

/-- BUS_MASTER_ENABLE (R380, R384). -/
def execBusMasterEnable (s : State) : Res := .next (State.regainAccess { s with link := { s.link with busMaster := true } })

/-- D3HOT_EXIT (R380): back in D0 with bus mastering enabled. -/
def execD3hotExit (s : State) : Res :=
  if !s.link.d3hot then .next s
  else .next (State.regainAccess { s with link := { s.link with d3hot := false, busMaster := true } })

/-- LINK_RETRAIN (R356): another width or rate raises HOST_LINK_RETRAIN; the same ones are only counted. A link that was down
is up again. [DEDUCED, log entry 68] -/
def execLinkRetrain (width rate : Nat) (s : State) : Res :=
  if s.pins.perst || !(linkOk width rate) then .next s
  else if s.link.trained ∧ s.link.width = width ∧ s.link.rate = rate then
    .next { s with link := { s.link with recoveries := s.link.recoveries + 1 } }
  else
    let was := s.link.trained
    let s : State := { s with link := { s.link with trained := true, width := width, rate := rate } }
    if was then .next (s.raiseDev 0x0901 1 cxlUnit (width * 2 ^ 56 + rate * 2 ^ 48)) else .next s

/-- IDE_INTEGRITY_FAILURE (R377): flits are discarded until new keys are programmed. -/
def execIdeIntegrityFailure (s : State) : Res :=
  if !s.link.ideOn || s.link.ideFailed then .next s
  else
    let s := s.loseAccess 4
    .next { s with link := { s.link with ideFailed := true } }

/-- IDE_KM_KEY_PROGRAM (R376, R377): over a secured SPDM session. [DEDUCED, log entry 69] -/
def execIdeKmKeyProgram (s : State) : Res :=
  if s.spdm.sessions.any fun e => e.2 then
    .next (State.regainAccess { s with link := { s.link with ideOn := true, ideFailed := false } })
  else .next s

/-- CACHE_ENABLE_CHANGE (R374): at once for what does not run, at its next stop point for each partition that runs. -/
def execCacheEnableChange (enable : Bool) (s : State) : Res :=
  let lag := s.runningParts.map fun p => (p, s.cacheAt p)
  let s' : State := { s with link := { s.link with cacheEnable := enable, cacheLag := lag } }
  .next (s'.readLinesOf fun k => !(lag.any fun e => s.keyPart k = some e.1))

/-- MSIX_UNMASK (R369). -/
def execMsixUnmask (vector : Nat) (s : State) : Res :=
  if vector ≥ 64 then .next s
  else
    let m := ~~~(BitVec.ofNat 64 (2 ^ vector))
    let pend := s.link.msixPending.getLsbD vector
    let s : State := { s with link := { s.link with msixMask := s.link.msixMask &&& m, msixPending := s.link.msixPending &&& m } }
    if pend then .next (s.msix vector) else .next s

/-- EVENT_COALESCE_TIMER (R369): vector 9 for events, 10 for telemetry. -/
def execEventCoalesceTimer (vector : Nat) (s : State) : Res :=
  if vector = 9 ∨ vector = 10 then .next (s.signalRing (vector = 10) false) else .next s

end Sys2Proof.Machine
end

