-- ==== Sys2Proof/Machine/Resets.lean ====
section
/-!
DEFINITION. Device resets, loss of input power, unit resets and the black box's flash copies (spec/15_bringup_reset.md R419,
R426 to R430; spec/17_reliability.md R488 to R492).
-/

namespace Sys2Proof.Machine

/-! The black box's flash copies (R430, R490) -/

/-- The flash slot `n`. -/
def Flash.slot (f : Flash) (n : Nat) : BbSlot := if n = 0 then f.bb0 else f.bb1

/-- Flash slot `n` written. -/
def Flash.setSlot (f : Flash) (n : Nat) (b : BbSlot) : Flash := if n = 0 then { f with bb0 := b } else { f with bb1 := b }

/-- The image in a slot: the log up to the trigger record, of which new events have pushed the oldest out, and the capture. -/
def State.bbImage (s : State) (trigger : Option EventRec) (newer : Nat) : BbSlot :=
  let l := s.bb.log.take (s.bb.log.length - newer)
  { valid := true, seq := 1 + max s.flash.bb0.seq s.flash.bb1.seq, count := l.length, trigger := trigger, events := l
    capture := s.bb.capture }

/-- A flash copy ends: the header is written last (R490). -/
def State.finishCopy (s : State) : State :=
  match s.bb.copying with
  | none => s
  | some c => { s with flash := s.flash.setSlot c.1 (s.bbImage c.2.1 c.2.2), bb := { s.bb with copying := none } }

/-- BLACKBOX_COPY_DONE (R490, R493). -/
def execBlackboxCopyDone (s : State) : Res :=
  match s.bb.copying with
  | none => .next s
  | some c =>
    let s := s.finishCopy
    .next (s.raiseDev 0x070D 1 mgmtUnit (c.1 * 2 ^ 48 + (s.flash.slot c.1).count))

/-! Firmware banks (R402, R424, R505) -/

/-- The two banks exchanged. -/
def Flash.swap (f : Flash) : Flash := { f with bankB := !f.bankB, running := f.other, other := f.running }

/-- The bank on trial is given up for its fallback (R402): ROLLED_BACK. -/
def Flash.revert (f : Flash) : Flash := if f.onTrial then { f.swap with onTrial := false, rolledBack := true } else f

/-! Device reset (R403, R419, R426 to R429) -/

/-- A partition as the reset leaves it for the warm path: its runs are abandoned, its tide state stays. -/
def Partition.retained (q : Partition) : Partition :=
  if q.st = .none then q
  else
    { q with
      st := if q.image.isSome then .loaded else .empty
      stopPending := false, stopMbx := none, enableHeld := none, heldSingle := false, single := none, startMbx := none
      startT := 0, commitT := 0, nextStartT := 0, commitTs := 0
      inJob := false, replaying := false, replays := 0, freeAbandons := 0, canaryAbandons := [], awaiting := false
      bellReady := false, resultsIn := false, faultBell := false, halted := false, cause := none, causes := [], stallSeen := [], named := []
      hbmRows := [], settled := false, recovered := false, restoreAll := false, exhausted := none, recoveryTimeout := false
      markLost := false, verdicts := [], results := [], admitted := [], nextAdmitted := [], admitTide := none
      tablesDue := false, unreserved := 0, cleared := false, tierRan := false, completions := [], holdArea := [], reserved := 0, streamCmds := [], pageCmds := [], moves := [], moveQueue := []
      bwWest := {}, bwEast := {}, plans := q.plans.map fun e => (e.1, ({ accum := e.2.accum } : PlanState)) }

/-- A cluster as a device reset leaves it: only the voltage offsets, which stand in flash (R452). -/
def resetCluster (k : Cluster) : Cluster := { offsets := k.offsets }

/-- The hot-swap controller's time in ns: it goes on over a device reset and a loss of input power (R531, R534). -/
def State.pinNow (s : State) : Nat := s.pinClock + s.time / nsUnits

/-- What stands outside the device or in flash and fuses: it stays over a device reset and a loss of input power. [DESIGN CHOICE, log entry 72] [DESIGN CHOICE, log entry 75] -/
def State.lasting (s : State) : State :=
  { pending := s.pending, freeCtr := s.freeCtr, sent := s.sent, fuses := s.fuses, flash := s.flash, pins := s.pins
    pinClock := s.pinNow, cxl := s.cxl, clusters := s.clusters.map fun c => (c.1, resetCluster c.2)
    power := { vinMv := s.power.vinMv, iinMa := s.power.iinMa } }

/-- A page as the reset leaves it: a move that ran is undone, a tentative fill dropped. -/
def Page.retained (g : Page) : Page :=
  match g.st with
  | .demoting => { g with st := .hbm, tfill := g.cfill }
  | .promoting => { g with st := .cxl, tfill := g.cfill }
  | .pinned => { g with st := .hbm, tfill := g.cfill }
  | _ => g

/-- A stream as the reset leaves it: nothing read and not committed is kept. -/
def Stream.retained (x : Stream) : Stream :=
  { x with
    st := match x.st with
      | .active => .open_
      | y => y
    enableHeld := false, heldCmd := none, parking := false, ringEntries := [], prompt := [], promptRef := none, linkDrafts := none
    promptLeft := 0, producerSeen := x.consumer }

/-- Every enabled stack is trained and powered, so it enters self-refresh at the reset. -/
def State.stacksGood (s : State) : Bool :=
  (List.range 16).all fun m => !(s.fuses.stripeMap.getLsbD (m % 8)) || s.withdrawn.getLsbD (m % 8)
    || ((s.memport m).trained && !(s.memport m).tripped)

/-- The job as a device reset leaves it: gone, but for the reset of a firmware activation (R403, R413). -/
def Job.afterReset (b : Job) (activation : Bool) : Job :=
  if activation then { b with formed := false, formingStep := 0, formMbx := none, leaveMbx := none, left := true
                              onRecovered := false, beat := false, rx := [], chanBlocks := [] }
  else {}

/-- A device reset (R363, R403, R419, R426 to R430): everything but retained state, the black box, flash and fuses. The
link stays as it is; the ring controls do not. -/
def State.deviceReset (s : State) : State :=
  let flash := if s.boot.activation then s.flash else s.flash.revert
  let good := s.stacksGood && !s.boot.poweredOff
  { s.lasting with
    flash := flash
    link := { s.link with lines := [], stale := [], lost := false, cacheLag := [], eventsHeld := false, badAccess := 0, recoveries := 0
                          component := [] }
    bb := s.bb
    dbg := { s.dbg with nonce := none, snap := none, live := false, selected := 0, ignored := 0 }
    hbm := s.hbm
    memports := s.memports.map fun m => (m.1, ({ inSelfRefresh := m.2.trained } : MemPort))
    parts := s.parts.map fun p => (p.1, p.2.retained)
    streams := s.streams.map fun x => (x.1, x.2.retained)
    pages := s.pages.map fun g => (g.1, g.2.retained)
    windows := s.windows
    i3cUp := s.i3cUp
    job := s.job.afterReset s.boot.activation
    boot := { lastWasDeviceReset := true, wasReady := s.ready, powerSteady := true, selfRefreshed := good
              epoOrTrip := s.boot.epoOrTrip, fuseChanged := false, poweredOff := s.boot.poweredOff && !s.boot.byBoot } }

/-- Retained state is valid for the warm path (R419). -/
def Boot.retainedValid (b : Boot) : Bool :=
  b.lastWasDeviceReset && b.powerSteady && b.wasReady && b.selfRefreshed && !b.epoOrTrip && !b.fuseChanged

/-- DEVICE_RESET_BEGIN (R428): 10 µs after the announcement. [DESIGN CHOICE, log entry 73] -/
def execDeviceResetBegin (s : State) : Res := if s.boot.announced then .next s.deviceReset else .next s

/-- A write to BOOT_RESET (R362, R416, R428): the value 0xA5 announces a device reset; other values are ignored. -/
def State.bootReset (s : State) (v : Nat) : State :=
  if v = 0xA5 then State.announceDeviceReset { s with boot := { s.boot with byBoot := s.boot.byBoot || !s.boot.announced } } else s

/-- BOOT_RESET (R362, R428). -/
def execBootReset (value : Word) (s : State) : Res := if s.hostReaches then .next (s.bootReset value.toNat) else .next s

/-- Loss of input power (R466, R531): nothing but flash and fuses is left; PERST# is asserted by the chassis. -/
def State.powerLoss (s : State) : State :=
  { s.lasting with
    flash := s.flash.revert
    pins := { s.pins with pwrgd := false, attn := false, switchOn := false, opening := false, powering := false, perst := true }
    boot := { powerSteady := false } }

/-! Unit resets (R426, R427) -/

/-- Tiles a unit reset covers. -/
def State.resetTiles (s : State) (scope index : Nat) : List TileId :=
  match scope with
  | 0 => [index]
  | 1 => s.tilesOfCluster index
  | _ => s.tilesOf index

end Sys2Proof.Machine
end

