-- ==== Sys2Proof/Machine/Boot.lean ====
section
/-!
DEFINITION. Bring-up (spec/15_bringup_reset.md R417 to R425, R434 to R436): the twelve steps. A step's command does its work
while BOOT_STEP_STATUS shows it BUSY; its operands give what the step measures or finds. BOOT_STEP_COMPLETE ends it.
-/

namespace Sys2Proof.Machine

/-- Step `n` runs and has not done its work. -/
def State.inStep (s : State) (n : Nat) : Bool := s.boot.state = 1 && s.boot.stStep = n && !s.boot.workDone

/-- The running step has done its work: the cause it fails with, or none. -/
def State.stepDone (s : State) (cause : Option Nat) : State :=
  { s with boot := { s.boot with workDone := true, failCause := cause } }

/-- µs since the last GO (BOOT_ELAPSED, R362): 0 before the first; a step of the timestamp clock does not move it. -/
def State.bootElapsed (s : State) : Nat :=
  match s.boot.goTime with
  | none => 0
  | some t => sat ((s.time - t) / nsUnits / 1000) 0xFFFFFFFF

/-- PATH of BOOT_STEP_DONE (R425). -/
def Boot.path (b : Boot) : Nat := if b.pathWarm then 3 else 2 - b.pathLevel

/-- An event of bring-up: those of steps 1 to 4 are raised when MGMT_BOOT completes (R425). -/
def State.bootEvent (s : State) (code sev unit payload : Nat) : State :=
  if s.boot.stStep < 5 then
    { s with boot := { s.boot with early := s.boot.early ++
      [{ code := code, sev := sev, unit := unit, payload := BitVec.ofNat 64 payload }] } }
  else s.raiseDev code sev unit payload

/-- BOOT_STEP_REQ.GO (R417, R418): the step starts only in its turn, or as a retry of the failed one. -/
def State.bootGo (s : State) (n : Nat) : State :=
  let b := s.boot
  let turn := (b.state = 0 || b.state = 2) && decide (n = b.reached + 1) && decide (n ≤ 12)
  let retry := b.state = 3 && b.stStep = n
  if !turn && !retry then s
  else
    let b := if n = 1 then { b with pathWarm := b.warm, pathLevel := b.memLevel } else b
    { s with boot := { b with state := 1, stStep := n, error := 0, goTime := some s.time, workDone := false, failCause := none } }

/-- A write to BOOT_STEP_REQ (R362, R418). -/
def State.writeStepReq (s : State) (v : Nat) : State :=
  let go := bit v 31
  let step := bits v 3 0
  let hold := go && decide (step ≠ 1)
  let b := { s.boot with
    step := step
    warm := if hold then s.boot.warm else bit v 7
    memLevel := if hold then s.boot.memLevel else bits v 9 8 }
  let s : State := { s with boot := b }
  if go then s.bootGo step else s

/-- Withdraw a stripe found defective in bring-up (R423, R425). -/
def State.bootWithdraw (s : State) (sg cause : Nat) : State :=
  if s.withdrawn.getLsbD sg then s
  else (s.withdraw sg 0 0 0).bootEvent 0x0104 3 (unitId 2 sg) (s.boot.stStep * 2 ^ 60 + cause * 2 ^ 56)

/-- Every enabled stripe is withdrawn. -/
def State.noStripe (s : State) : Bool := (List.range 8).all fun i => !(s.fuses.stripeMap.getLsbD i) || s.withdrawn.getLsbD i

/-- Steps 6 to 9 fail only when no stripe is left (R423). -/
def State.stripeCheck (s : State) : State := s.stepDone (if s.noStripe then some 1 else none)

/-- The path asked for is one of the four (R418). -/
def Boot.pathOk (b : Boot) : Bool := if b.pathWarm then b.pathLevel = 0 else decide (b.pathLevel ≤ 2)

/-- A temperature sensor reads 60 °C or more. -/
def State.hotSensor (s : State) : Bool := (List.range 1168).any fun n => decide (s.sensor n ≥ 60 * 16)

/-- Debug access closes at a cold start (R513). -/
def closedDebug : Debug := {}

/-- POWER_CHECK (R419, R422, R424, R529): without flash the check does not end, so the step fails on its bound. [DESIGN CHOICE, log entry 71] -/
def execPowerCheck (s : State) : Res :=
  if !s.inStep 1 then .next s
  else if s.power.vinMv < 44000 ∨ s.power.vinMv > 58000 then .next (s.stepDone (some 1))
  else if !s.pins.pwrgd || s.boot.poweredOff then .next (s.stepDone (some 2))
  else if s.hotSensor then .next (s.stepDone (some 3))
  else if !s.flash.present then .next (s.stepDone (some 0xFF))
  else if !s.boot.pathOk then .next (s.stepDone (some 5))
  else if s.boot.pathWarm && !s.boot.retainedValid then .next (s.stepDone (some 4))
  else .next (State.stepDone { s with dbg := if s.boot.pathWarm then s.dbg else closedDebug } none)

/-- The fields of the fuse map that its digest covers, one after another in the order and at the widths of R434.
[DESIGN CHOICE, log entry 152] -/
def Fuses.map (f : Fuses) : List Byte :=
  let trims := f.vminTrim.foldl (fun n e => n ||| e.2 % 64 * 2 ^ (6 * e.1)) 0
  let repairs := f.factoryRepair.foldl (fun n e => n ||| e.2.toNat * 2 ^ (14 * e.1)) 0
  leBytes 5839 (f.serial % 2 ^ 64 + f.deviceId % 2 ^ 16 * 2 ^ 64 + f.stepping % 2 ^ 8 * 2 ^ 80 + f.stripeMap.toNat * 2 ^ 88
    + f.portMap.toNat * 2 ^ 96 + f.hbmGib % 2 ^ 16 * 2 ^ 102 + f.rootKeyDigest.toNat * 2 ^ 118 + trims * 2 ^ 630
    + repairs * 2 ^ 14454)

/-- FUSE_DIGEST is the digest of the map (R434). -/
def Fuses.digestOk (f : Fuses) : Bool := f.digest = sha512 f.map

/-- The variant fields match one row (R435). -/
def Fuses.variantOk (f : Fuses) : Bool :=
  (f.deviceId = 0x0808 && f.stripeMap = 0xFF && f.portMap = 0x3F && f.hbmGib = 576)
    || (f.deviceId = 0x0806 && [0x3F, 0x7E, 0xFC].contains f.stripeMap.toNat && f.portMap = 0x3F && f.hbmGib = 432)
    || (f.deviceId = 0x0804 && [0x0F, 0x1E, 0x3C, 0x78, 0xF0].contains f.stripeMap.toNat && f.portMap = 0x09 && f.hbmGib = 288)

/-- Sites a FACTORY_REPAIR entry disables (R435). -/
def factorySites (k v : Nat) : List (Nat × Nat) :=
  let sg := k / 288
  let y := k % 288
  (if bit v 6 then [(37 * sg + bits v 5 0, y)] else []) ++ (if bit v 13 then [(37 * sg + bits v 12 7, y)] else [])

/-- The repair map: factory entries, field repairs, withdrawn stripes, retired frames (R436). -/
def State.repairMap (s : State) : State :=
  let fac := s.fuses.factoryRepair.flatMap fun e => factorySites e.1 e.2.toNat
  let log := s.flash.repairs
  let field := (log.filter fun r => r.type = 1).map fun r => (r.object % 65536, r.object / 65536)
  let gone := (log.filter fun r => r.type = 2).foldl (fun m r => m ||| 2 ^ r.object) 0
  { s with
    disabled := (fac ++ field).eraseDups, withdrawn := BitVec.ofNat 8 gone
    retired := s.flash.retired.map fun r => r.tier * 2 ^ 30 + r.frame }

/-- Stripes with a segment of three or more disabled sites (R423). -/
def State.overfull (s : State) : List Nat :=
  (List.range 8).filter fun sg => s.fuses.stripeMap.getLsbD sg &&
    s.disabled.any fun d => d.1 / 37 = sg && decide ((s.segDisabled sg d.2).length ≥ 3)

/-- FUSE_APPLY (R422, R434 to R436): an invalid log leaves a cold path with the factory entries only. -/
def execFuseApply (s : State) : Res :=
  if !s.inStep 2 then .next s
  else if !s.fuses.digestOk then .next (s.stepDone (some 1))
  else if !s.fuses.variantOk then .next (s.stepDone (some 2))
  else if s.boot.pathWarm && !s.flash.logValid then .next (s.stepDone (some 3))
  else
    let s := s.repairMap
    .next ((each s.overfull (fun sg st => st.bootWithdraw sg 0) s).stepDone none)

/-- CLOCK_ROOT (R422, R444): the root and the region generators lock at step 7. -/
def execClockRoot (pllLocked gensLocked : Bool) (s : State) : Res :=
  if !s.inStep 3 then .next s
  else
    let s : State := { s with power := { s.power with
      pllLocked := pllLocked, gensLocked := gensLocked, step := 7, moved := false, clockFailed := false, gens := [] } }
    .next (s.stepDone (if !pllLocked then some 1 else if !gensLocked then some 2 else none))

/-- The service SRAM's contents are discarded (R419, R430). -/
def State.clearSram (s : State) : State :=
  { s with bb := {}, streams := [], pages := [], parts := [], windows := [], job := {} }

/-- BASE_UP (R422, R424, R430): on a cold path the black box is first copied to flash if it holds anything new. -/
def execBaseUp (sramOk regsOk : Bool) (s : State) : Res :=
  if !s.inStep 4 then .next s
  else if !sramOk then .next (s.stepDone (some 1))
  else if !regsOk then .next (s.stepDone (some 2))
  else if s.boot.pathWarm then .next (s.stepDone none)
  else
    let s := s.finishCopy
    let s := if s.bb.sinceCopy && !s.bb.log.isEmpty then (s.startCopy none).finishCopy else s
    .next (s.clearSram.stepDone none)

/-- A bank verifies: its signature, and the firmware floor (R505). -/
def Flash.bankOk (f : Flash) (b : FwBank) (ok : Bool) : Bool := ok && b.valid && decide (f.fwFloor ≤ b.version)

/-- MGMT_BOOT (R402, R422, R424, R505). -/
def execMgmtBoot (flashOk runningOk otherOk : Bool) (s : State) : Res :=
  if !s.inStep 5 then .next s
  else if !flashOk then .next (s.stepDone (some 2))
  else
    let cold := !s.boot.pathWarm && s.flash.activateCold
    let f := if cold then { s.flash.swap with onTrial := true, activateCold := false, rolledBack := false } else s.flash
    let rOk := if cold then otherOk else runningOk
    let oOk := if cold then runningOk else otherOk
    if f.bankOk f.running rOk then .next (State.stepDone { s with flash := { f with bootCount := f.bootCount + 1 } } none)
    else if f.bankOk f.other oOk then
      let g := if f.onTrial then f.revert else f.swap
      .next (State.stepDone { s with flash := { g with bootCount := g.bootCount + 1 } } none)
    else .next (State.stepDone { s with flash := f } (some 1))

/-- The memory ports of the enabled stripes. -/
def State.enabledPorts (s : State) : List Nat := (List.range 16).filter fun m => s.fuses.stripeMap.getLsbD (m % 8)

/-- HBM_TRAIN (R419, R422, R423): on a cold path the contents are discarded. -/
def execHbmTrain (failed : BitVec 16) (s : State) : Res :=
  if !s.inStep 6 then .next s
  else
    let s : State := if s.boot.pathWarm then s else { s with hbm := [] }
    let s := each s.enabledPorts (fun m st => st.modMemport m fun x =>
      { x with trained := !(failed.getLsbD m), inSelfRefresh := false }) s
    .next ((each (s.enabledPorts.filter fun m => failed.getLsbD m) (fun m st => st.bootWithdraw (m % 8) 1) s).stripeCheck)

/-- A failing HBM row: memory port, byte offset of the row in its stack, whether the stack has a spare (R259, R423). -/
def State.memRow (s : State) (port off : Nat) (spare : Bool) : State :=
  if spare then
    let row := (Config.freeWord s.freeCtr).toNat % 2 ^ 28
    (s.used 1).logRepair 3 0 0 (port * 2 ^ 28 + row) 0
  else
    let f := off / 2 ^ 19
    let s := s.logRetired 0 1 (hbmFrame port f)
    if f < 320 then s.bootWithdraw (port % 8) 2 else s

/-- MEM_TEST (R3, R422, R423): of enabled stripes' stacks; skipped at level 0. -/
def execMemTest (rows : List (Nat × Nat × Bool)) (s : State) : Res :=
  if !s.inStep 7 then .next s
  else if s.boot.pathLevel = 0 then .next (s.stepDone none)
  else .next (each (rows.filter fun r => s.stripeOn (r.1 % 8)) (fun r st => st.memRow r.1 r.2.1 r.2.2) s).stripeCheck

/-- CLUSTERS_UP (R422, R423, R426, R455): every cluster of an enabled stripe is powered and reset. -/
def execClustersUp (failed : List Nat) (s : State) : Res :=
  if !s.inStep 8 then .next s
  else
    let on := (List.range 288).filter fun c => s.fuses.stripeMap.getLsbD (c / 36)
    let s : State := { s with tiles := [] }
    let s := each (on.filter fun c => !failed.contains c) (fun c st =>
      (st.modCluster c fun k => { k with power := true, bellChan := [], passed := [] }).beginReset 1 c) s
    .next (each (on.filter fun c => failed.contains c) (fun c st => st.bootWithdraw (c / 36) 3) s).stripeCheck

/-- A site that fails self-test (R423, R425). -/
def State.bistSite (s : State) (px py : Nat) : State :=
  if s.disabled.contains (px, py) then s
  else if s.segHasRoom px py then
    let s := ({ s with disabled := s.disabled ++ [(px, py)] }).logRepair 1 0 0 (py * 65536 + px) 0
    s.bootEvent 0x0103 2 mgmtUnit (px * 2 ^ 48 + py * 2 ^ 32 + s.boot.stStep * 2 ^ 28 + (s.segDisabled (px / 37) py).length)
  else s.bootWithdraw (px / 37) 0

/-- TILE_BIST (R422, R423): skipped on the warm path; it tests the sites of the enabled stripes (R3). -/
def execTileBist (failed : List (Nat × Nat)) (s : State) : Res :=
  if !s.inStep 9 then .next s
  else if s.boot.pathWarm then .next (s.stepDone none)
  else
    let on := failed.filter fun d => s.fuses.stripeMap.getLsbD (d.1 / 37)
    .next (each on (fun d st => st.bistSite d.1 d.2) s).stripeCheck

/-- MESH_CAL (R422, R424): cause 0 for none. -/
def execMeshCal (cause : Nat) (s : State) : Res :=
  if s.inStep 10 then .next (s.stepDone (if cause = 0 then none else some cause)) else .next s

/-- FABRIC_TRAIN of bring-up (R422, R424, R425): a port that fails is reported and left down. `failed` gives ports and the
lanes that fail. -/
def execBootFabricTrain (failed : List (Nat × Nat)) (s : State) : Res :=
  if !s.inStep 11 then .next s
  else
    let on := (List.range 6).filter fun q => s.fuses.portMap.getLsbD q
    let s := each on (fun q st => st.modHport q fun x => { x with calFailed := failed.any fun f => f.1 = q }) s
    .next ((each (failed.filter fun f => on.contains f.1) (fun f st => st.bootEvent 0x0105 2 (unitId 4 f.1) (f.2 % 65536)) s).stepDone none)

/-- Physical stripes of a partition that are withdrawn. -/
def State.withdrawnStripes (s : State) (p : Nat) : List Nat :=
  ((List.range (s.part p).stripeCount).map fun i => (s.part p).firstStripe + i + s.sigma0).filter fun sg => s.withdrawn.getLsbD sg

/-- The pages of partition `p` in the stacks of physical stripe `sg` are lost (R273, R423). -/
def State.loseStripe (s : State) (p sg : Nat) : State :=
  let gone := s.pages.filter fun g => g.2.st ≠ .free && g.2.tier = 0 && (g.2.frame / 2 ^ 17 % 8 = sg) && s.partOfSlot g.2.owner = some p
  each gone (fun g st => st.losePage g.1) s

/-- The owners of the pages lost are closed: no tide runs that could close them at its commit (R273). [DEDUCED, log entry 169] -/
def State.closeLost (s : State) (p : Nat) : State :=
  let owners := ((s.part p).pagesLost.map (· % 2 ^ 15)).eraseDups
  let s := (s.reportLost p).modPart p fun q => { q with pagesLost := [] }
  each owners (fun o st => (st.drainLost o).closeOut o false) s

/-- A retained partition at READY on the warm path (R403, R423): rebuilt where it was LOADED, or EMPTY where a stripe of it is
withdrawn, with its pages in the stacks of such stripes lost. -/
def State.rebuildPart (s : State) (p : Nat) : State :=
  let gone := s.withdrawnStripes p
  if gone.isEmpty then
    if (s.part p).st = .loaded then
      each (s.clustersOf p) (fun c st => st.restoreBells c) (each (s.tilesOf p) (fun t st => st.restoreTile t) s)
    else s
  else
    ((each gone (fun sg st => st.loseStripe p sg) s).closeLost p).modPart p fun q => { q with
      st := .empty, image := none, weights := none, weightsLoaded := false, markSlot := none }

/-- READY (R403, R422): retained partitions are rebuilt; observation does not survive a reset. -/
def execReady (s : State) : Res :=
  if !s.inStep 12 then .next s
  else
    let ps := if s.boot.pathWarm then (s.parts.filter fun p => p.2.st ≠ .none).map fun p => p.1 else []
    .next ((each ps (fun p st => st.rebuildPart p) s).stepDone none)

/-- BOOT_STEP_DONE or BOOT_STEP_FAILED of the running step (R425). -/
def State.stepEvent (s : State) : State :=
  let b := s.boot
  match b.failCause with
  | none => s.bootEvent 0x0101 0 mgmtUnit (b.stStep * 2 ^ 60 + b.path * 2 ^ 56 + s.bootElapsed)
  | some c => s.bootEvent 0x0102 3 mgmtUnit (b.stStep * 2 ^ 60 + (b.stStep * 256 + c) * 2 ^ 32 + s.bootElapsed)

/-- Events of steps 1 to 4 are raised when MGMT_BOOT completes (R425). [DESIGN CHOICE, log entry 122] -/
def State.raiseEarly (s : State) : State :=
  if s.boot.stStep = 5 && s.boot.failCause.isNone then
    each s.boot.early (fun e st => st.raiseRec e false) { s with boot := { s.boot with early := [] } }
  else s

/-- The running step ends (R417): DONE and REACHED, or FAILED and ERROR. -/
def State.endStep (s : State) : State :=
  let b := s.boot
  let s := s.raiseEarly.stepEvent
  match b.failCause with
  | some c => { s with boot := { s.boot with state := 3, error := b.stStep * 256 + c, workDone := false } }
  | none =>
    { s with
      boot := { s.boot with state := 2, reached := b.stStep, workDone := false, epoOrTrip := s.boot.epoOrTrip && decide (b.stStep ≠ 12) }
      fuseShown := s.fuseShown || decide (b.stStep = 2), fwShown := s.fwShown || decide (b.stStep = 5)
      i3cUp := s.i3cUp || decide (b.stStep = 5)
      ready := s.ready || decide (b.stStep = 12) }

/-- BOOT_STEP_COMPLETE (R417). -/
def execBootStepComplete (s : State) : Res := if s.boot.state = 1 && s.boot.workDone then .next s.endStep else .next s

/-- BOOT_STEP_TIMEOUT (R420): a step that reaches its bound fails with cause 0xFF. -/
def execBootStepTimeout (s : State) : Res :=
  if s.boot.state = 1 then .next (State.endStep { s with boot := { s.boot with failCause := some 0xFF } }) else .next s

end Sys2Proof.Machine
end

