-- ==== Sys2Proof/Machine/Pins.lean ====
section
/-!
DEFINITION. The base connector's pins and the hot-swap controller (spec/20_module.md R524, R531 to R534; R466).
-/

namespace Sys2Proof.Machine

/-- The input switch begins its ramp if the module is seated and enabled and nothing holds the switch open (R532). -/
def State.powerUpIfReady (s : State) : State :=
  let p := s.pins
  if p.pwrEn && p.mateOk && !p.switchOn && !p.latched && !p.faultOpen && p.openedAt.isNone then
    { s with pins := { p with powering := true } }
  else s

/-- The bleed after the switch opened, 1 s long, still runs (R533, R534). -/
def State.bleeding (s : State) : Bool :=
  match s.pins.openedAt with
  | some t => decide (s.pinNow < t + 1000000000)
  | none => false

/-- PWR_EN_RISE (R531, R532, R534): held during a shut-down of the input; after a latch it counts only if PWR_EN was low for
1 s; while MATE_OK# is high it does nothing. -/
def execPwrEnRise (s : State) : Res :=
  let p := s.pins
  let longLow := match p.lowSince with
    | some t => decide (t + 1000000000 ≤ s.pinNow)
    | none => false
  let p' := { p with pwrEn := true }
  if !p.mateOk then .next { s with pins := p' }
  else if p.opening || s.bleeding then .next { s with pins := { p' with riseHeld := true } }
  else if p.latched && !longLow then .next { s with pins := p' }
  else .next (State.powerUpIfReady { s with pins := { p' with latched := false, openedAt := none } })

/-- MATE_OK_FALL (R532): the module is seated, and powers up if PWR_EN is high. A shut-down of the input runs to completion first, and
the power-up follows as after a held rise (R534). [DEDUCED, log entry 174] -/
def execMateOkFall (s : State) : Res :=
  let p := { s.pins with mateOk := true }
  if p.opening || s.bleeding then .next { s with pins := { p with riseHeld := p.pwrEn } }
  else .next (State.powerUpIfReady { s with pins := { p with openedAt := none } })

/-- PWRGD_RELEASE (R532): the input switch is on and the 1.8 V plane good. -/
def execPwrgdRelease (s : State) : Res :=
  let p := s.pins
  if p.powering && p.pwrEn && p.mateOk then
    .next { s with pins := { p with powering := false, switchOn := true, pwrgd := true } }
  else .next s

/-- PWR_EN falls or MATE_OK# goes high with the switch on (R533): the emergency power-off, and the switch is to open. -/
def State.inputShutdown (s : State) : State :=
  if s.pins.switchOn && !s.pins.opening then
    let s := s.emergencyOff effecterCause
    { s with pins := { s.pins with opening := true } }
  else { s with pins := { s.pins with powering := false } }

/-- PWR_EN_FALL (R533). -/
def execPwrEnFall (s : State) : Res :=
  .next (State.inputShutdown { s with pins := { s.pins with pwrEn := false, riseHeld := false, lowSince := some s.pinNow } })

/-- MATE_OK_RELEASE (R533). -/
def execMateOkRelease (s : State) : Res :=
  .next (State.inputShutdown { s with pins := { s.pins with mateOk := false, riseHeld := false } })

/-- INPUT_SWITCH_OPEN (R533): PWRGD falls, and the bleeder empties the input capacitance within 1 s. -/
def execInputSwitchOpen (s : State) : Res :=
  if !s.pins.opening then .next s
  else
    let s := s.powerLoss
    .next { s with pins := { s.pins with openedAt := some s.pinNow } }

/-- HELD_PWR_EN_POWER_UP (R534): 1 s after the switch opened. -/
def execHeldPwrEnPowerUp (s : State) : Res :=
  if !s.pins.riseHeld || s.pins.openedAt.isNone || s.bleeding then .next s
  else
    let s : State := { s with pins := { s.pins with riseHeld := false, openedAt := none } }
    .next s.powerUpIfReady

/-- VIN_UNDERVOLTAGE (R466, R531): below 44 V for 100 µs; the switch stays on. -/
def execVinUndervoltage (mv : Nat) (s : State) : Res :=
  let s := s.inputAt mv
  if mv ≥ 44000 || !s.pins.switchOn || s.boot.poweredOff then .next s
  else
    let c : FaultCause := { kind := .stop, code := 0x060A, unit := unitId 0xA 0, act := 10 }
    .next ((s.raiseDev 0x060A 4 (unitId 0xA 0) mv).emergencyOff c)

/-- The switch opens for a voltage out of range (R531): a loss of input power. -/
def State.openForVoltage (s : State) (tooHigh : Bool) : State :=
  if !s.pins.switchOn then s
  else
    let s := s.powerLoss
    { s with pins := { s.pins with faultOpen := true, overOpen := tooHigh } }

/-- VIN_BROWNOUT (R531): below 40 V. -/
def execVinBrownout (mv : Nat) (s : State) : Res :=
  let s := s.inputAt mv
  if mv < 40000 then .next (s.openForVoltage false) else .next s

/-- VIN_OVERVOLTAGE (R531): above 60 V. -/
def execVinOvervoltage (mv : Nat) (s : State) : Res :=
  let s := s.inputAt mv
  if mv > 60000 then .next (s.openForVoltage true) else .next s

/-- SWITCH_RECLOSE (R531): the input has been back in range for 100 ms. -/
def execSwitchReclose (mv : Nat) (s : State) : Res :=
  let s := s.inputAt mv
  let ok := if s.pins.overOpen then decide (40000 ≤ mv) && decide (mv < 58000) else decide (44000 < mv) && decide (mv ≤ 60000)
  if s.pins.faultOpen && ok then
    .next (State.powerUpIfReady { s with pins := { s.pins with faultOpen := false, overOpen := false } })
  else .next s

/-- The switch is latched off (R531). -/
def State.latchOff (s : State) : State :=
  if !s.pins.switchOn then s
  else
    let s := s.powerLoss
    { s with pins := { s.pins with latched := true, lowSince := if s.pins.pwrEn then none else s.pins.lowSince } }

/-- OVERCURRENT_LATCH (R531): `ma` lasted for `overUs` µs. -/
def execOvercurrentLatch (ma overUs : Nat) (s : State) : Res :=
  let s : State := { s with power := { s.power with iinMa := ma } }
  let tooHigh := (decide (ma > 440000) && decide (overUs ≥ 100000)) || (decide (ma > 520000) && decide (overUs ≥ 10000))
    || (decide (ma > 900000) && decide (overUs ≥ 2))
  if tooHigh then .next s.latchOff else .next s

/-- SWITCH_OVERTEMP (R531): sixteenths of a degree. -/
def execSwitchOvertemp (temp : Int) (s : State) : Res := if temp > 125 * 16 then .next s.latchOff else .next s

end Sys2Proof.Machine
end

