-- ==== Sys2Proof/Machine/Regs.lean ====
section
/-!
DEFINITION. Host register accesses (spec/13_cxl_interface.md R359 to R372; spec/14_mailboxes.md R388 to R390) and the debug
window (R371, R372, R515).
-/

namespace Sys2Proof.Machine

/-! Ring controls (R364, R368) -/

/-- A write to a ring's CTRL register; the telemetry ring has no MIN_SEV. -/
def Ring.writeCtrl (r : Ring) (v : Nat) (telemetry : Bool) : Ring :=
  let r1 := { r with minSev := if telemetry then 0 else bits v 19 16, coalesceUs := bits v 15 8 }
  if r.en then { r1 with en := bit v 31 }
  else
    let n := bits v 4 0
    let on := bit v 31 && decide (6 ≤ n) && decide (n ≤ 16)
    { r1 with logSize := n, en := on, consumer := if on then r.producer else r.consumer, dropped := if on then 0 else r.dropped }

/-- A write to EVR_CTRL (R364): a ring that is set up takes the events held for it (R380). -/
def State.writeEvrCtrl (s : State) (v : Nat) : State := State.writeHeldEvents { s with evr := s.evr.writeCtrl v false }

/-- EVR_CTRL (R364). -/
def execEvrCtrl (value : Word) (s : State) : Res :=
  if s.hostReaches then .next (s.writeEvrCtrl value.toNat) else .next s

/-- TLR_CTRL (R368). -/
def execTlrCtrl (value : Word) (s : State) : Res :=
  if s.hostReaches then .next { s with tlr := s.tlr.writeCtrl value.toNat true } else .next s

/-- Another register of a ring's control block. -/
def Ring.writeReg (r : Ring) (off v : Nat) : Ring :=
  match off with
  | 0x000 => if r.en then r else { r with baseLo := v / 4096 * 4096 }
  | 0x004 => if r.en then r else { r with baseHi := v }
  | 0x010 => { r with consumer := v }
  | _ => r

/-! Doorbells (R390, R421) -/

/-- An ignored write or doorbell of page `n` is counted. -/
def State.mbxIgnored (s : State) (n : Nat) : State := s.modMb n fun m => { m with ignored := sat (m.ignored + 1) 0xFFFFFFFF }

/-- The opcodes of the command table (R396): by high byte, the lowest and highest low byte. -/
def opcodeKnown (v : Nat) : Bool :=
  match v / 256 with
  | 0x00 => decide (1 ≤ v % 256 ∧ v % 256 ≤ 3)
  | 0x01 => decide (1 ≤ v % 256 ∧ v % 256 ≤ 4)
  | 0x02 => decide (1 ≤ v % 256 ∧ v % 256 ≤ 6)
  | 0x03 => decide (1 ≤ v % 256 ∧ v % 256 ≤ 5)
  | 0x04 => decide (1 ≤ v % 256 ∧ v % 256 ≤ 4)
  | 0x05 => decide (1 ≤ v % 256 ∧ v % 256 ≤ 3)
  | 0x06 => decide (1 ≤ v % 256 ∧ v % 256 ≤ 3)
  | 0x07 => decide (1 ≤ v % 256 ∧ v % 256 ≤ 2)
  | 0x08 => decide (1 ≤ v % 256 ∧ v % 256 ≤ 5)
  | 0x09 => decide (1 ≤ v % 256 ∧ v % 256 ≤ 5)
  | 0x0A => decide (1 ≤ v % 256 ∧ v % 256 ≤ 3)
  | 0x0B => decide (1 ≤ v % 256 ∧ v % 256 ≤ 4)
  | 0x0C => decide (1 ≤ v % 256 ∧ v % 256 ≤ 2)
  | _ => false

/-- A doorbell of page `n` (R390, R421). An opcode outside the table completes at once with BAD_OPCODE (R395). [DEDUCED, log entry 107] -/
def State.doorbell (s : State) (n v : Nat) (both : Bool) : State :=
  let m := s.mb n
  if s.ready && both && m.done && decide (v = m.seq) && decide (v ≠ 0) && decide (v ≠ m.doneSeq) then
    let s : State := { s.modMb n fun m => { m with done := false, status := 1, running := some m.opcode, order := s.doorOrder + 1 } with
      doorOrder := s.doorOrder + 1 }
    if opcodeKnown m.opcode then s else s.failWith n stOpcode 0
  else s.mbxIgnored n

/-- MBX_DOORBELL (R390). -/
def execMbxDoorbell (n : Nat) (value : BitVec 16) (bothBytes : Bool) (s : State) : Res :=
  if s.hostReaches && decide (n ≤ 8) then .next (s.doorbell n value.toNat bothBytes) else .next s

/-! Other registers (R9, R10) -/

/-- `size` bytes of `v` put into the 32-bit value `old` from byte `o`. -/
def mergeBytes (old o v size : Nat) : Nat :=
  let keep := old % 2 ^ (8 * o) + old / 2 ^ (8 * (o + size)) * 2 ^ (8 * (o + size))
  (keep + v % 2 ^ (8 * size) * 2 ^ (8 * o)) % 2 ^ 32

/-- A write to a field of a mailbox page other than the doorbell (R388). -/
def Mbx.write (m : Mbx) (off v size : Nat) : Mbx :=
  let w := off / 4 * 4
  let o := off % 4
  if off ≥ 0x40 then { m with payload := memPut m.payload (off - 0x40) (leBytes size v) }
  else match w with
    | 0x000 =>
      let x := mergeBytes (m.opcode * 65536 + m.seq) o v size
      { m with opcode := x / 65536, seq := x % 65536 }
    | 0x004 =>
      let x := mergeBytes (m.sglCount * 65536 + m.length) o v size
      { m with sglCount := bits x 23 16, length := bits x 12 0 }
    | 0x008 =>
      let x := mergeBytes (b01 m.noEvent * 2 + b01 m.noIrq) o v size
      { m with noEvent := bit x 1, noIrq := bit x 0 }
    | _ => m

/-- A write into page `n`. -/
def State.writeMbx (s : State) (n off v size : Nat) : State :=
  if off / 4 = 0xF then s.doorbell n (v % 65536) (off = 0x3C && decide (size ≥ 2))
  else if !(s.mb n).done then s.mbxIgnored n
  else s.modMb n fun m => m.write off v size

/-- A write into the MSI-X table (R360, R369). -/
def State.writeMsix (s : State) (ix v : Nat) : State :=
  let s : State := { s with link := { s.link with msixTable := tset s.link.msixTable ix (BitVec.ofNat 32 v) } }
  if ix % 4 ≠ 3 then s
  else
    let k := ix / 4
    let b := BitVec.ofNat 64 (2 ^ k)
    if bit v 0 then { s with link := { s.link with msixMask := s.link.msixMask ||| b } }
    else
      let pend := s.link.msixPending.getLsbD k
      let s : State := { s with link := { s.link with msixMask := s.link.msixMask &&& ~~~b, msixPending := s.link.msixPending &&& ~~~b } }
      if pend then s.msix k else s

/-- The model's places for what the host sets in configuration space and no other command writes: MSI-X enable. -/
def cfgMsixEnable : Nat := 0x100000
/-- Unordered I/O enable (R375). -/
def cfgUioEnable : Nat := 0x100004
/-- Skid mode of CXL.cache under IDE, else containment mode (R376). -/
def cfgIdeSkid : Nat := 0x100008
/-- The six BAR registers from here (R357, R363). -/
def cfgBars : Nat := 0x100010

/-- A write to configuration space: it needs the link only (R377). -/
def State.writeConfig (s : State) (off v : Nat) : State :=
  if !s.link.trained || s.pins.perst then s
  else if off = cfgMsixEnable then { s with link := { s.link with msixEnable := bit v 0 } }
  else if off = cfgUioEnable then { s with link := { s.link with uioEnable := bit v 0 } }
  else if off = cfgIdeSkid then { s with link := { s.link with skid := bit v 0 } }
  else if cfgBars ≤ off ∧ off < cfgBars + 24 ∧ off % 4 = 0 then
    { s with link := { s.link with barBase := tset s.link.barBase ((off - cfgBars) / 4) (BitVec.ofNat 32 v) } }
  else s

/-- A 32-bit register write of the blocks below 0x8000 (R361, R362, R364, R368). -/
def State.writeBlock (s : State) (off v : Nat) : State :=
  let r := off % 4096
  match off / 4096 with
  | 1 =>
    if r = 0 then s.writeStepReq v
    else if r = 0xC then s.bootReset v
    else s
  | 2 =>
    if r = 8 then s.writeEvrCtrl v
    else State.overflowIfDue { s with evr := s.evr.writeReg r v }
  | 3 => { s with tlr := if r = 8 then s.tlr.writeCtrl v true else s.tlr.writeReg r v }
  | _ => s

/-- An aligned 32-bit write in BAR0 other than to a mailbox page. -/
def State.writeWord (s : State) (off v : Nat) : State :=
  if off < 0x4000 then s.writeBlock off v
  else if 0x8000 ≤ off ∧ off < 0x10000 then
    { s with link := { s.link with component := tset s.link.component ((off - 0x8000) / 4) (BitVec.ofNat 32 v) } }
  else if 0x1C000 ≤ off ∧ off < 0x1C400 then s.writeMsix ((off - 0x1C000) / 4) v
  else s

/-- An aligned access of 4 or 8 bytes (R360). -/
def wordAccess (off size : Nat) : Bool := (size = 4 || size = 8) && off % size = 0

/-- What a mailbox page accepts (R360): an aligned write of 1, 2, 4 or 8 bytes, or a write-combined burst of words within one 64-byte
line. [DESIGN CHOICE, log entry 33] -/
def mbxAccess (off size : Nat) : Bool :=
  ((size = 1 || size = 2 || size = 4 || size = 8) && off % size = 0)
    || (size % 4 = 0 && decide (0 < size) && off % 4 = 0 && decide (off % 64 + size ≤ 64))

/-- A write of more than a word acts as 32-bit writes in ascending address order (R360). -/
def inWords (f : State → Nat → Nat → State) (off v size : Nat) (s : State) : State :=
  each (List.range (size / 4)) (fun i st => f st (off + 4 * i) (v / 2 ^ (32 * i) % 2 ^ 32)) s

/-- REGISTER_WRITE (R9, R359, R360, R388): `offset` in BAR0, `size` bytes of `value`; an access that a register block does not take is
counted. An access that arrives is one that the host has given the BAR an address for. [DESIGN CHOICE, log entry 33] -/
def execRegisterWrite (offset : Nat) (value : BitVec 512) (size : Nat) (s : State) : Res :=
  let v := value.toNat % 2 ^ (8 * size)
  if offset ≥ cfgMsixEnable then .next (s.writeConfig offset v)
  else if !s.hostReaches then .next s
  else if 0x10000 ≤ offset ∧ offset < 0x19000 then
    let put := fun (st : State) (o x z : Nat) => st.writeMbx ((o - 0x10000) / 4096) (o % 4096) x z
    if !(mbxAccess offset size) then .next s
    else if size < 4 then .next (put s offset v size)
    else .next (inWords (fun st o x => put st o x 4) offset v size s)
  else if wordAccess offset size then .next (inWords State.writeWord offset v size s)
  else if offset < 0x4000 then .next { s with link := { s.link with badAccess := s.link.badAccess + 1 } }
  else .next s

/-- TIME_LO_READ (R361): a read that reaches the device latches TIME_HI. -/
def execTimeLoRead (s : State) : Res :=
  if s.hostReaches then .next { s with timeHi := BitVec.ofNat 32 (s.now / 2 ^ 32), lastRead := s.now % 2 ^ 32 } else .next s

/-! The debug window (R371, R372, R515) -/

/-- The window is open. -/
def State.windowOpen (s : State) : Bool := s.dbg.tile || s.dbg.scan

/-- The selected tile's partition is EMPTY or LOADED. [DESIGN CHOICE, log entry 76] -/
def State.quiet (s : State) (t : TileId) : Bool :=
  match s.partOf t with
  | none => false
  | some p => (s.part p).st = .empty || (s.part p).st = .loaded

/-- A vendor's tile debug scope does not reach tiles whose loaded weights are sealed (R515). -/
def State.sealedFrom (s : State) (t : TileId) : Bool :=
  s.dbg.byVendor && (match s.partOf t with
    | none => false
    | some p => (s.part p).weightsLoaded && (s.part p).sealedWeights)

/-- A write or read the window ignores is counted. -/
def State.debugIgnored (s : State) : State :=
  { s with dbg := { s.dbg with ignored := sat (s.dbg.ignored + 1) 0xFFFFFFFF } }

/-- Select a tile; a change clears VALID. An index that names no tile of the part is selected as it is: that tile is in no partition,
so it takes no write and no SNAP, and reads as an empty one. [DESIGN CHOICE, log entry 150] -/
def State.selectTile (s : State) (v : Nat) : State :=
  let t := bits v 16 0
  if t = s.dbg.selected then s else { s with dbg := { s.dbg with selected := t, snap := none } }

/-- Capture the selected tile, or set LIVE. -/
def State.snapTile (s : State) (v : Nat) : State :=
  if !(bit v 0) then s
  else if s.quiet s.dbg.selected then
    { s with dbg := { s.dbg with snap := some (s.captureTile s.dbg.selected), live := false } }
  else { s with dbg := { s.dbg with snap := none, live := true } }

/-- DBG_TILE (R371, R372). -/
def execDbgTile (value : Word) (s : State) : Res :=
  if s.hostReaches && s.windowOpen then .next (s.selectTile value.toNat) else .next s

/-- SNAP (R371, R372). -/
def execSnap (value : Word) (s : State) : Res :=
  if s.hostReaches && s.windowOpen then .next (s.snapTile value.toNat) else .next s

/-- DBG_STATUS. -/
def State.debugStatus (s : State) : Nat := b01 s.windowOpen * 2 ^ 31 + b01 s.dbg.live * 2 + b01 s.dbg.snap.isSome

/-- A word of the snapshot (R371). -/
def TileCapture.word (c : TileCapture) (off : Nat) : Nat :=
  if off < 0x10080 then (c.sregs.getD ((off - 0x10000) / 4) 0).toNat
  else if off = 0x10080 then c.preds.toNat
  else if off < 0x10100 then 0
  else if off < 0x10200 then ((c.queues.getD ((off - 0x10100) / 32) []).getD ((off - 0x10100) % 32 / 4) 0).toNat
  else if off < 0x10240 then c.tags.getD ((off - 0x10200) / 4) 0
  else if off < 0x11000 then 0
  else if off < 0x12000 then ((c.vregs.getD ((off - 0x11000) / 128) []).getD ((off - 0x11000) % 128 / 4) 0).toNat
  else 0

/-- A word the window reads, other than the scratchpad. -/
def State.debugWord (s : State) (off : Nat) : Nat :=
  if off = 0 then s.dbg.selected
  else if off = 8 then s.debugStatus
  else if off = 0xC then s.dbg.ignored
  else if 0x10000 ≤ off ∧ off < 0x12000 then
    match s.dbg.snap with
    | none => 0
    | some c => c.word off
  else if 0x80000 ≤ off ∧ off < 0x84000 then
    (tget 0 (s.tile s.dbg.selected).code ((off - 0x80000) / 16)).toNat / 2 ^ (8 * (off % 16)) % 2 ^ 32
  else 0

/-- REMOTE of a debug access (R372). -/
def debugRemote : Nat := 0x60000000

/-- DEBUG_WINDOW_READ (R371, R372): a scratchpad read is an inbound remote access. -/
def execDebugWindowRead (offset : Nat) (s : State) : Res :=
  let off := offset / 4 * 4
  let t := s.dbg.selected
  if !s.hostReaches || !s.windowOpen then .next { s with lastRead := 0 }
  else if 0x40000 ≤ off ∧ off < 0x80000 then
    if s.sealedFrom t then .next { s.debugIgnored with lastRead := 0 }
    else if s.down t then .next { s with lastRead := 0 }
    else
      let r := s.readLocal t (off - 0x40000) 4 debugRemote 7
      .next { r.1 with lastRead := if r.2.2 then 0 else leNat r.2.1 }
  else .next { s with lastRead := s.debugWord off }

/-- DEBUG_WINDOW_WRITE (R371, R372): the scratchpad takes a write only while the partition is EMPTY or LOADED. -/
def execDebugWindowWrite (offset : Nat) (value : Word) (s : State) : Res :=
  let off := offset / 4 * 4
  let t := s.dbg.selected
  if !s.hostReaches || !s.windowOpen then .next s
  else if off = 0 then .next (s.selectTile value.toNat)
  else if off = 4 then .next (s.snapTile value.toNat)
  else if 0x40000 ≤ off ∧ off < 0x80000 then
    if s.sealedFrom t || !s.quiet t || s.down t then .next s.debugIgnored
    else .next (s.writeLocal t (off - 0x40000) (leBytes 4 value.toNat) debugRemote 7)
  else if 0x80000 ≤ off ∧ off < 0x84000 then .next s.debugIgnored
  else .next s

end Sys2Proof.Machine
end

