-- ==== Sys2Proof/Machine/Commands.lean ====
section
/-!
DEFINITION. Mailbox commands (spec/14_mailboxes.md R388 to R398, R409, R544): the checks every command shares, and the
commands of identification, partitions, power, telemetry and observation. A command acts once, on the row that names its
page, while the page runs that opcode; its parameters are payload bytes of the page.
-/

namespace Sys2Proof.Machine

/-! Shared checks (R389, R393 to R395) -/

/-- Why a command is refused: STATUS, DETAIL and OFFSET (R388). -/
structure No where
  status : Nat
  detail : Nat := 0
  offset : Nat := 0xFFFF
  deriving DecidableEq, Repr

/-- The first payload byte of the scatter list (R389). -/
def Mbx.sglStart (m : Mbx) : Nat := 16 * ((m.length + 15) / 16)

/-- Payload offset of scatter list entry `i`. -/
def Mbx.sglPos (m : Mbx) (i : Nat) : Nat := m.sglStart + 16 * i

/-- Length of scatter list entry `i`. -/
def Mbx.sglLen (m : Mbx) (i : Nat) : Nat := leNat (memBytes m.payload (m.sglPos i + 8) 4)

/-- Total length of the first `k` entries. -/
def Mbx.sglTotal (m : Mbx) (k : Nat) : Nat := ((List.range k).map m.sglLen).foldl (· + ·) 0

/-- Bytes of the data buffer (R389). -/
def State.bufLen (s : State) (n : Nat) : Nat := (s.mb n).sglTotal (s.mb n).sglCount

/-- 16 GiB. -/
def maxBuffer : Nat := 16 * 2 ^ 30

/-- BAD_LENGTH of a command whose block is `len` bytes (R389, R395): OFFSET names a scatter list entry where one offends. [DEDUCED, log entry 83] -/
def State.badLength (s : State) (n len : Nat) (buffer : Bool) : Option No :=
  let m := s.mb n
  if m.length ≠ len then some { status := stLength }
  else if m.sglStart + 16 * m.sglCount > 4032 then
    some { status := stLength, offset := m.sglPos ((4032 - m.sglStart) / 16) }
  else if !buffer && decide (m.sglCount > 0) then some { status := stLength }
  else ((List.range m.sglCount).find? fun i => decide (m.sglTotal (i + 1) > maxBuffer)).map fun i =>
    { status := stLength, offset := m.sglPos i }

/-- BAD_LENGTH of a buffer smaller than a command needs (R395). -/
def State.tooSmall (s : State) (n need : Nat) : Option No :=
  if s.bufLen n < need then some { status := stLength } else none

/-- Offending fields of a scatter list (R389). -/
def Mbx.sglFaults (m : Mbx) : List (Nat × Bool) :=
  (List.range m.sglCount).flatMap fun i =>
    let p := m.sglPos i
    let l := m.sglLen i
    [(p, decide (leNat (memBytes m.payload p 8) % 16 ≠ 0)), (p + 8, decide (l % 16 ≠ 0 ∨ l < 16 ∨ l > 2 ^ 30))]
      ++ (List.range 4).map fun k => (p + 12 + k, decide (memGet m.payload (p + 12 + k) ≠ 0))

/-- BAD_FIELD (R10, R388, R395): fields as (first byte, it offends), reserved bytes as a list. OFFSET is the lowest byte. [DEDUCED, log entry 84] -/
def State.badField (s : State) (n : Nat) (fields : List (Nat × Bool)) (reserved : List Nat) : Option No :=
  let m := s.mb n
  let all := fields ++ reserved.map (fun o => (o, decide (memGet m.payload o ≠ 0))) ++ m.sglFaults
  match (all.filter fun f => f.2).map fun f => f.1 with
  | [] => none
  | o :: r => some { status := stField, offset := r.foldl min o }

/-- NOT_PERMITTED unless `ok`. -/
def permit (ok : Bool) : Option No := if ok then none else some { status := stDenied }

/-- `status` where `bad` holds. -/
def noIf (bad : Bool) (status : Nat) : Option No := if bad then some { status := status } else none

/-- Device scope (R393). -/
def deviceScope (n : Nat) : Option No := permit (n = 0)

/-- The partition whose mailbox page `n` is exists; MBX0 always does (R393). -/
def State.pageExists (s : State) (n : Nat) : Bool := n = 0 || s.exists? (n - 1)

/-- Partition scope for partition `p` (R393). -/
def State.partScope (s : State) (n p : Nat) : Option No :=
  permit (s.pageExists n && (n = 0 || n - 1 = p) && s.exists? p)

/-- Host memory is needed and not accessible (R391). -/
def State.noHost (s : State) : Option No := if s.link.access then none else some { status := stHw, detail := 1 }

/-- EMPTY or LOADED. -/
def Partition.idle (q : Partition) : Bool := q.st = .empty || q.st = .loaded

/-- A command of another page that has acted and still waits, or waits for the mesh to drain, holds partition `p` (R394). [DEDUCED, log entry 86] -/
def State.partHeld (s : State) (n p : Nat) : Bool :=
  let q := s.part p
  let other := fun (m : Option Nat) => match m with
    | some k => decide (k ≠ n)
    | none => false
  other q.stopMbx || other q.single || other q.startMbx || other q.enableHeld
    || (s.scan.any fun w => other (some w.mbx) && s.partOfPhys (w.cluster / 36) = some p)
    || ((List.range 9).any fun k => decide (k ≠ n) && (s.mb k).drainAt.isSome && !(s.mb k).done && decide (s.param k 0 1 = p))
    || s.resets.any fun r => other r.mbx && (match r.scope with
      | 0 => s.partOf r.index = some p
      | 1 => (s.clustersOf p).contains r.index
      | _ => r.index = p)

/-- BUSY while another page's command holds partition `p`. -/
def State.partBusy (s : State) (n p : Nat) : Option No := noIf (s.partHeld n p) stBusy

/-- A refused command completes; a SIGNATURE_FAIL raises AUTH_FAILED (R503). -/
def State.refuse (s : State) (n : Nat) (r : No) : State :=
  let s := if r.status = stSignature then s.raiseDev 0x0804 2 mgmtUnit ((s.mb n).opcode * 2 ^ 48 + r.detail) else s
  s.finish n r.status [] [] r.detail r.offset

/-- The command of page `n` acts: the first check that refuses it completes it, else `act` does what it asks. -/
def State.command (s : State) (n opcode : Nat) (checks : List (Option No)) (act : State → State) : Res :=
  if (s.mb n).running = some opcode then
    let s := s.modMb n fun m => { m with running := none }
    match checks.findSome? id with
    | some r => .next (s.refuse n r)
    | none => .next (act s)
  else .next s

/-- As `command`; a refusal has the effect `fail` beside its status. -/
def State.commandElse (s : State) (n opcode : Nat) (checks : List (Option No)) (fail : No → State → State) (act : State → State) :
    Res :=
  if (s.mb n).running = some opcode then
    let s := s.modMb n fun m => { m with running := none }
    match checks.findSome? id with
    | some r => .next ((fail r s).refuse n r)
    | none => .next (act s)
  else .next s

/-- Reserved bytes `a` to `b - 1`. -/
def span (a b : Nat) : List Nat := (List.range (b - a)).map (a + ·)

/-- PARTITION at byte 0 is out of range (R397). -/
def State.badPart (s : State) (n : Nat) : Nat × Bool := (0, decide (s.param n 0 1 > 7))

/-! Identification (R361, R397) -/

/-- The words of the identification block below the timestamp (R361). -/
def State.idWords (s : State) : List Nat :=
  let f := s.fuses
  let fu := fun v => if s.fuseShown then v else 0
  let fw := fun v => if s.fwShown then v else 0
  let lic := ([0, 1, 2, 3].filter s.licensed).foldl (fun m b => m + 2 ^ b) 0
  [0x4E56424D, fu (f.deviceId * 2 ^ 16) + 0xB0 * 2 ^ 8 + fu s.stripes, fu (f.portMap.toNat * 2 ^ 8 + f.stripeMap.toNat)
  , 2 ^ 24 + fw (2 ^ 16 + 2 ^ 8) + 1, fw (2 * 2 ^ 8 + 3), fw s.flash.running.version
  , fw (2 * b01 s.flash.rolledBack + b01 s.flash.bankB), fw lic, fu (f.serial % 2 ^ 32), fu (f.serial / 2 ^ 32), fu f.hbmGib
  , s.heartbeatReg.toNat]

/-- The 56 bytes of the identification block, with one sample of the timestamp (R397). -/
def State.idBlock (s : State) : List Byte := (s.idWords.flatMap (leBytes 4)) ++ leBytes 8 s.now

/-- Open scopes (R397). -/
def State.scopeBits (s : State) : Nat := b01 s.dbg.telemetry + 2 * b01 s.dbg.tile + 4 * b01 s.dbg.scan

/-- The response of IDENTIFY (R397). A key is named by its digest. -/
def State.identity (s : State) : List Byte :=
  let f := s.flash
  let ps := ((List.range 8).filter fun p => s.exists? p).foldl (fun m p => m + 2 ^ p) 0
  s.idBlock ++ leBytes 4 (if f.other.valid then f.other.version else 0)
    ++ leBytes 1 (b01 f.other.valid + 2 * b01 f.onTrial) ++ leBytes 1 ps ++ leBytes 1 s.scopeBits ++ leBytes 1 0
    ++ leBytes 64 (keyDigest f.ownerKey)

/-- IDENTIFY (R397). -/
def execIdentify (n : Nat) (s : State) : Res :=
  s.command n 0x0001 [s.badLength n 0 false] fun s => s.okWith n s.identity

/-! The repair log (R397, R487) -/

/-- A repair record's 32 bytes (R487). -/
def RepairRec.bytes (r : RepairRec) (ix : Nat) : List Byte :=
  leBytes 1 r.type ++ leBytes 1 r.source ++ leBytes 2 r.cause ++ leBytes 4 r.object ++ leBytes 8 r.ts ++ leBytes 4 r.boot
    ++ leBytes 6 r.tide ++ leBytes 2 0 ++ leBytes 4 ix

/-- A retired-frame record's 16 bytes (R487). -/
def RetiredRec.bytes (r : RetiredRec) : List Byte :=
  leBytes 1 r.tier ++ leBytes 1 r.cause ++ leBytes 2 0 ++ leBytes 4 r.frame ++ leBytes 8 r.ts

/-- A copy of the log as its 1 MiB of flash: header, repair records, retired-frame records (R486). -/
def RepairLog.bytes (l : RepairLog) : List Byte :=
  let h := fill 60 (leBytes 8 l.seq ++ leBytes 4 l.repairs.length ++ leBytes 4 l.retired.length)
  let body := fill 768000 (((List.range l.repairs.length).zip l.repairs).flatMap fun e => e.2.bytes e.1)
    ++ fill (2 ^ 20 - 64 - 768000) (l.retired.flatMap RetiredRec.bytes)
  h ++ leBytes 4 (crc32c (h ++ body)) ++ body

/-- The records of a log. -/
def State.logRecords (s : State) (log : Nat) : List (List Byte) :=
  if log = 0 then ((List.range s.flash.repairs.length).zip s.flash.repairs).map fun e => e.2.bytes e.1
  else s.flash.retired.map RetiredRec.bytes

/-- LOG_READ (R397): as many records from FIRST on as the buffer holds. -/
def execLogRead (n : Nat) (s : State) : Res :=
  s.command n 0x0002
    [s.badLength n 8 true, s.badField n [(0, decide (s.param n 0 1 > 1))] (span 1 4), deviceScope n, s.noHost] fun s =>
      let log := s.param n 0 1
      let l := s.logRecords log
      let k := s.bufLen n / (if log = 0 then 32 else 16)
      let out := (l.drop (s.param n 4 4)).take k
      s.finish n stOk (leBytes 4 out.length ++ leBytes 4 l.length) out.flatten 0 0xFFFF

/-- HEARTBEAT_SET (R387). -/
def execHeartbeatSet (n : Nat) (s : State) : Res :=
  s.command n 0x0003 [s.badLength n 4 false, s.badField n [(0, decide (s.param n 0 4 > 3600))] [], deviceScope n] fun s =>
    State.okWith { s with heartbeatS := s.param n 0 4 } n []

/-! Partitions (R205, R210, R397, R398, R426) -/

/-- Ranges [a, a + n) and [b, b + m) share a member. -/
def overlap (a n b m : Nat) : Bool := decide (a < b + m) && decide (b < a + n)

/-- The other partitions that exist. -/
def State.others (s : State) (p : Nat) : List Partition :=
  ((s.parts.filter fun q => q.1 ≠ p && q.2.st ≠ .none).map fun q => q.2)

/-- CXL frames of the windows (R260). -/
def State.windowFrames (s : State) : Nat := s.windows.foldl (fun n w => n + w.2 / 2 ^ 19) 0

/-- A packet of a tile of the stripes, from it, to it or to its memory ports, is in the mesh, the edge channel or the service tree
(R210). -/
def State.trafficIn (s : State) (first count : Nat) : Bool :=
  let mine := fun (t : TileId) => decide (first ≤ tileStripe t ∧ tileStripe t < first + count)
  s.inMesh fun k => mine (pktOwner k) || (k.exit = .localSite && mine k.dst)

/-- A command that changes breakwaters waits for the drain of the mesh, up to 1 ms (R210). -/
def State.drains (s : State) (n first count : Nat) : Bool :=
  s.trafficIn first count && (match (s.mb n).drainAt with
    | none => true
    | some a => decide (s.now - a ≤ 1000000))

/-- A command that changes breakwaters: where its checks hold it waits for the drain, and its row acts again later; not drained in
1 ms it completes with BUSY (R210). -/
def State.drainCommand (s : State) (n opcode first count : Nat) (checks last : List (Option No)) (act : State → State) : Res :=
  if (s.mb n).running = some opcode ∧ (checks ++ last).findSome? id = none ∧ s.drains n first count then
    .next (s.modMb n fun m => { m with drainAt := some (m.drainAt.getD s.now) })
  else s.command n opcode (checks ++ [noIf (s.trafficIn first count) stBusy] ++ last) act

/-- The first withdrawn stripe of a run of logical stripes. -/
def State.withdrawnOf (s : State) (first count : Nat) : Option Nat :=
  ((List.range count).map (first + ·)).find? fun k => s.withdrawn.getLsbD (k + s.sigma0)

/-- HW_FAULT naming a withdrawn stripe (R423, R472). -/
def stripeFault (k : Option Nat) : Option No := k.map fun d => { status := stHw, detail := d }

/-- Completion-ring fields out of range (R397). -/
def State.badRing (s : State) (n : Nat) : List (Nat × Bool) :=
  [(28, decide (s.param n 28 1 < 6 ∨ s.param n 28 1 > 20)), (32, decide (s.param n 32 8 % 4096 ≠ 0))]

/-- Fields of PARTITION_CREATE that offend (R397, R398). -/
def State.badCreate (s : State) (n : Nat) : List (Nat × Bool) :=
  let v := fun o k => s.param n o k
  let p := v 0 1
  let others := s.others p
  let first := v 1 1
  let count := v 2 1
  let slots := v 12 4
  let nslots := v 16 4
  let cxl := v 20 4
  let ncxl := v 24 4
  [(0, decide (p > 7) || s.exists? p)
  , (1, decide (first ≥ s.stripes) || (decide (count ≤ 8) && decide (first + count > s.stripes)) || others.any fun q => overlap first count q.firstStripe q.stripeCount)
  , (2, decide (count < 1 ∨ count > 8)), (4, decide (320 + v 4 4 > 73728)), (8, decide (320 + v 4 4 + v 8 4 > 73728))
  , (12, decide (slots ≥ 32768) || (decide (nslots ≤ 32768) && decide (slots + nslots > 32768)) || others.any fun q => overlap slots nslots q.slotFirst q.slotCount)
  , (16, decide (nslots < 1 ∨ nslots > 32768))
  , (20, decide (ncxl ≠ 0) && (others.any (fun q => decide (q.cxlCount ≠ 0) && overlap cxl ncxl q.cxlFirst q.cxlCount)
      || (s.licensed 2 && decide (cxl + ncxl > s.windowFrames))))] ++ s.badRing n

/-- A licence that PARTITION_CREATE needs is missing (R398, R437). -/
def State.createLicence (s : State) (n : Nat) : Bool :=
  (decide ((s.others (s.param n 0 1)).length ≥ 2) && !s.licensed 0)
    || (decide (s.param n 12 4 + s.param n 16 4 > 8192) && !s.licensed 1)
    || (decide (s.param n 24 4 ≠ 0) && !s.licensed 2)

/-- CXL_WEIGHT: 0 selects 16 (R211). -/
def weightOf (w : Nat) : Nat := if w = 0 then 16 else w

/-- The new partition of PARTITION_CREATE: EMPTY. -/
def State.newPart (s : State) (n : Nat) : Partition :=
  let v := fun o k => s.param n o k
  { st := .empty, firstStripe := v 1 1, stripeCount := v 2 1, cxlWeight := weightOf (v 3 1), homeFrames := v 4 4
    spillFrames := v 8 4, slotFirst := v 12 4, slotCount := v 16 4, cxlFirst := v 20 4, cxlCount := v 24 4
    cringLog := v 28 1, cringBase := v 32 8 }

/-- PARTITION_CREATE (R398). -/
def execPartitionCreate (n : Nat) (s : State) : Res :=
  let p := s.param n 0 1
  s.drainCommand n 0x0101 (s.param n 1 1) (s.param n 2 1)
    [s.badLength n 40 false, s.badField n (s.badCreate n) (span 29 32), deviceScope n, noIf (s.createLicence n) stLicence
    , noIf (s.resets.any fun r => r.scope = 2 && r.index = p) stBusy]
    [stripeFault (s.withdrawnOf (s.param n 1 1) (s.param n 2 1))] fun s =>
      let s : State := { s with parts := tset s.parts p (s.newPart n) }
      let s := if s.cacheAt p then s.wantLine (cringKey p) else s
      s.okWith n []

/-- A partition reset begins (R426): its tiles, bells, tide state, counters, collective staging and fabric endpoints. It
ends with UNIT_RESET_DONE, and the command of page `n` with it. [DESIGN CHOICE, log entry 78] -/
def State.startPartReset (s : State) (p n : Nat) : State :=
  let ids := match (s.part p).image.bind fun b => b.fabric with
    | none => []
    | some f => f.channels.flatMap fun (c : Channel) => [c.id, 65536 + c.id]
  let s : State := { s with job := { s.job with chanBlocks := s.job.chanBlocks.filter fun e => !(ids.contains e.1) } }
  let s := each (List.range 6) (fun h st => st.modHport h fun x => { x with
    staged := x.staged.filter fun f => !(ids.contains f.channel), received := x.received.filter fun f => !(ids.contains f.channel) }) s
  let s := each (s.tilesOf p) (fun t st => (st.modTile t tileClear).signalAbsorb t) s
  let s := each (s.clustersOf p) (fun c st => st.modCluster c fun k => { k with bellChan := [], passed := [] }) s
  let s := s.modPart p fun q => { q with
    bellReady := false, resultsIn := false, faultBell := false, halted := false, causes := [], cause := none, stallSeen := [], named := []
    verdicts := [], results := [], admitted := [], nextAdmitted := [], admitTide := none, plans := []
    tidesCommitted := 0, tidesStretched := 0, stretchTotal := 0, stretchMax := 0, tidesAbandoned := 0, tidesReplayed := 0
    stretches := [], before := (0, 0, 0), streamsAdmitted := 0, deferrals := 0, verdictsIgnored := 0, draftsStale := 0
    doorbellsIgnored := 0, admitHeld := 0, movesDropped := 0, tierIgnored := 0, holdArea := [], bwWest := {}, bwEast := {} }
  { s with resets := s.resets ++ [{ scope := 2, index := p, mbx := some n }] }

/-- Zeros over the sealed weights of partition `p`: home areas of every stack, and weight ranges of its tiles (R509). -/
def State.wipeWeights (s : State) (p : Nat) : State :=
  let q := s.part p
  let inHome := fun (a : Nat) =>
    let m := a / 2 ^ 36
    let o := a % 2 ^ 36
    (s.portsOf p).contains m && decide (320 * 2 ^ 19 ≤ o) && decide (o < (320 + q.homeFrames) * 2 ^ 19)
  let s : State := { s with hbm := s.hbm.filter fun c => !(inHome c.1) }
  each (s.tilesOf p) (fun t st => st.modTile t fun x =>
    x.weights.foldl (fun y w => y.storeBytes (4 * w.word) (List.replicate (4 * w.words) 0)) x) s

/-- Partitions that hold sealed weights. -/
def State.sealedParts (s : State) : List Nat :=
  (s.parts.filter fun q => q.2.st ≠ .none && q.2.sealedWeights).map fun q => q.1

/-- Plain sealed weights are removed from the partitions, whose weights then count as not loaded; SEALED_CLEARED (R509). -/
def State.clearSealed (s : State) (l : List Nat) (cause : Nat) : State :=
  if l.isEmpty then s
  else
    let s := each l (fun p st => (st.wipeWeights p).modPart p fun q =>
      { q with sealedWeights := false, weightsLoaded := false }) s
    s.raiseDev 0x0805 1 mgmtUnit (cause * 2 ^ 8 + l.foldl (fun m p => m + 2 ^ p) 0)

/-- Partition `p`'s slots are CLOSED and its pages FREE (R396). -/
def State.unused (s : State) (p : Nat) : Bool :=
  let q := s.part p
  (s.streams.all fun x => !(decide (q.slotFirst ≤ x.1) && decide (x.1 < q.slotFirst + q.slotCount)) || x.2.st = .closed)
    && s.pages.all fun g => g.2.st = .free || s.partOfSlot g.2.owner ≠ some p

/-- PARTITION_DESTROY (R396, R426, R509): sealed weights go, staged frames are freed, and the partition reset begins. -/
def execPartitionDestroy (n : Nat) (s : State) : Res :=
  let p := s.param n 0 1
  let q := s.part p
  s.drainCommand n 0x0102 q.firstStripe q.stripeCount
    [s.badLength n 1 false, s.badField n [s.badPart n] [], deviceScope n, permit (q.idle && s.unused p), s.partBusy n p
    , noIf (s.resets.any fun r => r.scope = 2 && r.index = p) stBusy] [] fun s =>
      let s := s.clearSealed (if q.sealedWeights then [p] else []) 0
      let s : State := { s with stages := s.stages.filter fun g => !(g.part = p && (g.kind = 1 || g.kind = 2)) }
      s.startPartReset p n

/-- PARTITION_SET (R397): CXL_WEIGHT, and the completion ring, whose counters start again. [DESIGN CHOICE, log entry 77] [DEDUCED, log entry 91] -/
def execPartitionSet (n : Nat) (s : State) : Res :=
  let p := s.param n 0 1
  let what := s.param n 1 1
  let ring := bit what 1
  s.command n 0x0103
    [s.badLength n 40 false
    , s.badField n ([s.badPart n, (1, decide (what > 3))] ++ if ring then s.badRing n else []) ([2] ++ span 4 28 ++ span 29 32)
    , s.partScope n p, permit (s.part p).idle, s.partBusy n p] fun s =>
      let s := s.modPart p fun q =>
        let q : Partition := if bit what 0 then { q with cxlWeight := weightOf (s.param n 3 1) } else q
        if ring then { q with cringLog := s.param n 28 1, cringBase := s.param n 32 8, cringProducer := 0, cringConsumer := 0 }
        else q
      let s := if ring && s.cacheAt p then s.wantLine (cringKey p) else s
      s.okWith n []

/-- STATE of PARTITION_QUERY (R397). -/
def Partition.code (q : Partition) : Nat :=
  if q.stopPending && running q.st then 8
  else match q.st with
    | .none => 0
    | .empty => 1
    | .loaded => 2
    | .open_ => 3
    | .closing => 4
    | .boundary => 5
    | .abandoning => 6
    | .recovering => 7

/-- The response of PARTITION_QUERY (R397). -/
def State.partBytes (s : State) (p : Nat) : List Byte :=
  let q := s.part p
  if q.st = .none then leBytes 48 0
  else
    leBytes 1 q.code ++ leBytes 1 (b01 q.enableHeld.isSome + 2 * b01 q.weightsLoaded) ++ leBytes 6 q.tide
      ++ leBytes 1 p ++ leBytes 1 q.firstStripe ++ leBytes 1 q.stripeCount ++ leBytes 1 q.cxlWeight ++ leBytes 4 q.homeFrames
      ++ leBytes 4 q.spillFrames ++ leBytes 4 q.slotFirst ++ leBytes 4 q.slotCount ++ leBytes 4 q.cxlFirst
      ++ leBytes 4 q.cxlCount ++ leBytes 4 q.cringLog ++ leBytes 8 q.cringBase

/-- PARTITION_QUERY (R397): accepted on the mailbox of a partition that does not exist. -/
def execPartitionQuery (n : Nat) (s : State) : Res :=
  let p := s.param n 0 1
  s.command n 0x0104 [s.badLength n 1 false, s.badField n [s.badPart n] [], permit (n = 0 || n - 1 = p)] fun s =>
    s.okWith n (s.partBytes p)

/-! Power and telemetry (R409) -/

/-- POWER_CAP_SET (R409, R459). -/
def execPowerCapSet (n : Nat) (s : State) : Res :=
  let w := s.param n 0 4
  s.command n 0x0601
    [s.badLength n 4 false, s.badField n [(0, decide (w < 3000 ∨ w > 18000 ∨ w % 50 ≠ 0))] [], deviceScope n] fun s =>
      let s : State := { s with power := { s.power with capW := w } }
      s.okWith n (leBytes 4 s.effectiveW)

/-- FREQ_STEP_SET (R396, R409, R445): the step changes at the next tide boundary, where the command completes; at once while nothing
runs. -/
def execFreqStepSet (n : Nat) (s : State) : Res :=
  s.command n 0x0602 [s.badLength n 1 false, s.badField n [(0, decide (s.param n 0 1 > 7))] [], deviceScope n] fun s =>
    let s : State := { s with power := { s.power with minStep := s.param n 0 1 } }
    if s.parts.any fun q => running q.2.st then { s with freqWait := some n } else s.okWith n []

/-- The response of POWER_QUERY (R409). -/
def State.powerBytes (s : State) : List Byte :=
  let w := s.power
  leBytes 4 w.capW ++ leBytes 4 s.effectiveW ++ leBytes 4 w.vinMv ++ leBytes 4 w.iinMa ++ leBytes 4 s.powerIn
    ++ leBytes 1 w.step ++ leBytes 1 w.minStep ++ leBytes 2 s.lostPhases ++ leBytes 2 s.throttled

/-- POWER_QUERY (R409). -/
def execPowerQuery (n : Nat) (s : State) : Res :=
  s.command n 0x0603 [s.badLength n 0 false, permit (s.pageExists n)] fun s => s.okWith n s.powerBytes

/-- TELEMETRY_CONFIG (R409). -/
def execTelemetryConfig (n : Nat) (s : State) : Res :=
  let us := s.param n 0 4
  s.command n 0x0701
    [s.badLength n 8 false
    , s.badField n [(0, decide (us < 1000 ∨ us > 1000000 ∨ us % 1000 ≠ 0)), (4, decide (s.param n 4 4 > 7))] [], deviceScope n] fun s =>
      State.okWith { s with telemetryUs := us, telemetryKinds := BitVec.ofNat 3 (s.param n 4 4) } n []

/-- The response of COUNTERS_READ: the counters of R223, then of R311 (R409).
[DESIGN CHOICE, log entry 142] -/
def Partition.counterBytes (q : Partition) : List Byte :=
  [q.tidesCommitted, q.tidesStretched, q.stretchTotal, q.stretchMax, q.tidesAbandoned, q.tidesReplayed, q.streamsAdmitted
  , q.deferrals, q.verdictsIgnored, q.draftsStale, q.doorbellsIgnored, q.admitHeld].flatMap (leBytes 8)

/-- COUNTERS_READ (R396, R409): always accepted on MBX0; a partition that does not exist has counted nothing. -/
def execCountersRead (n : Nat) (s : State) : Res :=
  let p := s.param n 0 1
  s.command n 0x0702 [s.badLength n 1 false, s.badField n [s.badPart n] [], permit (s.pageExists n && (n = 0 || n - 1 = p))] fun s =>
    s.okWith n (s.part p).counterBytes

/-! Canaries, observation and queues (R409, R412, R483) -/

/-- CANARY_CONFIG (R409). -/
def execCanaryConfig (n : Nat) (s : State) : Res :=
  let p := s.param n 0 1
  let iv := s.param n 4 4
  let ob := s.param n 8 4
  s.command n 0x0801
    [s.badLength n 12 false
    , s.badField n [s.badPart n, (1, decide (s.param n 1 1 > 1)), (4, decide (iv < 1 ∨ iv > 65536)), (8, decide (ob < 1 ∨ ob > 1000000))]
        (span 2 4)
    , s.partScope n p, s.partBusy n p] fun s =>
      let s := s.modPart p fun q => { q with canaryNext := some (s.param n 1 1 = 1, iv, ob) }
      (if running (s.part p).st then s else s.settleCanary p).okWith n []

/-- TILE names no tile of the part (R4). -/
def State.badTile (s : State) (n : Nat) : Nat × Bool :=
  let t := s.param n 0 4
  (0, decide (t ≥ 80640) || !(s.onGrid (tileX t) (tileY t)))

/-- A tile named on page `n` lies in the page's partition (R393). -/
def State.tileScope (s : State) (n : Nat) (t : TileId) : Option No :=
  permit (s.pageExists n && (n = 0 || s.partOf t = some (n - 1)))

/-- TILE_OBSERVE (R396, R477, R483): applied from the next tide; a tile without a canary slot, or of a withdrawn stripe, is refused. -/
def execTileObserve (n : Nat) (s : State) : Res :=
  let t := s.param n 0 4
  s.command n 0x0802
    [s.badLength n 5 false, s.badField n [s.badTile n, (4, decide (s.param n 4 1 > 1))] [], s.tileScope n t
    , permit (bit (s.tile t).canary.toNat 31 && !(s.withdrawn.getLsbD (tileStripe t + s.sigma0)))
    , match s.partOf t with
      | some p => s.partBusy n p
      | none => none] fun s =>
        let on : Bool := s.param n 4 1 = 1
        let s := match s.partOf t with
          | some p => if running (s.part p).st then s.modPart p fun q => { q with observeNext := q.observeNext ++ [(t, on)] } else s.setObserve t on
          | none => s.setObserve t on
        s.okWith n []

/-- QUEUE_PEEK (R412): the records of Q0 to Q7 of a tile. -/
def execQueuePeek (n : Nat) (s : State) : Res :=
  let t := s.param n 0 4
  s.command n 0x0C01 [s.badLength n 4 false, s.badField n [s.badTile n] [], s.tileScope n t, permit s.dbg.tile] fun s =>
    s.okWith n ((List.range 8).flatMap fun q => (s.queueRecord t q).flatMap fun w => leBytes 4 w.toNat)

end Sys2Proof.Machine
end

