-- ==== Sys2Proof/Machine/Checks.lean ====
section
/-!
DEFINITION. The checks of a program image at its load (spec/08_tides.md R232 to R234; R168, R201, R225, R228, R270, R289 to
R291, R298, R324, R343, R457, R477). Each function says whether a part of the image offends.
-/

namespace Sys2Proof.Machine

/-! Tiles: queues, persistent and weight ranges, canary slots (R168, R228, R234, R477) -/

/-- Some two members of a list, in order, stand in relation `r`. -/
def anyPair {α : Type} (r : α → α → Bool) : List α → Bool
  | [] => false
  | a :: l => l.any (r a) || anyPair r l

/-- BASE and DEPTH of an enabled ring. -/
def ringOf (w : Word) : Nat × Nat := (bits w.toNat 8 0, bits w.toNat 18 9)

/-- A QCFG word offends by itself (R168). -/
def badQcfg (w : Word) : Bool :=
  let r := ringOf w
  let en := bit w.toNat 31
  decide (bits w.toNat 30 19 ≠ 0) || decide (r.1 + r.2 > 512) || (if en then decide (r.2 = 0) else decide (r.1 ≠ 0 ∨ r.2 ≠ 0))

/-- A tile's queue configuration offends (R168). -/
def badQueues (i : TileImage) : Bool :=
  let q := i.qctl.toNat
  decide (i.qcfg.length > 8) || i.qcfg.any badQcfg || decide (q < 10 ∨ q > 30)
    || anyPair (fun a b => overlap a.1 a.2 b.1 b.2) ((i.qcfg.filter fun w => bit w.toNat 31).map ringOf)

/-- A PERSIST word offends by itself (R226, R228): a declared range of no line is out of LINE_COUNT's range. [DEDUCED, log entry 92] -/
def badPersist (w : Word) : Bool :=
  let n := w.toNat
  decide (bits n 30 28 ≠ 0 ∨ bits n 13 11 ≠ 0)
    || (if persistEn w then decide (persistLines w = 0 ∨ persistStart w + persistLines w > 16384) else decide (persistStart w ≠ 0 ∨ persistLines w ≠ 0))

/-- Declared persistent ranges of a tile image, in words: first word and count. -/
def persistWords (i : TileImage) : List (Nat × Nat) :=
  (i.persist.filter persistEn).map fun w => (4 * persistStart w, 4 * persistLines w)

/-- Weight ranges of a tile image, in words. -/
def weightWords (i : TileImage) : List (Nat × Nat) := i.weights.map fun w => (w.word, w.words)

/-- Two word ranges overlap. -/
def clash (a b : Nat × Nat) : Bool := overlap a.1 a.2 b.1 b.2

/-- A tile's persistent ranges offend (R228). -/
def badPersists (i : TileImage) (markInterval : Nat) : Bool :=
  let l := persistWords i
  decide (i.persist.length > 4) || i.persist.any badPersist || anyPair clash l
    || l.any (fun a => (weightWords i).any (clash a)) || decide ((l.foldl (fun n a => n + a.2) 0) > 4096)
    || (decide (markInterval = 0) && !l.isEmpty)

/-- A weight range's home copy leaves the home area (R234, R253). -/
def badHome (homeFrames : Nat) (w : WeightRange) : Bool :=
  decide (w.home < 320 * 2 ^ 19) || decide (w.home + 4 * w.words > (320 + homeFrames) * 2 ^ 19)

/-- CANARY_AT and AREA_LINE (R477). -/
def canaryAt (w : Word) : Nat := bits w.toNat 23 14
/-- First line of a canary's area. -/
def canaryLine (w : Word) : Nat := bits w.toNat 13 0

/-- A tile's canary slot offends; `used` are word ranges of endpoints and receiver buffers in the tile (R477). -/
def badCanary (i : TileImage) (used : List (Nat × Nat)) : Bool :=
  let w := i.canary
  let area := (4 * canaryLine w, 64)
  decide (bits w.toNat 30 24 ≠ 0)
    || (if bit w.toNat 31 then
          decide (canaryAt w > 960) || ((List.range 64).any fun b => decide (tget 0 i.code (canaryAt w + b) ≠ 0))
            || decide (canaryLine w + 16 > 16384) || (weightWords i ++ persistWords i ++ used).any (clash area)
        else decide (canaryAt w ≠ 0 ∨ canaryLine w ≠ 0))

/-! Bells (R200, R201) -/

/-- BOUND of port `p` in a BELL_PORTS word. -/
def portBound (w : Word) (p : Nat) : Bool := bit w.toNat (5 * p + 4)
/-- CHAN of port `p`. -/
def portChan (w : Word) (p : Nat) : Nat := bits w.toNat (5 * p + 3) (5 * p)

/-- A tile's BELL_PORTS word offends, with its cluster's channel words (R201). -/
def badPorts (w : Word) (chan : Nat → Word) : Bool :=
  decide (bits w.toNat 31 20 ≠ 0)
    || [0, 1, 2, 3].any fun p => if portBound w p then decide (chanMode (chan (portChan w p)) = 0) else decide (portChan w p ≠ 0)

/-- A channel word offends: `bound` says whether a port is bound to it, `a` and `b` are the partition's first and last
stripe (R201). -/
def badChannel (w : Word) (bound : Bool) (a b : Nat) : Bool :=
  let m := chanMode w
  let d := chanDev w
  decide (bits w.toNat 31 8 ≠ 0) || decide (m = 3) || (decide (m < 2) && decide (d ≠ 0))
    || ((m = 1 || m = 2) && !bound) || (m = 2 && decide (d < 8 * a ∨ d > 8 * b + 7))

/-- The bell plan offends (R201). -/
def State.badBells (s : State) (p : Nat) (b : ProgramBody) : Bool :=
  let q := s.part p
  let mine := b.tiles.filter fun i => s.partOf i.tile = some p
  mine.any (fun i => badPorts i.bellPorts (bodyChan b (s.clusterOf i.tile)))
    || (s.clustersOf p).any fun c => (List.range 16).any fun h =>
      badChannel (bodyChan b c h)
        (mine.any fun i => s.clusterOf i.tile = c && [0, 1, 2, 3].any fun k => portBound i.bellPorts k && portChan i.bellPorts k = h)
        q.firstStripe (q.firstStripe + q.stripeCount - 1)

/-! Scripts, admission and tiering (R270, R289 to R291) -/

/-- Depth of the device at coordinates `c` in the drumbeat tree. -/
def Job.depth (b : Job) : Nat → Nat × Nat × Nat → Nat
  | 0, _ => 0
  | n + 1, c =>
    match b.parentPortAt c.1 c.2.1 c.2.2 with
    | none => 0
    | some q => 1 + b.depth n (b.stepFrom q c.1 c.2.1 c.2.2)

/-- Depth of the tree. -/
def Job.height (b : Job) : Nat := ((List.range b.devices).map fun r => b.depth 16 (b.coordsOf r)).foldl max 0

/-- Bytes of the broadcast of R342. -/
def castBytes (a : AdmissionSec) : Nat :=
  64 * (a.decodeSlots + a.prefillSlots) + 4 * a.prefillSlots * a.prefillTokens + 8192

/-- t_adm in mc (R291, R342). -/
def State.admTime (s : State) (p : Nat) (a : AdmissionSec) : Nat :=
  let bytes := (a.receivers.map fun r => recvSize r a).foldl (· + ·) 0
  let base := ((s.part p).slotCount * a.stepLimit + 31) / 32 + (bytes + 15) / 16 + 1024
  if s.job.formed then base + (castBytes a + 25) / 26 + 277 * (s.job.depth 16 (0, 0, 0) + s.job.height) else base

/-- A tile named by logical x and y lies in the partition. -/
def State.tileIn (s : State) (p x y : Nat) : Bool := s.onGrid x y && s.partOf (tileIx x y) = some p

/-- Word ranges of a receiver's two buffers (R291). -/
def recvWords (r : Receiver) (a : AdmissionSec) : List (Nat × Nat) :=
  [0, 1].map fun b => (recvBase r a b / 4, (recvSize r a + 3) / 4)

/-- Buffers of every receiver in tile `t`. -/
def bufferWords (a : AdmissionSec) (t : TileId) : List (Nat × Nat) :=
  (a.receivers.filter fun r => tileIx r.x r.y = t).flatMap fun r => recvWords r a

/-- The ADMISSION_SCRIPT section offends (R289 to R291). -/
def State.badAdmission (s : State) (p : Nat) (b : ProgramBody) : Bool :=
  let a := b.admission
  let slots := a.decodeSlots + a.prefillSlots
  let fields := decide (a.version ≠ 1) || !scriptOk a.code || decide (a.stepLimit < 16 ∨ a.stepLimit > 1024)
    || decide (a.decodeSlots > 4096) || decide (a.decodeTokens < 1 ∨ a.decodeTokens > 8) || decide (a.prefillSlots > 16)
    || decide (a.prefillTokens < 32 ∨ a.prefillTokens > 4096 ∨ a.prefillTokens % 32 ≠ 0)
    || decide (a.receivers.length < 1 ∨ a.receivers.length > 64)
  let recv := a.receivers.any fun r => decide (r.word % 16 ≠ 0 ∨ r.word ≥ 65536) || decide (r.slots < 1 ∨ r.slots > 256)
    || decide (r.firstSlot + r.slots > slots) || !s.tileIn p r.x r.y
  let cover := (List.range slots).any fun n =>
    !(a.receivers.any fun r => decide (r.firstSlot ≤ n) && decide (n < r.firstSlot + r.slots))
  let place := ((a.receivers.map fun r => tileIx r.x r.y).eraseDups).any fun t =>
    let w := bufferWords a t
    let held := match b.tiles.find? fun i => i.tile = t with
      | none => []
      | some i => weightWords i ++ persistWords i
    w.any (fun e => decide (e.1 + e.2 > 65536) || held.any (clash e)) || anyPair clash w
  fields || recv || cover || place || decide (s.admTime p a > b.params.nominalCc / 4)

/-- The TIERING_SCRIPT section offends (R270, R289). -/
def badTiering (t : TieringSec) : Bool :=
  decide (t.version ≠ 1) || !scriptOk t.code || decide (t.recency > 16) || decide (t.ahead > 16)

/-! Fabric and collectives (R320 to R324, R343) -/

/-- A channel id that no channel of an image may take (R321). -/
def idTaken (c : Nat) : Bool := (decide (0xFF00 ≤ c) && decide (c ≤ 0xFF3F)) || decide (0xFFE0 ≤ c)

/-- A slot table entry at index `k` offends (R320, R321, R324). -/
def badSlot (k : Nat) (w : Word) : Bool :=
  let v := w.toNat
  let kind := slotKind v
  decide (bits v 26 16 ≠ 0) || (decide (kind = 3) != decide (k % 16 = 0))
    || (if kind = 2 then decide (slotIn v > 5) else decide (slotIn v ≠ 0))
    || (if kind = 1 ∨ kind = 2 then decide (slotChan v > 0xFFE0) else decide (slotChan v ≠ 0))

/-- Words of a channel's endpoint: header line and data (R324). -/
def channelWords (c : Channel) : Nat × Nat := (c.word, 4 + 60 * c.blockFlits)

/-- Bytes of an element (R343). -/
def elemBytes (fmt : Nat) : Nat := if fmt = 0 then 4 else if fmt = 1 then 2 else 1

/-- Words of a segment: header line and data. -/
def segWords (fmt : Nat) (g : Segment) : Nat × Nat := (g.word, 4 + (g.len * elemBytes fmt + 3) / 4)

/-- Every endpoint of an image: its tile and words. -/
def endpointWords (b : ProgramBody) : List (TileId × Nat × Nat) :=
  (match b.fabric with
    | none => []
    | some f => f.channels.map fun c => (tileIx c.x c.y, channelWords c))
    ++ b.plans.flatMap fun c => (c.ins.map fun g => (tileIx g.x g.y, segWords c.inFmt g))
      ++ c.outs.map fun g => (tileIx g.x g.y, segWords c.outFmt g)

/-- Endpoints overlap each other or a weight or persistent range, or leave the scratchpad (R324). -/
def badEndpoints (b : ProgramBody) : Bool :=
  let l := endpointWords b
  anyPair (fun x y => x.1 = y.1 && clash x.2 y.2) l || l.any fun e => decide (e.2.1 + e.2.2 > 65536)
    || (match b.tiles.find? fun i => i.tile = e.1 with
      | none => false
      | some i => (weightWords i ++ persistWords i).any (clash e.2))

/-- A channel table entry offends (R324). -/
def State.badChannelEntry (s : State) (p : Nat) (f : FabricSec) (c : Channel) : Bool :=
  let share := 1024 / max 1 (f.channels.filter fun d => d.send && d.port = c.port).length
  idTaken c.id || decide (c.id ≥ 65536) || decide (c.peer ≥ 1024) || decide (c.blockFlits < 1 ∨ c.blockFlits > 64)
    || decide (c.notice > 7) || decide (c.word % 4 ≠ 0) || decide (c.blocks < 1 ∨ c.blocks > 65535) || !s.tileIn p c.x c.y
    || (if c.send then
          decide (c.port > 5) || decide (c.blockFlits > share)
            || !(f.slots.any fun e => decide (e.1 / 4096 = c.port) && decide (e.1 % 16 ≠ 0) && slotKind e.2.toNat = 1 && slotChan e.2.toNat = c.id)
        else decide (c.port ≠ 0))

/-- The FABRIC_SLOTS section offends (R324). -/
def State.badFabric (s : State) (p : Nat) (f : FabricSec) : Bool :=
  decide (f.version ≠ 1) || decide (f.channels.length > 4096) || f.slots.any (fun e => badSlot (e.1 % 4096) e.2)
    || (List.range 1536).any (fun i => slotKind (tget 0 f.slots (16 * i)).toNat ≠ 3)
    || f.channels.any (s.badChannelEntry p f)

/-- Elements of the shard of participant position `k` (R343). -/
def shardLen (e ps k : Nat) : Nat :=
  let sh := (e + ps - 1) / ps
  min ((k + 1) * sh) e - min (k * sh) e

/-- Output elements of a plan; none where they depend on a rank this device does not have yet. -/
def State.outLen (s : State) (c : CollPlan) : Option Nat :=
  let ps := c.participants.length
  match c.op with
  | 2 => some (ps * c.elems)
  | 1 => if s.job.formed then some (shardLen c.elems ps (c.participants.filter fun r => decide (r < s.job.rank)).length) else none
  | _ => some c.elems

/-- Staging bytes of a plan (R343). -/
def planStaging (c : CollPlan) : Nat :=
  let ps := c.participants.length
  if c.op = 2 then ps * c.elems * elemBytes c.inFmt
  else 4 * ps * ((c.elems + ps - 1) / max 1 ps) + (if c.op = 3 then 8 * c.elems else 0)

/-- A segment offends (R343). -/
def State.badSegment (s : State) (p : Nat) (g : Segment) : Bool :=
  decide (g.word % 4 ≠ 0) || decide (g.notice > 7) || decide (g.len > 2 ^ 21 - 1) || !s.tileIn p g.x g.y

/-- Elements of a list of segments. -/
def segLen (l : List Segment) : Nat := l.foldl (fun n g => n + g.len) 0

/-- A COLLECTIVE_SCRIPTS section offends (R343). -/
def State.badPlan (s : State) (p : Nat) (c : CollPlan) : Bool :=
  decide (c.version ≠ 1) || decide (c.plan > 63) || decide (c.op > 3) || decide (c.inFmt > 3) || decide (c.outFmt > 3)
    || (c.op = 2 && decide (c.outFmt ≠ c.inFmt)) || decide (c.participants.length < 1 ∨ c.participants.length > 1024)
    || c.participants.any (fun r => decide (r > 1023)) || decide (c.participants.eraseDups.length ≠ c.participants.length)
    || (s.job.formed && !(c.participants.contains s.job.rank)) || decide (c.elems < 1 ∨ c.elems > 2 ^ 20)
    || (if c.op = 3 then decide (c.interval < 1 ∨ c.interval > 65536) else decide (c.interval ≠ 0))
    || decide (c.ins.length < 1 ∨ c.ins.length > 256) || decide (c.outs.length > 256)
    || (if c.code.isEmpty then decide (c.stepLimit ≠ 0) else !scriptOk c.code || decide (c.stepLimit < 16 ∨ c.stepLimit > 1024))
    || (c.ins ++ c.outs).any (s.badSegment p) || decide (segLen c.ins ≠ c.elems)
    || (match s.outLen c with
      | none => false
      | some n => decide (segLen c.outs ≠ n))

/-- The plans offend: one by itself, a number used twice, or too much staging (R343). -/
def State.badPlans (s : State) (p : Nat) (l : List CollPlan) : Bool :=
  l.any (s.badPlan p) || decide (l.length > 64) || anyPair (fun a b => a.plan = b.plan) l
    || decide ((l.map planStaging).foldl (· + ·) 0 > (s.part p).stripeCount * 2 ^ 20)

/-! The other sections (R233, R298, R457) -/

/-- The TIDE_PARAMS block offends (R233, R234). -/
def badParams (a : TideParams) (stripes : Nat) : Bool :=
  let le := fun (v : Nat) => decide (v > 2 ^ 30)
  decide (a.blockVersion ≠ 1) || decide (a.stripeCount ≠ stripes) || decide (a.replayLimit < 1 ∨ a.replayLimit > 15)
    || decide (a.nominalCc < 4096) || le a.nominalCc || (decide (a.markNominalCc ≠ 0) && decide (a.markNominalCc < a.nominalCc))
    || le a.markNominalCc || decide (a.markInterval > 65536) || le a.stretchWarnCc || decide (a.jobDevices < 1 ∨ a.jobDevices > 1024)

/-- The EXPERT_CAPACITY section offends (R298). -/
def badCapacity (c : Nat × Nat × List Word) : Bool :=
  decide (c.1 < 1 ∨ c.1 > 1024) || decide (c.2.1 < 1 ∨ c.2.1 > 1024) || decide (c.2.2.length ≠ c.1 * c.2.1)

/-- Offsets start at 0 and rise strictly (R457); no entry at all is accepted. -/
def rising : List Nat → Bool
  | [] => true
  | [_] => true
  | a :: b :: r => decide (a < b) && rising (b :: r)

/-- The POWER_PLAN section offends (R457). -/
def badPower (l : List PowerEntry) : Bool :=
  let kind := fun (mark : Bool) => (l.filter fun e => PowerEntry.applies e mark).map fun e => e.offsetCc
  let badKind := fun (k : List Nat) => decide (k.headD 0 ≠ 0) || !rising k
  decide (l.length < 1 ∨ l.length > 256)
    || l.any (fun e => decide (e.offsetCc > 2 ^ 30) || decide (e.level > 1024) || decide (e.tides > 2))
    || badKind (kind true) || badKind (kind false)

/-- The types of R232 that every image carries, and those of a job's image (R324). [DEDUCED, log entry 94] -/
def requiredTypes (job : Bool) : List Nat :=
  [0x0101, 0x0102, 0x0103, 0x0104, 0x0105, 0x0107, 0x010B, 0x010C] ++ if job then [0x0106, 0x0109] else []

/-- The section list offends: one is missing, one is of no type of the table, a type that appears once appears again, or
FABRIC_SLOTS stands in an image that is not a job's (R232, R234, R324). -/
def badSections (l : List Nat) (job : Bool) : Bool :=
  (requiredTypes job).any (fun k => !(l.contains k)) || l.any (fun k => decide (k < 0x0101 ∨ k > 0x010C))
    || anyPair (fun a b => decide (a = b) && decide (a ≠ 0x0109)) l || (!job && l.contains 0x0106)

/-- BAD_FIELD of a program `b` of section types `l` for partition `p` (R234). -/
def State.badProgram (s : State) (p : Nat) (l : List Nat) (b : ProgramBody) : Bool :=
  let q := s.part p
  let mine := b.tiles.filter fun i => s.partOf i.tile = some p
  badSections l (decide (b.params.jobDevices > 1)) || !b.formOk || badParams b.params q.stripeCount
    || mine.any (fun i => badQueues i || badPersists i b.params.markInterval || i.weights.any (badHome q.homeFrames)
      || decide (i.entry ≥ 1024) || i.code.any (fun e => decide (e.1 ≥ 1024))
      || badCanary i (bufferWords b.admission i.tile ++ ((endpointWords b).filter fun e => e.1 = i.tile).map fun e => e.2))
    || decide (b.canaryEntries ≠ 10080 * q.stripeCount) || s.badBells p b || s.badAdmission p b
    || (match b.tiering with
      | none => false
      | some t => badTiering t)
    || (match b.fabric with
      | none => false
      | some f => s.badFabric p f)
    || s.badPlans p b.plans || badEndpoints b
    || (match b.capacity with
      | none => false
      | some c => badCapacity c)
    || badPower b.power

/-- BAD_FIELD of a program image for partition `p` (R234). -/
def State.badImage (s : State) (p : Nat) (i : Image) : Bool :=
  s.badProgram p ((sectionsOf i.bytes).map fun x => x.type) (programOf i (s.part p).firstStripe (s.part p).stripeCount)

end Sys2Proof.Machine
end

