-- ==== Sys2Proof/Machine/Images.lean ====
section
/-!
DEFINITION. Staging, verifying and loading images, installing packs, and the end of a unit reset (spec/14_mailboxes.md R399
to R401; spec/18_security.md R501 to R509; spec/08_tides.md R234; spec/17_reliability.md R485; spec/15_bringup_reset.md
R426, R427).
-/

namespace Sys2Proof.Machine

/-! Staging (R400) -/

/-- The staging of a kind and partition. -/
def State.stage (s : State) (kind part : Nat) : Option Stage := s.stages.find? fun g => g.kind = kind && g.part = part

/-- The state without the staging of a kind and partition. -/
def State.unstage (s : State) (kind part : Nat) : State :=
  { s with stages := s.stages.filter fun g => !(g.kind = kind && g.part = part) }

/-- KIND at byte 0 and PARTITION at byte 1 offend (R399). -/
def State.badKind (s : State) (n : Nat) : List (Nat × Bool) :=
  let k := s.param n 0 1
  let p := s.param n 1 1
  [(0, decide (k > 3)), (1, if ofPart k then decide (p > 7) else decide (k ≤ 3) && decide (p ≠ 0xFF))]

/-- The mailbox of IMAGE_STAGE, IMAGE_VERIFY and STAGE_DISCARD (R396). -/
def State.kindScope (s : State) (n : Nat) : Option No :=
  if ofPart (s.param n 0 1) then s.partScope n (s.param n 1 1) else deviceScope n

/-- BUSY while another page's command holds the partition of a staging. -/
def State.kindBusy (s : State) (n : Nat) : Option No :=
  if ofPart (s.param n 0 1) then s.partBusy n (s.param n 1 1) else none

/-- Bytes that a kind of flash staging holds (R400). -/
def flashRoom (kind : Nat) : Nat := if kind = 0 then 64 * 2 ^ 20 else 256 * 2 ^ 20

/-- Free tiered frames of partition `p` in ascending memory port and frame. -/
def State.freeFrames (s : State) (p : Nat) : List Nat := (sortBy (s.portsOf p) (· ≤ ·)).flatMap fun m => s.freeHbm p m

/-- Frames of 512 KiB for `bytes` bytes. -/
def framesFor (bytes : Nat) : Nat := (bytes + 2 ^ 19 - 1) / 2 ^ 19

/-- BAD_LENGTH of a chunk (R400). [DEDUCED, log entry 93] -/
def State.badChunk (s : State) (n : Nat) : Option No :=
  let m := s.mb n
  let size := s.bufLen n
  let last := s.param n 8 8 + size
  if m.sglCount = 0 then some { status := stLength }
  else if last > s.param n 16 8 ∨ (size % 4096 ≠ 0 ∧ last < s.param n 16 8) then
    some { status := stLength, offset := m.sglPos (m.sglCount - 1) + 8 }
  else none

/-- OFFSET and TOTAL of IMAGE_STAGE offend (R399, R400). [DEDUCED, log entry 90] -/
def State.badStage (s : State) (n : Nat) : List (Nat × Bool) :=
  let off := s.param n 8 8
  let cur := s.stage (s.param n 0 1) (s.param n 1 1)
  let cont := match cur with
    | none => false
    | some g => decide (off = g.staged)
  let same := match cur with
    | none => true
    | some g => decide (s.param n 16 8 = g.total)
  [(8, decide (off % 4096 ≠ 0) || (decide (off ≠ 0) && !cont)), (16, decide (off ≠ 0) && !same)]

/-- TOTAL bytes do not fit (R400). An earlier staging of the kind and partition is discarded first. -/
def State.noRoom (s : State) (kind p total : Nat) : Bool :=
  if ofPart kind then decide (((s.unstage kind p).freeFrames p).length < framesFor total) else decide (total > flashRoom kind)

/-- A staging begins (R400). -/
def State.beginStage (s : State) (kind p total : Nat) : State :=
  let s := s.unstage kind p
  let fr := if ofPart kind then (s.freeFrames p).take (framesFor total) else []
  let s : State := if kind = 0 then { s with flash := { s.flash with other := {} } } else s
  { s with stages := s.stages ++ [{ kind := kind, part := p, total := total, staged := 0, img := { bytes := [] }, frames := fr }] }

/-- The bytes of a chunk, `size` of them, follow the bytes staged so far. -/
def Stage.append (g : Stage) (size : Nat) (chunk : Image) : Stage :=
  { g with
    staged := g.staged + size
    img := { bytes := g.img.bytes ++ fill size chunk.bytes, tiles := g.img.tiles ++ chunk.tiles, bells := g.img.bells ++ chunk.bells } }

/-- Every staging of a kind and partition changed by `f`. -/
def State.modStage (s : State) (kind p : Nat) (f : Stage → Stage) : State :=
  { s with stages := s.stages.map fun g => if g.kind = kind ∧ g.part = p then f g else g }

/-- IMAGE_STAGE (R399, R400): the operand is the chunk in the data buffer. -/
def execImageStage (n : Nat) (chunk : Image) (s : State) : Res :=
  let kind := s.param n 0 1
  let p := s.param n 1 1
  let off := s.param n 8 8
  let total := s.param n 16 8
  s.command n 0x0201
    [s.badLength n 24 true, s.badChunk n, s.badField n (s.badKind n ++ s.badStage n) (span 2 8), s.kindScope n
    , permit (!ofPart kind || (s.part p).idle), permit (decide (kind ≠ 0) || !s.flash.onTrial), s.kindBusy n
    , noIf (decide (off = 0) && s.noRoom kind p total) stResource, s.noHost] fun s =>
      let s := if off = 0 then s.beginStage kind p total else s
      let size := s.bufLen n
      (s.modStage kind p fun g => g.append size chunk).okWith n (leBytes 8 (off + size))

/-- STAGE_DISCARD (R400). -/
def execStageDiscard (n : Nat) (s : State) : Res :=
  s.command n 0x0206 [s.badLength n 2 false, s.badField n (s.badKind n) [], s.kindScope n, s.kindBusy n] fun s =>
    (s.unstage (s.param n 0 1) (s.param n 1 1)).okWith n []

/-! Verification (R501 to R505, R508) -/

/-- Section types of an image kind, and the place of the key table (R502). Firmware sections are internal. -/
def typesOk (h : Header) (l : List Nat) : Bool :=
  match h.kind with
  | 0 => true
  | 1 => l.all fun k => decide (0x0101 ≤ k ∧ k ≤ 0x010C)
  | 2 => l.all (fun k => k = 0x0201 || k = 0x0202)
      && (if h.sealed then l.head? = some 0x0201 && (l.filter fun k => k = 0x0201).length = 1 else !l.contains 0x0201)
  | _ => l.all fun k => k = 0x0301 || k = 0x0302

/-- BAD_FIELD of a staged image (R503). -/
def State.badEnvelope (s : State) (kind : Nat) (g : Stage) : Bool :=
  let b := g.img.bytes
  let h := headerOf b
  !envelopeOk b || decide (h.kind ≠ kind) || decide (h.total ≠ g.total) || (decide (h.serial ≠ 0) && decide (h.serial ≠ s.fuses.serial))
    || !typesOk h ((sectionsOf b).map fun x => x.type)

/-- PURPOSES bit of an image kind (R498). -/
def purposeOf (kind : Nat) : Nat := if kind = 0 then 0 else 3

/-- DETAIL of a staged image's SIGNATURE_FAIL, 0 for none: 4, 2, 3, 1, 5 in that order (R503). -/
def State.signatureFault (s : State) (b : List Byte) : Nat :=
  let h := headerOf b
  let d := if ofPart h.kind then
      (match s.flash.ownerKey with
        | none => 4
        | some k => if h.endorsed then 2 else if signedBy k b then 0 else 1)
    else s.vendorFault b h.endorsed ((b.drop 64).take 276) (purposeOf h.kind)
  if d ≠ 0 then d
  else if h.sealed && (keyEntry ((sectionOf b 0x0201).getD []) s.fuses.serial).isNone then 5 else 0

/-- SIGNATURE_FAIL with a DETAIL. -/
def signFault (d : Nat) : Option No := if d = 0 then none else some { status := stSignature, detail := d }

/-- VERSION_MISMATCH of a staged image (R503). -/
def State.badVersion (s : State) (h : Header) : Bool :=
  ((h.kind = 0 || h.kind = 3) && decide (h.stepping ≠ s.fuses.stepping)) || (h.kind = 0 && decide (h.version < s.flash.fwFloor))

/-- The image verifies: it may be loaded, and firmware becomes the other bank's. -/
def State.verified (s : State) (kind p : Nat) (b : List Byte) : State :=
  let h := headerOf b
  let s := s.modStage kind p fun g => { g with verified := true, digest := imageDigest b }
  if kind = 0 then
    { s with flash := { s.flash with other :=
        { valid := true, verified := true, version := h.version, floor := h.floor, digest := imageDigest b } } }
  else s

/-- The response of IMAGE_VERIFY (R399). -/
def verifyBytes (kind : Nat) (b : List Byte) : List Byte :=
  let h := headerOf b
  shaBytes (b.take (b.length - 132)) ++ leBytes 4 h.version ++ leBytes 1 (b01 (ofPart kind)) ++ leBytes 1 (b01 h.sealed)

/-- IMAGE_VERIFY (R399, R400, R503). -/
def execImageVerify (n : Nat) (s : State) : Res :=
  let kind := s.param n 0 1
  let p := s.param n 1 1
  let st := s.stage kind p
  let done := match st with
    | none => false
    | some g => decide (g.staged = g.total)
  let onImage := fun (f : Stage → Option No) => match st with
    | none => none
    | some g => f g
  s.command n 0x0202
    [s.badLength n 2 false, s.badField n (s.badKind n) [], onImage fun g => noIf (done && s.badEnvelope kind g) stField
    , s.kindScope n, permit done, onImage fun g => signFault (s.signatureFault g.img.bytes)
    , onImage fun g => noIf (s.badVersion (headerOf g.img.bytes)) stVersion, s.kindBusy n] fun s =>
      match st with
      | none => s
      | some g => (s.verified kind p g.img.bytes).okWith n (verifyBytes kind g.img.bytes)

/-! PROGRAM_LOAD (R234, R401, R426) -/

/-- A check of the verified image of a kind staged for partition `p`; without one the command is not permitted (R401). -/
def State.onVerified (s : State) (kind p : Nat) (f : Image → Option No) : Option No :=
  match s.stage kind p with
  | none => some { status := stDenied }
  | some g => if g.verified then f g.img else some { status := stDenied }

/-- The staged bytes, read again, have a digest other than the verified one (R504). -/
def State.stale (s : State) (kind p : Nat) : Bool :=
  match s.stage kind p with
  | none => false
  | some g => g.verified && decide (imageDigest g.img.bytes ≠ g.digest)

/-- SIGNATURE_FAIL with DETAIL 1 for a digest other than the verified one (R504). -/
def State.staleFault (s : State) (kind p : Nat) : Option No := signFault (if s.stale kind p then 1 else 0)

/-- The program a staged image holds for partition `p`. -/
def State.programFor (s : State) (p : Nat) (i : Image) : ProgramBody := programOf i (s.part p).firstStripe (s.part p).stripeCount

/-- PROGRAM_LOAD (R234, R504): checks in the order of R234, then the partition reset; the image is written when it ends. -/
def execProgramLoad (n : Nat) (s : State) : Res :=
  let p := s.param n 0 1
  let q := s.part p
  s.command n 0x0203
    [s.badLength n 1 false, s.badField n [s.badPart n] [], s.partScope n p, permit q.idle, s.onVerified 1 p fun _ => none
    , s.staleFault 1 p
    , s.onVerified 1 p fun i => noIf ((s.programFor p i).params.arithEpoch ≠ 1 || (s.programFor p i).params.fabricEpoch ≠ 1) stVersion
    , s.onVerified 1 p fun i => noIf (s.badImage p i) stField, s.partBusy n p
    , noIf (s.resets.any fun r => r.scope = 2 && r.index = p) stBusy, stripeFault (s.withdrawnIn p)] fun s =>
      (s.clearSealed (if q.sealedWeights then [p] else []) 1).startPartReset p n

/-- The image of a PROGRAM_LOAD is written after the partition reset (R234, R401): every instruction store, configuration
word, script and table; LOADED.
[DESIGN CHOICE, log entry 154] -/
def State.finishLoad (s : State) (p : Nat) : State :=
  match s.stage 1 p with
  | none => s
  | some g =>
    let b := s.programFor p g.img
    let s := (s.unstage 1 p).modPart p fun q => { q with
      st := .loaded, image := some b, imageDigest := g.digest, imageFrames := g.frames, weights := none, weightsLoaded := false
      weightDigest := 0, sealedWeights := false, ranSinceLoad := false, tide := 0, markSlot := none, lastCommitted := 0
      lastStretch := 0, replaying := false, replays := 0, plans := b.plans.map fun c => (c.plan, ({} : PlanState)) }
    let s := each (s.tilesOf p) (fun t st => match st.imageOf t with
      | none => st
      | some i => st.modTile t fun x => configTile x i) s
    each (s.clustersOf p) (fun c st => st.restoreBells c) s

/-- PARTITION_DESTROY ends (R373, R396): the partition is removed, and its ring line with it. -/
def State.removePart (s : State) (p : Nat) : State := State.dropLine { s with parts := tdel s.parts p } (cringKey p)

/-- UNIT_RESET_DONE (R427): the reset of a tile, cluster or partition ends and RESET_DONE is raised. A partition reset waits
for its pages' moves (R426). A command that waited for the reset ends. -/
def execUnitResetDone (scope index : Nat) (s : State) : Res :=
  match s.resets.find? fun r => r.scope = scope && r.index = index with
  | none => .next s
  | some r =>
    if scope = 2 && !(s.part index).moves.isEmpty then .next s
    else
      let s := { s with resets := s.resets.filter fun u => !(u.scope = scope && u.index = index) }
      let s := each ((s.resetTiles scope index).filter fun t => (s.tile t).inReset) (fun t st => st.modTile t fun x =>
        { x with inReset := false }) s
      let unit := match scope with
        | 0 => index
        | 1 => unitId 1 index
        | _ => unitId 2 ((s.part index).firstStripe + s.sigma0)
      let opcode := match r.mbx with
        | none => 0
        | some m => (s.mb m).opcode
      let s := if scope = 2 && opcode = 0x0203 then s.finishLoad index
        else if scope = 2 && opcode = 0x0102 then s.removePart index else s
      .next ((s.raiseDev 0x0106 1 unit (scope * 2 ^ 62 + sat r.absorbed 0xFFFFFFFF)).okHeld r.mbx r.resp)

/-! WEIGHT_LOAD (R253, R401, R502, R508) -/

/-- Home data would reach outside the home area (R401, R502). -/
def badHomeData (homeFrames : Nat) (h : HomeData) : Bool :=
  decide (h.offset < 320 * 2 ^ 19) || decide (h.offset + h.bytes.length > (320 + homeFrames) * 2 ^ 19)

/-- The home data of a staged weight image, decrypted where it is sealed (R502, R507); none where a key or a tag fails. -/
def State.homesOf (s : State) (i : Image) : Option WeightBody :=
  (homeSections i.bytes (sealScalar (leBytes 64 s.fuses.identitySeed.toNat)) s.fuses.serial).map fun l => { home := l.map homeDataOf }

/-- The home areas of a partition hold the image's home data and zeros elsewhere (R253). -/
def State.writeHomes (s : State) (p : Nat) (w : WeightBody) : State :=
  let q := s.part p
  let keep := fun (a : Nat) =>
    let o := a % 2 ^ 36
    !((s.portsOf p).contains (a / 2 ^ 36)) || decide (o < 320 * 2 ^ 19) || decide ((320 + q.homeFrames) * 2 ^ 19 ≤ o)
  let m := s.hbm.filter fun c => keep c.1
  { s with hbm := (s.portsOf p).foldl (fun m port => w.home.foldl (fun m h => memPut m (hbmAddr port h.offset) h.bytes) m) m }

/-- The weights of a partition are loaded from an image of a digest (R401). -/
def State.loadAllWeights (s : State) (p : Nat) (w : WeightBody) (digest : BitVec 512) (sealed : Bool) : State :=
  let s := (s.writeHomes p w).modPart p fun q => { q with
    weights := some w, weightsLoaded := true, weightDigest := digest, sealedWeights := sealed }
  each (s.tilesOf p) (fun t st => st.loadWeights t) s

/-- The weights of a partition count as not loaded (R401, R504). -/
def State.unloadWeights (s : State) (p : Nat) : State :=
  s.modPart p Partition.unloaded

/-- A sealed load fails at its wrapped key or a tag (R508): zeros over what was written. -/
def State.failedUnwrap (s : State) (p n : Nat) : State :=
  ((s.wipeWeights p).unloadWeights p).refuse n { status := stSignature, detail := 6 }

/-- An uncorrectable error in a frame that holds a staging, found and not yet repaired: the read of its bytes fails. -/
def State.stageUnread (s : State) (kind p : Nat) : Bool :=
  match s.stage kind p with
  | none => false
  | some g => (s.part p).hbmRows.any fun r => g.frames.contains (hbmFrame r.1 (r.2 / 2 ^ 19))

/-- WEIGHT_LOAD (R253, R401, R504, R508). A frame whose bytes cannot be read makes it fail with HW_FAULT, which leaves the weights
not loaded, as a digest other than the verified one does. [DEDUCED, log entry 149] -/
def execWeightLoad (n : Nat) (s : State) : Res :=
  let p := s.param n 0 1
  s.commandElse n 0x0204
    [s.badLength n 1 false, s.badField n [s.badPart n] []
    , s.onVerified 2 p fun i => match s.homesOf i with
        | none => none
        | some w => noIf (w.home.any (badHomeData (s.part p).homeFrames)) stField
    , s.partScope n p, permit ((s.part p).st = .loaded)
    , s.onVerified 2 p fun i => noIf ((headerOf i.bytes).sealed && !s.licensed 3) stLicence, s.staleFault 2 p
    , s.partBusy n p, noIf (s.resets.any fun r => r.scope = 2 && r.index = p) stBusy, noIf (s.stageUnread 2 p) stHw]
    (fun r st => if r.status = stSignature || r.status = stHw then st.unloadWeights p else st) fun s =>
      match s.stage 2 p with
      | none => s
      | some g =>
        match s.homesOf g.img with
        | none => (s.unstage 2 p).failedUnwrap p n
        | some w => ((s.unstage 2 p).loadAllWeights p w g.digest (headerOf g.img.bytes).sealed).okWith n []

/-! PACK_INSTALL (R401, R485) -/

/-- Bytes of the pattern store that installed packs share. -/
def packRoom : Nat := 3 * 2 ^ 30

/-- The installed packs with `k` in the place of its id; a pack without kernels and patterns only removes (R485). -/
def putPack (l : List Pack) (k : Pack) : List Pack :=
  let rest := l.filter fun a => a.id ≠ k.id
  if k.kernels.isEmpty ∧ k.patterns = 0 then rest else sortBy (rest ++ [k]) fun a b => a.id ≤ b.id

/-- The pack of a staged image (R485). -/
def packOf (i : Image) : Pack :=
  let h := headerOf i.bytes
  { id := h.packId, version := h.version, kernels := kernelsOf i.bytes, patterns := patternsOf i.bytes, size := h.total }

/-- PACK_INSTALL (R401, R485, R504). -/
def execPackInstall (n : Nat) (s : State) : Res :=
  s.command n 0x0205
    [s.badLength n 0 false, deviceScope n, s.onVerified 3 0xFF fun _ => none, s.staleFault 3 0xFF
    , s.onVerified 3 0xFF fun i =>
        let k := packOf i
        noIf (s.flash.packs.any (fun a => a.id = k.id && decide (k.version ≤ a.version))
          || (decide (k.patterns ≠ 0) && decide ((headerOf i.bytes).stepping ≠ s.fuses.stepping))) stVersion
    , s.onVerified 3 0xFF fun i =>
        noIf (decide (((putPack s.flash.packs (packOf i)).map fun a => a.size).foldl (· + ·) 0 > packRoom)) stResource] fun s =>
      match s.stage 3 0xFF with
      | none => s
      | some g =>
        let k := packOf g.img
        let s : State := { s.unstage 3 0xFF with flash := { s.flash with packs := putPack s.flash.packs k } }
        (s.raiseDev 0x070C 0 mgmtUnit (k.id * 2 ^ 48 + k.version * 2 ^ 16 + k.kernels.length)).okWith n []

end Sys2Proof.Machine
end

