-- ==== Sys2Proof/Machine/TileArr.lean ====
section
/-!
DEFINITION. The array slot (spec/05_tile_program.md R127 to R130): ARR.RUN, ARR.WIN, ARR.RD, ARR.WR.
-/

namespace Sys2Proof.Machine

/-- The parameters of an ARR.RUN from its fields and register words (R127, R128). -/
def arrParams (mode aonly keep wbuf : Nat) (w k a : Nat) (ecc bundle : Nat) : ArrRun :=
  { mode := mode, aonly := decide (aonly = 1), keep := decide (keep = 1), wbuf := wbuf
    wfmt := bits k 31 28, afmt := bits k 27 24, panel := decide (bits k 31 28 ≥ 10) || bit w 30
    runLen := bits w 29 18 + 1, waddr := bits w 17 0, accBase := bits k 23 14
    rowsA := match mode with
      | 0 => 1
      | 1 => bits k 13 12 + 1
      | _ => bits k 13 8 + 1
    rowsB := if aonly = 1 then 0 else match mode with
      | 0 => 1
      | 1 => bits k 11 10 + 1
      | _ => bits k 13 8 + 1
    stride := bits a 31 18 * 4, aaddr := bits a 17 0, issue := ecc, rowAddr := bits w 17 0, bundle := bundle }

/-- ARRAY_RANGE at issue (R128). -/
def arrRange (mode aonly w k : Nat) : Bool :=
  let r := arrParams mode aonly 0 0 w k 0 0 0
  bit w 31 || decide (bits k 7 0 ≠ 0) || (bit w 30 && decide (r.wfmt ≠ 8) && decide (r.wfmt ≠ 9))
    || (decide (mode < 2) && decide (r.runLen > 1024)) || decide (r.waddr % 256 ≠ 0)
    || (match mode with
        | 0 => decide (bits k 13 8 ≠ 0)
        | 1 => decide (bits k 9 8 ≠ 0) || (decide (aonly = 1) && decide (bits k 11 10 ≠ 0))
        | _ => false)
    || decide (r.accBase + columnsOf mode * max r.rowsA r.rowsB > 1024)
    || (!r.panel && decide (r.waddr + (r.blocks + 3) / 4 * plainRow r.wfmt (columnsOf mode) > 262144))

/-- The first-stage checks of ARR.RUN, in order (R127 to R129, R147). -/
def arrRunCheck (t : TileId) (mode aonly wbuf sW sK sA rsv : Nat) (s : State) : Option Nat :=
  let w := (s.rs t 1 0 sW).toNat
  let k := (s.rs t 1 1 sK).toNat
  if rsv ≠ 0 ∨ mode = 3 ∨ (mode = 2 ∧ wbuf = 1) ∨ (mode < 2 ∧ sA ≠ 0) then some 0x0220
  else if arrRange mode aonly w k then some 0x0223
  else if !(pairOk (bits k 31 28) (bits k 27 24)) then some 0x0222
  else if (s.tile t).pendRun.isSome then some 0x0221
  else none

/-- Start or queue an operation (R77, R79): it runs at once where the pair is free for it. -/
def State.issueRun (s : State) (t : TileId) (r : ArrRun) : State :=
  s.modTile t fun x =>
    if x.run.isNone && (decide (r.mode = 2) || x.tails.isEmpty) then { x with run := some r } else { x with pendRun := some r }

/-- ARR.NOP. -/
def execArrNop (t : TileId) (rsv : BitVec 22) (s : State) : Res := tileOp t 1 (unused rsv.toNat) id s

/-- ARR.RUN (R77, R127, R128). -/
def execArrRun (t : TileId) (mode : BitVec 2) (aonly keep wbuf : BitVec 1) (sW sK sA : BitVec 5) (rsv : BitVec 2)
    (s : State) : Res :=
  tileOp t 1 (arrRunCheck t mode.toNat aonly.toNat wbuf.toNat sW.toNat sK.toNat sA.toNat rsv.toNat) (fun s =>
    s.issueRun t (arrParams mode.toNat aonly.toNat keep.toNat wbuf.toNat (s.rs t 1 0 sW.toNat).toNat
      (s.rs t 1 1 sK.toNat).toNat (s.rs t 1 2 sA.toNat).toNat (s.tile t).ecc (s.tile t).bundle)) s

/-- ARR.WIN (R81, R130): one window row of one buffer, and the block's scale. -/
def execArrWin (t : TileId) (array buffer : BitVec 1) (row : BitVec 2) (vA sS : BitVec 5) (rsv : BitVec 8) (s : State) :
    Res :=
  tileOp t 1 (unused rsv.toNat) (fun s =>
    let l := (s.rv t 1 0 vA.toNat).map fun w => BitVec.ofNat 16 w.toNat
    let sc := BitVec.ofNat 8 (s.rs t 1 1 sS.toNat).toNat
    let w : WinRow := { lanes := l, scale := sc }
    s.modTile t fun x => x.later 1 1 (.win (array.toNat * 8 + buffer.toNat * 4 + row.toNat) w)) s

/-- First entry of ARR.RD and ARR.WR: imm + sI, an unsigned 32-bit sum (R127). -/
def State.arrEntry (s : State) (t : TileId) (imm sI : Nat) : Nat := (imm + (s.rs t 1 0 sI).toNat) % 2 ^ 32

/-- ARR.RD (R74, R130): running sums as they stand at the start of the cycle, into vD at latency 3. -/
def execArrRd (t : TileId) (array : BitVec 1) (imm : BitVec 10) (sI vD : BitVec 5) (rsv : BitVec 1) (s : State) : Res :=
  tileOp t 1 (fun s => if rsv.toNat ≠ 0 then some 0x0220
      else if s.arrEntry t imm.toNat sI.toNat + 31 > 1023 then some 0x0223 else none) (fun s =>
    let e := s.arrEntry t imm.toNat sI.toNat
    s.modTile t fun x => x.wV 1 3 vD.toNat ((List.range 32).map fun i =>
      (tget ({} : AccEntry) x.acc (array.toNat * 1024 + e + i)).sum)) s

/-- An entry range of 32 belongs to the range of an operation on that array (R130). -/
def ArrRun.covers (r : ArrRun) (array e : Nat) : Bool :=
  let n := columnsOf r.mode * (if array = 0 then r.rowsA else r.rowsB)
  decide (e < r.accBase + n) && decide (r.accBase < e + 32) && decide (0 < n)

/-- A result is still on its way to one of 32 entries. -/
def Tile.summing (x : Tile) (array e : Nat) : Bool :=
  x.pend.any fun w => match w.dest with
    | .sum k _ _ _ => decide (array * 1024 + e ≤ k) && decide (k < array * 1024 + e + 32)
    | _ => false

/-- Entries that ARR.WR may not write (R130): those of a running or pending operation. One counts as running until its last
result is added. [DESIGN CHOICE, log entry 40] -/
def Tile.entriesBusy (x : Tile) (array e : Nat) : Bool :=
  (x.run.toList ++ x.pendRun.toList ++ x.tails).any (·.covers array e) || x.summing array e

/-- ARR.WR (R130): running sums from vS, from the next cycle. -/
def execArrWr (t : TileId) (array : BitVec 1) (imm : BitVec 10) (sI vS : BitVec 5) (rsv : BitVec 1) (s : State) : Res :=
  tileOp t 1 (fun s =>
    let e := s.arrEntry t imm.toNat sI.toNat
    let x := s.tile t
    if rsv.toNat ≠ 0 then some 0x0220
    else if e + 31 > 1023 then some 0x0223
    else if x.entriesBusy array.toNat e then some 0x0221
    else none) (fun s =>
    let e := s.arrEntry t imm.toNat sI.toNat
    let l := s.rv t 1 1 vS.toNat
    s.modTile t fun x => (List.range 32).foldl (fun y i => y.later 1 1 (.acc (array.toNat * 1024 + e + i) (l.getD i 0))) x) s

end Sys2Proof.Machine
end

