-- ==== Sys2Proof/Machine/TileVec.lean ====
section
/-!
DEFINITION. The vector slot (spec/05_tile_program.md R131 to R133, R138): every operation of R131 with its latency.
-/

namespace Sys2Proof.Machine

/-- One vector operation whose whole result lands in vD at latency `lat` (R138). -/
def vecOp (t : TileId) (rsv lat vD : Nat) (f : State → List Word) (s : State) : Res :=
  tileOp t 2 (unused rsv) (fun s => s.modTile t fun x => x.wV 2 lat vD (f s)) s

/-- A lane operation of two registers at latency 4. -/
def vecBin (t : TileId) (vD vA vB rsv : Nat) (f : Word → Word → Word) (s : State) : Res :=
  vecOp t rsv 4 vD (fun s => List.zipWith f (s.rv t 2 0 vA) (s.rv t 2 1 vB)) s

/-- A lane operation of one register at latency 4. -/
def vecUn (t : TileId) (vD vA rsv : Nat) (f : Word → Word) (s : State) : Res :=
  vecOp t rsv 4 vD (fun s => (s.rv t 2 0 vA).map f) s

/-- A lane operation of three registers at latency 4. -/
def vecTri (t : TileId) (vD vA vB vC rsv : Nat) (f : Word → Word → Word → Word) (s : State) : Res :=
  vecOp t rsv 4 vD (fun s => List.zipWith (fun (a : Word × Word) c => f a.1 a.2 c)
    ((s.rv t 2 0 vA).zip (s.rv t 2 1 vB)) (s.rv t 2 2 vC)) s

/-- VNOP. -/
def execVnop (t : TileId) (rsv : BitVec 22) (s : State) : Res := tileOp t 2 (unused rsv.toNat) id s

/-- VADD (R55, R131). -/
def execVadd (t : TileId) (vD vA vB : BitVec 5) (rsv : BitVec 7) (s : State) : Res :=
  vecBin t vD.toNat vA.toNat vB.toNat rsv.toNat fadd s

/-- VSUB. -/
def execVsub (t : TileId) (vD vA vB : BitVec 5) (rsv : BitVec 7) (s : State) : Res :=
  vecBin t vD.toNat vA.toNat vB.toNat rsv.toNat fsub s

/-- VMUL. -/
def execVmul (t : TileId) (vD vA vB : BitVec 5) (rsv : BitVec 7) (s : State) : Res :=
  vecBin t vD.toNat vA.toNat vB.toNat rsv.toNat fmul s

/-- VFMA: rounded once. -/
def execVfma (t : TileId) (vD vA vB vC : BitVec 5) (rsv : BitVec 2) (s : State) : Res :=
  vecTri t vD.toNat vA.toNat vB.toNat vC.toNat rsv.toNat ffma s

/-- VMAX. -/
def execVmax (t : TileId) (vD vA vB : BitVec 5) (rsv : BitVec 7) (s : State) : Res :=
  vecBin t vD.toNat vA.toNat vB.toNat rsv.toNat fmax s

/-- VMIN. -/
def execVmin (t : TileId) (vD vA vB : BitVec 5) (rsv : BitVec 7) (s : State) : Res :=
  vecBin t vD.toNat vA.toNat vB.toNat rsv.toNat fmin s

/-- VABS. -/
def execVabs (t : TileId) (vD vA : BitVec 5) (rsv : BitVec 12) (s : State) : Res :=
  vecUn t vD.toNat vA.toNat rsv.toNat fabs s

/-- VNEG. -/
def execVneg (t : TileId) (vD vA : BitVec 5) (rsv : BitVec 12) (s : State) : Res :=
  vecUn t vD.toNat vA.toNat rsv.toNat fneg s

/-- VMOV: a bit copy. -/
def execVmov (t : TileId) (vD vA : BitVec 5) (rsv : BitVec 12) (s : State) : Res :=
  vecUn t vD.toNat vA.toNat rsv.toNat id s

/-- VBCAST. -/
def execVbcast (t : TileId) (vD sA : BitVec 5) (rsv : BitVec 12) (s : State) : Res :=
  vecOp t rsv.toNat 4 vD.toNat (fun s => List.replicate 32 (s.rs t 2 0 sA.toNat)) s

/-- VCMP: conditions 4 to 7 are reserved. -/
def execVcmp (t : TileId) (vD vA vB : BitVec 5) (cond : BitVec 3) (rsv : BitVec 4) (s : State) : Res :=
  vecBin t vD.toNat vA.toNat vB.toNat (rsv.toNat + cond.toNat / 4) (cmpMask cond.toNat) s

/-- VSEL: vA where the vC lane is non-zero, else vB. -/
def execVsel (t : TileId) (vD vA vB vC : BitVec 5) (rsv : BitVec 2) (s : State) : Res :=
  vecTri t vD.toNat vA.toNat vB.toNat vC.toNat rsv.toNat (fun a b c => if c = 0 then b else a) s

/-- VREDSUM: the fixed tree of R56 at latency 8. -/
def execVredsum (t : TileId) (vD vA : BitVec 5) (rsv : BitVec 12) (s : State) : Res :=
  vecOp t rsv.toNat 8 vD.toNat (fun s => List.replicate 32 (tree32 fadd 0 (s.rv t 2 0 vA.toNat))) s

/-- VREDMAX: the fixed tree of R56 at latency 6. -/
def execVredmax (t : TileId) (vD vA : BitVec 5) (rsv : BitVec 12) (s : State) : Res :=
  vecOp t rsv.toNat 6 vD.toNat (fun s => List.replicate 32 (tree32 fmax 0 (s.rv t 2 0 vA.toNat))) s

/-- VCVT (R132): sat only with codes 0 to 2, code 15 reserved. [DEDUCED, log entry 36] -/
def execVcvt (t : TileId) (vD vA vB : BitVec 5) (code : BitVec 4) (sat : BitVec 1) (rsv : BitVec 2) (s : State) : Res :=
  tileOp t 2 (mustHold (code.toNat ≠ 15 && (decide (code.toNat < 3) || sat.toNat = 0)) rsv.toNat) (fun s =>
    s.modTile t fun x => x.wV 2 3 vD.toNat
      (List.zipWith (cvtLane code.toNat (sat.toNat = 1)) (s.rv t 2 0 vA.toNat) (s.rv t 2 1 vB.toNat))) s

/-- VMXQ (R45, R133): elements to vD, the scale byte to sD, both at latency 6. -/
def execVmxq (t : TileId) (vD vA : BitVec 5) (fmt : BitVec 4) (sD : BitVec 5) (rsv : BitVec 3) (s : State) : Res :=
  tileOp t 2 (mustHold (vmxqFmt fmt.toNat).isSome rsv.toNat) (fun s =>
    let q := mxQuantise ((vmxqFmt fmt.toNat).getD .e4m3) (s.rv t 2 0 vA.toNat)
    s.modTile t fun x => (x.wV 2 6 vD.toNat (q.2.map (BitVec.ofNat 32 ·))).wS 2 6 sD.toNat (BitVec.ofNat 32 q.1)) s

/-- The 32 word addresses of a vector access, modulo 65,536 (R131, R133). -/
def State.vectorWords (s : State) (t : TileId) (sA imm : Nat) : List Nat :=
  (List.range 32).map fun n => ((s.rs t 2 0 sA).toNat + imm + n) % 65536

/-- VLD at latency 5. -/
def execVld (t : TileId) (vD sA : BitVec 5) (imm : BitVec 12) (s : State) : Res :=
  tileOp t 2 (unused 0) (fun s =>
    let r := s.progRead t 2 1 (s.vectorWords t sA.toNat imm.toNat)
    match r.2 with
    | none => r.1
    | some l => r.1.modTile t fun x => x.wV 2 5 vD.toNat l) s

/-- VST, visible at latency 2. -/
def execVst (t : TileId) (vS sA : BitVec 5) (imm : BitVec 12) (s : State) : Res :=
  tileOp t 2 (unused 0) (fun s =>
    s.progWrite t 2 ((s.vectorWords t sA.toNat imm.toNat).zip (s.rv t 2 1 vS.toNat))) s

/-- VSFU (R58 to R60, R133): SFU_BUSY within 3 cycles of the previous one, else its results at latency 12. -/
def execVsfu (t : TileId) (vD vA : BitVec 5) (fn : BitVec 2) (rsv : BitVec 10) (s : State) : Res :=
  tileOp t 2 (fun s =>
    if rsv.toNat ≠ 0 then some 0x0220
    else match (s.tile t).sfuAt with
      | some c => if (s.tile t).ecc ≤ c + 3 then some 0x0225 else none
      | none => none) (fun s =>
    s.modTile t fun x => ({ x with sfuAt := some x.ecc }).wV 2 12 vD.toNat ((s.rv t 2 0 vA.toNat).map (sfu fn.toNat))) s

/-- VRNG (R61, R133). -/
def execVrng (t : TileId) (vD vA vB : BitVec 5) (rsv : BitVec 7) (s : State) : Res :=
  vecOp t rsv.toNat 6 vD.toNat (fun s => vrngLanes (s.rv t 2 0 vA.toNat) (s.rv t 2 1 vB.toNat)) s

/-- VIADD: modulo 2^32. -/
def execViadd (t : TileId) (vD vA vB : BitVec 5) (rsv : BitVec 7) (s : State) : Res :=
  vecBin t vD.toNat vA.toNat vB.toNat rsv.toNat (fun a b => a + b) s

/-- VAND. -/
def execVand (t : TileId) (vD vA vB : BitVec 5) (rsv : BitVec 7) (s : State) : Res :=
  vecBin t vD.toNat vA.toNat vB.toNat rsv.toNat (fun a b => a &&& b) s

/-- VSHR: by bits [4:0] of the vB lane. -/
def execVshr (t : TileId) (vD vA vB : BitVec 5) (rsv : BitVec 7) (s : State) : Res :=
  vecBin t vD.toNat vA.toNat vB.toNat rsv.toNat (fun a b => a >>> (b.toNat % 32)) s

/-- VEXT: one lane into a scalar register at latency 2. -/
def execVext (t : TileId) (sD vA lane : BitVec 5) (rsv : BitVec 7) (s : State) : Res :=
  tileOp t 2 (unused rsv.toNat) (fun s =>
    s.modTile t fun x => x.wS 2 2 sD.toNat ((s.rv t 2 0 vA.toNat).getD lane.toNat 0)) s

/-- VINS: one lane of vD at latency 4. -/
def execVins (t : TileId) (vD sA lane : BitVec 5) (rsv : BitVec 7) (s : State) : Res :=
  tileOp t 2 (unused rsv.toNat) (fun s =>
    s.modTile t fun x => x.later 2 4 (.v vD.toNat [(lane.toNat, s.rs t 2 0 sA.toNat)])) s

end Sys2Proof.Machine
end

