-- ==== Sys2Proof/Machine/Bundle.lean ====
section
/-!
DEFINITION. Bundles (spec/05_tile_program.md R112, R113): the five slots of a 128-bit bundle decoded into commands by the
tables of R119, R127, R131, R134 and R136, and the effect of a slot's operation.
-/

namespace Sys2Proof.Machine

/-- Bits hi down to lo of a slot as a field of `w` bits. -/
def fld (w v lo : Nat) : BitVec w := BitVec.ofNat w (v / 2 ^ lo)

/-- The control slot (R119). A reserved opcode reads as a NOP with an unused bit set, which R113 faults in the same way. [DEDUCED, log entry 35] -/
def decControl (t : TileId) (c : Nat) : Instr :=
  match bits c 23 19 with
  | 0x00 => .nop t (fld 19 c 0)
  | 0x01 => .salu t (fld 5 c 14) (fld 5 c 9) (fld 5 c 4) (fld 4 c 0)
  | 0x02 => .saddi t (fld 5 c 14) (fld 5 c 9) (fld 9 c 0)
  | 0x03 => .sli t (fld 5 c 14) (fld 14 c 0)
  | 0x04 => .slic t (fld 5 c 14) (fld 14 c 0)
  | 0x05 => .sld t (fld 5 c 14) (fld 5 c 9) (fld 9 c 0)
  | 0x06 => .sst t (fld 5 c 14) (fld 5 c 9) (fld 9 c 0)
  | 0x07 => .scmp t (fld 3 c 16) (fld 5 c 11) (fld 5 c 6) (fld 3 c 3) (fld 3 c 0)
  | 0x08 => .scmpi t (fld 3 c 16) (fld 5 c 11) (fld 3 c 8) (fld 8 c 0)
  | 0x09 => .plog t (fld 3 c 16) (fld 3 c 13) (fld 3 c 10) (fld 2 c 8) (fld 8 c 0)
  | 0x0A => .scsr t (fld 5 c 14) (fld 5 c 9) (fld 9 c 0)
  | 0x0B => .br t (fld 1 c 18) (fld 3 c 15) (fld 10 c 5) (fld 5 c 0)
  | 0x0C => .loop t (fld 5 c 14) (fld 10 c 4) (fld 4 c 0)
  | 0x0D => .loopi t (fld 9 c 10) (fld 10 c 0)
  | 0x0E => .bellRing t (fld 2 c 17) (fld 17 c 0)
  | 0x0F => .bellWait t (fld 2 c 17) (fld 17 c 0)
  | 0x10 => if bit c 18 then .hintHeavy t (fld 18 c 0) else .hintLight t (fld 18 c 0)
  | 0x11 =>
    if bit c 18 then .specConfirmVerdict t (fld 5 c 13) (fld 5 c 8) (fld 8 c 0)
    else .specConfirm t (fld 5 c 13) (fld 5 c 8) (fld 8 c 0)
  | 0x12 => if bit c 18 then .specDiscardVerdict t (fld 5 c 13) (fld 13 c 0) else .specDiscard t (fld 5 c 13) (fld 13 c 0)
  | 0x13 => .end_ t (fld 19 c 0)
  | _ => .nop t 1

/-- The array slot (R127). -/
def decArray (t : TileId) (c : Nat) : Instr :=
  match bits c 25 22 with
  | 0x0 => .arrNop t (fld 22 c 0)
  | 0x1 => .arrRun t (fld 2 c 20) (fld 1 c 19) (fld 1 c 18) (fld 1 c 17) (fld 5 c 12) (fld 5 c 7) (fld 5 c 2) (fld 2 c 0)
  | 0x2 => .arrWin t (fld 1 c 21) (fld 1 c 20) (fld 2 c 18) (fld 5 c 13) (fld 5 c 8) (fld 8 c 0)
  | 0x3 => .arrRd t (fld 1 c 21) (fld 10 c 11) (fld 5 c 6) (fld 5 c 1) (fld 1 c 0)
  | 0x4 => .arrWr t (fld 1 c 21) (fld 10 c 11) (fld 5 c 6) (fld 5 c 1) (fld 1 c 0)
  | _ => .arrNop t 1

/-- The vector slot (R131). -/
def decVector (t : TileId) (c : Nat) : Instr :=
  let d : BitVec 5 := fld 5 c 17
  let a : BitVec 5 := fld 5 c 12
  let b : BitVec 5 := fld 5 c 7
  match bits c 27 22 with
  | 0x00 => .vnop t (fld 22 c 0)
  | 0x01 => .vadd t d a b (fld 7 c 0)
  | 0x02 => .vsub t d a b (fld 7 c 0)
  | 0x03 => .vmul t d a b (fld 7 c 0)
  | 0x04 => .vfma t d a b (fld 5 c 2) (fld 2 c 0)
  | 0x05 => .vmax t d a b (fld 7 c 0)
  | 0x06 => .vmin t d a b (fld 7 c 0)
  | 0x07 => .vabs t d a (fld 12 c 0)
  | 0x08 => .vneg t d a (fld 12 c 0)
  | 0x09 => .vmov t d a (fld 12 c 0)
  | 0x0A => .vbcast t d a (fld 12 c 0)
  | 0x0B => .vcmp t d a b (fld 3 c 4) (fld 4 c 0)
  | 0x0C => .vsel t d a b (fld 5 c 2) (fld 2 c 0)
  | 0x0D => .vredsum t d a (fld 12 c 0)
  | 0x0E => .vredmax t d a (fld 12 c 0)
  | 0x0F => .vcvt t d a b (fld 4 c 3) (fld 1 c 2) (fld 2 c 0)
  | 0x10 => .vmxq t d a (fld 4 c 8) (fld 5 c 2) (fld 1 c 7 ++ fld 2 c 0)
  | 0x11 => .vld t d a (fld 12 c 0)
  | 0x12 => .vst t d a (fld 12 c 0)
  | 0x13 => .vsfu t d a (fld 2 c 5) (fld 5 c 7 ++ fld 5 c 0)
  | 0x14 => .vrng t d a b (fld 7 c 0)
  | 0x15 => .viadd t d a b (fld 7 c 0)
  | 0x16 => .vand t d a b (fld 7 c 0)
  | 0x17 => .vshr t d a b (fld 7 c 0)
  | 0x18 => .vext t d a b (fld 7 c 0)
  | 0x19 => .vins t d a b (fld 7 c 0)
  | _ => .vnop t 1

/-- The mover slot (R134). -/
def decMover (t : TileId) (c : Nat) : Instr :=
  match bits c 23 20 with
  | 0x0 => .mvNop t (fld 20 c 0)
  | 0x1 => .mvIssue t (fld 4 c 16) (fld 5 c 11) (fld 11 c 0)
  | 0x2 => .mvWait t (fld 16 c 0) (fld 4 c 16)
  | 0x3 => .mvTest t (fld 3 c 17) (fld 4 c 13) (fld 13 c 0)
  | _ => .mvNop t 1

/-- The queue slot (R136). -/
def decQueue (t : TileId) (c : Nat) : Instr :=
  match bits c 25 21 with
  | 0x00 => .qNop t (fld 21 c 0)
  | 0x01 => .qSend t (fld 3 c 18) (fld 3 c 15) (fld 2 c 13) (fld 5 c 8) (fld 5 c 3) (fld 3 c 0)
  | 0x02 => .qSendv t (fld 3 c 18) (fld 3 c 15) (fld 2 c 13) (fld 5 c 8) (fld 3 c 5) (fld 5 c 0)
  | 0x03 => .qRecv t (fld 3 c 18) (fld 2 c 16) (fld 5 c 11) (fld 11 c 0)
  | 0x04 => .qRecvv t (fld 3 c 18) (fld 2 c 16) (fld 5 c 11) (fld 3 c 8) (fld 8 c 0)
  | 0x05 => .qTest t (fld 3 c 18) (fld 3 c 15) (fld 15 c 0)
  | _ => .qNop t 1

/-- The five operations of a bundle, in slot order (R112). -/
def decBundle (t : TileId) (w : Nat) : List Instr :=
  [decControl t (bits w 127 104), decArray t (bits w 103 78), decVector t (bits w 77 50), decMover t (bits w 49 26)
  , decQueue t (bits w 25 0)]

/-- The control slot's word of an operation (R119). -/
def encControl (i : Instr) : Nat :=
  match i with
  | .nop _ rsv => rsv.toNat
  | .salu _ rd ra rb fn => 1 * 2 ^ 19 + rd.toNat * 2 ^ 14 + ra.toNat * 2 ^ 9 + rb.toNat * 2 ^ 4 + fn.toNat
  | .saddi _ rd ra imm => 2 * 2 ^ 19 + rd.toNat * 2 ^ 14 + ra.toNat * 2 ^ 9 + imm.toNat
  | .sli _ rd imm => 3 * 2 ^ 19 + rd.toNat * 2 ^ 14 + imm.toNat
  | .slic _ rd imm => 4 * 2 ^ 19 + rd.toNat * 2 ^ 14 + imm.toNat
  | .sld _ rd ra imm => 5 * 2 ^ 19 + rd.toNat * 2 ^ 14 + ra.toNat * 2 ^ 9 + imm.toNat
  | .sst _ rs ra imm => 6 * 2 ^ 19 + rs.toNat * 2 ^ 14 + ra.toNat * 2 ^ 9 + imm.toNat
  | .scmp _ pd ra rb cond rsv => 7 * 2 ^ 19 + pd.toNat * 2 ^ 16 + ra.toNat * 2 ^ 11 + rb.toNat * 2 ^ 6 + cond.toNat * 2 ^ 3 + rsv.toNat
  | .scmpi _ pd ra cond imm => 8 * 2 ^ 19 + pd.toNat * 2 ^ 16 + ra.toNat * 2 ^ 11 + cond.toNat * 2 ^ 8 + imm.toNat
  | .plog _ pd pa pb fn rsv => 9 * 2 ^ 19 + pd.toNat * 2 ^ 16 + pa.toNat * 2 ^ 13 + pb.toNat * 2 ^ 10 + fn.toNat * 2 ^ 8 + rsv.toNat
  | .scsr _ rd index rsv => 10 * 2 ^ 19 + rd.toNat * 2 ^ 14 + index.toNat * 2 ^ 9 + rsv.toNat
  | .br _ inv p target rsv => 11 * 2 ^ 19 + inv.toNat * 2 ^ 18 + p.toNat * 2 ^ 15 + target.toNat * 2 ^ 5 + rsv.toNat
  | .loop _ sc endB rsv => 12 * 2 ^ 19 + sc.toNat * 2 ^ 14 + endB.toNat * 2 ^ 4 + rsv.toNat
  | .loopi _ count endB => 13 * 2 ^ 19 + count.toNat * 2 ^ 10 + endB.toNat
  | .bellRing _ port rsv => 14 * 2 ^ 19 + port.toNat * 2 ^ 17 + rsv.toNat
  | .bellWait _ port rsv => 15 * 2 ^ 19 + port.toNat * 2 ^ 17 + rsv.toNat
  | .hintLight _ rsv => 16 * 2 ^ 19 + rsv.toNat
  | .hintHeavy _ rsv => 16 * 2 ^ 19 + 2 ^ 18 + rsv.toNat
  | .specConfirm _ sa sb rsv => 17 * 2 ^ 19 + sa.toNat * 2 ^ 13 + sb.toNat * 2 ^ 8 + rsv.toNat
  | .specDiscard _ sa rsv => 18 * 2 ^ 19 + sa.toNat * 2 ^ 13 + rsv.toNat
  | .specConfirmVerdict _ sa sb rsv => 17 * 2 ^ 19 + 2 ^ 18 + sa.toNat * 2 ^ 13 + sb.toNat * 2 ^ 8 + rsv.toNat
  | .specDiscardVerdict _ sa rsv => 18 * 2 ^ 19 + 2 ^ 18 + sa.toNat * 2 ^ 13 + rsv.toNat
  | .deferralNotice _ sa rsv => 18 * 2 ^ 19 + 2 ^ 18 + sa.toNat * 2 ^ 13 + rsv.toNat
  | .end_ _ rsv => 19 * 2 ^ 19 + rsv.toNat
  | _ => 0

/-- The array slot's word of an operation (R127). -/
def encArray (i : Instr) : Nat :=
  match i with
  | .arrNop _ rsv => rsv.toNat
  | .arrRun _ mode aonly keep wbuf sW sK sA rsv => 1 * 2 ^ 22 + mode.toNat * 2 ^ 20 + aonly.toNat * 2 ^ 19 + keep.toNat * 2 ^ 18 + wbuf.toNat * 2 ^ 17 + sW.toNat * 2 ^ 12 + sK.toNat * 2 ^ 7 + sA.toNat * 2 ^ 2 + rsv.toNat
  | .arrWin _ array buffer row vA sS rsv => 2 * 2 ^ 22 + array.toNat * 2 ^ 21 + buffer.toNat * 2 ^ 20 + row.toNat * 2 ^ 18 + vA.toNat * 2 ^ 13 + sS.toNat * 2 ^ 8 + rsv.toNat
  | .arrRd _ array imm sI vD rsv => 3 * 2 ^ 22 + array.toNat * 2 ^ 21 + imm.toNat * 2 ^ 11 + sI.toNat * 2 ^ 6 + vD.toNat * 2 ^ 1 + rsv.toNat
  | .arrWr _ array imm sI vS rsv => 4 * 2 ^ 22 + array.toNat * 2 ^ 21 + imm.toNat * 2 ^ 11 + sI.toNat * 2 ^ 6 + vS.toNat * 2 ^ 1 + rsv.toNat
  | _ => 0

/-- The vector slot's word of an operation (R131). -/
def encVector (i : Instr) : Nat :=
  match i with
  | .vnop _ rsv => rsv.toNat
  | .vadd _ vD vA vB rsv => 1 * 2 ^ 22 + vD.toNat * 2 ^ 17 + vA.toNat * 2 ^ 12 + vB.toNat * 2 ^ 7 + rsv.toNat
  | .vsub _ vD vA vB rsv => 2 * 2 ^ 22 + vD.toNat * 2 ^ 17 + vA.toNat * 2 ^ 12 + vB.toNat * 2 ^ 7 + rsv.toNat
  | .vmul _ vD vA vB rsv => 3 * 2 ^ 22 + vD.toNat * 2 ^ 17 + vA.toNat * 2 ^ 12 + vB.toNat * 2 ^ 7 + rsv.toNat
  | .vfma _ vD vA vB vC rsv => 4 * 2 ^ 22 + vD.toNat * 2 ^ 17 + vA.toNat * 2 ^ 12 + vB.toNat * 2 ^ 7 + vC.toNat * 2 ^ 2 + rsv.toNat
  | .vmax _ vD vA vB rsv => 5 * 2 ^ 22 + vD.toNat * 2 ^ 17 + vA.toNat * 2 ^ 12 + vB.toNat * 2 ^ 7 + rsv.toNat
  | .vmin _ vD vA vB rsv => 6 * 2 ^ 22 + vD.toNat * 2 ^ 17 + vA.toNat * 2 ^ 12 + vB.toNat * 2 ^ 7 + rsv.toNat
  | .vabs _ vD vA rsv => 7 * 2 ^ 22 + vD.toNat * 2 ^ 17 + vA.toNat * 2 ^ 12 + rsv.toNat
  | .vneg _ vD vA rsv => 8 * 2 ^ 22 + vD.toNat * 2 ^ 17 + vA.toNat * 2 ^ 12 + rsv.toNat
  | .vmov _ vD vA rsv => 9 * 2 ^ 22 + vD.toNat * 2 ^ 17 + vA.toNat * 2 ^ 12 + rsv.toNat
  | .vbcast _ vD sA rsv => 10 * 2 ^ 22 + vD.toNat * 2 ^ 17 + sA.toNat * 2 ^ 12 + rsv.toNat
  | .vcmp _ vD vA vB cond rsv => 11 * 2 ^ 22 + vD.toNat * 2 ^ 17 + vA.toNat * 2 ^ 12 + vB.toNat * 2 ^ 7 + cond.toNat * 2 ^ 4 + rsv.toNat
  | .vsel _ vD vA vB vC rsv => 12 * 2 ^ 22 + vD.toNat * 2 ^ 17 + vA.toNat * 2 ^ 12 + vB.toNat * 2 ^ 7 + vC.toNat * 2 ^ 2 + rsv.toNat
  | .vredsum _ vD vA rsv => 13 * 2 ^ 22 + vD.toNat * 2 ^ 17 + vA.toNat * 2 ^ 12 + rsv.toNat
  | .vredmax _ vD vA rsv => 14 * 2 ^ 22 + vD.toNat * 2 ^ 17 + vA.toNat * 2 ^ 12 + rsv.toNat
  | .vcvt _ vD vA vB code sat rsv => 15 * 2 ^ 22 + vD.toNat * 2 ^ 17 + vA.toNat * 2 ^ 12 + vB.toNat * 2 ^ 7 + code.toNat * 2 ^ 3 + sat.toNat * 2 ^ 2 + rsv.toNat
  | .vmxq _ vD vA fmt sD rsv => 16 * 2 ^ 22 + vD.toNat * 2 ^ 17 + vA.toNat * 2 ^ 12 + fmt.toNat * 2 ^ 8 + (rsv.toNat / 4) * 2 ^ 7 + sD.toNat * 2 ^ 2 + rsv.toNat % 4
  | .vld _ vD sA imm => 17 * 2 ^ 22 + vD.toNat * 2 ^ 17 + sA.toNat * 2 ^ 12 + imm.toNat
  | .vst _ vS sA imm => 18 * 2 ^ 22 + vS.toNat * 2 ^ 17 + sA.toNat * 2 ^ 12 + imm.toNat
  | .vsfu _ vD vA fn rsv => 19 * 2 ^ 22 + vD.toNat * 2 ^ 17 + vA.toNat * 2 ^ 12 + (rsv.toNat / 32) * 2 ^ 7 + fn.toNat * 2 ^ 5 + rsv.toNat % 32
  | .vrng _ vD vA vB rsv => 20 * 2 ^ 22 + vD.toNat * 2 ^ 17 + vA.toNat * 2 ^ 12 + vB.toNat * 2 ^ 7 + rsv.toNat
  | .viadd _ vD vA vB rsv => 21 * 2 ^ 22 + vD.toNat * 2 ^ 17 + vA.toNat * 2 ^ 12 + vB.toNat * 2 ^ 7 + rsv.toNat
  | .vand _ vD vA vB rsv => 22 * 2 ^ 22 + vD.toNat * 2 ^ 17 + vA.toNat * 2 ^ 12 + vB.toNat * 2 ^ 7 + rsv.toNat
  | .vshr _ vD vA vB rsv => 23 * 2 ^ 22 + vD.toNat * 2 ^ 17 + vA.toNat * 2 ^ 12 + vB.toNat * 2 ^ 7 + rsv.toNat
  | .vext _ sD vA lane rsv => 24 * 2 ^ 22 + sD.toNat * 2 ^ 17 + vA.toNat * 2 ^ 12 + lane.toNat * 2 ^ 7 + rsv.toNat
  | .vins _ vD sA lane rsv => 25 * 2 ^ 22 + vD.toNat * 2 ^ 17 + sA.toNat * 2 ^ 12 + lane.toNat * 2 ^ 7 + rsv.toNat
  | _ => 0

/-- The mover slot's word of an operation (R134). -/
def encMover (i : Instr) : Nat :=
  match i with
  | .mvNop _ rsv => rsv.toNat
  | .mvIssue _ tag sD rsv => 1 * 2 ^ 20 + tag.toNat * 2 ^ 16 + sD.toNat * 2 ^ 11 + rsv.toNat
  | .mvWait _ mask rsv => 2 * 2 ^ 20 + rsv.toNat * 2 ^ 16 + mask.toNat
  | .mvTest _ pd tag rsv => 3 * 2 ^ 20 + pd.toNat * 2 ^ 17 + tag.toNat * 2 ^ 13 + rsv.toNat
  | _ => 0

/-- The queue slot's word of an operation (R136). -/
def encQueue (i : Instr) : Nat :=
  match i with
  | .qNop _ rsv => rsv.toNat
  | .qSend _ route queue len sS sT rsv => 1 * 2 ^ 21 + route.toNat * 2 ^ 18 + queue.toNat * 2 ^ 15 + len.toNat * 2 ^ 13 + sS.toNat * 2 ^ 8 + sT.toNat * 2 ^ 3 + rsv.toNat
  | .qSendv _ route queue len vS group sT => 2 * 2 ^ 21 + route.toNat * 2 ^ 18 + queue.toNat * 2 ^ 15 + len.toNat * 2 ^ 13 + vS.toNat * 2 ^ 8 + group.toNat * 2 ^ 5 + sT.toNat
  | .qRecv _ queue len sD rsv => 3 * 2 ^ 21 + queue.toNat * 2 ^ 18 + len.toNat * 2 ^ 16 + sD.toNat * 2 ^ 11 + rsv.toNat
  | .qRecvv _ queue len vD group rsv => 4 * 2 ^ 21 + queue.toNat * 2 ^ 18 + len.toNat * 2 ^ 16 + vD.toNat * 2 ^ 11 + group.toNat * 2 ^ 8 + rsv.toNat
  | .qTest _ pd queue rsv => 5 * 2 ^ 21 + pd.toNat * 2 ^ 18 + queue.toNat * 2 ^ 15 + rsv.toNat
  | _ => 0

/-- The word of a bundle from its five operations in slot order (R112). -/
def encBundle (c a v m q : Instr) : Nat :=
  encControl c * 2 ^ 104 + encArray a * 2 ^ 78 + encVector v * 2 ^ 50 + encMover m * 2 ^ 26 + encQueue q

/-- The tile and the slot (0 control, 1 array, 2 vector, 3 mover, 4 queue) of a slot's operation; none of other commands. -/
def slotOf (i : Instr) : Option (TileId × Nat) :=
  match i with
  | .nop t _ => some (t, 0)
  | .salu t _ _ _ _ => some (t, 0)
  | .saddi t _ _ _ => some (t, 0)
  | .sli t _ _ => some (t, 0)
  | .slic t _ _ => some (t, 0)
  | .sld t _ _ _ => some (t, 0)
  | .sst t _ _ _ => some (t, 0)
  | .scmp t _ _ _ _ _ => some (t, 0)
  | .scmpi t _ _ _ _ => some (t, 0)
  | .plog t _ _ _ _ _ => some (t, 0)
  | .scsr t _ _ _ => some (t, 0)
  | .br t _ _ _ _ => some (t, 0)
  | .loop t _ _ _ => some (t, 0)
  | .loopi t _ _ => some (t, 0)
  | .bellRing t _ _ => some (t, 0)
  | .bellWait t _ _ => some (t, 0)
  | .hintLight t _ => some (t, 0)
  | .hintHeavy t _ => some (t, 0)
  | .specConfirm t _ _ _ => some (t, 0)
  | .specDiscard t _ _ => some (t, 0)
  | .specConfirmVerdict t _ _ _ => some (t, 0)
  | .specDiscardVerdict t _ _ => some (t, 0)
  | .deferralNotice t _ _ => some (t, 0)
  | .end_ t _ => some (t, 0)
  | .arrNop t _ => some (t, 1)
  | .arrRun t _ _ _ _ _ _ _ _ => some (t, 1)
  | .arrWin t _ _ _ _ _ _ => some (t, 1)
  | .arrRd t _ _ _ _ _ => some (t, 1)
  | .arrWr t _ _ _ _ _ => some (t, 1)
  | .vnop t _ => some (t, 2)
  | .vadd t _ _ _ _ => some (t, 2)
  | .vsub t _ _ _ _ => some (t, 2)
  | .vmul t _ _ _ _ => some (t, 2)
  | .vfma t _ _ _ _ _ => some (t, 2)
  | .vmax t _ _ _ _ => some (t, 2)
  | .vmin t _ _ _ _ => some (t, 2)
  | .vabs t _ _ _ => some (t, 2)
  | .vneg t _ _ _ => some (t, 2)
  | .vmov t _ _ _ => some (t, 2)
  | .vbcast t _ _ _ => some (t, 2)
  | .vcmp t _ _ _ _ _ => some (t, 2)
  | .vsel t _ _ _ _ _ => some (t, 2)
  | .vredsum t _ _ _ => some (t, 2)
  | .vredmax t _ _ _ => some (t, 2)
  | .vcvt t _ _ _ _ _ _ => some (t, 2)
  | .vmxq t _ _ _ _ _ => some (t, 2)
  | .vld t _ _ _ => some (t, 2)
  | .vst t _ _ _ => some (t, 2)
  | .vsfu t _ _ _ _ => some (t, 2)
  | .vrng t _ _ _ _ => some (t, 2)
  | .viadd t _ _ _ _ => some (t, 2)
  | .vand t _ _ _ _ => some (t, 2)
  | .vshr t _ _ _ _ => some (t, 2)
  | .vext t _ _ _ _ => some (t, 2)
  | .vins t _ _ _ _ => some (t, 2)
  | .mvNop t _ => some (t, 3)
  | .mvIssue t _ _ _ => some (t, 3)
  | .mvWait t _ _ => some (t, 3)
  | .mvTest t _ _ _ => some (t, 3)
  | .qNop t _ => some (t, 4)
  | .qSend t _ _ _ _ _ _ => some (t, 4)
  | .qSendv t _ _ _ _ _ _ => some (t, 4)
  | .qRecv t _ _ _ _ => some (t, 4)
  | .qRecvv t _ _ _ _ _ => some (t, 4)
  | .qTest t _ _ _ => some (t, 4)
  | _ => none

/-- The effect of a slot's operation; no other command is one. -/
def tileExec (i : Instr) (s : State) : Res :=
  match i with
  | .nop t rsv => execNop t rsv s
  | .salu t rd ra rb fn => execSalu t rd ra rb fn s
  | .saddi t rd ra imm => execSaddi t rd ra imm s
  | .sli t rd imm => execSli t rd imm s
  | .slic t rd imm => execSlic t rd imm s
  | .sld t rd ra imm => execSld t rd ra imm s
  | .sst t rs ra imm => execSst t rs ra imm s
  | .scmp t pd ra rb cond rsv => execScmp t pd ra rb cond rsv s
  | .scmpi t pd ra cond imm => execScmpi t pd ra cond imm s
  | .plog t pd pa pb fn rsv => execPlog t pd pa pb fn rsv s
  | .scsr t rd index rsv => execScsr t rd index rsv s
  | .br t inv p target rsv => execBr t inv p target rsv s
  | .loop t sc endB rsv => execLoop t sc endB rsv s
  | .loopi t count endB => execLoopi t count endB s
  | .bellRing t port rsv => execBellRing t port rsv s
  | .bellWait t port rsv => execBellWait t port rsv s
  | .hintLight t rsv => execHintLight t rsv s
  | .hintHeavy t rsv => execHintHeavy t rsv s
  | .specConfirm t sa sb rsv => execSpecConfirm t sa sb rsv s
  | .specDiscard t sa rsv => execSpecDiscard t sa rsv s
  | .specConfirmVerdict t sa sb rsv => execSpecConfirmVerdict t sa sb rsv s
  | .specDiscardVerdict t sa rsv => execSpecDiscardVerdict t sa rsv s
  | .deferralNotice t sa rsv => execDeferralNotice t sa rsv s
  | .end_ t rsv => execEnd t rsv s
  | .arrNop t rsv => execArrNop t rsv s
  | .arrRun t mode aonly keep wbuf sW sK sA rsv => execArrRun t mode aonly keep wbuf sW sK sA rsv s
  | .arrWin t array buffer row vA sS rsv => execArrWin t array buffer row vA sS rsv s
  | .arrRd t array imm sI vD rsv => execArrRd t array imm sI vD rsv s
  | .arrWr t array imm sI vS rsv => execArrWr t array imm sI vS rsv s
  | .vnop t rsv => execVnop t rsv s
  | .vadd t vD vA vB rsv => execVadd t vD vA vB rsv s
  | .vsub t vD vA vB rsv => execVsub t vD vA vB rsv s
  | .vmul t vD vA vB rsv => execVmul t vD vA vB rsv s
  | .vfma t vD vA vB vC rsv => execVfma t vD vA vB vC rsv s
  | .vmax t vD vA vB rsv => execVmax t vD vA vB rsv s
  | .vmin t vD vA vB rsv => execVmin t vD vA vB rsv s
  | .vabs t vD vA rsv => execVabs t vD vA rsv s
  | .vneg t vD vA rsv => execVneg t vD vA rsv s
  | .vmov t vD vA rsv => execVmov t vD vA rsv s
  | .vbcast t vD sA rsv => execVbcast t vD sA rsv s
  | .vcmp t vD vA vB cond rsv => execVcmp t vD vA vB cond rsv s
  | .vsel t vD vA vB vC rsv => execVsel t vD vA vB vC rsv s
  | .vredsum t vD vA rsv => execVredsum t vD vA rsv s
  | .vredmax t vD vA rsv => execVredmax t vD vA rsv s
  | .vcvt t vD vA vB code sat rsv => execVcvt t vD vA vB code sat rsv s
  | .vmxq t vD vA fmt sD rsv => execVmxq t vD vA fmt sD rsv s
  | .vld t vD sA imm => execVld t vD sA imm s
  | .vst t vS sA imm => execVst t vS sA imm s
  | .vsfu t vD vA fn rsv => execVsfu t vD vA fn rsv s
  | .vrng t vD vA vB rsv => execVrng t vD vA vB rsv s
  | .viadd t vD vA vB rsv => execViadd t vD vA vB rsv s
  | .vand t vD vA vB rsv => execVand t vD vA vB rsv s
  | .vshr t vD vA vB rsv => execVshr t vD vA vB rsv s
  | .vext t sD vA lane rsv => execVext t sD vA lane rsv s
  | .vins t vD sA lane rsv => execVins t vD sA lane rsv s
  | .mvNop t rsv => execMvNop t rsv s
  | .mvIssue t tag sD rsv => execMvIssue t tag sD rsv s
  | .mvWait t mask rsv => execMvWait t mask rsv s
  | .mvTest t pd tag rsv => execMvTest t pd tag rsv s
  | .qNop t rsv => execQNop t rsv s
  | .qSend t route queue len sS sT rsv => execQSend t route queue len sS sT rsv s
  | .qSendv t route queue len vS group sT => execQSendv t route queue len vS group sT s
  | .qRecv t queue len sD rsv => execQRecv t queue len sD rsv s
  | .qRecvv t queue len vD group rsv => execQRecvv t queue len vD group rsv s
  | .qTest t pd queue rsv => execQTest t pd queue rsv s
  | _ => .next s

/-- The state a slot's operation leaves. -/
def State.issue (s : State) (i : Instr) : State :=
  match tileExec i s with
  | .next t => t
  | _ => s

end Sys2Proof.Machine
end

