-- ==== Sys2Proof/Machine/CxlLink.lean ====
section
/-!
DEFINITION. The shared CXL link (spec/07_mesh_bells.md R211, spec/10_memory_tiers.md R261): what the engines have issued leaves flit
by flit. Answers to host reads of the BARs are given at once and so come first.
-/

namespace Sys2Proof.Machine

/-- Whose traffic an item is (R205, R211): 0 the device's (rings, MBX0), 1 + p partition p's; what goes by I3C is on no link. -/
def linkClass (p : Posted) : Option Nat :=
  match p with
  | .event _ _ => some 0
  | .telemetry _ _ => some 0
  | .completion p _ _ => some (1 + p)
  | .word p _ _ => some (1 + p)
  | .hostRead p _ _ => some (1 + p)
  | .buffer n _ _ => some n
  | .msix v => some (if v ≤ 8 then v else if v ≤ 10 then 0 else v - 10)
  | .platform _ => none

/-- Flits of an item: 256 bytes each. -/
def linkFlits (p : Posted) : Nat :=
  match p with
  | .buffer _ _ b => max 1 ((b.length + 255) / 256)
  | _ => 1

/-- Requests of a partition in flight (R261). -/
def State.uioFlying (s : State) (p : Nat) : Nat := (s.uio.filter fun u => u.part = p && u.sent).length

/-- The partition's next request to the second tier may leave: it holds up to 256 in flight (R261). -/
def State.uioReady (s : State) (p : Nat) : Bool := decide (s.uioFlying p < 256) && s.uio.any fun u => u.part = p && !u.sent

/-- Class `c` has a flit to send. -/
def State.linkWants (s : State) (c : Nat) : Bool := s.posted.any (fun p => linkClass p = some c) || (decide (0 < c) && s.uioReady (c - 1))

/-- One flit of class `c` passes: of its first item, which leaves with its last flit, else of its next second-tier request. -/
def State.linkFlit (s : State) (c : Nat) : State :=
  match takeFirst (fun (p : Posted) => linkClass p = some c) s.posted with
  | some r =>
    let k := tget 0 s.cxlPart c + 1
    if k ≥ linkFlits r.1 then { s with posted := r.2, sent := s.sent ++ [r.1], cxlPart := tset s.cxlPart c 0 }
    else { s with cxlPart := tset s.cxlPart c k }
  | none => { s with uio := modFirst (fun (u : Uio) => decide (u.part = c - 1) && !u.sent) (fun u => { u with sent := true }) s.uio }

/-- The partition whose flit is next (R211): the one whose turn it is while its quantum lasts, else the next with traffic, with a new
quantum of its weight. One with nothing to send keeps no credit. -/
def State.linkTurn (s : State) : Option (Nat × Nat) :=
  if 0 < s.cxlLeft && s.linkWants (1 + s.cxlTurn) then some (s.cxlTurn, s.cxlLeft - 1)
  else (((List.range 8).map fun i => (s.cxlTurn + 1 + i) % 8).find? fun p => s.linkWants (1 + p)).map fun p =>
    (p, (s.part p).cxlWeight - 1)

/-- One flit time of the link (R211): device traffic at most once in 16, else the partitions in deficit round robin. What goes by
I3C is sent at once.
[DESIGN CHOICE, log entry 144] -/
def State.linkSlot (s : State) : State :=
  let s : State := { s with posted := s.posted.filter (fun p => (linkClass p).isSome), sent := s.sent ++ s.posted.filter fun p => (linkClass p).isNone
                            cxlSince := min 16 (s.cxlSince + 1) }
  if !s.link.access then s
  else if decide (s.cxlSince ≥ 16) && s.linkWants 0 then { s.linkFlit 0 with cxlSince := 0 }
  else match s.linkTurn with
    | none => { s with cxlLeft := 0 }
    | some r => { s.linkFlit (1 + r.1) with cxlTurn := r.1, cxlLeft := r.2 }

end Sys2Proof.Machine
end

