-- ==== Sys2Proof/Machine/StreamCmds.lean ====
section
/-!
DEFINITION. Mailbox commands of streams and pages, and the ends of drains and parks (spec/14_mailboxes.md R404 to R406;
spec/11_streams.md R277 to R282; spec/10_memory_tiers.md R260, R264, R274, R275; R431, R432).
-/

namespace Sys2Proof.Machine

/-! Slots named by a command (R277, R393) -/

/-- A slot lies in no partition's range that page `n` may name (R393). A slot beyond 8,191 without the licence is left to
LICENCE_MISSING (R277). [DEDUCED, log entry 85] -/
def State.badSlotAt (s : State) (n o : Nat) : Nat × Bool :=
  let x := s.param n o 4
  let own := match s.partOfSlot x with
    | none => false
    | some p => n = 0 || n - 1 = p
  (o, decide (x ≥ 32768) || (s.slotUsable x && !own && s.pageExists n))

/-- LICENCE_MISSING for a slot of 8,192 or above (R277). -/
def State.slotLicence (s : State) (n o : Nat) : Option No := noIf (!(s.slotUsable (s.param n o 4))) stLicence

/-- The page's partition exists, and in a job this device is the stream root (R310, R393). -/
def State.streamScope (s : State) (n : Nat) : Option No := permit (s.pageExists n && s.streamRoot)

/-- Partition of a slot. -/
def State.slotPart (s : State) (slot : Nat) : Nat := (s.partOfSlot slot).getD 0

/-- A stream command of page `n` acts at once while its partition is not running and nothing waits before it, else in the next
boundary gap (R282, R394). -/
def State.queueStreamCmd (s : State) (n : Nat) (c : StreamCmd) : State :=
  let p := s.slotPart c.slot
  let q := s.part p
  let o := (s.mb n).order
  if running q.st || !q.streamCmds.isEmpty || q.pageCmds.any (fun g => !(s.pageCmdWaits g)) then
    s.modPart p fun q => { q with streamCmds := q.streamCmds ++ [(o, c)] }
  else (s.applyStreamCmd o c).castStream c.slot

/-- An enable of a slot is held (R281, R382, R431). -/
def State.holdStream (s : State) (n slot : Nat) (c : StreamCmd) : State :=
  s.modStream slot fun x => { x with enableHeld := true, heldCmd := some c, heldMbx := some n }

/-- A shut-down of a slot cancels its held enable, which completes with BUSY (R432). -/
def State.cancelHeld (s : State) (slot : Nat) : State :=
  let m := (s.stream slot).heldMbx
  let s := s.modStream slot fun x => { x with enableHeld := false, heldCmd := none, heldMbx := none }
  match m with
  | none => s
  | some n => s.failWith n stBusy 0

/-! STREAM_OPEN (R278, R404, R405) -/

/-- TEMPERATURE is negative, infinite or NaN (R405); −0 is negative. [DEDUCED, log entry 96] -/
def badTemperature (w : Nat) : Bool := decide (w ≥ 2 ^ 31) || decide (bits w 30 23 = 255)

/-- The page range of another slot that is not CLOSED overlaps [base, base + count) (R405). -/
def State.rangeTaken (s : State) (slot base count : Nat) : Bool :=
  s.streams.any fun x => decide (x.1 ≠ slot) && x.2.st ≠ .closed && overlap base count x.2.pageBase x.2.pageCount

/-- Fields of STREAM_OPEN that offend (R278, R404, R405). -/
def State.badOpen (s : State) (n : Nat) : List (Nat × Bool) :=
  let slot := s.param n 0 4
  let c := s.param n 8 4
  let base := s.param n 12 4
  let count := s.param n 16 4
  let link := s.param n 86 2
  let other := s.stream link
  [s.badSlotAt n 0, (8, decide (bits c 11 0 < 1 ∨ bits c 11 0 > 2048)), (9, decide (bits c 14 12 ≠ 0)), (10, decide (bits c 23 20 > 12))
  , (11, decide (bits c 31 24 ≠ 0)), (12, s.rangeTaken slot base count), (14, decide (bits base 31 22 ≠ 0))
  , (16, decide (count < 1 ∨ count > 4194304 ∨ base + count > 4194304)), (24, decide (s.param n 24 8 % 4096 ≠ 0))
  , (64, badTemperature (s.param n 64 4))
  , (86, (bit c 15 && link = 0xFFFF) || (decide (link ≠ 0xFFFF) && (decide (link ≥ 32768)
      || (other.st ≠ .closed && decide (other.draftLink ≠ 0xFFFF) && decide (other.draftLink ≠ slot)))))]

/-- Reserved bytes of STREAM_OPEN, and those that must be 0 (R404). -/
def openReserved : List Nat := span 4 8 ++ span 32 48 ++ span 68 72 ++ span 76 86 ++ span 97 136

/-- What refuses a STREAM_OPEN (R404, R405). `act` is set when it acts after it was held. -/
def State.openChecks (s : State) (n : Nat) : List (Option No) :=
  let x := s.stream (s.param n 0 4)
  [s.badLength n 136 false, s.badField n (s.badOpen n) openReserved, s.streamScope n
  , permit (x.st = .closed || x.st = .draining), s.slotLicence n 0
  , if s.param n 86 2 = 0xFFFF then none else noIf (!(s.slotUsable (s.param n 86 2))) stLicence, noIf x.enableHeld stBusy]

/-- STREAM_OPEN (R404, R405): held while the slot drains or a PREPARE_REMOVE runs. -/
def execStreamOpen (n : Nat) (s : State) : Res :=
  let slot := s.param n 0 4
  s.command n 0x0301 (s.openChecks n) fun s =>
    let c := StreamCmd.open_ slot (s.paramBytes n 8 128)
    if (s.stream slot).st = .draining || s.preparing.isSome then s.holdStream n slot c
    else ((s.cancelRemove 0x0301).queueStreamCmd n c).okWith n []

/-! STREAM_CLOSE, STREAM_PARK, STREAM_QUERY (R274, R404, R405) -/

/-- STREAM_CLOSE (R405): a shut-down, which cancels a held enable. -/
def execStreamClose (n : Nat) (s : State) : Res :=
  let slot := s.param n 0 4
  s.command n 0x0302 [s.badLength n 4 false, s.badField n [s.badSlotAt n 0] [], s.streamScope n, s.slotLicence n 0] fun s =>
    ((s.cancelHeld slot).queueStreamCmd n (.close slot)).okWith n []

/-- STREAM_PARK (R274, R405). [DEDUCED, log entry 87] -/
def execStreamPark (n : Nat) (s : State) : Res :=
  let slot := s.param n 0 4
  let target := s.param n 4 1
  let x := s.stream slot
  s.command n 0x0303
    [s.badLength n 5 (decide (target ≠ 0)), if target = 1 then s.tooSmall n (524304 * (s.pagesOf slot).length) else none
    , s.badField n [s.badSlotAt n 0, (4, decide (target > 1))] [], s.streamScope n, permit (isOpen x.st), s.slotLicence n 0
    , noIf (decide (target = 0) && !s.licensed 2) stLicence, noIf (x.parking || s.parkForbidden slot) stBusy
    , if target = 1 then s.noHost else none] fun s => (s.queueStreamCmd n (.park slot target n)).okWith n []

/-- STREAM_QUERY (R404): the descriptor, or this device's copy of it in a job. [DEDUCED, log entry 88] -/
def execStreamQuery (n : Nat) (s : State) : Res :=
  s.command n 0x0305 [s.badLength n 4 false, s.badField n [s.badSlotAt n 0] [], permit (s.pageExists n), s.slotLicence n 0] fun s =>
    s.okWith n (s.stream (s.param n 0 4)).bytes

/-! STREAM_RESUME (R275, R405) -/

/-- The first record that R275 refuses. -/
def State.badRecord (s : State) (slot : Nat) : Nat → List Nat → List ParkRec → Option Nat
  | _, _, [] => none
  | i, before, r :: l => if s.recordBad slot before r then some i else s.badRecord slot (i + 1) (r.page :: before) l

/-- The first `n` page records of a host buffer (R274, R275), as far as the buffer holds them whole. -/
def parkRecs : Nat → List Byte → List ParkRec
  | 0, _ => []
  | n + 1, b =>
    let h := fieldOf b 0 8
    let size := bits h 33 22 * 256
    if b.length < 16 + size then []
    else
      let data := (b.drop 16).take size
      { page := bits h 21 0, cfill := bits h 33 22, data := data
        crcOk := fieldOf b 8 4 = crc32c (b.take 8 ++ data) && decide (h / 2 ^ 34 = 0) && fieldOf b 12 4 = 0 }
        :: parkRecs n (b.drop (16 + size))

/-- A bad record of a PARKED stream names its index (R275, R405). -/
def State.recordField (s : State) (slot source : Nat) (recs : List ParkRec) : Option No :=
  if source = 1 then (s.badRecord slot 0 [] recs).map fun i => { status := stField, detail := i } else none

/-- What else a PARKED stream's records need: frames for every page, and host memory (R275, R391). -/
def State.recordRoom (s : State) (slot source : Nat) (recs : List ParkRec) : List (Option No) :=
  let p := s.slotPart slot
  if source = 1 then
    [noIf (decide (recs.length > s.freeHbmCount p + (s.freeCxl p).length)) stResource, s.noHost]
  else []

/-- STREAM_RESUME (R275, R405): held while the park runs, or a PREPARE_REMOVE. The operand is what the buffer holds. -/
def execStreamResume (n : Nat) (buf : List Byte) (s : State) : Res :=
  let slot := s.param n 0 4
  let source := s.param n 4 1
  let x := s.stream slot
  let recs := if source = 1 then parkRecs (s.param n 8 4) (buf.take (s.bufLen n)) else []
  let short := source = 1 && decide (recs.length < s.param n 8 4)
  s.command n 0x0304
    ([s.badLength n 12 (decide (source ≠ 0)), if short then some { status := stLength } else none
    , s.badField n [s.badSlotAt n 0, (4, decide (source > 1))] (span 5 8)
    , if x.st = .parked then s.recordField slot source recs else none, s.streamScope n, permit (x.st = .parked || x.parking)
    , s.slotLicence n 0, noIf x.enableHeld stBusy] ++ if x.st = .parked then s.recordRoom slot source recs else []) fun s =>
      let c := StreamCmd.resume slot source recs
      if x.parking || s.preparing.isSome then s.holdStream n slot c
      else ((s.cancelRemove 0x0304).queueStreamCmd n c).okWith n []

/-! Held enables, drains and parks (R281, R274, R431) -/

/-- A slot's held enable acts once the slot is CLOSED or PARKED and no PREPARE_REMOVE runs. -/
def State.actStreamHeld (s : State) (slot : Nat) : State :=
  let x := s.stream slot
  match x.heldCmd, x.heldMbx with
  | some c, some n =>
    let due := match c with
      | .open_ _ _ => x.st = .closed
      | _ => x.st = .parked || x.st = .closed
    if !due || s.preparing.isSome then s
    else
      let s := s.modStream slot fun x => { x with enableHeld := false, heldCmd := none, heldMbx := none }
      let no := match c with
        | .resume _ source recs =>
          ((if x.st = .parked then s.recordField slot source recs else none) :: permit (x.st = .parked) :: s.recordRoom slot source recs).findSome? id
        | _ => (s.openChecks n).findSome? id
      match no with
      | some r => s.refuse n r
      | none => ((s.cancelRemove (s.mb n).opcode).queueStreamCmd n c).okWith n []
  | _, _ => s

/-- The stream holds a page whose move or tide is still at work: it is freed when that has ended (R265, R281). -/
def State.pagesAtWork (s : State) (slot : Nat) : Bool :=
  (s.pagesOf slot).any fun g => g.2.st = .demoting || g.2.st = .promoting || g.2.st = .pinned

/-- DRAIN_COMPLETE (R281): the stream is in no admitted tide, its records are written, and a park it was in has ended. -/
def State.drainDone (s : State) (slot : Nat) : State :=
  let x := s.stream slot
  let written : Bool := match s.partOfSlot slot with
    | some p => ((s.part p).completions ++ (s.part p).holdArea).all fun c => decide (c.stream ≠ slot)
    | none => true
  if x.st = .draining ∧ !x.parking ∧ !(s.pagesAtWork slot) ∧ !(s.isAdmitted slot) ∧ (x.closedWritten ∨ x.drafter) ∧ written then
    (((((s.closedEvent slot x).dropLine slot).freePages slot).modStream slot fun y =>
      { y with st := .closed }).castStream slot).actStreamHeld slot
  else s

/-- The park is done (R274): PARKED, and its event. A stream that has become DRAINING meanwhile goes on draining. [DESIGN CHOICE, log entry 138] -/
def State.parkDone (s : State) (slot n : Nat) : State :=
  let x := s.stream slot
  if x.st = .draining then s.modStream slot fun y => { y with parking := false, parkBytes := n } else
  let s : State := { s with parkedCount := s.parkedCount + b01 s.preparing.isSome }
  ((((s.modStream slot fun y => { y with st := .parked, parking := false, parkBytes := n }).parkedEvent slot x.parkTarget n).dropLine
    slot).castStream slot).actStreamHeld slot

/-- PARK_COMPLETE's effect: the last HBM page has reached CXL, or the page records are written to the host and the pages
freed (R274). -/
def State.parkEnd (s : State) (slot : Nat) : State :=
  let x := s.stream slot
  if !x.parking then s
  else if x.parkTarget = 0 then (if (s.pagesOf slot).all fun g => g.2.st = .cxl then s.parkDone slot 0 else s)
  else if !s.link.access || (s.pagesOf slot).any (fun g => g.2.st ≠ .hbm ∧ g.2.st ≠ .cxl) then s
  else
    let b := (s.pagesOf slot).flatMap fun g => parkBytes g.1 g.2.cfill (s.pageData g.2)
    let s := { s with posted := s.posted ++ [Posted.buffer x.parkMbx 1 b] }
    (s.freePages slot).parkDone slot b.length

/-! Windows and pages (R260, R264, R375, R404, R406) -/

/-- Window `w` of TIER_WINDOWS: base and size. -/
def State.windowAt (s : State) (n w : Nat) : Nat × Nat := (s.param n (8 + 16 * w) 8, s.param n (16 + 16 * w) 8)

/-- The windows of TIER_WINDOWS. -/
def State.windowsOf (s : State) (n : Nat) : List (Nat × Nat) := (List.range (s.param n 0 1)).map (s.windowAt n)

/-- Fields of TIER_WINDOWS that offend (R404, R406). -/
def State.badWindows (s : State) (n : Nat) : List (Nat × Bool) :=
  let l := s.windowsOf n
  let upTo : Nat → Nat := fun w => (l.take w).foldl (fun t x => t + x.2) 0
  (0, decide (s.param n 0 1 > 8)) :: (List.range l.length).flatMap fun w =>
    let x := s.windowAt n w
    [(8 + 16 * w, decide (x.1 % 2 ^ 19 ≠ 0) || (l.take w).any fun y => overlap x.1 x.2 y.1 y.2)
    , (16 + 16 * w, decide (x.2 % 2 ^ 19 ≠ 0) || decide (upTo (w + 1) > 2 ^ 40))]

/-- TIER_WINDOWS (R260, R375, R406, R487): records of CXL frames are dropped, since the frame numbers change. -/
def execTierWindows (n : Nat) (s : State) : Res :=
  s.command n 0x0401
    [s.badLength n (8 + 16 * s.param n 0 1) false, s.badField n (s.badWindows n) (span 1 8), deviceScope n
    , permit (s.link.uioEnable && s.parts.all fun q => q.2.st = .none || decide (q.2.cxlCount = 0)), noIf (!s.licensed 2) stLicence] fun s =>
      State.okWith { s with
        windows := s.windowsOf n, retired := s.retired.filter fun f => decide (f < 2 ^ 30)
        flash := s.flash.writeLog s.flash.repairs (s.flash.retired.filter fun r => decide (r.tier ≠ 1)) } n []

/-- A page range of a page command: FIRST_PAGE at 0, COUNT at 4, at most `lim`. -/
def State.badPages (s : State) (n lim : Nat) : List (Nat × Bool) :=
  [(0, decide (s.param n 0 4 + s.param n 4 4 > 4194304)), (4, decide (s.param n 4 4 < 1 ∨ s.param n 4 4 > lim))]

/-- BUSY while another page command holds a page of the range (R394). -/
def State.pagesBusy (s : State) (n : Nat) : Option No :=
  let f := s.param n 0 4
  let k := s.param n 4 4
  noIf (s.parts.any fun q => q.2.pageCmds.any fun c => decide (c.range.1 ≠ n) && overlap f k c.range.2.1 c.range.2.2) stBusy

/-- Bind pages of a range for an owner, one after another; none where a frame is missing. -/
def State.bindAll (s : State) (p owner : Nat) : List Nat → Option State
  | [] => some s
  | g :: l => match s.bindPage p g owner with
    | none => none
    | some t => t.bindAll p owner l

/-- A page command applies (R264, R406): whole or not at all. -/
def State.applyPageCmd (s : State) (p : Nat) (c : PageCmd) : State :=
  match c with
  | .bind n f k owner =>
    let x := s.stream owner
    let ps := pageRange f k
    if x.st = .closed ∨ x.st = .draining then s.failAt n stField 8
    else if ps.any fun g => decide (g < x.pageBase) || decide (g ≥ x.pageBase + x.pageCount) || (s.page g).st ≠ .free then s.failAt n stField 0
    else match s.bindAll p owner ps with
      | none => s.failWith n stResource 0
      | some t => t.okWith n []
  | .free n f k =>
    let ps := pageRange f k
    if ps.any fun g => (s.page g).st = .demoting || (s.page g).st = .promoting || (s.page g).st = .pinned then s.failWith n stBusy 0
    else
      let s := s.forgetMoves fun g => decide (f ≤ g) && decide (g < f + k)
      State.okWith { s with pages := s.pages.map fun e => if f ≤ e.1 ∧ e.1 < f + k then (e.1, ({} : Page)) else e } n []

/-- A page command waits: for its owner or a gap, or behind a stream command whose doorbell came first (R394). -/
def State.pageBehind (s : State) (p : Nat) (c : PageCmd) : Bool :=
  s.pageCmdWaits c || ((s.part p).streamCmds.take (s.streamRoom p)).any fun x => decide (x.1 < s.pageOrder c)

/-- PAGE_COMMAND_APPLY (R264, R394, R406): the page commands that wait in partition `p` apply in order. -/
def execPageCommandApply (p : Nat) (s : State) : Res :=
  if (s.part p).gap then
    let l := (s.part p).pageCmds
    .next (each l (fun c st => if st.pageBehind p c then st.modPart p fun q => { q with pageCmds := q.pageCmds ++ [c] }
      else st.applyPageCmd p c) (s.modPart p fun q => { q with pageCmds := [] }))
  else .next s

/-- A page command applies at once while its partition is not running and nothing waits before it, else in a boundary gap. -/
def State.queuePageCmd (s : State) (p : Nat) (c : PageCmd) : State :=
  if running (s.part p).st || s.pageBehind p c then s.modPart p fun q => { q with pageCmds := q.pageCmds ++ [c] }
  else s.applyPageCmd p c

/-- PAGE_BIND (R264, R406). -/
def execPageBind (n : Nat) (s : State) : Res :=
  let owner := s.param n 8 4
  s.command n 0x0402
    [s.badLength n 12 false, s.badField n (s.badPages n 4096 ++ [s.badSlotAt n 8]) [], permit (s.pageExists n), s.slotLicence n 8
    , s.pagesBusy n] fun s =>
      s.queuePageCmd (s.slotPart owner) (.bind n (s.param n 0 4) (s.param n 4 4) owner)

/-- Partitions that own bound pages of a range. -/
def State.pageOwners (s : State) (f k : Nat) : List Nat :=
  (((s.pages.filter fun g => decide (f ≤ g.1) && decide (g.1 < f + k) && g.2.st ≠ .free).filterMap fun g =>
    s.partOfSlot g.2.owner)).eraseDups

/-- PAGE_FREE (R264, R406): on a partition's mailbox every bound page is that partition's. [DEDUCED, log entry 89] -/
def execPageFree (n : Nat) (s : State) : Res :=
  let f := s.param n 0 4
  let k := s.param n 4 4
  let owners := s.pageOwners f k
  s.command n 0x0403
    [s.badLength n 8 false, s.badField n (s.badPages n 4096) [], permit (s.pageExists n && (n = 0 || owners.all (· = n - 1)))
    , s.pagesBusy n] fun s =>
      match owners with
      | [] => s.okWith n []
      | p :: _ => s.queuePageCmd p (.free n f k)

/-- PAGE_BIND_TIMEOUT (R406): the owner's copy has not come within 1 s. -/
def execPageBindTimeout (n : Nat) (s : State) : Res :=
  let mine := fun (c : PageCmd) => match c with
    | .bind m _ _ owner => m = n && s.awaitsOwner owner
    | .free _ _ _ => false
  match s.parts.find? fun q => q.2.pageCmds.any mine with
  | none => .next s
  | some q => .next ((s.modPart q.1 fun y => { y with pageCmds := y.pageCmds.filter fun c => !(mine c) }).failAt n stField 8)

/-- PAGE_MAP_READ (R404). -/
def execPageMapRead (n : Nat) (s : State) : Res :=
  s.command n 0x0404 [s.badLength n 8 false, s.badField n (s.badPages n 504) [], permit (s.pageExists n)] fun s =>
    s.okWith n ((pageRange (s.param n 0 4) (s.param n 4 4)).flatMap fun g =>
      leBytes 8 (if n = 0 || s.ownsPage (n - 1) g then (s.page g).entry else 0))

end Sys2Proof.Machine
end

