-- ==== Sys2Proof/Machine/RunCmds.lean ====
section
/-!
DEFINITION. Mailbox commands of runs, ports, jobs and removal, and the ends of drains and parks that removal waits for
(spec/14_mailboxes.md R407, R408, R412, R413; spec/08_tides.md R222, R235; spec/12_hikolink_jobs.md R348 to R351;
spec/13_cxl_interface.md R381, R382; spec/15_bringup_reset.md R431 to R433).
-/

namespace Sys2Proof.Machine

/-! RUN_START and RUN_SINGLE (R222, R235, R382, R408) -/

/-- A check that refuses with one of some statuses. -/
def runNo (r : Option (Nat × Nat)) (l : List Nat) (offset : Nat) : Option No :=
  match r with
  | none => none
  | some x => if l.contains x.1 then some { status := x.1, detail := x.2, offset := offset } else none

/-- STOPPING: a stop is pending (R397). -/
def Partition.stopping (q : Partition) : Bool := running q.st && q.stopPending

/-- What refuses a RUN_START or RUN_SINGLE. -/
def State.runChecks (s : State) (n p : Nat) (setTide : Bool) : List (Option No) :=
  let q := s.part p
  let r := s.runRefusal p setTide
  [runNo r [stField] (if setTide then 1 else 0xFFFF), s.partScope n p, permit (q.st = .loaded || q.stopping), runNo r [stDenied] 0xFFFF
  , noIf (q.enableHeld.isSome || s.resets.any fun r => (r.scope = 2 && r.index = p)) stBusy, runNo r [stHw] 0xFFFF]

/-- A RUN_START or RUN_SINGLE acts, or is held while the partition stops or a PREPARE_REMOVE runs. -/
def State.runOrHold (s : State) (p n : Nat) (single : Bool) (first : Option Nat) : State :=
  if (s.part p).stopping || s.preparing.isSome then s.modPart p fun q => { q with enableHeld := some n, heldSingle := single }
  else s.actRun p n single first

/-- A start of a partition whose tide parameters differ from those of the job's partitions that wait for their first drumbeat ends
those starts too (R235): the command has passed the checks `first`. [DESIGN CHOICE, log entry 148] -/
def State.mismatch (s : State) (n p opcode : Nat) (first : List (Option No)) : State :=
  if s.job.formed && !(s.sameParams p) && (s.mb n).running = some opcode && (first.findSome? id).isNone then
    each s.jobParts (fun k st => st.dropStart k) s
  else s

/-- RUN_START (R235, R407, R408). [DEDUCED, log entry 108] -/
def execRunStart (n : Nat) (s : State) : Res :=
  let p := s.param n 0 1
  let set := bit (s.param n 1 1) 0
  let first := [s.badLength n 8 false
    , s.badField n [s.badPart n, (1, decide (s.param n 1 1 > 1)), (2, !set && decide (s.param n 2 6 ≠ 0))] []]
  (s.mismatch n p 0x0501 first).command n 0x0501 (first ++ s.runChecks n p set) fun s => s.runOrHold p n false (s.firstTideOf n)

/-- RUN_SINGLE (R222, R235, R407, R408). -/
def execRunSingle (n : Nat) (s : State) : Res :=
  let p := s.param n 0 1
  let first := [s.badLength n 1 false, s.badField n [s.badPart n] []]
  (s.mismatch n p 0x0503 first).command n 0x0503 (first ++ s.runChecks n p false) fun s => s.runOrHold p n true none

/-- RUN_START_TIMEOUT (R408): not every member of the job has accepted; no tide starts. -/
def execRunStartTimeout (n : Nat) (s : State) : Res :=
  match s.parts.find? fun q => q.2.startMbx = some n && q.2.inJob && q.2.st = .open_ && q.2.awaiting with
  | none => .next s
  | some q =>
    let s := s.modPart q.1 fun y => { y with
      st := .loaded, awaiting := false, startMbx := none, stopPending := false, stopMbx := none, inJob := false }
    .next ((s.failWith n stBusy 0).okHeld q.2.stopMbx (leBytes 6 q.2.tide)).goOn

/-! RUN_STOP (R222, R432, R433) -/

/-- A held RUN_START or RUN_SINGLE is cancelled by a shut-down of its partition: BUSY (R432). -/
def State.cancelRunHeld (s : State) (p : Nat) : State :=
  match (s.part p).enableHeld with
  | none => s
  | some k => (s.modPart p fun q => { q with enableHeld := none, heldSingle := false }).failWith k stBusy 0

/-- RUN_STOP (R222, R408): it completes when the partition is LOADED. -/
def execRunStop (n : Nat) (s : State) : Res :=
  let p := s.param n 0 1
  let q := s.part p
  s.command n 0x0502
    [s.badLength n 1 false, s.badField n [s.badPart n] [], s.partScope n p, permit (running q.st)
    , noIf (q.stopMbx.isSome || q.single.isSome) stBusy] fun s =>
      ((s.cancelRunHeld p).requestStop p).modPart p fun y => { y with stopMbx := some n }

/-! Ports (R412, R431) -/

/-- The device is in no job: it has formed none, or has left it. -/
def State.inNoJob (s : State) : Bool := (!s.job.formed || s.job.left) && decide (s.job.formingStep = 0)

/-- The port is not fused off (R434). -/
def State.portEnabled (s : State) (q : Nat) : Bool := s.fuses.portMap.getLsbD q

/-- A port after training: up with sequence numbers at 0, or down, as one that failed calibration stays (R424). -/
def trainedPort (x : HPort) (up : Bool) : HPort :=
  if up && !x.calFailed then { x with up := true, absorbing := false, rxSeq := 0, txSeq := 0, badRun := 0, greeted := false, named := false } else { x with up := false }

/-- UP of FABRIC_TRAIN: ports that are up. -/
def State.upMask (s : State) : Nat := ((List.range 6).filter fun q => (s.hport q).up).foldl (fun m q => m + 2 ^ q) 0

/-- FABRIC_TRAIN acts (R412): a port with its bit at 1 trains, with the outcome given; one with its bit at 0 shuts down. -/
def State.trainPorts (s : State) (n ports : Nat) (trained : BitVec 6) : State :=
  let s := each ((List.range 6).filter fun q => bit ports q) (fun q st =>
    st.modHport q fun x => trainedPort x (trained.getLsbD q && st.portEnabled q && !st.boot.poweredOff)) s
  let s := each ((List.range 6).filter fun q => !(bit ports q)) (fun q st => st.portShutBegin q) s
  s.okWith n (leBytes 1 s.upMask)

/-- An enable of a port is held while the port shuts down: UNIT_ENABLE_HELD (R432). -/
def State.holdPorts (s : State) (n opcode : Nat) (l : List Nat) : State :=
  each l (fun q st => (st.modHport q fun x => { x with trainHeld := some n }).enableHeldEvent (unitId 4 q) opcode) s

/-- Ports of a set that shut down. -/
def State.shuttingOf (s : State) (ports : Nat) : List Nat := (List.range 6).filter fun q => bit ports q && (s.hport q).shutting

/-- A held FABRIC_TRAIN acts once no port that it trains shuts down (R431). -/
def State.actTrainHeld (s : State) : State :=
  match s.trainWait with
  | none => s
  | some w =>
    let ports := s.param w.1 0 1
    if !(s.shuttingOf ports).isEmpty then s
    else State.trainPorts (({ s with trainWait := none } : State).modMb w.1 fun m => { m with running := none }) w.1 ports w.2

/-- PORT_SHUTDOWN_DONE (R431): the announcement has ended and the lanes are off; a held enable acts. -/
def execPortShutdownDone (port : Nat) (s : State) : Res :=
  if !(s.hport port).shutting then .next s
  else
    let s := if s.job.left && s.job.parentPort = some port then s.ownClock else s
    .next (s.modHport port fun x => { x with
      up := false, greeted := false, named := false, shutting := false, trainHeld := none, beacon := none, forward := []
      staged := [], received := [], urgent := [], bulk := [], absorbing := false }).actTrainHeld

/-- FABRIC_TRAIN (R412, R431). While a port it trains shuts down it is held. [DESIGN CHOICE, log entry 97] -/
def execFabricTrain (n : Nat) (trained : BitVec 6) (s : State) : Res :=
  let ports := s.param n 0 1
  let wait := s.shuttingOf ports
  let checks := [s.badLength n 1 false, s.badField n [(0, decide (ports > 63))] [], deviceScope n, permit s.inNoJob]
  if (s.mb n).running = some 0x0901 ∧ checks.findSome? id = none ∧ !wait.isEmpty then
    .next (State.holdPorts { s with trainWait := some (n, trained) } n 0x0901 (wait.filter fun q => (s.hport q).trainHeld.isNone))
  else s.command n 0x0901 checks fun s => s.trainPorts n ports trained

/-! Jobs (R348 to R351, R413) -/

/-- Training of the ports that the job needs begins (R348 step 2): with one fused off, or left down by calibration, formation fails
(R349, R424); shutting down, the enable is held. -/
def State.startTraining (s : State) (n opcode : Nat) : State :=
  match s.job.ports.find? fun q => !(s.portEnabled q) with
  | some q => s.formFail 2 7 q
  | none =>
  match s.job.ports.find? fun q => (s.hport q).calFailed || s.boot.poweredOff with
  | some q => s.formFail 2 1 q
  | none =>
    let wait := s.job.ports.filter fun q => (s.hport q).shutting && (s.hport q).trainHeld.isNone
    let s := s.holdPorts n opcode wait
    each s.job.ports (fun q st => st.modHport q fun x =>
      { x with up := false, beacon := none, greeted := false, named := false, rxSeq := 0, txSeq := 0, badRun := 0 }) s

/-- Fields of JOB_FORM that offend (R412). -/
def State.badForm (s : State) (n : Nat) : List (Nat × Bool) :=
  let v := fun o => s.param n o 1
  [(8, decide (v 8 < 1 ∨ v 8 > 16)), (9, decide (v 9 < 1 ∨ v 9 > 8)), (10, decide (v 10 < 1 ∨ v 10 > 8))
  , (20, decide (v 20 ≥ v 8)), (21, decide (v 21 ≥ v 9)), (22, decide (v 22 ≥ v 10))]

/-- The job descriptor of JOB_FORM; the timing root knows its coordinates. -/
def State.formedJob (s : State) (n : Nat) : Job :=
  let v := fun o => s.param n o 1
  let serial := s.param n 12 8
  let root : Bool := serial = s.fuses.serial
  { id := s.param n 0 8, dimI := v 8, dimJ := v 9, dimK := v 10, rootSerial := serial, rootI := v 20, rootJ := v 21, rootK := v 22
    i := if root then v 20 else 0, j := if root then v 21 else 0, k := if root then v 22 else 0
    formingStep := if root then 4 else 2, formMbx := some n }

/-- JOB_FORM (R348, R349, R413): it completes when the job has formed or its formation has failed. -/
def execJobForm (n : Nat) (s : State) : Res :=
  s.command n 0x0902
    [s.badLength n 23 false, s.badField n (s.badForm n) [11], deviceScope n
    , permit (s.inNoJob && s.parts.all fun q => q.2.st = .none || q.2.idle)] fun s =>
      let s := s.cancelRemove 0x0902
      State.startTraining { s with job := s.formedJob n } n 0x0902

/-- This member leaves (R351): MEMBER with STATE 0 goes to the root, which stops the job's runs. -/
def State.beginLeave (s : State) (m : Nat) : State :=
  let s : State := { s with job := { s.job with leaveMbx := some m, stopWanted := s.job.stopWanted || (s.isRoot && !s.jobParts.isEmpty) } }
  let s := if s.isRoot then s.sendDown (.member s.jobTide s.job.rank 0) else s.sendUp (.member s.jobTide s.job.rank 0)
  s.leaveIfStopped

/-- The device is in a job. -/
def State.inJob (s : State) : Bool := s.job.formed && !s.job.left

/-- JOB_LEAVE (R351). -/
def execJobLeave (n : Nat) (s : State) : Res :=
  s.command n 0x0903 [s.badLength n 0 false, deviceScope n, permit s.inJob] fun s => s.beginLeave n

/-- JOB_JOIN (R351): steps 2 to 7 of R348 again. -/
def execJobJoin (n : Nat) (s : State) : Res :=
  s.command n 0x0904
    [s.badLength n 0 false, deviceScope n
    , permit (s.job.left && decide (s.job.formingStep = 0) && s.parts.all fun q => q.2.st = .none || q.2.idle)] fun s =>
      let s := s.cancelRemove 0x0904
      let root : Bool := s.job.rootSerial = s.fuses.serial
      State.startTraining { s with job := { s.job with
        formingStep := if root then 4 else 2, formMbx := some n, joining := true, formed := true } } n 0x0904

/-- The response of JOB_QUERY (R412). [DEDUCED, log entry 100] -/
def State.jobBytes (s : State) : List Byte :=
  let b := s.job
  leBytes 8 (if s.inJob then b.id else 0) ++ leBytes 1 b.dimI ++ leBytes 1 b.dimJ ++ leBytes 1 b.dimK ++ leBytes 1 0
    ++ leBytes 4 (b.rootRank * 2 ^ 16 + b.rank) ++ leBytes 1 b.i ++ leBytes 1 b.j ++ leBytes 1 b.k ++ leBytes 1 b.fabricEpoch
    ++ leBytes 2 b.joined

/-- JOB_QUERY (R412). -/
def execJobQuery (n : Nat) (s : State) : Res :=
  s.command n 0x0905 [s.badLength n 0 false, permit (s.pageExists n)] fun s => s.okWith n s.jobBytes

/-! PREPARE_REMOVE (R381, R382) -/

/-- CXL frames that a partition can still take for parks. -/
def State.parkFrames (s : State) (p : Nat) : Nat :=
  (s.freeCxl p).length - ((s.part p).moveQueue.filter fun m => m.2.1).length

/-- Park or close one stream (R381): one that cannot be parked, as one that drains already, is closed. `room` is what is left of the data buffer. -/
def State.removeStream (s : State) (mode n : Nat) (room : Nat) (slot : Nat) : State × Nat :=
  let p := s.slotPart slot
  let need := 524304 * (s.pagesOf slot).length
  let fits := match mode with
    | 0 => decide ((s.hbmPagesOf slot).length ≤ s.parkFrames p)
    | 1 => decide (need ≤ room)
    | _ => false
  if fits && isOpen (s.stream slot).st && !(s.parkForbidden slot) then
    ((s.startPark slot mode).modStream slot fun x => { x with parkMbx := n }, if mode = 1 then room - need else room)
  else ((s.drain slot 3).closeOut slot false, room)

/-- Every stream of the list is parked or closed. -/
def State.removeStreams (s : State) (mode n : Nat) : Nat → List Nat → State
  | _, [] => s
  | room, slot :: l =>
    let r := s.removeStream mode n room slot
    r.1.removeStreams mode n r.2 l

/-- Slots whose streams this device may park or close. -/
def State.openSlots (s : State) : List Nat :=
  if s.streamRoot then (s.streams.filter fun x => (isOpen x.2.st && !x.2.parking) || x.2.st = .draining).map fun x => x.1 else []

/-- A stream still parks or drains. -/
def State.streamsBusy (s : State) : Bool :=
  s.streamRoot && s.streams.any fun x => x.2.parking || x.2.st = .draining || isOpen x.2.st

/-- Held enables of partitions and streams act. -/
def State.releaseEnables (s : State) : State :=
  each (s.streams.map fun x => x.1) (fun slot st => st.actStreamHeld slot) (each (List.range 8) (fun p st => st.actHeld p) s)

/-- Steps 3 and 4 of R381, as far as they can go: once every partition has stopped and the job is left, the streams are
parked or closed; once they are, the command completes, HOST_REMOVE_READY is raised, the attention signal asserted. -/
def State.prepareGoOn (s : State) : State :=
  match s.preparing with
  | none => s
  | some n =>
    if !s.runningParts.isEmpty || s.job.leaveMbx.isSome then s
    else
      let s := s.removeStreams (s.param n 0 1) n (s.bufLen n) s.openSlots
      if s.streamsBusy then s
      else
        let k := sat s.parkedCount 0xFFFFFFFF
        let s := s.okWith n (leBytes 4 k)
        let s := each (List.range 8) (fun p st => if st.link.access then st.flushRecords p else st) s
        let s := s.raiseDev 0x0905 1 cxlUnit k
        State.releaseEnables { s with preparing := none, removeReady := true, pins := { s.pins with attn := true } }

/-- PREPARE_REMOVE (R381, R382, R432, R437): enables held so far complete with BUSY; every partition stops; in a job, the device
leaves. [DESIGN CHOICE, log entry 98] -/
def execPrepareRemove (n : Nat) (s : State) : Res :=
  let mode := s.param n 0 1
  s.command n 0x0C02
    [s.badLength n 1 (decide (mode = 1)), s.badField n [(0, decide (mode > 2))] [], deviceScope n
    , noIf (decide (mode = 0) && !s.licensed 2) stLicence, if mode = 1 then s.noHost else none] fun s =>
      let s := each (s.streams.map fun x => x.1) (fun k st => st.cancelHeld k) (each (List.range 8) (fun p st => st.cancelRunHeld p) s)
      let s : State := { s with preparing := some n, parkedCount := 0 }
      let s := if s.inJob then s.beginLeave 15 else s
      (each s.runningParts (fun p st => st.requestStop p) s).prepareGoOn

/-- DRAIN_COMPLETE (R281). -/
def execDrainComplete (slot : Nat) (s : State) : Res := .next (s.drainDone slot).prepareGoOn

/-- PARK_COMPLETE (R274). -/
def execParkComplete (slot : Nat) (s : State) : Res := .next (s.parkEnd slot).prepareGoOn

end Sys2Proof.Machine
end

