-- ==== Sys2Proof/Machine/Service.lean ====
section
/-!
DEFINITION. Mailbox commands of repair, scan, the black box, firmware banks, ownership, licences and debug access
(spec/14_mailboxes.md R402, R403, R409 to R412; spec/17_reliability.md R472, R484, R491, R492; spec/18_security.md R498 to
R500, R505, R509, R510, R513 to R515).
-/

namespace Sys2Proof.Machine

/-! TILE_REPAIR (R411) -/

/-- The running unit reset of a scope and index ends command `n` with a response. -/
def State.attach (s : State) (scope index n : Nat) (resp : List Byte) : State :=
  { s with resets := s.resets.map fun r =>
      if r.scope = scope ∧ r.index = index then ({ r with mbx := some n, resp := resp } : UnitReset) else r }

/-- A partition, where there is one, is EMPTY or LOADED. -/
def State.quietPart (s : State) (p : Option Nat) : Bool :=
  match p with
  | none => true
  | some p => (s.part p).idle

/-- BUSY while another page's command holds the partition, where there is one. -/
def State.optBusy (s : State) (n : Nat) (p : Option Nat) : Option No :=
  match p with
  | none => none
  | some p => s.partBusy n p

/-- TILE_REPAIR (R3, R411): the site is disabled and its tile rebuilt on the segment's spare; no command names a site of a stripe
that is not enabled, and one that is disabled already is refused (R468). [DEDUCED, log entry 102] -/
def execTileRepair (n : Nat) (s : State) : Res :=
  let px := s.param n 0 2
  let py := s.param n 2 2
  let p := s.partOfPhys (px / 37)
  s.command n 0x0803
    [s.badLength n 4 false, s.badField n [(0, decide (px ≥ 296) || !(s.fuses.stripeMap.getLsbD (px / 37)) || s.disabled.contains (px, py))
      , (2, decide (py ≥ 288))] [], deviceScope n, permit (s.quietPart p)
    , s.optBusy n p, noIf (!(s.segHasRoom px py)) stResource] fun s =>
      let gone := s.tileAt px py
      let s := s.disableSite px py 2 0 0
      match gone with
      | none => s.okWith n []
      | some t => s.attach 0 t n []

/-! SCAN_RUN (R484) -/

/-- The failing sites of a cluster, in ascending PY and then PX. -/
def State.scanSites (s : State) (c : Nat) (failing : List (Nat × Nat)) : List (Nat × Nat) :=
  sortBy (failing.filter fun d => d.1 / 37 = c / 36 && d.2 / 8 = c % 36 && decide (d.1 < 296) && !(s.disabled.contains d)).eraseDups
    fun a b => a.2 < b.2 || (a.2 = b.2 && a.1 ≤ b.1)

/-- A failing site is disabled as a field repair; a segment without room withdraws its stripe (R472). -/
def State.scanSite (s : State) (p : Option Nat) (d : Nat × Nat) : State :=
  if s.withdrawn.getLsbD (d.1 / 37) then s
  else if s.segHasRoom d.1 d.2 then s.disableSite d.1 d.2 3 0 0
  else s.exhaust p d.1 d.2 3 0 0

/-- The scan of a powered cluster: reset, patterns, repairs, restored tiles (R411, R484). -/
def State.scanCluster (s : State) (n c pack : Nat) (failing : List (Nat × Nat)) : State :=
  let p := s.partOfPhys (c / 36)
  let l := s.scanSites c failing
  let s := s.startClusterReset c
  let s := each l (fun d st => st.scanSite p d) s
  let s := (each (s.tilesOfCluster c) (fun t st => st.restoreTile t) s).restoreBells c
  let bad := b01 (!l.isEmpty)
  let s := s.raiseDev 0x070B 1 (unitId 1 c) (pack * 2 ^ 48 + bad * 2 ^ 47 + l.length)
  s.attach 1 c n (leBytes 2 bad ++ leBytes 2 l.length)

/-- A pattern pack SCAN_RUN may name: the base set, an installed pack, or under full scan the staged one (R485, R515). -/
def State.packKnown (s : State) (pack : Nat) : Bool := pack = 0 || pack = 0xFFFF || s.flash.packs.any fun k => k.id = pack

/-- SCAN_RUN (R431, R484): the tiles of a powered cluster lose their power and take it again before the scan; a cluster whose power is
going down holds the power-up, and the scan runs when power is good. [DEDUCED, log entry 101] -/
def execScanRun (n : Nat) (failing : List (Nat × Nat)) (s : State) : Res :=
  let c := s.param n 0 2
  let pack := s.param n 2 2
  let p := s.partOfPhys (c / 36)
  let k := s.cluster c
  s.command n 0x0804
    [s.badLength n 4 false
    , s.badField n [(0, decide (c ≥ 288) || !(s.fuses.stripeMap.getLsbD (c / 36))), (2, !(s.packKnown pack))] [], deviceScope n
    , permit (s.quietPart p)
    , permit (pack ≠ 0xFFFF || (s.dbg.scan && s.stages.any fun g => g.kind = 3 && g.verified)), s.optBusy n p
    , noIf (s.scan.isSome || k.powerUpHeld || s.resets.any fun r => r.scope = 1 && r.index = c) stBusy
    , noIf s.boot.poweredOff stHw] fun s =>
      let s := if k.power then s.openSwitches c else s
      State.powerUpBegin { s with scan := some { mbx := n, cluster := c, pack := pack, failing := failing } } c 0x0804 (some n)

/-- Power is good at a cluster: the scan that waits for it runs, else its reset follows, and a page that waited completes (R455, R484). -/
def State.powerGood (s : State) (c : Nat) (mbx : Option Nat) : State :=
  match s.scan with
  | some w =>
    if w.cluster = c then State.scanCluster { s with scan := none } w.mbx c w.pack w.failing
    else (s.startClusterReset c).okHeld mbx []
  | none => (s.startClusterReset c).okHeld mbx []

/-- CLUSTER_POWER_UP_DONE (R433, R455, R464): power is good and the cluster reset follows; after a trip its tiles are restored. A
power-down that waited for it begins. -/
def execClusterPowerUpDone (cluster : Nat) (s : State) : Res :=
  let k := s.cluster cluster
  if !k.rising then .next s
  else
    let s := s.modCluster cluster fun x => { x with
      power := true, switching := false, rising := false, heldMbx := none, downHeld := false, tripped := k.tripped && k.downHeld }
    let s := s.powerGood cluster k.heldMbx
    let s := if k.tripped && !k.downHeld then
        let s : State := { s with power := { s.power with thermalUntil := s.now + 1000000000 } }
        (each (s.tilesOfCluster cluster) (fun t st => st.restoreTile t) s).restoreBells cluster
      else s
    let s := s.askCadence cluster
    .next (if k.downHeld then s.openSwitches cluster else s).fillSlots

/-! BLACKBOX_READ (R409, R491, R492) -/

/-- An event record's 32 bytes (R366). -/
def eventBytes (e : EventRec) : List Byte :=
  leBytes 2 e.code ++ leBytes 1 (e.sev + 16 * b01 e.replay + 32 * b01 e.noTide + 64 * b01 e.frozen) ++ leBytes 1 e.part
    ++ leBytes 4 e.unit ++ leBytes 8 e.ts ++ leBytes 6 e.tide ++ leBytes 2 e.seq ++ leBytes 8 e.payload.toNat

/-- BOOT_STEP_STATUS (R362). -/
def Boot.status (b : Boot) : Nat :=
  b.state * 2 ^ 30 + b.stStep * 2 ^ 24 + b.reached * 2 ^ 20 + (if b.state = 3 then b.error else 0)

/-- A tile record of an image (R491). -/
def TileCapture.bytes (c : TileCapture) : List Byte :=
  let tags := (List.range 16).foldl (fun m k => m + c.tags.getD k 0 * 4 ^ k) 0
  fill 320 (leBytes 4 (2 ^ 31 + c.tile) ++ leBytes 4 c.code ++ leBytes 8 c.payload.toNat
    ++ fill 256 (c.queues.flatMap fun q => q.flatMap fun w => leBytes 4 w.toNat) ++ leBytes 4 tags
    ++ leBytes 4 (sat c.corrected 0xFFFFFFFF) ++ leBytes 1 (b01 c.observed))

/-- A 16-bit two's complement number. -/
def int16 (v : Int) : List Byte := leBytes 2 (v % 65536).toNat

/-- A cluster record of an image (R491). -/
def Cluster.bytes (k : Cluster) : List Byte :=
  fill 16 (((List.range 4).flatMap fun i => int16 (k.temps.getD i 0)) ++ leBytes 1 k.cadence ++ leBytes 1 (b01 k.power)
    ++ (List.range 4).flatMap fun i => leBytes 1 (sat (tget 0 k.margins i) 255))

/-- The partition record of an image (R491). -/
def State.partRecord (s : State) (p : Nat) : List Byte :=
  fill 256 (s.partBytes p ++ (s.part p).counterBytes ++ leBytes 1 ((s.part p).markSlot.getD 0))

/-- The state as a capture saw it, for the device, partition and cluster records. -/
def State.atCapture (s : State) (c : Capture) : State :=
  { s with boot := c.boot, power := c.power, job := c.job, parts := c.parts, clusters := c.clusters }

/-- The body of an image after its header (R491). [DESIGN CHOICE, log entry 106] -/
def State.bbBody (s : State) (b : BbSlot) : List Byte :=
  let c := b.capture
  let d := s.atCapture c
  fill (2 ^ 21) (b.events.flatMap eventBytes)
    ++ fill 4096 (fill 64 (s.idBlock ++ leBytes 4 c.boot.status) ++ fill 32 d.powerBytes ++ d.jobBytes)
    ++ ((List.range 8).flatMap fun p => d.partRecord p)
    ++ fill 0x1800 ((List.range 288).flatMap fun k => (d.cluster k).bytes)
    ++ fill (4096 * 320) (c.tiles.flatMap TileCapture.bytes)

/-- The header of an image but for its check word (R492). -/
def State.bbHeader (s : State) (b : BbSlot) (valid : Bool) : List Byte :=
  fill 4092 ([0x42, 0x42, 0x4F, 0x58] ++ leBytes 2 1 ++ leBytes 1 (b01 valid) ++ leBytes 1 0
    ++ leBytes 8 b.seq ++ leBytes 8 s.fuses.serial ++ leBytes 4 s.flash.running.version ++ leBytes 4 s.flash.bootCount
    ++ (match b.trigger with
      | none => leBytes 32 0
      | some e => eventBytes e)
    ++ leBytes 4 b.count ++ leBytes 6 b.capture.tide ++ leBytes 2 0 ++ leBytes 2 b.capture.tiles.length ++ leBytes 4 b.capture.omitted)

/-- An image with its check word (R492). -/
def State.bbBytes (s : State) (b : BbSlot) : List Byte :=
  let h := s.bbHeader b true
  let body := s.bbBody b
  h ++ leBytes 4 (crc32c (h ++ body)) ++ body

/-- The live black box as an image: VALID 1 and SEQ 0 (R491). -/
def State.bbLive (s : State) : BbSlot :=
  { valid := true, seq := 0, count := s.bb.log.length, events := s.bb.log, capture := s.bb.capture }

/-- The source of BLACKBOX_READ. -/
def State.bbSource (s : State) (n : Nat) : BbSlot :=
  match n with
  | 0 => s.bbLive
  | 1 => s.flash.bb0
  | _ => s.flash.bb1

/-- What is read from a source: the image, or the header alone of a slot that is invalid (R492). -/
def State.bbRead (s : State) (n : Nat) : List Byte :=
  let b := s.bbSource n
  if b.valid then s.bbBytes b
  else
    let h := s.bbHeader {} false
    h ++ leBytes 4 (crc32c h)

/-- BLACKBOX_READ (R409, R492). -/
def execBlackboxRead (n : Nat) (s : State) : Res :=
  let src := s.param n 0 1
  s.command n 0x0805
    [s.badLength n 1 true, s.tooSmall n (6 * 2 ^ 20), s.badField n [(0, decide (src > 2))] [], deviceScope n, s.noHost] fun s =>
      s.finish n stOk [] (s.bbRead src) 0 0xFFFF

/-! Firmware banks (R402, R403, R505) -/

/-- The banks are switched now: a device reset whose path is warm (R403, R429). -/
def State.activateNow (s : State) (n : Nat) : State :=
  let s := s.okWith n []
  State.announceDeviceReset { s with
    flash := { s.flash.swap with onTrial := true, rolledBack := false, activateCold := false }
    boot := { s.boot with activation := true } }

/-- FW_ACTIVATE and FW_ROLLBACK with a condition on the other bank (R402). -/
def State.switchBank (s : State) (n opcode : Nat) (ok : Bool) : Res :=
  let mode := s.param n 0 1
  s.command n opcode
    [s.badLength n 1 false, s.badField n [(0, decide (mode > 1))] [], deviceScope n, permit ok
    , permit (mode = 0 || (s.inNoJob && s.parts.all fun q => q.2.st = .none || q.2.idle))] fun s =>
      if mode = 1 then s.activateNow n else State.okWith { s with flash := { s.flash with activateCold := true } } n []

/-- FW_ACTIVATE (R402): the other bank is verified. -/
def execFwActivate (n : Nat) (s : State) : Res := s.switchBank n 0x0A01 (s.flash.other.valid && s.flash.other.verified)

/-- FW_ROLLBACK (R402): the other bank is valid. -/
def execFwRollback (n : Nat) (s : State) : Res := s.switchBank n 0x0A03 s.flash.other.valid

/-- FW_CONFIRM (R402, R505): the floor rises to the confirmed image's, and never falls. -/
def execFwConfirm (n : Nat) (s : State) : Res :=
  s.command n 0x0A02 [s.badLength n 0 false, deviceScope n, permit s.flash.onTrial] fun s =>
    State.okWith { s with flash := { s.flash with
      onTrial := false, fwFloor := max s.flash.fwFloor s.flash.running.floor } } n []

/-! Ownership (R499, R500) -/

/-- The key of 133 bytes at byte `o` of an ownership record; none where it is all 0 (R499). -/
def recordKey (r : List Byte) (o : Nat) : Option Nat := if keyAt r o = 0 then none else some (keyAt r o)

/-- Length of an ownership record by its SIGNER (R499). -/
def recordLen (r : List Byte) : Nat := if fieldOf r 6 1 = 3 then 704 else 428

/-- An ownership record keeps R499, and names the device of `serial`. -/
def recordForm (r : List Byte) (serial : Nat) : Bool :=
  fieldOf r 0 4 = 0x4F56424D && fieldOf r 4 2 = 1 && decide (fieldOf r 6 1 ≤ 3) && zeroAt r 7 1 && zeroAt r 157 3 && zeroAt r 293 3
    && (decide (fieldOf r 6 1 ≠ 3) || signerForm (r.drop 296)) && fieldOf r 8 8 = serial

/-- DETAIL of an ownership record's SIGNATURE_FAIL, 0 for none (R500). -/
def State.ownerSigner (s : State) (r : List Byte) : Nat :=
  let by_ := fun (k : Option Nat) => match k with
    | none => 1
    | some k => if signedBy k r then 0 else 1
  match fieldOf r 6 1 with
  | 0 => if s.flash.ownerKey = none then 2 else by_ s.flash.ownerKey
  | 1 => s.vendorFault r false [] 10
  | 2 => if s.flash.ownerKey ≠ none then 2 else by_ (recordKey r 24)
  | _ => s.vendorFault r true ((r.drop 296).take 276) 10

/-- An accepted ownership record acts (R500). -/
def State.takeOwner (s : State) (r : List Byte) : State :=
  let s : State := { s with
    flash := { s.flash with ownerKey := recordKey r 24, debugKey := recordKey r 160, ownerSeq := fieldOf r 16 8 }
    stages := s.stages.map fun g => if ofPart g.kind then { g with verified := false } else g }
  let s := s.clearSealed s.sealedParts 2
  s.raiseDev 0x0802 1 mgmtUnit (fieldOf r 6 1 * 2 ^ 56 + b01 (recordKey r 24).isNone * 2 ^ 55 + fieldOf r 16 8 % 2 ^ 48)

/-- OWNER_SET (R499, R500): the operand is the data buffer, which starts with the record. [DESIGN CHOICE, log entry 103] -/
def execOwnerSet (n : Nat) (record : List Byte) (s : State) : Res :=
  let seen := s.link.access
  let r := fill (recordLen record) record
  s.command n 0x0B01
    [s.badLength n 0 true, s.tooSmall n (if seen then recordLen record else 428), s.badField n [] []
    , noIf (seen && !recordForm r s.fuses.serial) stField, deviceScope n
    , permit (s.parts.all fun q => q.2.st = .none || q.2.st = .empty), if seen then signFault (s.ownerSigner r) else none
    , noIf (seen && decide (fieldOf r 16 8 ≤ s.flash.ownerSeq)) stVersion, s.noHost] fun s => (s.takeOwner r).okWith n []

/-! Licences (R437, R510) -/

/-- PURPOSES of the signer block at payload byte `o` has a bit outside the table (R498). -/
def State.badPurposes (s : State) (n o : Nat) : Nat × Bool := (o + 140, !signerForm (List.replicate 140 0 ++ s.paramBytes n (o + 140) 4))

/-- Fields of a licence that offend (R510). -/
def State.badLicence (s : State) (n : Nat) : List (Nat × Bool) :=
  [(0, decide (s.param n 0 4 ≠ 0x4C56424D)), (4, decide (s.param n 4 2 ≠ 1)), (6, decide (s.param n 6 1 > 3))
  , (7, decide (s.param n 7 1 > 1)), (8, decide (s.param n 8 8 ≠ s.fuses.serial))]

/-- ISSUE is not above that of an installed licence for the same bit. -/
def State.issueOld (s : State) (b issue : Nat) : Bool := s.flash.licences.any fun l => l.1 = b && decide (issue ≤ l.2)

/-- LICENCE_INSTALL (R437, R438, R510). -/
def execLicenceInstall (n : Nat) (s : State) : Res :=
  let b := s.param n 6 1
  let endorsed := bit (s.param n 7 1) 0
  let issue := s.param n 16 4
  let len := if endorsed then 532 else 256
  s.command n 0x0B02
    [s.badLength n len false
    , s.badField n (s.badLicence n ++ if endorsed then [s.badPurposes n 124] else []) (span 20 124 ++ if endorsed then span 257 260 else [])
    , deviceScope n, signFault (s.vendorFault (s.paramBytes n 0 len) endorsed (s.paramBytes n 124 276) 8), noIf (s.issueOld b issue) stVersion] fun s =>
      let s : State := { s with flash := { s.flash with
        licences := tset s.flash.licences b issue, licenceBytes := tset s.flash.licenceBytes b (s.paramBytes n 0 len) } }
      (s.raiseDev 0x0803 0 mgmtUnit (b * 2 ^ 56 + issue)).okWith n []

/-! Debug access (R513 to R515) -/

/-- DEBUG_CHALLENGE (R513): a new nonce replaces an outstanding one. [DESIGN CHOICE, log entry 19] -/
def execDebugChallenge (n : Nat) (s : State) : Res :=
  let scope := s.param n 0 1
  s.command n 0x0B03 [s.badLength n 1 false, s.badField n [(0, decide (scope > 2))] [], deviceScope n] fun s =>
    let v := Config.freeNonce s.freeCtr
    let s : State := { s.used 1 with dbg := { s.dbg with nonce := some (scope, v, s.now) } }
    s.okWith n (leBytes 64 v.toNat)

/-- Ten minutes in ns: how long a nonce stays valid (R412). -/
def nonceLife : Nat := 600000000000

/-- NONCE_EXPIRE (R412, R513). -/
def execNonceExpire (s : State) : Res :=
  match s.dbg.nonce with
  | none => .next s
  | some c =>
    if c.2.2 + nonceLife ≤ s.now then .next { s with dbg := { s.dbg with nonce := none } } else .next s

/-- A scope is open (R515). -/
def State.scopeOpen (s : State) (scope : Nat) : Bool :=
  match scope with
  | 0 => s.dbg.telemetry
  | 1 => s.dbg.tile
  | _ => s.dbg.scan

/-- Fields of a debug response that offend (R514). -/
def State.badUnlock (s : State) (n : Nat) : List (Nat × Bool) :=
  let x := s.param n 80 4
  [(0, decide (s.param n 0 4 ≠ 0x4456424D)), (4, decide (s.param n 4 1 > 2)), (5, decide (s.param n 5 1 ≥ 3))
  , (80, decide (x < 1 ∨ x > 600))]

/-- DETAIL of a debug response's SIGNATURE_FAIL, 0 for none (R514). [DEDUCED, log entry 104] -/
def State.unlockFault (s : State) (n : Nat) : Nat :=
  let scope := s.param n 4 1
  let endorsed := bit (s.param n 5 1) 1
  let o := s.paramBytes n 0 (if endorsed then 504 else 228)
  let d := if bit (s.param n 5 1) 0 then
      (match s.flash.debugKey.or s.flash.ownerKey with
        | none => 2
        | some k => if scope = 2 then 2 else if signedBy k o then 0 else 1)
    else s.vendorFault o endorsed (s.paramBytes n 96 276) 9
  if d ≠ 0 then d
  else match s.dbg.nonce with
    | none => 7
    | some c =>
      if scope ≠ c.1 ∨ s.param n 8 8 ≠ s.fuses.serial ∨ s.param n 16 64 ≠ c.2.1.toNat ∨ s.now > c.2.2 + s.param n 80 4 * 1000000000
      then 7 else 0

/-- A partition that holds sealed weights runs. -/
def State.sealedRuns (s : State) : Bool := s.sealedParts.any fun p => running (s.part p).st

/-- The scope opens, and those below it (R515). [DEDUCED, log entry 105] -/
def State.openScope (s : State) (scope : Nat) (owner : Bool) (signer keyId : Nat) : State :=
  let s := if scope = 2 && !owner then s.clearSealed s.sealedParts 3 else s
  let d := s.dbg
  let s : State := { s with dbg := { d with
    telemetry := true, tile := d.tile || decide (scope ≥ 1), scan := d.scan || scope = 2
    byVendor := d.byVendor || (!owner && decide (scope ≥ 1)) } }
  s.raiseDev 0x0801 1 mgmtUnit (scope * 2 ^ 56 + signer * 2 ^ 48 + keyId)

/-- DEBUG_UNLOCK (R513 to R515): a scope that is open already stays as it is. The nonce is consumed. -/
def execDebugUnlock (n : Nat) (s : State) : Res :=
  let scope := s.param n 4 1
  let owner := bit (s.param n 5 1) 0
  let endorsed := bit (s.param n 5 1) 1
  let len := if endorsed then 504 else 228
  s.command n 0x0B04
    [s.badLength n len false
    , s.badField n (s.badUnlock n ++ if endorsed then [s.badPurposes n 96] else [])
        ([6, 7] ++ span 84 96 ++ if endorsed then span 229 232 else [])
    , deviceScope n, permit (s.dbg.nonce.isSome && !(scope = 2 && !owner && s.sealedRuns)), signFault (s.unlockFault n)] fun s =>
      let s : State := { s with dbg := { s.dbg with nonce := none } }
      let s := if s.scopeOpen scope then s
        else s.openScope scope owner (if owner then 0 else if endorsed then 2 else 1) (if endorsed then s.param n 232 4 else 0)
      s.okWith n []

end Sys2Proof.Machine
end

