-- ==== Sys2Proof/Machine/Sequencer.lean ====
section
/-!
DEFINITION. The tile sequencer and the tile cycle (spec/05_tile_program.md R113 to R116, R126, R139 to R141, R147;
spec/03_tile_arrays.md R89; spec/16_clocks_power_heat.md R460 to R462; canaries: spec/17_reliability.md R477 to R482).
-/

namespace Sys2Proof.Machine

/-! Canaries (R478 to R482) -/

/-- The kernel list of a tile's partition. -/
def State.kernelList (s : State) (t : TileId) : List KernelSrc :=
  match s.partOf t with
  | none => []
  | some p => (s.part p).kernels

/-- Bundle `b` of a kernel. -/
def KernelSrc.bundle (k : KernelSrc) (b : Nat) : BitVec 128 :=
  match k with
  | .base i => Config.baseBundle i b
  | .pack r => r.bundles.getD b 0

/-- EXPECTED of a kernel. -/
def KernelSrc.expected (k : KernelSrc) : Nat :=
  match k with
  | .base i => (Config.baseExpected i).toNat
  | .pack r => r.expected.toNat

/-- KERNEL_ID of a kernel. -/
def KernelSrc.id (k : KernelSrc) : Nat :=
  match k with
  | .base i => (Config.baseKernelId i).toNat
  | .pack r => r.kernelId.toNat

/-- The kernel a due canary of tile `t` runs (R481): its place in the list. -/
def State.kernelFor (s : State) (t : TileId) : Nat :=
  match s.partOf t with
  | none => 0
  | some p =>
    let q := s.part p
    let k := max 1 q.kernels.length
    match (if q.replaying then (s.tile t).firstMismatch else none) with
    | some i => i
    | none => if s.isObserved t then q.tide % k else q.tide / q.canaryInterval % k

/-- Canaries are enabled in the tile's partition. -/
def State.canaryOn (s : State) (t : TileId) : Bool :=
  match s.partOf t with
  | none => false
  | some p => (s.part p).canaryEn

/-- A due canary starts: the tile is about to issue CANARY_AT in sequence, for the first time in the tide (R479). [DEDUCED, log entry 38] -/
def State.canaryStarts (s : State) (t : TileId) : Bool :=
  let x := s.tile t
  x.issuing && x.held.isEmpty && x.seqIssue && x.pc = canaryAt x.canary && bit x.canary.toNat 31 && x.canaryDueSince.isSome
    && !x.canaryRan && s.canaryOn t && s.acts t

/-- The kernel's bundles issue in place of the slot's (R479). -/
def State.canaryBegin (s : State) (t : TileId) : State :=
  if s.canaryStarts t then
    s.modTile t fun x => { x with canaryRunning := true, canaryRan := true, kernel := s.kernelFor t, canaryEnd := none }
  else s

/-- CANARY_RUN (R479). -/
def execCanaryRun (t : TileId) (s : State) : Res := .next (s.canaryBegin t)

/-- The check value of v31 and s31 (R480). -/
def Tile.canaryValue (x : Tile) : Nat :=
  let ws := lanesOf (tget [] x.vregs 31) ++ [tget 0 x.sregs 31]
  cvValue crc64xzConf (cvFeed crc64xzConf (cvStart crc64xzConf) (ws.flatMap fun w => leBytes 4 w.toNat))

/-- In the enabled cycle after the slot's last bundle, the feed takes the canary's result (R480). -/
def Tile.canaryFeed (x : Tile) : Tile :=
  if x.canaryEnd.map (· + 1) = some x.ecc then { x with canaryCrc := x.canaryValue } else x

/-- A mismatch is repeated (R482). -/
def State.mismatchRepeated (s : State) (t : TileId) : Bool :=
  s.isObserved t || ((s.tile t).firstMismatch.isSome && (match s.partOf t with
    | none => false
    | some p => (s.part p).replaying))

/-- The compare (R480): the result against EXPECTED. -/
def State.canaryJudge (s : State) (t : TileId) : State :=
  let x := s.tile t
  match x.canaryEnd, (s.kernelList t)[x.kernel]? with
  | some e, some k =>
    if decide (x.ecc ≤ e) then s
    else
      let s := s.setTile t { x with canaryEnd := none }
      if x.canaryCrc = k.expected then s
      else
        let rep := s.mismatchRepeated t
        let s := if rep then s else s.modTile t fun y => { y with firstMismatch := some x.kernel }
        s.hwFault t 0x0701 (k.id * 2 ^ 32 + b01 rep * 2 ^ 31 + canaryAt x.canary)
  | _, _ => s

/-- CANARY_COMPARE, in an enabled cycle (R89, R480). -/
def execCanaryCompare (t : TileId) (s : State) : Res := .next (if s.acts t then s.canaryJudge t else s)

/-! Fetch (R116, R126) -/

/-- A half of bundle `pc` as it is fetched: corrected and counted, reported, or, for three bits or more, not defined. The
answer names whether the fetch fails, and what is added to the half. -/
def State.fetchHalf (s : State) (t : TileId) (pc h : Nat) : State × Bool × Nat :=
  let m := tget 0 (s.tile t).codeFlips (2 * pc + h)
  match popcount72 m with
  | 0 => (s, false, 0)
  | 1 => (s.countCorrection t none, false, 0)
  | 2 => (s, true, 0)
  | _ =>
    match Config.freeEcc s.freeCtr % 3 with
    | 0 => (s.used 1, true, 0)
    | 1 => ((s.used 1).countCorrection t none, false, (Config.freeWord s.freeCtr).toNat)
    | _ => (s.used 1, false, m % 2 ^ 64)

/-- The bundle at `pc`: the canary's inside its slot, else the instruction store's (R479). None where the fetch fails. -/
def State.fetch (s : State) (t : TileId) (pc : Nat) : State × Option Nat :=
  let x := s.tile t
  let a := canaryAt x.canary
  if x.canaryRunning && decide (a ≤ pc) && decide (pc < a + 64) then
    (s, some (((s.kernelList t)[x.kernel]?.map fun k => (k.bundle (pc - a)).toNat).getD 0))
  else
    let r0 := s.fetchHalf t pc 0
    let r1 := r0.1.fetchHalf t pc 1
    if r0.2.1 || r1.2.1 then (r1.1, none)
    else (r1.1, some (Nat.xor (tget 0 x.code pc).toNat (r0.2.2 + r1.2.2 * 2 ^ 64)))

/-! Issue (R113, R115, R140, R147) -/

/-- Slot of an operation by its place in the bundle. -/
def slotOps (ops : List Instr) : List (Nat × Instr) := (List.range ops.length).zip ops

/-- A fault of the second stage by its code: an error that a read finds (R147). -/
def lateCode (c : Nat) : Bool := c = 0x0711 || c = 0x0712

/-- The fault `i` would raise before issue (R147), found by trying it alone. A descriptor's content and errors found by a
read belong to the second stage. [DEDUCED, log entry 39] -/
def State.firstStage (s : State) (t : TileId) (i : Instr) : Bool :=
  match ((s.issue i).tile t).faulted with
  | none => false
  | some f =>
    match i with
    | .mvIssue _ tag sD rsv => !(lateCode f.code) && (mvIssueCheck t rsv.toNat tag.toNat sD.toNat s).isSome
    | _ => !(lateCode f.code)

/-- The control operation takes effect after the other slots: END and the SPEC operations of kind 0. -/
def issuesLast (i : Instr) : Bool :=
  match i with
  | .end_ _ _ => true
  | .specConfirm _ _ _ _ => true
  | .specDiscard _ _ _ => true
  | _ => false

/-- The operations of a bundle in the order their effects are taken. -/
def issueOrder (ops : List Instr) : List Instr := (ops.filter fun i => !(issuesLast i)) ++ ops.filter issuesLast

/-- A canary's slot ends with its last bundle (R480). -/
def Tile.slotEnd (x : Tile) (pc : Nat) : Tile :=
  if x.canaryRunning && pc = canaryAt x.canary + 63 then { x with canaryRunning := false, canaryEnd := some x.ecc } else x

/-- The bundle at `pc` issues: a first-stage fault of the first slot stops it, else all five operations issue together. -/
def State.issueOps (s : State) (t : TileId) (ops : List Instr) : State :=
  let pc := (s.tile t).pc
  let s0 := s.modTile t fun x => { x with cur := some pc, held := [], heldFor := 0 }
  let s1 := match ops.find? (s0.firstStage t) with
    | some i => s0.issue i
    | none =>
      let s2 := (issueOrder ops).foldl State.issue s0
      s2.modTile t fun x => ({ x with bundlesIssued := x.bundlesIssued + 1 } : Tile).slotEnd pc
  s1.modTile t fun x => { x with cur := none, seqIssue := x.pc = pc + 1 && x.bubble = 0 }

/-- Hold a bundle whose waits are unmet, or issue it (R140). -/
def State.holdOrIssue (s : State) (t : TileId) (ops : List Instr) : State :=
  if ops.any s.waitUnmet then s.modTile t fun x => { x with held := ops, heldFor := 0 } else s.issueOps t ops

/-- WAIT_RELEASE (R140): every wait of the held bundle is satisfied, and its operations issue. -/
def execWaitRelease (t : TileId) (s : State) : Res :=
  let x := s.tile t
  if !(s.acts t) || x.held.isEmpty || !(s.unmet t).isEmpty || !x.issuing then .next s else .next (s.issueOps t x.held)

/-- NO_END's fault (R126, R149). -/
def State.noEndFault (s : State) (t : TileId) : State :=
  match execNoEnd t s with
  | .next u => u
  | _ => s

/-- The tile is about to issue a bundle: the sequencer fetches, decodes, and holds or issues it (R112, R116, R126). -/
def State.sequence (s : State) (t : TileId) : State :=
  let x := s.tile t
  if x.pc > 1023 then s.noEndFault t
  else
    let s := s.canaryBegin t
    let r := s.fetch t x.pc
    match r.2 with
    | none => r.1.hwFault t 0x0710 (7 * 2 ^ 13 + x.pc)
    | some w => r.1.holdOrIssue t (decBundle t w)

/-- One enabled cycle of a held bundle: it issues when its waits are met, else waits on, up to the stall limit (R140, R141). -/
def State.waitOn (s : State) (t : TileId) : State :=
  if (s.unmet t).isEmpty then s.issueOps t (s.tile t).held
  else
    let s := s.modTile t fun x => { x with heldFor := x.heldFor + 1, waitCycles := x.waitCycles + 1 }
    match execQueueStall t s with
    | .next u => (match execWaitStall t u with
      | .next v => v
      | _ => u)
    | _ => s

/-- The canary's compare, 132 enabled cycles after its feed began (R480). -/
def State.canaryTick (s : State) (t : TileId) : State :=
  match (s.tile t).canaryEnd with
  | none => s
  | some e => if (s.tile t).ecc ≥ e + 133 then s.canaryJudge t else s

/-- One enabled cycle of a tile: the last cycle's mark write, array steps, scrub slots and array reads end, what it wrote lands, then
the sequencer acts (R89, R114, R139, R153). -/
def State.tileCycle (s : State) (t : TileId) : State :=
  let s := ((((s.markCycle t).modTile t Tile.arrStep).scrubCycle t).arrReads t).tailReads t
  let s := ((s.modTile t fun x => x.landAll.canaryFeed).canaryTick t).arrTick t
  let x := s.tile t
  if !x.issuing then s
  else if decide (x.bubble > 0) then s.modTile t fun x => { x with bubble := x.bubble - 1 }
  else if x.held.isEmpty then s.sequence t
  else s.waitOn t

/-- Tiles that act in this tile cycle. -/
def State.enabledTiles (s : State) : List TileId := (s.tiles.map fun x => x.1).filter s.acts

/-- A tile's fault reports leave for the management complex by the access point of its cluster, on VC0 (R183, R197). -/
def State.sendReports (s : State) : State :=
  each ((s.tiles.filter fun x => decide (0 < x.2.reports)).map fun x => x.1) (fun t st =>
    (st.modTile t fun x => { x with reports := x.reports - 1 }).sendToUnit t .management { kind := .mgmt, vc := 0 }) s

/-- One tile cycle of the device: time passes, the enabled tiles run, the root of the service tree passes a packet and the CXL link a flit. [DESIGN CHOICE, log entry 1] -/
def State.tick (s : State) : State :=
  let s : State := { s with time := s.time + cycleUnits s.power.step, cc := s.cc + 1, freeCtr := s.freeCtr + 1 }
  (each s.enabledTiles (fun t st => st.tileCycle t) s).sendReports.treePass.linkSlot.prepareGoOn

end Sys2Proof.Machine
end

