-- ==== Sys2Proof/Machine/Outside.lean ====
section
/-!
DEFINITION. What reaches the management complex from outside the mailboxes (spec/13_cxl_interface.md R354, R376;
spec/14_mailboxes.md R386, R387, R414, R415; spec/18_security.md R496, R511, R512; spec/19_check_units.md R517 to R520): the
I3C port, DOE and SPDM, the heartbeat, the watchdog, the management check-value units.
-/

namespace Sys2Proof.Machine

/-! The I3C port (R415) -/

/-- A PLDM request is answered while the port is served; 0 is success, 1 an argument the port does not serve. -/
def State.pldm (s : State) (code : Nat) (vals : List Nat) : Res :=
  if s.i3cUp then .next { s with i3c := { code := code, vals := vals } } else .next s

/-- PLDM types served (R415). -/
def pldmTypes : List Nat := [0, 2, 4, 7]

/-- PLDM_BASE (R415): discovery and version: the PLDM types served, then the version of each. -/
def execPldmBase (s : State) : Res := s.pldm 0 (pldmTypes ++ pldmTypes.map Config.pldmVersion)

/-- The reading of numeric sensor `n`: temperature sensors 0 to 1,167 (R410), then the power figures of POWER_QUERY; a
negative reading in 16-bit two's complement. [DESIGN CHOICE, log entry 81] -/
def State.sensorReading (s : State) (n : Nat) : Option Nat :=
  if n < 1168 then some ((s.sensor n) % 65536).toNat else s.powerFigures[n - 1168]?

/-- PLDM_PLATFORM (R415): a numeric sensor is read. Events of severity 3 and 4 go out as they are raised. -/
def execPldmPlatform (sensor : Nat) (s : State) : Res :=
  match s.sensorReading sensor with
  | none => s.pldm 1 []
  | some v => s.pldm 0 [v]

/-- PLDM_FRU (R415): serial number, part, stepping, firmware version. -/
def execPldmFru (s : State) : Res :=
  s.pldm 0 [s.fuses.serial, s.fuses.deviceId, s.fuses.stepping, s.flash.running.version]

/-- PLDM_FILE_TRANSFER (R415): the black box, as BLACKBOX_READ gives it from source 0, 1 or 2. -/
def execPldmFileTransfer (source : Nat) (s : State) : Res :=
  if source > 2 then s.pldm 1 [] else s.pldm 0 ((s.bbRead source).map BitVec.toNat)

/-! DOE and SPDM (R354, R496, R511, R512) -/

/-- DOE mailboxes answer while the link is up, after an IDE failure too (R377); the responder is firmware. -/
def State.doeUp (s : State) : Bool := s.link.trained && !s.pins.perst

/-- The SPDM responder answers once the firmware has run. -/
def State.spdmUp (s : State) : Bool := s.doeUp && s.fwShown

/-- A DOE response: a code and values. [PRESUMED, log entry 79] -/
def State.doeSay (s : State) (code : Nat) (vals : List Nat) : State := { s with doe := { code := code, vals := vals } }

/-- DOE_DISCOVERY (R354): discovery, CMA/SPDM and secured CMA/SPDM, each with the next index, 0 after the last. [PRESUMED, log entry 80] -/
def execDoeDiscovery (index : Nat) (s : State) : Res :=
  if !s.doeUp then .next s
  else if index > 2 then .next (s.doeSay 0 [0xFFFF, 0, 0])
  else .next (s.doeSay 0 [1, index, (index + 1) % 3])

/-- SPDM ERROR response codes: an unexpected request, an invalid one, a session limit reached, a verification that failed. -/
def spdmError (kind : Nat) : Nat × List Nat := (0x7F, [kind])

/-- An SPDM request that is served when `ok` holds, and otherwise answered as unexpected. -/
def State.spdmReply (s : State) (ok : Bool) (k : State → State) : Res :=
  if !s.spdmUp then .next s
  else if ok then .next (k s)
  else .next (s.doeSay 0x7F [4])

/-- The connection has agreed on algorithms. -/
def State.agreed (s : State) : Bool := s.spdm.version && s.spdm.caps && s.spdm.algs

/-- GET_VERSION (R511): SPDM 1.3. The connection starts again. -/
def execGetVersion (s : State) : Res :=
  s.spdmReply true fun s => State.doeSay { s with spdm := { version := true } } 0x04 [0x13]

/-- GET_CAPABILITIES (R511). -/
def execGetCapabilities (s : State) : Res :=
  s.spdmReply s.spdm.version fun s => State.doeSay { s with spdm := { s.spdm with caps := true } } 0x61 []

/-- NEGOTIATE_ALGORITHMS (R511): the one supported set, or an error. -/
def execNegotiateAlgorithms (supported : Bool) (s : State) : Res :=
  s.spdmReply (s.spdm.version && s.spdm.caps) fun s =>
    if supported then State.doeSay { s with spdm := { s.spdm with algs := true } } 0x63 [] else s.doeSay 0x7F [1]

/-- GET_DIGESTS (R511): one certificate slot, slot 0. -/
def execGetDigests (s : State) : Res := s.spdmReply s.agreed fun s => s.doeSay 0x01 [1]

/-- The public halves of the two device keys (R495). -/
def Fuses.publicKeys (f : Fuses) : List Nat :=
  let seed := leBytes 64 f.identitySeed.toNat
  [publicKey (identityScalar seed), publicKey (sealScalar seed)]

/-- GET_CERTIFICATE (R495, R496, R511): the chain of slot 0, which ends with the certificate of the identity key: this SERIAL, the
identity public key, and in its extension the sealing public key. -/
def execGetCertificate (slot : Nat) (s : State) : Res :=
  s.spdmReply s.agreed fun s => if slot = 0 then s.doeSay 0x02 (s.fuses.serial :: s.fuses.publicKeys) else s.doeSay 0x7F [1]

/-- The digest of measurement `i` (R512); 0 where no value exists. Index 6 is raw. -/
def State.measurement (s : State) (i : Nat) : Option Nat :=
  let f := s.flash
  if i = 1 then some f.running.digest.toNat
  else if i = 2 then some s.fuses.digest.toNat
  else if i = 3 then
    some (if f.licenceBytes.isEmpty then 0 else (sha512 (f.licenceBytes.flatMap fun l => l.2)).toNat)
  else if i = 4 then some (keyDigest f.ownerKey)
  else if i = 5 then some (keyDigest (f.debugKey.or f.ownerKey))
  else if i = 6 then some s.scopeBits
  else if 8 ≤ i ∧ i ≤ 15 then some (if (s.part (i - 8)).image.isSome then (s.part (i - 8)).imageDigest.toNat else 0)
  else if 16 ≤ i ∧ i ≤ 23 then some (s.part (i - 16)).weightDigest.toNat
  else none

/-- Every measurement, by ascending index (R512). -/
def State.measurements (s : State) : List Nat := (List.range 24).filterMap s.measurement

/-- CHALLENGE (R511, R512): signed by the identity key; it carries the measurements' state at one instant. -/
def execChallenge (slot : Nat) (s : State) : Res :=
  s.spdmReply s.agreed fun s => if slot = 0 then s.doeSay 0x03 s.measurements else s.doeSay 0x7F [1]

/-- GET_MEASUREMENTS (R512): one index, every one at a single instant with 0xFF, or with 0 their number. -/
def execGetMeasurements (index : Nat) (s : State) : Res :=
  s.spdmReply s.agreed fun s =>
    if index = 0xFF then s.doeSay 0x60 s.measurements
    else if index = 0 then s.doeSay 0x60 [s.measurements.length]
    else match s.measurement index with
      | none => s.doeSay 0x7F [1]
      | some v => s.doeSay 0x60 [v]

/-- A session by its identity: whether it is established. -/
def State.session (s : State) (n : Nat) : Option Bool := s.spdm.sessions.lookup n

/-- KEY_EXCHANGE (R511): a session begins, up to 4 at once. -/
def execKeyExchange (req : SpdmReq) (s : State) : Res :=
  s.spdmReply (s.agreed && (s.session req.session).isNone) fun s =>
    if s.spdm.sessions.length ≥ 4 then s.doeSay 0x7F [0x0A]
    else State.doeSay { s with spdm := { s.spdm with sessions := s.spdm.sessions ++ [(req.session, false)] } } 0x64 [req.session]

/-- The sessions with one of them replaced, or removed. -/
def State.setSession (s : State) (n : Nat) (v : Option Bool) : State :=
  let rest := s.spdm.sessions.filter fun e => e.1 ≠ n
  { s with spdm := { s.spdm with sessions := match v with
      | none => rest
      | some b => rest ++ [(n, b)] } }

/-- FINISH (R511): the session is established, or ends where the requester's check fails. -/
def execFinish (req : SpdmReq) (s : State) : Res :=
  s.spdmReply (s.session req.session = some false) fun s =>
    if req.verifyOk then (s.setSession req.session (some true)).doeSay 0x65 [req.session]
    else (s.setSession req.session none).doeSay 0x7F [6]

/-- A request inside an established session. -/
def State.inSession (s : State) (req : SpdmReq) (k : State → State) : Res := s.spdmReply (s.session req.session = some true) k

/-- KEY_UPDATE (R511): the session's keys move on by one generation. -/
def execKeyUpdate (req : SpdmReq) (s : State) : Res :=
  s.inSession req fun s => State.doeSay { s with spdm := { s.spdm with
    keyGens := tset s.spdm.keyGens req.session (tget 0 s.spdm.keyGens req.session + 1) } } 0x69 [req.session]

/-- HEARTBEAT (R511). -/
def execHeartbeat (req : SpdmReq) (s : State) : Res := s.inSession req fun s => s.doeSay 0x68 [req.session]

/-- END_SESSION (R511). -/
def execEndSession (req : SpdmReq) (s : State) : Res :=
  s.inSession req fun s => (s.setSession req.session none).doeSay 0x6C [req.session]

/-! Heartbeat and watchdog (R361, R386, R387) -/

/-- The management firmware runs: it has booted since the last device reset and its core does not restart (R386). -/
def State.fwRuns (s : State) : Bool := decide (s.boot.reached ≥ 5) && decide (s.fwRestart = 0)

/-- HEARTBEAT_REGISTER_TICK (R361, R386): the register stands still while the core restarts. -/
def execHeartbeatRegisterTick (s : State) : Res :=
  if s.fwRestart ≠ 0 then .next { s with fwRestart := s.fwRestart - 1 }
  else if s.fwRuns then .next { s with heartbeatReg := s.heartbeatReg + 1 } else .next s

/-- HEARTBEAT_INTERVAL (R387, R414). -/
def execHeartbeatInterval (s : State) : Res :=
  if s.fwRuns && decide (s.heartbeatS > 0) then
    .next (s.raiseDev 0x0911 0 mgmtUnit (sat s.cmdsDone 0xFFFFFFFF * 2 ^ 32 + s.heartbeatReg.toNat))
  else .next s

/-- The bank that a restart of the core boots (R386, R402, R505): the fallback of one on trial, else the running one while the ROM
verifies it, else the other. -/
def Flash.restart (f : Flash) : Flash :=
  let g := f.revert
  if !(g.bankOk g.running true) && g.bankOk g.other true then g.swap else g

/-- WATCHDOG_EXPIRE (R386, R402): every run stops at its next stop point, the core restarts, commands in flight fail, and
MGMT_WATCHDOG freezes the black box. [DEDUCED, log entry 82] -/
def execWatchdogExpire (s : State) : Res :=
  if !s.fwRuns then .next s
  else
    let s := each s.runningParts (fun p st => st.requestStop p) s
    let k := s.inFlight
    let s : State := { s with flash := s.flash.restart, fwRestart := min (Config.restartMs s.freeCtr) 2000, freeCtr := s.freeCtr + 1 }
    .next (s.failAll.raiseRec { code := 0x0720, sev := 3, unit := mgmtUnit, payload := BitVec.ofNat 64 k } true)

/-! The management check-value units (R517 to R520) -/

/-- A unit's configuration. -/
def CvUnit.conf (c : CvUnit) : CvConf := cvConf c.ctrl.toNat c.poly.toNat c.init.toNat c.xorout.toNat c.fold.toNat

/-- Bytes fed to a unit: START initialises it first and reads 0 again; a reserved configuration feeds nothing (R520). -/
def CvUnit.feed (c : CvUnit) (l : List Byte) : CvUnit :=
  let k := c.conf
  let start := bit c.ctrl.toNat 31
  if k.bad then { c with ctrl := c.ctrl &&& 0x7FFFFFFF, r := 0 }
  else
    let r0 := if start then cvStart k else c.r.toNat
    { c with ctrl := c.ctrl &&& 0x7FFFFFFF, r := BitVec.ofNat 64 (cvFeed k r0 l) }

/-- What CV_VALUE of a unit holds (R519); 0 with a reserved configuration. -/
def CvUnit.value (c : CvUnit) : Nat := if c.conf.bad then 0 else cvValue c.conf c.r.toNat

/-- A management unit changed: there are two. -/
def State.modCv (s : State) (u : Nat) (f : CvUnit → CvUnit) : State :=
  match u with
  | 0 => { s with cv0 := f s.cv0 }
  | 1 => { s with cv1 := f s.cv1 }
  | _ => s

/-- CV_DATA8 (R518). -/
def execCvData8 (u : Nat) (v : Byte) (s : State) : Res := .next (s.modCv u fun c => c.feed [v])

/-- CV_DATA16 (R518). -/
def execCvData16 (u : Nat) (v : BitVec 16) (s : State) : Res := .next (s.modCv u fun c => c.feed (leBytes 2 v.toNat))

/-- CV_DATA32 (R518). -/
def execCvData32 (u : Nat) (v : Word) (s : State) : Res := .next (s.modCv u fun c => c.feed (leBytes 4 v.toNat))

/-- CV_VALUE written (R519): the register from which the value would come. -/
def execCvValue (u : Nat) (v : DWord) (s : State) : Res :=
  .next (s.modCv u fun c => if c.conf.bad then c else { c with r := BitVec.ofNat 64 (cvSet c.conf v.toNat) })

end Sys2Proof.Machine
end

