-- ==== Sys2Proof/Machine/Dispatch.lean ====
section
/-!
DEFINITION. What each command does: one arm per constructor, one call of its meaning.
-/

namespace Sys2Proof.Machine

/-- The effect of one command on everything but the queue of waiting commands. -/
def exec (i : Instr) (s : State) : Host.Outcome State Fault Refusal :=
  match i with
  -- control slot (R119)
  | .nop t rsv => Sys2Proof.Machine.execNop t rsv s
  | .salu t rd ra rb fn => Sys2Proof.Machine.execSalu t rd ra rb fn s
  | .saddi t rd ra imm => Sys2Proof.Machine.execSaddi t rd ra imm s
  | .sli t rd imm => Sys2Proof.Machine.execSli t rd imm s
  | .slic t rd imm => Sys2Proof.Machine.execSlic t rd imm s
  | .sld t rd ra imm => Sys2Proof.Machine.execSld t rd ra imm s
  | .sst t rs ra imm => Sys2Proof.Machine.execSst t rs ra imm s
  | .scmp t pd ra rb cond rsv => Sys2Proof.Machine.execScmp t pd ra rb cond rsv s
  | .scmpi t pd ra cond imm => Sys2Proof.Machine.execScmpi t pd ra cond imm s
  | .plog t pd pa pb fn rsv => Sys2Proof.Machine.execPlog t pd pa pb fn rsv s
  | .scsr t rd index rsv => Sys2Proof.Machine.execScsr t rd index rsv s
  | .br t inv p target rsv => Sys2Proof.Machine.execBr t inv p target rsv s
  | .loop t sc endB rsv => Sys2Proof.Machine.execLoop t sc endB rsv s
  | .loopi t count endB => Sys2Proof.Machine.execLoopi t count endB s
  | .bellRing t port rsv => Sys2Proof.Machine.execBellRing t port rsv s
  | .bellWait t port rsv => Sys2Proof.Machine.execBellWait t port rsv s
  | .hintLight t rsv => Sys2Proof.Machine.execHintLight t rsv s
  | .hintHeavy t rsv => Sys2Proof.Machine.execHintHeavy t rsv s
  | .specConfirm t sa sb rsv => Sys2Proof.Machine.execSpecConfirm t sa sb rsv s
  | .specDiscard t sa rsv => Sys2Proof.Machine.execSpecDiscard t sa rsv s
  | .specConfirmVerdict t sa sb rsv => Sys2Proof.Machine.execSpecConfirmVerdict t sa sb rsv s
  | .specDiscardVerdict t sa rsv => Sys2Proof.Machine.execSpecDiscardVerdict t sa rsv s
  | .deferralNotice t sa rsv => Sys2Proof.Machine.execDeferralNotice t sa rsv s
  | .end_ t rsv => Sys2Proof.Machine.execEnd t rsv s
  -- array slot (R127)
  | .arrNop t rsv => Sys2Proof.Machine.execArrNop t rsv s
  | .arrRun t mode aonly keep wbuf sW sK sA rsv => Sys2Proof.Machine.execArrRun t mode aonly keep wbuf sW sK sA rsv s
  | .arrWin t array buffer row vA sS rsv => Sys2Proof.Machine.execArrWin t array buffer row vA sS rsv s
  | .arrRd t array imm sI vD rsv => Sys2Proof.Machine.execArrRd t array imm sI vD rsv s
  | .arrWr t array imm sI vS rsv => Sys2Proof.Machine.execArrWr t array imm sI vS rsv s
  -- vector slot (R131)
  | .vnop t rsv => Sys2Proof.Machine.execVnop t rsv s
  | .vadd t vD vA vB rsv => Sys2Proof.Machine.execVadd t vD vA vB rsv s
  | .vsub t vD vA vB rsv => Sys2Proof.Machine.execVsub t vD vA vB rsv s
  | .vmul t vD vA vB rsv => Sys2Proof.Machine.execVmul t vD vA vB rsv s
  | .vfma t vD vA vB vC rsv => Sys2Proof.Machine.execVfma t vD vA vB vC rsv s
  | .vmax t vD vA vB rsv => Sys2Proof.Machine.execVmax t vD vA vB rsv s
  | .vmin t vD vA vB rsv => Sys2Proof.Machine.execVmin t vD vA vB rsv s
  | .vabs t vD vA rsv => Sys2Proof.Machine.execVabs t vD vA rsv s
  | .vneg t vD vA rsv => Sys2Proof.Machine.execVneg t vD vA rsv s
  | .vmov t vD vA rsv => Sys2Proof.Machine.execVmov t vD vA rsv s
  | .vbcast t vD sA rsv => Sys2Proof.Machine.execVbcast t vD sA rsv s
  | .vcmp t vD vA vB cond rsv => Sys2Proof.Machine.execVcmp t vD vA vB cond rsv s
  | .vsel t vD vA vB vC rsv => Sys2Proof.Machine.execVsel t vD vA vB vC rsv s
  | .vredsum t vD vA rsv => Sys2Proof.Machine.execVredsum t vD vA rsv s
  | .vredmax t vD vA rsv => Sys2Proof.Machine.execVredmax t vD vA rsv s
  | .vcvt t vD vA vB code sat rsv => Sys2Proof.Machine.execVcvt t vD vA vB code sat rsv s
  | .vmxq t vD vA fmt sD rsv => Sys2Proof.Machine.execVmxq t vD vA fmt sD rsv s
  | .vld t vD sA imm => Sys2Proof.Machine.execVld t vD sA imm s
  | .vst t vS sA imm => Sys2Proof.Machine.execVst t vS sA imm s
  | .vsfu t vD vA fn rsv => Sys2Proof.Machine.execVsfu t vD vA fn rsv s
  | .vrng t vD vA vB rsv => Sys2Proof.Machine.execVrng t vD vA vB rsv s
  | .viadd t vD vA vB rsv => Sys2Proof.Machine.execViadd t vD vA vB rsv s
  | .vand t vD vA vB rsv => Sys2Proof.Machine.execVand t vD vA vB rsv s
  | .vshr t vD vA vB rsv => Sys2Proof.Machine.execVshr t vD vA vB rsv s
  | .vext t sD vA lane rsv => Sys2Proof.Machine.execVext t sD vA lane rsv s
  | .vins t vD sA lane rsv => Sys2Proof.Machine.execVins t vD sA lane rsv s
  -- mover slot (R134)
  | .mvNop t rsv => Sys2Proof.Machine.execMvNop t rsv s
  | .mvIssue t tag sD rsv => Sys2Proof.Machine.execMvIssue t tag sD rsv s
  | .mvWait t mask rsv => Sys2Proof.Machine.execMvWait t mask rsv s
  | .mvTest t pd tag rsv => Sys2Proof.Machine.execMvTest t pd tag rsv s
  -- queue slot (R136)
  | .qNop t rsv => Sys2Proof.Machine.execQNop t rsv s
  | .qSend t route queue len sS sT rsv => Sys2Proof.Machine.execQSend t route queue len sS sT rsv s
  | .qSendv t route queue len vS group sT => Sys2Proof.Machine.execQSendv t route queue len vS group sT s
  | .qRecv t queue len sD rsv => Sys2Proof.Machine.execQRecv t queue len sD rsv s
  | .qRecvv t queue len vD group rsv => Sys2Proof.Machine.execQRecvv t queue len vD group rsv s
  | .qTest t pd queue rsv => Sys2Proof.Machine.execQTest t pd queue rsv s
  -- tile events
  | .waitRelease t => Sys2Proof.Machine.execWaitRelease t s
  | .queueStall t => Sys2Proof.Machine.execQueueStall t s
  | .waitStall t => Sys2Proof.Machine.execWaitStall t s
  | .noEnd t => Sys2Proof.Machine.execNoEnd t s
  | .pendingRunStart t => Sys2Proof.Machine.execPendingRunStart t s
  | .arrayBlockDone t => Sys2Proof.Machine.execArrayBlockDone t s
  | .cadenceApply cluster => Sys2Proof.Machine.execCadenceApply cluster s
  | .scrubSlot t bank => Sys2Proof.Machine.execScrubSlot t bank s
  -- bells (R199 to R204)
  | .bellRingArrive t port => Sys2Proof.Machine.execBellRingArrive t port s
  | .bellChannelEvaluate cluster chan => Sys2Proof.Machine.execBellChannelEvaluate cluster chan s
  | .bellFireArrive t port => Sys2Proof.Machine.execBellFireArrive t port s
  | .tideCompleteRing t => Sys2Proof.Machine.execTideCompleteRing t s
  | .partitionTideComplete p => Sys2Proof.Machine.execPartitionTideComplete p s
  | .faultBell p => Sys2Proof.Machine.execFaultBell p s
  -- neighbour links and queues (R169 to R174)
  | .linkTransferArrive t dir flips => Sys2Proof.Machine.execLinkTransferArrive t dir flips s
  | .heldEntryEnter t dir => Sys2Proof.Machine.execHeldEntryEnter t dir s
  | .creditReturn t dir queue => Sys2Proof.Machine.execCreditReturn t dir queue s
  | .holdSignalArrive t dir => Sys2Proof.Machine.execHoldSignalArrive t dir s
  | .releaseSignalArrive t dir => Sys2Proof.Machine.execReleaseSignalArrive t dir s
  | .absorbSignalArrive t dir => Sys2Proof.Machine.execAbsorbSignalArrive t dir s
  | .egressDepart t => Sys2Proof.Machine.execEgressDepart t s
  | .meshEntryArrive t => Sys2Proof.Machine.execMeshEntryArrive t s
  | .parkedEntryEnter t queue => Sys2Proof.Machine.execParkedEntryEnter t queue s
  | .remoteAccessArrive t => Sys2Proof.Machine.execRemoteAccessArrive t s
  -- the mover (R248, R249)
  | .moverRequest t tag => Sys2Proof.Machine.execMoverRequest t tag s
  | .moverResponse t tag => Sys2Proof.Machine.execMoverResponse t tag s
  | .moverComplete t tag => Sys2Proof.Machine.execMoverComplete t tag s
  | .waitingAccessResume page => Sys2Proof.Machine.execWaitingAccessResume page s
  -- mesh and memory ports
  | .routerFlitPass rx ry out flips => Sys2Proof.Machine.execRouterFlitPass rx ry out flips s
  | .edgeChannelPass stripe east => Sys2Proof.Machine.execEdgeChannelPass stripe east s
  | .memportRequestArrive port => Sys2Proof.Machine.execMemportRequestArrive port s
  | .memportService port err => Sys2Proof.Machine.execMemportService port err s
  | .patrolScrub port offset err => Sys2Proof.Machine.execPatrolScrub port offset err s
  | .hbmTempReport port temp => Sys2Proof.Machine.execHbmTempReport port temp s
  | .hbmTripRecovery port temp markOk => Sys2Proof.Machine.execHbmTripRecovery port temp markOk s
  -- tides (R212 to R224)
  | .tideStart p => Sys2Proof.Machine.execTideStart p s
  | .tideCommit p => Sys2Proof.Machine.execTideCommit p s
  | .abandon p => Sys2Proof.Machine.execAbandon p s
  | .abandonSettled p => Sys2Proof.Machine.execAbandonSettled p s
  | .recovery p => Sys2Proof.Machine.execRecovery p s
  | .recoveryComplete p => Sys2Proof.Machine.execRecoveryComplete p s
  | .stopPoint p => Sys2Proof.Machine.execStopPoint p s
  -- tiering (R264 to R275)
  | .pageMoveStart page => Sys2Proof.Machine.execPageMoveStart page s
  | .pageMoveSwitch page => Sys2Proof.Machine.execPageMoveSwitch page s
  | .tieringScriptRun p => Sys2Proof.Machine.execTieringScriptRun p s
  | .cxlUioComplete frame poison => Sys2Proof.Machine.execCxlUioComplete frame poison s
  | .cxlUioTimeout frame windowLost => Sys2Proof.Machine.execCxlUioTimeout frame windowLost s
  | .parkComplete slot => Sys2Proof.Machine.execParkComplete slot s
  -- streams (R277 to R312)
  | .streamDoorbell slot producer lowHalf => Sys2Proof.Machine.execStreamDoorbell slot producer lowHalf s
  | .ringSnoop slot => Sys2Proof.Machine.execRingSnoop slot s
  | .ringHeadRead slot producer => Sys2Proof.Machine.execRingHeadRead slot producer s
  | .submissionEntry slot entry => Sys2Proof.Machine.execSubmissionEntry slot entry s
  | .promptRefRead slot ok tokens => Sys2Proof.Machine.execPromptRefRead slot ok tokens s
  | .admissionRun p => Sys2Proof.Machine.execAdmissionRun p s
  | .streamVerdictArrive p => Sys2Proof.Machine.execStreamVerdictArrive p s
  | .resultsRead p => Sys2Proof.Machine.execResultsRead p s
  | .completionWrite p => Sys2Proof.Machine.execCompletionWrite p s
  | .drainComplete slot => Sys2Proof.Machine.execDrainComplete slot s
  | .streamCommandApply p => Sys2Proof.Machine.execStreamCommandApply p s
  | .pageCommandApply p => Sys2Proof.Machine.execPageCommandApply p s
  | .pageBindTimeout n => Sys2Proof.Machine.execPageBindTimeout n s
  -- Hikolink (R313 to R353)
  | .hikolinkFlitReceive port f fecBad fecCorrected => Sys2Proof.Machine.execHikolinkFlitReceive port f fecBad fecCorrected s
  | .lossOfSignal port => Sys2Proof.Machine.execLossOfSignal port s
  | .slotSend port => Sys2Proof.Machine.execSlotSend port s
  | .endpointPoll chan => Sys2Proof.Machine.execEndpointPoll chan s
  | .receiveBlockComplete chan => Sys2Proof.Machine.execReceiveBlockComplete chan s
  | .drumbeat tide start step replay stop => Sys2Proof.Machine.execDrumbeat tide start step replay stop s
  | .confirm tide instant abandonOutcome cause => Sys2Proof.Machine.execConfirm tide instant abandonOutcome cause s
  | .action tide act kind cause => Sys2Proof.Machine.execAction tide act kind cause s
  | .member rank st => Sys2Proof.Machine.execMember rank st s
  | .done child tide count stepReq => Sys2Proof.Machine.execDone child tide count stepReq s
  | .fault child tide kind cause => Sys2Proof.Machine.execFault child tide kind cause s
  | .settled child tide count kind cause => Sys2Proof.Machine.execSettled child tide count kind cause s
  | .recovered child tide count => Sys2Proof.Machine.execRecovered child tide count s
  | .doneSend => Sys2Proof.Machine.execDoneSend s
  | .confirmSend => Sys2Proof.Machine.execConfirmSend s
  | .treeTimeout => Sys2Proof.Machine.execTreeTimeout s
  | .clockLockLoss => Sys2Proof.Machine.execClockLockLoss s
  | .collectiveScriptRun p plan => Sys2Proof.Machine.execCollectiveScriptRun p plan s
  | .collectiveReduce p plan ports => Sys2Proof.Machine.execCollectiveReduce p plan ports s
  | .identityBeacon port b => Sys2Proof.Machine.execIdentityBeacon port b s
  | .jobFormStepTimeout stop => Sys2Proof.Machine.execJobFormStepTimeout stop s
  | .formationComplete rootClock epochsAgree links => Sys2Proof.Machine.execFormationComplete rootClock epochsAgree links s
  | .portShutdownDone port => Sys2Proof.Machine.execPortShutdownDone port s
  | .referenceLoss => Sys2Proof.Machine.execReferenceLoss s
  -- host link (R354 to R384)
  | .perstAssert => Sys2Proof.Machine.execPerstAssert s
  | .perstDeassert width rate flit256 => Sys2Proof.Machine.execPerstDeassert width rate flit256 s
  | .hotReset => Sys2Proof.Machine.execHotReset s
  | .functionLevelReset => Sys2Proof.Machine.execFunctionLevelReset s
  | .hostLinkLoss => Sys2Proof.Machine.execHostLinkLoss s
  | .busMasterDisable => Sys2Proof.Machine.execBusMasterDisable s
  | .d3hotEntry => Sys2Proof.Machine.execD3hotEntry s
  | .busMasterEnable => Sys2Proof.Machine.execBusMasterEnable s
  | .linkRetrain width rate => Sys2Proof.Machine.execLinkRetrain width rate s
  | .ideIntegrityFailure => Sys2Proof.Machine.execIdeIntegrityFailure s
  | .ideKmKeyProgram => Sys2Proof.Machine.execIdeKmKeyProgram s
  | .cacheEnableChange enable => Sys2Proof.Machine.execCacheEnableChange enable s
  | .msixUnmask vector => Sys2Proof.Machine.execMsixUnmask vector s
  | .eventCoalesceTimer vector => Sys2Proof.Machine.execEventCoalesceTimer vector s
  -- bring-up and resets (R417 to R430)
  | .powerCheck => Sys2Proof.Machine.execPowerCheck s
  | .fuseApply => Sys2Proof.Machine.execFuseApply s
  | .clockRoot pllLocked gensLocked => Sys2Proof.Machine.execClockRoot pllLocked gensLocked s
  | .baseUp sramOk regsOk => Sys2Proof.Machine.execBaseUp sramOk regsOk s
  | .mgmtBoot flashOk runningOk otherOk => Sys2Proof.Machine.execMgmtBoot flashOk runningOk otherOk s
  | .hbmTrain failed => Sys2Proof.Machine.execHbmTrain failed s
  | .memTest rows => Sys2Proof.Machine.execMemTest rows s
  | .clustersUp failed => Sys2Proof.Machine.execClustersUp failed s
  | .tileBist failed => Sys2Proof.Machine.execTileBist failed s
  | .meshCal cause => Sys2Proof.Machine.execMeshCal cause s
  | .bootFabricTrain failed => Sys2Proof.Machine.execBootFabricTrain failed s
  | .ready => Sys2Proof.Machine.execReady s
  | .bootStepComplete => Sys2Proof.Machine.execBootStepComplete s
  | .bootStepTimeout => Sys2Proof.Machine.execBootStepTimeout s
  | .bootReset value => Sys2Proof.Machine.execBootReset value s
  | .deviceResetBegin => Sys2Proof.Machine.execDeviceResetBegin s
  | .unitResetDone scope index => Sys2Proof.Machine.execUnitResetDone scope index s
  -- registers and the debug window
  | .evrCtrl value => Sys2Proof.Machine.execEvrCtrl value s
  | .tlrCtrl value => Sys2Proof.Machine.execTlrCtrl value s
  | .mbxDoorbell n value bothBytes => Sys2Proof.Machine.execMbxDoorbell n value bothBytes s
  | .dbgTile value => Sys2Proof.Machine.execDbgTile value s
  | .snap value => Sys2Proof.Machine.execSnap value s
  | .debugWindowRead offset => Sys2Proof.Machine.execDebugWindowRead offset s
  | .debugWindowWrite offset value => Sys2Proof.Machine.execDebugWindowWrite offset value s
  | .timeLoRead => Sys2Proof.Machine.execTimeLoRead s
  | .registerWrite offset value size => Sys2Proof.Machine.execRegisterWrite offset value size s
  -- mailbox commands (R396)
  | .identify n => Sys2Proof.Machine.execIdentify n s
  | .logRead n => Sys2Proof.Machine.execLogRead n s
  | .heartbeatSet n => Sys2Proof.Machine.execHeartbeatSet n s
  | .partitionCreate n => Sys2Proof.Machine.execPartitionCreate n s
  | .partitionDestroy n => Sys2Proof.Machine.execPartitionDestroy n s
  | .partitionSet n => Sys2Proof.Machine.execPartitionSet n s
  | .partitionQuery n => Sys2Proof.Machine.execPartitionQuery n s
  | .imageStage n chunk => Sys2Proof.Machine.execImageStage n chunk s
  | .imageVerify n => Sys2Proof.Machine.execImageVerify n s
  | .programLoad n => Sys2Proof.Machine.execProgramLoad n s
  | .weightLoad n => Sys2Proof.Machine.execWeightLoad n s
  | .packInstall n => Sys2Proof.Machine.execPackInstall n s
  | .stageDiscard n => Sys2Proof.Machine.execStageDiscard n s
  | .streamOpen n => Sys2Proof.Machine.execStreamOpen n s
  | .streamClose n => Sys2Proof.Machine.execStreamClose n s
  | .streamPark n => Sys2Proof.Machine.execStreamPark n s
  | .streamResume n buf => Sys2Proof.Machine.execStreamResume n buf s
  | .streamQuery n => Sys2Proof.Machine.execStreamQuery n s
  | .tierWindows n => Sys2Proof.Machine.execTierWindows n s
  | .pageBind n => Sys2Proof.Machine.execPageBind n s
  | .pageFree n => Sys2Proof.Machine.execPageFree n s
  | .pageMapRead n => Sys2Proof.Machine.execPageMapRead n s
  | .runStart n => Sys2Proof.Machine.execRunStart n s
  | .runStop n => Sys2Proof.Machine.execRunStop n s
  | .runSingle n => Sys2Proof.Machine.execRunSingle n s
  | .runStartTimeout n => Sys2Proof.Machine.execRunStartTimeout n s
  | .powerCapSet n => Sys2Proof.Machine.execPowerCapSet n s
  | .freqStepSet n => Sys2Proof.Machine.execFreqStepSet n s
  | .powerQuery n => Sys2Proof.Machine.execPowerQuery n s
  | .telemetryConfig n => Sys2Proof.Machine.execTelemetryConfig n s
  | .countersRead n => Sys2Proof.Machine.execCountersRead n s
  | .canaryConfig n => Sys2Proof.Machine.execCanaryConfig n s
  | .tileObserve n => Sys2Proof.Machine.execTileObserve n s
  | .tileRepair n => Sys2Proof.Machine.execTileRepair n s
  | .scanRun n failing => Sys2Proof.Machine.execScanRun n failing s
  | .blackboxRead n => Sys2Proof.Machine.execBlackboxRead n s
  | .fabricTrain n trained => Sys2Proof.Machine.execFabricTrain n trained s
  | .jobForm n => Sys2Proof.Machine.execJobForm n s
  | .jobLeave n => Sys2Proof.Machine.execJobLeave n s
  | .jobJoin n => Sys2Proof.Machine.execJobJoin n s
  | .jobQuery n => Sys2Proof.Machine.execJobQuery n s
  | .fwActivate n => Sys2Proof.Machine.execFwActivate n s
  | .fwConfirm n => Sys2Proof.Machine.execFwConfirm n s
  | .fwRollback n => Sys2Proof.Machine.execFwRollback n s
  | .ownerSet n record => Sys2Proof.Machine.execOwnerSet n record s
  | .licenceInstall n => Sys2Proof.Machine.execLicenceInstall n s
  | .debugChallenge n => Sys2Proof.Machine.execDebugChallenge n s
  | .debugUnlock n => Sys2Proof.Machine.execDebugUnlock n s
  | .nonceExpire => Sys2Proof.Machine.execNonceExpire s
  | .queuePeek n => Sys2Proof.Machine.execQueuePeek n s
  | .prepareRemove n => Sys2Proof.Machine.execPrepareRemove n s
  -- out-of-band management and power-off (R415, R416)
  | .pldmBase => Sys2Proof.Machine.execPldmBase s
  | .pldmPlatform sensor => Sys2Proof.Machine.execPldmPlatform sensor s
  | .pldmFru => Sys2Proof.Machine.execPldmFru s
  | .pldmFileTransfer source => Sys2Proof.Machine.execPldmFileTransfer source s
  | .emergencyPowerOff => Sys2Proof.Machine.execEmergencyPowerOff s
  | .blackboxCopyDone => Sys2Proof.Machine.execBlackboxCopyDone s
  -- attestation (R511, R512)
  | .getVersion => Sys2Proof.Machine.execGetVersion s
  | .getCapabilities => Sys2Proof.Machine.execGetCapabilities s
  | .negotiateAlgorithms supported => Sys2Proof.Machine.execNegotiateAlgorithms supported s
  | .getDigests => Sys2Proof.Machine.execGetDigests s
  | .getCertificate slot => Sys2Proof.Machine.execGetCertificate slot s
  | .challenge slot => Sys2Proof.Machine.execChallenge slot s
  | .getMeasurements index => Sys2Proof.Machine.execGetMeasurements index s
  | .keyExchange req => Sys2Proof.Machine.execKeyExchange req s
  | .finish req => Sys2Proof.Machine.execFinish req s
  | .keyUpdate req => Sys2Proof.Machine.execKeyUpdate req s
  | .heartbeat req => Sys2Proof.Machine.execHeartbeat req s
  | .endSession req => Sys2Proof.Machine.execEndSession req s
  -- module power and pins (R524 to R534)
  | .pwrEnRise => Sys2Proof.Machine.execPwrEnRise s
  | .pwrgdRelease => Sys2Proof.Machine.execPwrgdRelease s
  | .pwrEnFall => Sys2Proof.Machine.execPwrEnFall s
  | .mateOkRelease => Sys2Proof.Machine.execMateOkRelease s
  | .inputSwitchOpen => Sys2Proof.Machine.execInputSwitchOpen s
  | .vinUndervoltage mv => Sys2Proof.Machine.execVinUndervoltage mv s
  | .vinBrownout mv => Sys2Proof.Machine.execVinBrownout mv s
  | .vinOvervoltage mv => Sys2Proof.Machine.execVinOvervoltage mv s
  | .switchReclose mv => Sys2Proof.Machine.execSwitchReclose mv s
  | .overcurrentLatch ma overUs => Sys2Proof.Machine.execOvercurrentLatch ma overUs s
  | .switchOvertemp temp => Sys2Proof.Machine.execSwitchOvertemp temp s
  -- heat, clocks and power (R439 to R467)
  | .clusterTempSample cluster temps => Sys2Proof.Machine.execClusterTempSample cluster temps s
  | .thermalRecovery cluster temp => Sys2Proof.Machine.execThermalRecovery cluster temp s
  | .marginReport cluster monitor mv => Sys2Proof.Machine.execMarginReport cluster monitor mv s
  | .powerCapEval input => Sys2Proof.Machine.execPowerCapEval input s
  | .phaseStaging => Sys2Proof.Machine.execPhaseStaging s
  | .phaseLoss phase => Sys2Proof.Machine.execPhaseLoss phase s
  | .pllLockLoss index standby => Sys2Proof.Machine.execPllLockLoss index standby s
  | .regulatorSettled => Sys2Proof.Machine.execRegulatorSettled s
  | .clockSwitch => Sys2Proof.Machine.execClockSwitch s
  | .clusterPowerUpDone cluster => Sys2Proof.Machine.execClusterPowerUpDone cluster s
  | .telemetryPeriod currents => Sys2Proof.Machine.execTelemetryPeriod currents s
  | .heartbeatRegisterTick => Sys2Proof.Machine.execHeartbeatRegisterTick s
  | .heartbeatInterval => Sys2Proof.Machine.execHeartbeatInterval s
  | .watchdogExpire => Sys2Proof.Machine.execWatchdogExpire s
  -- canaries (R477 to R483)
  | .canaryRun t => Sys2Proof.Machine.execCanaryRun t s
  | .canaryCompare t => Sys2Proof.Machine.execCanaryCompare t s
  -- management check-value units (R518, R519)
  | .cvData8 u v => Sys2Proof.Machine.execCvData8 u v s
  | .cvData16 u v => Sys2Proof.Machine.execCvData16 u v s
  | .cvData32 u v => Sys2Proof.Machine.execCvData32 u v s
  | .cvValue u v => Sys2Proof.Machine.execCvValue u v s
  -- the last rows of the table
  | .clusterPowerDownDone cluster => Sys2Proof.Machine.execClusterPowerDownDone cluster s
  | .mateOkFall => Sys2Proof.Machine.execMateOkFall s
  | .heldPwrEnPowerUp => Sys2Proof.Machine.execHeldPwrEnPowerUp s
  | .d3hotExit => Sys2Proof.Machine.execD3hotExit s
  | .doeDiscovery index => Sys2Proof.Machine.execDoeDiscovery index s

end Sys2Proof.Machine
end

