-- ==== Sys2Proof/Safety.lean ====
section
/-!
DEFINITION. What a safe run is: every step answers a next state, the byte memories keep their canonical form, the fuses
stay as they are and the firmware floor never falls.
-/

namespace Sys2Proof.Machine

/-- The memories outside the tiles are canonical. -/
def State.memoriesWf (s : State) : Bool := Memory.wf s.hbm && Memory.wf s.cxl

/-- Every tile's scratchpad is canonical. -/
def State.scratchpadsWf (s : State) : Bool := s.tiles.all fun t => Memory.wf t.2.mem

/-- A step answers a next state: the module reports its faults as events and goes on. -/
def stepsOn (s : State) : Prop := ∃ s', step s = .next s'

/-- What no step may change: the fuses (R434), and the firmware floor may only rise (R505). -/
def keepsRoots (s s' : State) : Prop := s'.fuses = s.fuses ∧ s.flash.fwFloor ≤ s'.flash.fwFloor

/-- No command and no Cache_Enable change waits for a run to end. -/
def State.nothingHeld (s : State) : Prop :=
  (∀ p, (s.part p).enableHeld = none) ∧ s.job.leaveMbx = none ∧ s.link.cacheLag = []

/-- The command of mailbox page `n` has not acted: the page runs `opcode`, its block has `len` bytes and it has no data
buffer (R388, R389). -/
def State.asks (s : State) (n opcode len : Nat) : Prop :=
  (s.mb n).running = some opcode ∧ (s.mb n).done = false ∧ (s.mb n).length = len ∧ (s.mb n).sglCount = 0

/-- As `asks`, with a data buffer of one scatter list entry of `size` bytes that keeps the rules of R389. -/
def State.asksBuffer (s : State) (n opcode len size : Nat) : Prop :=
  (s.mb n).running = some opcode ∧ (s.mb n).done = false ∧ (s.mb n).length = len ∧ (s.mb n).sglCount = 1 ∧
    (s.mb n).sglLen 0 = size ∧ (s.mb n).sglFaults.all (fun f => !f.2) = true

/-- The command of page `n` has acted and waits for what it began: it is not done and runs nothing (R394). -/
def State.waits (s' : State) (n : Nat) : Prop := (s'.mb n).done = false ∧ (s'.mb n).running = none

/-- Every partition that exists is EMPTY or LOADED. -/
def State.allIdle (s : State) : Prop := ∀ q ∈ s.parts, q.2.st = .none ∨ q.2.idle = true

/-- The command of page `n` has completed with `status` and the inline response `resp` (R391). -/
def State.answered (s s' : State) (n status : Nat) (resp : List Byte) : Prop :=
  (s'.mb n).done = true ∧ (s'.mb n).running = none ∧ (s'.mb n).status = status ∧ (s'.mb n).doneSeq = (s.mb n).seq ∧
    (s'.mb n).payload = memPut (s.mb n).payload 0 resp ∧ s'.cmdsDone = s.cmdsDone + 1

end Sys2Proof.Machine
end

