-- ==== Sys2Proof/Certificates/Slice0/Obligations.lean ====
section
/-!
DEFINITION. The statements for the provers. Each is a Prop; a docstring names the rules of spec/ its clauses follow.
Hypotheses are on the state and the operands alone.
-/

open Sys2Proof Sys2Proof.Machine


/-- A step runs the command in front of the queue on the state with the queue's rest; with an empty queue one tile cycle passes
(DESIGN CHOICE, log entry 1), and no step stops. -/
def Obligations.StepRunsFrontCommand : Prop :=
  (∀ (s : State) (c : Instr) (l : List Instr), s.pending = c :: l → step s = exec c { s with pending := l }) ∧
  (∀ s : State, s.pending = [] → step s = .next s.tick) ∧
  (∀ s : State, stepsOn s)

/-- R9, R384, R388, R417, R505. What reset leaves: bring-up IDLE with REACHED 0 and no error; PERST# asserted and no bus
mastering; no job; no partition, stream or page; every mailbox page DONE with status 0, OFFSET 0xFFFF and no ignored writes;
the firmware floor 0; nothing written to HBM, CXL memory or a scratchpad; the queue empty; the memories canonical. Where the
spec states no reset value, these are the model's (log entries 25, 26 and 28). The model's own choice of log entry 2 stands
in it. -/
def Obligations.ResetLeaves : Prop :=
  State.reset.boot.state = 0 ∧ State.reset.boot.reached = 0 ∧ State.reset.boot.error = 0 ∧
  State.reset.link.busMaster = false ∧ State.reset.job.formed = false ∧
  State.reset.parts = [] ∧ State.reset.streams = [] ∧ State.reset.pages = [] ∧
  (∀ n : Nat, (State.reset.mb n).done = true ∧ (State.reset.mb n).status = 0 ∧ (State.reset.mb n).offset = 0xFFFF ∧
    (State.reset.mb n).ignored = 0 ∧ (State.reset.mb n).running = none) ∧
  (∀ c : Nat, (State.reset.cluster c).power = false ∧ (State.reset.cluster c).cadence = 8) ∧
  State.reset.flash.fwFloor = 0 ∧ State.reset.pending = [] ∧ State.reset.eventCount = 0 ∧
  (∀ a : Nat, memGet State.reset.hbm a = 0 ∧ memGet State.reset.cxl a = 0) ∧
  State.reset.memoriesWf = true ∧ State.reset.scratchpadsWf = true

/-- R112, R119, R127, R131, R134, R136. Decoding the word of a bundle of five operations of one tile, one of each slot, gives
back the five operations with every operand at every value its field admits. A deferral notice has the word of the verdict
discard (R142), so it is no operation of its own here. -/
def Obligations.BundleRoundTrip : Prop :=
  ∀ (t : TileId) (c a v m q : Instr), slotOf c = some (t, 0) → slotOf a = some (t, 1) → slotOf v = some (t, 2) →
    slotOf m = some (t, 3) → slotOf q = some (t, 4) → (∀ x y, c ≠ .deferralNotice t x y) →
    encBundle c a v m q < 2 ^ 128 ∧ decBundle t (encBundle c a v m q) = [c, a, v, m, q]

/-- R434, R505. The invariant of every step, whatever the state: a step answers a next state in which the fuse map is as it was
and the firmware floor has not fallen, and in which HBM and CXL memory keep their canonical form. -/
def Obligations.EveryStepKeepsTheRoots : Prop :=
  ∀ s s' : State, step s = .next s' →
    keepsRoots s s' ∧ (s.memoriesWf = true → s'.memoriesWf = true)

/-- R120. The functions of SALU (shifts by bits [4:0] of rb, sums and products modulo 2^32, signed and unsigned minimum and
maximum) and the conditions of SCMP and SCMPI; the reserved codes give no value. SCMPI compares with imm sign-extended, and
SLI with one SLIC builds any value that fits in 28 bits (as two's complement), with two any 32-bit value. -/
def Obligations.SaluAndConditionTables : Prop :=
  (∀ a b : Word,
    saluFn 0 a b = some (BitVec.ofNat 32 (a.toNat + b.toNat)) ∧
    saluFn 1 a b = some (BitVec.ofInt 32 ((a.toNat : Int) - b.toNat)) ∧
    saluFn 2 a b = some (a &&& b) ∧ saluFn 3 a b = some (a ||| b) ∧ saluFn 4 a b = some (a ^^^ b) ∧
    saluFn 5 a b = some (BitVec.ofNat 32 (a.toNat * 2 ^ (b.toNat % 32))) ∧
    saluFn 6 a b = some (BitVec.ofNat 32 (a.toNat / 2 ^ (b.toNat % 32))) ∧
    saluFn 7 a b = some (BitVec.ofInt 32 (a.toInt / 2 ^ (b.toNat % 32))) ∧
    saluFn 8 a b = some (BitVec.ofNat 32 (a.toNat * b.toNat)) ∧
    saluFn 9 a b = some (BitVec.ofInt 32 (min a.toInt b.toInt)) ∧
    saluFn 10 a b = some (BitVec.ofInt 32 (max a.toInt b.toInt)) ∧
    saluFn 11 a b = some (BitVec.ofNat 32 (min a.toNat b.toNat)) ∧
    saluFn 12 a b = some (BitVec.ofNat 32 (max a.toNat b.toNat)) ∧
    (∀ n : Nat, 13 ≤ n → saluFn n a b = none) ∧
    condFn 0 a b = some (decide (a = b)) ∧ condFn 1 a b = some (decide (a ≠ b)) ∧
    condFn 2 a b = some (decide (a.toInt < b.toInt)) ∧ condFn 3 a b = some (decide (b.toInt ≤ a.toInt)) ∧
    condFn 4 a b = some (decide (a.toNat < b.toNat)) ∧ condFn 5 a b = some (decide (b.toNat ≤ a.toNat)) ∧
    (∀ n : Nat, 6 ≤ n → condFn n a b = none)) ∧
  (∀ (s : State) (t : TileId), s.canIssue t = true →
    (∀ (rd ra rb : BitVec 5) (fn : BitVec 4) (v : Word),
      saluFn fn.toNat (s.rs t 0 0 ra.toNat) (s.rs t 0 1 rb.toNat) = some v →
      exec (.salu t rd ra rb fn) s
        = .next (s.setTile t ((s.tile t).wS 0 (if fn.toNat = 8 then 3 else 1) rd.toNat v).advance)) ∧
    (∀ (pd : BitVec 3) (ra rb : BitVec 5) (cond : BitVec 3) (b : Bool),
      condFn cond.toNat (s.rs t 0 0 ra.toNat) (s.rs t 0 1 rb.toNat) = some b →
      exec (.scmp t pd ra rb cond 0) s = .next (s.setTile t ((s.tile t).wP 0 1 pd.toNat b).advance)) ∧
    (∀ (pd : BitVec 3) (ra : BitVec 5) (cond : BitVec 3) (imm : BitVec 8) (b : Bool),
      condFn cond.toNat (s.rs t 0 0 ra.toNat) (imm.signExtend 32) = some b →
      exec (.scmpi t pd ra cond imm) s = .next (s.setTile t ((s.tile t).wP 0 1 pd.toNat b).advance)) ∧
    (∀ (rd : BitVec 5) (imm : BitVec 14),
      exec (.sli t rd imm) s = .next (s.setTile t ((s.tile t).wS 0 1 rd.toNat (imm.signExtend 32)).advance) ∧
      exec (.slic t rd imm) s
        = .next (s.setTile t ((s.tile t).wS 0 1 rd.toNat
            ((s.rs t 0 0 rd.toNat <<< 14) ||| imm.zeroExtend 32)).advance))) ∧
  (∀ w : Word, -(2 : Int) ^ 27 ≤ w.toInt → w.toInt < 2 ^ 27 → ∃ i j : BitVec 14,
    ((i.signExtend 32 : Word) <<< 14) ||| j.zeroExtend 32 = w) ∧
  (∀ w : Word, ∃ i j k : BitVec 14,
    ((((i.signExtend 32 : Word) <<< 14) ||| j.zeroExtend 32) <<< 14) ||| k.zeroExtend 32 = w)

/-- R117 to R120, R138. SALU, SADDI, SLI, SLIC and SCSR on a tile that issues, with their unused bits 0: the state after is the
state before with one pending write of the destination register (none for s0), landing at the latency of R138 (3 for MUL,
else 1), and the tile stepped to its next bundle; nothing else of the machine changes. Completing, with the next state of its
own effect under its clause's conditions: SALU, SADDI, SLI, SLIC, SCSR. -/
def Claims.ControlScalarResults : Prop :=
  ∀ (s : State) (t : TileId), s.canIssue t = true →
    (∀ (rd ra rb : BitVec 5) (fn : BitVec 4) (v : Word),
      saluFn fn.toNat (s.rs t 0 0 ra.toNat) (s.rs t 0 1 rb.toNat) = some v →
      exec (.salu t rd ra rb fn) s
        = .next (s.setTile t ((s.tile t).wS 0 (if fn.toNat = 8 then 3 else 1) rd.toNat v).advance)) ∧
    (∀ (rd ra : BitVec 5) (imm : BitVec 9),
      exec (.saddi t rd ra imm) s
        = .next (s.setTile t ((s.tile t).wS 0 1 rd.toNat (s.rs t 0 0 ra.toNat + imm.signExtend 32)).advance)) ∧
    (∀ (rd : BitVec 5) (imm : BitVec 14),
      exec (.sli t rd imm) s = .next (s.setTile t ((s.tile t).wS 0 1 rd.toNat (imm.signExtend 32)).advance)) ∧
    (∀ (rd : BitVec 5) (imm : BitVec 14),
      exec (.slic t rd imm) s
        = .next (s.setTile t ((s.tile t).wS 0 1 rd.toNat
            ((s.rs t 0 0 rd.toNat <<< 14) ||| imm.zeroExtend 32)).advance)) ∧
    (∀ (rd index : BitVec 5) (p : Nat), s.partOf t = some p → index.toNat < 6 →
      exec (.scsr t rd index 0) s
        = .next (s.setTile t ((s.tile t).wS 0 1 rd.toNat
            ([BitVec.ofNat 32 (t % 280), BitVec.ofNat 32 (t / 280), BitVec.ofNat 32 (s.part p).tide,
              BitVec.ofNat 32 ((s.part p).tide / 2 ^ 32 % 2 ^ 16), BitVec.ofNat 32 p,
              BitVec.ofNat 32 (if s.job.formed then s.job.i + s.job.dimI * (s.job.j + s.job.dimJ * s.job.k) else 0)].getD
                index.toNat 0)).advance))

/-- R119, R120. SCMP, SCMPI and PLOG on a tile that issues, with a condition below 6 and unused bits 0: one pending write of the
predicate (none for p0) at latency 1 with the value of the condition's relation, and a step to the next bundle. Completing,
with the next state of its own effect under its clause's conditions: SCMP, SCMPI, PLOG. -/
def Claims.PredicateResults : Prop :=
  ∀ (s : State) (t : TileId) (pd : BitVec 3), s.canIssue t = true →
    (∀ (ra rb : BitVec 5) (cond : BitVec 3), cond.toNat < 6 →
      exec (.scmp t pd ra rb cond 0) s
        = .next (s.setTile t ((s.tile t).wP 0 1 pd.toNat
            ([decide (s.rs t 0 0 ra.toNat = s.rs t 0 1 rb.toNat), decide (s.rs t 0 0 ra.toNat ≠ s.rs t 0 1 rb.toNat),
              decide ((s.rs t 0 0 ra.toNat).toInt < (s.rs t 0 1 rb.toNat).toInt),
              decide ((s.rs t 0 1 rb.toNat).toInt ≤ (s.rs t 0 0 ra.toNat).toInt),
              decide ((s.rs t 0 0 ra.toNat).toNat < (s.rs t 0 1 rb.toNat).toNat),
              decide ((s.rs t 0 1 rb.toNat).toNat ≤ (s.rs t 0 0 ra.toNat).toNat)].getD cond.toNat false)).advance)) ∧
    (∀ (ra : BitVec 5) (cond : BitVec 3) (imm : BitVec 8), cond.toNat < 6 →
      exec (.scmpi t pd ra cond imm) s
        = .next (s.setTile t ((s.tile t).wP 0 1 pd.toNat
            ((condFn cond.toNat (s.rs t 0 0 ra.toNat) (imm.signExtend 32)).getD false)).advance)) ∧
    (∀ (pa pb : BitVec 3) (fn : BitVec 2),
      exec (.plog t pd pa pb fn 0) s
        = .next (s.setTile t ((s.tile t).wP 0 1 pd.toNat
            ([s.rp t 0 0 pa.toNat && s.rp t 0 1 pb.toNat, s.rp t 0 0 pa.toNat || s.rp t 0 1 pb.toNat,
              s.rp t 0 0 pa.toNat ^^ s.rp t 0 1 pb.toNat, s.rp t 0 0 pa.toNat && !(s.rp t 0 1 pb.toNat)].getD
                fn.toNat false)).advance))

/-- SALU, SADDI, SLI, SLIC, SCSR, SCMP, SCMPI and PLOG: result, latency, step and frame: `Claims.ControlScalarResults` and
`Claims.PredicateResults`. -/
def Obligations.ScalarAndPredicateResults : Prop :=
  Claims.ControlScalarResults ∧ Claims.PredicateResults

/-- R121, R122, R126. Where issue goes after NOP, BR, LOOP and LOOPI. With no loop ending at the bundle, NOP and a branch not
taken go to the next bundle; the innermost loop that ends there goes back to its first bundle while a pass is left. A taken
branch leaves two cycles without issue, ends the loops that do not hold its target, and issues at its target. A loop
operation of count 0 skips its body; else its frame runs from the next bundle to its end. Completing, with the next state of
its own effect under its clause's conditions: NOP, BR, LOOP, LOOPI. -/
def Claims.ControlFlowTargets : Prop :=
  ∀ (s : State) (t : TileId), s.canIssue t = true →
    (((s.tile t).loops = [] ∨ ∃ f r, (s.tile t).loops = f :: r ∧ f.last ≠ (s.tile t).pc) →
      exec (.nop t 0) s = .next (s.setTile t { s.tile t with pc := (s.tile t).pc + 1 })) ∧
    (∀ (f : LoopFrame) (r : List LoopFrame), (s.tile t).loops = f :: r → f.last = (s.tile t).pc → f.left > 1 →
      exec (.nop t 0) s
        = .next (s.setTile t { s.tile t with pc := f.first, loops := { f with left := f.left - 1 } :: r })) ∧
    (∀ f : LoopFrame, (s.tile t).loops = [f] → f.last = (s.tile t).pc → f.left ≤ 1 →
      exec (.nop t 0) s = .next (s.setTile t { s.tile t with pc := (s.tile t).pc + 1, loops := [] })) ∧
    (∀ (inv : BitVec 1) (p : BitVec 3) (target : BitVec 10),
      (s.rp t 0 0 p.toNat ^^ decide (inv.toNat = 1)) = true →
      exec (.br t inv p target 0) s
        = .next (s.setTile t { s.tile t with pc := target.toNat, bubble := 2
                                             loops := (s.tile t).loops.filter fun f =>
                                               f.first ≤ target.toNat ∧ target.toNat ≤ f.last })) ∧
    (∀ (inv : BitVec 1) (p : BitVec 3) (target : BitVec 10),
      (s.rp t 0 0 p.toNat ^^ decide (inv.toNat = 1)) = false → (s.tile t).loops = [] →
      exec (.br t inv p target 0) s = .next (s.setTile t { s.tile t with pc := (s.tile t).pc + 1 })) ∧
    (∀ (sc : BitVec 5) (last : BitVec 10), (s.tile t).pc < last.toNat →
      ((s.tile t).loops = [] ∨ ∃ f r, (s.tile t).loops = f :: r ∧ last.toNat ≤ f.last) → (s.tile t).loops.length < 4 →
      exec (.loop t sc last 0) s
        = .next (s.setTile t (if (s.rs t 0 0 sc.toNat).toNat = 0 then { s.tile t with pc := last.toNat + 1 }
            else { s.tile t with pc := (s.tile t).pc + 1
                                 loops := { first := (s.tile t).pc + 1, last := last.toNat
                                            left := (s.rs t 0 0 sc.toNat).toNat } :: (s.tile t).loops }))) ∧
    (∀ (count : BitVec 9) (last : BitVec 10), (s.tile t).pc < last.toNat →
      ((s.tile t).loops = [] ∨ ∃ f r, (s.tile t).loops = f :: r ∧ last.toNat ≤ f.last) → (s.tile t).loops.length < 4 →
      exec (.loopi t count last) s
        = .next (s.setTile t (if count.toNat = 0 then { s.tile t with pc := last.toNat + 1 }
            else { s.tile t with pc := (s.tile t).pc + 1
                                 loops := { first := (s.tile t).pc + 1, last := last.toNat, left := count.toNat }
                                            :: (s.tile t).loops })))

/-- R122, R125, R174, R227. END with its unused bits 0: the tile stops issuing, counts as ended (it absorbs entries from then
on), ends its loops and, in a mark tide, has the writes of its declared persistent ranges to make; its registers, memory,
queues and partition are unchanged. Completing, with the next state of its own effect under its clause's conditions: END. -/
def Claims.EndStopsTheTile : Prop :=
  ∀ (s : State) (t : TileId), s.canIssue t = true →
    ∃ s', exec (.end_ t 0) s = .next s' ∧ (s'.tile t).issuing = false ∧ (s'.tile t).ended = true ∧
      s'.absorbing t = true ∧ (s'.tile t).loops = [] ∧
      (s'.tile t).markLeft = (if s.markTide t then s.markWrites t else []) ∧
      (s'.tile t).sregs = (s.tile t).sregs ∧ (s'.tile t).preds = (s.tile t).preds ∧
      (s'.tile t).vregs = (s.tile t).vregs ∧ (s'.tile t).mem = (s.tile t).mem ∧ (s'.tile t).pend = (s.tile t).pend ∧
      (s'.tile t).queues = (s.tile t).queues ∧ (s'.tile t).tags = (s.tile t).tags ∧ (s'.tile t).acc = (s.tile t).acc ∧
      s'.parts = s.parts ∧ s'.hbm = s.hbm ∧ s'.pages = s.pages ∧ s'.streams = s.streams

/-- R123, R124. BELL.RING on a bound port sends one ring that names the tile's bundle; BELL.WAIT with a fire counted lowers the
port's count by one, and with none counted, at an issue of its own, is held; HINT.LIGHT and HINT.HEAVY set the tile's load.
Each steps to the next bundle but the held one. Completing, with the next state of its own effect under its clause's
conditions: BELL_RING, BELL_WAIT, HINT_LIGHT, HINT_HEAVY. -/
def Claims.BellAndHintOperations : Prop :=
  ∀ (s : State) (t : TileId), s.canIssue t = true →
    (∀ port : BitVec 2, (s.tile t).bellBound port.toNat = true →
      exec (.bellRing t port 0) s
        = .next (s.setTile t ({ s.tile t with
            ringsFlying := (s.tile t).ringsFlying ++ [(port.toNat, (s.tile t).bundle)] } : Tile).advance)) ∧
    (∀ port : BitVec 2, (s.tile t).bellBound port.toNat = true → tget 0 (s.tile t).fireCnt port.toNat > 0 →
      exec (.bellWait t port 0) s
        = .next (s.setTile t ({ s.tile t with
            fireCnt := tset (s.tile t).fireCnt port.toNat (tget 0 (s.tile t).fireCnt port.toNat - 1) } : Tile).advance)) ∧
    (∀ port : BitVec 2, (s.tile t).bellBound port.toNat = true → tget 0 (s.tile t).fireCnt port.toNat = 0 →
      (s.tile t).cur = none →
      exec (.bellWait t port 0) s
        = .next (s.setTile t { s.tile t with held := [.bellWait t port 0], heldFor := 0 })) ∧
    exec (.hintLight t 0) s = .next (s.setTile t ({ s.tile t with heavy := false } : Tile).advance) ∧
    exec (.hintHeavy t 0) s = .next (s.setTile t ({ s.tile t with heavy := true } : Tile).advance)

/-- NOP, BR, LOOP, LOOPI, END, BELL and HINT: where issue goes and what else changes: `Claims.ControlFlowTargets`,
`Claims.EndStopsTheTile`, `Claims.BellAndHintOperations`. -/
def Obligations.ControlFlow : Prop :=
  Claims.ControlFlowTargets ∧ Claims.EndStopsTheTile ∧ Claims.BellAndHintOperations

/-- R143. SPEC.CONFIRM of kind 0 naming one tag: a LANDED tag becomes IDLE, an ACTIVE shadow descriptor becomes ordinary, an IDLE
tag stays. SPEC.DISCARD of kind 0 naming one tag: nothing for an IDLE tag and an ordinary descriptor; a LANDED tag or an
ACTIVE shadow descriptor becomes IDLE, and every other tag, the registers, predicates and queues of the tile stay as they
are. Both step to the next bundle. Completing, with the next state of its own effect under its clause's conditions:
SPEC_CONFIRM, SPEC_DISCARD. -/
def Claims.SpecKindZeroOnTags : Prop :=
  ∀ (s : State) (t : TileId) (sa : BitVec 5) (n : Nat), s.canIssue t = true → n < 16 →
    (s.rs t 0 0 sa.toNat).toNat = 2 ^ n →
    (exec (.specConfirm t sa 0 0) s
      = .next (s.setTile t ({ s.tile t with
          tags := tset (s.tile t).tags n
            (if ((s.tile t).tag n).st = .landed then {}
             else if ((s.tile t).tag n).st = .active then { (s.tile t).tag n with shadow := false }
             else (s.tile t).tag n) } : Tile).advance)) ∧
    ((((s.tile t).tag n).st = .idle ∨ (((s.tile t).tag n).st = .active ∧ ((s.tile t).tag n).shadow = false)) →
      exec (.specDiscard t sa 0) s = .next (s.setTile t (s.tile t).advance)) ∧
    ((((s.tile t).tag n).st = .landed ∨ (((s.tile t).tag n).st = .active ∧ ((s.tile t).tag n).shadow = true)) →
      ∃ s', exec (.specDiscard t sa 0) s = .next s' ∧ (s'.tile t).tag n = {} ∧
        (∀ m, m ≠ n → (s'.tile t).tag m = (s.tile t).tag m) ∧
        (s'.tile t).sregs = (s.tile t).sregs ∧ (s'.tile t).preds = (s.tile t).preds ∧
        (s'.tile t).vregs = (s.tile t).vregs ∧ (s'.tile t).queues = (s.tile t).queues ∧
        (s'.tile t).pc = (s.tile t).advance.pc ∧ ∀ u, u ≠ t → s'.tile u = s.tile u)

/-- R144, R300. SPEC.CONFIRM and SPEC.DISCARD of kind 1 and the deferral notice send one verdict packet of VC2 with the words sa
and sb (0 for a discard) into the mesh at the tile's router, count it as in flight for END's bell, and step to the next
bundle. `acc` 1 marks a discard. Nothing else of the machine changes. Completing, with the next state of its own effect under
its clause's conditions: SPEC_CONFIRM_VERDICT, SPEC_DISCARD_VERDICT, DEFERRAL_NOTICE. -/
def Claims.VerdictOperations : Prop :=
  ∀ (s : State) (t : TileId), s.canIssue t = true →
    (∀ sa sb : BitVec 5, ∃ p : Packet,
      exec (.specConfirmVerdict t sa sb 0) s
        = .next ((s.setTile t ({ s.tile t with verdictsFlying := (s.tile t).verdictsFlying + 1 } : Tile).advance).inject 4 p) ∧
      p.kind = .verdict ∧ p.vc = 2 ∧ p.words = [s.rs t 0 0 sa.toNat, s.rs t 0 1 sb.toNat] ∧ p.acc = 0 ∧ p.src = t ∧
      (p.srcRx, p.srcRy) = s.routerOf t) ∧
    (∀ sa : BitVec 5, ∃ p : Packet,
      exec (.specDiscardVerdict t sa 0) s
        = .next ((s.setTile t ({ s.tile t with verdictsFlying := (s.tile t).verdictsFlying + 1 } : Tile).advance).inject 4 p) ∧
      exec (.deferralNotice t sa 0) s = exec (.specDiscardVerdict t sa 0) s ∧
      p.kind = .verdict ∧ p.vc = 2 ∧ p.words = [s.rs t 0 0 sa.toNat, 0] ∧ p.acc = 1 ∧ p.src = t ∧
      (p.srcRx, p.srcRy) = s.routerOf t)

/-- SPEC operations on tags and on verdicts, and the deferral notice: `Claims.SpecKindZeroOnTags` and `Claims.VerdictOperations`. -/
def Obligations.SpecAndVerdicts : Prop :=
  Claims.SpecKindZeroOnTags ∧ Claims.VerdictOperations

/-- R113, R122, R147. An operation of the control slot that fails its first-stage check takes no effect: the fault of its code
(BAD_BUNDLE for non-zero unused bits, LOOP_DEPTH for a fifth loop) is recorded, the tile stops issuing, and its registers,
predicates, memory and pending writes are as before. (A tile of a partition whose tide is done issues nothing: R125.) -/
def Obligations.FirstStageCheckFaults : Prop :=
  ∀ (s : State) (t : TileId), s.canIssue t = true → (s.tile t).faulted = none →
    (∀ p, s.partOf t = some p → s.afterDone p = false) →
    (∀ (c : Instr) (code : Nat),
      ((∃ r : BitVec 19, c = .nop t r ∧ r ≠ 0 ∧ code = 0x0220) ∨
       (∃ (rd ra rb : BitVec 5) (fn : BitVec 4), c = .salu t rd ra rb fn ∧ 13 ≤ fn.toNat ∧ code = 0x0220) ∨
       (∃ (rd ix : BitVec 5), c = .scsr t rd ix 0 ∧ 6 ≤ ix.toNat ∧ code = 0x0220) ∨
       (∃ (r : BitVec 18), c = .hintLight t r ∧ r ≠ 0 ∧ code = 0x0220) ∨
       (∃ (port : BitVec 2), c = .bellRing t port 0 ∧ (s.tile t).bellBound port.toNat = false ∧ code = 0x0220) ∨
       (∃ (r : BitVec 19), c = .end_ t r ∧ r ≠ 0 ∧ code = 0x0220) ∨
       (∃ (count : BitVec 9) (last : BitVec 10), c = .loopi t count last ∧ (s.tile t).pc < last.toNat ∧
          0 < count.toNat ∧ (s.tile t).loops.length = 4 ∧
          (∃ f r, (s.tile t).loops = f :: r ∧ last.toNat ≤ f.last) ∧ code = 0x0226)) →
      ∃ s', exec c s = .next s' ∧ (s'.tile t).issuing = false ∧ (s'.tile t).held = [] ∧
        (s.inTide t = true → ∃ f, (s'.tile t).faulted = some f ∧ f.code = code ∧ f.bundle = (s.tile t).bundle) ∧
        (∀ p, s.partOf t = some p → running (s.part p).st = true → (s'.part p).faultBell = true) ∧
        s'.eventCount > s.eventCount ∧
        (s'.tile t).sregs = (s.tile t).sregs ∧ (s'.tile t).preds = (s.tile t).preds ∧
        (s'.tile t).vregs = (s.tile t).vregs ∧ (s'.tile t).mem = (s.tile t).mem ∧ (s'.tile t).pend = (s.tile t).pend ∧
        (s'.tile t).loops = (s.tile t).loops ∧ (s'.tile t).pc = (s.tile t).pc ∧ ∀ u, u ≠ t → s'.tile u = s.tile u)

/-- R119, R133, R138, R153, R154. SLD and SST on a tile that issues, at the word (ra + imm) modulo 65,536 of a line no earlier
requester of the cycle has taken the bank of, and, for SLD, stored without error: SLD writes rd at latency 3, SST writes the
word at latency 2; each takes its line of the bank. Completing, with the next state of its own effect under its clause's
conditions: SLD, SST. -/
def Claims.ScalarScratchpadAccess : Prop :=
  ∀ (s : State) (t : TileId) (ra : BitVec 5) (imm : BitVec 9), s.canIssue t = true →
    (s.tile t).lost (((s.rs t 0 0 ra.toNat).toNat + imm.toNat) % 65536 / 4) = false →
    (∀ rd : BitVec 5, tget 0 (s.tile t).flips (((s.rs t 0 0 ra.toNat).toNat + imm.toNat) % 65536) = 0 →
      exec (.sld t rd ra imm) s
        = .next (s.setTile t ((((s.tile t).take [((s.rs t 0 0 ra.toNat).toNat + imm.toNat) % 65536 / 4]).wS 0 3 rd.toNat
            (s.memSeen t 0 (((s.rs t 0 0 ra.toNat).toNat + imm.toNat) % 65536))).advance))) ∧
    (∀ rs : BitVec 5,
      exec (.sst t rs ra imm) s
        = .next (s.setTile t ((((s.tile t).take [((s.rs t 0 0 ra.toNat).toNat + imm.toNat) % 65536 / 4]).later 0 2
            (.mem (((s.rs t 0 0 ra.toNat).toNat + imm.toNat) % 65536) (s.rs t 0 1 rs.toNat))).advance)))

/-- R131, R133, R138, R153, R154. VLD and VST on a tile that issues, over the 32 consecutive words from sA + imm modulo 65,536,
none in a line lost in this cycle: VLD, of words stored without error, writes vD at latency 5 with them; VST writes each of
them at latency 2 with vS's lane. Completing, with the next state of its own effect under its clause's conditions: VLD, VST. -/
def Claims.VectorScratchpadAccess : Prop :=
  ∀ (s : State) (t : TileId) (sA : BitVec 5) (imm : BitVec 12), s.canIssue t = true →
    (∀ w ∈ (List.range 32).map fun n => ((s.rs t 2 0 sA.toNat).toNat + imm.toNat + n) % 65536,
      (s.tile t).lost (w / 4) = false) →
    (∀ vD : BitVec 5,
      (∀ w ∈ (List.range 32).map fun n => ((s.rs t 2 0 sA.toNat).toNat + imm.toNat + n) % 65536,
        tget 0 (s.tile t).flips w = 0) →
      exec (.vld t vD sA imm) s = .next (s.setTile t
        (((s.tile t).take (linesOf ((List.range 32).map fun n =>
            ((s.rs t 2 0 sA.toNat).toNat + imm.toNat + n) % 65536))).wV 2 5 vD.toNat
          ((List.range 32).map fun n => s.memSeen t 2 (((s.rs t 2 0 sA.toNat).toNat + imm.toNat + n) % 65536))))) ∧
    (∀ vS : BitVec 5, ∃ s', exec (.vst t vS sA imm) s = .next s' ∧
      (s'.tile t).pend = (s.tile t).pend ++ (List.range 32).map (fun n =>
        { dest := .mem (((s.rs t 2 0 sA.toNat).toNat + imm.toNat + n) % 65536) ((s.rv t 2 1 vS.toNat).getD n 0)
          land := (s.tile t).ecc + 1, issued := (s.tile t).ecc, slot := 2 }) ∧
      (s'.tile t).mem = (s.tile t).mem ∧ (s'.tile t).sregs = (s.tile t).sregs ∧ (s'.tile t).vregs = (s.tile t).vregs ∧
      (s'.tile t).preds = (s.tile t).preds ∧ (s'.tile t).queues = (s.tile t).queues ∧
      ∀ u, u ≠ t → s'.tile u = s.tile u)

/-- SLD, SST, VLD and VST: the words read or stored, latency, bank lines and frame: `Claims.ScalarScratchpadAccess` and
`Claims.VectorScratchpadAccess`. -/
def Obligations.ScratchpadAccess : Prop :=
  Claims.ScalarScratchpadAccess ∧ Claims.VectorScratchpadAccess

/-- R77, R79, R127 to R130. ARR.NOP does nothing. An ARR.RUN that passes its checks becomes the running operation where none runs
and, for a WS mode, no earlier SQ16 operation still gives outputs; else it becomes the pending one. A register word out of
range faults with ARRAY_RANGE, a pairing that is not permitted with ARRAY_FORMAT, and one pending already with ARRAY_BUSY.
Completing, with the next state of its own effect under its clause's conditions: ARR_NOP, ARR_RUN. -/
def Claims.ArrayRunStarts : Prop :=
  ∀ (s : State) (t : TileId) (mode : BitVec 2) (aonly keep wbuf : BitVec 1) (sW sK sA : BitVec 5) (r : ArrRun),
    s.canIssue t = true →
    r = arrParams mode.toNat aonly.toNat keep.toNat wbuf.toNat (s.rs t 1 0 sW.toNat).toNat (s.rs t 1 1 sK.toNat).toNat
          (s.rs t 1 2 sA.toNat).toNat (s.tile t).ecc (s.tile t).bundle →
    exec (.arrNop t 0) s = .next s ∧
    (arrRunCheck t mode.toNat aonly.toNat wbuf.toNat sW.toNat sK.toNat sA.toNat 0 s = none →
      exec (.arrRun t mode aonly keep wbuf sW sK sA 0) s
        = .next (s.setTile t (if (s.tile t).run = none ∧ (r.mode = 2 ∨ (s.tile t).tails = []) then { s.tile t with run := some r }
            else { s.tile t with pendRun := some r }))) ∧
    ((mode.toNat < 2 ∧ sA = 0 ∨ mode.toNat = 2 ∧ wbuf = 0) →
      (arrRange mode.toNat aonly.toNat (s.rs t 1 0 sW.toNat).toNat (s.rs t 1 1 sK.toNat).toNat = true →
        exec (.arrRun t mode aonly keep wbuf sW sK sA 0) s = .next (s.tileFault t 0x0223 .program (2 ^ 13 + (s.tile t).bundle))) ∧
      (arrRange mode.toNat aonly.toNat (s.rs t 1 0 sW.toNat).toNat (s.rs t 1 1 sK.toNat).toNat = false →
        (pairOk r.wfmt r.afmt = false →
          exec (.arrRun t mode aonly keep wbuf sW sK sA 0) s
            = .next (s.tileFault t 0x0222 .program (2 ^ 13 + (s.tile t).bundle))) ∧
        (pairOk r.wfmt r.afmt = true → (s.tile t).pendRun ≠ none →
          exec (.arrRun t mode aonly keep wbuf sW sK sA 0) s
            = .next (s.tileFault t 0x0221 .program (2 ^ 13 + (s.tile t).bundle)))))

/-- R74, R81, R127, R130. ARR.WIN writes one row of one window buffer and its scale at latency 1; ARR.RD with its 32 entries in
the array writes vD at latency 3 with their running sums; ARR.WR with its entries in no running or pending operation writes
the 32 running sums from vS at latency 1, and else faults with ARRAY_BUSY. The model's own choice of log entry 40 stands in
it (an operation runs until its last result is added). Completing, with the next state of its own effect under its clause's
conditions: ARR_WIN, ARR_RD, ARR_WR. -/
def Claims.ArrayRegisterTransfers : Prop :=
  ∀ (s : State) (t : TileId) (array : BitVec 1), s.canIssue t = true →
    (∀ (buffer : BitVec 1) (row : BitVec 2) (vA sS : BitVec 5),
      exec (.arrWin t array buffer row vA sS 0) s
        = .next (s.setTile t { s.tile t with pend := (s.tile t).pend ++
            [{ dest := .win (array.toNat * 8 + buffer.toNat * 4 + row.toNat)
                 { lanes := (s.rv t 1 0 vA.toNat).map fun w => w.setWidth 16
                   scale := (s.rs t 1 1 sS.toNat).setWidth 8 }
               land := (s.tile t).ecc, issued := (s.tile t).ecc, slot := 1 }] })) ∧
    (∀ (imm : BitVec 10) (sI v : BitVec 5) (e : Nat), e = (imm.toNat + (s.rs t 1 0 sI.toNat).toNat) % 2 ^ 32 →
      (1023 < e + 31 →
        exec (.arrRd t array imm sI v 0) s = .next (s.tileFault t 0x0223 .program (2 ^ 13 + (s.tile t).bundle)) ∧
        exec (.arrWr t array imm sI v 0) s = .next (s.tileFault t 0x0223 .program (2 ^ 13 + (s.tile t).bundle))) ∧
      (e + 31 ≤ 1023 →
        exec (.arrRd t array imm sI v 0) s
          = .next (s.setTile t ((s.tile t).wV 1 3 v.toNat ((List.range 32).map fun i =>
              (tget ({} : AccEntry) (s.tile t).acc (array.toNat * 1024 + e + i)).sum))) ∧
        ((∃ r, ((s.tile t).run = some r ∨ (s.tile t).pendRun = some r) ∧ r.covers array.toNat e = true) →
          exec (.arrWr t array imm sI v 0) s = .next (s.tileFault t 0x0221 .program (2 ^ 13 + (s.tile t).bundle))) ∧
        ((∀ r, ((s.tile t).run = some r ∨ (s.tile t).pendRun = some r ∨ r ∈ (s.tile t).tails) → r.covers array.toNat e = false) →
          (s.tile t).summing array.toNat e = false →
          exec (.arrWr t array imm sI v 0) s
            = .next (s.setTile t { s.tile t with pend := (s.tile t).pend ++ (List.range 32).map fun i =>
                { dest := .acc (array.toNat * 1024 + e + i) ((s.rv t 1 1 v.toNat).getD i 0)
                  land := (s.tile t).ecc, issued := (s.tile t).ecc, slot := 1 } }))))

/-- ARR.NOP, ARR.RUN, ARR.WIN, ARR.RD and ARR.WR on a tile that issues: `Claims.ArrayRunStarts` and
`Claims.ArrayRegisterTransfers`. -/
def Obligations.ArrayOperations : Prop :=
  Claims.ArrayRunStarts ∧ Claims.ArrayRegisterTransfers

/-- R73, R79 to R81, R83, R104, R130. ARRAY_BLOCK_DONE in an enabled cycle of the tile. With no operation, or before its block's
last cycle, nothing changes. At the last cycle of a WS block, for every token row in use and every column, the exact sum of
the block's products, each of the weight read over the bus and the window entry of its element step, is rounded once and
joins the entry's running sum two cycles on (with ZERO, block 0 replaces it); the running sums stand until then, the next
block begins, and after the last one the pair is free. In SQ16 the passes of the operation go on. The model's own choices of
log entries 40, 41 and 170 stand in it. Completing, with the next state of its own effect under its clause's conditions:
ARRAY_BLOCK_DONE. -/
def Claims.ArrayBlockEnds : Prop :=
  ∀ (s : State) (t : TileId), s.acts t = true → (s.tile t).tails = [] →
    ((s.tile t).run = none → exec (.arrayBlockDone t) s = .next (s.setTile t (s.tile t))) ∧
    (∀ (r : ArrRun) (b : BlockRun), (s.tile t).run = some r → r.mode < 2 → r.cur = some b →
      (b.cyc < b.time → exec (.arrayBlockDone t) s = .next (s.setTile t (s.tile t))) ∧
      (b.time ≤ b.cyc → ∃ s', exec (.arrayBlockDone t) s = .next s' ∧ s' = s.setTile t (s'.tile t) ∧
        (s'.tile t).run = (if r.nxt = none ∧ r.opened = r.runLen then none else some { r with cur := r.nxt, nxt := none }) ∧
        (∀ a ∈ r.rowKeys, ∀ (n : Nat) (w act : WBlock) (e : AccEntry) (l : List (Option Nat)),
          (r.weightsOf b.j b.load.bytes)[n]? = some w → (r.stepTable b.load)[n]? = some l →
          act = b.actsFor r (a.1 * 4 + a.2) l →
          e = ({} : AccEntry).addProducts (decide (r.wfmt = 9)) (productsOf (fmtOf r.wfmt) (fmtOf r.afmt) w.elems act.elems) →
          ({ dest := .sum (r.entryOf a.1 a.2 n) (some (e.blockResult (decide (r.wfmt = 8)) act.scale w.scale)) (decide (r.wfmt = 8))
               (!r.keep && decide (b.j = 0))
             land := (s.tile t).ecc + 2, issued := (s.tile t).ecc, slot := 1 } : PendWrite) ∈ (s'.tile t).pend) ∧
        (∀ w ∈ (s.tile t).pend, w ∈ (s'.tile t).pend) ∧
        (∀ k, (tget {} (s'.tile t).acc k).sum = (tget {} (s.tile t).acc k).sum) ∧
        (s'.tile t).pendRun = (s.tile t).pendRun ∧ (s'.tile t).mem = (s.tile t).mem ∧ (s'.tile t).win = (s.tile t).win ∧
        (s'.tile t).sregs = (s.tile t).sregs ∧ (s'.tile t).vregs = (s.tile t).vregs)) ∧
    (∀ r : ArrRun, (s.tile t).run = some r → r.mode = 2 → ∃ s', exec (.arrayBlockDone t) s = .next s' ∧
      s' = s.setTile t (s'.tile t) ∧ (s'.tile t).run = some r.settle ∧ (s'.tile t).pendRun = (s.tile t).pendRun ∧
      (s'.tile t).mem = (s.tile t).mem ∧ (s'.tile t).win = (s.tile t).win ∧ (s'.tile t).sregs = (s.tile t).sregs)

/-- R79. PENDING_RUN_START in an enabled cycle of the tile: the pending operation becomes the running one where none runs (and,
for a WS mode, no SQ16 operation before it still gives outputs), its first block beginning; else nothing changes. Completing,
with the next state of its own effect under its clause's conditions: PENDING_RUN_START. -/
def Claims.PendingRunStarts : Prop :=
  ∀ (s : State) (t : TileId), s.acts t = true →
    (∀ r : ArrRun, (s.tile t).run = none → (s.tile t).pendRun = some r → (r.mode = 2 ∨ (s.tile t).tails = []) →
      exec (.pendingRunStart t) s
        = .next (s.setTile t { s.tile t with
            pendRun := none
            run := some (if r.cur = none then { r with cur := r.nxt, nxt := none } else r) })) ∧
    (((s.tile t).pendRun = none ∨ (s.tile t).run ≠ none ∨
        ∃ r, (s.tile t).pendRun = some r ∧ r.mode ≠ 2 ∧ (s.tile t).tails ≠ []) →
      exec (.pendingRunStart t) s = .next (s.setTile t (s.tile t)))

/-- R84, R85. An SQ16 output that leaves row 15: half 0 of a K-block leaves its exact partial in the entry, with no rounding;
half 1 adds its products to that partial, a whole block starts from none, and the exact sum is rounded once and joins the
running sum two cycles on (20 with BF16 weights). -/
def Claims.SquareOutputs : Prop :=
  ∀ (x : Tile) (r : ArrRun) (p : PassRun) (array row n k : Nat) (w a : WBlock) (ps : List FVal),
    k = r.entryOf array row n → w = (p.w.getD x.wActive).getD n { scale := 0, elems := [] } →
    a = r.actsOf array (p.p * r.rowsA + row) →
    ps = productsOf (fmtOf r.wfmt) (fmtOf r.afmt) w.elems a.elems →
    (r.halfOf p.p = some 0 →
      tget ({} : AccEntry) (x.sqOutput r p array row n).acc k
        = ({ sum := (tget ({} : AccEntry) x.acc k).sum } : AccEntry).addProducts (decide (r.wfmt = 9)) ps) ∧
    (r.halfOf p.p ≠ some 0 →
      tget ({} : AccEntry) (x.sqOutput r p array row n).acc k = { sum := (tget ({} : AccEntry) x.acc k).sum } ∧
      (x.sqOutput r p array row n).pend = x.pend ++
        [{ dest := .sum k (some (((if r.halfOf p.p = some 1 then tget ({} : AccEntry) x.acc k
                                   else { sum := (tget ({} : AccEntry) x.acc k).sum } : AccEntry).addProducts
                (decide (r.wfmt = 9)) ps).blockResult (decide (r.wfmt = 8)) a.scale w.scale)) (decide (r.wfmt = 8))
             (decide (r.halfOf p.p = none) && (!r.keep && decide (p.p = 0)))
           land := x.ecc + (if r.wfmt = 9 then 20 else 2), issued := x.ecc, slot := 1 }])

/-- R49 to R52, R74. What joins a running sum: an INT8 block's exact sum (held in units of 2^-340), whose addition saturates at
the bounds of a 32-bit integer; a scale code 255 gives the canonical NaN; other results are added in binary32; ZERO starts
from 0. The partial of the entry is not touched when a result lands. -/
def Claims.BlockCompletion : Prop :=
  (∀ (e : AccEntry) (a w : Nat),
    (∀ n : Int, e.part = n * 2 ^ 340 → e.blockResult true a w = BitVec.ofInt 32 n) ∧
    ((a = 255 ∨ w = 255) → e.blockResult false a w = 0x7FC00000) ∧
    (e.nan = false → e.posInf = false → e.negInf = false → e.part = 0 → a < 255 → w < 255 → e.blockResult false a w = 0)) ∧
  (∀ (sum v : Word),
    joinSum true sum (some v) = BitVec.ofInt 32
      (if sum.toInt + v.toInt < -2147483648 then -2147483648
       else if 2147483647 < sum.toInt + v.toInt then 2147483647 else sum.toInt + v.toInt) ∧
    joinSum false sum (some v) = fadd sum v) ∧
  (∀ (x : Tile) (w : PendWrite) (k : Nat) (r : Option Word) (int zero : Bool), w.dest = .sum k r int zero →
    (tget ({} : AccEntry) (x.apply w).acc k).sum = joinSum int (if zero then 0 else (tget ({} : AccEntry) x.acc k).sum) r ∧
    (tget ({} : AccEntry) (x.apply w).acc k).part = (tget ({} : AccEntry) x.acc k).part ∧
    ∀ j, j ≠ k → tget ({} : AccEntry) (x.apply w).acc j = tget ({} : AccEntry) x.acc j)

/-- How an array operation goes on, and what completing a block adds to an accumulator: `Claims.ArrayBlockEnds`,
`Claims.PendingRunStarts`, `Claims.SquareOutputs` and `Claims.BlockCompletion`. -/
def Obligations.ArrayRunProgress : Prop :=
  Claims.ArrayBlockEnds ∧ Claims.PendingRunStarts ∧ Claims.SquareOutputs ∧ Claims.BlockCompletion

/-- R44. FP32 to INT8 conversion (VCVT code 3): NaN gives 0, infinities the bounds, and a finite value the nearest integer, ties
to even, saturated at -128 and 127; the result is in bits [7:0] and the rest of the lane is 0. -/
def Obligations.Fp32ToInt8RoundsAndSaturates : Prop :=
  ∀ (sat : Bool) (a b : Word), ∃ q : Int, -128 ≤ q ∧ q ≤ 127 ∧
    cvtLane 3 sat a b = (BitVec.ofInt 8 q).zeroExtend 32 ∧
    (decodeFp32 a = .nan → q = 0) ∧
    (∀ neg, decodeFp32 a = .inf neg → q = if neg then -128 else 127) ∧
    (∀ neg sig e, decodeFp32 a = .fin neg sig e →
      (0 ≤ e → q = max (-128) (min 127 ((if neg then -1 else 1) * (sig : Int) * 2 ^ e.toNat))) ∧
      (e < 0 → ∃ m : Nat, q = max (-128) (min 127 ((if neg then -1 else 1) * (m : Int))) ∧
        2 * ((m : Int) * 2 ^ (-e).toNat - sig) ≤ 2 ^ (-e).toNat ∧ 2 * ((sig : Int) - m * 2 ^ (-e).toNat) ≤ 2 ^ (-e).toNat ∧
        ((2 * ((m : Int) * 2 ^ (-e).toNat - sig) = 2 ^ (-e).toNat ∨ 2 * ((sig : Int) - m * 2 ^ (-e).toNat) = 2 ^ (-e).toNat) →
          m % 2 = 0)))

/-- R55, R131, R138. The lane operations of FP32 registers on a tile that issues, with their unused bits 0: the whole of vD is
written at latency 4 with the operation applied lane by lane; one pending write, nothing else of the machine changes.
Completing, with the next state of its own effect under its clause's conditions: VNOP, VADD, VSUB, VMUL, VFMA, VMAX, VMIN,
VABS, VNEG. -/
def Claims.VectorLaneArithmetic : Prop :=
  ∀ (s : State) (t : TileId) (vD vA vB vC : BitVec 5), s.canIssue t = true →
    exec (.vnop t 0) s = .next s ∧
    exec (.vadd t vD vA vB 0) s = .next (s.setTile t ((s.tile t).wV 2 4 vD.toNat
      (List.zipWith fadd (s.rv t 2 0 vA.toNat) (s.rv t 2 1 vB.toNat)))) ∧
    exec (.vsub t vD vA vB 0) s = .next (s.setTile t ((s.tile t).wV 2 4 vD.toNat
      (List.zipWith fsub (s.rv t 2 0 vA.toNat) (s.rv t 2 1 vB.toNat)))) ∧
    exec (.vmul t vD vA vB 0) s = .next (s.setTile t ((s.tile t).wV 2 4 vD.toNat
      (List.zipWith fmul (s.rv t 2 0 vA.toNat) (s.rv t 2 1 vB.toNat)))) ∧
    exec (.vfma t vD vA vB vC 0) s = .next (s.setTile t ((s.tile t).wV 2 4 vD.toNat
      ((List.range 32).map fun i => ffma ((s.rv t 2 0 vA.toNat).getD i 0) ((s.rv t 2 1 vB.toNat).getD i 0)
        ((s.rv t 2 2 vC.toNat).getD i 0)))) ∧
    exec (.vmax t vD vA vB 0) s = .next (s.setTile t ((s.tile t).wV 2 4 vD.toNat
      (List.zipWith fmax (s.rv t 2 0 vA.toNat) (s.rv t 2 1 vB.toNat)))) ∧
    exec (.vmin t vD vA vB 0) s = .next (s.setTile t ((s.tile t).wV 2 4 vD.toNat
      (List.zipWith fmin (s.rv t 2 0 vA.toNat) (s.rv t 2 1 vB.toNat)))) ∧
    exec (.vabs t vD vA 0) s = .next (s.setTile t ((s.tile t).wV 2 4 vD.toNat ((s.rv t 2 0 vA.toNat).map fabs))) ∧
    exec (.vneg t vD vA 0) s = .next (s.setTile t ((s.tile t).wV 2 4 vD.toNat ((s.rv t 2 0 vA.toNat).map fneg)))

/-- R37, R55. Binary32 lane arithmetic: any NaN operand gives the canonical NaN, in minimum and maximum as well; the maximum of
the two zeros is +0 and the minimum is -0, whichever comes first. -/
def Claims.Binary32NanAndZeroRules : Prop :=
  ∀ a b c : Word,
    ((isNan32 a = true ∨ isNan32 b = true) →
      fadd a b = nan32 ∧ fsub a b = nan32 ∧ fmul a b = nan32 ∧ fmax a b = nan32 ∧ fmin a b = nan32) ∧
    ((isNan32 a = true ∨ isNan32 b = true ∨ isNan32 c = true) → ffma a b c = nan32) ∧
    (isNan32 a = true → fabs a = nan32 ∧ fneg a = nan32) ∧
    fmax 0 0x80000000 = 0 ∧ fmax 0x80000000 0 = 0 ∧ fmin 0 0x80000000 = 0x80000000 ∧ fmin 0x80000000 0 = 0x80000000 ∧
    (isNan32 a = false → isNan32 b = false → (fmax a b = a ∨ fmax a b = b ∨ fmax a b = 0) ∧
      (fmin a b = a ∨ fmin a b = b ∨ fmin a b = 0x80000000))

/-- VADD to VINS lane by lane, and the NaN and zero rules of binary32: `Claims.VectorLaneArithmetic` and
`Claims.Binary32NanAndZeroRules`. -/
def Obligations.LaneArithmetic : Prop :=
  Claims.VectorLaneArithmetic ∧ Claims.Binary32NanAndZeroRules

/-- R120, R131, R133, R138. Copies, broadcast, comparison, selection, reductions, integer and lane operations on a tile that
issues, with their unused bits 0 (and a condition below 4 for VCMP): the destination, value and latency of each. Completing,
with the next state of its own effect under its clause's conditions: VMOV, VBCAST, VCMP, VSEL, VREDSUM, VREDMAX, VIADD, VAND,
VSHR, VEXT, VINS. -/
def Obligations.VectorMovesAndSelections : Prop :=
  ∀ (s : State) (t : TileId) (vD vA vB vC sA lane : BitVec 5), s.canIssue t = true →
    exec (.vmov t vD vA 0) s = .next (s.setTile t ((s.tile t).wV 2 4 vD.toNat (s.rv t 2 0 vA.toNat))) ∧
    exec (.vbcast t vD sA 0) s = .next (s.setTile t ((s.tile t).wV 2 4 vD.toNat
      (List.replicate 32 (s.rs t 2 0 sA.toNat)))) ∧
    (∀ cond : BitVec 3, cond.toNat < 4 →
      exec (.vcmp t vD vA vB cond 0) s = .next (s.setTile t ((s.tile t).wV 2 4 vD.toNat
        (List.zipWith (fun a b => if fcmp cond.toNat a b then 0xFFFFFFFF else 0)
          (s.rv t 2 0 vA.toNat) (s.rv t 2 1 vB.toNat))))) ∧
    exec (.vsel t vD vA vB vC 0) s = .next (s.setTile t ((s.tile t).wV 2 4 vD.toNat
      ((List.range 32).map fun i => if (s.rv t 2 2 vC.toNat).getD i 0 = 0 then (s.rv t 2 1 vB.toNat).getD i 0
        else (s.rv t 2 0 vA.toNat).getD i 0))) ∧
    exec (.vredsum t vD vA 0) s = .next (s.setTile t ((s.tile t).wV 2 8 vD.toNat
      (List.replicate 32 (tree32 fadd 0 (s.rv t 2 0 vA.toNat))))) ∧
    exec (.vredmax t vD vA 0) s = .next (s.setTile t ((s.tile t).wV 2 6 vD.toNat
      (List.replicate 32 (tree32 fmax 0 (s.rv t 2 0 vA.toNat))))) ∧
    exec (.viadd t vD vA vB 0) s = .next (s.setTile t ((s.tile t).wV 2 4 vD.toNat
      (List.zipWith (fun (a b : Word) => a + b) (s.rv t 2 0 vA.toNat) (s.rv t 2 1 vB.toNat)))) ∧
    exec (.vand t vD vA vB 0) s = .next (s.setTile t ((s.tile t).wV 2 4 vD.toNat
      (List.zipWith (fun (a b : Word) => a &&& b) (s.rv t 2 0 vA.toNat) (s.rv t 2 1 vB.toNat)))) ∧
    exec (.vshr t vD vA vB 0) s = .next (s.setTile t ((s.tile t).wV 2 4 vD.toNat
      (List.zipWith (fun (a b : Word) => a >>> (b.toNat % 32)) (s.rv t 2 0 vA.toNat) (s.rv t 2 1 vB.toNat)))) ∧
    exec (.vext t sA vA lane 0) s = .next (s.setTile t ((s.tile t).wS 2 2 sA.toNat
      ((s.rv t 2 0 vA.toNat).getD lane.toNat 0))) ∧
    exec (.vins t vD sA lane 0) s = .next (s.setTile t ((s.tile t).later 2 4
      (.v vD.toNat [(lane.toNat, s.rs t 2 0 sA.toNat)])))

/-- R42, R45, R58 to R61, R131 to R133, R138. Conversions, quantisation, the function unit and the random lanes on a tile that
issues: VCVT with a code below 15 (sat only with codes 0 to 2) at latency 3, VMXQ with a defined format at latency 6, VSFU at
latency 12 when none issued in the three cycles before, VRNG at latency 6; a VSFU too soon raises SFU_BUSY. The model's own
choice of log entry 36 stands in it. Completing, with the next state of its own effect under its clause's conditions: VCVT,
VMXQ, VSFU, VRNG. -/
def Obligations.VectorConversionsAndFunctions : Prop :=
  ∀ (s : State) (t : TileId) (vD vA vB sD : BitVec 5), s.canIssue t = true →
    (∀ (code : BitVec 4) (sat : BitVec 1), code.toNat ≠ 15 → (code.toNat < 3 ∨ sat = 0) →
      exec (.vcvt t vD vA vB code sat 0) s = .next (s.setTile t ((s.tile t).wV 2 3 vD.toNat
        (List.zipWith (cvtLane code.toNat (sat.toNat = 1)) (s.rv t 2 0 vA.toNat) (s.rv t 2 1 vB.toNat))))) ∧
    (∀ (fmt : BitVec 4) (f : EFmt), vmxqFmt fmt.toNat = some f →
      exec (.vmxq t vD vA fmt sD 0) s = .next (s.setTile t
        (((s.tile t).wV 2 6 vD.toNat ((mxQuantise f (s.rv t 2 0 vA.toNat)).2.map (BitVec.ofNat 32 ·))).wS 2 6 sD.toNat
          (BitVec.ofNat 32 (mxQuantise f (s.rv t 2 0 vA.toNat)).1)))) ∧
    (∀ fn : BitVec 2, ((s.tile t).sfuAt = none ∨ ∃ c, (s.tile t).sfuAt = some c ∧ c + 3 < (s.tile t).ecc) →
      exec (.vsfu t vD vA fn 0) s = .next (s.setTile t
        (({ s.tile t with sfuAt := some (s.tile t).ecc } : Tile).wV 2 12 vD.toNat
          ((s.rv t 2 0 vA.toNat).map (sfu fn.toNat))))) ∧
    (∀ (fn : BitVec 2) (c : Nat), (s.tile t).sfuAt = some c → (s.tile t).ecc ≤ c + 3 →
      exec (.vsfu t vD vA fn 0) s = .next (s.tileFault t 0x0225 .program (2 * 2 ^ 13 + (s.tile t).bundle))) ∧
    exec (.vrng t vD vA vB 0) s = .next (s.setTile t ((s.tile t).wV 2 6 vD.toNat
      (vrngLanes (s.rv t 2 0 vA.toNat) (s.rv t 2 1 vB.toNat))))

/-- R114, R115, R117. The end of an enabled cycle: a write that lands in it gives its register the value, whatever the register
held; of two writes landing together in one register, the one of the earlier slot prevails, and of two of one slot, the one
issued later; nothing lands early. -/
def Obligations.RegisterWritesLand : Prop :=
  ∀ (x : Tile) (r : Nat) (v w : Word) (i j a b : Nat),
    ({ x with pend := [{ dest := .s r v, land := x.ecc, issued := i, slot := a }] } : Tile).landAll.sregs
      = tset x.sregs r v ∧
    (a < b → ({ x with pend := [{ dest := .s r v, land := x.ecc, issued := i, slot := a },
                                { dest := .s r w, land := x.ecc, issued := j, slot := b }] } : Tile).landAll.sregs
      = tset x.sregs r v) ∧
    (a < b → ({ x with pend := [{ dest := .s r w, land := x.ecc, issued := i, slot := b },
                                { dest := .s r v, land := x.ecc, issued := j, slot := a }] } : Tile).landAll.sregs
      = tset x.sregs r v) ∧
    ({ x with pend := [{ dest := .s r w, land := x.ecc, issued := i, slot := a },
                       { dest := .s r v, land := x.ecc, issued := j, slot := a }] } : Tile).landAll.sregs
      = tset x.sregs r v ∧
    (x.ecc < i → ({ x with pend := [{ dest := .s r v, land := i, issued := j, slot := a }] } : Tile).landAll.sregs
      = x.sregs ∧
      ({ x with pend := [{ dest := .s r v, land := i, issued := j, slot := a }] } : Tile).landAll.pend
        = [{ dest := .s r v, land := i, issued := j, slot := a }]) ∧
    (x.wS a i 0 v = x ∧ x.wP a i 0 (decide (v = w)) = x)

/-- R115. Two writes to one scalar register, vector register or predicate that land at the end of the same cycle: the write of
the operation whose slot comes first in the order control, array, vector, mover, queue (0 to 4) prevails, and of one slot the
later-issued one; the other is lost. -/
def Obligations.SameCycleWrites : Prop :=
  ∀ (x : Tile) (u w : PendWrite), sameDest u.dest w.dest = true → u.land = x.ecc → w.land = x.ecc → u.issued ≤ w.issued →
    ({ x with pend := [u, w] } : Tile).landAll
      = ({ x with pend := [if u.slot < w.slot then u else w] } : Tile).landAll

/-- R134, R135, R140, R147, R156, R243. MV.NOP; MV.WAIT with every named tag free issues without effect, and with one ACTIVE at
an issue of its own is held; MV.TEST writes whether its tag is IDLE or LANDED at latency 1; MV.ISSUE with an IDLE tag and an
aligned descriptor whose lines are free, read without error and accepted by the checks of R147, makes the tag ACTIVE with
that descriptor and takes its four lines; one that the checks refuse faults with MOVER_DESC. Completing, with the next state
of its own effect under its clause's conditions: MV_NOP, MV_ISSUE, MV_WAIT, MV_TEST. -/
def Obligations.MoverSlotOperations : Prop :=
  ∀ (s : State) (t : TileId), s.canIssue t = true →
    exec (.mvNop t 0) s = .next s ∧
    (∀ mask : BitVec 16, (∀ n, n < 16 → mask.getLsbD n = true → ((s.tile t).tag n).st ≠ .active) →
      exec (.mvWait t mask 0) s = .next s) ∧
    (∀ (mask : BitVec 16) (n : Nat), n < 16 → mask.getLsbD n = true → ((s.tile t).tag n).st = .active →
      (s.tile t).cur = none →
      exec (.mvWait t mask 0) s = .next (s.setTile t { s.tile t with held := [.mvWait t mask 0], heldFor := 0 })) ∧
    (∀ (pd : BitVec 3) (tag : BitVec 4),
      exec (.mvTest t pd tag 0) s = .next (s.setTile t ((s.tile t).wP 3 1 pd.toNat
        (decide (((s.tile t).tag tag.toNat).st ≠ .active))))) ∧
    (∀ (tag : BitVec 4) (sD : BitVec 5) (s1 : State) (w : List Word),
      ((s.tile t).tag tag.toNat).st = .idle → s.descWord t sD.toNat % 16 = 0 →
      s.lineRead t 2 (s.tile t).readNow ((List.range 16).map fun i => s.descWord t sD.toNat + i) = (s1, some w) →
      (s1.descOk t w = false →
        exec (.mvIssue t tag sD 0) s = .next (s1.tileFault t 0x022A .program ((s1.tile t).slotPayload 3))) ∧
      (s1.descOk t w = true → ∃ s', exec (.mvIssue t tag sD 0) s = .next s' ∧ ((s'.tile t).tag tag.toNat).st = .active ∧
        ((s'.tile t).tag tag.toNat).desc = w ∧ ((s'.tile t).tag tag.toNat).shadow = (decodeDesc w).shadow ∧
        ((s'.tile t).tag tag.toNat).bundle = (s1.tile t).bundle ∧ ((s'.tile t).tag tag.toNat).flying = [] ∧
        (∀ m, m ≠ tag.toNat → (s'.tile t).tag m = (s1.tile t).tag m) ∧
        s' = s1.setTile t (s'.tile t)))

/-- R136, R137, R140, R171, R172. Q.NOP and Q.TEST; Q.SEND and Q.SENDV that need not wait: by a neighbour link they spend the
entry's words of credit (none toward a tile known to absorb) and put the entry on the link; by the mesh they put it in the
egress buffer for the tile sT names; either counts it as in flight. One that must wait, at an issue of its own, is held, and
one toward no tile faults with QUEUE_TARGET. Completing, with the next state of its own effect under its clause's conditions:
Q_NOP, Q_SEND, Q_SENDV, Q_TEST. -/
def Claims.QueueSends : Prop :=
  ∀ (s : State) (t : TileId) (queue : BitVec 3) (len : BitVec 2), s.canIssue t = true →
    exec (.qNop t 0) s = .next s ∧
    (∀ pd : BitVec 3, exec (.qTest t pd queue 0) s = .next (s.setTile t ((s.tile t).wP 4 1 pd.toNat
      (!((s.tile t).queue queue.toNat).entries.isEmpty)))) ∧
    (∀ (c : Instr) (route : BitVec 3) (sT : BitVec 5) (ws : List Word),
      ((∃ sS : BitVec 5, sS.toNat + len.toNat ≤ 31 ∧ c = .qSend t route queue len sS sT 0 ∧
          ws = (List.range (len.toNat + 1)).map fun i => s.rs t 4 i (sS.toNat + i)) ∨
       (∃ (vS : BitVec 5) (group : BitVec 3), c = .qSendv t route queue len vS group sT ∧
          ws = ((s.rv t 4 0 vS.toNat).drop (4 * group.toNat)).take (len.toNat + 1))) →
      (s.sendWaits t route.toNat queue.toNat (len.toNat + 1) = false →
        (route.toNat < 4 → sT = 0 → (s.neighbour t route.toNat).isSome = true →
          exec c s = .next (s.setTile t { s.tile t with
            credits := if (s.tile t).farAbsorbs.getLsbD route.toNat then (s.tile t).credits
              else tset (s.tile t).credits (route.toNat * 8 + queue.toNat)
                (tget 0 (s.tile t).credits (route.toNat * 8 + queue.toNat) - ws.length)
            out := tset (s.tile t).out route.toNat (tget [] (s.tile t).out route.toNat ++
              [.entry queue.toNat { words := ws, sender := t }])
            entriesFlying := (s.tile t).entriesFlying + 1 })) ∧
        (route.toNat < 4 → sT = 0 → s.neighbour t route.toNat = none →
          exec c s = .next (s.tileFault t 0x022C .program (4 * 2 ^ 13 + (s.tile t).bundle))) ∧
        (∀ d : TileId, route = 4 → s.meshTarget (s.rs t 4 5 sT.toNat) = some d →
          exec c s = .next (s.setTile t { s.tile t with
            egress := (s.tile t).egress ++
              [{ kind := .entry, vc := 2, words := ws, queue := queue.toNat, src := t, dst := d, len := 4 * ws.length }]
            entriesFlying := (s.tile t).entriesFlying + 1 }))) ∧
      (s.sendWaits t route.toNat queue.toNat (len.toNat + 1) = true → (s.tile t).cur = none →
        exec c s = .next (s.setTile t { s.tile t with held := [c], heldFor := 0 })))

/-- R136, R138, R162, R169. Q.RECV and Q.RECVV whose queue's head entry has the length asked for, stored without error, sent by
the mesh: the entry leaves the queue, the head moves past its words, and the words are pending writes at latency 2 of the
registers from sD on (s0 discarded) or of the lanes from 4 × group on. With an empty queue, at an issue of its own, a receive
is held; a head of another length faults with QUEUE_TUPLE and stays. Completing, with the next state of its own effect under
its clause's conditions: Q_RECV, Q_RECVV. -/
def Claims.QueueReceives : Prop :=
  ∀ (s : State) (t : TileId) (queue : BitVec 3) (len : BitVec 2), s.canIssue t = true →
    (∀ (e : QEntry) (r : List QEntry), ((s.tile t).queue queue.toNat).entries = e :: r → e.link = 4 →
      e.words.length = len.toNat + 1 → (s.tile t).qFlips = [] →
      (∀ sD : BitVec 5, sD.toNat + len.toNat ≤ 31 →
        ∃ s', exec (.qRecv t queue len sD 0) s = .next s' ∧
          ((s'.tile t).queue queue.toNat).entries = r ∧
          ((s'.tile t).queue queue.toNat).headWord
            = (((s.tile t).queue queue.toNat).headWord + e.words.length) % (max 1 ((s.tile t).qDepth queue.toNat)) ∧
          (s'.tile t).pend = (s.tile t).pend ++ (((List.range e.words.length).zip e.words).filter fun p =>
              decide (sD.toNat + p.1 ≠ 0)).map (fun p =>
            { dest := .s (sD.toNat + p.1) p.2, land := (s.tile t).ecc + 1, issued := (s.tile t).ecc, slot := 4 }) ∧
          (s'.tile t).sregs = (s.tile t).sregs ∧ (s'.tile t).mem = (s.tile t).mem ∧ s' = s.setTile t (s'.tile t)) ∧
      (∀ (vD : BitVec 5) (group : BitVec 3),
        ∃ s', exec (.qRecvv t queue len vD group 0) s = .next s' ∧
          ((s'.tile t).queue queue.toNat).entries = r ∧
          (s'.tile t).pend = (s.tile t).pend ++
            [{ dest := .v vD.toNat (((List.range e.words.length).zip e.words).map fun p => (4 * group.toNat + p.1, p.2))
               land := (s.tile t).ecc + 1, issued := (s.tile t).ecc, slot := 4 }] ∧
          (s'.tile t).vregs = (s.tile t).vregs ∧ (s'.tile t).mem = (s.tile t).mem ∧ s' = s.setTile t (s'.tile t))) ∧
    (∀ (e : QEntry) (r : List QEntry) (sD : BitVec 5), ((s.tile t).queue queue.toNat).entries = e :: r → e.link < 4 →
      e.sender ≠ t → e.words.length = len.toNat + 1 → (s.tile t).qFlips = [] → sD.toNat + len.toNat ≤ 31 →
      ∃ s', exec (.qRecv t queue len sD 0) s = .next s' ∧ ((s'.tile t).queue queue.toNat).entries = r ∧
        (s'.tile e.sender).creditsFlying
          = (s.tile e.sender).creditsFlying ++ [((e.link + 2) % 4 * 8 + queue.toNat, e.words.length)]) ∧
    (∀ sD : BitVec 5, ((s.tile t).queue queue.toNat).entries = [] → (s.tile t).cur = none →
      exec (.qRecv t queue len sD 0) s
        = .next (s.setTile t { s.tile t with held := [.qRecv t queue len sD 0], heldFor := 0 })) ∧
    (∀ (sD : BitVec 5) (e : QEntry) (r : List QEntry), ((s.tile t).queue queue.toNat).entries = e :: r →
      e.words.length ≠ len.toNat + 1 → sD.toNat + len.toNat ≤ 31 →
      exec (.qRecv t queue len sD 0) s = .next (s.tileFault t 0x022B .program (4 * 2 ^ 13 + (s.tile t).bundle)))

/-- Q.NOP, Q.SEND, Q.SENDV, Q.RECV, Q.RECVV and Q.TEST: `Claims.QueueSends` and `Claims.QueueReceives`. -/
def Obligations.QueueOperations : Prop :=
  Claims.QueueSends ∧ Claims.QueueReceives

/-- R147, R204, R216, R224, R338. The first fault of a tile: it stops issuing and holds nothing, and within a running tide it is
recorded with its code, its bundle and, in a job, this device's rank, and rings its partition's fault bell; its event is
raised, or, where this device's tide is done in a job, waits until its tide is known (the model's own choice of log entry
163), and its report is due to leave for the management complex. A later fault of a tile that has one raises nothing. -/
def Claims.TileFaultEffect : Prop :=
  ∀ (s : State) (t : TileId) (code : Nat) (kind : FaultKind) (payload : Nat),
    ((s.tile t).faulted = none →
      ((s.tileFault t code kind payload).tile t)
        = { s.tile t with issuing := false, held := [], bubble := 0
                          reports := (s.tile t).reports + 1
                          faulted := if s.inTide t then some { code := code, payload := BitVec.ofNat 64 payload
                                                               bundle := (s.tile t).bundle } else none } ∧
      ((∀ p, s.partOf t = some p → s.afterDone p = false) →
        (s.tileFault t code kind payload).eventCount > s.eventCount) ∧
      (∀ p, s.partOf t = some p → s.afterDone p = true → ∃ e, e.code = code ∧ e.unit = t ∧ e.part = p ∧
        (s.tileFault t code kind payload).bb.waiting = s.bb.waiting ++ [e]) ∧
      (∀ u, u ≠ t → (s.tileFault t code kind payload).tile u = s.tile u) ∧
      (∀ p, s.partOf t = some p → running (s.part p).st = true →
        ((s.tileFault t code kind payload).part p).faultBell = true ∧
        ((s.tileFault t code kind payload).part p).causes
          = (s.part p).causes ++ [{ kind := kind, code := code, unit := t
                                    rank := if (s.part p).inJob then s.job.rank else 0 }])) ∧
    ((s.tile t).faulted ≠ none →
      s.tileFault t code kind payload = s.setTile t { s.tile t with issuing := false, held := [] })

/-- R123, R126, R140, R141, R149, R176. WAIT_RELEASE issues a held BELL.WAIT once a fire is counted, and changes nothing while it
is not. A receive held on its empty queue for 2^STALL_EXP enabled cycles raises QUEUE_STALL with the queue and its last
sender; a held MV.WAIT raises WAIT_STALL; a tile past bundle 1,023 raises NO_END. Completing, with the next state of its own
effect under its clause's conditions: WAIT_RELEASE, QUEUE_STALL, WAIT_STALL, NO_END. -/
def Claims.HeldBundleEvents : Prop :=
  ∀ (s : State) (t : TileId), s.acts t = true → (s.tile t).faulted = none →
    (∀ port : BitVec 2, (s.tile t).held = [.bellWait t port 0] → (s.tile t).issuing = true →
      (s.tile t).bellBound port.toNat = true →
      (tget 0 (s.tile t).fireCnt port.toNat = 0 → exec (.waitRelease t) s = .next s) ∧
      (0 < tget 0 (s.tile t).fireCnt port.toNat → (s.tile t).canaryRunning = false →
        ∃ s', exec (.waitRelease t) s = .next s' ∧ (s'.tile t).held = [] ∧
          tget 0 (s'.tile t).fireCnt port.toNat = tget 0 (s.tile t).fireCnt port.toNat - 1 ∧
          (s'.tile t).pc = (s.tile t).advance.pc ∧ (s'.tile t).bundlesIssued = (s.tile t).bundlesIssued + 1 ∧
          (s'.tile t).sregs = (s.tile t).sregs ∧ (s'.tile t).mem = (s.tile t).mem)) ∧
    (∀ (queue : BitVec 3) (len : BitVec 2) (sD : BitVec 5), (s.tile t).held = [.qRecv t queue len sD 0] →
      ((s.tile t).queue queue.toNat).entries = [] →
      ((s.tile t).heldFor < 2 ^ ((s.tile t).qctl.toNat % 32) → exec (.queueStall t) s = .next s) ∧
      (2 ^ ((s.tile t).qctl.toNat % 32) ≤ (s.tile t).heldFor →
        exec (.queueStall t) s = .next (s.tileFault t 0x022D .stall
          ((((s.tile t).queue queue.toNat).lastSender.getD 0xFFFFFFFF) * 2 ^ 32 + 2 ^ 19 + queue.toNat * 2 ^ 16
            + (4 * 2 ^ 13 + (s.tile t).bundle))))) ∧
    (∀ (mask : BitVec 16) (n : Nat), (s.tile t).held = [.mvWait t mask 0] → n < 16 → mask.getLsbD n = true →
      ((s.tile t).tag n).st = .active →
      (2 ^ ((s.tile t).qctl.toNat % 32) ≤ (s.tile t).heldFor →
        exec (.waitStall t) s = .next (s.tileFault t 0x022E .stall (3 * 2 ^ 13 + (s.tile t).bundle)))) ∧
    (s.canIssue t = true → 1024 ≤ (s.tile t).pc →
      exec (.noEnd t) s = .next (s.tileFault t 0x0227 .program (7 * 2 ^ 13 + 1023)))

/-- What a tile fault does, and the events of a held bundle: `Claims.TileFaultEffect` and `Claims.HeldBundleEvents`. -/
def Obligations.FaultsAndHeldBundles : Prop :=
  Claims.TileFaultEffect ∧ Claims.HeldBundleEvents

/-- R88, R159, R161, R474. A cadence asked for applies at a tile-cycle count that is 0 modulo 8 and at no other. SCRUB_SLOT in an
enabled cycle in which the bank's slot of the span is due drops the write-backs of lines written since, then writes back the
bank's first corrected line, whose single-bit errors are gone, or, with none waiting and a row stored without error, moves
the walk to the next of 1,024 rows; in any other cycle it does nothing. A slot a span has missed is counted in its 1 s window
and reported once in it. Completing, with the next state of its own effect under its clause's conditions: CADENCE_APPLY,
SCRUB_SLOT. -/
def Obligations.CadenceAndScrubber : Prop :=
  (∀ (s : State) (c k : Nat), (s.cluster c).nextCadence = some k →
    exec (.cadenceApply c) s
      = .next (if s.cc % 8 = 0 then s.modCluster c fun x => { x with cadence := k, nextCadence := none } else s)) ∧
  (∀ (s : State) (t : TileId) (b : Nat),
    ((s.acts t = false ∨ (s.tile t).slotDue (s.tile t).arrStep b = false) → exec (.scrubSlot t b) s = .next s) ∧
    (s.acts t = true → (s.tile t).slotDue (s.tile t).arrStep b = true →
      (∀ (e : Nat × Bool) (r : List (Nat × Bool)), (tget [] (s.tile t).corrList b).filter (fun e => !e.2) = e :: r →
        ∃ s', exec (.scrubSlot t b) s = .next s' ∧ s' = s.setTile t (s'.tile t) ∧ (s'.tile t).slotted.getLsbD b = true ∧
          tget [] (s'.tile t).corrList b = r.filter (fun k => k.1 ≠ e.1) ∧
          (∀ w, w / 4 = e.1 → popcount39 (tget 0 (s.tile t).flips w) = 1 → tget 0 (s'.tile t).flips w = 0) ∧
          (s'.tile t).mem = (s.tile t).mem) ∧
      ((tget [] (s.tile t).corrList b).filter (fun e => !e.2) = [] → (s.tile t).flips = [] →
        exec (.scrubSlot t b) s = .next (s.setTile t { s.tile t with
          slotted := (s.tile t).slotted ||| BitVec.ofNat 16 (2 ^ b)
          low := (s.tile t).low ++ [(b, .scrub)]
          corrList := tset (s.tile t).corrList b []
          walk := tset (s.tile t).walk b ((tget 0 (s.tile t).walk b + 1) % 1024) }))) ∧
    ((s.missSlot t).tile t).missed = (if (s.tile t).missWin = s.now / 1000000000 then (s.tile t).missed + 1 else 1) ∧
    ((s.missSlot t).tile t).scrubReported = true ∧
    ((s.tile t).missWin = s.now / 1000000000 → (s.tile t).scrubReported = true → (s.missSlot t).eventCount = s.eventCount))

/-- R123, R199, R200, R202, R203. A ring in flight raises its port's pending count (BELL_OVERFLOW at 255). A cluster channel of
MODE 1 whose one bound port has a ring pending fires it, and one whose port has none does nothing; a fire raises the port's
fire count, which stays at 255 for a tile that has ended. Completing, with the next state of its own effect under its
clause's conditions: BELL_RING_ARRIVE, BELL_CHANNEL_EVALUATE, BELL_FIRE_ARRIVE. -/
def Claims.BellsRingAndFire : Prop :=
  ∀ (s : State) (t : TileId) (port : Nat),
    (∀ (b : Nat) (r : List (Nat × Nat)), (s.tile t).ringsFlying = (port, b) :: r →
      (tget 0 (s.tile t).pendRings port < 255 →
        exec (.bellRingArrive t port) s = .next (s.setTile t { s.tile t with
          ringsFlying := r, pendRings := tset (s.tile t).pendRings port (tget 0 (s.tile t).pendRings port + 1) })) ∧
      (255 ≤ tget 0 (s.tile t).pendRings port → (s.tile t).faulted = none →
        (∀ p, s.partOf t = some p → s.afterDone p = false) →
        ∃ s', exec (.bellRingArrive t port) s = .next s' ∧ (s'.tile t).issuing = false ∧
          (s'.tile t).pendRings = (s.tile t).pendRings ∧ s'.eventCount > s.eventCount)) ∧
    (∀ c chan : Nat, s.boundPorts c chan = [(t, port)] → chanMode (s.chanWord c chan) = 1 →
      (s.ringPending (t, port) = true →
        exec (.bellChannelEvaluate c chan) s = .next (s.setTile t { s.tile t with
          pendRings := tset (s.tile t).pendRings port (tget 0 (s.tile t).pendRings port - 1)
          firesFlying := (s.tile t).firesFlying ++ [port] })) ∧
      (s.ringPending (t, port) = false → exec (.bellChannelEvaluate c chan) s = .next s)) ∧
    (∀ r : List Nat, (s.tile t).firesFlying = port :: r →
      (tget 0 (s.tile t).fireCnt port < 255 →
        exec (.bellFireArrive t port) s = .next (s.setTile t { s.tile t with
          firesFlying := r, fireCnt := tset (s.tile t).fireCnt port (tget 0 (s.tile t).fireCnt port + 1) })) ∧
      (255 ≤ tget 0 (s.tile t).fireCnt port → (s.tile t).ended = true →
        exec (.bellFireArrive t port) s = .next (s.setTile t { s.tile t with firesFlying := r })))

/-- R89, R125, R199, R204, R216. In an enabled cycle a drained tile, its mark writes complete, rings the tide-complete bell,
once. When every tile of an OPEN partition has rung, the partition is CLOSING with its bell ready. The fault bell of a
partition stops every tile and unit of it and is then used up. The model's own choice of log entry 48 stands in it.
Completing, with the next state of its own effect under its clause's conditions: TIDE_COMPLETE_RING, PARTITION_TIDE_COMPLETE,
FAULT_BELL. -/
def Claims.TideBells : Prop :=
  (∀ (s : State) (t : TileId), (s.tile t).rung = false →
    ((s.tile t).drained = true → s.acts t = true →
      exec (.tideCompleteRing t) s = .next (s.setTile t { s.tile t with rung := true })) ∧
    (((s.tile t).drained = false ∨ s.acts t = false) → exec (.tideCompleteRing t) s = .next s)) ∧
  (∀ (s : State) (p : Nat), (s.part p).st = .open_ → (s.part p).awaiting = false →
    ((∀ t ∈ s.tilesOf p, (s.tile t).rung = true) →
      exec (.partitionTideComplete p) s = .next (s.modPart p fun q => { q with st := .closing, bellReady := true })) ∧
    ((∃ t ∈ s.tilesOf p, (s.tile t).rung = false) → exec (.partitionTideComplete p) s = .next s)) ∧
  (∀ (s : State) (p : Nat), (s.part p).faultBell = true →
    ∃ s', exec (.faultBell p) s = .next s' ∧ (s'.part p).faultBell = false ∧ (s'.part p).halted = true ∧
      (∀ t ∈ s.tilesOf p, (s'.tile t).issuing = false ∧ (s'.tile t).held = [] ∧ (s'.tile t).mem = (s.tile t).mem) ∧
      (∀ t, t ∉ s.tilesOf p → s'.tile t = s.tile t) ∧ s'.eventCount = s.eventCount)

/-- Rings, fires and the bells of a tide: `Claims.BellsRingAndFire` and `Claims.TideBells`. -/
def Obligations.BellsAndTideBells : Prop :=
  Claims.BellsRingAndFire ∧ Claims.TideBells

/-- R126, R173, R213, R216. TIDE_START outside a job, of the first tide of a run, of the next tide after a boundary gap with no
stop asked for and no table still to be written, or of a replay whose tables are in place, with no step change due and no
cause: the partition is OPEN in its tide with fresh counts, its start is now, and every tile of it that is up issues from its
entry bundle with empty queues and no fault. The model's own choice of log entry 119 stands in it. Completing, with the next
state of its own effect under its clause's conditions: TIDE_START. -/
def Claims.TideStartsEveryTile : Prop :=
  ∀ (s : State) (p : Nat), (s.part p).inJob = false → (s.part p).cause = none → s.startHeld p = false →
    (((s.part p).st = .boundary ∧ (s.part p).stopPending = false ∧ (s.part p).single = none ∧ (s.part p).tablesDue = false ∧
        (s.part p).nextStartT ≤ s.time) ∨
      ((s.part p).st = .open_ ∧ (s.part p).awaiting = true ∧
        ((s.part p).replaying = true → (s.part p).stopPending = false ∧ s.tablesFlying p = false))) →
    ∃ s', exec (.tideStart p) s = .next s' ∧ (s'.part p).st = .open_ ∧ (s'.part p).awaiting = false ∧
      (s'.part p).startT = s.time ∧ (s'.part p).tide = (s.part p).tide ∧
      (s'.part p).replaying = (decide ((s.part p).st = .open_) && (s.part p).replaying) ∧
      (s'.part p).cause = none ∧ (s'.part p).faultBell = false ∧ (s'.part p).halted = false ∧ (s'.part p).results = [] ∧
      (∀ t ∈ s.tilesOf p, (s'.tile t).pc = (s.tile t).entry ∧ (s'.tile t).issuing = !(s.down t) ∧
        (s'.tile t).ended = false ∧ (s'.tile t).faulted = none ∧ (s'.tile t).queues = [] ∧ (s'.tile t).loops = [] ∧
        (s'.tile t).mem = (s.tile t).mem ∧ (s'.tile t).sregs = (s.tile t).sregs) ∧
      (∀ t, t ∉ s.tilesOf p → s'.tile t = s.tile t)

/-- R213, R217. TIDE_COMMIT outside a job, once the bell has rung, the results are in and no fault is stamped: the partition is
in the boundary gap of the next tide number, its commit point is now, one more tide counts as committed, and its next start
is the later of the nominal end and the gap's end. While a cause is stamped, nothing commits. Completing, with the next state
of its own effect under its clause's conditions: TIDE_COMMIT. -/
def Claims.TideCommitTakesEffect : Prop :=
  ∀ (s : State) (p : Nat), (s.part p).st = .closing → (s.part p).bellReady = true → (s.part p).resultsIn = true →
    (s.part p).inJob = false →
    ((s.part p).cause = none →
      ∃ s', exec (.tideCommit p) s = .next s' ∧ (s'.part p).st = .boundary ∧
        (s'.part p).tide = ((s.part p).tide + 1) % 2 ^ 48 ∧ (s'.part p).commitT = s.time ∧
        (s'.part p).tidesCommitted = ((s.part p).tidesCommitted + 1) % 2 ^ 48 ∧
        (s'.part p).nextStartT = max ((s.part p).startT + nominalOf (s.params p) (s.part p).tide * cycleUnits s.power.step)
          (s.time + 1024 * cycleUnits s.power.step) ∧
        (s'.part p).replaying = false ∧ (s'.part p).replays = 0) ∧
    ((s.part p).cause ≠ none → exec (.tideCommit p) s = .next s)

/-- A tide starts every tile; what its commit takes into effect: `Claims.TideStartsEveryTile` and `Claims.TideCommitTakesEffect`. -/
def Obligations.TideStartAndCommit : Prop :=
  Claims.TideStartsEveryTile ∧ Claims.TideCommitTakesEffect

/-- R145, R216, R218, R268. ABANDON of a running tide outside a job: the partition is ABANDONING, no tile of it issues or holds
an operation or keeps an ordinary descriptor, its fault bell is used up, and no verdict or result of the tide is left. A
partition with no cause stamped is not abandoned. Completing, with the next state of its own effect under its clause's
conditions: ABANDON. -/
def Claims.AbandonStopsThePartition : Prop :=
  ∀ (s : State) (p : Nat), (s.part p).inJob = false →
    ((s.part p).st = .open_ ∨ (s.part p).st = .closing ∨ (s.part p).st = .boundary) →
    ((s.part p).cause = none → exec (.abandon p) s = .next s) ∧
    ((s.part p).cause ≠ none →
      ∃ s', exec (.abandon p) s = .next s' ∧ (s'.part p).st = .abandoning ∧ (s'.part p).faultBell = false ∧
        (s'.part p).verdicts = [] ∧ (s'.part p).results = [] ∧ (s'.part p).settled = false ∧
        (∀ t ∈ s.tilesOf p, (s'.tile t).issuing = false ∧ (s'.tile t).held = [] ∧ (s'.tile t).run = none ∧
          (s'.tile t).pendRun = none ∧ (s'.tile t).tails = [] ∧
          ∀ n, ((s'.tile t).tag n).st = .active → ((s'.tile t).tag n).shadow = true))

/-- R216, R221, R222, R224, R328. ABANDON_SETTLED outside a job, once no write of the partition is on its way and no command
waits for the run to end: its fabric endpoints are cleared first where it has any; then a hardware fault leads to recovery
while replays are left; a stall of a new bundle, or a fault with no cause, replays at once with one more replay counted; a
stop or program fault, and one replay too many, end the run in LOADED. The tide counts as abandoned. The model's own choice
of log entry 57 stands in it. Completing, with the next state of its own effect under its clause's conditions:
ABANDON_SETTLED. -/
def Claims.AbandonOutcome : Prop :=
  ∀ (s : State) (p : Nat) (c : FaultCause), (s.part p).inJob = false → (s.part p).st = .abandoning →
    (s.part p).settled = false → s.writesFlying p = false → (s.part p).cause = some c → (s.part p).causes = [c] →
    c.code ≠ 0x0701 → (s.part p).freeAbandons = 0 → s.nothingHeld →
    ((s.part p).cleared = false → s.hasEndpoints p = true → exec (.abandonSettled p) s = .next (s.clearEndpoints p)) ∧
    (((s.part p).cleared = true ∨ s.hasEndpoints p = false) → ∃ s', exec (.abandonSettled p) s = .next s' ∧
      (s'.part p).tidesAbandoned = ((s.part p).tidesAbandoned + 1) % 2 ^ 32 ∧
      ((s.part p).replays < (s.params p).replayLimit →
        (c.kind = .hardware → (s'.part p).st = .recovering) ∧
        (c.kind = .stall → (s.part p).stallSeen = [] →
          (s'.part p).st = .open_ ∧ (s'.part p).awaiting = true ∧ (s'.part p).replays = (s.part p).replays + 1)) ∧
      ((c.kind = .stop ∨ c.kind = .program ∨ (s.params p).replayLimit ≤ (s.part p).replays) →
        (s'.part p).st = .loaded ∧ (s'.part p).cause = none ∧ (s'.part p).replays = 0))

/-- An abandon stops the partition; how it settles: `Claims.AbandonStopsThePartition` and `Claims.AbandonOutcome`. -/
def Obligations.AbandonedTides : Prop :=
  Claims.AbandonStopsThePartition ∧ Claims.AbandonOutcome

/-- R220, R222, R472. RECOVERY with no reason to stop makes the repairs left, after which none is left, and clears the cause;
RECOVERY_COMPLETE, with nothing to repair, no reset running and no unit tripped, makes the partition await its replay;
STOP_POINT at the end of a boundary gap, or before a replay, with a stop asked for (or of a single tide) puts it in LOADED.
Completing, with the next state of its own effect under its clause's conditions: RECOVERY, RECOVERY_COMPLETE, STOP_POINT. -/
def Obligations.RecoveryAndStopPoint : Prop :=
  ∀ (s : State) (p : Nat), (s.part p).inJob = false → s.nothingHeld →
    ((s.part p).st = .recovering → (s.part p).repairLeft = true → (s.repairAll p).recoveryStop p = none →
      exec (.recovery p) s = .next ((s.repairAll p).modPart p fun q => { q with cause := none }) ∧
      ((s.repairAll p).part p).repairLeft = false) ∧
    ((s.part p).st = .recovering → (s.part p).repairLeft = false → s.recoveryStop p = none →
      exec (.recovery p) s = .next (s.modPart p fun q => { q with cause := none })) ∧
    ((s.part p).st = .recovering → (s.part p).repairLeft = false → (s.part p).cause = none → s.recoveryStop p = none →
      s.resetsLeft p = false → s.tripLeft p = false → (s.part p).recovered = false →
      ∃ s', exec (.recoveryComplete p) s = .next s' ∧ (s'.part p).st = .open_ ∧ (s'.part p).awaiting = true ∧
        (s'.part p).replaying = true ∧ (s'.part p).replays = (s.part p).replays + 1 ∧
        (s'.part p).admitted = (s.part p).admitted ∧ (s'.part p).tide = (s.part p).tide) ∧
    ((s.part p).st = .boundary → (s.part p).cause = none → (s.part p).nextStartT ≤ s.time →
      ((s.part p).stopPending = true ∨ (s.part p).single ≠ none) →
      ∃ s', exec (.stopPoint p) s = .next s' ∧ (s'.part p).st = .loaded ∧ (s'.part p).stopPending = false ∧
        (s'.part p).single = none) ∧
    ((s.part p).st = .open_ → (s.part p).awaiting = true → (s.part p).replaying = true → (s.part p).stopPending = true →
      ∃ s', exec (.stopPoint p) s = .next s' ∧ (s'.part p).st = .loaded ∧ (s'.part p).stopPending = false ∧
        (s'.part p).tide = (s.part p).tide) ∧
    ((s.part p).st = .boundary → (s.part p).stopPending = false → (s.part p).single = none →
      exec (.stopPoint p) s = .next s)

/-- R89, R169 to R171, R174, R179. An unharmed queue entry that arrives over a link that has carried nothing yet in the cycle and
on which none is held, no mover write beside it and no held entry that comes first in the order of R170 ready: absorbed and
counted by a tile that absorbs, put into its queue where there is room, behind all but the entries of the same cycle that
come after it in the order of R170, else held at the receiving end with the sender told. It leaves the link, and once it is
in a queue or absorbed it no longer counts as in flight. A link that has carried an entry in the cycle carries no other.
Completing, with the next state of its own effect under its clause's conditions: LINK_TRANSFER_ARRIVE. -/
def Claims.LinkEntryArrival : Prop :=
  ∀ (s : State) (t u : TileId) (dir n : Nat) (e : QEntry) (r : List LinkMsg), s.neighbour t dir = some u → u ≠ t →
    dir < 4 → s.portsAct t = true → tget [] (s.tile t).hold dir = [] →
    tget [] (s.tile u).out ((dir + 2) % 4) = .entry n e :: r → (∀ m ∈ r, isEntry m = true) →
    (s.absorbing t = true ∨ (s.tile t).qRoom n < e.words.length ∨ (s.tile t).readyBefore n dir = false) →
    e.sender = u → u < 80640 → e.words.length ≤ 4 →
    ((tget (0, 0) (s.tile t).linkUse dir).1 ≠ 0 → s.down t = false → exec (.linkTransferArrive t dir 0) s = .next s) ∧
    (tget (0, 0) (s.tile t).linkUse dir = (0, 0) → ∃ s', exec (.linkTransferArrive t dir 0) s = .next s' ∧
      tget [] (s'.tile u).out ((dir + 2) % 4) = r ∧
      (s.absorbing t = true →
        ((s'.tile t).queue n).absorbed = ((s.tile t).queue n).absorbed + 1 ∧
        ((s'.tile t).queue n).entries = ((s.tile t).queue n).entries ∧
        (s'.tile u).entriesFlying = (s.tile u).entriesFlying - 1) ∧
      (s.absorbing t = false → (s.tile t).qEn n = true → e.words.length ≤ (s.tile t).qRoom n →
        ((s'.tile t).queue n).entries
          = ((s.tile t).queue n).entries.take (((s.tile t).queue n).entries.length - ((s.tile t).laterThan n dir).length)
            ++ [{ e with link := dir }]
            ++ ((s.tile t).queue n).entries.drop (((s.tile t).queue n).entries.length - ((s.tile t).laterThan n dir).length) ∧
        ((s.tile t).laterThan n dir = [] → ((s'.tile t).queue n).lastSender = some u) ∧
        (s'.tile u).entriesFlying = (s.tile u).entriesFlying - 1) ∧
      (s.absorbing t = false → (s.tile t).roomAt n dir < e.words.length →
        tget [] (s'.tile t).hold dir = [(n, { e with link := dir })] ∧
        ((s'.tile t).queue n).entries = ((s.tile t).queue n).entries) ∧
      (s'.tile t).mem = (s.tile t).mem ∧ (s'.tile t).sregs = (s.tile t).sregs)

/-- R89, R169 to R171, R174. In an enabled cycle: a held entry enters its queue once there is room and no entry that comes first
is ready, before the entries of the same cycle that come after it, and the hold is cleared; else, where the tile does not
absorb, nothing happens. A credit in flight is added to its count. Hold and release signals in flight set and clear the block
of their link; an absorb signal ends credit waits on it. Completing, with the next state of its own effect under its clause's
conditions: HELD_ENTRY_ENTER, CREDIT_RETURN, HOLD_SIGNAL_ARRIVE, RELEASE_SIGNAL_ARRIVE, ABSORB_SIGNAL_ARRIVE. -/
def Claims.LinkSignalsAndCredits : Prop :=
  ∀ (s : State) (t : TileId) (dir : Nat), dir < 4 → s.portsAct t = true →
    (∀ (n : Nat) (e : QEntry), tget [] (s.tile t).hold dir = [(n, e)] → s.absorbing t = false →
      (e.words.length ≤ (s.tile t).qRoom n → (s.tile t).readyBefore n dir = false → ∃ s', exec (.heldEntryEnter t dir) s = .next s' ∧
        tget [] (s'.tile t).hold dir = [] ∧ ((s'.tile t).queue n).entries
          = ((s.tile t).queue n).entries.take (((s.tile t).queue n).entries.length - ((s.tile t).laterThan n dir).length)
            ++ [e]
            ++ ((s.tile t).queue n).entries.drop (((s.tile t).queue n).entries.length - ((s.tile t).laterThan n dir).length)) ∧
      (((s.tile t).roomAt n dir < e.words.length ∨ (s.tile t).readyBefore n dir = true) → exec (.heldEntryEnter t dir) s = .next s)) ∧
    (∀ (q w : Nat) (r : List (Nat × Nat)), (s.tile t).creditsFlying = (dir * 8 + q, w) :: r →
      exec (.creditReturn t dir q) s = .next (s.setTile t { s.tile t with
        creditsFlying := r
        credits := tset (s.tile t).credits (dir * 8 + q) (tget 0 (s.tile t).credits (dir * 8 + q) + w) })) ∧
    (∀ r : List (Nat × Nat), (s.tile t).sigFlying = (dir, 0) :: r →
      exec (.holdSignalArrive t dir) s = .next (s.setTile t { s.tile t with
        sigFlying := r, blocked := (s.tile t).blocked ||| BitVec.ofNat 4 (2 ^ dir) })) ∧
    (∀ r : List (Nat × Nat), (s.tile t).sigFlying = (dir, 1) :: r →
      exec (.releaseSignalArrive t dir) s = .next (s.setTile t { s.tile t with
        sigFlying := r, blocked := (s.tile t).blocked &&& ~~~(BitVec.ofNat 4 (2 ^ dir)) })) ∧
    (∀ r : List (Nat × Nat), (s.tile t).sigFlying = (dir, 2) :: r →
      exec (.absorbSignalArrive t dir) s = .next (s.setTile t { s.tile t with
        sigFlying := r, farAbsorbs := (s.tile t).farAbsorbs ||| BitVec.ofNat 4 (2 ^ dir) }))

/-- Entries, signals and credits on neighbour links: `Claims.LinkEntryArrival` and `Claims.LinkSignalsAndCredits`. -/
def Obligations.LinkEntriesAndSignals : Prop :=
  Claims.LinkEntryArrival ∧ Claims.LinkSignalsAndCredits

/-- R89, R170, R172 to R174, R427. In an enabled cycle, and of a tile that is down: the first egress entry leaves its buffer once
the router's port has room; while the ingress buffer is not full, a delivered entry enters its queue where there is room,
none of the queue is parked and no held entry is ready before it, else is parked; it is absorbed and counted by a tile that
absorbs; with the buffer full it waits; a parked entry enters once there is room. (No place of an entry comes after the
ingress buffer in the order of R170.) Completing, with the next state of its own effect under its clause's conditions:
EGRESS_DEPART, MESH_ENTRY_ARRIVE, PARKED_ENTRY_ENTER. -/
def Obligations.MeshRouteEntries : Prop :=
  ∀ (s : State) (t : TileId), (∀ n, (s.tile t).laterThan n 4 = []) →
    (∀ (p : Packet) (r : List Packet), (s.tile t).egress = p :: r →
      (s.portsAct t = true → s.localRoom t p = true →
        exec (.egressDepart t) s = .next ((s.setTile t { s.tile t with egress := r }).sendToTile t p.dst p)) ∧
      ((s.portsAct t = false ∨ s.localRoom t p = false) → exec (.egressDepart t) s = .next s)) ∧
    (∀ (p : Packet) (r : List Packet), s.arrived = p :: r → p.kind = .entry → p.dst = t → p.failed = false → p.src ≠ t →
      s.portsAct t = true → ∃ s', exec (.meshEntryArrive t) s = .next s' ∧
        (s.absorbing t = true → s'.arrived = r ∧
          ((s'.tile t).queue p.queue).absorbed = ((s.tile t).queue p.queue).absorbed + 1) ∧
        (s.absorbing t = false → (s.tile t).qEn p.queue = true → p.words.length ≤ (s.tile t).qRoom p.queue →
          (s.tile t).ingress.length < 8 → (∀ i ∈ (s.tile t).ingress, i.1 ≠ p.queue) →
          (s.tile t).readyBefore p.queue 4 = false → s'.arrived = r ∧
          ((s'.tile t).queue p.queue).entries
            = ((s.tile t).queue p.queue).entries ++ [{ words := p.words, sender := p.src }]) ∧
        (s.absorbing t = false → (s.tile t).qEn p.queue = true → (s.tile t).qRoom p.queue < p.words.length →
          (s.tile t).ingress.length < 8 → s'.arrived = r ∧
          (s'.tile t).ingress = (s.tile t).ingress ++ [(p.queue, { words := p.words, sender := p.src })]) ∧
        (s.absorbing t = false → (s.tile t).qEn p.queue = true → 8 ≤ (s.tile t).ingress.length → s' = s)) ∧
    (∀ (n : Nat) (e : QEntry) (r : List (Nat × QEntry)), (s.tile t).ingress = (n, e) :: r → s.absorbing t = false →
      s.portsAct t = true →
      (e.words.length ≤ (s.tile t).qRoom n → (s.tile t).readyBefore n 4 = false → ∃ s', exec (.parkedEntryEnter t n) s = .next s' ∧ (s'.tile t).ingress = r ∧
        ((s'.tile t).queue n).entries = ((s.tile t).queue n).entries ++ [e]) ∧
      (((s.tile t).qRoom n < e.words.length ∨ (s.tile t).readyBefore n 4 = true) → exec (.parkedEntryEnter t n) s = .next s))

/-- R157, R163, R164. Bytes written to a scratchpad whose words hold no stored error read back as written, and every other byte
of it, and of every other tile, reads as before. The model's own choice of log entry 25 stands in it. -/
def Claims.LocalWriteStoresTheBytes : Prop :=
  ∀ (s : State) (t : TileId) (a : Nat) (b : List Byte) (remote req : Nat), Memory.wf (s.tile t).mem = true →
    (s.tile t).flips = [] →
    (∀ i, memGet ((s.writeLocal t a b remote req).tile t).memNow i
      = if a ≤ i ∧ i < a + b.length then b.getD (i - a) 0 else memGet (s.tile t).memNow i) ∧
    ((s.writeLocal t a b remote req).tile t).sregs = (s.tile t).sregs ∧
    ((s.writeLocal t a b remote req).tile t).queues = (s.tile t).queues ∧
    (∀ u, u ≠ t → (s.writeLocal t a b remote req).tile u = s.tile u) ∧
    (s.writeLocal t a b remote req).hbm = s.hbm ∧ (s.writeLocal t a b remote req).parts = s.parts

/-- R153, R157, R164. Row 7 of the bank ports: in one cycle an access of the mover or of a remote tile is granted lines of
different banks only, each in a bank that no requester of rows 1 to 6 needs, the mover at most 4 read and 4 written in all;
the lines not granted remain. While one access of a side is at hand, another of that side does nothing. The model's own
choice of log entry 131 stands in it. -/
def Claims.RowSevenPorts : Prop :=
  (∀ (y x : Tile) (remote : Bool) (ls : List (Nat × Bool)), ∃ g : List (Nat × PortUser),
    (Tile.servePort y remote ls x).1 = { x with low := x.low ++ g, rmTurn := (Tile.servePort y remote ls x).1.rmTurn } ∧
    (g.map Prod.fst).Nodup ∧ g.length + (Tile.servePort y remote ls x).2.length = ls.length ∧
    (∀ e ∈ g, (x.lines.any fun p => p.1 = e.1) = false ∧ y.arrNeeds e.1 = false ∧ x.slotted.getLsbD e.1 = true ∧
      (x.low.any fun p => p.1 = e.1) = false) ∧
    (remote = false → ∀ u, ((x.low ++ g).filter fun p => p.2 = u).length ≤ max 4 (x.low.filter fun p => p.2 = u).length)) ∧
  (∀ (y x : Tile) (l : Nat × Bool), x.portFree y (bankOfLine l.1) = true → x.mvBusy = none →
    (Tile.servePort y true [l] x).2 = []) ∧
  (∀ (s : State) (t : TileId) (remote : Bool) (key k : Nat) (ls : List (Nat × Bool)) (f : State → State),
    (s.tile t).busy remote = some (k, ls) → k ≠ key → s.atPort t remote key f = s)

/-- R164, R166, R245, R266. A remote access at a tile that is down is absorbed, counted, and answered as failed (a read with zero
bytes). One at a tile that acts takes the ports of its lines, and then a read of words without error is answered with their
bytes, a write stores them, an accumulate adds, and both are acknowledged; a write of the service tree is not. Accesses
waiting for a page's move go on once the page is not moving. The model's own choices of log entries 49 and 131 stand in it.
Completing, with the next state of its own effect under its clause's conditions: REMOTE_ACCESS_ARRIVE, WAITING_ACCESS_RESUME. -/
def Claims.RemoteAccessAndResume : Prop :=
  (∀ (s : State) (t : TileId) (p : Packet) (r : List Packet), s.arrived = p :: r → isRemote p = true → p.dst = t →
    (s.acts t = true → exec (.remoteAccessArrive t) s = .next (s.atPort t true 0 fun u => u.takeRemote t)) ∧
    (s.down t = true → exec (.remoteAccessArrive t) s = .next ((({ s with arrived := r } : State).noteAbsorbed t).answerRemote t p
        (if p.kind = .readReq then List.replicate p.len 0 else []) true)) ∧
    (s.down t = false →
      (p.kind = .readReq → (s.tile t).flips = [] →
        s.takeRemote t = (({ s with arrived := r } : State).modTile t fun x =>
          x.touch ((linesOf (wordsOf (p.addr % 262144) p.len)).map fun l => (l, false))).answerRemote t p
            (memBytes (s.tile t).memNow (p.addr % 262144) p.len) false) ∧
      (p.kind = .write ∨ p.kind = .mgmt → s.takeRemote t = (({ s with arrived := r } : State).writeLocal t (p.addr % 262144) p.data
        (if p.unit = .none then p.src else 0) 7).answerRemote t p [] false) ∧
      (p.kind = .accWrite → s.takeRemote t = (({ s with arrived := r } : State).accLocal t (p.addr % 262144 / 4)
        (wordsOfBytes (p.data.length / 4) p.data) (decide (p.acc = 1)) (if p.unit = .none then p.src else 0) 7).answerRemote
          t p [] false))) ∧
  (∀ (s : State) (g : Nat),
    (((s.page g).st = .demoting ∨ (s.page g).st = .promoting) → exec (.waitingAccessResume g) s = .next s) ∧
    (¬ ((s.page g).st = .demoting ∨ (s.page g).st = .promoting) →
      ∃ s', exec (.waitingAccessResume g) s = .next s' ∧ s'.pages = s.pages ∧
        ∀ t n, ((s'.tile t).tag n).waitPage = (if ((s.tile t).tag n).waitPage = some g then none
          else ((s.tile t).tag n).waitPage) ∧ (s'.tile t).mem = (s.tile t).mem))

/-- Writes into a scratchpad from the mesh or the mover, the bank ports they use, and remote accesses:
`Claims.LocalWriteStoresTheBytes`, `Claims.RowSevenPorts` and `Claims.RemoteAccessAndResume`. -/
def Obligations.ScratchpadWritesAndRemoteAccess : Prop :=
  Claims.LocalWriteStoresTheBytes ∧ Claims.RowSevenPorts ∧ Claims.RemoteAccessAndResume

/-- R204, R248, R249. In an enabled cycle of a tile that is up: the tag whose turn it is, with no full buffer to write out, sends
one read of a plain HBM source, recorded as in flight with the next sequence number, at most 64 being in flight, while no
fault of its partition is known; a write's acknowledgement takes its request off the tag; a descriptor with every request
made and answered completes: it writes its completion word where it has one and frees its tag (LANDED for a shadow one). A
tag whose turn it is not sends nothing. Completing, with the next state of its own effect under its clause's conditions:
MOVER_REQUEST, MOVER_RESPONSE, MOVER_COMPLETE. -/
def Obligations.MoverRequestsAndCompletion : Prop :=
  ∀ (s : State) (t : TileId) (n : Nat), s.acts t = true → (s.tile t).mvBusy = none →
    ((s.tile t).turn ≠ some n ∨ (s.tile t).mvIssued = true ∨ s.haltedAt t = true → exec (.moverRequest t n) s = .next s) ∧
    (s.haltedAt t = false → (s.tile t).mvIssued = false → (s.tile t).turn = some n → (s.tile t).markFirst = false →
      (s.tile t).inFlight + (s.tile t).markFlying.length < 64 →
      exec (.moverRequest t n) s = .next (s.atPort t false n fun u => (u.modTile t fun x => x.tagIssues n).moverStep t n) ∧
      (∀ d : Desc, decodeDesc ((s.tile t).tag n).desc = d → d.check = 0 → d.indexed = false → spaceOf d.src = 3 →
        ((s.tile t).tag n).full = false →
        ∃ s' q, exec (.moverRequest t n) s = .next s' ∧
          (((s.tile t).tag n).shadow = false → (s'.tile t).lastTag = n) ∧
          (((s.tile t).tag n).shadow = true → (s'.tile t).lastShadow = n) ∧
          (s'.tile t).reqSeq = (s.tile t).reqSeq + 1 ∧ (s'.tile t).mvIssued = true ∧
          ((s'.tile t).tag n).flying = ((s.tile t).tag n).flying ++ [q] ∧ q.seqNo = (s.tile t).reqSeq ∧ q.isRead = true ∧
          q.row = ((s.tile t).tag n).row ∧ q.pos = ((s.tile t).tag n).pos ∧
          (s'.tile t).mem = (s.tile t).mem ∧ (∀ u, u ≠ t → s'.tile u = s.tile u) ∧ s'.hbm = s.hbm)) ∧
    (∀ (p : Packet) (r : List Packet) (q : MvReq), s.arrived = p :: r → p.kind = .writeDone → p.dst = t → p.tag = n →
      p.toPort = none → p.unit = .none → p.failed = false → s.mayAnswer t n p.seqNo = true →
      (((s.tile t).tag n).flying.find? fun x => x.seqNo = p.seqNo) = some q → q.isRead = false →
      exec (.moverResponse t n) s = .next (({ s with arrived := r } : State).setTile t { s.tile t with
        tags := tset (s.tile t).tags n { (s.tile t).tag n with
          flying := ((s.tile t).tag n).flying.filter fun x => x.seqNo ≠ p.seqNo } })) ∧
    (∀ (g : TagState) (d : Desc), (s.tile t).tag n = g → decodeDesc g.desc = d → (s.tile t).tagDone n = true → d.check = 0 →
      exec (.moverComplete t n) s = .next (s.atPort t false (32 + n) fun u => u.completeTag t n) ∧
      (d.comp = false → exec (.moverComplete t n) s = .next (s.setTile t { s.tile t with
        tags := tset (s.tile t).tags n (if g.shadow then { g with st := .landed } else {}) })) ∧
      (d.comp = true → (s.completeTag t n).tile t = { (s.writeLocal t (4 * d.compWord)
            (leBytes 4 (compValue g.failed false).toNat) 0 6).tile t with
          tags := tset (s.tile t).tags n (if g.shadow then { g with st := .landed } else {}) } ∧
        ((s.completeTag t n).tile t).mem = putWord (s.tile t).memNow d.compWord (compValue g.failed false)))

/-- R185, R188, R189, R196. With nothing to drop at a breakwater, the unharmed flit that an output's arbitration picks passes:
the last flit of a packet for a tile or a port, at its exit port, delivers the packet, an earlier one delivers nothing, and a
flit for the east output goes to the tail of the next router's west buffer of its channel and order. A verdict in the outward
share of an edge channel is delivered to its unit; a packet in the inward share enters the router of its source. The model's
own choice of log entry 3 stands in it. Completing, with the next state of its own effect under its clause's conditions:
ROUTER_FLIT_PASS, EDGE_CHANNEL_PASS. -/
def Obligations.FlitsAndEdgePackets : Prop :=
  (∀ (s : State) (rx ry out inp : Nat) (f : Flit), s.dropForeign rx ry = s → s.arbitrate rx ry out = some (inp, f) →
    s.candidate rx ry out f.pkt.vc inp f.pkt.yFirst = some f →
    (4 ≤ out → f.idx + 1 ≠ f.pkt.flits →
      ∃ s', exec (.routerFlitPass rx ry out 0) s = .next s' ∧ s'.meshTraffic = s.meshTraffic + 1 ∧ s'.tiles = s.tiles ∧
        s'.hbm = s.hbm ∧ s'.arrived = s.arrived) ∧
    (4 ≤ out → f.idx + 1 = f.pkt.flits → f.pkt.unit = .none →
      ∃ s', exec (.routerFlitPass rx ry out 0) s = .next s' ∧ s'.arrived = s.arrived ++ [f.pkt] ∧
        s'.meshTraffic = s.meshTraffic + 1 ∧ s'.tiles = s.tiles ∧ s'.hbm = s.hbm) ∧
    (out = 1 → rx < 147 → ∃ s', exec (.routerFlitPass rx ry out 0) s = .next s' ∧ s'.arrived = s.arrived ∧
      tget [] (s'.router (routerKey (rx + 1) ry)).inq (bufKey 3 (s.half (rx + 1) f.pkt) f.pkt.vc f.pkt.yFirst)
        = tget [] (s.router (routerKey (rx + 1) ry)).inq (bufKey 3 (s.half (rx + 1) f.pkt) f.pkt.vc f.pkt.yFirst) ++ [f])) ∧
  (∀ (s : State) (stripe : Nat) (east : Bool) (p : Packet) (r : List Packet),
    (tget [] s.edge (edgeKey stripe east false) = p :: r → tget [] s.edge (edgeKey stripe east true) = [] →
      p.kind = .verdict → p.unit = .stream →
      exec (.edgeChannelPass stripe east) s
        = .next { s with edge := tset s.edge (edgeKey stripe east false) r, arrived := s.arrived ++ [p] }) ∧
    (tget [] s.edge (edgeKey stripe east false) = [] → tget [] s.edge (edgeKey stripe east true) = p :: r →
      exec (.edgeChannelPass stripe east) s
        = .next (({ s with edge := tset s.edge (edgeKey stripe east true) r } : State).inject 5 p)))

/-- R256. Within every aligned 8 KiB of a stack the 32 granules of 256 bytes lie one in each pseudo-channel, and every byte of a
granule in the same one. -/
def Claims.PseudoChannelsShareOut : Prop :=
  (∀ (b i j : Nat), i < 32 → j < 32 → pseudoChannel (8192 * b + 256 * i) = pseudoChannel (8192 * b + 256 * j) → i = j) ∧
  (∀ (a o : Nat), pseudoChannel a < 32 ∧ (o < 256 → pseudoChannel (a / 256 * 256 + o) = pseudoChannel a)) ∧
  (∀ (a : Nat), BitVec.ofNat 5 (pseudoChannel a) = BitVec.ofNat 5 (a / 2 ^ 8) ^^^ BitVec.ofNat 5 (a / 2 ^ 13) ^^^ BitVec.ofNat 5 (a / 2 ^ 18))

/-- R252, R256, R257, R258. A request delivered to a port with room is queued. A port that is trained and up serves its only
request of a tile, at the pseudo-channel of its first byte: a read without error is answered with the bytes of its stack, a
write stores them and is acknowledged. A VC3 request is served ahead of the others once 7 others have been served while it
waited, and only then. A port in self-refresh or not trained serves nothing. The patrol scrubber takes a VC3 slot: at once
where no other request comes before it, else its read waits for its slot; it notes its place and counts a corrected error.
That it comes before the other VC3 requests is the model's own choice of log entry 159. Completing, with the next state of
its own effect under its clause's conditions: MEMPORT_REQUEST_ARRIVE, MEMPORT_SERVICE, PATROL_SCRUB. -/
def Claims.MemoryPortService : Prop :=
  ∀ (s : State) (m : Nat),
    (∀ (p : Packet) (r : List Packet), s.arrived = p :: r → p.toPort = some m →
      (s.memport m).requests.length < 256 →
      exec (.memportRequestArrive m) s = .next (({ s with arrived := r } : State).modMemport m fun x =>
        { x with requests := x.requests ++ [p] })) ∧
    (((s.memport m).inSelfRefresh = true ∨ (s.memport m).trained = false) →
      (∀ err, exec (.memportService m err) s = .next s) ∧ ∀ o err, exec (.patrolScrub m o err) s = .next s) ∧
    (∀ (a b : Packet), (s.memport m).requests = [a, b] → a.vc = 3 → b.vc ≠ 3 →
      (s.memport m).pick = if 7 ≤ (s.memport m).vc3Skip then some (a, [b]) else some (b, [a])) ∧
    ((s.memport m).tripped = false → (s.memport m).inSelfRefresh = false → (s.memport m).trained = true →
      (∀ p : Packet, (s.memport m).requests = [p] → (s.memport m).scrubs = [] → p.kind = .readReq → p.unit = .none →
        p.tiered = false → exec (.memportService m 0) s = .next ((s.modMemport m fun x =>
          { x with requests := [], vc3Skip := 0, channel := pseudoChannel p.addr }).sendFromPort m p.src
          { kind := .readResp, vc := if p.vc = 3 then 3 else 1
            data := memBytes s.hbm (m * 2 ^ 36 + p.addr) p.len, len := p.len, flits := flitsOf p.len
            tag := p.tag, seqNo := p.seqNo, page := p.page })) ∧
      (∀ p : Packet, (s.memport m).requests = [p] → (s.memport m).scrubs = [] → p.kind = .write → p.unit = .none →
        ∃ s', exec (.memportService m 0) s = .next s' ∧ s'.hbm = memPut s.hbm (m * 2 ^ 36 + p.addr) p.data ∧
          (s'.memport m).requests = [] ∧ (s'.memport m).channel = pseudoChannel p.addr ∧ s'.tiles = s.tiles ∧
          s'.cxl = s.cxl) ∧
      (∀ o : Nat, (s.memport m).scrubs = [] →
        ((∀ p ∈ (s.memport m).requests, p.vc = 3) ∨ 7 ≤ (s.memport m).vc3Skip →
          exec (.patrolScrub m o 1) s = .next (s.modMemport m fun x =>
            { x with vc3Skip := 0, patrol := o / 256, channel := pseudoChannel o, corrected := x.corrected + 1 })) ∧
        ((∃ p ∈ (s.memport m).requests, p.vc ≠ 3) → (s.memport m).vc3Skip < 7 →
          exec (.patrolScrub m o 1) s = .next (s.modMemport m fun x => { x with scrubs := [(o, 1)] }))) ∧
      (∀ (o : Nat) (r : List (Nat × Nat)), (s.memport m).scrubs = (o, 1) :: r → 7 ≤ (s.memport m).vc3Skip →
        exec (.memportService m 0) s = .next (s.modMemport m fun x =>
          { x with scrubs := r, vc3Skip := 0, patrol := o / 256, channel := pseudoChannel o, corrected := x.corrected + 1 })))

/-- R3, R465. A stack of an enabled stripe below 85 °C that is not hot only records its temperature (in 1/16 °C). At 95 °C a
stack that is not tripped trips into self-refresh, its fault raised or, where this device's tide is done in a job, kept until
its tide is known (log entry 163), and the boot path can no longer be warm; below 80 °C a tripped one whose mark reads well
leaves self-refresh, and one not cooled within 5 s times its partition's recovery out. The model's own choice of log entry 18
stands in it. Completing, with the next state of its own effect under its clause's conditions: HBM_TEMP_REPORT,
HBM_TRIP_RECOVERY. -/
def Claims.StackTemperatures : Prop :=
  ∀ (s : State) (m : Nat) (temp : Int),
    (s.stripeOn (m % 8) = false → exec (.hbmTempReport m temp) s = .next s) ∧
    (s.stripeOn (m % 8) = true → temp < 85 * 16 → (s.memport m).hot = false →
      exec (.hbmTempReport m temp) s = .next (s.modMemport m fun x => { x with temp := temp })) ∧
    (s.stripeOn (m % 8) = true → 95 * 16 ≤ temp → (s.memport m).tripped = false →
      ∃ s', exec (.hbmTempReport m temp) s = .next s' ∧ (s'.memport m).tripped = true ∧
        (s'.memport m).inSelfRefresh = true ∧ (s'.memport m).temp = temp ∧ (s'.memport m).tripAt = s.now ∧
        s'.boot.epoOrTrip = true ∧ (s'.eventCount > s.eventCount ∨ s'.bb.waiting.length > s.bb.waiting.length) ∧
        s'.hbm = s.hbm) ∧
    ((s.memport m).tripped = true → temp < 80 * 16 →
      exec (.hbmTripRecovery m temp true) s
        = .next (s.modMemport m fun x => { x with tripped := false, inSelfRefresh := false, temp := temp })) ∧
    (∀ p, (s.memport m).tripped = true → 80 * 16 ≤ temp → s.now > (s.memport m).tripAt + 5000000000 →
      s.partOfPort m = some p →
      exec (.hbmTripRecovery m temp true) s = .next (s.modPart p fun q => { q with recoveryTimeout := true })) ∧
    ((s.memport m).tripped = false → exec (.hbmTripRecovery m temp true) s = .next s)

/-- The pseudo-channels of a stack, memory port service, and the stacks' temperature steps: `Claims.PseudoChannelsShareOut`,
`Claims.MemoryPortService` and `Claims.StackTemperatures`. -/
def Obligations.MemoryPortsAndTemperatures : Prop :=
  Claims.PseudoChannelsShareOut ∧ Claims.MemoryPortService ∧ Claims.StackTemperatures

/-- R265, R267, R272. PAGE_MOVE_START begins the next move of the partition, with fewer than 64 in flight and one free frame for
it in the other tier: the page is DEMOTING or PROMOTING, its destination reserved, its 256-byte requests to come, and the
move is off the list; with 64 in flight, or for another page, nothing begins. PAGE_MOVE_SWITCH switches the entry once every
request is done, and not before; no byte moves then. Completing, with the next state of its own effect under its clause's
conditions: PAGE_MOVE_START, PAGE_MOVE_SWITCH. -/
def Obligations.PageMoves : Prop :=
  ∀ (s : State) (g p : Nat), s.partOfSlot (s.page g).owner = some p →
    (∀ f : Nat, (s.part p).moveQueue = [(g, true, false)] → (s.page g).st = .hbm → (s.part p).moves.length < 64 →
      s.freeCxl p = [f] →
      ∃ s', exec (.pageMoveStart g) s = .next s' ∧ (s'.page g).st = .demoting ∧ (s'.part p).moveQueue = [] ∧
        (s'.part p).moves = (s.part p).moves ++ [{ page := g, dest := f, demote := true, tag := s.unitSeq, sent := (s.page g).cfill }] ∧
        (s'.page g).frame = (s.page g).frame ∧ s'.hbm = s.hbm ∧ s'.cxl = s.cxl ∧ s'.tiles = s.tiles) ∧
    (∀ m f : Nat, (s.part p).moveQueue = [(g, false, false)] → (s.page g).st = .cxl → (s.part p).moves.length < 64 →
      s.bestPort p = some m → s.freeHbm p m = [f] →
      ∃ s', exec (.pageMoveStart g) s = .next s' ∧ (s'.page g).st = .promoting ∧ (s'.part p).moveQueue = [] ∧
        (s'.part p).moves = (s.part p).moves ++ [{ page := g, dest := f, demote := false, tag := s.unitSeq, sent := (s.page g).cfill }] ∧
        s'.uio.length = s.uio.length + (s.page g).cfill ∧
        (s'.page g).frame = (s.page g).frame ∧ s'.hbm = s.hbm ∧ s'.cxl = s.cxl ∧ s'.tiles = s.tiles) ∧
    (64 ≤ (s.part p).moves.length → exec (.pageMoveStart g) s = .next s) ∧
    (∀ (k : Nat) (d b : Bool), (s.part p).moveQueue = [(k, d, b)] → k ≠ g → exec (.pageMoveStart g) s = .next s) ∧
    (∀ (m : Move) (r : List Move), (s.part p).moves = m :: r → m.page = g →
      (m.done ≠ m.sent → exec (.pageMoveSwitch g) s = .next s) ∧
      (m.done = m.sent → ∃ s', exec (.pageMoveSwitch g) s = .next s' ∧
        (m.demote = true → (s'.page g).st = .cxl ∧ (s'.page g).tier = 1) ∧
        (m.demote = false → (s'.page g).st = .hbm ∧ (s'.page g).tier = 0) ∧
        (s'.page g).frame = m.dest ∧ (s'.page g).owner = (s.page g).owner ∧ (s'.page g).cfill = (s.page g).cfill ∧
        (∀ k, k ≠ g → s'.page k = s.page k) ∧ s'.cxl = s.cxl ∧ s'.hbm = s.hbm ∧
        (s'.part p).moves = (m :: r).filter fun u => u.tag ≠ m.tag))

/-- R245, R261, R267, R273, R427. A tile's read of a CXL frame that completes is answered with its bytes, those beyond the page's
fill as 0, unless its partition resets; a request of a page's move stores what it writes. Poison, a timeout or a lost window
fails a read: the frame is retired in the log, its page becomes FREE where it held committed content, and the read is
answered with zeros as failed. A window lost with no request of the frame in flight fails that frame all the same.
Completing, with the next state of its own effect under its clause's conditions: CXL_UIO_COMPLETE, CXL_UIO_TIMEOUT. -/
def Claims.CxlFrameReads : Prop :=
  (∀ (s : State) (f : Nat), s.takeUio f = none → exec (.cxlUioTimeout f false) s = .next s ∧
    exec (.cxlUioTimeout f true) s = .next (s.windowGone f)) ∧
  ∀ (s : State) (u : Uio) (r : List Uio), s.uio = u :: r → u.sent = true → s.uioDropped u = false →
    (u.move = false →
      exec (.cxlUioComplete u.frame false) s = .next (({ s with uio := r } : State).uioAnswer u
        (s.belowFill u.page u.off (memBytes s.cxl (u.frame * 2 ^ 19 + u.off) u.len)) false) ∧
      exec (.cxlUioComplete u.frame true) s = .next ((({ s with uio := r } : State).cxlFail u.part u.frame u.page 0).uioAnswer u
        (List.replicate u.len 0) true) ∧
      exec (.cxlUioTimeout u.frame false) s = .next ((({ s with uio := r } : State).cxlFail u.part u.frame u.page 1).uioAnswer u
        (List.replicate u.len 0) true) ∧
      exec (.cxlUioTimeout u.frame true) s = .next (((({ s with uio := r } : State).cxlFail u.part u.frame u.page 2).uioAnswer u
        (List.replicate u.len 0) true).loseWindow u.frame)) ∧
    (u.move = true → u.write = true → s.moveWanted u = true →
      exec (.cxlUioComplete u.frame false) s = .next (({ s with
        uio := r, cxl := memPut s.cxl (u.frame * 2 ^ 19 + u.off) u.data } : State).moveDone u.part u.tag)) ∧
    (∀ c : Nat, s.frameRetired 1 u.frame = false → (s.cxlFail u.part u.frame u.page c).flash.retired.length = s.flash.retired.length + 1 ∧
      (s.cxlFail u.part u.frame u.page c).retired = s.retired ++ [2 ^ 30 + u.frame] ∧
      (0 < (s.page u.page).cfill → ((s.cxlFail u.part u.frame u.page c).page u.page).st = .free) ∧
      ((s.page u.page).cfill = 0 → (s.cxlFail u.part u.frame u.page c).page u.page = s.page u.page) ∧
      (∀ g, g ≠ u.page → (s.cxlFail u.part u.frame u.page c).page g = s.page g))

/-- R270 to R272. A tiering run of a partition in its boundary gap, its first after the commit, with too few free frames, whose
script ends with 1 in r15 for its only candidate, asks for the demotion of each page of that stream that stands in HBM; with
no candidate, it is only marked as made; made already, with frames enough, outside a boundary gap, or with no script, it does
nothing. Completing, with the next state of its own effect under its clause's conditions: TIERING_SCRIPT_RUN. -/
def Claims.TieringRuns : Prop :=
  ∀ (s : State) (p : Nat),
    (((s.part p).image.bind fun b => b.tiering) = none → exec (.tieringScriptRun p) s = .next s) ∧
    (∀ sec : TieringSec, ((s.part p).image.bind fun b => b.tiering) = some sec →
      ((s.part p).st ≠ .boundary ∨ (s.part p).tierRan = true → exec (.tieringScriptRun p) s = .next s) ∧
      (sec.lowFree ≠ 0 → sec.lowFree ≤ s.freeHbmCount p → exec (.tieringScriptRun p) s = .next s) ∧
      ((s.part p).st = .boundary → (s.part p).tierRan = false → (sec.lowFree = 0 ∨ s.freeHbmCount p < sec.lowFree) →
        s.tierCandidates p sec = [] → exec (.tieringScriptRun p) s = .next (s.modPart p fun q => { q with tierRan := true })) ∧
      (∀ n, (s.part p).st = .boundary → (s.part p).tierRan = false → (sec.lowFree = 0 ∨ s.freeHbmCount p < sec.lowFree) →
        s.tierCandidates p sec = [(n, false)] → s.isAdmitted n = false →
        (runScript sec.code (fun _ => 0) 1024
          { regs := s.tierRegs p (n, false) (s.freeHbmCount p) (s.freeCxl p).length }).2 = true →
        ((runScript sec.code (fun _ => 0) 1024
          { regs := s.tierRegs p (n, false) (s.freeHbmCount p) (s.freeCxl p).length }).1.getD 15 0).toNat = 1 →
        exec (.tieringScriptRun p) s = .next (s.modPart p fun q => { q with
          tierRan := true
          moveQueue := q.moveQueue ++ ((s.pagesOf n).filter fun g => g.2.st = .hbm).map fun g => (g.1, true, false) })))

/-- Reads of CXL frames and the runs of the tiering script: `Claims.CxlFrameReads` and `Claims.TieringRuns`. -/
def Obligations.TieringAndCxlReads : Prop :=
  Claims.CxlFrameReads ∧ Claims.TieringRuns

/-- R264, R274, R282, R406. In a gap, a waiting PAGE_FREE of bound pages none of which moves or is pinned frees them and
completes OK; the owner's copy not coming in time, a waiting PAGE_BIND of that mailbox completes BAD_FIELD at byte 8. A park
to the second tier is done once every page of the stream stands in CXL, and not before. The model's own choice of log entry
31 stands in it. Completing, with the next state of its own effect under its clause's conditions: PARK_COMPLETE,
PAGE_COMMAND_APPLY, PAGE_BIND_TIMEOUT. -/
def Obligations.PageCommandsAndParks : Prop :=
  (∀ (s : State) (p n f k : Nat), (s.part p).gap = true → (s.part p).pageCmds = [.free n f k] →
    (s.part p).streamCmds = [] → (s.mb n).done = false → (∀ g ∈ pageRange f k, (s.page g).st = .free ∨
      (s.partOfSlot (s.page g).owner = some p ∧ ((s.page g).st = .hbm ∨ (s.page g).st = .cxl))) →
    ∃ s', exec (.pageCommandApply p) s = .next s' ∧ (s'.part p).pageCmds = [] ∧ s.answered s' n 0 [] ∧
      (∀ g, f ≤ g → g < f + k → (s'.page g).st = .free) ∧ (∀ g, g < f → s'.page g = s.page g) ∧
      (∀ g, f + k ≤ g → s'.page g = s.page g)) ∧
  (∀ (s : State) (n p f k owner : Nat) (q : Partition), s.parts = [(p, q)] → q.pageCmds = [.bind n f k owner] →
    s.awaitsOwner owner = true → (s.mb n).done = false →
    ∃ s', exec (.pageBindTimeout n) s = .next s' ∧ (s'.part p).pageCmds = [] ∧ (s'.mb n).done = true ∧
      (s'.mb n).status = 0x0103 ∧ (s'.mb n).offset = 8 ∧ s'.pages = s.pages) ∧
  (∀ (s : State) (n : Nat), (s.stream n).parking = true → (s.stream n).parkTarget = 0 → (s.stream n).heldCmd = none →
    (s.stream n).st ≠ .draining → s.job.formed = false → s.preparing = none →
    ((∀ g ∈ s.pagesOf n, g.2.st = .cxl) → ∃ s', exec (.parkComplete n) s = .next s' ∧ (s'.stream n).st = .parked ∧
      (s'.stream n).parking = false ∧ s'.pages = s.pages ∧ s'.eventCount > s.eventCount) ∧
    ((∃ g ∈ s.pagesOf n, g.2.st ≠ .cxl) → exec (.parkComplete n) s = .next s))

/-- R277, R283, R286, R287, R370, R377, R380. STREAM_DOORBELL of a slot of a partition: a write that reaches only the high half,
one made in an outage of the host link and one that does not reach the device change nothing; a producer value within the
ring's room is taken, and the host is read for each new entry, entry i at RING_BASE + 128 + 32 × (i mod 2^(RING_LOG + 4));
one beyond the room stops the ring and drains the stream; a doorbell of a CLOSED or PARKED slot, or of one in no partition,
is counted and otherwise ignored. Completing, with the next state of its own effect under its clause's conditions:
STREAM_DOORBELL. -/
def Claims.StreamDoorbells : Prop :=
  ∀ (s : State) (n p : Nat) (v : Word), n < 8192 → s.streamRoot = true →
    exec (.streamDoorbell n v false) s = .next s ∧
    (s.hostReaches = false ∨ s.link.lost = true → exec (.streamDoorbell n v true) s = .next s) ∧
    (s.hostReaches = true → s.link.lost = false → s.partOfSlot n = none → exec (.streamDoorbell n v true) s
      = .next { s with doorbellsIgnored := (s.doorbellsIgnored + 1) % 2 ^ 32 }) ∧
    (s.hostReaches = true → s.link.lost = false → s.partOfSlot n = some p →
      ((s.stream n).st ≠ .closed → (s.stream n).st ≠ .parked →
        (v.toNat + 2 ^ 32 - (s.stream n).producerSeen) % 2 ^ 32 ≤
          ((s.stream n).consumer + 2 ^ ((s.stream n).ringLog + 4) + 2 ^ 32 - (s.stream n).producerSeen) % 2 ^ 32 →
        exec (.streamDoorbell n v true) s = .next (({ s with
          posted := s.posted ++ (List.range ((v.toNat + 2 ^ 32 - (s.stream n).producerSeen) % 2 ^ 32)).map fun i =>
            Posted.hostRead (s.stream n).part ((s.stream n).ringBase + 128 +
              32 * (((s.stream n).producerSeen + i) % 2 ^ ((s.stream n).ringLog + 4))) 32 } : State).modStream n fun x =>
                { x with producerSeen := v.toNat })) ∧
      (isOpen (s.stream n).st = true →
        ((s.stream n).consumer + 2 ^ ((s.stream n).ringLog + 4) + 2 ^ 32 - (s.stream n).producerSeen) % 2 ^ 32 <
          (v.toNat + 2 ^ 32 - (s.stream n).producerSeen) % 2 ^ 32 →
        ∃ s', exec (.streamDoorbell n v true) s = .next s' ∧ (s'.stream n).st = .draining ∧
          (s'.stream n).drainCause = 5 ∧ (s'.stream n).ringStopped = true ∧
          (s'.stream n).producerSeen = (s.stream n).producerSeen ∧ s.eventCount < s'.eventCount ∧
          (∀ k, k ≠ n → s'.stream k = s.stream k)) ∧
      ((s.stream n).st = .closed ∨ (s.stream n).st = .parked →
        exec (.streamDoorbell n v true) s =
          .next (s.modPart p fun q => { q with doorbellsIgnored := (q.doorbellsIgnored + 1) % 2 ^ 32 })))

/-- R286, R307, R373, R374. A snoop of a ring line held in the cache gives the line up, to be read again; a RING_HEAD_READ of a
line that is due holds it anew, where it may be cached, and takes the completion ring's CONSUMER (keys from 32,768 up, the
model's own numbering, log entry 123) or the stream's producer. A line that is not due is not read. Completing, with the next
state of its own effect under its clause's conditions: RING_SNOOP, RING_HEAD_READ. -/
def Claims.RingHeadLines : Prop :=
  ∀ (s : State) (k : Nat) (v : Word),
    (s.link.lines.contains k = true → ∃ s', exec (.ringSnoop k) s = .next s' ∧ s'.link.lines.contains k = false ∧
      s'.link.stale.contains k = true ∧ s'.streams = s.streams ∧ s'.parts = s.parts) ∧
    (s.link.access = true → s.link.stale.contains k = true →
      (∀ p, k = 32768 + p → ∃ s', exec (.ringHeadRead k v) s = .next s' ∧ s'.link.stale.contains k = false ∧
        (s.cached k = true → s'.link.lines.contains k = true) ∧ (s.cached k = false → s'.link.lines = s.link.lines) ∧ (s'.part p).cringConsumer = v.toNat ∧ s'.streams = s.streams) ∧
      (k < 32768 → s.streamRoot = true → isOpen (s.stream k).st = true →
        (v.toNat + 2 ^ 32 - (s.stream k).producerSeen) % 2 ^ 32 ≤
          ((s.stream k).consumer + 2 ^ ((s.stream k).ringLog + 4) + 2 ^ 32 - (s.stream k).producerSeen) % 2 ^ 32 →
        ∃ s', exec (.ringHeadRead k v) s = .next s' ∧ s'.link.stale.contains k = false ∧
          (s.cached k = true → s'.link.lines.contains k = true) ∧ (s.cached k = false → s'.link.lines = s.link.lines) ∧
          (s'.stream k).producerSeen = v.toNat ∧ s'.parts = s.parts)) ∧
    (s.link.access = false ∨ s.link.stale.contains k = false → exec (.ringHeadRead k v) s = .next s)

/-- Stream doorbells and the head lines of the rings: `Claims.StreamDoorbells` and `Claims.RingHeadLines`. -/
def Obligations.DoorbellsAndHeadLines : Prop :=
  Claims.StreamDoorbells ∧ Claims.RingHeadLines

/-- R284, R285, R303, R378, R427. With access to host memory, the next unread entry of an open stream's ring: during a reset of
its partition it is discarded; one that breaks a rule stops the ring and drains the stream with cause 5; a TOKENS entry
appends its tokens to the prompt; a DRAFTS entry waits in the ring, or is passed and counted stale where its BASE_POS lies
behind TOKEN_POS; a PROMPT_REF appends its place in host memory; FINISH waits in the ring, and at the head drains with cause
2. Without access nothing is taken. The model's own choice of log entry 112 stands in it. Completing, with the next state of
its own effect under its clause's conditions: SUBMISSION_ENTRY. -/
def Claims.RingEntries : Prop :=
  ∀ (s : State) (n : Nat) (e : BitVec 256), isOpen (s.stream n).st = true → (s.stream n).ringStopped = false →
    (s.stream n).ringEntries.length < ((s.stream n).producerSeen + 2 ^ 32 - (s.stream n).consumer) % 2 ^ 32 →
    s.streamRoot = true →
    (s.link.access = false → exec (.submissionEntry n e) s = .next s) ∧
    (s.link.access = true → s.partResets n = true → exec (.submissionEntry n e) s = .next (s.absorbRead n)) ∧
    (s.link.access = true → s.partResets n = false →
    ((entryOf e).2 ≠ 0 ∨ (entryOf e).1.bad = true →
      ∃ s', exec (.submissionEntry n e) s = .next s' ∧ (s'.stream n).st = .draining ∧
        (s'.stream n).drainCause = 5 ∧ (s'.stream n).ringStopped = true ∧
        (s'.stream n).prompt = (s.stream n).prompt) ∧
    ((entryOf e).2 = 0 → (entryOf e).1.bad = false →
      ((entryOf e).1.kind = 1 →
        ∃ s', exec (.submissionEntry n e) s = .next s' ∧
          (s'.stream n).prompt = (s.stream n).prompt ++ [.toks (wordsOfBytes (entryOf e).1.count (entryOf e).1.payload)] ∧
          (s'.stream n).promptLeft = (s.stream n).promptLeft + (entryOf e).1.count) ∧
      ((entryOf e).1.kind = 2 → exec (.submissionEntry n e) s = .next ((s.modStream n fun x => { x with
        ringEntries := x.ringEntries ++ [.drafts (entryOf e).1.pos (wordsOfBytes (entryOf e).1.count (entryOf e).1.payload) false]
        }).settleRing n false)) ∧
      ((entryOf e).1.kind = 4 → exec (.submissionEntry n e) s = .next ((s.modStream n fun x => { x with
        ringEntries := x.ringEntries ++ [.finish] }).settleRing n false)) ∧
      ((entryOf e).1.kind = 2 → (s.stream n).ringEntries = [] →
        ∃ s', exec (.submissionEntry n e) s = .next s' ∧ (s'.stream n).prompt = (s.stream n).prompt ∧
          (behind (entryOf e).1.pos (s.stream n).tokenPos = false → (s'.stream n).consumer = (s.stream n).consumer % 2 ^ 32 ∧
            (s'.stream n).ringEntries = [.drafts (entryOf e).1.pos (wordsOfBytes (entryOf e).1.count (entryOf e).1.payload) false]) ∧
          (behind (entryOf e).1.pos (s.stream n).tokenPos = true → (s'.stream n).ringEntries = [] ∧
            (s'.stream n).consumer = ((s.stream n).consumer + 1) % 2 ^ 32 ∧
            ∀ p, s.partOfSlot n = some p → (s'.part p).draftsStale = ((s.part p).draftsStale + 1) % 2 ^ 32)) ∧
      ((entryOf e).1.kind = 3 →
        ∃ s' a k, exec (.submissionEntry n e) s = .next s' ∧ (s'.stream n).prompt = (s.stream n).prompt ++ [.ref a k] ∧
          a % 4 = 0 ∧ 0 < k ∧ k ≤ 2 ^ 20 ∧ (s'.stream n).promptLeft = (s.stream n).promptLeft + k ∧
          (s'.stream n).st = .active) ∧
      ((entryOf e).1.kind = 4 → (s.stream n).ringEntries = [] →
        ∃ s', exec (.submissionEntry n e) s = .next s' ∧ (s'.stream n).st = .draining ∧
          (s'.stream n).drainCause = 2 ∧ (s'.stream n).consumer = ((s.stream n).consumer + 1) % 2 ^ 32)))

/-- R284, R285, R378, R427. With access to host memory, the tokens that a PROMPT_REF names, read from the host while the next
tables wait for them, become inputs of the stream's slot, after those it has; the tables are built where they wait; data that
comes during a reset of the partition is discarded; a read that fails drains the stream as a bad entry does, and its slot
stays empty. The model's own choice of log entry 141 stands in it. Completing, with the next state of its own effect under
its clause's conditions: PROMPT_REF_READ. -/
def Claims.PromptReads : Prop :=
  ∀ (s : State) (n p a k : Nat) (toks : List Word), (s.stream n).promptRef = some (a, k) → s.partOfSlot n = some p →
    (s.link.access = false → ∀ ok, exec (.promptRefRead n ok toks) s = .next s) ∧
    (s.link.access = true → s.partResets n = true → ∀ ok, exec (.promptRefRead n ok toks) s = .next (s.absorbRead n)) ∧
    (s.link.access = true → s.partResets n = false →
    ((s.part p).tablesDue = false → exec (.promptRefRead n true toks) s = .next
      ((s.modStream n fun x => { x with promptRef := none }).modPart p fun q => { q with
        nextAdmitted := q.nextAdmitted.map fun a => if a.stream = n then a.fill toks else a })) ∧
    ((s.part p).tablesDue = true → exec (.promptRefRead n true toks) s = .next
      (((s.modStream n fun x => { x with promptRef := none }).modPart p fun q => { q with
        nextAdmitted := q.nextAdmitted.map fun a => if a.stream = n then a.fill toks else a }).buildTables p)) ∧
    ((s.part p).tablesDue = false → ∃ s', exec (.promptRefRead n false toks) s = .next s' ∧ (s'.stream n).promptRef = none ∧
      (isOpen (s.stream n).st = true → (s'.stream n).st = .draining ∧ (s'.stream n).drainCause = 5) ∧
      (s'.stream n).ringStopped = true ∧ s.eventCount < s'.eventCount ∧
      (s'.part p).nextAdmitted = (s.part p).nextAdmitted.filter fun a => decide (a.stream ≠ n) || a.want.isEmpty) ∧
    (∀ adm : Admit, (s.part p).nextAdmitted = [adm] → adm.stream = n → adm.want = [.ref a k] → toks.length = k →
    (∃ b, b.inputs = adm.inputs ++ toks ∧ b.want = [] ∧ b.slot = adm.slot ∧ b.stream = n ∧
      ((s.part p).tablesDue = false → exec (.promptRefRead n true toks) s = .next
        ((s.modStream n fun x => { x with promptRef := none }).modPart p fun q => { q with nextAdmitted := [b] })) ∧
      ((s.part p).tablesDue = true → s.job.formed = false → ∃ s' c, exec (.promptRefRead n true toks) s = .next s' ∧
        (s'.part p).nextAdmitted = [{ b with noAppend := c }] ∧ (s'.part p).tablesDue = false ∧
        (s'.stream n).promptRef = none))))

/-- Entries of submission rings and the prompts read from the host: `Claims.RingEntries` and `Claims.PromptReads`. -/
def Obligations.SubmissionEntries : Prop :=
  Claims.RingEntries ∧ Claims.PromptReads

/-- R292, R297, R311. ADMISSION_RUN while a tide runs forms the next tide's admissions once: every stream admitted was ACTIVE,
does not park and is not admitted to the running tide, its last admission becomes that tide, and the count of admissions
rises by their number. RESULTS_READ after the tide-complete bell reads the receivers once: it asks for their bytes, waits for
them, and takes them as the tide's results. Completing, with the next state of its own effect under its clause's conditions:
ADMISSION_RUN, RESULTS_READ. -/
def Claims.AdmissionAndResults : Prop :=
  ∀ (s : State) (p : Nat),
    ((s.part p).st = .open_ ∨ (s.part p).st = .closing → (s.part p).awaiting = false →
      (s.part p).admitTide ≠ some ((s.part p).tide + 1) → s.streamRoot = true →
      ∃ s', exec (.admissionRun p) s = .next s' ∧ (s'.part p).admitTide = some ((s.part p).tide + 1) ∧
        (s'.part p).streamsAdmitted = ((s.part p).streamsAdmitted + (s'.part p).nextAdmitted.length) % 2 ^ 48 ∧
        (s'.part p).admitted = (s.part p).admitted ∧ (s'.part p).tide = (s.part p).tide ∧
        (∀ a ∈ (s'.part p).nextAdmitted, (s.stream a.stream).st = .active ∧ (s.stream a.stream).parking = false ∧
          (∀ b ∈ (s.part p).admitted, b.stream ≠ a.stream) ∧
          (s'.stream a.stream).lastAdmit = (s.part p).tide + 1)) ∧
    ((s.part p).admitTide = some ((s.part p).tide + 1) → exec (.admissionRun p) s = .next s) ∧
    ((s.part p).st = .closing → (s.part p).bellReady = true → (s.part p).resultsIn = false → s.job.formed = false →
      (∀ (u : State) (x : Nat) (b : List Byte), s.unitTake (keyResults p) = (u, .done x b) →
        exec (.resultsRead p) s = .next (u.modPart p fun q => { q with
          results := resultsOf (s.resultPlaces p) b [], resultsIn := true })) ∧
      (s.unitTake (keyResults p) = (s, .waiting) → exec (.resultsRead p) s = .next s) ∧
      (s.unitTake (keyResults p) = (s, .idle) → s.resultPlaces p = [] →
        exec (.resultsRead p) s = .next (s.modPart p fun q => { q with results := [], resultsIn := true }))) ∧
    ((s.part p).bellReady = false → exec (.resultsRead p) s = .next s)

/-- R144, R300. A verdict that arrives for a stream admitted with drafts is recorded; one for another slot is ignored and
counted; either way the tile's verdict is no longer on its way. Completing, with the next state of its own effect under its
clause's conditions: STREAM_VERDICT_ARRIVE. -/
def Claims.VerdictsArrive : Prop :=
  ∀ (s : State) (p : Nat) (k : Packet) (sa sb : Word), s.arrived = [k] → k.kind = .verdict → s.partOf k.src = some p →
    k.failed = false → k.words = [sa, sb] → k.acc ≠ 1 → sa.toNat < 2 ^ 15 →
    ∃ s', exec (.streamVerdictArrive p) s = .next s' ∧ s'.arrived = [] ∧
      (s'.tile k.src).verdictsFlying = (s.tile k.src).verdictsFlying - 1 ∧
      ((∃ a ∈ (s.part p).admitted, a.stream = sa.toNat ∧ 0 < a.drafts) →
        (s'.part p).verdicts = (s.part p).verdicts ++ [{ sa := sa, sb := sb, discard := false, tile := k.src }] ∧
        (s'.part p).verdictsIgnored = (s.part p).verdictsIgnored) ∧
      ((∀ a ∈ (s.part p).admitted, a.stream ≠ sa.toNat) →
        (s'.part p).verdicts = (s.part p).verdicts ∧
        (s'.part p).verdictsIgnored = ((s.part p).verdictsIgnored + 1) % 2 ^ 32)

/-- Admission, results and arriving verdicts: `Claims.AdmissionAndResults` and `Claims.VerdictsArrive`. -/
def Obligations.AdmissionResultsVerdicts : Prop :=
  Claims.AdmissionAndResults ∧ Claims.VerdictsArrive

/-- R307 to R309, R378, R379. COMPLETION_WRITE with access posts, in order, as many of the waiting records as the completion ring
has room for, 32 bytes each, then PRODUCER; the others wait. Without access the records go to the hold area, as far as its
32,768 records allow. A TOKENS record holds its stream, kind, count, position, four tokens, tide, flags and ACCEPTED; a
CLOSED record its cause in place of the tokens. Completing, with the next state of its own effect under its clause's
conditions: COMPLETION_WRITE. -/
def Claims.CompletionWrites : Prop :=
  (∀ (s : State) (p : Nat), (s.part p).completions ≠ [] →
    (s.link.access = false → ∃ s', exec (.completionWrite p) s = .next s' ∧
      (s'.part p).holdArea
        = (s.part p).holdArea ++ (s.part p).completions.take (32768 - (s.part p).holdArea.length) ∧
      (s'.part p).completions = (s.part p).completions.drop (32768 - (s.part p).holdArea.length) ∧ s'.posted = s.posted) ∧
    (s.link.access = true → 0 < (s.part p).ringRoom → ∃ s' tail, exec (.completionWrite p) s = .next s' ∧
      (s'.part p).completions = (s.part p).completions.drop (s.part p).ringRoom ∧
      (s'.part p).cringProducer = ((s.part p).cringProducer + min (s.part p).completions.length (s.part p).ringRoom) % 2 ^ 32 ∧
      s'.posted = s.posted ++ (((List.range (min (s.part p).completions.length (s.part p).ringRoom)).zip
          (s.part p).completions).map fun e => Posted.completion p ((s.part p).cringBase + 128 +
            32 * (((s.part p).cringProducer + e.1) % 2 ^ (s.part p).cringLog)) (recordOf e.2)) ++
        Posted.word p (s.part p).cringBase (BitVec.ofNat 32 (s'.part p).cringProducer) :: tail)) ∧
  (∀ c : CompletionRec, c.stream < 2 ^ 16 → c.pos < 2 ^ 32 → c.tide < 2 ^ 48 →
    (recordOf c).length = 32 ∧ leNat ((recordOf c).take 2) = c.stream ∧ leNat (((recordOf c).drop 4).take 4) = c.pos ∧
    leNat (((recordOf c).drop 24).take 6) = c.tide ∧
    (c.kind = 3 → c.cause < 2 ^ 32 → leNat (((recordOf c).drop 8).take 4) = c.cause) ∧
    (c.kind ≠ 3 → ∀ i, i < 4 → leNat (((recordOf c).drop (8 + 4 * i)).take 4) = (c.tokens.getD i 0).toNat))

/-- R274, R275, R281, R282. DRAIN_COMPLETE of a draining stream whose CLOSED record is written, and none of whose pages is at
work, closes it and frees its pages. STREAM_COMMAND_APPLY in a gap opens a slot, drains a stream it closes, starts a park,
and opens a parked stream again. Completing, with the next state of its own effect under its clause's conditions:
DRAIN_COMPLETE, STREAM_COMMAND_APPLY. -/
def Claims.StreamCommandsAct : Prop :=
  (∀ (s : State) (n p : Nat), s.partOfSlot n = some p → (s.stream n).st = .draining → s.isAdmitted n = false →
    (s.stream n).parking = false → s.pagesAtWork n = false →
    (s.stream n).closedWritten = true → (s.stream n).heldCmd = none → s.job.formed = false → s.preparing = none →
    ((s.part p).completions ++ (s.part p).holdArea).all (fun c => decide (c.stream ≠ n)) = true →
    ∃ s', exec (.drainComplete n) s = .next s' ∧ (s'.stream n).st = .closed ∧ s'.link.lines.contains n = false ∧
      (∀ g, (s.page g).owner = n → (s'.page g).st = .free) ∧
      (∀ g, (s.page g).owner ≠ n → s'.page g = s.page g) ∧ s.eventCount < s'.eventCount) ∧
  (∀ (s : State) (n p o : Nat), (s.part p).gap = true → s.job.formed = false → s.partOfSlot n = some p → (s.part p).pageCmds = [] →
    (∀ d, (s.part p).streamCmds = [(o, .open_ n d)] → (s.stream n).st = .closed →
      ∃ s', exec (.streamCommandApply p) s = .next s' ∧ (s'.part p).streamCmds = [] ∧ (s'.stream n).st = .open_ ∧
        (s'.stream n).part = p ∧ (s'.stream n).tokenPos = 0) ∧
    ((s.part p).streamCmds = [(o, .close n)] → isOpen (s.stream n).st = true → s.isAdmitted n = false →
      (s.stream n).closedWritten = false → (s.stream n).drafter = false →
      ∃ s' c, exec (.streamCommandApply p) s = .next s' ∧ (s'.part p).streamCmds = [] ∧
        (s'.stream n).st = .draining ∧ (s'.stream n).drainCause = 3 ∧
        (s'.part p).completions = (s.part p).completions ++ [c] ∧ c.stream = n ∧ c.kind = 3 ∧ c.cause = 3) ∧
    (∀ target m, (s.part p).streamCmds = [(o, .park n target m)] → isOpen (s.stream n).st = true → s.parkForbidden n = false →
      ∃ s', exec (.streamCommandApply p) s = .next s' ∧ (s'.part p).streamCmds = [] ∧ (s'.stream n).parking = true ∧
        (s'.stream n).parkTarget = target ∧ (s'.part p).moveQueue = (s.part p).moveQueue ++
          (if target = 0 then ((s.pagesOf n).filter fun g => g.2.st = .hbm).map fun g => (g.1, true, false) else [])) ∧
    (∀ recs, (s.part p).streamCmds = [(o, .resume n 0 recs)] → (s.stream n).st = .parked →
      ∃ s', exec (.streamCommandApply p) s = .next s' ∧ (s'.part p).streamCmds = [] ∧ isOpen (s'.stream n).st = true ∧
        s'.pages = s.pages))

/-- Completion records, drained streams and the stream commands of a gap: `Claims.CompletionWrites` and
`Claims.StreamCommandsAct`. -/
def Obligations.CompletionsAndStreamCommands : Prop :=
  Claims.CompletionWrites ∧ Claims.StreamCommandsAct

/-- R318, R319, R322, R323. A flit received on a port that is up counts in its sequence number. A good DATA flit for this device
waits in the port's receive staging, or in the staging of the plan whose channel it names; one to be forwarded waits with its
arrival time; a bad flit is counted, and the 16th bad one in a row brings the port down, as a loss of signal does at once. A
port that is down takes nothing. Completing, with the next state of its own effect under its clause's conditions:
HIKOLINK_FLIT_RECEIVE, LOSS_OF_SIGNAL. -/
def Claims.HikolinkFlitsReceived : Prop :=
  ∀ (s : State) (q : Nat) (f : HFlit) (k : Nat),
    ((s.hport q).up = false → (∀ bad, exec (.hikolinkFlitReceive q f bad k) s = .next s) ∧
      exec (.lossOfSignal q) s = .next s) ∧
    ((s.hport q).up = true →
      (f.type = 1 → f.crc = flitCrc f (s.hport q).rxSeq (s.hport q).farRank (s.hport q).farPort →
        (∀ p, f.dst = s.job.rank → s.planPart f.channel = some p →
          ∃ s', exec (.hikolinkFlitReceive q f false k) s = .next s' ∧
            (s'.planState p (f.channel - 0xFF00)).rx = (s.planState p (f.channel - 0xFF00)).rx ++ [f] ∧
            (s'.hport q).received = (s.hport q).received ∧ (s'.hport q).rxSeq = ((s.hport q).rxSeq + 1) % 2 ^ 48) ∧
        (f.dst = s.job.rank → f.channel ≠ 0xFFE0 → s.planPart f.channel = none → (s.hport q).received.length < 1024 →
          ∃ s', exec (.hikolinkFlitReceive q f false k) s = .next s' ∧
            (s'.hport q).received = (s.hport q).received ++ [f] ∧ (s'.hport q).forward = (s.hport q).forward ∧
            (s'.hport q).rxSeq = ((s.hport q).rxSeq + 1) % 2 ^ 48 ∧ (s'.hport q).badRun = 0 ∧
            s'.eventCount = s.eventCount ∧ s'.job = s.job) ∧
        (f.dst ≠ s.job.rank → s.forwards q f.channel = true → (s.hport q).forward.length < 512 →
          ∃ s', exec (.hikolinkFlitReceive q f false k) s = .next s' ∧
            (s'.hport q).forward = (s.hport q).forward ++ [(s.time, f)] ∧
            (s'.hport q).rxSeq = ((s.hport q).rxSeq + 1) % 2 ^ 48 ∧ s'.job = s.job)) ∧
      (∃ s', exec (.hikolinkFlitReceive q f true k) s = .next s' ∧
        (s'.hport q).rxSeq = ((s.hport q).rxSeq + 1) % 2 ^ 48 ∧ (s'.hport q).badRun = (s.hport q).badRun + 1 ∧
        (s'.hport q).badTotal = (s.hport q).badTotal + 1 ∧ (s'.hport q).received = (s.hport q).received ∧
        (s'.hport q).up = decide ((s.hport q).badRun ≠ 15)) ∧
      (∃ s', exec (.lossOfSignal q) s = .next s' ∧ (s'.hport q).up = false ∧
        (s.jobParts.any s.afterDone = false → s.eventCount < s'.eventCount) ∧
        (∀ p, p ≠ q → s'.hport p = s.hport p) ∧
        (s.job.formed = true → s.job.needsPort q = true → s.job.away.contains (s.hport q).farRank = false →
          s'.job.broken = true)))

/-- R316 to R318, R320, R321, R335, R348, R352. SLOT_SEND of a port that is up uses one slot of its table and one sequence
number: in a control slot the first urgent flit leaves, else the first bulk one; an IDLE entry sends type 0; a LOCAL entry
sends the first staged flit of its channel. The flit on the wire carries the tide of its slot and the CRC of its own bytes;
the root's committing CONFIRM carries as INSTANT the time of its first copy (R336). A port whose identity beacon is due sends
that, first without and then with coordinates; toward a neighbour that is gone, IDLE goes in the flit's place. The model's
own choices of log entries 52 and 61 stand in it. Completing, with the next state of its own effect under its clause's
conditions: SLOT_SEND. -/
def Claims.SlotSending : Prop :=
  ∀ (s : State) (q : Nat),
    (s.beaconDue q = false → (s.hport q).up = false → (s.hport q).absorbing = false → exec (.slotSend q) s = .next s) ∧
    (s.beaconDue q = true → (s.hport q).absorbing = false → ∃ s' g, exec (.slotSend q) s = .next s' ∧
      (s'.hport q).sent = (s.hport q).sent ++ [g] ∧ g.type = 5 ∧ g.beacon = some (s.ownBeacon (s.placedNext q)) ∧
      (s'.hport q).greeted = true ∧ (s'.hport q).named = ((s.hport q).named || s.placedNext q) ∧
      (s'.hport q).slot = (s.hport q).slot) ∧
    (s.beaconDue q = false → (s.hport q).up = true → (s.hport q).absorbing = true → (s.hport q).slot % 16 = 0 →
      ∀ f r, (s.hport q).urgent = f :: r → f.type ≠ 0 → ∃ s' g, exec (.slotSend q) s = .next s' ∧
        (s'.hport q).sent = (s.hport q).sent ++ [g] ∧ g.type = 0 ∧ (s'.hport q).absorbed = (s.hport q).absorbed + 1 ∧
        (s'.hport q).urgent = r ∧ (f.channel ≠ 0xFFE0 → (s.isRoot && f.commits) = false → s'.job = s.job)) ∧
    (s.beaconDue q = false → (s.hport q).up = true → (s.hport q).absorbing = false →
      ∃ s' g, exec (.slotSend q) s = .next s' ∧ (s'.hport q).slot = (s.hport q).slot + 1 ∧
        (s'.hport q).txSeq = ((s.hport q).txSeq + 1) % 2 ^ 48 ∧ (s'.hport q).sent = (s.hport q).sent ++ [g] ∧
        g.crc = flitCrc g (s.hport q).txSeq s.job.rank q ∧ (g.type ≠ 4 → g.tideLo = s.job.slotTide % 256) ∧
        ((s.hport q).slot % 16 = 0 →
          (∀ f r, (s.hport q).urgent = f :: r → g.words = f.words ∧ g.type = f.type ∧
            ((s.isRoot && f.commits) = false → g.recs = f.recs) ∧
            ((s.isRoot && f.commits) = true → g.recs = f.recs.map (stampConfirm (s.job.confirmAt.getD s.now)) ∧
              s'.job.confirmAt = some (s.job.confirmAt.getD s.now)) ∧
            (s'.hport q).urgent = r ∧ (s'.hport q).bulk = (s.hport q).bulk) ∧
          (∀ f r, (s.hport q).urgent = [] → (s.hport q).bulk = f :: r → g.words = f.words ∧ g.type = f.type ∧
            (s'.hport q).bulk = r)) ∧
        ((s.hport q).slot % 16 ≠ 0 →
          (slotKind (s.slotEntry q ((s.hport q).slot % 4096)) = 0 → g.type = 0 ∧ g.src = s.job.rank ∧
            g.dst = (s.hport q).farRank ∧ (s'.hport q).staged = (s.hport q).staged) ∧
          (∀ f r, slotKind (s.slotEntry q ((s.hport q).slot % 4096)) = 1 → (s.hport q).staged = f :: r →
            f.channel = slotChan (s.slotEntry q ((s.hport q).slot % 4096)) →
            g.words = f.words ∧ g.channel = f.channel ∧ (s'.hport q).staged = r)))

/-- Hikolink flits received and sent: `Claims.HikolinkFlitsReceived` and `Claims.SlotSending`. -/
def Obligations.HikolinkFlits : Prop :=
  Claims.HikolinkFlitsReceived ∧ Claims.SlotSending

/-- R325 to R327. A send endpoint of a running tide asks for READY of its next block; once READY shows that block and there is
room, asks for its data; stages the data as DATA flits of its channel in order, and writes DONE; and then sends its notice. A
receive endpoint whose block is whole asks for DONE of the one before it (block 0 has none before it), writes the data once
that shows it, then READY, and then takes the block out of staging and sends its notice. Each block counts as passed. One of
these follows at each poll, as the answers of the tiles come. Completing, with the next state of its own effect under its
clause's conditions: ENDPOINT_POLL, RECEIVE_BLOCK_COMPLETE. -/
def Claims.EndpointEngines : Prop :=
  (∀ (s : State) (ch p : Nat) (c : Channel), s.channel ch true = some (p, c) → (s.part p).engines = true →
    ∀ (b : Nat) (v : Word), b = tget 0 s.job.chanBlocks c.id → v = blockValue (s.part p).tide b →
    ((s.unitTake (keySend c.id)).2 = .waiting → exec (.endpointPoll ch) s = .next s) ∧
    ((s.unitTake (keySend c.id)).2 = .idle → exec (.endpointPoll ch) s =
      .next (if b < c.blocks then s.unitAsk (keySend c.id) 0 p ((chanEndpoint c.port c).ask 0) else s)) ∧
    (∀ (u : State) (r : List Byte), s.unitTake (keySend c.id) = (u, .done 0 r) → exec (.endpointPoll ch) s =
      .next (if leNat r = v.toNat ∧ u.stagingRoom c = true
        then u.unitAsk (keySend c.id) 1 p ((chanEndpoint c.port c).read (240 * c.blockFlits)) else u)) ∧
    (∀ (u : State) (r : List Byte), s.unitTake (keySend c.id) = (u, .done 1 r) → ∃ (t : State) (l : List HFlit),
      exec (.endpointPoll ch) s = .next (t.unitAsk (keySend c.id) 2 p ((chanEndpoint c.port c).put 1 v)) ∧
      (t.hport c.port).staged = (s.hport c.port).staged ++ l ∧ l.length = c.blockFlits ∧
      (∀ i, i < c.blockFlits → l[i]? = some
        { type := 1, last := decide (i + 1 = c.blockFlits), channel := c.id, src := s.job.rank, dst := c.peer
          block := b, index := i, words := wordsOfBytes 60 (r.drop (240 * i)) }) ∧
      tget 0 t.job.chanBlocks c.id = b + 1 ∧ t.parts = s.parts ∧ (∀ q, q ≠ c.port → t.hport q = s.hport q)) ∧
    (∀ (u : State) (r : List Byte) (n : Nat), s.unitTake (keySend c.id) = (u, .done (n + 2) r) → exec (.endpointPoll ch) s =
      .next (u.notify (blockValue (s.part p).tide (b - 1)) (chanEndpoint c.port c)))) ∧
  (∀ (s : State) (ch p : Nat) (c : Channel), s.channel ch false = some (p, c) → (s.part p).engines = true →
    ∀ (b : Nat) (v : Word) (e : Endpoint), b = tget 0 s.job.chanBlocks (65536 + c.id) → v = blockValue (s.part p).tide b →
    e = chanEndpoint (s.recvPort c.id b) c →
    ((s.blockFlits c.id b).length < c.blockFlits → exec (.receiveBlockComplete ch) s = .next s) ∧
    (c.blockFlits ≤ (s.blockFlits c.id b).length →
      ((s.unitTake (keyRecv c.id)).2 = .waiting → exec (.receiveBlockComplete ch) s = .next s) ∧
      ((s.unitTake (keyRecv c.id)).2 = .idle → exec (.receiveBlockComplete ch) s =
        .next (if c.blocks ≤ b then s
          else if b = 0 then s.unitAsk (keyRecv c.id) 1 p (e.write (blockBytes (s.blockFlits c.id b)))
          else s.unitAsk (keyRecv c.id) 0 p (e.ask 1))) ∧
      (∀ (u : State) (r : List Byte), s.unitTake (keyRecv c.id) = (u, .done 0 r) → exec (.receiveBlockComplete ch) s =
        .next (if leNat r = (blockValue (s.part p).tide (b - 1)).toNat
          then u.unitAsk (keyRecv c.id) 1 p (e.write (blockBytes (s.blockFlits c.id b))) else u)) ∧
      (∀ (u : State) (r : List Byte), s.unitTake (keyRecv c.id) = (u, .done 1 r) →
        exec (.receiveBlockComplete ch) s = .next (u.unitAsk (keyRecv c.id) 2 p (e.put 0 v))) ∧
      (∀ (u : State) (r : List Byte) (n : Nat), s.unitTake (keyRecv c.id) = (u, .done (n + 2) r) → ∃ t : State,
        exec (.receiveBlockComplete ch) s = .next (t.notify v e) ∧
        tget 0 t.job.chanBlocks (65536 + c.id) = b + 1 ∧ t.blockFlits c.id b = [] ∧ t.parts = s.parts))) ∧
  (∀ (s : State) (ch : Nat),
    (s.channel ch true = none → exec (.endpointPoll ch) s = .next s) ∧
    (s.channel ch false = none → exec (.receiveBlockComplete ch) s = .next s) ∧
    (∀ p c, s.channel ch true = some (p, c) → (s.part p).engines = false → exec (.endpointPoll ch) s = .next s) ∧
    (∀ p c, s.channel ch false = some (p, c) → (s.part p).engines = false → exec (.receiveBlockComplete ch) s = .next s))

/-- R431. A port's shut-down that ends leaves the port down and empty, with its sequence number; a FABRIC_TRAIN that waits for it
then acts. Completing, with the next state of its own effect under its clause's conditions: PORT_SHUTDOWN_DONE. -/
def Claims.PortShutdown : Prop :=
  ∀ (s : State) (q : Nat),
    ((s.hport q).shutting = true → ∃ t : State, exec (.portShutdownDone q) s = .next t.actTrainHeld ∧
      (s.trainWait = none → exec (.portShutdownDone q) s = .next t) ∧
      t.trainWait = s.trainWait ∧ (t.hport q).up = false ∧ (t.hport q).shutting = false ∧ (t.hport q).staged = [] ∧
      (t.hport q).received = [] ∧ (t.hport q).urgent = [] ∧ (t.hport q).bulk = [] ∧ (t.hport q).txSeq = (s.hport q).txSeq ∧
      (∀ k, k ≠ q → t.hport k = s.hport k) ∧
      (s.job.left = true → s.job.parentPort = some q → t.power.refOscillator = true ∧ t.job.onRecovered = false)) ∧
    ((s.hport q).shutting = false → exec (.portShutdownDone q) s = .next s)

/-- R343 to R347. A plan with no script runs in every tide; one with a script runs where the script ends in 0. A plan that runs
asks for READY of its input segments; with all of them READY, for their data; keeps its contribution, of a DEFERRED plan the
tentative sums, one an element, and writes DONE; sends its notices; gathers its own part of the result, and, with the others'
parts in, writes the whole result; writes READY of the outputs; and is done for the tide, as is a plan that delivers nothing
in it. The tree sum adds pairs and passes an odd last value up. The model's own choice of log entry 54 stands in it.
Completing, with the next state of its own effect under its clause's conditions: COLLECTIVE_SCRIPT_RUN, COLLECTIVE_REDUCE. -/
def Claims.Collectives : Prop :=
  (∀ (s : State) (p k : Nat) (c : CollPlan), s.plan p k = some c →
    ((s.part p).st = .open_ →
      (c.code = [] → ∃ s', exec (.collectiveScriptRun p k) s = .next s' ∧ (s'.planState p k).runs = true ∧
        (s'.planState p k).done = (s.planState p k).done) ∧
      (c.code ≠ [] → ∀ r, r = runScript c.code (fun _ => 0) c.stepLimit { regs := scriptRegs [(1, k),
          (2, (s.part p).tide % 2 ^ 32), (3, (s.part p).tide / 2 ^ 32), (4, s.rank)] } →
        (r.2 = true → ∃ s', exec (.collectiveScriptRun p k) s = .next s' ∧
          (s'.planState p k).runs = decide (r.1.getD 15 0 = 0) ∧ s'.eventCount = s.eventCount) ∧
        (r.2 = false → ∃ s', exec (.collectiveScriptRun p k) s = .next s' ∧
          (s'.planState p k).runs = true ∧ s.eventCount < s'.eventCount))) ∧
    ((s.part p).st ≠ .open_ → exec (.collectiveScriptRun p k) s = .next s) ∧
    (∀ ports, ((s.part p).engines && (s.planState p k).runs && !(s.planState p k).done) = false →
      exec (.collectiveReduce p k ports) s = .next s) ∧
    (∀ (ports : List (Nat × Nat)) (v : Word), (s.part p).engines = true → (s.planState p k).runs = true →
      (s.planState p k).done = false → v = blockValue (s.part p).tide 0 →
      ((s.unitTake (keyPlan p k)).2 = .waiting → exec (.collectiveReduce p k ports) s = .next s) ∧
      ((s.unitTake (keyPlan p k)).2 = .idle → (s.planState p k).mine = none → exec (.collectiveReduce p k ports) s
        = .next (s.unitAsk (keyPlan p k) 0 p (c.ins.flatMap fun g => (segEndpoint s.collHalf g).ask 0))) ∧
      (∀ (u : State) (b : List Byte), s.unitTake (keyPlan p k) = (u, .done 0 b) → ∃ l : List Packet, exec (.collectiveReduce p k ports) s
        = .next (if ((wordsOfBytes c.ins.length b).all fun w => w = v) = true then u.unitAsk (keyPlan p k) 1 p l else u)) ∧
      (∀ (u : State) (b : List Byte), s.unitTake (keyPlan p k) = (u, .done 1 b) →
        ∃ (t : State) (l : List Packet), exec (.collectiveReduce p k ports) s = .next (t.unitAsk (keyPlan p k) 2 p l) ∧
          (t.planState p k).done = false ∧ (t.planState p k).accum = (s.planState p k).accum ∧
          (c.op < 3 → (t.planState p k).tentative = none ∧ (t.planState p k).mine = some (contribution c c.ins b)) ∧
          (3 ≤ c.op → ∃ d : List Word, (t.planState p k).tentative = some d ∧ d.length = c.elems ∧
            (t.planState p k).mine = some (d.map (·.toNat)) ∧ ∀ i, i < c.elems → d.getD i 0 =
              fadd ((s.planState p k).accum.getD i 0) (collToFp32 c.inFmt ((contribution c c.ins b).getD i 0)))) ∧
      (∀ (u : State) (b : List Byte), s.unitTake (keyPlan p k) = (u, .done 2 b) →
        ∃ s', exec (.collectiveReduce p k ports) s = .next s' ∧
          (s'.planState p k).done = !(planDelivers c (s.part p).tide) ∧
          (s'.planState p k).tentative = (s.planState p k).tentative) ∧
      (∀ m, (s.unitTake (keyPlan p k)).2 = .idle → (s.planState p k).mine = some m →
        ((s.planState p k).own = none → planOwn c s.rank (s.planState p k) m = none →
          exec (.collectiveReduce p k ports) s = .next s) ∧
        (∀ d, (s.planState p k).own = none → planOwn c s.rank (s.planState p k) m = some d →
          ∃ s', exec (.collectiveReduce p k ports) s = .next s' ∧ (s'.planState p k).own = some d ∧
            (s'.planState p k).done = false) ∧
        (∀ d, (s.planState p k).own = some d → planWhole c s.rank (s.planState p k) d = none →
          exec (.collectiveReduce p k ports) s = .next s) ∧
        (∀ d w, (s.planState p k).own = some d → planWhole c s.rank (s.planState p k) d = some w →
          exec (.collectiveReduce p k ports) s = .next (s.unitAsk (keyPlan p k) 3 p (s.resultPkts c c.outs w)))) ∧
      (∀ (u : State) (b : List Byte), s.unitTake (keyPlan p k) = (u, .done 3 b) → exec (.collectiveReduce p k ports) s
        = .next (u.unitAsk (keyPlan p k) 4 p (c.outs.flatMap fun g => (segEndpoint s.collHalf g).put 0 v))) ∧
      (∀ (u : State) (b : List Byte) (n : Nat), s.unitTake (keyPlan p k) = (u, .done (n + 4) b) →
        ∃ s', exec (.collectiveReduce p k ports) s = .next s' ∧ (s'.planState p k).done = true ∧
          (s'.planState p k).tentative = (s.planState p k).tentative))) ∧
  (∀ (s : State) (p k : Nat), s.plan p k = none → exec (.collectiveScriptRun p k) s = .next s ∧
    ∀ ports, exec (.collectiveReduce p k ports) s = .next s) ∧
  (∀ a b c d e : Word, treeSum 2 [a, b] = fadd a b ∧ treeSum 3 [a, b, c] = fadd (fadd a b) c ∧
    treeSum 4 [a, b, c, d] = fadd (fadd a b) (fadd c d) ∧
    treeSum 5 [a, b, c, d, e] = fadd (fadd (fadd a b) (fadd c d)) e)

/-- Endpoints, ports and collectives: `Claims.EndpointEngines`, `Claims.PortShutdown` and `Claims.Collectives`. -/
def Obligations.EndpointsAndCollectives : Prop :=
  Claims.EndpointEngines ∧ Claims.PortShutdown ∧ Claims.Collectives

/-- R212, R334, R336, R339, R340. On a device of the job other than the root, a DRUMBEAT sets the next tide's number, start, step
and stop, in a partition that waits for its run's first tide as well, and goes to every child in four copies; a committing
CONFIRM commits the partition that is CLOSING at its INSTANT, an abandoning one makes it abandon; an ACTION replays, repairs
or stops the settled abandon. The model's own choice of log entry 121 stands in it. Completing, with the next state of its
own effect under its clause's conditions: DRUMBEAT, CONFIRM, ACTION. -/
def Claims.TreeRecordsDown : Prop :=
  ∀ (s : State), s.job.formed = true → s.isRoot = false → s.nothingHeld →
    (∀ (tide start step : Nat) (stop : Bool), ∃ s', exec (.drumbeat tide start step false stop) s = .next s' ∧
      s'.job.tide = tide ∧ s'.job.nextStart = start ∧ s'.job.nextStep = step ∧ s'.job.nextStop = stop ∧
      s'.job.beat = true ∧ s'.job.doneFrom = [] ∧ s'.job.confirmSent = false ∧ s'.job.chanBlocks = [] ∧
      (∀ p, (s'.part p).st = (s.part p).st ∧ ((s.part p).awaiting = false → s'.part p = s.part p) ∧
        (p ∈ s.jobParts → (s.part p).awaiting = true → (s.part p).replaying = false → (s'.part p).tide = tide)) ∧
      (∀ q ∈ s.job.childPorts, (s'.hport q).urgent = (s.hport q).urgent ++ [0, 1, 2, 3].map fun c =>
        ({ type := 2, src := s.job.rank, dst := (s.hport q).farRank,
           recs := [(c, TreeRec.drumbeat tide start step false stop)] } : HFlit))) ∧
    (∀ (p instant : Nat) (c : Cause), s.jobParts = [p] → s.job.abandoned = false →
      ((s.part p).st = .closing → ∃ s', exec (.confirm (s.part p).tide instant false c) s = .next s' ∧
        (s'.part p).st = .boundary ∧ (s'.part p).tide = ((s.part p).tide + 1) % 2 ^ 48 ∧
        (s'.part p).commitT = (instant - s.tsStep) * nsUnits) ∧
      ((s.part p).st = .open_ ∨ (s.part p).st = .closing →
        ∃ s', exec (.confirm (s.part p).tide instant true c) s = .next s' ∧ (s'.part p).st = .abandoning ∧
          s'.job.abandoned = true ∧ s'.job.cause = c ∧ (s'.part p).tide = (s.part p).tide)) ∧
    (∀ (p kind : Nat) (c : Cause), s.jobParts = [p] → (s.part p).st = .abandoning →
      (∃ s', exec (.action (s.part p).tide 0 kind c) s = .next s' ∧ (s'.part p).st = .open_ ∧
        (s'.part p).awaiting = true ∧ (s'.part p).replays = (s.part p).replays + 1) ∧
      (∃ s', exec (.action (s.part p).tide 1 kind c) s = .next s' ∧ (s'.part p).st = .recovering ∧
        (s'.part p).tide = (s.part p).tide) ∧
      (∃ s', exec (.action (s.part p).tide 2 kind c) s = .next s' ∧ (s'.part p).st = .loaded))

/-- R351. MEMBER: a rank that leaves is away and the members are one fewer; one that joins again is no longer away; one that is
lost breaks the job; a resetting neighbour's flits are absorbed here, and one that had not left is a lost link. A record
heard twice changes no membership. Completing, with the next state of its own effect under its clause's conditions: MEMBER. -/
def Claims.MemberRecords : Prop :=
  ∀ (s : State) (rank : Nat), s.job.formed = true →
    (s.job.away.contains rank = false →
      (∃ s', exec (.member rank 0) s = .next s' ∧ s'.job.away = s.job.away ++ [rank] ∧
        s'.job.joined = s.job.joined - 1 ∧ s'.job.broken = s.job.broken ∧ s.eventCount < s'.eventCount ∧
        s'.parts = s.parts) ∧
      (∃ s', exec (.member rank 3) s = .next s' ∧ s'.job.away = s.job.away ++ [rank] ∧ s'.job.broken = true ∧
        s.eventCount < s'.eventCount) ∧
      (∀ q, q < 6 → (s.hport q).up = true → (s.hport q).farRank = rank → s.job.needsPort q = true →
        ∃ s', exec (.member rank 2) s = .next s' ∧ (s'.hport q).up = false ∧ s'.job.broken = true)) ∧
    (s.job.away.contains rank = true →
      (∃ s', exec (.member rank 1) s = .next s' ∧ s'.job.away.contains rank = false ∧
        s'.job.joined = s.job.joined + 1 ∧ s.eventCount < s'.eventCount) ∧
      (∃ s', exec (.member rank 0) s = .next s' ∧ s'.job = s.job ∧ s'.eventCount = s.eventCount) ∧
      (∀ q, q < 6 → (s.hport q).up = true → (s.hport q).farRank = rank → s.job.needsPort q = true →
        ∃ s', exec (.member rank 2) s = .next s' ∧ (s'.hport q).absorbing = true ∧ (s'.hport q).up = true))

/-- Records coming down the tree, and member records: `Claims.TreeRecordsDown` and `Claims.MemberRecords`. -/
def Obligations.TreeAndMemberRecordsDown : Prop :=
  Claims.TreeRecordsDown ∧ Claims.MemberRecords

/-- R334, R336, R339. Records that come up from a child: DONE is kept once a child and tide; a FAULT is passed up in four copies,
and at the root abandons the tide; SETTLED and RECOVERED of the only child still live go up with the count of the subtree
once this device has settled or recovered as well. Completing, with the next state of its own effect under its clause's
conditions: DONE, FAULT, SETTLED, RECOVERED. -/
def Claims.TreeRecordsUp : Prop :=
  ∀ (s : State) (child : Nat), s.job.formed = true → s.job.childPorts.contains child = true → s.nothingHeld →
    (∀ count step, (s.job.doneFrom.map fun d => d.1).contains child = false →
      exec (.done child s.job.tide count step) s = .next { s with job := { s.job with
        doneFrom := s.job.doneFrom ++ [(child, count)], stepReq := max s.job.stepReq step } }) ∧
    (∀ count step, (s.job.doneFrom.map fun d => d.1).contains child = true →
      exec (.done child s.job.tide count step) s = .next s) ∧
    (∀ q kind c, s.job.parentPort = some q → ∃ s', exec (.fault child s.jobTide kind c) s = .next s' ∧
      (s'.hport q).urgent = (s.hport q).urgent ++ ([0, 1, 2, 3].map fun i =>
        ({ type := 2, src := s.job.rank, dst := (s.hport q).farRank, recs := [(i, TreeRec.fault s.jobTide kind c)] } : HFlit)) ∧
      s'.parts = s.parts ∧ s'.job = s.job) ∧
    (∀ p kind c, s.isRoot = true → s.jobParts = [p] → (s.part p).st = .open_ → s.job.abandoned = false →
      ∃ s', exec (.fault child s.jobTide kind c) s = .next s' ∧ s'.job.abandoned = true ∧ s'.job.cause = c ∧
        (s'.part p).st = .abandoning) ∧
    (∀ q count kind c, s.job.parentPort = some q → s.liveChildren = [child] → s.job.settledFrom = [] →
      s.job.selfSettled = false → s.jobParts.all (fun p => (s.part p).settled) = true →
      ∃ s' k d, exec (.settled child s.jobTide count kind c) s = .next s' ∧ s'.job.selfSettled = true ∧
        s'.job.settledFrom = [(child, count, kind, c)] ∧ s'.parts = s.parts ∧
        (s'.hport q).urgent = (s.hport q).urgent ++ ([0, 1, 2, 3].map fun i =>
          ({ type := 2, src := s.job.rank, dst := (s.hport q).farRank,
             recs := [(i, TreeRec.settled s.jobTide (1 + count) k d)] } : HFlit))) ∧
    (∀ q count, s.job.parentPort = some q → s.liveChildren = [child] → s.job.recoveredFrom = [] →
      s.job.selfRecovered = false → s.jobParts.all (fun p => (s.part p).recovered) = true →
      ∃ s', exec (.recovered child s.jobTide count) s = .next s' ∧ s'.job.selfRecovered = true ∧
        s'.job.recoveredFrom = [(child, count)] ∧
        (s'.hport q).urgent = (s.hport q).urgent ++ ([0, 1, 2, 3].map fun i =>
          ({ type := 2, src := s.job.rank, dst := (s.hport q).farRank,
             recs := [(i, TreeRec.recovered s.jobTide (1 + count))] } : HFlit)))

/-- R330, R334, R336, R341, R352, R440. DONE_SEND of a device that is done sends DONE with its subtree's count up once;
CONFIRM_SEND of the root sends the outcome table and then a committing CONFIRM, whose INSTANT its first copy fixes, or, where
no device is below the root, this command; a parent that is silent too long, or four lost copies of a record, lose the tree
once: the run stops, and a silent parent cuts the member off; a loss of lock or of the reference moves the root PLL to the
module's own oscillator. Completing, with the next state of its own effect under its clause's conditions: DONE_SEND,
CONFIRM_SEND, TREE_TIMEOUT, CLOCK_LOCK_LOSS, REFERENCE_LOSS. -/
def Claims.TreeSendsAndLosses : Prop :=
  ∀ (s : State),
    (∀ q, s.job.formed = true → s.job.parentPort = some q → s.job.doneSent = false → s.deviceDone = true → s.setsDone = true →
      s.streamRoot = false → (∀ p ∈ s.jobParts, (s.part p).single = none) →
      ∃ s', exec .doneSend s = .next s' ∧ s'.job.doneSent = true ∧ s'.parts = s.parts ∧
        (s'.hport q).urgent = (s.hport q).urgent ++ ([0, 1, 2, 3].map fun i =>
          ({ type := 2, src := s.job.rank, dst := (s.hport q).farRank,
             recs := [(i, TreeRec.done s.job.tide (countOf (s.job.doneFrom.map fun d => d.2))
               (max s.job.stepReq s.stepRequest))] } : HFlit))) ∧
    (s.job.doneSent = true → exec .doneSend s = .next s) ∧
    (s.job.formed = true → s.isRoot = true → s.job.confirmSent = false → s.deviceDone = true → s.setsDone = true →
      ∃ s', exec .confirmSend s = .next s' ∧ s'.job.confirmSent = true ∧ s'.parts = s.parts ∧
        s'.job.confirmAt = (if s.job.childPorts = [] then some s.now else none) ∧
        (∀ q ∈ s.job.childPorts, ∃ l, (s'.hport q).urgent = (s.hport q).urgent ++ l ++ ([0, 1, 2, 3].map fun i =>
          ({ type := 2, src := s.job.rank, dst := (s.hport q).farRank,
             recs := [(i, TreeRec.confirm s.job.tide s.now false {})] } : HFlit)) ∧
          (∀ f ∈ l, f.channel = 0xFFF1))) ∧
    (s.job.confirmSent = true → exec .confirmSend s = .next s) ∧
    (∀ p, s.job.formed = true → s.job.treeLost = false → (s.copiesLost || s.parentSilent) = true → s.jobParts = [p] →
      (s.part p).st = .open_ → (s.part p).cause = none → s.nothingHeld →
      ∃ s', exec .treeTimeout s = .next s' ∧ s'.job.treeLost = true ∧ s'.job.broken = true ∧ s.eventCount < s'.eventCount ∧
        (s.parentSilent = true → s'.job.cut = true) ∧ (s'.part p).faultBell = true ∧ (s'.part p).st = .open_ ∧
        (∃ c, (s'.part p).cause = some c ∧ c.kind = .stop ∧ c.code = 0x0504)) ∧
    ((s.job.treeLost = true ∨ (s.copiesLost || s.parentSilent) = false) → exec .treeTimeout s = .next s) ∧
    (s.job.formed = true → s.job.clockLocked = true → s.isRoot = false →
      ∃ s', exec .clockLockLoss s = .next s' ∧ s'.job.clockLocked = false ∧ s'.job.onRecovered = false ∧
        s'.power.refOscillator = true ∧ (s.jobParts.any s.afterDone = false → s.eventCount < s'.eventCount)) ∧
    (s.job.onRecovered = true →
      ∃ s', exec .referenceLoss s = .next s' ∧ s'.job.onRecovered = false ∧ s'.power.refOscillator = true ∧
        (s.job.clockLocked = false → s'.eventCount = s.eventCount)) ∧
    (s.job.onRecovered = false → exec .referenceLoss s = .next s)

/-- Records going up the tree, what is sent and what is lost: `Claims.TreeRecordsUp` and `Claims.TreeSendsAndLosses`. -/
def Obligations.TreeRecordsUpAndLosses : Prop :=
  Claims.TreeRecordsUp ∧ Claims.TreeSendsAndLosses

/-- R331, R332, R348 to R351, R413, R424. While a job forms: a beacon of another job fails formation at step 3; one that agrees
brings the port up, at first without coordinates; with coordinates, the parent's give this device its own, a duplicate or a
wrong place fails formation at step 4, and otherwise the neighbour has its rank; a port that failed calibration stays down. A
step that takes too long fails formation, and so do a tree link whose largest round trip exceeds 554.4 ns (D_hop above 307.2
ns) and epochs that do not agree. The last step forms the job with every device joined that is not away, and the clock
locked, and steps the timestamp to the job clock. The model's own choice of log entry 61 stands in it. Completing, with the
next state of its own effect under its clause's conditions: IDENTITY_BEACON, JOB_FORM_STEP_TIMEOUT, FORMATION_COMPLETE. -/
def Obligations.JobForming : Prop :=
  ∀ (s : State), s.job.formingStep ≠ 0 →
    (∀ (q : Nat) (b : Beacon), (s.hport q).calFailed = true → exec (.identityBeacon q b) s = .next s) ∧
    (∀ (q : Nat) (b : Beacon), s.job.needsPort q = true → (s.hport q).shutting = false → (s.hport q).calFailed = false →
      (b.jobId ≠ s.job.id → ∃ s', exec (.identityBeacon q b) s = .next s' ∧ s'.job.formingStep = 0 ∧
        s'.job.formMbx = none ∧ s.eventCount < s'.eventCount) ∧
      (b.jobId = s.job.id → b.placed = false → ∃ s', exec (.identityBeacon q b) s = .next s' ∧ (s'.hport q).up = true ∧
        (s'.hport q).beacon = some b ∧ s'.job = s.job) ∧
      (b.jobId = s.job.id → b.placed = true →
        ∀ (t : State) (c : Nat × Nat × Nat), t = (s.modHport q fun x => trainPort x q b).takePlace q b →
          c = s.job.stepFrom ((q + 3) % 6) b.i b.j b.k →
        (4 ≤ s.job.formingStep → t.job = s.job) ∧
        (s.job.formingStep < 4 → s.job.parentPortAt c.1 c.2.1 c.2.2 = some q →
          t.job.formingStep = 4 ∧ (t.job.i, t.job.j, t.job.k) = c) ∧
        (∀ r, t.duplicate = some r → ∃ s', exec (.identityBeacon q b) s = .next s' ∧ s'.job.formingStep = 0 ∧
          s'.job.formMbx = none ∧ s.eventCount < s'.eventCount) ∧
        (∀ r, t.duplicate = none → t.miscabled = some r → ∃ s', exec (.identityBeacon q b) s = .next s' ∧
          s'.job.formingStep = 0 ∧ s'.job.formMbx = none ∧ s.eventCount < s'.eventCount) ∧
        (t.duplicate = none → t.miscabled = none → ∃ s', exec (.identityBeacon q b) s = .next s' ∧ (s'.hport q).up = true ∧
          (s'.hport q).beacon = some b ∧ (s'.hport q).farRank = t.job.rankAt b.coords ∧ s'.job = t.job))) ∧
    (∀ stop, ∃ s', exec (.jobFormStepTimeout stop) s = .next s' ∧ s'.job.formingStep = 0 ∧ s'.job.formMbx = none ∧
      s.eventCount < s'.eventCount ∧
      (∀ n, s.job.formMbx = some n → (s.mb n).done = false → (s'.mb n).done = true ∧ (s'.mb n).status = 0x010A)) ∧
    (∀ clock links, s.stepReached = 5 → (∀ l ∈ links, l.2 ≤ 554400) →
      (s.neighboursAgree = true → s.job.joining = false →
        ∃ s', exec (.formationComplete clock true links) s = .next s' ∧ s'.job.formed = true ∧ s'.job.formingStep = 0 ∧
          s'.job.joined = s.job.devices ∧ s'.job.clockLocked = true ∧ s'.job.away = [] ∧ s'.job.rank = s.job.rank ∧
          s'.job.onRecovered = s.job.parentPort.isSome ∧ s.now ≤ s'.now ∧
          (s.job.parentPort = none → s'.now = max clock s.now + 1000000) ∧
          (s.job.parentPort.isSome = true → s'.now = max clock s.now) ∧
          (∀ n, s.job.formMbx = some n → (s.mb n).done = false → (s'.mb n).done = true ∧ (s'.mb n).status = 0)) ∧
      (s.neighboursAgree = true → s.job.joining = true →
        ∃ s', exec (.formationComplete clock true links) s = .next s' ∧ s'.job.formed = true ∧ s'.job.formingStep = 0 ∧
          s'.job.away = s.job.away.filter (· ≠ s.job.rank) ∧ s'.job.joined = s.job.devices - s'.job.away.length ∧
          s'.job.joining = false ∧ s.eventCount < s'.eventCount) ∧
      (∀ agree, (agree && s.neighboursAgree) = false →
        ∃ s', exec (.formationComplete clock agree links) s = .next s' ∧ s'.job.formingStep = 0 ∧
          s'.job.formed = (s.job.formed && s.job.joining) ∧ s.eventCount < s'.eventCount)) ∧
    (∀ clock agree links q rtt, s.stepReached = 5 → (q, rtt) ∈ links → 554400 < rtt →
      ∃ s', exec (.formationComplete clock agree links) s = .next s' ∧ s'.job.formingStep = 0 ∧
        s'.job.formed = (s.job.formed && s.job.joining) ∧ s.eventCount < s'.eventCount)

/-- R363, R378, R428. A hot reset and a function-level reset are host-interface resets: access to host memory ends, the command
register, the MSI-X enable and masks, both ring controls, the ring-head cache and the IDE keys are cleared, and tiles,
memories, streams and fuses stay. PERST# asserted does the same and announces a device reset. Completing, with the next state
of its own effect under its clause's conditions: PERST_ASSERT, HOT_RESET, FUNCTION_LEVEL_RESET. -/
def Claims.HostInterfaceResets : Prop :=
  ∀ (s : State), exec .functionLevelReset s = exec .hotReset s ∧
    (∃ s', exec .hotReset s = .next s' ∧ s'.link.access = false ∧ s'.link.busMaster = false ∧
      s'.link.cacheEnable = false ∧ s'.link.uioEnable = false ∧ s'.link.ideOn = false ∧ s'.link.msixEnable = false ∧
      s'.link.msixMask = 0xFFFFFFFFFFFFFFFF ∧ s'.link.msixPending = 0 ∧ s'.link.lines = [] ∧ s'.evr.en = false ∧
      s'.tlr.en = false ∧ s'.tiles = s.tiles ∧ s'.hbm = s.hbm ∧ s'.streams = s.streams ∧ s'.fuses = s.fuses ∧
      s'.link.trained = s.link.trained ∧ s'.boot = s.boot) ∧
    (∃ s', exec .perstAssert s = .next s' ∧ s'.pins.perst = true ∧ s'.link.trained = false ∧ s'.link.access = false ∧
      s'.evr.en = false ∧ s'.boot.announced = true ∧ s'.tiles = s.tiles ∧ s'.fuses = s.fuses)

/-- R377, R378. With access to host memory, a loss of the link, bus mastering cleared, D3hot and an IDE integrity failure each
end it: one HOST_LINK_DOWN naming the cause is raised into the log, cached lines are dropped, and every partition that runs
stops at its next stop point. Without access only the cause itself is noted. Completing, with the next state of its own
effect under its clause's conditions: HOST_LINK_LOSS, BUS_MASTER_DISABLE, D3HOT_ENTRY, IDE_INTEGRITY_FAILURE. -/
def Claims.HostAccessLoss : Prop :=
  ∀ (s : State),
    (s.link.access = true → ∀ (c : Instr) (cause : Nat), ((c = .hostLinkLoss ∧ cause = 0) ∨ (c = .busMasterDisable ∧ cause = 2) ∨
        (c = .d3hotEntry ∧ cause = 3) ∨ (c = .ideIntegrityFailure ∧ cause = 4 ∧ s.link.ideOn = true ∧
          s.link.ideFailed = false)) →
      ∃ s' e, exec c s = .next s' ∧ s'.link.access = false ∧ s'.link.lost = true ∧ s'.link.lines = [] ∧
        s'.eventCount = s.eventCount + 1 ∧ s'.bb.log.getLast? = some e ∧ e.code = 0x0902 ∧ e.sev = 3 ∧
        e.payload = BitVec.ofNat 64 (cause * 2 ^ 60) ∧
        (∀ p, p ∈ s.runningParts → running (s.part p).st = true → (s'.part p).stopPending = true) ∧
        s'.tiles = s.tiles ∧ s'.hbm = s.hbm ∧
        (cause = 0 → s'.link.trained = false) ∧ (cause = 2 → s'.link.busMaster = false) ∧
        (cause = 3 → s'.link.d3hot = true) ∧ (cause = 4 → s'.link.ideFailed = true)) ∧
    (s.link.access = false →
      exec .hostLinkLoss s = .next { s with link := { s.link with trained := false } } ∧
      exec .busMasterDisable s = .next { s with link := { s.link with busMaster := false } } ∧
      exec .d3hotEntry s = .next { s with link := { s.link with d3hot := true } })

/-- Resets and losses of the host interface: `Claims.HostInterfaceResets` and `Claims.HostAccessLoss`. -/
def Obligations.HostLossAndResets : Prop :=
  Claims.HostInterfaceResets ∧ Claims.HostAccessLoss

/-- R355, R356, R376, R380, R384. Access returns when the last of its conditions does: after a loss HOST_LINK_UP is raised and no
completion record stays held; the first time (which raises no event, the model's reading: log entry 68) the ring lines are
asked for. LINK_RETRAIN at the same width and rate is only counted, at another raises HOST_LINK_RETRAIN. PERST_DEASSERT with
power good trains the link in 256-byte flit mode or leaves it down. The model's own choice of log entry 69 stands in it.
Completing, with the next state of its own effect under its clause's conditions: PERST_DEASSERT, BUS_MASTER_ENABLE,
LINK_RETRAIN, IDE_KM_KEY_PROGRAM, D3HOT_EXIT. -/
def Claims.HostAccessReturn : Prop :=
  ∀ (s : State),
    (s.link.access = false → s.link.trained = true → s.link.ideFailed = false → s.pins.perst = false →
      (s.link.d3hot = false → s.link.lost = true → ∃ s', exec .busMasterEnable s = .next s' ∧ s'.link.access = true ∧
        s'.link.busMaster = true ∧ s'.link.lost = false ∧ s.eventCount < s'.eventCount ∧
        (∀ p, p < 8 → (s'.part p).holdArea = [])) ∧
      (s.link.d3hot = false → s.link.lost = false → ∃ s', exec .busMasterEnable s = .next s' ∧ s'.link.access = true ∧
        s'.eventCount = s.eventCount ∧
        (s.link.cacheLag = [] → s'.link.stale = if s.link.cacheEnable then s.watched else [])) ∧
      (s.link.d3hot = true → ∃ s', exec .d3hotExit s = .next s' ∧ s'.link.access = true ∧ s'.link.d3hot = false ∧
        s'.link.busMaster = true)) ∧
    (s.link.d3hot = false → exec .d3hotExit s = .next s) ∧
    ((s.spdm.sessions.any fun e => e.2) = true → ∃ s', exec .ideKmKeyProgram s = .next s' ∧ s'.link.ideOn = true ∧
      s'.link.ideFailed = false ∧ s'.spdm = s.spdm) ∧
    ((s.spdm.sessions.any fun e => e.2) = false → exec .ideKmKeyProgram s = .next s) ∧
    (∀ w r, linkOk w r = true → s.pins.perst = false → s.link.trained = true →
      (s.link.width = w → s.link.rate = r → exec (.linkRetrain w r) s =
        .next { s with link := { s.link with recoveries := s.link.recoveries + 1 } }) ∧
      (s.link.width ≠ w ∨ s.link.rate ≠ r → ∃ s', exec (.linkRetrain w r) s = .next s' ∧ s'.link.width = w ∧
        s'.link.rate = r ∧ s.eventCount < s'.eventCount ∧ s'.link.recoveries = s.link.recoveries)) ∧
    (s.pins.perst = true → s.pins.pwrgd = true → ∀ w r flit, ∃ s', exec (.perstDeassert w r flit) s = .next s' ∧
      s'.pins.perst = false ∧ s'.link.trained = (flit && linkOk w r) ∧ s'.tiles = s.tiles) ∧
    (s.pins.pwrgd = false → ∀ w r flit, exec (.perstDeassert w r flit) s = .next s)

/-- R369, R374. CACHE_ENABLE_CHANGE acts at once for what does not run; a partition that runs goes by what held before until its
next stop point, and its lines stand. Unmasking a vector whose pending bit is set sends its message and clears the bit; a
coalescing timer that ends signals the ring's vector once. The model's own choice of log entry 125 stands in it. Completing,
with the next state of its own effect under its clause's conditions: CACHE_ENABLE_CHANGE, MSIX_UNMASK, EVENT_COALESCE_TIMER. -/
def Claims.CacheAndVectors : Prop :=
  ∀ (s : State) (b : Bool) (v : Nat),
    (∃ s', exec (.cacheEnableChange b) s = .next s' ∧ s'.link.cacheEnable = b ∧ s'.parts = s.parts ∧
      (∀ p, p ∈ s.runningParts → s'.cacheAt p = s.cacheAt p) ∧ (∀ p, p ∉ s.runningParts → s'.cacheAt p = b) ∧
      (∀ k p, s.keyPart k = some p → p ∈ s.runningParts → (k ∈ s'.link.lines ↔ k ∈ s.link.lines)) ∧
      (s.runningParts = [] → s'.link.lines = [] ∧ (b = false → s'.link.stale = []))) ∧
    (v < 64 → s.link.msixEnable = true → s.link.access = true →
      ∃ s', exec (.msixUnmask v) s = .next s' ∧ s'.link.msixMask.getLsbD v = false ∧
        s'.link.msixPending.getLsbD v = false ∧
        s'.posted = (if s.link.msixPending.getLsbD v then s.posted ++ [Posted.msix v] else s.posted) ∧
        (∀ k, k ≠ v → s'.link.msixMask.getLsbD k = s.link.msixMask.getLsbD k)) ∧
    (64 ≤ v → exec (.msixUnmask v) s = .next s) ∧
    (s.evr.unsignalled = true → s.evr.lastSignal + s.evr.coalesceUs * 1000 ≤ s.now → s.link.msixEnable = true →
      s.link.access = true → s.link.msixMask.getLsbD 9 = false →
      ∃ s', exec (.eventCoalesceTimer 9) s = .next s' ∧ s'.posted = s.posted ++ [Posted.msix 9] ∧
        s'.evr.unsignalled = false ∧ s'.evr.lastSignal = s.now ∧ exec (.eventCoalesceTimer 9) s' = .next s') ∧
    (s.tlr.unsignalled = true → s.tlr.lastSignal + s.tlr.coalesceUs * 1000 ≤ s.now → s.link.msixEnable = true →
      s.link.access = true → s.link.msixMask.getLsbD 10 = false →
      ∃ s', exec (.eventCoalesceTimer 10) s = .next s' ∧ s'.posted = s.posted ++ [Posted.msix 10] ∧
        s'.tlr.unsignalled = false)

/-- The return of host access, the cache and the vectors: `Claims.HostAccessReturn` and `Claims.CacheAndVectors`. -/
def Obligations.HostReturnCacheVectors : Prop :=
  Claims.HostAccessReturn ∧ Claims.CacheAndVectors

/-- R417, R418. A step's command works only in its own step while that step has not done its work; a step ends DONE with REACHED
at it, or FAILED with its error code, and one that reaches its bound fails with cause 0xFF. The model's own choice of log
entry 71 stands in it. Completing, with the next state of its own effect under its clause's conditions: BOOT_STEP_COMPLETE,
BOOT_STEP_TIMEOUT. -/
def Obligations.BringUpInOrder : Prop :=
  ∀ (s : State),
    (s.inStep 1 = false → exec .powerCheck s = .next s) ∧ (s.inStep 2 = false → exec .fuseApply s = .next s) ∧
    (∀ a b, s.inStep 3 = false → exec (.clockRoot a b) s = .next s) ∧
    (∀ a b, s.inStep 4 = false → exec (.baseUp a b) s = .next s) ∧
    (∀ a b c, s.inStep 5 = false → exec (.mgmtBoot a b c) s = .next s) ∧
    (∀ f, s.inStep 6 = false → exec (.hbmTrain f) s = .next s) ∧
    (∀ r, s.inStep 7 = false → exec (.memTest r) s = .next s) ∧
    (∀ l, s.inStep 8 = false → exec (.clustersUp l) s = .next s) ∧
    (∀ l, s.inStep 9 = false → exec (.tileBist l) s = .next s) ∧
    (∀ c, s.inStep 10 = false → exec (.meshCal c) s = .next s) ∧
    (∀ l, s.inStep 11 = false → exec (.bootFabricTrain l) s = .next s) ∧
    (s.inStep 12 = false → exec .ready s = .next s) ∧
    (s.boot.state = 1 → s.boot.workDone = true →
      (s.boot.failCause = none → ∃ s', exec .bootStepComplete s = .next s' ∧ s'.boot.state = 2 ∧
        s'.boot.reached = s.boot.stStep ∧ s'.ready = (s.ready || decide (s.boot.stStep = 12)) ∧
        s'.fuseShown = (s.fuseShown || decide (s.boot.stStep = 2))) ∧
      (∀ c, s.boot.failCause = some c → ∃ s', exec .bootStepComplete s = .next s' ∧ s'.boot.state = 3 ∧
        s'.boot.error = s.boot.stStep * 256 + c ∧ s'.boot.reached = s.boot.reached ∧ s'.ready = s.ready)) ∧
    (s.boot.workDone = false → exec .bootStepComplete s = .next s) ∧
    (s.boot.state = 1 → ∃ s', exec .bootStepTimeout s = .next s' ∧ s'.boot.state = 3 ∧
      s'.boot.error = s.boot.stStep * 256 + 255 ∧ s'.boot.reached = s.boot.reached) ∧
    (s.boot.state ≠ 1 → exec .bootStepTimeout s = .next s)

/-- R419, R422, R424, R430, R434 to R436, R505. Steps 1 to 5: what each finds, and the cause it fails with. The model's own
choice of log entry 71 stands in it. Completing, with the next state of its own effect under its clause's conditions:
POWER_CHECK, FUSE_APPLY, CLOCK_ROOT, BASE_UP, MGMT_BOOT. -/
def Claims.BringUpFirstSteps : Prop :=
  ∀ (s : State),
    (s.inStep 1 = true →
      (s.power.vinMv < 44000 ∨ 58000 < s.power.vinMv → exec .powerCheck s = .next (s.stepDone (some 1))) ∧
      (44000 ≤ s.power.vinMv → s.power.vinMv ≤ 58000 →
        (s.pins.pwrgd = false ∨ s.boot.poweredOff = true → exec .powerCheck s = .next (s.stepDone (some 2))) ∧
        (s.pins.pwrgd = true → s.boot.poweredOff = false →
          (s.hotSensor = true → exec .powerCheck s = .next (s.stepDone (some 3))) ∧
          (s.hotSensor = false → s.flash.present = true →
            (s.boot.pathOk = false → exec .powerCheck s = .next (s.stepDone (some 5))) ∧
            (s.boot.pathOk = true → s.boot.pathWarm = false →
              exec .powerCheck s = .next (State.stepDone { s with dbg := {} } none)) ∧
            (s.boot.pathOk = true → s.boot.pathWarm = true →
              exec .powerCheck s = .next (s.stepDone (if s.boot.retainedValid then none else some 4))))))) ∧
    (s.inStep 2 = true →
      (s.fuses.digestOk = false → exec .fuseApply s = .next (s.stepDone (some 1))) ∧
      (s.fuses.digestOk = true → s.fuses.variantOk = false → exec .fuseApply s = .next (s.stepDone (some 2))) ∧
      (s.fuses.digestOk = true → s.fuses.variantOk = true → s.boot.pathWarm = true → s.flash.logValid = false →
        exec .fuseApply s = .next (s.stepDone (some 3))) ∧
      (s.fuses.digestOk = true → s.fuses.variantOk = true → (s.boot.pathWarm = true → s.flash.logValid = true) →
        ∃ s', exec .fuseApply s = .next s' ∧ s'.boot.workDone = true ∧ s'.boot.failCause = none ∧
          s'.retired = s.flash.retired.map (fun r => r.tier * 2 ^ 30 + r.frame) ∧
          (∀ e ∈ s.fuses.factoryRepair, ∀ d ∈ factorySites e.1 e.2.toNat, d ∈ s'.disabled) ∧
          (∀ r ∈ s.flash.repairs, r.type = 1 → (r.object % 65536, r.object / 65536) ∈ s'.disabled))) ∧
    (s.inStep 3 = true → ∀ a b, ∃ s', exec (.clockRoot a b) s = .next s' ∧ s'.power.step = 7 ∧ s'.power.pllLocked = a ∧
      s'.power.gensLocked = b ∧ s'.boot.failCause = (if !a then some 1 else if !b then some 2 else none)) ∧
    (s.inStep 4 = true →
      (∀ b, exec (.baseUp false b) s = .next (s.stepDone (some 1))) ∧
      exec (.baseUp true false) s = .next (s.stepDone (some 2)) ∧
      (s.boot.pathWarm = true → exec (.baseUp true true) s = .next (s.stepDone none)) ∧
      (s.boot.pathWarm = false → ∃ s', exec (.baseUp true true) s = .next s' ∧ s'.streams = [] ∧ s'.pages = [] ∧
        s'.parts = [] ∧ s'.windows = [] ∧ s'.bb.log = [] ∧ s'.boot.failCause = none ∧ s'.fuses = s.fuses ∧
        s'.hbm = s.hbm)) ∧
    (s.inStep 5 = true →
      (∀ r o, exec (.mgmtBoot false r o) s = .next (s.stepDone (some 2))) ∧
      (s.flash.activateCold = false →
        (s.flash.running.valid = true → s.flash.fwFloor ≤ s.flash.running.version → ∀ o,
          ∃ s', exec (.mgmtBoot true true o) s = .next s' ∧ s'.boot.failCause = none ∧ s'.boot.workDone = true ∧
            s'.flash.running = s.flash.running ∧ s'.flash.bootCount = s.flash.bootCount + 1) ∧
        (s.flash.other.valid = true → s.flash.fwFloor ≤ s.flash.other.version →
          ∃ s', exec (.mgmtBoot true false true) s = .next s' ∧ s'.boot.failCause = none ∧
            s'.flash.running = s.flash.other ∧ s'.flash.bankB = !s.flash.bankB) ∧
        exec (.mgmtBoot true false false) s = .next (s.stepDone (some 1))))

/-- R419, R422, R423, R426. Steps 6 to 12: stacks train (on a cold path their contents are discarded), failing rows are retired,
clusters are powered and reset, failing sites disabled, calibrations done; steps 6 to 9 fail only with no stripe left.
Completing, with the next state of its own effect under its clause's conditions: HBM_TRAIN, MEM_TEST, CLUSTERS_UP, TILE_BIST,
MESH_CAL, BOOT_FABRIC_TRAIN, READY. -/
def Claims.BringUpLaterSteps : Prop :=
  ∀ (s : State),
    (s.inStep 6 = true → ∃ s', exec (.hbmTrain 0) s = .next s' ∧ s'.hbm = (if s.boot.pathWarm then s.hbm else []) ∧
      s'.boot.workDone = true ∧ s'.boot.failCause = (if s.noStripe then some 1 else none) ∧
      (∀ m ∈ s.enabledPorts, (s'.memport m).trained = true ∧ (s'.memport m).inSelfRefresh = false)) ∧
    (s.inStep 7 = true →
      (s.boot.pathLevel = 0 → ∀ l, exec (.memTest l) s = .next (s.stepDone none)) ∧
      (s.boot.pathLevel ≠ 0 → ∀ m off, s.stripeOn (m % 8) = false → ∀ b,
        exec (.memTest [(m, off, b)]) s = .next s.stripeCheck) ∧
      (s.boot.pathLevel ≠ 0 → ∀ m off, s.stripeOn (m % 8) = true → 320 ≤ off / 2 ^ 19 → ∃ s', exec (.memTest [(m, off, false)]) s = .next s' ∧
        s'.flash.retired.length = s.flash.retired.length + 1 ∧ s'.retired.length = s.retired.length + 1 ∧
        s'.boot.workDone = true)) ∧
    (s.inStep 8 = true → ∃ s', exec (.clustersUp []) s = .next s' ∧ s'.tiles = [] ∧ s'.boot.workDone = true ∧
      s'.boot.failCause = (if s.noStripe then some 1 else none) ∧
      (∀ c, c < 288 → s.fuses.stripeMap.getLsbD (c / 36) = true → (s'.cluster c).power = true ∧
        (s'.cluster c).bellChan = [])) ∧
    (s.inStep 9 = true →
      (s.boot.pathWarm = true → ∀ l, exec (.tileBist l) s = .next (s.stepDone none)) ∧
      (s.boot.pathWarm = false → ∀ x y, s.fuses.stripeMap.getLsbD (x / 37) = true → s.disabled.contains (x, y) = false →
        s.segHasRoom x y = true → ∃ s', exec (.tileBist [(x, y)]) s = .next s' ∧ s'.disabled = s.disabled ++ [(x, y)] ∧
          s'.withdrawn = s.withdrawn ∧ s'.boot.workDone = true)) ∧
    (s.inStep 10 = true → exec (.meshCal 0) s = .next (s.stepDone none) ∧
      ∀ c, c ≠ 0 → exec (.meshCal c) s = .next (s.stepDone (some c))) ∧
    (s.inStep 11 = true → ∃ s', exec (.bootFabricTrain []) s = .next s' ∧ s'.boot.failCause = none ∧
      s'.boot.workDone = true ∧ (∀ q, q < 6 → s.fuses.portMap.getLsbD q = true → (s'.hport q).calFailed = false)) ∧
    (s.inStep 11 = true → ∀ q lanes, q < 6 → s.fuses.portMap.getLsbD q = true →
      ∃ s', exec (.bootFabricTrain [(q, lanes)]) s = .next s' ∧ s'.boot.failCause = none ∧ (s'.hport q).calFailed = true ∧
        s.eventCount < s'.eventCount) ∧
    (s.inStep 12 = true → s.boot.pathWarm = false → exec .ready s = .next (s.stepDone none))

/-- What each of the twelve bring-up steps does: `Claims.BringUpFirstSteps` and `Claims.BringUpLaterSteps`. -/
def Obligations.BringUpSteps : Prop :=
  Claims.BringUpFirstSteps ∧ Claims.BringUpLaterSteps

/-- R362, R403, R419, R426 to R428. BOOT_RESET with 0xA5 announces a device reset, with another value does nothing; the reset
that follows the announcement clears tiles, clusters' power and the boot state and keeps fuses, pins, memory contents and the
black box; a retained partition is LOADED or EMPTY. UNIT_RESET_DONE ends a unit reset of a tile, raises RESET_DONE, and lets
the tile out of reset. The model's own choice of log entry 73 stands in it. Completing, with the next state of its own effect
under its clause's conditions: BOOT_RESET, DEVICE_RESET_BEGIN, UNIT_RESET_DONE. -/
def Obligations.ResetsBeginAndEnd : Prop :=
  ∀ (s : State),
    (∀ v : Word, v ≠ 0xA5 → exec (.bootReset v) s = .next s) ∧
    (s.hostReaches = true → ∃ s', exec (.bootReset 0xA5) s = .next s' ∧ s'.boot.announced = true ∧ s'.tiles = s.tiles ∧
      s'.parts = s.parts) ∧
    (s.hostReaches = false → exec (.bootReset 0xA5) s = .next s) ∧
    (s.boot.announced = false → exec .deviceResetBegin s = .next s) ∧
    (s.boot.announced = true → ∃ s', exec .deviceResetBegin s = .next s' ∧ s'.tiles = [] ∧ s'.boot.reached = 0 ∧
      s'.boot.state = 0 ∧ s'.boot.lastWasDeviceReset = true ∧ s'.fuses = s.fuses ∧ s'.pins = s.pins ∧ s'.hbm = s.hbm ∧
      s'.cxl = s.cxl ∧ s'.bb = s.bb ∧ s'.ready = false ∧ s'.evr.en = false ∧ s'.power.step = 7 ∧ s'.time = 0 ∧
      (∀ c, (s'.cluster c).power = false) ∧
      (∀ e ∈ s'.parts, e.2.st = .none ∨ e.2.st = .loaded ∨ e.2.st = .empty)) ∧
    (∀ (t : TileId) (r : UnitReset), s.resets = [r] → r.scope = 0 → r.index = t → r.mbx = none →
      (s.tile t).inReset = true →
      ∃ s', exec (.unitResetDone 0 t) s = .next s' ∧ s'.resets = [] ∧ (s'.tile t).inReset = false ∧
        s.eventCount < s'.eventCount ∧ (∀ u, u ≠ t → s'.tile u = s.tile u)) ∧
    (s.resets = [] → ∀ scope index, exec (.unitResetDone scope index) s = .next s)

/-- R364, R368, R390, R361. While host accesses reach the device: a CTRL write enables a ring only with a legal size, sets its
consumer to its producer and clears its drop count then, and the events held for the ring go to it; a doorbell of an idle
page with the new sequence number starts the page's command, and any other is counted and ignored; reading TIME_LO latches
TIME_HI. Completing, with the next state of its own effect under its clause's conditions: EVR_CTRL, TLR_CTRL, MBX_DOORBELL,
TIME_LO_READ. -/
def Claims.RingControlsAndDoorbells : Prop :=
  ∀ (s : State) (v : Word),
    (s.hostReaches = true →
      (∃ t : State, exec (.evrCtrl v) s = .next t.writeHeldEvents ∧ (s.link.eventsHeld = false → exec (.evrCtrl v) s = .next t) ∧
        t.evr.minSev = bits v.toNat 19 16 ∧ t.evr.coalesceUs = bits v.toNat 15 8 ∧ t.evr.producer = s.evr.producer ∧
        (s.evr.en = true → t.evr.en = bit v.toNat 31 ∧ t.evr.logSize = s.evr.logSize) ∧
        (s.evr.en = false → bit v.toNat 31 = true → 6 ≤ bits v.toNat 4 0 → bits v.toNat 4 0 ≤ 16 →
          t.evr.en = true ∧ t.evr.logSize = bits v.toNat 4 0 ∧ t.evr.consumer = s.evr.producer ∧ t.evr.dropped = 0) ∧
        (s.evr.en = false → (bits v.toNat 4 0 < 6 ∨ 16 < bits v.toNat 4 0) → t.evr.en = false) ∧ t.tlr = s.tlr) ∧
      (∃ s', exec (.tlrCtrl v) s = .next s' ∧ s'.tlr.coalesceUs = bits v.toNat 15 8 ∧
        (s.tlr.en = false → bit v.toNat 31 = true → 6 ≤ bits v.toNat 4 0 → bits v.toNat 4 0 ≤ 16 →
          s'.tlr.en = true ∧ s'.tlr.consumer = s.tlr.producer) ∧ s'.evr = s.evr) ∧
      (∀ (n : Nat) (d : BitVec 16), n ≤ 8 →
        (s.ready = true → (s.mb n).done = true → d.toNat = (s.mb n).seq → d ≠ 0 →
          d.toNat ≠ (s.mb n).doneSeq → opcodeKnown (s.mb n).opcode = true →
          ∃ s', exec (.mbxDoorbell n d true) s = .next s' ∧ (s'.mb n).done = false ∧ (s'.mb n).status = 1 ∧
            (s'.mb n).running = some (s.mb n).opcode ∧ (s'.mb n).payload = (s.mb n).payload ∧
            (∀ k, k ≠ n → s'.mb k = s.mb k)) ∧
        (s.ready = true → (s.mb n).done = true → d.toNat = (s.mb n).seq → d ≠ 0 →
          d.toNat ≠ (s.mb n).doneSeq → opcodeKnown (s.mb n).opcode = false →
          ∃ s', exec (.mbxDoorbell n d true) s = .next s' ∧ (s'.mb n).done = true ∧ (s'.mb n).status = 0x0101 ∧
            (s'.mb n).doneSeq = (s.mb n).seq) ∧
        (∀ both, (both = false ∨ s.ready = false ∨ (s.mb n).done = false ∨ d = 0 ∨ d.toNat ≠ (s.mb n).seq ∨
            d.toNat = (s.mb n).doneSeq) →
          exec (.mbxDoorbell n d both) s =
            .next (s.modMb n fun m => { m with ignored := min (m.ignored + 1) 0xFFFFFFFF }))) ∧
      exec .timeLoRead s =
        .next { s with timeHi := BitVec.ofNat 32 (s.now / 2 ^ 32), lastRead := s.now % 2 ^ 32 }) ∧
    (s.hostReaches = false → exec (.evrCtrl v) s = .next s ∧ exec (.tlrCtrl v) s = .next s ∧ exec .timeLoRead s = .next s ∧
      ∀ n d both, exec (.mbxDoorbell n d both) s = .next s)

/-- R359, R360, R369, R371, R372, R388, R515. The debug window is closed without an open scope: a read gives 0 and a write
changes nothing. Open: selecting another tile drops the snapshot, SNAP captures a tile of a quiet partition and otherwise
sets LIVE, the code and the scratchpad of a running partition cannot be written. REGISTER_WRITE to a mailbox page that is
idle writes its bytes, of an 8-byte write word after word; to a page that is busy it is counted; an access of a size or
alignment that the register blocks below 0x4000 do not take is counted. The model's own choices of log entries 33 and 76
stand in it. Completing, with the next state of its own effect under its clause's conditions: DBG_TILE, SNAP,
DEBUG_WINDOW_READ, DEBUG_WINDOW_WRITE, REGISTER_WRITE. -/
def Claims.RegisterAndDebugAccess : Prop :=
  ∀ (s : State) (v : Word), s.hostReaches = true →
    (s.windowOpen = false → exec (.dbgTile v) s = .next s ∧ exec (.snap v) s = .next s ∧
      ∀ off, exec (.debugWindowRead off) s = .next { s with lastRead := 0 } ∧ exec (.debugWindowWrite off v) s = .next s) ∧
    (s.windowOpen = true →
      (∃ s', exec (.dbgTile v) s = .next s' ∧ s'.dbg.selected = v.toNat % 2 ^ 17 ∧ s'.tiles = s.tiles ∧
        (v.toNat % 2 ^ 17 ≠ s.dbg.selected → s'.dbg.snap = none)) ∧
      (v.toNat % 2 = 1 → ∃ s', exec (.snap v) s = .next s' ∧ s'.tiles = s.tiles ∧
        (s.quiet s.dbg.selected = true → s'.dbg.snap = some (s.captureTile s.dbg.selected) ∧
          s'.dbg.live = false) ∧
        (s.quiet s.dbg.selected = false → s'.dbg.snap = none ∧ s'.dbg.live = true)) ∧
      (∀ off, 0x40000 ≤ off → off < 0x80000 → off % 4 = 0 → s.sealedFrom s.dbg.selected = false →
        s.down s.dbg.selected = false → (s.tile s.dbg.selected).flips = [] →
        exec (.debugWindowRead off) s = .next { s with
          lastRead := (wordAt (s.tile s.dbg.selected).memNow ((off - 0x40000) / 4)).toNat } ∧
        (s.quiet s.dbg.selected = false → exec (.debugWindowWrite off v) s =
          .next { s with dbg := { s.dbg with ignored := min (s.dbg.ignored + 1) 0xFFFFFFFF } }) ∧
        (s.quiet s.dbg.selected = true → ∃ s', exec (.debugWindowWrite off v) s = .next s' ∧
          wordAt (s'.tile s.dbg.selected).memNow ((off - 0x40000) / 4) = v ∧
          (∀ u, u ≠ s.dbg.selected → s'.tile u = s.tile u))) ∧
      (∀ off, 0x80000 ≤ off → off < 0x84000 → exec (.debugWindowWrite off v) s =
        .next { s with dbg := { s.dbg with ignored := min (s.dbg.ignored + 1) 0xFFFFFFFF } })) ∧
    (∀ n o, n ≤ 8 → o < 960 → o % 4 = 0 → (s.mb n).done = true →
      exec (.registerWrite (0x10000 + 4096 * n + 64 + o) (v.setWidth 512) 4) s =
        .next (s.modMb n fun m => { m with payload := memPut m.payload o (leBytes 4 v.toNat) })) ∧
    (∀ n o (w : BitVec 512), n ≤ 8 → o < 960 → o % 8 = 0 → (s.mb n).done = true →
      exec (.registerWrite (0x10000 + 4096 * n + 64 + o) w 8) s =
        .next (s.modMb n fun m => { m with
          payload := memPut (memPut m.payload o (leBytes 4 (w.toNat % 2 ^ 32))) (o + 4) (leBytes 4 (w.toNat / 2 ^ 32 % 2 ^ 32)) })) ∧
    (∀ n o, n ≤ 8 → o < 960 → o % 4 = 0 → (s.mb n).done = false →
      exec (.registerWrite (0x10000 + 4096 * n + 64 + o) (v.setWidth 512) 4) s =
        .next (s.modMb n fun m => { m with ignored := min (m.ignored + 1) 0xFFFFFFFF })) ∧
    (∀ off size (w : BitVec 512), off < 0x4000 → ((size ≠ 4 ∧ size ≠ 8) ∨ off % size ≠ 0) → exec (.registerWrite off w size) s =
      .next { s with link := { s.link with badAccess := s.link.badAccess + 1 } }) ∧
    (exec (.registerWrite 0x2010 (v.setWidth 512) 4) s =
      .next (State.overflowIfDue { s with evr := { s.evr with consumer := v.toNat } }))

/-- Register writes and reads, doorbells and debug accesses: `Claims.RingControlsAndDoorbells` and
`Claims.RegisterAndDebugAccess`. -/
def Obligations.RegisterAccess : Prop :=
  Claims.RingControlsAndDoorbells ∧ Claims.RegisterAndDebugAccess

/-- R415, R416, R490. PLDM requests are answered while the I3C port is served and not before: the types, a sensor's reading, the
identity, the black box. The emergency power-off, while the port is served, ends every run, takes every cluster and stack
down (a cluster whose power-up runs, at its end), begins every Hikolink port's shut-down, discards HBM and fails every
command in flight, once; a flash copy that ends leaves its slot valid. Completing, with the next state of its own effect
under its clause's conditions: PLDM_BASE, PLDM_PLATFORM, PLDM_FRU, PLDM_FILE_TRANSFER, EMERGENCY_POWER_OFF,
BLACKBOX_COPY_DONE. -/
def Obligations.OutOfBandAndPowerOff : Prop :=
  ∀ (s : State),
    (s.i3cUp = false → exec .pldmBase s = .next s ∧ exec .pldmFru s = .next s ∧ (∀ n, exec (.pldmPlatform n) s = .next s) ∧
      ∀ n, exec (.pldmFileTransfer n) s = .next s) ∧
    (s.i3cUp = true →
      exec .pldmBase s = .next { s with i3c := { code := 0, vals := [0, 2, 4, 7] ++ [0, 2, 4, 7].map Config.pldmVersion } } ∧
      exec .pldmFru s = .next { s with i3c := { code := 0, vals := [s.fuses.serial, s.fuses.deviceId, s.fuses.stepping,
        s.flash.running.version] } } ∧
      (∀ m, m < 16 → exec (.pldmPlatform (1152 + m)) s =
        .next { s with i3c := { code := 0, vals := [((s.memport m).temp % 65536).toNat] } }) ∧
      exec (.pldmPlatform 1168) s = .next { s with i3c := { code := 0, vals := [s.power.capW] } } ∧
      exec (.pldmPlatform 1170) s = .next { s with i3c := { code := 0, vals := [s.power.vinMv] } } ∧
      (∀ n, n ≤ 2 → ∃ s' l, exec (.pldmFileTransfer n) s = .next s' ∧ s' = { s with i3c := { code := 0, vals := l } }) ∧
      (∀ n, 2 < n → exec (.pldmFileTransfer n) s = .next { s with i3c := { code := 1, vals := [] } })) ∧
    (s.i3cUp = false ∨ s.boot.poweredOff = true → exec .emergencyPowerOff s = .next s) ∧
    (s.i3cUp = true → s.boot.poweredOff = false → ∃ s', exec .emergencyPowerOff s = .next s' ∧ s'.boot.poweredOff = true ∧
      s'.boot.epoOrTrip = true ∧ s'.hbm = [] ∧
      (∀ c, c < 288 → ((s.cluster c).rising = false → (s'.cluster c).power = false) ∧
        ((s.cluster c).rising = true → (s'.cluster c).downHeld = true)) ∧
      (∀ m, m < 16 → (s'.memport m).trained = false) ∧
      (∀ q, q < 6 → (s.hport q).up = true → (s'.hport q).shutting = true) ∧
      (∀ n, n ≤ 8 → (s'.mb n).done = true) ∧
      (∀ p, running (s.part p).st = true → running (s'.part p).st = false) ∧ s'.fuses = s.fuses) ∧
    (∀ n c k, s.bb.copying = some (n, c, k) → ∃ s', exec .blackboxCopyDone s = .next s' ∧ s'.bb.copying = none ∧
      (s'.flash.slot n).valid = true ∧ s.eventCount < s'.eventCount) ∧
    (s.bb.copying = none → exec .blackboxCopyDone s = .next s)

/-- R354, R496, R511, R512. While the responder answers: the version starts the connection again; capabilities, algorithms,
digests, the certificate of slot 0, a challenge and measurements follow in their order; a session is agreed, established,
kept alive, re-keyed and ended; up to 4 at once. A request out of order gets an error. DOE discovery names three types.
Response codes and the discovery form are the model's (PRESUMED, log entries 79 and 80). Completing, with the next state of
its own effect under its clause's conditions: GET_VERSION, GET_CAPABILITIES, NEGOTIATE_ALGORITHMS, GET_DIGESTS,
GET_CERTIFICATE, CHALLENGE, GET_MEASUREMENTS, KEY_EXCHANGE, FINISH, KEY_UPDATE, HEARTBEAT, END_SESSION, DOE_DISCOVERY. -/
def Obligations.AttestationResponder : Prop :=
  ∀ (s : State),
    (s.doeUp = true → ∀ i, i ≤ 2 → exec (.doeDiscovery i) s =
      .next { s with doe := { code := 0, vals := [1, i, (i + 1) % 3] } }) ∧
    (s.doeUp = false → ∀ i, exec (.doeDiscovery i) s = .next s) ∧
    (s.spdmUp = false → exec .getVersion s = .next s ∧ exec .getDigests s = .next s) ∧
    (s.spdmUp = true →
      exec .getVersion s = .next { s with spdm := { version := true }, doe := { code := 0x04, vals := [0x13] } } ∧
      (s.spdm.version = true → exec .getCapabilities s =
        .next { s with spdm := { s.spdm with caps := true }, doe := { code := 0x61, vals := [] } }) ∧
      (s.spdm.version = false → exec .getCapabilities s = .next { s with doe := { code := 0x7F, vals := [4] } }) ∧
      (s.spdm.version = true → s.spdm.caps = true → exec (.negotiateAlgorithms true) s =
        .next { s with spdm := { s.spdm with algs := true }, doe := { code := 0x63, vals := [] } }) ∧
      (s.agreed = true →
        exec .getDigests s = .next { s with doe := { code := 0x01, vals := [1] } } ∧
        exec (.getCertificate 0) s = .next { s with doe := { code := 0x02, vals := s.fuses.serial :: s.fuses.publicKeys } } ∧
        exec (.challenge 0) s = .next { s with doe := { code := 0x03, vals := s.measurements } } ∧
        exec (.getMeasurements 0xFF) s = .next { s with doe := { code := 0x60, vals := s.measurements } } ∧
        exec (.getMeasurements 1) s =
          .next { s with doe := { code := 0x60, vals := [s.flash.running.digest.toNat] } } ∧
        exec (.getMeasurements 2) s = .next { s with doe := { code := 0x60, vals := [s.fuses.digest.toNat] } }) ∧
      (∀ req, s.agreed = true → s.session req.session = none → s.spdm.sessions.length < 4 →
        exec (.keyExchange req) s = .next { s with
          spdm := { s.spdm with sessions := s.spdm.sessions ++ [(req.session, false)] }
          doe := { code := 0x64, vals := [req.session] } }) ∧
      (∀ req, s.session req.session = some false → ∃ s', exec (.finish req) s = .next s' ∧
        s'.session req.session = (if req.verifyOk then some true else none) ∧
        (∀ n, n ≠ req.session → s'.session n = s.session n)) ∧
      (∀ req, s.session req.session = some true →
        exec (.heartbeat req) s = .next { s with doe := { code := 0x68, vals := [req.session] } } ∧
        (∃ s', exec (.keyUpdate req) s = .next s' ∧
          tget 0 s'.spdm.keyGens req.session = tget 0 s.spdm.keyGens req.session + 1 ∧
          s'.spdm.sessions = s.spdm.sessions) ∧
        (∃ s', exec (.endSession req) s = .next s' ∧ s'.session req.session = none ∧
          (∀ n, n ≠ req.session → s'.session n = s.session n))) ∧
      (∀ req, s.session req.session ≠ some true →
        exec (.heartbeat req) s = .next { s with doe := { code := 0x7F, vals := [4] } }))

/-- R531, R532, R534. The switch ramps only with PWR_EN and MATE_OK# good and nothing holding it open: PWR_EN_RISE, MATE_OK_FALL,
a rise held over a shut-down and a re-close after a voltage fault each start it; PWRGD_RELEASE ends it. A rise during a
shut-down, or while the capacitance bleeds for 1 s, is held; a latch is released only after PWR_EN was low for 1 s.
Completing, with the next state of its own effect under its clause's conditions: PWR_EN_RISE, PWRGD_RELEASE, SWITCH_RECLOSE,
MATE_OK_FALL, HELD_PWR_EN_POWER_UP. -/
def Claims.PowerUpByPins : Prop :=
  ∀ (s : State), s.pins.switchOn = false →
    (s.pins.mateOk = true → s.pins.opening = false → s.pins.openedAt = none → s.pins.latched = false →
      s.pins.faultOpen = false →
      exec .pwrEnRise s = .next { s with pins := { s.pins with pwrEn := true, powering := true } } ∧
      (s.pins.pwrEn = true → exec .mateOkFall s = .next { s with pins := { s.pins with powering := true } })) ∧
    (s.pins.mateOk = false → exec .pwrEnRise s = .next { s with pins := { s.pins with pwrEn := true } }) ∧
    (s.pins.mateOk = true → s.pins.opening = true →
      exec .pwrEnRise s = .next { s with pins := { s.pins with pwrEn := true, riseHeld := true } }) ∧
    (∀ t, s.pins.mateOk = true → s.pins.opening = false → s.pins.openedAt = none → s.pins.latched = true →
      s.pins.lowSince = some t → s.pins.faultOpen = false →
      (t + 1000000000 ≤ s.pinNow → ∃ s', exec .pwrEnRise s = .next s' ∧ s'.pins.latched = false ∧ s'.pins.powering = true) ∧
      (s.pinNow < t + 1000000000 → exec .pwrEnRise s = .next { s with pins := { s.pins with pwrEn := true } })) ∧
    (s.pins.powering = true → s.pins.pwrEn = true → s.pins.mateOk = true →
      exec .pwrgdRelease s = .next { s with pins := { s.pins with powering := false, switchOn := true, pwrgd := true } }) ∧
    (s.pins.powering = false → exec .pwrgdRelease s = .next s) ∧
    (∀ t, s.pins.openedAt = some t →
      (s.pinNow < t + 1000000000 → exec .heldPwrEnPowerUp s = .next s ∧
        (s.pins.mateOk = true → exec .pwrEnRise s = .next { s with pins := { s.pins with pwrEn := true, riseHeld := true } })) ∧
      (t + 1000000000 ≤ s.pinNow → s.pins.riseHeld = true → s.pins.pwrEn = true → s.pins.mateOk = true →
        s.pins.latched = false → s.pins.faultOpen = false → exec .heldPwrEnPowerUp s =
          .next { s with pins := { s.pins with riseHeld := false, openedAt := none, powering := true } })) ∧
    (s.pins.riseHeld = false → exec .heldPwrEnPowerUp s = .next s) ∧
    (∀ mv, s.pins.faultOpen = true →
      ((if s.pins.overOpen then 40000 ≤ mv ∧ mv < 58000 else 44000 < mv ∧ mv ≤ 60000) →
        ∃ s', exec (.switchReclose mv) s = .next s' ∧ s'.pins.faultOpen = false ∧ s'.power.vinMv = mv ∧
          (s.pins.pwrEn = true → s.pins.mateOk = true → s.pins.latched = false → s.pins.openedAt = none →
            s'.pins.powering = true)) ∧
      (mv < 40000 ∨ 60000 < mv → exec (.switchReclose mv) s = .next (s.inputAt mv) ∧ (s.inputAt mv).boot.powerSteady = false))

/-- R466, R531, R533. PWR_EN low or MATE_OK# high with the switch on powers the module off and begins to open the switch; below
44 V the module powers off with the switch on; below 40 V or above 60 V, over each current limit, and above 125 °C the switch
opens: power good falls, tiles and events are lost, fuses and flash licences stay. Completing, with the next state of its own
effect under its clause's conditions: PWR_EN_FALL, MATE_OK_RELEASE, INPUT_SWITCH_OPEN, VIN_UNDERVOLTAGE, VIN_BROWNOUT,
VIN_OVERVOLTAGE, OVERCURRENT_LATCH, SWITCH_OVERTEMP. -/
def Claims.PowerDownByPins : Prop :=
  ∀ (s : State), s.pins.switchOn = true →
    (s.pins.opening = false →
      (∃ s', exec .pwrEnFall s = .next s' ∧ s'.pins.opening = true ∧ s'.pins.pwrEn = false ∧ s'.boot.poweredOff = true ∧
        s'.pins.switchOn = true) ∧
      (∃ s', exec .mateOkRelease s = .next s' ∧ s'.pins.opening = true ∧ s'.pins.mateOk = false ∧
        s'.boot.poweredOff = true)) ∧
    (s.pins.opening = true → ∃ s', exec .inputSwitchOpen s = .next s' ∧ s'.pins.switchOn = false ∧
      s'.pins.pwrgd = false ∧ s'.pins.openedAt.isSome = true ∧ s'.tiles = [] ∧ s'.fuses = s.fuses) ∧
    (s.pins.opening = false → exec .inputSwitchOpen s = .next s) ∧
    (∀ mv, mv < 44000 → s.boot.poweredOff = false → ∃ s', exec (.vinUndervoltage mv) s = .next s' ∧
      s'.boot.poweredOff = true ∧ s'.power.vinMv = mv ∧ s'.pins.switchOn = true ∧ s.eventCount < s'.eventCount) ∧
    (∀ mv, 44000 ≤ mv → exec (.vinUndervoltage mv) s = .next (s.inputAt mv) ∧ (s.inputAt mv).power.vinMv = mv) ∧
    (∀ mv, mv < 40000 → ∃ s', exec (.vinBrownout mv) s = .next s' ∧ s'.pins.switchOn = false ∧ s'.pins.faultOpen = true ∧
      s'.pins.overOpen = false ∧ s'.pins.pwrgd = false ∧ s'.tiles = [] ∧ s'.power.vinMv = mv ∧ s'.fuses = s.fuses) ∧
    (∀ mv, 60000 < mv → ∃ s', exec (.vinOvervoltage mv) s = .next s' ∧ s'.pins.switchOn = false ∧
      s'.pins.overOpen = true ∧ s'.pins.pwrgd = false ∧ s'.tiles = [] ∧ s'.flash.licences = s.flash.licences) ∧
    (∀ ma us, (440000 < ma ∧ 100000 ≤ us) ∨ (520000 < ma ∧ 10000 ≤ us) ∨ (900000 < ma ∧ 2 ≤ us) →
      ∃ s', exec (.overcurrentLatch ma us) s = .next s' ∧ s'.pins.latched = true ∧ s'.pins.switchOn = false ∧
        s'.pins.pwrgd = false) ∧
    (∀ ma us, ma ≤ 440000 ∨ us < 2 → exec (.overcurrentLatch ma us) s =
      .next { s with power := { s.power with iinMa := ma } }) ∧
    (∀ t : Int, 125 * 16 < t → ∃ s', exec (.switchOvertemp t) s = .next s' ∧ s'.pins.latched = true ∧
      s'.pins.switchOn = false) ∧
    (∀ t : Int, t ≤ 125 * 16 → exec (.switchOvertemp t) s = .next s)

/-- Powering up and down by the pins: `Claims.PowerUpByPins` and `Claims.PowerDownByPins`. -/
def Obligations.PowerByPins : Prop :=
  Claims.PowerUpByPins ∧ Claims.PowerDownByPins

/-- R3, R433, R451 to R453, R459 to R464. A sample of a cluster of an enabled stripe sets its temperatures and its thermal
cadence; at 110 °C the cluster trips: its power goes, after the end of a power-up that runs, and an event is raised. A
tripped cluster powers up below 90 °C; after 2 s without cooling its partition's recovery has timed out. A margin below 25 mV
raises the cluster's offset by 5 mV, or at a limit marks the step unavailable. The model's own choice of log entry 64 stands
in it. Completing, with the next state of its own effect under its clause's conditions: CLUSTER_TEMP_SAMPLE,
THERMAL_RECOVERY, MARGIN_REPORT. -/
def Obligations.HeatAndMargins : Prop :=
  ∀ (s : State) (c : Nat),
    (s.stripeOn (c / 36) = false → (∀ l, exec (.clusterTempSample c l) s = .next s) ∧
      ∀ m mv, exec (.marginReport c m mv) s = .next s) ∧
    (s.stripeOn (c / 36) = true → ∀ (l : List Int) (t : Int), t = (hottest l).1 →
      ∃ s', exec (.clusterTempSample c l) s = .next s' ∧ (s'.cluster c).temps = l ∧
      (s'.cluster c).thermal = (thermalNext (s.cluster c).thermal (s.cluster c).below t).1 ∧
      (t < 110 * 16 → (s'.cluster c).power = (s.cluster c).power ∧ (s'.cluster c).tripped = (s.cluster c).tripped) ∧
      (110 * 16 ≤ t → (s.cluster c).power = true → (s.cluster c).tripped = false → (s.cluster c).rising = false →
        (s'.cluster c).power = false ∧ (s'.cluster c).tripped = true ∧
        ((∀ p, s.partOfCluster c = some p → s.afterDone p = false) → s.eventCount < s'.eventCount)) ∧
      (110 * 16 ≤ t → (s.cluster c).rising = true → (s.cluster c).downHeld = false →
        (s'.cluster c).downHeld = true ∧ (s'.cluster c).rising = true ∧ (s'.cluster c).tripped = true)) ∧
    ((s.cluster c).tripped = true → s.boot.poweredOff = false →
      (∀ t : Int, t < 90 * 16 → (s.cluster c).power = false → (s.cluster c).rising = false →
        (s.cluster c).powerUpHeld = false →
        ∃ s', exec (.thermalRecovery c t) s = .next s' ∧
          ((s'.cluster c).powerUpHeld = true ∨ (s'.cluster c).rising = true)) ∧
      (∀ (t : Int) (p : Nat), 90 * 16 ≤ t → (s.cluster c).tripAt + 2000000000 < s.now → s.partOfCluster c = some p →
        exec (.thermalRecovery c t) s = .next (s.modPart p fun q => { q with recoveryTimeout := running q.st })) ∧
      (∀ t : Int, 90 * 16 ≤ t → s.now ≤ (s.cluster c).tripAt + 2000000000 → exec (.thermalRecovery c t) s = .next s)) ∧
    ((s.cluster c).tripped = false → ∀ t, exec (.thermalRecovery c t) s = .next s) ∧
    (s.stripeOn (c / 36) = true →
      (∀ m mv, 25 ≤ mv → exec (.marginReport c m mv) s =
        .next (s.modCluster c fun k => { k with margins := tset k.margins m (min mv 255) })) ∧
      (∀ m mv, mv < 25 → tget 0 (s.cluster c).offsets s.power.step < 20 → s.voltage c s.power.step + 5 ≤ 850 →
        ∃ s', exec (.marginReport c m mv) s = .next s' ∧ s.eventCount < s'.eventCount ∧
          tget 0 (s'.cluster c).offsets s.power.step = tget 0 (s.cluster c).offsets s.power.step + 5 ∧
          s'.flash = s.flash) ∧
      (∀ m mv, mv < 25 → (20 ≤ tget 0 (s.cluster c).offsets s.power.step ∨ 850 < s.voltage c s.power.step + 5) →
        s.power.step < 8 →
        ∃ s', exec (.marginReport c m mv) s = .next s' ∧ s'.flash.stepsUnavailable.getLsbD s.power.step = true ∧
          s.eventCount < s'.eventCount ∧
          tget 0 (s'.cluster c).offsets s.power.step = tget 0 (s.cluster c).offsets s.power.step))

/-- R441, R442, R446 to R449, R455, R456, R458 to R461. The input voltage and current are recorded with their product P1, which,
3 kW over the cap, asks for a slower step at once, and over 21 kW sets the backstop. Phases kept active are 4 to 16 in each
module; a lost phase is recorded once. A clock generator that loses lock stops the runs; a field generator's second
synthesiser takes over from the first. A step change takes effect once no partition is in a tide; a cluster's staged
switching ends with its power on, or off. The model's own choices of log entries 63, 118 and 172 stand in it. Completing,
with the next state of its own effect under its clause's conditions: POWER_CAP_EVAL, PHASE_STAGING, PHASE_LOSS,
PLL_LOCK_LOSS, REGULATOR_SETTLED, CLOCK_SWITCH, CLUSTER_POWER_UP_DONE, CLUSTER_POWER_DOWN_DONE. -/
def Claims.PowerAndClocks : Prop :=
  ∀ (s : State),
    (∀ mv ma w, w = mv * ma / 1000000 → ∃ s', exec (.powerCapEval (mv, ma)) s = .next s' ∧ s'.power.p1 = w ∧
      s'.power.vinMv = mv ∧ s'.power.iinMa = ma ∧ s'.power.step = s.power.step ∧
      (s.effectiveW + 3000 < w → s.power.lastSlow = none →
        s'.power.capStep = max s.otherStep (min 7 (s.power.step + 1)) ∧ s'.power.lastSlow = some s.now) ∧
      (21000 < w → s'.power.backstop = true)) ∧
    (∃ s', exec .phaseStaging s = .next s' ∧ 4 ≤ s'.power.activePhases ∧ s'.power.activePhases ≤ 16 ∧
      s'.tiles = s.tiles ∧ s'.parts = s.parts) ∧
    (∀ f, f < 384 → s.flash.phasesLost.contains f = false → ∃ s', exec (.phaseLoss f) s = .next s' ∧
      s'.flash.phasesLost.contains f = true ∧ s.eventCount < s'.eventCount) ∧
    (∀ f, s.flash.phasesLost.contains f = true → exec (.phaseLoss f) s = .next s) ∧
    (∀ i, 25 ≤ i → (tget {} s.power.gens i).lost = [] → ∃ s', exec (.pllLockLoss i false) s = .next s' ∧
      (tget {} s'.power.gens i).second = !(tget {} s.power.gens i).second ∧
      s'.power.clockFailed = s.power.clockFailed ∧ s'.eventCount = s.eventCount ∧ s'.parts = s.parts) ∧
    (∀ i b, (i < 25 ∨ b = true ∨ (tget {} s.power.gens i).lost ≠ []) → ∃ s', exec (.pllLockLoss i b) s = .next s' ∧
      s'.power.clockFailed = true ∧ s.eventCount < s'.eventCount ∧
      (∀ p, running (s.part p).st = true → (s'.part p).faultBell = true)) ∧
    (s.ownStep.1 < s.power.step → exec .regulatorSettled s =
      .next { s with power := { s.power with rising := some s.ownStep.1 } }) ∧
    (s.power.step ≤ s.ownStep.1 → exec .regulatorSettled s = .next s) ∧
    (s.ready = true → s.switchReady = true → s.stepWanted ≠ s.power.step →
      ∃ s', exec .clockSwitch s = .next s' ∧ s'.power.step = s.stepWanted ∧ s'.power.rising = none ∧
        s.eventCount < s'.eventCount ∧ (s.runningParts = [] → s'.parts = s.parts)) ∧
    (s.ready = false ∨ s.switchReady = false ∨ s.stepWanted = s.power.step → exec .clockSwitch s = .next s) ∧
    (∀ c, (s.cluster c).rising = true → (s.cluster c).powerUpHeld = false →
      ((s.cluster c).downHeld = false → ∃ s', exec (.clusterPowerUpDone c) s = .next s' ∧ (s'.cluster c).power = true ∧
        (s'.cluster c).rising = false ∧ (s'.cluster c).switching = false ∧
        ((s.cluster c).tripped = false → (∀ w, s.scan = some w → w.cluster ≠ c) →
          ∀ t ∈ s.tilesOfCluster c, (s'.tile t).inReset = true)) ∧
      ((s.cluster c).downHeld = true → ∃ s', exec (.clusterPowerUpDone c) s = .next s' ∧ (s'.cluster c).power = false ∧
        (s'.cluster c).rising = false ∧ (s'.cluster c).switching = true)) ∧
    (∀ c, (s.cluster c).rising = false → exec (.clusterPowerUpDone c) s = .next s) ∧
    (∀ c, (s.cluster c).switching = true → (s.cluster c).rising = false → (s.cluster c).powerUpHeld = false →
      ∃ s', exec (.clusterPowerDownDone c) s = .next s' ∧ (s'.cluster c).switching = false ∧
        (s'.cluster c).power = (s.cluster c).power) ∧
    (∀ c, (s.cluster c).switching = false → exec (.clusterPowerDownDone c) s = .next s)

/-- R361, R368, R386, R387, R402, R409, R410. A telemetry period writes the kinds asked for, the power figures last; the
heartbeat counts and reports while the firmware runs, and stands still while the core restarts; a watchdog stops every run at
its next stop point, fails the commands in flight, and gives up a bank on trial for a fallback that verifies. The model's own
choices of log entries 82, 125 and 171 stand in it. Completing, with the next state of its own effect under its clause's
conditions: TELEMETRY_PERIOD, HEARTBEAT_REGISTER_TICK, HEARTBEAT_INTERVAL, WATCHDOG_EXPIRE. -/
def Claims.TelemetryAndWatchdog : Prop :=
  ∀ (s : State),
    (∀ l, s.telemetryKinds = 0 → exec (.telemetryPeriod l) s = .next { s with power := { s.power with currents := l } }) ∧
    (∀ l, s.telemetryKinds = 4 → s.tlr.en = true → s.link.access = true → s.tlr.free ≠ 0 →
      ∃ s' tail, exec (.telemetryPeriod l) s = .next s' ∧ s'.tlr.producer = (s.tlr.producer + 1) % 2 ^ 32 ∧
        s'.posted = s.posted ++ Posted.telemetry (s.tlr.base + 64 * (s.tlr.producer % 2 ^ s.tlr.logSize))
          (TelemetryRec.bytes { kind := 2, index := 0, ts := s.now, data := s.powerRec }) :: tail) ∧
    (s.fwRuns = true →
      exec .heartbeatRegisterTick s = .next { s with heartbeatReg := s.heartbeatReg + 1 } ∧
      (0 < s.heartbeatS → ∃ s', exec .heartbeatInterval s = .next s' ∧ s.eventCount < s'.eventCount ∧ s'.mbx = s.mbx) ∧
      (∃ s' e, exec .watchdogExpire s = .next s' ∧ (∀ n, n ≤ 8 → (s'.mb n).done = true) ∧
        (∀ p, running (s.part p).st = true → (s'.part p).stopPending = true) ∧
        e ∈ s'.bb.log ∧ e.code = 0x0720 ∧ e.payload = BitVec.ofNat 64 s.inFlight ∧ s'.fwRestart ≤ 2000 ∧
        (s.flash.onTrial = true → s'.flash.onTrial = false ∧
          (s.flash.bankOk s.flash.other true = true → s'.flash.running = s.flash.other)))) ∧
    (s.fwRuns = false → exec .heartbeatInterval s = .next s ∧ exec .watchdogExpire s = .next s ∧
      (s.fwRestart = 0 → exec .heartbeatRegisterTick s = .next s)) ∧
    (s.fwRestart ≠ 0 → exec .heartbeatRegisterTick s = .next { s with fwRestart := s.fwRestart - 1 }) ∧
    (s.heartbeatS = 0 → exec .heartbeatInterval s = .next s)

/-- Power limits, clock steps, telemetry and the watchdog: `Claims.PowerAndClocks` and `Claims.TelemetryAndWatchdog`. -/
def Obligations.PowerClocksTelemetry : Prop :=
  Claims.PowerAndClocks ∧ Claims.TelemetryAndWatchdog

/-- R479 to R482. A due canary of a tile about to issue its slot in sequence starts the kernel's bundles, once a tide; where none
is due nothing starts. The compare of a finished slot ends it: equal, nothing else changes; different, the tile stops issuing
and a hardware fault is raised. The model's own choice of log entry 38 stands in it. Completing, with the next state of its
own effect under its clause's conditions: CANARY_RUN, CANARY_COMPARE. -/
def Claims.CanaryRuns : Prop :=
  ∀ (s : State) (t : TileId),
    (s.canaryStarts t = true → ∃ s', exec (.canaryRun t) s = .next s' ∧ (s'.tile t).canaryRunning = true ∧
      (s'.tile t).canaryRan = true ∧ (s'.tile t).kernel = s.kernelFor t ∧ (s'.tile t).pc = (s.tile t).pc ∧
      s'.canaryStarts t = false ∧ (∀ u, u ≠ t → s'.tile u = s.tile u)) ∧
    (s.canaryStarts t = false → exec (.canaryRun t) s = .next s) ∧
    (s.acts t = false → exec (.canaryCompare t) s = .next s) ∧
    (∀ e k, s.acts t = true → (s.tile t).canaryEnd = some e → (s.kernelList t)[(s.tile t).kernel]? = some k → e < (s.tile t).ecc →
      ((s.tile t).canaryCrc = k.expected →
        exec (.canaryCompare t) s = .next (s.modTile t fun x => { x with canaryEnd := none })) ∧
      ((s.tile t).canaryCrc ≠ k.expected → (s.tile t).faulted = none → s.inTide t = true →
        ∃ s', exec (.canaryCompare t) s = .next s' ∧ (s'.tile t).canaryEnd = none ∧ (s'.tile t).issuing = false ∧
          ((∀ p, s.partOf t = some p → s.afterDone p = false) → s.eventCount < s'.eventCount) ∧ (∃ f, (s'.tile t).faulted = some f ∧ f.code = 0x0701))) ∧
    ((s.tile t).canaryEnd = none → exec (.canaryCompare t) s = .next s)

/-- R518 to R520. Feeding a half-word is feeding its two bytes, the low one first, and a word its two half-words; a value written
to CV_VALUE of a unit with a legal configuration reads back, in the unit's width; a reserved configuration feeds nothing,
reads 0 and clears START. The other unit never changes. Completing, with the next state of its own effect under its clause's
conditions: CV_DATA8, CV_DATA16, CV_DATA32, CV_VALUE. -/
def Claims.CheckValueUnits : Prop :=
  ∀ (s : State),
    (∀ v : BitVec 16, ∃ s1 s2, exec (.cvData8 0 (v.setWidth 8)) s = .next s1 ∧
      exec (.cvData8 0 ((v >>> 8).setWidth 8)) s1 = .next s2 ∧ exec (.cvData16 0 v) s = .next s2 ∧ s2.cv1 = s.cv1) ∧
    (∀ v : Word, ∃ s1 s2, exec (.cvData16 0 (v.setWidth 16)) s = .next s1 ∧
      exec (.cvData16 0 ((v >>> 16).setWidth 16)) s1 = .next s2 ∧ exec (.cvData32 0 v) s = .next s2) ∧
    (∀ v : BitVec 16, ∃ s1 s2, exec (.cvData8 1 (v.setWidth 8)) s = .next s1 ∧
      exec (.cvData8 1 ((v >>> 8).setWidth 8)) s1 = .next s2 ∧ exec (.cvData16 1 v) s = .next s2 ∧ s2.cv0 = s.cv0) ∧
    (∀ v : Word, ∃ s1 s2, exec (.cvData16 1 (v.setWidth 16)) s = .next s1 ∧
      exec (.cvData16 1 ((v >>> 16).setWidth 16)) s1 = .next s2 ∧ exec (.cvData32 1 v) s = .next s2) ∧
    (∀ v : DWord, s.cv0.conf.bad = false → ∃ s', exec (.cvValue 0 v) s = .next s' ∧
      s'.cv0.value = v.toNat % 2 ^ s.cv0.conf.width ∧ s'.cv0.ctrl = s.cv0.ctrl ∧ s'.cv1 = s.cv1) ∧
    (∀ v : DWord, s.cv1.conf.bad = false → ∃ s', exec (.cvValue 1 v) s = .next s' ∧
      s'.cv1.value = v.toNat % 2 ^ s.cv1.conf.width ∧ s'.cv0 = s.cv0) ∧
    (∀ b : Byte, s.cv0.conf.bad = true → ∃ s', exec (.cvData8 0 b) s = .next s' ∧ s'.cv0.value = 0 ∧
      s'.cv0.ctrl.getLsbD 31 = false ∧ s'.cv0.poly = s.cv0.poly)

/-- Canary runs and the check-value units: `Claims.CanaryRuns` and `Claims.CheckValueUnits`. -/
def Obligations.CanariesAndCheckUnits : Prop :=
  Claims.CanaryRuns ∧ Claims.CheckValueUnits

/-- R361, R387, R391, R397, R404, R409, R412, R492. Commands that only read: each completes with OK and the response the state
gives, and leaves what it reads as it was. HEARTBEAT_SET takes its interval. The model's own choices of log entries 25, 84,
85, 88, 100 and 125 stand in it. Completing, with the next state of its own effect under its clause's conditions: IDENTIFY,
LOG_READ, HEARTBEAT_SET, PARTITION_QUERY, STREAM_QUERY, PAGE_MAP_READ, POWER_QUERY, COUNTERS_READ, BLACKBOX_READ, JOB_QUERY,
QUEUE_PEEK. -/
def Claims.MailboxQueries : Prop :=
  ∀ (s : State) (n : Nat),
    (s.asks n 0x0001 0 → ∃ s', exec (.identify n) s = .next s' ∧ s.answered s' n 0 s.identity ∧ s'.tiles = s.tiles ∧
      s'.parts = s.parts ∧ s'.streams = s.streams) ∧
    (s.asks 0 0x0003 4 → s.param 0 0 4 ≤ 3600 → ∃ s', exec (.heartbeatSet 0) s = .next s' ∧ s.answered s' 0 0 [] ∧
      s'.heartbeatS = s.param 0 0 4) ∧
    (s.asks n 0x0104 1 → s.param n 0 1 ≤ 7 → (n = 0 ∨ n - 1 = s.param n 0 1) →
      ∃ s', exec (.partitionQuery n) s = .next s' ∧ s.answered s' n 0 (s.partBytes (s.param n 0 1)) ∧
        s'.parts = s.parts) ∧
    (s.asks n 0x0603 0 → s.pageExists n = true → ∃ s', exec (.powerQuery n) s = .next s' ∧
      s.answered s' n 0 s.powerBytes ∧ s'.power = s.power) ∧
    (s.asks n 0x0702 1 → s.param n 0 1 ≤ 7 → (n = 0 ∨ (s.pageExists n = true ∧ n - 1 = s.param n 0 1)) →
      ∃ s', exec (.countersRead n) s = .next s' ∧ s.answered s' n 0 (s.part (s.param n 0 1)).counterBytes ∧
        s'.parts = s.parts) ∧
    (s.asks n 0x0C01 4 → s.badTile n = (0, false) → s.tileScope n (s.param n 0 4) = none → s.dbg.tile = true →
      ∃ s', exec (.queuePeek n) s = .next s' ∧ s.answered s' n 0 ((List.range 8).flatMap fun q =>
        (s.queueRecord (s.param n 0 4) q).flatMap fun w => leBytes 4 w.toNat) ∧ s'.tiles = s.tiles) ∧
    (s.asks n 0x0404 8 → s.badField n (s.badPages n 504) [] = none → s.pageExists n = true →
      ∃ s' l, exec (.pageMapRead n) s = .next s' ∧ s.answered s' n 0 l ∧ s'.pages = s.pages) ∧
    (s.asks n 0x0305 4 → s.badField n [s.badSlotAt n 0] [] = none → s.pageExists n = true →
      s.slotUsable (s.param n 0 4) = true → ∃ s', exec (.streamQuery n) s = .next s' ∧
        s.answered s' n 0 (s.stream (s.param n 0 4)).bytes ∧ s'.streams = s.streams) ∧
    (s.asks n 0x0905 0 → s.pageExists n = true → ∃ s', exec (.jobQuery n) s = .next s' ∧ s.answered s' n 0 s.jobBytes ∧
      s'.job = s.job) ∧
    (∀ size, s.asksBuffer 0 0x0002 8 size → s.param 0 0 1 ≤ 1 → (∀ o ∈ span 1 4, memGet (s.mb 0).payload o = 0) →
      size ≤ 2 ^ 30 → s.link.access = true → ∃ s' r, exec (.logRead 0) s = .next s' ∧ s.answered s' 0 0 r ∧
        r = leBytes 4 (((s.logRecords (s.param 0 0 1)).drop (s.param 0 4 4)).take
          (size / if s.param 0 0 1 = 0 then 32 else 16)).length ++ leBytes 4 (s.logRecords (s.param 0 0 1)).length ∧
        s'.flash.repairs = s.flash.repairs) ∧
    (∀ size, s.asksBuffer 0 0x0805 1 size → s.param 0 0 1 ≤ 2 → 6 * 2 ^ 20 ≤ size → size ≤ 2 ^ 30 → s.link.access = true →
      ∃ s' tail, exec (.blackboxRead 0) s = .next s' ∧ s.answered s' 0 0 [] ∧
        s'.posted = s.posted ++ Posted.buffer 0 (s.mb 0).opcode (s.bbRead (s.param 0 0 1)) :: tail)

/-- R393 to R395, R388. A command acts only on the page whose running opcode it is; a block of another length completes
BAD_LENGTH, a device command of another page NOT_PERMITTED, and a bad field BAD_FIELD at its lowest byte, with no effect. -/
def Claims.MailboxRefusals : Prop :=
  ∀ (s : State) (n : Nat), (s.mb n).done = false →
    ((s.mb n).running ≠ some 0x0601 → exec (.powerCapSet n) s = .next s) ∧
    ((s.mb n).running = some 0x0601 →
      ((s.mb n).length ≠ 4 → ∃ s', exec (.powerCapSet n) s = .next s' ∧ s.answered s' n 0x0102 [] ∧
        s'.power = s.power) ∧
      (n ≠ 0 → s.asks n 0x0601 4 → 3000 ≤ s.param n 0 4 → s.param n 0 4 ≤ 18000 → s.param n 0 4 % 50 = 0 →
        ∃ s', exec (.powerCapSet n) s = .next s' ∧ s.answered s' n 0x0104 [] ∧ s'.power = s.power)) ∧
    (s.asks n 0x0701 8 → (s.param n 0 4 < 1000 ∨ 1000000 < s.param n 0 4) →
      ∃ s', exec (.telemetryConfig n) s = .next s' ∧ s.answered s' n 0x0103 [] ∧ (s'.mb n).offset = 0 ∧
        s'.telemetryUs = s.telemetryUs) ∧
    (s.asks n 0x0701 8 → s.param n 0 4 = 1000 → 7 < s.param n 4 4 →
      ∃ s', exec (.telemetryConfig n) s = .next s' ∧ s.answered s' n 0x0103 [] ∧ (s'.mb n).offset = 4 ∧
        s'.telemetryKinds = s.telemetryKinds)

/-- Mailbox commands that read, and the refusals of mailbox commands: `Claims.MailboxQueries` and `Claims.MailboxRefusals`. -/
def Obligations.MailboxQueriesAndRefusals : Prop :=
  Claims.MailboxQueries ∧ Claims.MailboxRefusals

/-- R210, R397, R398, R426, R427. PARTITION_CREATE makes the partition its block describes, EMPTY; with its traffic in the mesh
it waits up to 1 ms for the drain, and then completes BUSY; PARTITION_SET writes the weight it selects; PARTITION_DESTROY
puts the partition's tiles in reset and waits, and with UNIT_RESET_DONE the partition is removed and the command completes.
The model's own choices of log entries 77, 84, 86 and 91 stand in it. Completing, with the next state of its own effect under
its clause's conditions: UNIT_RESET_DONE, PARTITION_CREATE, PARTITION_DESTROY, PARTITION_SET. -/
def Claims.MailboxPartitions : Prop :=
  ∀ (s : State) (p : Nat),
    (s.asks 0 0x0101 40 → s.param 0 0 1 = p → s.badField 0 (s.badCreate 0) (span 29 32) = none → s.createLicence 0 = false →
      s.trafficIn (s.param 0 1 1) (s.param 0 2 1) = false → s.resets = [] →
      s.withdrawnOf (s.param 0 1 1) (s.param 0 2 1) = none →
      ∃ s', exec (.partitionCreate 0) s = .next s' ∧ s.answered s' 0 0 [] ∧ (s'.part p).st = .empty ∧
        (s'.part p).firstStripe = s.param 0 1 1 ∧ (s'.part p).stripeCount = s.param 0 2 1 ∧
        (s'.part p).homeFrames = s.param 0 4 4 ∧ (s'.part p).slotFirst = s.param 0 12 4 ∧
        (s'.part p).slotCount = s.param 0 16 4 ∧ (s'.part p).cringLog = s.param 0 28 1 ∧ (s'.part p).tide = 0 ∧
        (∀ k, k ≠ p → s'.part k = s.part k) ∧ s'.tiles = s.tiles) ∧
    (s.asks 0 0x0101 40 → s.param 0 0 1 = p → s.badField 0 (s.badCreate 0) (span 29 32) = none → s.createLicence 0 = false →
      s.trafficIn (s.param 0 1 1) (s.param 0 2 1) = true → s.resets = [] →
      s.withdrawnOf (s.param 0 1 1) (s.param 0 2 1) = none →
      ((s.mb 0).drainAt = none → exec (.partitionCreate 0) s = .next (s.modMb 0 fun m => { m with drainAt := some s.now })) ∧
      (∀ a, (s.mb 0).drainAt = some a → a + 1000000 < s.now → ∃ s', exec (.partitionCreate 0) s = .next s' ∧
        s.answered s' 0 0x0108 [] ∧ s'.parts = s.parts)) ∧
    (∀ n, s.asks n 0x0103 40 → s.param n 0 1 = p → s.param n 1 1 = 1 →
      s.badField n [s.badPart n, (1, false)] ([2] ++ span 4 28 ++ span 29 32) = none → s.partScope n p = none →
      (s.part p).idle = true → s.partHeld n p = false →
      ∃ s', exec (.partitionSet n) s = .next s' ∧ s.answered s' n 0 [] ∧
        s'.part p = { s.part p with cxlWeight := if s.param n 3 1 = 0 then 16 else s.param n 3 1 }) ∧
    (s.asks 0 0x0102 1 → s.param 0 0 1 = p → p ≤ 7 → (s.part p).idle = true → s.unused p = true → s.partHeld 0 p = false →
      s.trafficIn (s.part p).firstStripe (s.part p).stripeCount = false → s.resets = [] →
      ∃ s', exec (.partitionDestroy 0) s = .next s' ∧ s'.waits 0 ∧
        s'.resets = [{ scope := 2, index := p, mbx := some 0 }] ∧ (∀ t ∈ s.tilesOf p, (s'.tile t).inReset = true)) ∧
    (s.resets = [{ scope := 2, index := p, mbx := some 0 }] → (s.part p).moves = [] → (s.mb 0).opcode = 0x0102 →
      (s.mb 0).done = false →
      ∃ s', exec (.unitResetDone 2 p) s = .next s' ∧ (s'.part p).st = .none ∧ s.answered s' 0 0 [] ∧ s'.resets = [] ∧
        (∀ k, k ≠ p → s'.part k = s.part k))

/-- R399 to R401, R485, R502 to R504. A pack staged in one chunk is held and its bytes counted; IMAGE_VERIFY of a whole staging
that passes its checks marks it verified and answers with its digest; PACK_INSTALL takes it; STAGE_DISCARD drops a staging;
WEIGHT_LOAD of a verified plain image marks the weights loaded; PROGRAM_LOAD puts the tiles in reset and waits, and with
UNIT_RESET_DONE the partition is LOADED at tide 0. Each of the three loads reads the staged bytes again: with another digest
than the verified one it completes SIGNATURE_FAIL, and the weights then count as not loaded. The model's own choices of log
entries 24, 25 and 86 stand in it. Completing, with the next state of its own effect under its clause's conditions:
UNIT_RESET_DONE, IMAGE_STAGE, IMAGE_VERIFY, PROGRAM_LOAD, WEIGHT_LOAD, PACK_INSTALL, STAGE_DISCARD. -/
def Claims.MailboxImages : Prop :=
  ∀ (s : State) (n p : Nat),
    (∀ (img : Image) (size : Nat), s.asksBuffer 0 0x0201 24 size → size ≤ 2 ^ 28 → s.param 0 0 1 = 3 → s.param 0 1 1 = 0xFF →
      (∀ o ∈ span 2 8, memGet (s.mb 0).payload o = 0) → s.param 0 8 8 = 0 → s.param 0 16 8 = size → s.link.access = true →
      ∃ s' g, exec (.imageStage 0 img) s = .next s' ∧ s.answered s' 0 0 (leBytes 8 size) ∧ s'.stage 3 0xFF = some g ∧
        g.staged = size ∧ g.total = size ∧ g.verified = false ∧ g.img.bytes = fill size img.bytes ∧ s'.flash = s.flash) ∧
    (∀ g, s.asks 0 0x0202 2 → s.param 0 0 1 = 3 → s.param 0 1 1 = 0xFF → s.stage 3 0xFF = some g → g.staged = g.total →
      s.badEnvelope 3 g = false → s.signatureFault g.img.bytes = 0 → s.badVersion (headerOf g.img.bytes) = false →
      ∃ s', exec (.imageVerify 0) s = .next s' ∧
        s'.stage 3 0xFF = some { g with verified := true, digest := imageDigest g.img.bytes } ∧
        s.answered s' 0 0 (shaBytes (g.img.bytes.take (g.img.bytes.length - 132)) ++
          leBytes 4 (headerOf g.img.bytes).version ++ leBytes 1 0 ++ leBytes 1 (b01 (headerOf g.img.bytes).sealed)) ∧
        s'.flash = s.flash) ∧
    (∀ g, s.asks 0 0x0205 0 → s.stage 3 0xFF = some g → g.verified = true →
      (s.stale 3 0xFF = false → s.flash.packs = [] → (packOf g.img).patterns = 0 → (packOf g.img).size ≤ 3 * 2 ^ 30 →
        (packOf g.img).kernels ≠ [] →
        ∃ s', exec (.packInstall 0) s = .next s' ∧ s.answered s' 0 0 [] ∧ s'.flash.packs = [packOf g.img] ∧
          s'.stage 3 0xFF = none) ∧
      (s.stale 3 0xFF = true → ∃ s', exec (.packInstall 0) s = .next s' ∧ s.answered s' 0 stSignature [] ∧
        (s'.mb 0).detail = 1 ∧ s'.flash.packs = s.flash.packs)) ∧
    (s.asks 0 0x0206 2 → s.param 0 0 1 = 3 → s.param 0 1 1 = 0xFF → ∃ s', exec (.stageDiscard 0) s = .next s' ∧
      s.answered s' 0 0 [] ∧ s'.stage 3 0xFF = none ∧ s'.flash = s.flash) ∧
    (∀ g w, s.asks n 0x0204 1 → s.param n 0 1 = p → p ≤ 7 → s.partScope n p = none → (s.part p).st = .loaded →
      s.stage 2 p = some g → g.verified = true → (headerOf g.img.bytes).sealed = false → s.homesOf g.img = some w →
      w.home.any (badHomeData (s.part p).homeFrames) = false → s.partHeld n p = false → s.resets = [] →
      s.stageUnread 2 p = false →
      (s.stale 2 p = false → ∃ s', exec (.weightLoad n) s = .next s' ∧ s.answered s' n 0 [] ∧
        (s'.part p).weightsLoaded = true ∧ (s'.part p).weightDigest = g.digest ∧ (s'.part p).sealedWeights = false ∧
        (s'.part p).st = .loaded ∧ s'.stage 2 p = none) ∧
      (s.stale 2 p = true → ∃ s', exec (.weightLoad n) s = .next s' ∧ s.answered s' n stSignature [] ∧
        (s'.mb n).detail = 1 ∧ (s'.part p).weightsLoaded = false)) ∧
    (∀ g, s.asks n 0x0203 1 → s.param n 0 1 = p → p ≤ 7 → s.partScope n p = none → (s.part p).idle = true →
      s.stage 1 p = some g → g.verified = true →
      (s.stale 1 p = false → (s.programFor p g.img).params.arithEpoch = 1 → (s.programFor p g.img).params.fabricEpoch = 1 →
        s.badImage p g.img = false → s.partHeld n p = false → s.resets = [] → s.withdrawnIn p = none →
        ∃ s', exec (.programLoad n) s = .next s' ∧ s'.waits n ∧
          s'.resets = [{ scope := 2, index := p, mbx := some n }] ∧ s'.stage 1 p = some g ∧
          (∀ t ∈ s.tilesOf p, (s'.tile t).inReset = true)) ∧
      (s.stale 1 p = true → ∃ s', exec (.programLoad n) s = .next s' ∧ s.answered s' n stSignature [] ∧
        (s'.mb n).detail = 1 ∧ s'.resets = s.resets ∧ s'.parts = s.parts)) ∧
    (∀ g, s.resets = [{ scope := 2, index := p, mbx := some n }] → (s.part p).moves = [] → (s.mb n).opcode = 0x0203 →
      (s.mb n).done = false → s.stage 1 p = some g →
      ∃ s', exec (.unitResetDone 2 p) s = .next s' ∧ (s'.part p).st = .loaded ∧
        (s'.part p).image = some (s.programFor p g.img) ∧ (s'.part p).imageDigest = g.digest ∧ (s'.part p).tide = 0 ∧
        (s'.part p).weightsLoaded = false ∧ s.answered s' n 0 [] ∧ s'.stage 1 p = none)

/-- Mailbox commands on partitions and images: `Claims.MailboxPartitions` and `Claims.MailboxImages`. -/
def Obligations.MailboxPartitionsAndImages : Prop :=
  Claims.MailboxPartitions ∧ Claims.MailboxImages

/-- R260, R264, R274, R275, R281, R282, R404 to R406, R431. With the partition not running, a stream command acts at once: OPEN
opens a CLOSED slot, CLOSE drains, PARK begins to park, RESUME opens a PARKED slot again; while it runs the command waits for
the boundary gap, and an OPEN of a draining slot is held. TIER_WINDOWS takes its windows; PAGE_BIND binds a free page in HBM;
PAGE_FREE of pages that are free completes. The model's own choices of log entries 84, 85, 87 and 89 stand in it. Completing,
with the next state of its own effect under its clause's conditions: STREAM_OPEN, STREAM_CLOSE, STREAM_PARK, STREAM_RESUME,
TIER_WINDOWS, PAGE_BIND, PAGE_FREE. -/
def Obligations.MailboxStreams : Prop :=
  ∀ (s : State) (n slot : Nat), s.pageExists n = true → s.streamRoot = true → s.slotUsable slot = true → s.preparing = none →
    (s.param n 0 4 = slot →
      (s.asks n 0x0301 136 → s.badField n (s.badOpen n) openReserved = none → (s.stream slot).enableHeld = false →
        (s.param n 86 2 = 0xFFFF ∨ s.slotUsable (s.param n 86 2) = true) → (s.part (s.slotPart slot)).streamCmds = [] →
        (s.part (s.slotPart slot)).pageCmds = [] →
        ((s.stream slot).st = .closed → running (s.part (s.slotPart slot)).st = false →
          ∃ s', exec (.streamOpen n) s = .next s' ∧ s.answered s' n 0 [] ∧ (s'.stream slot).st = .open_ ∧
            (s'.stream slot).tokenPos = 0 ∧ (s'.stream slot).cookie = BitVec.ofNat 64 (s.param n 88 8) ∧
            (∀ k, k ≠ slot → s'.stream k = s.stream k)) ∧
        ((s.stream slot).st = .draining →
          ∃ s', exec (.streamOpen n) s = .next s' ∧ s'.waits n ∧ (s'.stream slot).enableHeld = true ∧
            (s'.stream slot).st = .draining)) ∧
      (s.asks n 0x0302 4 → s.badField n [s.badSlotAt n 0] [] = none → (s.stream slot).heldMbx = none →
        isOpen (s.stream slot).st = true →
        (running (s.part (s.slotPart slot)).st = true → ∃ s', exec (.streamClose n) s = .next s' ∧ s.answered s' n 0 [] ∧
          (s'.part (s.slotPart slot)).streamCmds = (s.part (s.slotPart slot)).streamCmds ++
            [((s.mb n).order, .close slot)] ∧
          (s'.stream slot).st = (s.stream slot).st) ∧
        (running (s.part (s.slotPart slot)).st = false → (s.part (s.slotPart slot)).streamCmds = [] →
          (s.part (s.slotPart slot)).pageCmds = [] → ∃ s', exec (.streamClose n) s = .next s' ∧ s.answered s' n 0 [] ∧
          (s'.stream slot).st = .draining ∧ (s'.stream slot).drainCause = 3)) ∧
      (s.asks n 0x0303 5 → s.param n 4 1 = 0 → s.badField n [s.badSlotAt n 0, (4, false)] [] = none →
        isOpen (s.stream slot).st = true → s.licensed 2 = true → (s.stream slot).parking = false →
        s.parkForbidden slot = false → running (s.part (s.slotPart slot)).st = false →
        (s.part (s.slotPart slot)).streamCmds = [] → (s.part (s.slotPart slot)).pageCmds = [] →
        ∃ s', exec (.streamPark n) s = .next s' ∧ s.answered s' n 0 [] ∧ (s'.stream slot).parking = true ∧
          (s'.stream slot).parkTarget = 0 ∧ (s'.stream slot).st = (s.stream slot).st) ∧
      (∀ recs, s.asks n 0x0304 12 → s.param n 4 1 = 0 → s.badField n [s.badSlotAt n 0, (4, false)] (span 5 8) = none →
        (s.stream slot).st = .parked → (s.stream slot).parking = false → (s.stream slot).enableHeld = false →
        running (s.part (s.slotPart slot)).st = false → (s.part (s.slotPart slot)).streamCmds = [] →
        (s.part (s.slotPart slot)).pageCmds = [] →
        ∃ s', exec (.streamResume n recs) s = .next s' ∧ s.answered s' n 0 [] ∧ isOpen (s'.stream slot).st = true ∧
          (s'.stream slot).tokenPos = (s.stream slot).tokenPos)) ∧
    (s.asks 0 0x0401 (8 + 16 * s.param 0 0 1) → s.badField 0 (s.badWindows 0) (span 1 8) = none → s.param 0 0 1 ≤ 8 →
      s.link.uioEnable = true → (∀ q ∈ s.parts, q.2.st = .none ∨ q.2.cxlCount = 0) → s.licensed 2 = true →
      ∃ s', exec (.tierWindows 0) s = .next s' ∧ s.answered s' 0 0 [] ∧ s'.windows = s.windowsOf 0 ∧
        s'.windows.length = s.param 0 0 1) ∧
    (∀ g f, s.asks n 0x0402 12 → s.badField n (s.badPages n 4096 ++ [s.badSlotAt n 8]) [] = none → s.param n 8 4 = slot →
      s.param n 0 4 = g → s.param n 4 4 = 1 → s.pagesBusy n = none → isOpen (s.stream slot).st = true →
      (s.stream slot).pageBase ≤ g → g < (s.stream slot).pageBase + (s.stream slot).pageCount → (s.page g).st = .free →
      running (s.part (s.slotPart slot)).st = false → (s.part (s.slotPart slot)).streamCmds = [] →
      s.pickHbm (s.slotPart slot) = some f →
      ∃ s', exec (.pageBind n) s = .next s' ∧ s.answered s' n 0 [] ∧ (s'.page g).st = .hbm ∧ (s'.page g).frame = f ∧
        (s'.page g).owner = slot ∧ (s'.page g).cfill = 0 ∧ (∀ k, k ≠ g → s'.page k = s.page k)) ∧
    (s.asks n 0x0403 8 → s.badField n (s.badPages n 4096) [] = none → s.pageOwners (s.param n 0 4) (s.param n 4 4) = [] →
      s.pagesBusy n = none → ∃ s', exec (.pageFree n) s = .next s' ∧ s.answered s' n 0 [] ∧ s'.pages = s.pages)

/-- R222, R235, R407, R408, R432. RUN_START of a LOADED partition outside a job that nothing refuses starts its tide at once and
completes; RUN_SINGLE starts it and waits for the tide; RUN_STOP asks for a stop and waits; a start that not every member
accepts ends BUSY with no tide. The model's own choices of log entries 108 and 109 stand in it. Completing, with the next
state of its own effect under its clause's conditions: RUN_START, RUN_STOP, RUN_SINGLE, RUN_START_TIMEOUT. -/
def Claims.MailboxRuns : Prop :=
  ∀ (s : State) (n p : Nat), p ≤ 7 →
    (s.param n 0 1 = p → s.partScope n p = none → s.job.formed = false →
      ((s.part p).st = .loaded → s.runRefusal p false = none → (s.part p).enableHeld = none → s.resets = [] →
        s.preparing = none →
        (s.asks n 0x0501 8 → s.param n 1 1 = 0 → s.param n 2 6 = 0 → ∃ s', exec (.runStart n) s = .next s' ∧
          s.answered s' n 0 [] ∧ (s'.part p).st = .open_ ∧ (s'.part p).awaiting = false ∧
          (s'.part p).tide = (s.part p).tide ∧ (s'.part p).startT = s.time ∧ (s'.part p).markSlot = some 0 ∧
          (s'.part p).inJob = false) ∧
        (s.asks n 0x0503 1 → ∃ s', exec (.runSingle n) s = .next s' ∧ s'.waits n ∧ (s'.part p).st = .open_ ∧
          (s'.part p).single = some n ∧ (s'.part p).tide = (s.part p).tide)) ∧
      (s.asks n 0x0502 1 → running (s.part p).st = true → (s.part p).stopMbx = none → (s.part p).single = none →
        (s.part p).enableHeld = none → ∃ s', exec (.runStop n) s = .next s' ∧ s'.waits n ∧
          (s'.part p).stopPending = true ∧ (s'.part p).stopMbx = some n ∧ (s'.part p).st = (s.part p).st) ∧
      (s.asks n 0x0502 1 → running (s.part p).st = false → ∃ s', exec (.runStop n) s = .next s' ∧
        s.answered s' n 0x0104 [] ∧ s'.part p = s.part p)) ∧
    (∀ q, s.parts = [(p, q)] → q.startMbx = some n → q.inJob = true → q.st = .open_ → q.awaiting = true →
      q.stopMbx = none → s.nothingHeld → (s.mb n).done = false → ∃ s', exec (.runStartTimeout n) s = .next s' ∧
        (s'.part p).st = .loaded ∧ (s'.mb n).done = true ∧ (s'.mb n).status = 0x0108 ∧ (s'.part p).tide = q.tide) ∧
    (s.parts = [] → exec (.runStartTimeout n) s = .next s)

/-- R409, R411, R459, R477, R483, R484. The power cap, step and telemetry settings are taken; a canary configuration and an
observation are set, while the partition runs from its next tide; a TILE_REPAIR of a site that is disabled already, or of a
stripe that is not enabled, completes BAD_FIELD with no effect, of a tile's site disables it; a SCAN_RUN takes a powered
cluster's power away, and asks for it again, as it asks for an unpowered one's; its scan runs when power is good. The model's
own choices of log entries 25, 86 and 101 stand in it. Completing, with the next state of its own effect under its clause's
conditions: POWER_CAP_SET, FREQ_STEP_SET, TELEMETRY_CONFIG, CANARY_CONFIG, TILE_OBSERVE, TILE_REPAIR, SCAN_RUN. -/
def Claims.MailboxSettingsAndRepair : Prop :=
  ∀ (s : State) (n : Nat),
    (s.asks 0 0x0601 4 → 3000 ≤ s.param 0 0 4 → s.param 0 0 4 ≤ 18000 → s.param 0 0 4 % 50 = 0 →
      ∃ s', exec (.powerCapSet 0) s = .next s' ∧ s.answered s' 0 0 (leBytes 4 s'.effectiveW) ∧
        s'.power.capW = s.param 0 0 4 ∧ s'.power.step = s.power.step) ∧
    (s.asks 0 0x0602 1 → s.param 0 0 1 ≤ 7 →
      (s.runningParts = [] → ∃ s', exec (.freqStepSet 0) s = .next s' ∧ s.answered s' 0 0 [] ∧
        s'.power.minStep = s.param 0 0 1 ∧ s'.power.step = s.power.step) ∧
      (s.runningParts ≠ [] → ∃ s', exec (.freqStepSet 0) s = .next s' ∧ s'.waits 0 ∧ s'.freqWait = some 0 ∧
        s'.power.minStep = s.param 0 0 1 ∧ s'.power.step = s.power.step)) ∧
    (s.asks 0 0x0701 8 → 1000 ≤ s.param 0 0 4 → s.param 0 0 4 ≤ 1000000 → s.param 0 0 4 % 1000 = 0 → s.param 0 4 4 ≤ 7 →
      ∃ s', exec (.telemetryConfig 0) s = .next s' ∧ s.answered s' 0 0 [] ∧ s'.telemetryUs = s.param 0 0 4 ∧
        s'.telemetryKinds.toNat = s.param 0 4 4) ∧
    (∀ p, s.asks n 0x0801 12 → s.param n 0 1 = p → p ≤ 7 → s.param n 1 1 ≤ 1 →
      (∀ o ∈ span 2 4, memGet (s.mb n).payload o = 0) → 1 ≤ s.param n 4 4 → s.param n 4 4 ≤ 65536 → 1 ≤ s.param n 8 4 →
      s.param n 8 4 ≤ 1000000 → s.partScope n p = none → s.partHeld n p = false →
      (running (s.part p).st = false → (s.part p).observeNext = [] → ∃ s', exec (.canaryConfig n) s = .next s' ∧
        s.answered s' n 0 [] ∧ s'.part p = { s.part p with
          canaryEn := decide (s.param n 1 1 = 1), canaryInterval := s.param n 4 4, observeTides := s.param n 8 4, canaryNext := none }) ∧
      (running (s.part p).st = true → ∃ s', exec (.canaryConfig n) s = .next s' ∧ s.answered s' n 0 [] ∧ s'.part p =
        { s.part p with canaryNext := some (decide (s.param n 1 1 = 1), s.param n 4 4, s.param n 8 4) })) ∧
    (∀ t, s.asks n 0x0802 5 → s.param n 0 4 = t → s.badTile n = (0, false) → s.param n 4 1 = 1 → s.tileScope n t = none →
      bit (s.tile t).canary.toNat 31 = true → s.withdrawn.getLsbD (tileStripe t + s.sigma0) = false →
      (∀ p, s.partOf t = some p → s.partHeld n p = false) →
      (s.inTide t = false → ∃ s', exec (.tileObserve n) s = .next s' ∧ s.answered s' n 0 [] ∧ s'.isObserved t = true ∧
        s.eventCount < s'.eventCount ∧ s'.tiles = s.tiles) ∧
      (∀ p, s.partOf t = some p → running (s.part p).st = true → ∃ s', exec (.tileObserve n) s = .next s' ∧
        s.answered s' n 0 [] ∧ (s'.part p).observeNext = (s.part p).observeNext ++ [(t, true)] ∧ s'.observed = s.observed ∧
        s'.tiles = s.tiles)) ∧
    (∀ px py, s.asks 0 0x0803 4 → s.param 0 0 2 = px → s.param 0 2 2 = py → px < 296 → py < 288 →
      s.quietPart (s.partOfPhys (px / 37)) = true → s.optBusy 0 (s.partOfPhys (px / 37)) = none →
      (s.disabled.contains (px, py) = true ∨ s.fuses.stripeMap.getLsbD (px / 37) = false →
        ∃ s', exec (.tileRepair 0) s = .next s' ∧ s.answered s' 0 0x0103 [] ∧ (s'.mb 0).offset = 0 ∧
          s'.disabled = s.disabled ∧ s'.tiles = s.tiles) ∧
      (∀ t, s.fuses.stripeMap.getLsbD (px / 37) = true → s.disabled.contains (px, py) = false → s.segHasRoom px py = true → s.tileAt px py = some t →
        ∃ s', exec (.tileRepair 0) s = .next s' ∧ s'.waits 0 ∧ s'.disabled = s.disabled ++ [(px, py)] ∧
          s.eventCount < s'.eventCount)) ∧
    (∀ c, s.asks 0 0x0804 4 → s.param 0 0 2 = c → s.param 0 2 2 = 0 → c < 288 →
      s.fuses.stripeMap.getLsbD (c / 36) = true → s.quietPart (s.partOfPhys (c / 36)) = true →
      s.optBusy 0 (s.partOfPhys (c / 36)) = none → s.resets = [] → s.scan = none → (s.cluster c).powerUpHeld = false →
      (s.cluster c).heldMbx = none → s.boot.poweredOff = false →
      ∃ s', exec (.scanRun 0 []) s = .next s' ∧ s'.waits 0 ∧
        s'.scan = some { mbx := 0, cluster := c, pack := 0, failing := [] } ∧
        ((s.cluster c).power = true → (s'.cluster c).power = false ∧ (s'.cluster c).switching = true ∧
          (s'.cluster c).powerUpHeld = true ∧ s.eventCount < s'.eventCount) ∧
        ((s.cluster c).power = false → ((s'.cluster c).powerUpHeld = true ∨ (s'.cluster c).rising = true)))

/-- R348, R351, R402, R403, R412, R413, R505. FABRIC_TRAIN brings up the ports it trains; JOB_FORM and JOB_JOIN begin to form the
job and wait; JOB_LEAVE with no run leaves; a bank is switched at the next cold path, or now with a device reset; a confirmed
bank raises the firmware floor to its own, and the floor never falls. The model's own choices of log entries 84 and 97 stand
in it. Completing, with the next state of its own effect under its clause's conditions: FABRIC_TRAIN, JOB_FORM, JOB_LEAVE,
JOB_JOIN, FW_ACTIVATE, FW_CONFIRM, FW_ROLLBACK. -/
def Claims.MailboxJobsAndFirmware : Prop :=
  ∀ (s : State),
    (∀ up : BitVec 6, s.asks 0 0x0901 1 → s.param 0 0 1 = 63 → s.inNoJob = true → (∀ q, (s.hport q).shutting = false) →
      ∃ s', exec (.fabricTrain 0 up) s = .next s' ∧ s.answered s' 0 0 (leBytes 1 s'.upMask) ∧
        (∀ q, q < 6 → (s'.hport q).up = (up.getLsbD q && s.portEnabled q && !(s.hport q).calFailed && !s.boot.poweredOff))) ∧
    (s.asks 0 0x0902 23 → s.badField 0 (s.badForm 0) [11] = none → s.inNoJob = true → s.allIdle → s.fuses.portMap = 63 →
      (∀ q, (s.hport q).shutting = false ∧ (s.hport q).calFailed = false) → s.boot.poweredOff = false →
      ∃ s', exec (.jobForm 0) s = .next s' ∧ s'.waits 0 ∧ s'.job.formMbx = some 0 ∧ s'.job.id = s.param 0 0 8 ∧
        s'.job.dimI = s.param 0 8 1 ∧ s'.job.dimJ = s.param 0 9 1 ∧ s'.job.dimK = s.param 0 10 1 ∧
        s'.job.formingStep = (if s.param 0 12 8 = s.fuses.serial then 4 else 2) ∧ s'.job.formed = false ∧
        (∀ q ∈ s'.job.ports, (s'.hport q).up = false)) ∧
    (s.asks 0 0x0903 0 → s.inJob = true → s.jobParts = [] → ∃ s', exec (.jobLeave 0) s = .next s' ∧
      s.answered s' 0 0 [] ∧ s'.job.left = true ∧ s'.job.leaveMbx = none ∧ s'.power.refOscillator = true ∧
      s'.parts = s.parts) ∧
    (s.asks 0 0x0904 0 → s.job.left = true → s.job.formingStep = 0 → s.allIdle → s.fuses.portMap = 63 →
      (∀ q, (s.hport q).shutting = false ∧ (s.hport q).calFailed = false) → s.boot.poweredOff = false →
      ∃ s', exec (.jobJoin 0) s = .next s' ∧ s'.waits 0 ∧ s'.job.formMbx = some 0 ∧ s'.job.joining = true ∧
        s'.job.formingStep ≠ 0 ∧ s'.job.id = s.job.id) ∧
    (s.flash.other.valid = true →
      (s.flash.other.verified = true → s.asks 0 0x0A01 1 → s.param 0 0 1 = 0 → ∃ s', exec (.fwActivate 0) s = .next s' ∧
        s.answered s' 0 0 [] ∧ s'.flash.activateCold = true ∧ s'.flash.running = s.flash.running) ∧
      (s.flash.other.verified = true → s.asks 0 0x0A01 1 → s.param 0 0 1 = 1 → s.inNoJob = true → s.allIdle →
        ∃ s', exec (.fwActivate 0) s = .next s' ∧ s.answered s' 0 0 [] ∧ s'.flash.running = s.flash.other ∧
          s'.flash.onTrial = true ∧ s'.boot.announced = true ∧ s'.flash.fwFloor = s.flash.fwFloor) ∧
      (s.asks 0 0x0A03 1 → s.param 0 0 1 = 0 → ∃ s', exec (.fwRollback 0) s = .next s' ∧ s.answered s' 0 0 [] ∧
        s'.flash.activateCold = true ∧ s'.flash.running = s.flash.running)) ∧
    (s.asks 0 0x0A02 0 → s.flash.onTrial = true → ∃ s', exec (.fwConfirm 0) s = .next s' ∧ s.answered s' 0 0 [] ∧
      s'.flash.onTrial = false ∧ s'.flash.fwFloor = max s.flash.fwFloor s.flash.running.floor ∧
      s'.flash.running = s.flash.running)

/-- R381, R382, R412, R437, R499, R500, R509, R510, R513 to R515. An accepted ownership record changes the owner; a licence that
verifies is installed; a challenge makes a nonce and answers with it; a response that verifies opens its scope and consumes
the nonce; a nonce lives ten minutes; PREPARE_REMOVE with nothing running and no stream open makes the device ready for
removal, and with a run asks for its stop. The model's own choices of log entries 19, 84, 98, 103 and 104 stand in it.
Completing, with the next state of its own effect under its clause's conditions: OWNER_SET, LICENCE_INSTALL, DEBUG_CHALLENGE,
DEBUG_UNLOCK, NONCE_EXPIRE, PREPARE_REMOVE. -/
def Claims.MailboxSecurityAndRemoval : Prop :=
  ∀ (s : State),
    (∀ (r : List Byte) (size : Nat), s.asksBuffer 0 0x0B01 0 size → 428 ≤ size → size ≤ 2 ^ 30 → s.link.access = true →
      r.length = 428 → fieldOf r 6 1 ≤ 2 → recordForm r s.fuses.serial = true →
      (∀ q ∈ s.parts, q.2.st = .none ∨ q.2.st = .empty) → s.ownerSigner r = 0 → s.flash.ownerSeq < fieldOf r 16 8 →
      ∃ s', exec (.ownerSet 0 r) s = .next s' ∧ s.answered s' 0 0 [] ∧ s'.flash.ownerKey = recordKey r 24 ∧
        s'.flash.debugKey = recordKey r 160 ∧ s'.flash.ownerSeq = fieldOf r 16 8 ∧ s.eventCount < s'.eventCount ∧
        (∀ g ∈ s'.stages, ofPart g.kind = true → g.verified = false)) ∧
    (s.asks 0 0x0B02 256 → bit (s.param 0 7 1) 0 = false →
      s.badField 0 (s.badLicence 0 ++ []) (span 20 124 ++ []) = none →
      s.vendorFault (s.paramBytes 0 0 256) false (s.paramBytes 0 124 276) 8 = 0 →
      s.issueOld (s.param 0 6 1) (s.param 0 16 4) = false →
      ∃ s', exec (.licenceInstall 0) s = .next s' ∧ s.answered s' 0 0 [] ∧ s'.licensed (s.param 0 6 1) = true ∧
        s'.issueOld (s.param 0 6 1) (s.param 0 16 4) = true) ∧
    (s.asks 0 0x0B03 1 → s.param 0 0 1 ≤ 2 → ∃ s' v, exec (.debugChallenge 0) s = .next s' ∧
      s'.dbg.nonce = some (s.param 0 0 1, v, s.now) ∧ s.answered s' 0 0 (leBytes 64 v.toNat)) ∧
    (s.asks 0 0x0B04 228 → bit (s.param 0 5 1) 1 = false → bit (s.param 0 5 1) 0 = true →
      s.badField 0 (s.badUnlock 0 ++ []) ([6, 7] ++ span 84 96 ++ []) = none → s.dbg.nonce.isSome = true →
      s.unlockFault 0 = 0 →
      ∃ s', exec (.debugUnlock 0) s = .next s' ∧ s.answered s' 0 0 [] ∧ s'.dbg.nonce = none ∧
        s'.scopeOpen (s.param 0 4 1) = true ∧
        (s.scopeOpen (s.param 0 4 1) = false → s'.dbg.telemetry = true ∧ s.eventCount < s'.eventCount)) ∧
    (∀ a v t, s.dbg.nonce = some (a, v, t) →
      (t + 600000000000 ≤ s.now → exec .nonceExpire s = .next { s with dbg := { s.dbg with nonce := none } }) ∧
      (s.now < t + 600000000000 → exec .nonceExpire s = .next s)) ∧
    (s.dbg.nonce = none → exec .nonceExpire s = .next s) ∧
    (s.asks 0 0x0C02 1 → s.param 0 0 1 = 2 → s.inJob = false → s.job.leaveMbx = none → s.nothingHeld →
      (s.runningParts = [] → s.streams = [] → ∃ s', exec (.prepareRemove 0) s = .next s' ∧
        s.answered s' 0 0 (leBytes 4 0) ∧ s'.removeReady = true ∧ s'.pins.attn = true ∧ s'.preparing = none) ∧
      (∀ p, s.runningParts = [p] → running (s.part p).st = true → (∀ x ∈ s.streams, x.2.heldMbx = none) →
        ∃ s', exec (.prepareRemove 0) s = .next s' ∧
        s'.waits 0 ∧ s'.preparing = some 0 ∧ (s'.part p).stopPending = true ∧ s'.removeReady = s.removeReady))

/-- Mailbox commands on runs, settings, repair, jobs, firmware, security and removal: `Claims.MailboxRuns`,
`Claims.MailboxSettingsAndRepair`, `Claims.MailboxJobsAndFirmware`, `Claims.MailboxSecurityAndRemoval`. -/
def Obligations.MailboxRunsSettingsJobs : Prop :=
  Claims.MailboxRuns ∧ Claims.MailboxSettingsAndRepair ∧ Claims.MailboxJobsAndFirmware ∧ Claims.MailboxSecurityAndRemoval
end

