-- ==== Sys2Proof/Laws/State.lean ====
section
/-!
SUPPORT. One lemma per field of State and per update of a unit: what each update leaves and what it gives. Every one is
true by unfolding, so that later proofs unfold no record update.
-/

namespace Sys2Proof.Machine

/-! Sparse tables -/

@[simp] theorem tget_tset_self {α : Type} (d : α) (l : Tab α) (k : Nat) (v : α) : tget d (tset l k v) k = v := by
  induction l with
  | nil => simp [tset, tget]
  | cons p r ih =>
    obtain ⟨i, w⟩ := p
    simp only [tset]
    split
    · simp [tget]
    · split
      · simp [tget]
      · simp_all [tget]

theorem tget_tset_ne {α : Type} (d : α) (l : Tab α) {k j : Nat} (v : α) (h : j ≠ k) :
    tget d (tset l k v) j = tget d l j := by
  induction l with
  | nil => simp [tset, tget, Ne.symm h]
  | cons p r ih =>
    obtain ⟨i, w⟩ := p
    simp only [tset]
    split
    · subst_vars; simp [tget, Ne.symm h]
    · split
      · simp [tget, Ne.symm h]
      · simp [tget, ih]

@[simp] theorem tset_tset {α : Type} (l : Tab α) (k : Nat) (v w : α) : tset (tset l k v) k w = tset l k w := by
  induction l with
  | nil => simp [tset]
  | cons p r ih =>
    obtain ⟨i, u⟩ := p
    simp only [tset]
    split
    · simp [tset]
    · split
      · simp [tset]
      · rename_i h1 h2
        simp [tset, h1, h2, ih]

/-! Unit updates -/

@[simp] theorem State.setTile_pending (s : State) (t : TileId) (x : Tile) : (s.setTile t x).pending = s.pending := rfl
@[simp] theorem State.setTile_freeCtr (s : State) (t : TileId) (x : Tile) : (s.setTile t x).freeCtr = s.freeCtr := rfl
@[simp] theorem State.setTile_time (s : State) (t : TileId) (x : Tile) : (s.setTile t x).time = s.time := rfl
@[simp] theorem State.setTile_cc (s : State) (t : TileId) (x : Tile) : (s.setTile t x).cc = s.cc := rfl
@[simp] theorem State.setTile_tsStep (s : State) (t : TileId) (x : Tile) : (s.setTile t x).tsStep = s.tsStep := rfl
@[simp] theorem State.setTile_timeHi (s : State) (t : TileId) (x : Tile) : (s.setTile t x).timeHi = s.timeHi := rfl
@[simp] theorem State.setTile_heartbeatReg (s : State) (t : TileId) (x : Tile) : (s.setTile t x).heartbeatReg = s.heartbeatReg := rfl
@[simp] theorem State.setTile_freqWait (s : State) (t : TileId) (x : Tile) : (s.setTile t x).freqWait = s.freqWait := rfl
@[simp] theorem State.setTile_fwRestart (s : State) (t : TileId) (x : Tile) : (s.setTile t x).fwRestart = s.fwRestart := rfl
@[simp] theorem State.setTile_pinClock (s : State) (t : TileId) (x : Tile) : (s.setTile t x).pinClock = s.pinClock := rfl
@[simp] theorem State.setTile_scan (s : State) (t : TileId) (x : Tile) : (s.setTile t x).scan = s.scan := rfl
@[simp] theorem State.setTile_trainWait (s : State) (t : TileId) (x : Tile) : (s.setTile t x).trainWait = s.trainWait := rfl
@[simp] theorem State.setTile_heartbeatS (s : State) (t : TileId) (x : Tile) : (s.setTile t x).heartbeatS = s.heartbeatS := rfl
@[simp] theorem State.setTile_cmdsDone (s : State) (t : TileId) (x : Tile) : (s.setTile t x).cmdsDone = s.cmdsDone := rfl
@[simp] theorem State.setTile_posted (s : State) (t : TileId) (x : Tile) : (s.setTile t x).posted = s.posted := rfl
@[simp] theorem State.setTile_sent (s : State) (t : TileId) (x : Tile) : (s.setTile t x).sent = s.sent := rfl
@[simp] theorem State.setTile_cxlSince (s : State) (t : TileId) (x : Tile) : (s.setTile t x).cxlSince = s.cxlSince := rfl
@[simp] theorem State.setTile_cxlTurn (s : State) (t : TileId) (x : Tile) : (s.setTile t x).cxlTurn = s.cxlTurn := rfl
@[simp] theorem State.setTile_cxlLeft (s : State) (t : TileId) (x : Tile) : (s.setTile t x).cxlLeft = s.cxlLeft := rfl
@[simp] theorem State.setTile_cxlPart (s : State) (t : TileId) (x : Tile) : (s.setTile t x).cxlPart = s.cxlPart := rfl
@[simp] theorem State.setTile_lastRead (s : State) (t : TileId) (x : Tile) : (s.setTile t x).lastRead = s.lastRead := rfl
@[simp] theorem State.setTile_eventCount (s : State) (t : TileId) (x : Tile) : (s.setTile t x).eventCount = s.eventCount := rfl
@[simp] theorem State.setTile_boot (s : State) (t : TileId) (x : Tile) : (s.setTile t x).boot = s.boot := rfl
@[simp] theorem State.setTile_fuses (s : State) (t : TileId) (x : Tile) : (s.setTile t x).fuses = s.fuses := rfl
@[simp] theorem State.setTile_fuseShown (s : State) (t : TileId) (x : Tile) : (s.setTile t x).fuseShown = s.fuseShown := rfl
@[simp] theorem State.setTile_fwShown (s : State) (t : TileId) (x : Tile) : (s.setTile t x).fwShown = s.fwShown := rfl
@[simp] theorem State.setTile_i3cUp (s : State) (t : TileId) (x : Tile) : (s.setTile t x).i3cUp = s.i3cUp := rfl
@[simp] theorem State.setTile_ready (s : State) (t : TileId) (x : Tile) : (s.setTile t x).ready = s.ready := rfl
@[simp] theorem State.setTile_flash (s : State) (t : TileId) (x : Tile) : (s.setTile t x).flash = s.flash := rfl
@[simp] theorem State.setTile_link (s : State) (t : TileId) (x : Tile) : (s.setTile t x).link = s.link := rfl
@[simp] theorem State.setTile_evr (s : State) (t : TileId) (x : Tile) : (s.setTile t x).evr = s.evr := rfl
@[simp] theorem State.setTile_tlr (s : State) (t : TileId) (x : Tile) : (s.setTile t x).tlr = s.tlr := rfl
@[simp] theorem State.setTile_bb (s : State) (t : TileId) (x : Tile) : (s.setTile t x).bb = s.bb := rfl
@[simp] theorem State.setTile_mbx (s : State) (t : TileId) (x : Tile) : (s.setTile t x).mbx = s.mbx := rfl
@[simp] theorem State.setTile_doorOrder (s : State) (t : TileId) (x : Tile) : (s.setTile t x).doorOrder = s.doorOrder := rfl
@[simp] theorem State.setTile_stages (s : State) (t : TileId) (x : Tile) : (s.setTile t x).stages = s.stages := rfl
@[simp] theorem State.setTile_windows (s : State) (t : TileId) (x : Tile) : (s.setTile t x).windows = s.windows := rfl
@[simp] theorem State.setTile_clusters (s : State) (t : TileId) (x : Tile) : (s.setTile t x).clusters = s.clusters := rfl
@[simp] theorem State.setTile_parts (s : State) (t : TileId) (x : Tile) : (s.setTile t x).parts = s.parts := rfl
@[simp] theorem State.setTile_streams (s : State) (t : TileId) (x : Tile) : (s.setTile t x).streams = s.streams := rfl
@[simp] theorem State.setTile_pages (s : State) (t : TileId) (x : Tile) : (s.setTile t x).pages = s.pages := rfl
@[simp] theorem State.setTile_hbm (s : State) (t : TileId) (x : Tile) : (s.setTile t x).hbm = s.hbm := rfl
@[simp] theorem State.setTile_cxl (s : State) (t : TileId) (x : Tile) : (s.setTile t x).cxl = s.cxl := rfl
@[simp] theorem State.setTile_memports (s : State) (t : TileId) (x : Tile) : (s.setTile t x).memports = s.memports := rfl
@[simp] theorem State.setTile_uio (s : State) (t : TileId) (x : Tile) : (s.setTile t x).uio = s.uio := rfl
@[simp] theorem State.setTile_unitAcc (s : State) (t : TileId) (x : Tile) : (s.setTile t x).unitAcc = s.unitAcc := rfl
@[simp] theorem State.setTile_unitSeq (s : State) (t : TileId) (x : Tile) : (s.setTile t x).unitSeq = s.unitSeq := rfl
@[simp] theorem State.setTile_svc (s : State) (t : TileId) (x : Tile) : (s.setTile t x).svc = s.svc := rfl
@[simp] theorem State.setTile_svcTurn (s : State) (t : TileId) (x : Tile) : (s.setTile t x).svcTurn = s.svcTurn := rfl
@[simp] theorem State.setTile_routers (s : State) (t : TileId) (x : Tile) : (s.setTile t x).routers = s.routers := rfl
@[simp] theorem State.setTile_arrived (s : State) (t : TileId) (x : Tile) : (s.setTile t x).arrived = s.arrived := rfl
@[simp] theorem State.setTile_edge (s : State) (t : TileId) (x : Tile) : (s.setTile t x).edge = s.edge := rfl
@[simp] theorem State.setTile_disabled (s : State) (t : TileId) (x : Tile) : (s.setTile t x).disabled = s.disabled := rfl
@[simp] theorem State.setTile_withdrawn (s : State) (t : TileId) (x : Tile) : (s.setTile t x).withdrawn = s.withdrawn := rfl
@[simp] theorem State.setTile_baseFaults (s : State) (t : TileId) (x : Tile) : (s.setTile t x).baseFaults = s.baseFaults := rfl
@[simp] theorem State.setTile_retired (s : State) (t : TileId) (x : Tile) : (s.setTile t x).retired = s.retired := rfl
@[simp] theorem State.setTile_hports (s : State) (t : TileId) (x : Tile) : (s.setTile t x).hports = s.hports := rfl
@[simp] theorem State.setTile_job (s : State) (t : TileId) (x : Tile) : (s.setTile t x).job = s.job := rfl
@[simp] theorem State.setTile_power (s : State) (t : TileId) (x : Tile) : (s.setTile t x).power = s.power := rfl
@[simp] theorem State.setTile_telemetryUs (s : State) (t : TileId) (x : Tile) : (s.setTile t x).telemetryUs = s.telemetryUs := rfl
@[simp] theorem State.setTile_telemetryKinds (s : State) (t : TileId) (x : Tile) : (s.setTile t x).telemetryKinds = s.telemetryKinds := rfl
@[simp] theorem State.setTile_pins (s : State) (t : TileId) (x : Tile) : (s.setTile t x).pins = s.pins := rfl
@[simp] theorem State.setTile_observed (s : State) (t : TileId) (x : Tile) : (s.setTile t x).observed = s.observed := rfl
@[simp] theorem State.setTile_dbg (s : State) (t : TileId) (x : Tile) : (s.setTile t x).dbg = s.dbg := rfl
@[simp] theorem State.setTile_cv0 (s : State) (t : TileId) (x : Tile) : (s.setTile t x).cv0 = s.cv0 := rfl
@[simp] theorem State.setTile_cv1 (s : State) (t : TileId) (x : Tile) : (s.setTile t x).cv1 = s.cv1 := rfl
@[simp] theorem State.setTile_resets (s : State) (t : TileId) (x : Tile) : (s.setTile t x).resets = s.resets := rfl
@[simp] theorem State.setTile_preparing (s : State) (t : TileId) (x : Tile) : (s.setTile t x).preparing = s.preparing := rfl
@[simp] theorem State.setTile_removeReady (s : State) (t : TileId) (x : Tile) : (s.setTile t x).removeReady = s.removeReady := rfl
@[simp] theorem State.setTile_parkedCount (s : State) (t : TileId) (x : Tile) : (s.setTile t x).parkedCount = s.parkedCount := rfl
@[simp] theorem State.setTile_doorbellsIgnored (s : State) (t : TileId) (x : Tile) : (s.setTile t x).doorbellsIgnored = s.doorbellsIgnored := rfl
@[simp] theorem State.setTile_spdm (s : State) (t : TileId) (x : Tile) : (s.setTile t x).spdm = s.spdm := rfl
@[simp] theorem State.setTile_doe (s : State) (t : TileId) (x : Tile) : (s.setTile t x).doe = s.doe := rfl
@[simp] theorem State.setTile_i3c (s : State) (t : TileId) (x : Tile) : (s.setTile t x).i3c = s.i3c := rfl
@[simp] theorem State.setTile_meshTraffic (s : State) (t : TileId) (x : Tile) : (s.setTile t x).meshTraffic = s.meshTraffic := rfl
@[simp] theorem State.setTile_cluster (s : State) (t : TileId) (x : Tile) (j : Nat) : (s.setTile t x).cluster j = s.cluster j := rfl
@[simp] theorem State.setTile_part (s : State) (t : TileId) (x : Tile) (j : Nat) : (s.setTile t x).part j = s.part j := rfl
@[simp] theorem State.setTile_stream (s : State) (t : TileId) (x : Tile) (j : Nat) : (s.setTile t x).stream j = s.stream j := rfl
@[simp] theorem State.setTile_page (s : State) (t : TileId) (x : Tile) (j : Nat) : (s.setTile t x).page j = s.page j := rfl
@[simp] theorem State.setTile_memport (s : State) (t : TileId) (x : Tile) (j : Nat) : (s.setTile t x).memport j = s.memport j := rfl
@[simp] theorem State.setTile_router (s : State) (t : TileId) (x : Tile) (j : Nat) : (s.setTile t x).router j = s.router j := rfl
@[simp] theorem State.setTile_hport (s : State) (t : TileId) (x : Tile) (j : Nat) : (s.setTile t x).hport j = s.hport j := rfl
@[simp] theorem State.setTile_mb (s : State) (t : TileId) (x : Tile) (j : Nat) : (s.setTile t x).mb j = s.mb j := rfl

@[simp] theorem State.modTile_pending (s : State) (t : TileId) (f : Tile → Tile) : (s.modTile t f).pending = s.pending := rfl
@[simp] theorem State.modTile_freeCtr (s : State) (t : TileId) (f : Tile → Tile) : (s.modTile t f).freeCtr = s.freeCtr := rfl
@[simp] theorem State.modTile_time (s : State) (t : TileId) (f : Tile → Tile) : (s.modTile t f).time = s.time := rfl
@[simp] theorem State.modTile_cc (s : State) (t : TileId) (f : Tile → Tile) : (s.modTile t f).cc = s.cc := rfl
@[simp] theorem State.modTile_tsStep (s : State) (t : TileId) (f : Tile → Tile) : (s.modTile t f).tsStep = s.tsStep := rfl
@[simp] theorem State.modTile_timeHi (s : State) (t : TileId) (f : Tile → Tile) : (s.modTile t f).timeHi = s.timeHi := rfl
@[simp] theorem State.modTile_heartbeatReg (s : State) (t : TileId) (f : Tile → Tile) : (s.modTile t f).heartbeatReg = s.heartbeatReg := rfl
@[simp] theorem State.modTile_freqWait (s : State) (t : TileId) (f : Tile → Tile) : (s.modTile t f).freqWait = s.freqWait := rfl
@[simp] theorem State.modTile_fwRestart (s : State) (t : TileId) (f : Tile → Tile) : (s.modTile t f).fwRestart = s.fwRestart := rfl
@[simp] theorem State.modTile_pinClock (s : State) (t : TileId) (f : Tile → Tile) : (s.modTile t f).pinClock = s.pinClock := rfl
@[simp] theorem State.modTile_scan (s : State) (t : TileId) (f : Tile → Tile) : (s.modTile t f).scan = s.scan := rfl
@[simp] theorem State.modTile_trainWait (s : State) (t : TileId) (f : Tile → Tile) : (s.modTile t f).trainWait = s.trainWait := rfl
@[simp] theorem State.modTile_heartbeatS (s : State) (t : TileId) (f : Tile → Tile) : (s.modTile t f).heartbeatS = s.heartbeatS := rfl
@[simp] theorem State.modTile_cmdsDone (s : State) (t : TileId) (f : Tile → Tile) : (s.modTile t f).cmdsDone = s.cmdsDone := rfl
@[simp] theorem State.modTile_posted (s : State) (t : TileId) (f : Tile → Tile) : (s.modTile t f).posted = s.posted := rfl
@[simp] theorem State.modTile_sent (s : State) (t : TileId) (f : Tile → Tile) : (s.modTile t f).sent = s.sent := rfl
@[simp] theorem State.modTile_cxlSince (s : State) (t : TileId) (f : Tile → Tile) : (s.modTile t f).cxlSince = s.cxlSince := rfl
@[simp] theorem State.modTile_cxlTurn (s : State) (t : TileId) (f : Tile → Tile) : (s.modTile t f).cxlTurn = s.cxlTurn := rfl
@[simp] theorem State.modTile_cxlLeft (s : State) (t : TileId) (f : Tile → Tile) : (s.modTile t f).cxlLeft = s.cxlLeft := rfl
@[simp] theorem State.modTile_cxlPart (s : State) (t : TileId) (f : Tile → Tile) : (s.modTile t f).cxlPart = s.cxlPart := rfl
@[simp] theorem State.modTile_lastRead (s : State) (t : TileId) (f : Tile → Tile) : (s.modTile t f).lastRead = s.lastRead := rfl
@[simp] theorem State.modTile_eventCount (s : State) (t : TileId) (f : Tile → Tile) : (s.modTile t f).eventCount = s.eventCount := rfl
@[simp] theorem State.modTile_boot (s : State) (t : TileId) (f : Tile → Tile) : (s.modTile t f).boot = s.boot := rfl
@[simp] theorem State.modTile_fuses (s : State) (t : TileId) (f : Tile → Tile) : (s.modTile t f).fuses = s.fuses := rfl
@[simp] theorem State.modTile_fuseShown (s : State) (t : TileId) (f : Tile → Tile) : (s.modTile t f).fuseShown = s.fuseShown := rfl
@[simp] theorem State.modTile_fwShown (s : State) (t : TileId) (f : Tile → Tile) : (s.modTile t f).fwShown = s.fwShown := rfl
@[simp] theorem State.modTile_i3cUp (s : State) (t : TileId) (f : Tile → Tile) : (s.modTile t f).i3cUp = s.i3cUp := rfl
@[simp] theorem State.modTile_ready (s : State) (t : TileId) (f : Tile → Tile) : (s.modTile t f).ready = s.ready := rfl
@[simp] theorem State.modTile_flash (s : State) (t : TileId) (f : Tile → Tile) : (s.modTile t f).flash = s.flash := rfl
@[simp] theorem State.modTile_link (s : State) (t : TileId) (f : Tile → Tile) : (s.modTile t f).link = s.link := rfl
@[simp] theorem State.modTile_evr (s : State) (t : TileId) (f : Tile → Tile) : (s.modTile t f).evr = s.evr := rfl
@[simp] theorem State.modTile_tlr (s : State) (t : TileId) (f : Tile → Tile) : (s.modTile t f).tlr = s.tlr := rfl
@[simp] theorem State.modTile_bb (s : State) (t : TileId) (f : Tile → Tile) : (s.modTile t f).bb = s.bb := rfl
@[simp] theorem State.modTile_mbx (s : State) (t : TileId) (f : Tile → Tile) : (s.modTile t f).mbx = s.mbx := rfl
@[simp] theorem State.modTile_doorOrder (s : State) (t : TileId) (f : Tile → Tile) : (s.modTile t f).doorOrder = s.doorOrder := rfl
@[simp] theorem State.modTile_stages (s : State) (t : TileId) (f : Tile → Tile) : (s.modTile t f).stages = s.stages := rfl
@[simp] theorem State.modTile_windows (s : State) (t : TileId) (f : Tile → Tile) : (s.modTile t f).windows = s.windows := rfl
@[simp] theorem State.modTile_clusters (s : State) (t : TileId) (f : Tile → Tile) : (s.modTile t f).clusters = s.clusters := rfl
@[simp] theorem State.modTile_parts (s : State) (t : TileId) (f : Tile → Tile) : (s.modTile t f).parts = s.parts := rfl
@[simp] theorem State.modTile_streams (s : State) (t : TileId) (f : Tile → Tile) : (s.modTile t f).streams = s.streams := rfl
@[simp] theorem State.modTile_pages (s : State) (t : TileId) (f : Tile → Tile) : (s.modTile t f).pages = s.pages := rfl
@[simp] theorem State.modTile_hbm (s : State) (t : TileId) (f : Tile → Tile) : (s.modTile t f).hbm = s.hbm := rfl
@[simp] theorem State.modTile_cxl (s : State) (t : TileId) (f : Tile → Tile) : (s.modTile t f).cxl = s.cxl := rfl
@[simp] theorem State.modTile_memports (s : State) (t : TileId) (f : Tile → Tile) : (s.modTile t f).memports = s.memports := rfl
@[simp] theorem State.modTile_uio (s : State) (t : TileId) (f : Tile → Tile) : (s.modTile t f).uio = s.uio := rfl
@[simp] theorem State.modTile_unitAcc (s : State) (t : TileId) (f : Tile → Tile) : (s.modTile t f).unitAcc = s.unitAcc := rfl
@[simp] theorem State.modTile_unitSeq (s : State) (t : TileId) (f : Tile → Tile) : (s.modTile t f).unitSeq = s.unitSeq := rfl
@[simp] theorem State.modTile_svc (s : State) (t : TileId) (f : Tile → Tile) : (s.modTile t f).svc = s.svc := rfl
@[simp] theorem State.modTile_svcTurn (s : State) (t : TileId) (f : Tile → Tile) : (s.modTile t f).svcTurn = s.svcTurn := rfl
@[simp] theorem State.modTile_routers (s : State) (t : TileId) (f : Tile → Tile) : (s.modTile t f).routers = s.routers := rfl
@[simp] theorem State.modTile_arrived (s : State) (t : TileId) (f : Tile → Tile) : (s.modTile t f).arrived = s.arrived := rfl
@[simp] theorem State.modTile_edge (s : State) (t : TileId) (f : Tile → Tile) : (s.modTile t f).edge = s.edge := rfl
@[simp] theorem State.modTile_disabled (s : State) (t : TileId) (f : Tile → Tile) : (s.modTile t f).disabled = s.disabled := rfl
@[simp] theorem State.modTile_withdrawn (s : State) (t : TileId) (f : Tile → Tile) : (s.modTile t f).withdrawn = s.withdrawn := rfl
@[simp] theorem State.modTile_baseFaults (s : State) (t : TileId) (f : Tile → Tile) : (s.modTile t f).baseFaults = s.baseFaults := rfl
@[simp] theorem State.modTile_retired (s : State) (t : TileId) (f : Tile → Tile) : (s.modTile t f).retired = s.retired := rfl
@[simp] theorem State.modTile_hports (s : State) (t : TileId) (f : Tile → Tile) : (s.modTile t f).hports = s.hports := rfl
@[simp] theorem State.modTile_job (s : State) (t : TileId) (f : Tile → Tile) : (s.modTile t f).job = s.job := rfl
@[simp] theorem State.modTile_power (s : State) (t : TileId) (f : Tile → Tile) : (s.modTile t f).power = s.power := rfl
@[simp] theorem State.modTile_telemetryUs (s : State) (t : TileId) (f : Tile → Tile) : (s.modTile t f).telemetryUs = s.telemetryUs := rfl
@[simp] theorem State.modTile_telemetryKinds (s : State) (t : TileId) (f : Tile → Tile) : (s.modTile t f).telemetryKinds = s.telemetryKinds := rfl
@[simp] theorem State.modTile_pins (s : State) (t : TileId) (f : Tile → Tile) : (s.modTile t f).pins = s.pins := rfl
@[simp] theorem State.modTile_observed (s : State) (t : TileId) (f : Tile → Tile) : (s.modTile t f).observed = s.observed := rfl
@[simp] theorem State.modTile_dbg (s : State) (t : TileId) (f : Tile → Tile) : (s.modTile t f).dbg = s.dbg := rfl
@[simp] theorem State.modTile_cv0 (s : State) (t : TileId) (f : Tile → Tile) : (s.modTile t f).cv0 = s.cv0 := rfl
@[simp] theorem State.modTile_cv1 (s : State) (t : TileId) (f : Tile → Tile) : (s.modTile t f).cv1 = s.cv1 := rfl
@[simp] theorem State.modTile_resets (s : State) (t : TileId) (f : Tile → Tile) : (s.modTile t f).resets = s.resets := rfl
@[simp] theorem State.modTile_preparing (s : State) (t : TileId) (f : Tile → Tile) : (s.modTile t f).preparing = s.preparing := rfl
@[simp] theorem State.modTile_removeReady (s : State) (t : TileId) (f : Tile → Tile) : (s.modTile t f).removeReady = s.removeReady := rfl
@[simp] theorem State.modTile_parkedCount (s : State) (t : TileId) (f : Tile → Tile) : (s.modTile t f).parkedCount = s.parkedCount := rfl
@[simp] theorem State.modTile_doorbellsIgnored (s : State) (t : TileId) (f : Tile → Tile) : (s.modTile t f).doorbellsIgnored = s.doorbellsIgnored := rfl
@[simp] theorem State.modTile_spdm (s : State) (t : TileId) (f : Tile → Tile) : (s.modTile t f).spdm = s.spdm := rfl
@[simp] theorem State.modTile_doe (s : State) (t : TileId) (f : Tile → Tile) : (s.modTile t f).doe = s.doe := rfl
@[simp] theorem State.modTile_i3c (s : State) (t : TileId) (f : Tile → Tile) : (s.modTile t f).i3c = s.i3c := rfl
@[simp] theorem State.modTile_meshTraffic (s : State) (t : TileId) (f : Tile → Tile) : (s.modTile t f).meshTraffic = s.meshTraffic := rfl
@[simp] theorem State.modTile_cluster (s : State) (t : TileId) (f : Tile → Tile) (j : Nat) : (s.modTile t f).cluster j = s.cluster j := rfl
@[simp] theorem State.modTile_part (s : State) (t : TileId) (f : Tile → Tile) (j : Nat) : (s.modTile t f).part j = s.part j := rfl
@[simp] theorem State.modTile_stream (s : State) (t : TileId) (f : Tile → Tile) (j : Nat) : (s.modTile t f).stream j = s.stream j := rfl
@[simp] theorem State.modTile_page (s : State) (t : TileId) (f : Tile → Tile) (j : Nat) : (s.modTile t f).page j = s.page j := rfl
@[simp] theorem State.modTile_memport (s : State) (t : TileId) (f : Tile → Tile) (j : Nat) : (s.modTile t f).memport j = s.memport j := rfl
@[simp] theorem State.modTile_router (s : State) (t : TileId) (f : Tile → Tile) (j : Nat) : (s.modTile t f).router j = s.router j := rfl
@[simp] theorem State.modTile_hport (s : State) (t : TileId) (f : Tile → Tile) (j : Nat) : (s.modTile t f).hport j = s.hport j := rfl
@[simp] theorem State.modTile_mb (s : State) (t : TileId) (f : Tile → Tile) (j : Nat) : (s.modTile t f).mb j = s.mb j := rfl

@[simp] theorem State.modCluster_pending (s : State) (c : Nat) (f : Cluster → Cluster) : (s.modCluster c f).pending = s.pending := rfl
@[simp] theorem State.modCluster_freeCtr (s : State) (c : Nat) (f : Cluster → Cluster) : (s.modCluster c f).freeCtr = s.freeCtr := rfl
@[simp] theorem State.modCluster_time (s : State) (c : Nat) (f : Cluster → Cluster) : (s.modCluster c f).time = s.time := rfl
@[simp] theorem State.modCluster_cc (s : State) (c : Nat) (f : Cluster → Cluster) : (s.modCluster c f).cc = s.cc := rfl
@[simp] theorem State.modCluster_tsStep (s : State) (c : Nat) (f : Cluster → Cluster) : (s.modCluster c f).tsStep = s.tsStep := rfl
@[simp] theorem State.modCluster_timeHi (s : State) (c : Nat) (f : Cluster → Cluster) : (s.modCluster c f).timeHi = s.timeHi := rfl
@[simp] theorem State.modCluster_heartbeatReg (s : State) (c : Nat) (f : Cluster → Cluster) : (s.modCluster c f).heartbeatReg = s.heartbeatReg := rfl
@[simp] theorem State.modCluster_freqWait (s : State) (c : Nat) (f : Cluster → Cluster) : (s.modCluster c f).freqWait = s.freqWait := rfl
@[simp] theorem State.modCluster_fwRestart (s : State) (c : Nat) (f : Cluster → Cluster) : (s.modCluster c f).fwRestart = s.fwRestart := rfl
@[simp] theorem State.modCluster_pinClock (s : State) (c : Nat) (f : Cluster → Cluster) : (s.modCluster c f).pinClock = s.pinClock := rfl
@[simp] theorem State.modCluster_scan (s : State) (c : Nat) (f : Cluster → Cluster) : (s.modCluster c f).scan = s.scan := rfl
@[simp] theorem State.modCluster_trainWait (s : State) (c : Nat) (f : Cluster → Cluster) : (s.modCluster c f).trainWait = s.trainWait := rfl
@[simp] theorem State.modCluster_heartbeatS (s : State) (c : Nat) (f : Cluster → Cluster) : (s.modCluster c f).heartbeatS = s.heartbeatS := rfl
@[simp] theorem State.modCluster_cmdsDone (s : State) (c : Nat) (f : Cluster → Cluster) : (s.modCluster c f).cmdsDone = s.cmdsDone := rfl
@[simp] theorem State.modCluster_posted (s : State) (c : Nat) (f : Cluster → Cluster) : (s.modCluster c f).posted = s.posted := rfl
@[simp] theorem State.modCluster_sent (s : State) (c : Nat) (f : Cluster → Cluster) : (s.modCluster c f).sent = s.sent := rfl
@[simp] theorem State.modCluster_cxlSince (s : State) (c : Nat) (f : Cluster → Cluster) : (s.modCluster c f).cxlSince = s.cxlSince := rfl
@[simp] theorem State.modCluster_cxlTurn (s : State) (c : Nat) (f : Cluster → Cluster) : (s.modCluster c f).cxlTurn = s.cxlTurn := rfl
@[simp] theorem State.modCluster_cxlLeft (s : State) (c : Nat) (f : Cluster → Cluster) : (s.modCluster c f).cxlLeft = s.cxlLeft := rfl
@[simp] theorem State.modCluster_cxlPart (s : State) (c : Nat) (f : Cluster → Cluster) : (s.modCluster c f).cxlPart = s.cxlPart := rfl
@[simp] theorem State.modCluster_lastRead (s : State) (c : Nat) (f : Cluster → Cluster) : (s.modCluster c f).lastRead = s.lastRead := rfl
@[simp] theorem State.modCluster_eventCount (s : State) (c : Nat) (f : Cluster → Cluster) : (s.modCluster c f).eventCount = s.eventCount := rfl
@[simp] theorem State.modCluster_boot (s : State) (c : Nat) (f : Cluster → Cluster) : (s.modCluster c f).boot = s.boot := rfl
@[simp] theorem State.modCluster_fuses (s : State) (c : Nat) (f : Cluster → Cluster) : (s.modCluster c f).fuses = s.fuses := rfl
@[simp] theorem State.modCluster_fuseShown (s : State) (c : Nat) (f : Cluster → Cluster) : (s.modCluster c f).fuseShown = s.fuseShown := rfl
@[simp] theorem State.modCluster_fwShown (s : State) (c : Nat) (f : Cluster → Cluster) : (s.modCluster c f).fwShown = s.fwShown := rfl
@[simp] theorem State.modCluster_i3cUp (s : State) (c : Nat) (f : Cluster → Cluster) : (s.modCluster c f).i3cUp = s.i3cUp := rfl
@[simp] theorem State.modCluster_ready (s : State) (c : Nat) (f : Cluster → Cluster) : (s.modCluster c f).ready = s.ready := rfl
@[simp] theorem State.modCluster_flash (s : State) (c : Nat) (f : Cluster → Cluster) : (s.modCluster c f).flash = s.flash := rfl
@[simp] theorem State.modCluster_link (s : State) (c : Nat) (f : Cluster → Cluster) : (s.modCluster c f).link = s.link := rfl
@[simp] theorem State.modCluster_evr (s : State) (c : Nat) (f : Cluster → Cluster) : (s.modCluster c f).evr = s.evr := rfl
@[simp] theorem State.modCluster_tlr (s : State) (c : Nat) (f : Cluster → Cluster) : (s.modCluster c f).tlr = s.tlr := rfl
@[simp] theorem State.modCluster_bb (s : State) (c : Nat) (f : Cluster → Cluster) : (s.modCluster c f).bb = s.bb := rfl
@[simp] theorem State.modCluster_mbx (s : State) (c : Nat) (f : Cluster → Cluster) : (s.modCluster c f).mbx = s.mbx := rfl
@[simp] theorem State.modCluster_doorOrder (s : State) (c : Nat) (f : Cluster → Cluster) : (s.modCluster c f).doorOrder = s.doorOrder := rfl
@[simp] theorem State.modCluster_stages (s : State) (c : Nat) (f : Cluster → Cluster) : (s.modCluster c f).stages = s.stages := rfl
@[simp] theorem State.modCluster_windows (s : State) (c : Nat) (f : Cluster → Cluster) : (s.modCluster c f).windows = s.windows := rfl
@[simp] theorem State.modCluster_tiles (s : State) (c : Nat) (f : Cluster → Cluster) : (s.modCluster c f).tiles = s.tiles := rfl
@[simp] theorem State.modCluster_parts (s : State) (c : Nat) (f : Cluster → Cluster) : (s.modCluster c f).parts = s.parts := rfl
@[simp] theorem State.modCluster_streams (s : State) (c : Nat) (f : Cluster → Cluster) : (s.modCluster c f).streams = s.streams := rfl
@[simp] theorem State.modCluster_pages (s : State) (c : Nat) (f : Cluster → Cluster) : (s.modCluster c f).pages = s.pages := rfl
@[simp] theorem State.modCluster_hbm (s : State) (c : Nat) (f : Cluster → Cluster) : (s.modCluster c f).hbm = s.hbm := rfl
@[simp] theorem State.modCluster_cxl (s : State) (c : Nat) (f : Cluster → Cluster) : (s.modCluster c f).cxl = s.cxl := rfl
@[simp] theorem State.modCluster_memports (s : State) (c : Nat) (f : Cluster → Cluster) : (s.modCluster c f).memports = s.memports := rfl
@[simp] theorem State.modCluster_uio (s : State) (c : Nat) (f : Cluster → Cluster) : (s.modCluster c f).uio = s.uio := rfl
@[simp] theorem State.modCluster_unitAcc (s : State) (c : Nat) (f : Cluster → Cluster) : (s.modCluster c f).unitAcc = s.unitAcc := rfl
@[simp] theorem State.modCluster_unitSeq (s : State) (c : Nat) (f : Cluster → Cluster) : (s.modCluster c f).unitSeq = s.unitSeq := rfl
@[simp] theorem State.modCluster_svc (s : State) (c : Nat) (f : Cluster → Cluster) : (s.modCluster c f).svc = s.svc := rfl
@[simp] theorem State.modCluster_svcTurn (s : State) (c : Nat) (f : Cluster → Cluster) : (s.modCluster c f).svcTurn = s.svcTurn := rfl
@[simp] theorem State.modCluster_routers (s : State) (c : Nat) (f : Cluster → Cluster) : (s.modCluster c f).routers = s.routers := rfl
@[simp] theorem State.modCluster_arrived (s : State) (c : Nat) (f : Cluster → Cluster) : (s.modCluster c f).arrived = s.arrived := rfl
@[simp] theorem State.modCluster_edge (s : State) (c : Nat) (f : Cluster → Cluster) : (s.modCluster c f).edge = s.edge := rfl
@[simp] theorem State.modCluster_disabled (s : State) (c : Nat) (f : Cluster → Cluster) : (s.modCluster c f).disabled = s.disabled := rfl
@[simp] theorem State.modCluster_withdrawn (s : State) (c : Nat) (f : Cluster → Cluster) : (s.modCluster c f).withdrawn = s.withdrawn := rfl
@[simp] theorem State.modCluster_baseFaults (s : State) (c : Nat) (f : Cluster → Cluster) : (s.modCluster c f).baseFaults = s.baseFaults := rfl
@[simp] theorem State.modCluster_retired (s : State) (c : Nat) (f : Cluster → Cluster) : (s.modCluster c f).retired = s.retired := rfl
@[simp] theorem State.modCluster_hports (s : State) (c : Nat) (f : Cluster → Cluster) : (s.modCluster c f).hports = s.hports := rfl
@[simp] theorem State.modCluster_job (s : State) (c : Nat) (f : Cluster → Cluster) : (s.modCluster c f).job = s.job := rfl
@[simp] theorem State.modCluster_power (s : State) (c : Nat) (f : Cluster → Cluster) : (s.modCluster c f).power = s.power := rfl
@[simp] theorem State.modCluster_telemetryUs (s : State) (c : Nat) (f : Cluster → Cluster) : (s.modCluster c f).telemetryUs = s.telemetryUs := rfl
@[simp] theorem State.modCluster_telemetryKinds (s : State) (c : Nat) (f : Cluster → Cluster) : (s.modCluster c f).telemetryKinds = s.telemetryKinds := rfl
@[simp] theorem State.modCluster_pins (s : State) (c : Nat) (f : Cluster → Cluster) : (s.modCluster c f).pins = s.pins := rfl
@[simp] theorem State.modCluster_observed (s : State) (c : Nat) (f : Cluster → Cluster) : (s.modCluster c f).observed = s.observed := rfl
@[simp] theorem State.modCluster_dbg (s : State) (c : Nat) (f : Cluster → Cluster) : (s.modCluster c f).dbg = s.dbg := rfl
@[simp] theorem State.modCluster_cv0 (s : State) (c : Nat) (f : Cluster → Cluster) : (s.modCluster c f).cv0 = s.cv0 := rfl
@[simp] theorem State.modCluster_cv1 (s : State) (c : Nat) (f : Cluster → Cluster) : (s.modCluster c f).cv1 = s.cv1 := rfl
@[simp] theorem State.modCluster_resets (s : State) (c : Nat) (f : Cluster → Cluster) : (s.modCluster c f).resets = s.resets := rfl
@[simp] theorem State.modCluster_preparing (s : State) (c : Nat) (f : Cluster → Cluster) : (s.modCluster c f).preparing = s.preparing := rfl
@[simp] theorem State.modCluster_removeReady (s : State) (c : Nat) (f : Cluster → Cluster) : (s.modCluster c f).removeReady = s.removeReady := rfl
@[simp] theorem State.modCluster_parkedCount (s : State) (c : Nat) (f : Cluster → Cluster) : (s.modCluster c f).parkedCount = s.parkedCount := rfl
@[simp] theorem State.modCluster_doorbellsIgnored (s : State) (c : Nat) (f : Cluster → Cluster) : (s.modCluster c f).doorbellsIgnored = s.doorbellsIgnored := rfl
@[simp] theorem State.modCluster_spdm (s : State) (c : Nat) (f : Cluster → Cluster) : (s.modCluster c f).spdm = s.spdm := rfl
@[simp] theorem State.modCluster_doe (s : State) (c : Nat) (f : Cluster → Cluster) : (s.modCluster c f).doe = s.doe := rfl
@[simp] theorem State.modCluster_i3c (s : State) (c : Nat) (f : Cluster → Cluster) : (s.modCluster c f).i3c = s.i3c := rfl
@[simp] theorem State.modCluster_meshTraffic (s : State) (c : Nat) (f : Cluster → Cluster) : (s.modCluster c f).meshTraffic = s.meshTraffic := rfl
@[simp] theorem State.modCluster_tile (s : State) (c : Nat) (f : Cluster → Cluster) (j : TileId) : (s.modCluster c f).tile j = s.tile j := rfl
@[simp] theorem State.modCluster_part (s : State) (c : Nat) (f : Cluster → Cluster) (j : Nat) : (s.modCluster c f).part j = s.part j := rfl
@[simp] theorem State.modCluster_stream (s : State) (c : Nat) (f : Cluster → Cluster) (j : Nat) : (s.modCluster c f).stream j = s.stream j := rfl
@[simp] theorem State.modCluster_page (s : State) (c : Nat) (f : Cluster → Cluster) (j : Nat) : (s.modCluster c f).page j = s.page j := rfl
@[simp] theorem State.modCluster_memport (s : State) (c : Nat) (f : Cluster → Cluster) (j : Nat) : (s.modCluster c f).memport j = s.memport j := rfl
@[simp] theorem State.modCluster_router (s : State) (c : Nat) (f : Cluster → Cluster) (j : Nat) : (s.modCluster c f).router j = s.router j := rfl
@[simp] theorem State.modCluster_hport (s : State) (c : Nat) (f : Cluster → Cluster) (j : Nat) : (s.modCluster c f).hport j = s.hport j := rfl
@[simp] theorem State.modCluster_mb (s : State) (c : Nat) (f : Cluster → Cluster) (j : Nat) : (s.modCluster c f).mb j = s.mb j := rfl

@[simp] theorem State.modPart_pending (s : State) (p : Nat) (f : Partition → Partition) : (s.modPart p f).pending = s.pending := rfl
@[simp] theorem State.modPart_freeCtr (s : State) (p : Nat) (f : Partition → Partition) : (s.modPart p f).freeCtr = s.freeCtr := rfl
@[simp] theorem State.modPart_time (s : State) (p : Nat) (f : Partition → Partition) : (s.modPart p f).time = s.time := rfl
@[simp] theorem State.modPart_cc (s : State) (p : Nat) (f : Partition → Partition) : (s.modPart p f).cc = s.cc := rfl
@[simp] theorem State.modPart_tsStep (s : State) (p : Nat) (f : Partition → Partition) : (s.modPart p f).tsStep = s.tsStep := rfl
@[simp] theorem State.modPart_timeHi (s : State) (p : Nat) (f : Partition → Partition) : (s.modPart p f).timeHi = s.timeHi := rfl
@[simp] theorem State.modPart_heartbeatReg (s : State) (p : Nat) (f : Partition → Partition) : (s.modPart p f).heartbeatReg = s.heartbeatReg := rfl
@[simp] theorem State.modPart_freqWait (s : State) (p : Nat) (f : Partition → Partition) : (s.modPart p f).freqWait = s.freqWait := rfl
@[simp] theorem State.modPart_fwRestart (s : State) (p : Nat) (f : Partition → Partition) : (s.modPart p f).fwRestart = s.fwRestart := rfl
@[simp] theorem State.modPart_pinClock (s : State) (p : Nat) (f : Partition → Partition) : (s.modPart p f).pinClock = s.pinClock := rfl
@[simp] theorem State.modPart_scan (s : State) (p : Nat) (f : Partition → Partition) : (s.modPart p f).scan = s.scan := rfl
@[simp] theorem State.modPart_trainWait (s : State) (p : Nat) (f : Partition → Partition) : (s.modPart p f).trainWait = s.trainWait := rfl
@[simp] theorem State.modPart_heartbeatS (s : State) (p : Nat) (f : Partition → Partition) : (s.modPart p f).heartbeatS = s.heartbeatS := rfl
@[simp] theorem State.modPart_cmdsDone (s : State) (p : Nat) (f : Partition → Partition) : (s.modPart p f).cmdsDone = s.cmdsDone := rfl
@[simp] theorem State.modPart_posted (s : State) (p : Nat) (f : Partition → Partition) : (s.modPart p f).posted = s.posted := rfl
@[simp] theorem State.modPart_sent (s : State) (p : Nat) (f : Partition → Partition) : (s.modPart p f).sent = s.sent := rfl
@[simp] theorem State.modPart_cxlSince (s : State) (p : Nat) (f : Partition → Partition) : (s.modPart p f).cxlSince = s.cxlSince := rfl
@[simp] theorem State.modPart_cxlTurn (s : State) (p : Nat) (f : Partition → Partition) : (s.modPart p f).cxlTurn = s.cxlTurn := rfl
@[simp] theorem State.modPart_cxlLeft (s : State) (p : Nat) (f : Partition → Partition) : (s.modPart p f).cxlLeft = s.cxlLeft := rfl
@[simp] theorem State.modPart_cxlPart (s : State) (p : Nat) (f : Partition → Partition) : (s.modPart p f).cxlPart = s.cxlPart := rfl
@[simp] theorem State.modPart_lastRead (s : State) (p : Nat) (f : Partition → Partition) : (s.modPart p f).lastRead = s.lastRead := rfl
@[simp] theorem State.modPart_eventCount (s : State) (p : Nat) (f : Partition → Partition) : (s.modPart p f).eventCount = s.eventCount := rfl
@[simp] theorem State.modPart_boot (s : State) (p : Nat) (f : Partition → Partition) : (s.modPart p f).boot = s.boot := rfl
@[simp] theorem State.modPart_fuses (s : State) (p : Nat) (f : Partition → Partition) : (s.modPart p f).fuses = s.fuses := rfl
@[simp] theorem State.modPart_fuseShown (s : State) (p : Nat) (f : Partition → Partition) : (s.modPart p f).fuseShown = s.fuseShown := rfl
@[simp] theorem State.modPart_fwShown (s : State) (p : Nat) (f : Partition → Partition) : (s.modPart p f).fwShown = s.fwShown := rfl
@[simp] theorem State.modPart_i3cUp (s : State) (p : Nat) (f : Partition → Partition) : (s.modPart p f).i3cUp = s.i3cUp := rfl
@[simp] theorem State.modPart_ready (s : State) (p : Nat) (f : Partition → Partition) : (s.modPart p f).ready = s.ready := rfl
@[simp] theorem State.modPart_flash (s : State) (p : Nat) (f : Partition → Partition) : (s.modPart p f).flash = s.flash := rfl
@[simp] theorem State.modPart_link (s : State) (p : Nat) (f : Partition → Partition) : (s.modPart p f).link = s.link := rfl
@[simp] theorem State.modPart_evr (s : State) (p : Nat) (f : Partition → Partition) : (s.modPart p f).evr = s.evr := rfl
@[simp] theorem State.modPart_tlr (s : State) (p : Nat) (f : Partition → Partition) : (s.modPart p f).tlr = s.tlr := rfl
@[simp] theorem State.modPart_bb (s : State) (p : Nat) (f : Partition → Partition) : (s.modPart p f).bb = s.bb := rfl
@[simp] theorem State.modPart_mbx (s : State) (p : Nat) (f : Partition → Partition) : (s.modPart p f).mbx = s.mbx := rfl
@[simp] theorem State.modPart_doorOrder (s : State) (p : Nat) (f : Partition → Partition) : (s.modPart p f).doorOrder = s.doorOrder := rfl
@[simp] theorem State.modPart_stages (s : State) (p : Nat) (f : Partition → Partition) : (s.modPart p f).stages = s.stages := rfl
@[simp] theorem State.modPart_windows (s : State) (p : Nat) (f : Partition → Partition) : (s.modPart p f).windows = s.windows := rfl
@[simp] theorem State.modPart_tiles (s : State) (p : Nat) (f : Partition → Partition) : (s.modPart p f).tiles = s.tiles := rfl
@[simp] theorem State.modPart_clusters (s : State) (p : Nat) (f : Partition → Partition) : (s.modPart p f).clusters = s.clusters := rfl
@[simp] theorem State.modPart_streams (s : State) (p : Nat) (f : Partition → Partition) : (s.modPart p f).streams = s.streams := rfl
@[simp] theorem State.modPart_pages (s : State) (p : Nat) (f : Partition → Partition) : (s.modPart p f).pages = s.pages := rfl
@[simp] theorem State.modPart_hbm (s : State) (p : Nat) (f : Partition → Partition) : (s.modPart p f).hbm = s.hbm := rfl
@[simp] theorem State.modPart_cxl (s : State) (p : Nat) (f : Partition → Partition) : (s.modPart p f).cxl = s.cxl := rfl
@[simp] theorem State.modPart_memports (s : State) (p : Nat) (f : Partition → Partition) : (s.modPart p f).memports = s.memports := rfl
@[simp] theorem State.modPart_uio (s : State) (p : Nat) (f : Partition → Partition) : (s.modPart p f).uio = s.uio := rfl
@[simp] theorem State.modPart_unitAcc (s : State) (p : Nat) (f : Partition → Partition) : (s.modPart p f).unitAcc = s.unitAcc := rfl
@[simp] theorem State.modPart_unitSeq (s : State) (p : Nat) (f : Partition → Partition) : (s.modPart p f).unitSeq = s.unitSeq := rfl
@[simp] theorem State.modPart_svc (s : State) (p : Nat) (f : Partition → Partition) : (s.modPart p f).svc = s.svc := rfl
@[simp] theorem State.modPart_svcTurn (s : State) (p : Nat) (f : Partition → Partition) : (s.modPart p f).svcTurn = s.svcTurn := rfl
@[simp] theorem State.modPart_routers (s : State) (p : Nat) (f : Partition → Partition) : (s.modPart p f).routers = s.routers := rfl
@[simp] theorem State.modPart_arrived (s : State) (p : Nat) (f : Partition → Partition) : (s.modPart p f).arrived = s.arrived := rfl
@[simp] theorem State.modPart_edge (s : State) (p : Nat) (f : Partition → Partition) : (s.modPart p f).edge = s.edge := rfl
@[simp] theorem State.modPart_disabled (s : State) (p : Nat) (f : Partition → Partition) : (s.modPart p f).disabled = s.disabled := rfl
@[simp] theorem State.modPart_withdrawn (s : State) (p : Nat) (f : Partition → Partition) : (s.modPart p f).withdrawn = s.withdrawn := rfl
@[simp] theorem State.modPart_baseFaults (s : State) (p : Nat) (f : Partition → Partition) : (s.modPart p f).baseFaults = s.baseFaults := rfl
@[simp] theorem State.modPart_retired (s : State) (p : Nat) (f : Partition → Partition) : (s.modPart p f).retired = s.retired := rfl
@[simp] theorem State.modPart_hports (s : State) (p : Nat) (f : Partition → Partition) : (s.modPart p f).hports = s.hports := rfl
@[simp] theorem State.modPart_job (s : State) (p : Nat) (f : Partition → Partition) : (s.modPart p f).job = s.job := rfl
@[simp] theorem State.modPart_power (s : State) (p : Nat) (f : Partition → Partition) : (s.modPart p f).power = s.power := rfl
@[simp] theorem State.modPart_telemetryUs (s : State) (p : Nat) (f : Partition → Partition) : (s.modPart p f).telemetryUs = s.telemetryUs := rfl
@[simp] theorem State.modPart_telemetryKinds (s : State) (p : Nat) (f : Partition → Partition) : (s.modPart p f).telemetryKinds = s.telemetryKinds := rfl
@[simp] theorem State.modPart_pins (s : State) (p : Nat) (f : Partition → Partition) : (s.modPart p f).pins = s.pins := rfl
@[simp] theorem State.modPart_observed (s : State) (p : Nat) (f : Partition → Partition) : (s.modPart p f).observed = s.observed := rfl
@[simp] theorem State.modPart_dbg (s : State) (p : Nat) (f : Partition → Partition) : (s.modPart p f).dbg = s.dbg := rfl
@[simp] theorem State.modPart_cv0 (s : State) (p : Nat) (f : Partition → Partition) : (s.modPart p f).cv0 = s.cv0 := rfl
@[simp] theorem State.modPart_cv1 (s : State) (p : Nat) (f : Partition → Partition) : (s.modPart p f).cv1 = s.cv1 := rfl
@[simp] theorem State.modPart_resets (s : State) (p : Nat) (f : Partition → Partition) : (s.modPart p f).resets = s.resets := rfl
@[simp] theorem State.modPart_preparing (s : State) (p : Nat) (f : Partition → Partition) : (s.modPart p f).preparing = s.preparing := rfl
@[simp] theorem State.modPart_removeReady (s : State) (p : Nat) (f : Partition → Partition) : (s.modPart p f).removeReady = s.removeReady := rfl
@[simp] theorem State.modPart_parkedCount (s : State) (p : Nat) (f : Partition → Partition) : (s.modPart p f).parkedCount = s.parkedCount := rfl
@[simp] theorem State.modPart_doorbellsIgnored (s : State) (p : Nat) (f : Partition → Partition) : (s.modPart p f).doorbellsIgnored = s.doorbellsIgnored := rfl
@[simp] theorem State.modPart_spdm (s : State) (p : Nat) (f : Partition → Partition) : (s.modPart p f).spdm = s.spdm := rfl
@[simp] theorem State.modPart_doe (s : State) (p : Nat) (f : Partition → Partition) : (s.modPart p f).doe = s.doe := rfl
@[simp] theorem State.modPart_i3c (s : State) (p : Nat) (f : Partition → Partition) : (s.modPart p f).i3c = s.i3c := rfl
@[simp] theorem State.modPart_meshTraffic (s : State) (p : Nat) (f : Partition → Partition) : (s.modPart p f).meshTraffic = s.meshTraffic := rfl
@[simp] theorem State.modPart_tile (s : State) (p : Nat) (f : Partition → Partition) (j : TileId) : (s.modPart p f).tile j = s.tile j := rfl
@[simp] theorem State.modPart_cluster (s : State) (p : Nat) (f : Partition → Partition) (j : Nat) : (s.modPart p f).cluster j = s.cluster j := rfl
@[simp] theorem State.modPart_stream (s : State) (p : Nat) (f : Partition → Partition) (j : Nat) : (s.modPart p f).stream j = s.stream j := rfl
@[simp] theorem State.modPart_page (s : State) (p : Nat) (f : Partition → Partition) (j : Nat) : (s.modPart p f).page j = s.page j := rfl
@[simp] theorem State.modPart_memport (s : State) (p : Nat) (f : Partition → Partition) (j : Nat) : (s.modPart p f).memport j = s.memport j := rfl
@[simp] theorem State.modPart_router (s : State) (p : Nat) (f : Partition → Partition) (j : Nat) : (s.modPart p f).router j = s.router j := rfl
@[simp] theorem State.modPart_hport (s : State) (p : Nat) (f : Partition → Partition) (j : Nat) : (s.modPart p f).hport j = s.hport j := rfl
@[simp] theorem State.modPart_mb (s : State) (p : Nat) (f : Partition → Partition) (j : Nat) : (s.modPart p f).mb j = s.mb j := rfl

@[simp] theorem State.modStream_pending (s : State) (n : Nat) (f : Stream → Stream) : (s.modStream n f).pending = s.pending := rfl
@[simp] theorem State.modStream_freeCtr (s : State) (n : Nat) (f : Stream → Stream) : (s.modStream n f).freeCtr = s.freeCtr := rfl
@[simp] theorem State.modStream_time (s : State) (n : Nat) (f : Stream → Stream) : (s.modStream n f).time = s.time := rfl
@[simp] theorem State.modStream_cc (s : State) (n : Nat) (f : Stream → Stream) : (s.modStream n f).cc = s.cc := rfl
@[simp] theorem State.modStream_tsStep (s : State) (n : Nat) (f : Stream → Stream) : (s.modStream n f).tsStep = s.tsStep := rfl
@[simp] theorem State.modStream_timeHi (s : State) (n : Nat) (f : Stream → Stream) : (s.modStream n f).timeHi = s.timeHi := rfl
@[simp] theorem State.modStream_heartbeatReg (s : State) (n : Nat) (f : Stream → Stream) : (s.modStream n f).heartbeatReg = s.heartbeatReg := rfl
@[simp] theorem State.modStream_freqWait (s : State) (n : Nat) (f : Stream → Stream) : (s.modStream n f).freqWait = s.freqWait := rfl
@[simp] theorem State.modStream_fwRestart (s : State) (n : Nat) (f : Stream → Stream) : (s.modStream n f).fwRestart = s.fwRestart := rfl
@[simp] theorem State.modStream_pinClock (s : State) (n : Nat) (f : Stream → Stream) : (s.modStream n f).pinClock = s.pinClock := rfl
@[simp] theorem State.modStream_scan (s : State) (n : Nat) (f : Stream → Stream) : (s.modStream n f).scan = s.scan := rfl
@[simp] theorem State.modStream_trainWait (s : State) (n : Nat) (f : Stream → Stream) : (s.modStream n f).trainWait = s.trainWait := rfl
@[simp] theorem State.modStream_heartbeatS (s : State) (n : Nat) (f : Stream → Stream) : (s.modStream n f).heartbeatS = s.heartbeatS := rfl
@[simp] theorem State.modStream_cmdsDone (s : State) (n : Nat) (f : Stream → Stream) : (s.modStream n f).cmdsDone = s.cmdsDone := rfl
@[simp] theorem State.modStream_posted (s : State) (n : Nat) (f : Stream → Stream) : (s.modStream n f).posted = s.posted := rfl
@[simp] theorem State.modStream_sent (s : State) (n : Nat) (f : Stream → Stream) : (s.modStream n f).sent = s.sent := rfl
@[simp] theorem State.modStream_cxlSince (s : State) (n : Nat) (f : Stream → Stream) : (s.modStream n f).cxlSince = s.cxlSince := rfl
@[simp] theorem State.modStream_cxlTurn (s : State) (n : Nat) (f : Stream → Stream) : (s.modStream n f).cxlTurn = s.cxlTurn := rfl
@[simp] theorem State.modStream_cxlLeft (s : State) (n : Nat) (f : Stream → Stream) : (s.modStream n f).cxlLeft = s.cxlLeft := rfl
@[simp] theorem State.modStream_cxlPart (s : State) (n : Nat) (f : Stream → Stream) : (s.modStream n f).cxlPart = s.cxlPart := rfl
@[simp] theorem State.modStream_lastRead (s : State) (n : Nat) (f : Stream → Stream) : (s.modStream n f).lastRead = s.lastRead := rfl
@[simp] theorem State.modStream_eventCount (s : State) (n : Nat) (f : Stream → Stream) : (s.modStream n f).eventCount = s.eventCount := rfl
@[simp] theorem State.modStream_boot (s : State) (n : Nat) (f : Stream → Stream) : (s.modStream n f).boot = s.boot := rfl
@[simp] theorem State.modStream_fuses (s : State) (n : Nat) (f : Stream → Stream) : (s.modStream n f).fuses = s.fuses := rfl
@[simp] theorem State.modStream_fuseShown (s : State) (n : Nat) (f : Stream → Stream) : (s.modStream n f).fuseShown = s.fuseShown := rfl
@[simp] theorem State.modStream_fwShown (s : State) (n : Nat) (f : Stream → Stream) : (s.modStream n f).fwShown = s.fwShown := rfl
@[simp] theorem State.modStream_i3cUp (s : State) (n : Nat) (f : Stream → Stream) : (s.modStream n f).i3cUp = s.i3cUp := rfl
@[simp] theorem State.modStream_ready (s : State) (n : Nat) (f : Stream → Stream) : (s.modStream n f).ready = s.ready := rfl
@[simp] theorem State.modStream_flash (s : State) (n : Nat) (f : Stream → Stream) : (s.modStream n f).flash = s.flash := rfl
@[simp] theorem State.modStream_link (s : State) (n : Nat) (f : Stream → Stream) : (s.modStream n f).link = s.link := rfl
@[simp] theorem State.modStream_evr (s : State) (n : Nat) (f : Stream → Stream) : (s.modStream n f).evr = s.evr := rfl
@[simp] theorem State.modStream_tlr (s : State) (n : Nat) (f : Stream → Stream) : (s.modStream n f).tlr = s.tlr := rfl
@[simp] theorem State.modStream_bb (s : State) (n : Nat) (f : Stream → Stream) : (s.modStream n f).bb = s.bb := rfl
@[simp] theorem State.modStream_mbx (s : State) (n : Nat) (f : Stream → Stream) : (s.modStream n f).mbx = s.mbx := rfl
@[simp] theorem State.modStream_doorOrder (s : State) (n : Nat) (f : Stream → Stream) : (s.modStream n f).doorOrder = s.doorOrder := rfl
@[simp] theorem State.modStream_stages (s : State) (n : Nat) (f : Stream → Stream) : (s.modStream n f).stages = s.stages := rfl
@[simp] theorem State.modStream_windows (s : State) (n : Nat) (f : Stream → Stream) : (s.modStream n f).windows = s.windows := rfl
@[simp] theorem State.modStream_tiles (s : State) (n : Nat) (f : Stream → Stream) : (s.modStream n f).tiles = s.tiles := rfl
@[simp] theorem State.modStream_clusters (s : State) (n : Nat) (f : Stream → Stream) : (s.modStream n f).clusters = s.clusters := rfl
@[simp] theorem State.modStream_parts (s : State) (n : Nat) (f : Stream → Stream) : (s.modStream n f).parts = s.parts := rfl
@[simp] theorem State.modStream_pages (s : State) (n : Nat) (f : Stream → Stream) : (s.modStream n f).pages = s.pages := rfl
@[simp] theorem State.modStream_hbm (s : State) (n : Nat) (f : Stream → Stream) : (s.modStream n f).hbm = s.hbm := rfl
@[simp] theorem State.modStream_cxl (s : State) (n : Nat) (f : Stream → Stream) : (s.modStream n f).cxl = s.cxl := rfl
@[simp] theorem State.modStream_memports (s : State) (n : Nat) (f : Stream → Stream) : (s.modStream n f).memports = s.memports := rfl
@[simp] theorem State.modStream_uio (s : State) (n : Nat) (f : Stream → Stream) : (s.modStream n f).uio = s.uio := rfl
@[simp] theorem State.modStream_unitAcc (s : State) (n : Nat) (f : Stream → Stream) : (s.modStream n f).unitAcc = s.unitAcc := rfl
@[simp] theorem State.modStream_unitSeq (s : State) (n : Nat) (f : Stream → Stream) : (s.modStream n f).unitSeq = s.unitSeq := rfl
@[simp] theorem State.modStream_svc (s : State) (n : Nat) (f : Stream → Stream) : (s.modStream n f).svc = s.svc := rfl
@[simp] theorem State.modStream_svcTurn (s : State) (n : Nat) (f : Stream → Stream) : (s.modStream n f).svcTurn = s.svcTurn := rfl
@[simp] theorem State.modStream_routers (s : State) (n : Nat) (f : Stream → Stream) : (s.modStream n f).routers = s.routers := rfl
@[simp] theorem State.modStream_arrived (s : State) (n : Nat) (f : Stream → Stream) : (s.modStream n f).arrived = s.arrived := rfl
@[simp] theorem State.modStream_edge (s : State) (n : Nat) (f : Stream → Stream) : (s.modStream n f).edge = s.edge := rfl
@[simp] theorem State.modStream_disabled (s : State) (n : Nat) (f : Stream → Stream) : (s.modStream n f).disabled = s.disabled := rfl
@[simp] theorem State.modStream_withdrawn (s : State) (n : Nat) (f : Stream → Stream) : (s.modStream n f).withdrawn = s.withdrawn := rfl
@[simp] theorem State.modStream_baseFaults (s : State) (n : Nat) (f : Stream → Stream) : (s.modStream n f).baseFaults = s.baseFaults := rfl
@[simp] theorem State.modStream_retired (s : State) (n : Nat) (f : Stream → Stream) : (s.modStream n f).retired = s.retired := rfl
@[simp] theorem State.modStream_hports (s : State) (n : Nat) (f : Stream → Stream) : (s.modStream n f).hports = s.hports := rfl
@[simp] theorem State.modStream_job (s : State) (n : Nat) (f : Stream → Stream) : (s.modStream n f).job = s.job := rfl
@[simp] theorem State.modStream_power (s : State) (n : Nat) (f : Stream → Stream) : (s.modStream n f).power = s.power := rfl
@[simp] theorem State.modStream_telemetryUs (s : State) (n : Nat) (f : Stream → Stream) : (s.modStream n f).telemetryUs = s.telemetryUs := rfl
@[simp] theorem State.modStream_telemetryKinds (s : State) (n : Nat) (f : Stream → Stream) : (s.modStream n f).telemetryKinds = s.telemetryKinds := rfl
@[simp] theorem State.modStream_pins (s : State) (n : Nat) (f : Stream → Stream) : (s.modStream n f).pins = s.pins := rfl
@[simp] theorem State.modStream_observed (s : State) (n : Nat) (f : Stream → Stream) : (s.modStream n f).observed = s.observed := rfl
@[simp] theorem State.modStream_dbg (s : State) (n : Nat) (f : Stream → Stream) : (s.modStream n f).dbg = s.dbg := rfl
@[simp] theorem State.modStream_cv0 (s : State) (n : Nat) (f : Stream → Stream) : (s.modStream n f).cv0 = s.cv0 := rfl
@[simp] theorem State.modStream_cv1 (s : State) (n : Nat) (f : Stream → Stream) : (s.modStream n f).cv1 = s.cv1 := rfl
@[simp] theorem State.modStream_resets (s : State) (n : Nat) (f : Stream → Stream) : (s.modStream n f).resets = s.resets := rfl
@[simp] theorem State.modStream_preparing (s : State) (n : Nat) (f : Stream → Stream) : (s.modStream n f).preparing = s.preparing := rfl
@[simp] theorem State.modStream_removeReady (s : State) (n : Nat) (f : Stream → Stream) : (s.modStream n f).removeReady = s.removeReady := rfl
@[simp] theorem State.modStream_parkedCount (s : State) (n : Nat) (f : Stream → Stream) : (s.modStream n f).parkedCount = s.parkedCount := rfl
@[simp] theorem State.modStream_doorbellsIgnored (s : State) (n : Nat) (f : Stream → Stream) : (s.modStream n f).doorbellsIgnored = s.doorbellsIgnored := rfl
@[simp] theorem State.modStream_spdm (s : State) (n : Nat) (f : Stream → Stream) : (s.modStream n f).spdm = s.spdm := rfl
@[simp] theorem State.modStream_doe (s : State) (n : Nat) (f : Stream → Stream) : (s.modStream n f).doe = s.doe := rfl
@[simp] theorem State.modStream_i3c (s : State) (n : Nat) (f : Stream → Stream) : (s.modStream n f).i3c = s.i3c := rfl
@[simp] theorem State.modStream_meshTraffic (s : State) (n : Nat) (f : Stream → Stream) : (s.modStream n f).meshTraffic = s.meshTraffic := rfl
@[simp] theorem State.modStream_tile (s : State) (n : Nat) (f : Stream → Stream) (j : TileId) : (s.modStream n f).tile j = s.tile j := rfl
@[simp] theorem State.modStream_cluster (s : State) (n : Nat) (f : Stream → Stream) (j : Nat) : (s.modStream n f).cluster j = s.cluster j := rfl
@[simp] theorem State.modStream_part (s : State) (n : Nat) (f : Stream → Stream) (j : Nat) : (s.modStream n f).part j = s.part j := rfl
@[simp] theorem State.modStream_page (s : State) (n : Nat) (f : Stream → Stream) (j : Nat) : (s.modStream n f).page j = s.page j := rfl
@[simp] theorem State.modStream_memport (s : State) (n : Nat) (f : Stream → Stream) (j : Nat) : (s.modStream n f).memport j = s.memport j := rfl
@[simp] theorem State.modStream_router (s : State) (n : Nat) (f : Stream → Stream) (j : Nat) : (s.modStream n f).router j = s.router j := rfl
@[simp] theorem State.modStream_hport (s : State) (n : Nat) (f : Stream → Stream) (j : Nat) : (s.modStream n f).hport j = s.hport j := rfl
@[simp] theorem State.modStream_mb (s : State) (n : Nat) (f : Stream → Stream) (j : Nat) : (s.modStream n f).mb j = s.mb j := rfl

@[simp] theorem State.modPage_pending (s : State) (g : Nat) (f : Page → Page) : (s.modPage g f).pending = s.pending := rfl
@[simp] theorem State.modPage_freeCtr (s : State) (g : Nat) (f : Page → Page) : (s.modPage g f).freeCtr = s.freeCtr := rfl
@[simp] theorem State.modPage_time (s : State) (g : Nat) (f : Page → Page) : (s.modPage g f).time = s.time := rfl
@[simp] theorem State.modPage_cc (s : State) (g : Nat) (f : Page → Page) : (s.modPage g f).cc = s.cc := rfl
@[simp] theorem State.modPage_tsStep (s : State) (g : Nat) (f : Page → Page) : (s.modPage g f).tsStep = s.tsStep := rfl
@[simp] theorem State.modPage_timeHi (s : State) (g : Nat) (f : Page → Page) : (s.modPage g f).timeHi = s.timeHi := rfl
@[simp] theorem State.modPage_heartbeatReg (s : State) (g : Nat) (f : Page → Page) : (s.modPage g f).heartbeatReg = s.heartbeatReg := rfl
@[simp] theorem State.modPage_freqWait (s : State) (g : Nat) (f : Page → Page) : (s.modPage g f).freqWait = s.freqWait := rfl
@[simp] theorem State.modPage_fwRestart (s : State) (g : Nat) (f : Page → Page) : (s.modPage g f).fwRestart = s.fwRestart := rfl
@[simp] theorem State.modPage_pinClock (s : State) (g : Nat) (f : Page → Page) : (s.modPage g f).pinClock = s.pinClock := rfl
@[simp] theorem State.modPage_scan (s : State) (g : Nat) (f : Page → Page) : (s.modPage g f).scan = s.scan := rfl
@[simp] theorem State.modPage_trainWait (s : State) (g : Nat) (f : Page → Page) : (s.modPage g f).trainWait = s.trainWait := rfl
@[simp] theorem State.modPage_heartbeatS (s : State) (g : Nat) (f : Page → Page) : (s.modPage g f).heartbeatS = s.heartbeatS := rfl
@[simp] theorem State.modPage_cmdsDone (s : State) (g : Nat) (f : Page → Page) : (s.modPage g f).cmdsDone = s.cmdsDone := rfl
@[simp] theorem State.modPage_posted (s : State) (g : Nat) (f : Page → Page) : (s.modPage g f).posted = s.posted := rfl
@[simp] theorem State.modPage_sent (s : State) (g : Nat) (f : Page → Page) : (s.modPage g f).sent = s.sent := rfl
@[simp] theorem State.modPage_cxlSince (s : State) (g : Nat) (f : Page → Page) : (s.modPage g f).cxlSince = s.cxlSince := rfl
@[simp] theorem State.modPage_cxlTurn (s : State) (g : Nat) (f : Page → Page) : (s.modPage g f).cxlTurn = s.cxlTurn := rfl
@[simp] theorem State.modPage_cxlLeft (s : State) (g : Nat) (f : Page → Page) : (s.modPage g f).cxlLeft = s.cxlLeft := rfl
@[simp] theorem State.modPage_cxlPart (s : State) (g : Nat) (f : Page → Page) : (s.modPage g f).cxlPart = s.cxlPart := rfl
@[simp] theorem State.modPage_lastRead (s : State) (g : Nat) (f : Page → Page) : (s.modPage g f).lastRead = s.lastRead := rfl
@[simp] theorem State.modPage_eventCount (s : State) (g : Nat) (f : Page → Page) : (s.modPage g f).eventCount = s.eventCount := rfl
@[simp] theorem State.modPage_boot (s : State) (g : Nat) (f : Page → Page) : (s.modPage g f).boot = s.boot := rfl
@[simp] theorem State.modPage_fuses (s : State) (g : Nat) (f : Page → Page) : (s.modPage g f).fuses = s.fuses := rfl
@[simp] theorem State.modPage_fuseShown (s : State) (g : Nat) (f : Page → Page) : (s.modPage g f).fuseShown = s.fuseShown := rfl
@[simp] theorem State.modPage_fwShown (s : State) (g : Nat) (f : Page → Page) : (s.modPage g f).fwShown = s.fwShown := rfl
@[simp] theorem State.modPage_i3cUp (s : State) (g : Nat) (f : Page → Page) : (s.modPage g f).i3cUp = s.i3cUp := rfl
@[simp] theorem State.modPage_ready (s : State) (g : Nat) (f : Page → Page) : (s.modPage g f).ready = s.ready := rfl
@[simp] theorem State.modPage_flash (s : State) (g : Nat) (f : Page → Page) : (s.modPage g f).flash = s.flash := rfl
@[simp] theorem State.modPage_link (s : State) (g : Nat) (f : Page → Page) : (s.modPage g f).link = s.link := rfl
@[simp] theorem State.modPage_evr (s : State) (g : Nat) (f : Page → Page) : (s.modPage g f).evr = s.evr := rfl
@[simp] theorem State.modPage_tlr (s : State) (g : Nat) (f : Page → Page) : (s.modPage g f).tlr = s.tlr := rfl
@[simp] theorem State.modPage_bb (s : State) (g : Nat) (f : Page → Page) : (s.modPage g f).bb = s.bb := rfl
@[simp] theorem State.modPage_mbx (s : State) (g : Nat) (f : Page → Page) : (s.modPage g f).mbx = s.mbx := rfl
@[simp] theorem State.modPage_doorOrder (s : State) (g : Nat) (f : Page → Page) : (s.modPage g f).doorOrder = s.doorOrder := rfl
@[simp] theorem State.modPage_stages (s : State) (g : Nat) (f : Page → Page) : (s.modPage g f).stages = s.stages := rfl
@[simp] theorem State.modPage_windows (s : State) (g : Nat) (f : Page → Page) : (s.modPage g f).windows = s.windows := rfl
@[simp] theorem State.modPage_tiles (s : State) (g : Nat) (f : Page → Page) : (s.modPage g f).tiles = s.tiles := rfl
@[simp] theorem State.modPage_clusters (s : State) (g : Nat) (f : Page → Page) : (s.modPage g f).clusters = s.clusters := rfl
@[simp] theorem State.modPage_parts (s : State) (g : Nat) (f : Page → Page) : (s.modPage g f).parts = s.parts := rfl
@[simp] theorem State.modPage_streams (s : State) (g : Nat) (f : Page → Page) : (s.modPage g f).streams = s.streams := rfl
@[simp] theorem State.modPage_hbm (s : State) (g : Nat) (f : Page → Page) : (s.modPage g f).hbm = s.hbm := rfl
@[simp] theorem State.modPage_cxl (s : State) (g : Nat) (f : Page → Page) : (s.modPage g f).cxl = s.cxl := rfl
@[simp] theorem State.modPage_memports (s : State) (g : Nat) (f : Page → Page) : (s.modPage g f).memports = s.memports := rfl
@[simp] theorem State.modPage_uio (s : State) (g : Nat) (f : Page → Page) : (s.modPage g f).uio = s.uio := rfl
@[simp] theorem State.modPage_unitAcc (s : State) (g : Nat) (f : Page → Page) : (s.modPage g f).unitAcc = s.unitAcc := rfl
@[simp] theorem State.modPage_unitSeq (s : State) (g : Nat) (f : Page → Page) : (s.modPage g f).unitSeq = s.unitSeq := rfl
@[simp] theorem State.modPage_svc (s : State) (g : Nat) (f : Page → Page) : (s.modPage g f).svc = s.svc := rfl
@[simp] theorem State.modPage_svcTurn (s : State) (g : Nat) (f : Page → Page) : (s.modPage g f).svcTurn = s.svcTurn := rfl
@[simp] theorem State.modPage_routers (s : State) (g : Nat) (f : Page → Page) : (s.modPage g f).routers = s.routers := rfl
@[simp] theorem State.modPage_arrived (s : State) (g : Nat) (f : Page → Page) : (s.modPage g f).arrived = s.arrived := rfl
@[simp] theorem State.modPage_edge (s : State) (g : Nat) (f : Page → Page) : (s.modPage g f).edge = s.edge := rfl
@[simp] theorem State.modPage_disabled (s : State) (g : Nat) (f : Page → Page) : (s.modPage g f).disabled = s.disabled := rfl
@[simp] theorem State.modPage_withdrawn (s : State) (g : Nat) (f : Page → Page) : (s.modPage g f).withdrawn = s.withdrawn := rfl
@[simp] theorem State.modPage_baseFaults (s : State) (g : Nat) (f : Page → Page) : (s.modPage g f).baseFaults = s.baseFaults := rfl
@[simp] theorem State.modPage_retired (s : State) (g : Nat) (f : Page → Page) : (s.modPage g f).retired = s.retired := rfl
@[simp] theorem State.modPage_hports (s : State) (g : Nat) (f : Page → Page) : (s.modPage g f).hports = s.hports := rfl
@[simp] theorem State.modPage_job (s : State) (g : Nat) (f : Page → Page) : (s.modPage g f).job = s.job := rfl
@[simp] theorem State.modPage_power (s : State) (g : Nat) (f : Page → Page) : (s.modPage g f).power = s.power := rfl
@[simp] theorem State.modPage_telemetryUs (s : State) (g : Nat) (f : Page → Page) : (s.modPage g f).telemetryUs = s.telemetryUs := rfl
@[simp] theorem State.modPage_telemetryKinds (s : State) (g : Nat) (f : Page → Page) : (s.modPage g f).telemetryKinds = s.telemetryKinds := rfl
@[simp] theorem State.modPage_pins (s : State) (g : Nat) (f : Page → Page) : (s.modPage g f).pins = s.pins := rfl
@[simp] theorem State.modPage_observed (s : State) (g : Nat) (f : Page → Page) : (s.modPage g f).observed = s.observed := rfl
@[simp] theorem State.modPage_dbg (s : State) (g : Nat) (f : Page → Page) : (s.modPage g f).dbg = s.dbg := rfl
@[simp] theorem State.modPage_cv0 (s : State) (g : Nat) (f : Page → Page) : (s.modPage g f).cv0 = s.cv0 := rfl
@[simp] theorem State.modPage_cv1 (s : State) (g : Nat) (f : Page → Page) : (s.modPage g f).cv1 = s.cv1 := rfl
@[simp] theorem State.modPage_resets (s : State) (g : Nat) (f : Page → Page) : (s.modPage g f).resets = s.resets := rfl
@[simp] theorem State.modPage_preparing (s : State) (g : Nat) (f : Page → Page) : (s.modPage g f).preparing = s.preparing := rfl
@[simp] theorem State.modPage_removeReady (s : State) (g : Nat) (f : Page → Page) : (s.modPage g f).removeReady = s.removeReady := rfl
@[simp] theorem State.modPage_parkedCount (s : State) (g : Nat) (f : Page → Page) : (s.modPage g f).parkedCount = s.parkedCount := rfl
@[simp] theorem State.modPage_doorbellsIgnored (s : State) (g : Nat) (f : Page → Page) : (s.modPage g f).doorbellsIgnored = s.doorbellsIgnored := rfl
@[simp] theorem State.modPage_spdm (s : State) (g : Nat) (f : Page → Page) : (s.modPage g f).spdm = s.spdm := rfl
@[simp] theorem State.modPage_doe (s : State) (g : Nat) (f : Page → Page) : (s.modPage g f).doe = s.doe := rfl
@[simp] theorem State.modPage_i3c (s : State) (g : Nat) (f : Page → Page) : (s.modPage g f).i3c = s.i3c := rfl
@[simp] theorem State.modPage_meshTraffic (s : State) (g : Nat) (f : Page → Page) : (s.modPage g f).meshTraffic = s.meshTraffic := rfl
@[simp] theorem State.modPage_tile (s : State) (g : Nat) (f : Page → Page) (j : TileId) : (s.modPage g f).tile j = s.tile j := rfl
@[simp] theorem State.modPage_cluster (s : State) (g : Nat) (f : Page → Page) (j : Nat) : (s.modPage g f).cluster j = s.cluster j := rfl
@[simp] theorem State.modPage_part (s : State) (g : Nat) (f : Page → Page) (j : Nat) : (s.modPage g f).part j = s.part j := rfl
@[simp] theorem State.modPage_stream (s : State) (g : Nat) (f : Page → Page) (j : Nat) : (s.modPage g f).stream j = s.stream j := rfl
@[simp] theorem State.modPage_memport (s : State) (g : Nat) (f : Page → Page) (j : Nat) : (s.modPage g f).memport j = s.memport j := rfl
@[simp] theorem State.modPage_router (s : State) (g : Nat) (f : Page → Page) (j : Nat) : (s.modPage g f).router j = s.router j := rfl
@[simp] theorem State.modPage_hport (s : State) (g : Nat) (f : Page → Page) (j : Nat) : (s.modPage g f).hport j = s.hport j := rfl
@[simp] theorem State.modPage_mb (s : State) (g : Nat) (f : Page → Page) (j : Nat) : (s.modPage g f).mb j = s.mb j := rfl

@[simp] theorem State.modMemport_pending (s : State) (m : Nat) (f : MemPort → MemPort) : (s.modMemport m f).pending = s.pending := rfl
@[simp] theorem State.modMemport_freeCtr (s : State) (m : Nat) (f : MemPort → MemPort) : (s.modMemport m f).freeCtr = s.freeCtr := rfl
@[simp] theorem State.modMemport_time (s : State) (m : Nat) (f : MemPort → MemPort) : (s.modMemport m f).time = s.time := rfl
@[simp] theorem State.modMemport_cc (s : State) (m : Nat) (f : MemPort → MemPort) : (s.modMemport m f).cc = s.cc := rfl
@[simp] theorem State.modMemport_tsStep (s : State) (m : Nat) (f : MemPort → MemPort) : (s.modMemport m f).tsStep = s.tsStep := rfl
@[simp] theorem State.modMemport_timeHi (s : State) (m : Nat) (f : MemPort → MemPort) : (s.modMemport m f).timeHi = s.timeHi := rfl
@[simp] theorem State.modMemport_heartbeatReg (s : State) (m : Nat) (f : MemPort → MemPort) : (s.modMemport m f).heartbeatReg = s.heartbeatReg := rfl
@[simp] theorem State.modMemport_freqWait (s : State) (m : Nat) (f : MemPort → MemPort) : (s.modMemport m f).freqWait = s.freqWait := rfl
@[simp] theorem State.modMemport_fwRestart (s : State) (m : Nat) (f : MemPort → MemPort) : (s.modMemport m f).fwRestart = s.fwRestart := rfl
@[simp] theorem State.modMemport_pinClock (s : State) (m : Nat) (f : MemPort → MemPort) : (s.modMemport m f).pinClock = s.pinClock := rfl
@[simp] theorem State.modMemport_scan (s : State) (m : Nat) (f : MemPort → MemPort) : (s.modMemport m f).scan = s.scan := rfl
@[simp] theorem State.modMemport_trainWait (s : State) (m : Nat) (f : MemPort → MemPort) : (s.modMemport m f).trainWait = s.trainWait := rfl
@[simp] theorem State.modMemport_heartbeatS (s : State) (m : Nat) (f : MemPort → MemPort) : (s.modMemport m f).heartbeatS = s.heartbeatS := rfl
@[simp] theorem State.modMemport_cmdsDone (s : State) (m : Nat) (f : MemPort → MemPort) : (s.modMemport m f).cmdsDone = s.cmdsDone := rfl
@[simp] theorem State.modMemport_posted (s : State) (m : Nat) (f : MemPort → MemPort) : (s.modMemport m f).posted = s.posted := rfl
@[simp] theorem State.modMemport_sent (s : State) (m : Nat) (f : MemPort → MemPort) : (s.modMemport m f).sent = s.sent := rfl
@[simp] theorem State.modMemport_cxlSince (s : State) (m : Nat) (f : MemPort → MemPort) : (s.modMemport m f).cxlSince = s.cxlSince := rfl
@[simp] theorem State.modMemport_cxlTurn (s : State) (m : Nat) (f : MemPort → MemPort) : (s.modMemport m f).cxlTurn = s.cxlTurn := rfl
@[simp] theorem State.modMemport_cxlLeft (s : State) (m : Nat) (f : MemPort → MemPort) : (s.modMemport m f).cxlLeft = s.cxlLeft := rfl
@[simp] theorem State.modMemport_cxlPart (s : State) (m : Nat) (f : MemPort → MemPort) : (s.modMemport m f).cxlPart = s.cxlPart := rfl
@[simp] theorem State.modMemport_lastRead (s : State) (m : Nat) (f : MemPort → MemPort) : (s.modMemport m f).lastRead = s.lastRead := rfl
@[simp] theorem State.modMemport_eventCount (s : State) (m : Nat) (f : MemPort → MemPort) : (s.modMemport m f).eventCount = s.eventCount := rfl
@[simp] theorem State.modMemport_boot (s : State) (m : Nat) (f : MemPort → MemPort) : (s.modMemport m f).boot = s.boot := rfl
@[simp] theorem State.modMemport_fuses (s : State) (m : Nat) (f : MemPort → MemPort) : (s.modMemport m f).fuses = s.fuses := rfl
@[simp] theorem State.modMemport_fuseShown (s : State) (m : Nat) (f : MemPort → MemPort) : (s.modMemport m f).fuseShown = s.fuseShown := rfl
@[simp] theorem State.modMemport_fwShown (s : State) (m : Nat) (f : MemPort → MemPort) : (s.modMemport m f).fwShown = s.fwShown := rfl
@[simp] theorem State.modMemport_i3cUp (s : State) (m : Nat) (f : MemPort → MemPort) : (s.modMemport m f).i3cUp = s.i3cUp := rfl
@[simp] theorem State.modMemport_ready (s : State) (m : Nat) (f : MemPort → MemPort) : (s.modMemport m f).ready = s.ready := rfl
@[simp] theorem State.modMemport_flash (s : State) (m : Nat) (f : MemPort → MemPort) : (s.modMemport m f).flash = s.flash := rfl
@[simp] theorem State.modMemport_link (s : State) (m : Nat) (f : MemPort → MemPort) : (s.modMemport m f).link = s.link := rfl
@[simp] theorem State.modMemport_evr (s : State) (m : Nat) (f : MemPort → MemPort) : (s.modMemport m f).evr = s.evr := rfl
@[simp] theorem State.modMemport_tlr (s : State) (m : Nat) (f : MemPort → MemPort) : (s.modMemport m f).tlr = s.tlr := rfl
@[simp] theorem State.modMemport_bb (s : State) (m : Nat) (f : MemPort → MemPort) : (s.modMemport m f).bb = s.bb := rfl
@[simp] theorem State.modMemport_mbx (s : State) (m : Nat) (f : MemPort → MemPort) : (s.modMemport m f).mbx = s.mbx := rfl
@[simp] theorem State.modMemport_doorOrder (s : State) (m : Nat) (f : MemPort → MemPort) : (s.modMemport m f).doorOrder = s.doorOrder := rfl
@[simp] theorem State.modMemport_stages (s : State) (m : Nat) (f : MemPort → MemPort) : (s.modMemport m f).stages = s.stages := rfl
@[simp] theorem State.modMemport_windows (s : State) (m : Nat) (f : MemPort → MemPort) : (s.modMemport m f).windows = s.windows := rfl
@[simp] theorem State.modMemport_tiles (s : State) (m : Nat) (f : MemPort → MemPort) : (s.modMemport m f).tiles = s.tiles := rfl
@[simp] theorem State.modMemport_clusters (s : State) (m : Nat) (f : MemPort → MemPort) : (s.modMemport m f).clusters = s.clusters := rfl
@[simp] theorem State.modMemport_parts (s : State) (m : Nat) (f : MemPort → MemPort) : (s.modMemport m f).parts = s.parts := rfl
@[simp] theorem State.modMemport_streams (s : State) (m : Nat) (f : MemPort → MemPort) : (s.modMemport m f).streams = s.streams := rfl
@[simp] theorem State.modMemport_pages (s : State) (m : Nat) (f : MemPort → MemPort) : (s.modMemport m f).pages = s.pages := rfl
@[simp] theorem State.modMemport_hbm (s : State) (m : Nat) (f : MemPort → MemPort) : (s.modMemport m f).hbm = s.hbm := rfl
@[simp] theorem State.modMemport_cxl (s : State) (m : Nat) (f : MemPort → MemPort) : (s.modMemport m f).cxl = s.cxl := rfl
@[simp] theorem State.modMemport_uio (s : State) (m : Nat) (f : MemPort → MemPort) : (s.modMemport m f).uio = s.uio := rfl
@[simp] theorem State.modMemport_unitAcc (s : State) (m : Nat) (f : MemPort → MemPort) : (s.modMemport m f).unitAcc = s.unitAcc := rfl
@[simp] theorem State.modMemport_unitSeq (s : State) (m : Nat) (f : MemPort → MemPort) : (s.modMemport m f).unitSeq = s.unitSeq := rfl
@[simp] theorem State.modMemport_svc (s : State) (m : Nat) (f : MemPort → MemPort) : (s.modMemport m f).svc = s.svc := rfl
@[simp] theorem State.modMemport_svcTurn (s : State) (m : Nat) (f : MemPort → MemPort) : (s.modMemport m f).svcTurn = s.svcTurn := rfl
@[simp] theorem State.modMemport_routers (s : State) (m : Nat) (f : MemPort → MemPort) : (s.modMemport m f).routers = s.routers := rfl
@[simp] theorem State.modMemport_arrived (s : State) (m : Nat) (f : MemPort → MemPort) : (s.modMemport m f).arrived = s.arrived := rfl
@[simp] theorem State.modMemport_edge (s : State) (m : Nat) (f : MemPort → MemPort) : (s.modMemport m f).edge = s.edge := rfl
@[simp] theorem State.modMemport_disabled (s : State) (m : Nat) (f : MemPort → MemPort) : (s.modMemport m f).disabled = s.disabled := rfl
@[simp] theorem State.modMemport_withdrawn (s : State) (m : Nat) (f : MemPort → MemPort) : (s.modMemport m f).withdrawn = s.withdrawn := rfl
@[simp] theorem State.modMemport_baseFaults (s : State) (m : Nat) (f : MemPort → MemPort) : (s.modMemport m f).baseFaults = s.baseFaults := rfl
@[simp] theorem State.modMemport_retired (s : State) (m : Nat) (f : MemPort → MemPort) : (s.modMemport m f).retired = s.retired := rfl
@[simp] theorem State.modMemport_hports (s : State) (m : Nat) (f : MemPort → MemPort) : (s.modMemport m f).hports = s.hports := rfl
@[simp] theorem State.modMemport_job (s : State) (m : Nat) (f : MemPort → MemPort) : (s.modMemport m f).job = s.job := rfl
@[simp] theorem State.modMemport_power (s : State) (m : Nat) (f : MemPort → MemPort) : (s.modMemport m f).power = s.power := rfl
@[simp] theorem State.modMemport_telemetryUs (s : State) (m : Nat) (f : MemPort → MemPort) : (s.modMemport m f).telemetryUs = s.telemetryUs := rfl
@[simp] theorem State.modMemport_telemetryKinds (s : State) (m : Nat) (f : MemPort → MemPort) : (s.modMemport m f).telemetryKinds = s.telemetryKinds := rfl
@[simp] theorem State.modMemport_pins (s : State) (m : Nat) (f : MemPort → MemPort) : (s.modMemport m f).pins = s.pins := rfl
@[simp] theorem State.modMemport_observed (s : State) (m : Nat) (f : MemPort → MemPort) : (s.modMemport m f).observed = s.observed := rfl
@[simp] theorem State.modMemport_dbg (s : State) (m : Nat) (f : MemPort → MemPort) : (s.modMemport m f).dbg = s.dbg := rfl
@[simp] theorem State.modMemport_cv0 (s : State) (m : Nat) (f : MemPort → MemPort) : (s.modMemport m f).cv0 = s.cv0 := rfl
@[simp] theorem State.modMemport_cv1 (s : State) (m : Nat) (f : MemPort → MemPort) : (s.modMemport m f).cv1 = s.cv1 := rfl
@[simp] theorem State.modMemport_resets (s : State) (m : Nat) (f : MemPort → MemPort) : (s.modMemport m f).resets = s.resets := rfl
@[simp] theorem State.modMemport_preparing (s : State) (m : Nat) (f : MemPort → MemPort) : (s.modMemport m f).preparing = s.preparing := rfl
@[simp] theorem State.modMemport_removeReady (s : State) (m : Nat) (f : MemPort → MemPort) : (s.modMemport m f).removeReady = s.removeReady := rfl
@[simp] theorem State.modMemport_parkedCount (s : State) (m : Nat) (f : MemPort → MemPort) : (s.modMemport m f).parkedCount = s.parkedCount := rfl
@[simp] theorem State.modMemport_doorbellsIgnored (s : State) (m : Nat) (f : MemPort → MemPort) : (s.modMemport m f).doorbellsIgnored = s.doorbellsIgnored := rfl
@[simp] theorem State.modMemport_spdm (s : State) (m : Nat) (f : MemPort → MemPort) : (s.modMemport m f).spdm = s.spdm := rfl
@[simp] theorem State.modMemport_doe (s : State) (m : Nat) (f : MemPort → MemPort) : (s.modMemport m f).doe = s.doe := rfl
@[simp] theorem State.modMemport_i3c (s : State) (m : Nat) (f : MemPort → MemPort) : (s.modMemport m f).i3c = s.i3c := rfl
@[simp] theorem State.modMemport_meshTraffic (s : State) (m : Nat) (f : MemPort → MemPort) : (s.modMemport m f).meshTraffic = s.meshTraffic := rfl
@[simp] theorem State.modMemport_tile (s : State) (m : Nat) (f : MemPort → MemPort) (j : TileId) : (s.modMemport m f).tile j = s.tile j := rfl
@[simp] theorem State.modMemport_cluster (s : State) (m : Nat) (f : MemPort → MemPort) (j : Nat) : (s.modMemport m f).cluster j = s.cluster j := rfl
@[simp] theorem State.modMemport_part (s : State) (m : Nat) (f : MemPort → MemPort) (j : Nat) : (s.modMemport m f).part j = s.part j := rfl
@[simp] theorem State.modMemport_stream (s : State) (m : Nat) (f : MemPort → MemPort) (j : Nat) : (s.modMemport m f).stream j = s.stream j := rfl
@[simp] theorem State.modMemport_page (s : State) (m : Nat) (f : MemPort → MemPort) (j : Nat) : (s.modMemport m f).page j = s.page j := rfl
@[simp] theorem State.modMemport_router (s : State) (m : Nat) (f : MemPort → MemPort) (j : Nat) : (s.modMemport m f).router j = s.router j := rfl
@[simp] theorem State.modMemport_hport (s : State) (m : Nat) (f : MemPort → MemPort) (j : Nat) : (s.modMemport m f).hport j = s.hport j := rfl
@[simp] theorem State.modMemport_mb (s : State) (m : Nat) (f : MemPort → MemPort) (j : Nat) : (s.modMemport m f).mb j = s.mb j := rfl

@[simp] theorem State.modRouter_pending (s : State) (k : Nat) (f : Router → Router) : (s.modRouter k f).pending = s.pending := rfl
@[simp] theorem State.modRouter_freeCtr (s : State) (k : Nat) (f : Router → Router) : (s.modRouter k f).freeCtr = s.freeCtr := rfl
@[simp] theorem State.modRouter_time (s : State) (k : Nat) (f : Router → Router) : (s.modRouter k f).time = s.time := rfl
@[simp] theorem State.modRouter_cc (s : State) (k : Nat) (f : Router → Router) : (s.modRouter k f).cc = s.cc := rfl
@[simp] theorem State.modRouter_tsStep (s : State) (k : Nat) (f : Router → Router) : (s.modRouter k f).tsStep = s.tsStep := rfl
@[simp] theorem State.modRouter_timeHi (s : State) (k : Nat) (f : Router → Router) : (s.modRouter k f).timeHi = s.timeHi := rfl
@[simp] theorem State.modRouter_heartbeatReg (s : State) (k : Nat) (f : Router → Router) : (s.modRouter k f).heartbeatReg = s.heartbeatReg := rfl
@[simp] theorem State.modRouter_freqWait (s : State) (k : Nat) (f : Router → Router) : (s.modRouter k f).freqWait = s.freqWait := rfl
@[simp] theorem State.modRouter_fwRestart (s : State) (k : Nat) (f : Router → Router) : (s.modRouter k f).fwRestart = s.fwRestart := rfl
@[simp] theorem State.modRouter_pinClock (s : State) (k : Nat) (f : Router → Router) : (s.modRouter k f).pinClock = s.pinClock := rfl
@[simp] theorem State.modRouter_scan (s : State) (k : Nat) (f : Router → Router) : (s.modRouter k f).scan = s.scan := rfl
@[simp] theorem State.modRouter_trainWait (s : State) (k : Nat) (f : Router → Router) : (s.modRouter k f).trainWait = s.trainWait := rfl
@[simp] theorem State.modRouter_heartbeatS (s : State) (k : Nat) (f : Router → Router) : (s.modRouter k f).heartbeatS = s.heartbeatS := rfl
@[simp] theorem State.modRouter_cmdsDone (s : State) (k : Nat) (f : Router → Router) : (s.modRouter k f).cmdsDone = s.cmdsDone := rfl
@[simp] theorem State.modRouter_posted (s : State) (k : Nat) (f : Router → Router) : (s.modRouter k f).posted = s.posted := rfl
@[simp] theorem State.modRouter_sent (s : State) (k : Nat) (f : Router → Router) : (s.modRouter k f).sent = s.sent := rfl
@[simp] theorem State.modRouter_cxlSince (s : State) (k : Nat) (f : Router → Router) : (s.modRouter k f).cxlSince = s.cxlSince := rfl
@[simp] theorem State.modRouter_cxlTurn (s : State) (k : Nat) (f : Router → Router) : (s.modRouter k f).cxlTurn = s.cxlTurn := rfl
@[simp] theorem State.modRouter_cxlLeft (s : State) (k : Nat) (f : Router → Router) : (s.modRouter k f).cxlLeft = s.cxlLeft := rfl
@[simp] theorem State.modRouter_cxlPart (s : State) (k : Nat) (f : Router → Router) : (s.modRouter k f).cxlPart = s.cxlPart := rfl
@[simp] theorem State.modRouter_lastRead (s : State) (k : Nat) (f : Router → Router) : (s.modRouter k f).lastRead = s.lastRead := rfl
@[simp] theorem State.modRouter_eventCount (s : State) (k : Nat) (f : Router → Router) : (s.modRouter k f).eventCount = s.eventCount := rfl
@[simp] theorem State.modRouter_boot (s : State) (k : Nat) (f : Router → Router) : (s.modRouter k f).boot = s.boot := rfl
@[simp] theorem State.modRouter_fuses (s : State) (k : Nat) (f : Router → Router) : (s.modRouter k f).fuses = s.fuses := rfl
@[simp] theorem State.modRouter_fuseShown (s : State) (k : Nat) (f : Router → Router) : (s.modRouter k f).fuseShown = s.fuseShown := rfl
@[simp] theorem State.modRouter_fwShown (s : State) (k : Nat) (f : Router → Router) : (s.modRouter k f).fwShown = s.fwShown := rfl
@[simp] theorem State.modRouter_i3cUp (s : State) (k : Nat) (f : Router → Router) : (s.modRouter k f).i3cUp = s.i3cUp := rfl
@[simp] theorem State.modRouter_ready (s : State) (k : Nat) (f : Router → Router) : (s.modRouter k f).ready = s.ready := rfl
@[simp] theorem State.modRouter_flash (s : State) (k : Nat) (f : Router → Router) : (s.modRouter k f).flash = s.flash := rfl
@[simp] theorem State.modRouter_link (s : State) (k : Nat) (f : Router → Router) : (s.modRouter k f).link = s.link := rfl
@[simp] theorem State.modRouter_evr (s : State) (k : Nat) (f : Router → Router) : (s.modRouter k f).evr = s.evr := rfl
@[simp] theorem State.modRouter_tlr (s : State) (k : Nat) (f : Router → Router) : (s.modRouter k f).tlr = s.tlr := rfl
@[simp] theorem State.modRouter_bb (s : State) (k : Nat) (f : Router → Router) : (s.modRouter k f).bb = s.bb := rfl
@[simp] theorem State.modRouter_mbx (s : State) (k : Nat) (f : Router → Router) : (s.modRouter k f).mbx = s.mbx := rfl
@[simp] theorem State.modRouter_doorOrder (s : State) (k : Nat) (f : Router → Router) : (s.modRouter k f).doorOrder = s.doorOrder := rfl
@[simp] theorem State.modRouter_stages (s : State) (k : Nat) (f : Router → Router) : (s.modRouter k f).stages = s.stages := rfl
@[simp] theorem State.modRouter_windows (s : State) (k : Nat) (f : Router → Router) : (s.modRouter k f).windows = s.windows := rfl
@[simp] theorem State.modRouter_tiles (s : State) (k : Nat) (f : Router → Router) : (s.modRouter k f).tiles = s.tiles := rfl
@[simp] theorem State.modRouter_clusters (s : State) (k : Nat) (f : Router → Router) : (s.modRouter k f).clusters = s.clusters := rfl
@[simp] theorem State.modRouter_parts (s : State) (k : Nat) (f : Router → Router) : (s.modRouter k f).parts = s.parts := rfl
@[simp] theorem State.modRouter_streams (s : State) (k : Nat) (f : Router → Router) : (s.modRouter k f).streams = s.streams := rfl
@[simp] theorem State.modRouter_pages (s : State) (k : Nat) (f : Router → Router) : (s.modRouter k f).pages = s.pages := rfl
@[simp] theorem State.modRouter_hbm (s : State) (k : Nat) (f : Router → Router) : (s.modRouter k f).hbm = s.hbm := rfl
@[simp] theorem State.modRouter_cxl (s : State) (k : Nat) (f : Router → Router) : (s.modRouter k f).cxl = s.cxl := rfl
@[simp] theorem State.modRouter_memports (s : State) (k : Nat) (f : Router → Router) : (s.modRouter k f).memports = s.memports := rfl
@[simp] theorem State.modRouter_uio (s : State) (k : Nat) (f : Router → Router) : (s.modRouter k f).uio = s.uio := rfl
@[simp] theorem State.modRouter_unitAcc (s : State) (k : Nat) (f : Router → Router) : (s.modRouter k f).unitAcc = s.unitAcc := rfl
@[simp] theorem State.modRouter_unitSeq (s : State) (k : Nat) (f : Router → Router) : (s.modRouter k f).unitSeq = s.unitSeq := rfl
@[simp] theorem State.modRouter_svc (s : State) (k : Nat) (f : Router → Router) : (s.modRouter k f).svc = s.svc := rfl
@[simp] theorem State.modRouter_svcTurn (s : State) (k : Nat) (f : Router → Router) : (s.modRouter k f).svcTurn = s.svcTurn := rfl
@[simp] theorem State.modRouter_arrived (s : State) (k : Nat) (f : Router → Router) : (s.modRouter k f).arrived = s.arrived := rfl
@[simp] theorem State.modRouter_edge (s : State) (k : Nat) (f : Router → Router) : (s.modRouter k f).edge = s.edge := rfl
@[simp] theorem State.modRouter_disabled (s : State) (k : Nat) (f : Router → Router) : (s.modRouter k f).disabled = s.disabled := rfl
@[simp] theorem State.modRouter_withdrawn (s : State) (k : Nat) (f : Router → Router) : (s.modRouter k f).withdrawn = s.withdrawn := rfl
@[simp] theorem State.modRouter_baseFaults (s : State) (k : Nat) (f : Router → Router) : (s.modRouter k f).baseFaults = s.baseFaults := rfl
@[simp] theorem State.modRouter_retired (s : State) (k : Nat) (f : Router → Router) : (s.modRouter k f).retired = s.retired := rfl
@[simp] theorem State.modRouter_hports (s : State) (k : Nat) (f : Router → Router) : (s.modRouter k f).hports = s.hports := rfl
@[simp] theorem State.modRouter_job (s : State) (k : Nat) (f : Router → Router) : (s.modRouter k f).job = s.job := rfl
@[simp] theorem State.modRouter_power (s : State) (k : Nat) (f : Router → Router) : (s.modRouter k f).power = s.power := rfl
@[simp] theorem State.modRouter_telemetryUs (s : State) (k : Nat) (f : Router → Router) : (s.modRouter k f).telemetryUs = s.telemetryUs := rfl
@[simp] theorem State.modRouter_telemetryKinds (s : State) (k : Nat) (f : Router → Router) : (s.modRouter k f).telemetryKinds = s.telemetryKinds := rfl
@[simp] theorem State.modRouter_pins (s : State) (k : Nat) (f : Router → Router) : (s.modRouter k f).pins = s.pins := rfl
@[simp] theorem State.modRouter_observed (s : State) (k : Nat) (f : Router → Router) : (s.modRouter k f).observed = s.observed := rfl
@[simp] theorem State.modRouter_dbg (s : State) (k : Nat) (f : Router → Router) : (s.modRouter k f).dbg = s.dbg := rfl
@[simp] theorem State.modRouter_cv0 (s : State) (k : Nat) (f : Router → Router) : (s.modRouter k f).cv0 = s.cv0 := rfl
@[simp] theorem State.modRouter_cv1 (s : State) (k : Nat) (f : Router → Router) : (s.modRouter k f).cv1 = s.cv1 := rfl
@[simp] theorem State.modRouter_resets (s : State) (k : Nat) (f : Router → Router) : (s.modRouter k f).resets = s.resets := rfl
@[simp] theorem State.modRouter_preparing (s : State) (k : Nat) (f : Router → Router) : (s.modRouter k f).preparing = s.preparing := rfl
@[simp] theorem State.modRouter_removeReady (s : State) (k : Nat) (f : Router → Router) : (s.modRouter k f).removeReady = s.removeReady := rfl
@[simp] theorem State.modRouter_parkedCount (s : State) (k : Nat) (f : Router → Router) : (s.modRouter k f).parkedCount = s.parkedCount := rfl
@[simp] theorem State.modRouter_doorbellsIgnored (s : State) (k : Nat) (f : Router → Router) : (s.modRouter k f).doorbellsIgnored = s.doorbellsIgnored := rfl
@[simp] theorem State.modRouter_spdm (s : State) (k : Nat) (f : Router → Router) : (s.modRouter k f).spdm = s.spdm := rfl
@[simp] theorem State.modRouter_doe (s : State) (k : Nat) (f : Router → Router) : (s.modRouter k f).doe = s.doe := rfl
@[simp] theorem State.modRouter_i3c (s : State) (k : Nat) (f : Router → Router) : (s.modRouter k f).i3c = s.i3c := rfl
@[simp] theorem State.modRouter_meshTraffic (s : State) (k : Nat) (f : Router → Router) : (s.modRouter k f).meshTraffic = s.meshTraffic := rfl
@[simp] theorem State.modRouter_tile (s : State) (k : Nat) (f : Router → Router) (j : TileId) : (s.modRouter k f).tile j = s.tile j := rfl
@[simp] theorem State.modRouter_cluster (s : State) (k : Nat) (f : Router → Router) (j : Nat) : (s.modRouter k f).cluster j = s.cluster j := rfl
@[simp] theorem State.modRouter_part (s : State) (k : Nat) (f : Router → Router) (j : Nat) : (s.modRouter k f).part j = s.part j := rfl
@[simp] theorem State.modRouter_stream (s : State) (k : Nat) (f : Router → Router) (j : Nat) : (s.modRouter k f).stream j = s.stream j := rfl
@[simp] theorem State.modRouter_page (s : State) (k : Nat) (f : Router → Router) (j : Nat) : (s.modRouter k f).page j = s.page j := rfl
@[simp] theorem State.modRouter_memport (s : State) (k : Nat) (f : Router → Router) (j : Nat) : (s.modRouter k f).memport j = s.memport j := rfl
@[simp] theorem State.modRouter_hport (s : State) (k : Nat) (f : Router → Router) (j : Nat) : (s.modRouter k f).hport j = s.hport j := rfl
@[simp] theorem State.modRouter_mb (s : State) (k : Nat) (f : Router → Router) (j : Nat) : (s.modRouter k f).mb j = s.mb j := rfl

@[simp] theorem State.modHport_pending (s : State) (q : Nat) (f : HPort → HPort) : (s.modHport q f).pending = s.pending := rfl
@[simp] theorem State.modHport_freeCtr (s : State) (q : Nat) (f : HPort → HPort) : (s.modHport q f).freeCtr = s.freeCtr := rfl
@[simp] theorem State.modHport_time (s : State) (q : Nat) (f : HPort → HPort) : (s.modHport q f).time = s.time := rfl
@[simp] theorem State.modHport_cc (s : State) (q : Nat) (f : HPort → HPort) : (s.modHport q f).cc = s.cc := rfl
@[simp] theorem State.modHport_tsStep (s : State) (q : Nat) (f : HPort → HPort) : (s.modHport q f).tsStep = s.tsStep := rfl
@[simp] theorem State.modHport_timeHi (s : State) (q : Nat) (f : HPort → HPort) : (s.modHport q f).timeHi = s.timeHi := rfl
@[simp] theorem State.modHport_heartbeatReg (s : State) (q : Nat) (f : HPort → HPort) : (s.modHport q f).heartbeatReg = s.heartbeatReg := rfl
@[simp] theorem State.modHport_freqWait (s : State) (q : Nat) (f : HPort → HPort) : (s.modHport q f).freqWait = s.freqWait := rfl
@[simp] theorem State.modHport_fwRestart (s : State) (q : Nat) (f : HPort → HPort) : (s.modHport q f).fwRestart = s.fwRestart := rfl
@[simp] theorem State.modHport_pinClock (s : State) (q : Nat) (f : HPort → HPort) : (s.modHport q f).pinClock = s.pinClock := rfl
@[simp] theorem State.modHport_scan (s : State) (q : Nat) (f : HPort → HPort) : (s.modHport q f).scan = s.scan := rfl
@[simp] theorem State.modHport_trainWait (s : State) (q : Nat) (f : HPort → HPort) : (s.modHport q f).trainWait = s.trainWait := rfl
@[simp] theorem State.modHport_heartbeatS (s : State) (q : Nat) (f : HPort → HPort) : (s.modHport q f).heartbeatS = s.heartbeatS := rfl
@[simp] theorem State.modHport_cmdsDone (s : State) (q : Nat) (f : HPort → HPort) : (s.modHport q f).cmdsDone = s.cmdsDone := rfl
@[simp] theorem State.modHport_posted (s : State) (q : Nat) (f : HPort → HPort) : (s.modHport q f).posted = s.posted := rfl
@[simp] theorem State.modHport_sent (s : State) (q : Nat) (f : HPort → HPort) : (s.modHport q f).sent = s.sent := rfl
@[simp] theorem State.modHport_cxlSince (s : State) (q : Nat) (f : HPort → HPort) : (s.modHport q f).cxlSince = s.cxlSince := rfl
@[simp] theorem State.modHport_cxlTurn (s : State) (q : Nat) (f : HPort → HPort) : (s.modHport q f).cxlTurn = s.cxlTurn := rfl
@[simp] theorem State.modHport_cxlLeft (s : State) (q : Nat) (f : HPort → HPort) : (s.modHport q f).cxlLeft = s.cxlLeft := rfl
@[simp] theorem State.modHport_cxlPart (s : State) (q : Nat) (f : HPort → HPort) : (s.modHport q f).cxlPart = s.cxlPart := rfl
@[simp] theorem State.modHport_lastRead (s : State) (q : Nat) (f : HPort → HPort) : (s.modHport q f).lastRead = s.lastRead := rfl
@[simp] theorem State.modHport_eventCount (s : State) (q : Nat) (f : HPort → HPort) : (s.modHport q f).eventCount = s.eventCount := rfl
@[simp] theorem State.modHport_boot (s : State) (q : Nat) (f : HPort → HPort) : (s.modHport q f).boot = s.boot := rfl
@[simp] theorem State.modHport_fuses (s : State) (q : Nat) (f : HPort → HPort) : (s.modHport q f).fuses = s.fuses := rfl
@[simp] theorem State.modHport_fuseShown (s : State) (q : Nat) (f : HPort → HPort) : (s.modHport q f).fuseShown = s.fuseShown := rfl
@[simp] theorem State.modHport_fwShown (s : State) (q : Nat) (f : HPort → HPort) : (s.modHport q f).fwShown = s.fwShown := rfl
@[simp] theorem State.modHport_i3cUp (s : State) (q : Nat) (f : HPort → HPort) : (s.modHport q f).i3cUp = s.i3cUp := rfl
@[simp] theorem State.modHport_ready (s : State) (q : Nat) (f : HPort → HPort) : (s.modHport q f).ready = s.ready := rfl
@[simp] theorem State.modHport_flash (s : State) (q : Nat) (f : HPort → HPort) : (s.modHport q f).flash = s.flash := rfl
@[simp] theorem State.modHport_link (s : State) (q : Nat) (f : HPort → HPort) : (s.modHport q f).link = s.link := rfl
@[simp] theorem State.modHport_evr (s : State) (q : Nat) (f : HPort → HPort) : (s.modHport q f).evr = s.evr := rfl
@[simp] theorem State.modHport_tlr (s : State) (q : Nat) (f : HPort → HPort) : (s.modHport q f).tlr = s.tlr := rfl
@[simp] theorem State.modHport_bb (s : State) (q : Nat) (f : HPort → HPort) : (s.modHport q f).bb = s.bb := rfl
@[simp] theorem State.modHport_mbx (s : State) (q : Nat) (f : HPort → HPort) : (s.modHport q f).mbx = s.mbx := rfl
@[simp] theorem State.modHport_doorOrder (s : State) (q : Nat) (f : HPort → HPort) : (s.modHport q f).doorOrder = s.doorOrder := rfl
@[simp] theorem State.modHport_stages (s : State) (q : Nat) (f : HPort → HPort) : (s.modHport q f).stages = s.stages := rfl
@[simp] theorem State.modHport_windows (s : State) (q : Nat) (f : HPort → HPort) : (s.modHport q f).windows = s.windows := rfl
@[simp] theorem State.modHport_tiles (s : State) (q : Nat) (f : HPort → HPort) : (s.modHport q f).tiles = s.tiles := rfl
@[simp] theorem State.modHport_clusters (s : State) (q : Nat) (f : HPort → HPort) : (s.modHport q f).clusters = s.clusters := rfl
@[simp] theorem State.modHport_parts (s : State) (q : Nat) (f : HPort → HPort) : (s.modHport q f).parts = s.parts := rfl
@[simp] theorem State.modHport_streams (s : State) (q : Nat) (f : HPort → HPort) : (s.modHport q f).streams = s.streams := rfl
@[simp] theorem State.modHport_pages (s : State) (q : Nat) (f : HPort → HPort) : (s.modHport q f).pages = s.pages := rfl
@[simp] theorem State.modHport_hbm (s : State) (q : Nat) (f : HPort → HPort) : (s.modHport q f).hbm = s.hbm := rfl
@[simp] theorem State.modHport_cxl (s : State) (q : Nat) (f : HPort → HPort) : (s.modHport q f).cxl = s.cxl := rfl
@[simp] theorem State.modHport_memports (s : State) (q : Nat) (f : HPort → HPort) : (s.modHport q f).memports = s.memports := rfl
@[simp] theorem State.modHport_uio (s : State) (q : Nat) (f : HPort → HPort) : (s.modHport q f).uio = s.uio := rfl
@[simp] theorem State.modHport_unitAcc (s : State) (q : Nat) (f : HPort → HPort) : (s.modHport q f).unitAcc = s.unitAcc := rfl
@[simp] theorem State.modHport_unitSeq (s : State) (q : Nat) (f : HPort → HPort) : (s.modHport q f).unitSeq = s.unitSeq := rfl
@[simp] theorem State.modHport_svc (s : State) (q : Nat) (f : HPort → HPort) : (s.modHport q f).svc = s.svc := rfl
@[simp] theorem State.modHport_svcTurn (s : State) (q : Nat) (f : HPort → HPort) : (s.modHport q f).svcTurn = s.svcTurn := rfl
@[simp] theorem State.modHport_routers (s : State) (q : Nat) (f : HPort → HPort) : (s.modHport q f).routers = s.routers := rfl
@[simp] theorem State.modHport_arrived (s : State) (q : Nat) (f : HPort → HPort) : (s.modHport q f).arrived = s.arrived := rfl
@[simp] theorem State.modHport_edge (s : State) (q : Nat) (f : HPort → HPort) : (s.modHport q f).edge = s.edge := rfl
@[simp] theorem State.modHport_disabled (s : State) (q : Nat) (f : HPort → HPort) : (s.modHport q f).disabled = s.disabled := rfl
@[simp] theorem State.modHport_withdrawn (s : State) (q : Nat) (f : HPort → HPort) : (s.modHport q f).withdrawn = s.withdrawn := rfl
@[simp] theorem State.modHport_baseFaults (s : State) (q : Nat) (f : HPort → HPort) : (s.modHport q f).baseFaults = s.baseFaults := rfl
@[simp] theorem State.modHport_retired (s : State) (q : Nat) (f : HPort → HPort) : (s.modHport q f).retired = s.retired := rfl
@[simp] theorem State.modHport_job (s : State) (q : Nat) (f : HPort → HPort) : (s.modHport q f).job = s.job := rfl
@[simp] theorem State.modHport_power (s : State) (q : Nat) (f : HPort → HPort) : (s.modHport q f).power = s.power := rfl
@[simp] theorem State.modHport_telemetryUs (s : State) (q : Nat) (f : HPort → HPort) : (s.modHport q f).telemetryUs = s.telemetryUs := rfl
@[simp] theorem State.modHport_telemetryKinds (s : State) (q : Nat) (f : HPort → HPort) : (s.modHport q f).telemetryKinds = s.telemetryKinds := rfl
@[simp] theorem State.modHport_pins (s : State) (q : Nat) (f : HPort → HPort) : (s.modHport q f).pins = s.pins := rfl
@[simp] theorem State.modHport_observed (s : State) (q : Nat) (f : HPort → HPort) : (s.modHport q f).observed = s.observed := rfl
@[simp] theorem State.modHport_dbg (s : State) (q : Nat) (f : HPort → HPort) : (s.modHport q f).dbg = s.dbg := rfl
@[simp] theorem State.modHport_cv0 (s : State) (q : Nat) (f : HPort → HPort) : (s.modHport q f).cv0 = s.cv0 := rfl
@[simp] theorem State.modHport_cv1 (s : State) (q : Nat) (f : HPort → HPort) : (s.modHport q f).cv1 = s.cv1 := rfl
@[simp] theorem State.modHport_resets (s : State) (q : Nat) (f : HPort → HPort) : (s.modHport q f).resets = s.resets := rfl
@[simp] theorem State.modHport_preparing (s : State) (q : Nat) (f : HPort → HPort) : (s.modHport q f).preparing = s.preparing := rfl
@[simp] theorem State.modHport_removeReady (s : State) (q : Nat) (f : HPort → HPort) : (s.modHport q f).removeReady = s.removeReady := rfl
@[simp] theorem State.modHport_parkedCount (s : State) (q : Nat) (f : HPort → HPort) : (s.modHport q f).parkedCount = s.parkedCount := rfl
@[simp] theorem State.modHport_doorbellsIgnored (s : State) (q : Nat) (f : HPort → HPort) : (s.modHport q f).doorbellsIgnored = s.doorbellsIgnored := rfl
@[simp] theorem State.modHport_spdm (s : State) (q : Nat) (f : HPort → HPort) : (s.modHport q f).spdm = s.spdm := rfl
@[simp] theorem State.modHport_doe (s : State) (q : Nat) (f : HPort → HPort) : (s.modHport q f).doe = s.doe := rfl
@[simp] theorem State.modHport_i3c (s : State) (q : Nat) (f : HPort → HPort) : (s.modHport q f).i3c = s.i3c := rfl
@[simp] theorem State.modHport_meshTraffic (s : State) (q : Nat) (f : HPort → HPort) : (s.modHport q f).meshTraffic = s.meshTraffic := rfl
@[simp] theorem State.modHport_tile (s : State) (q : Nat) (f : HPort → HPort) (j : TileId) : (s.modHport q f).tile j = s.tile j := rfl
@[simp] theorem State.modHport_cluster (s : State) (q : Nat) (f : HPort → HPort) (j : Nat) : (s.modHport q f).cluster j = s.cluster j := rfl
@[simp] theorem State.modHport_part (s : State) (q : Nat) (f : HPort → HPort) (j : Nat) : (s.modHport q f).part j = s.part j := rfl
@[simp] theorem State.modHport_stream (s : State) (q : Nat) (f : HPort → HPort) (j : Nat) : (s.modHport q f).stream j = s.stream j := rfl
@[simp] theorem State.modHport_page (s : State) (q : Nat) (f : HPort → HPort) (j : Nat) : (s.modHport q f).page j = s.page j := rfl
@[simp] theorem State.modHport_memport (s : State) (q : Nat) (f : HPort → HPort) (j : Nat) : (s.modHport q f).memport j = s.memport j := rfl
@[simp] theorem State.modHport_router (s : State) (q : Nat) (f : HPort → HPort) (j : Nat) : (s.modHport q f).router j = s.router j := rfl
@[simp] theorem State.modHport_mb (s : State) (q : Nat) (f : HPort → HPort) (j : Nat) : (s.modHport q f).mb j = s.mb j := rfl

@[simp] theorem State.modMb_pending (s : State) (n : Nat) (f : Mbx → Mbx) : (s.modMb n f).pending = s.pending := rfl
@[simp] theorem State.modMb_freeCtr (s : State) (n : Nat) (f : Mbx → Mbx) : (s.modMb n f).freeCtr = s.freeCtr := rfl
@[simp] theorem State.modMb_time (s : State) (n : Nat) (f : Mbx → Mbx) : (s.modMb n f).time = s.time := rfl
@[simp] theorem State.modMb_cc (s : State) (n : Nat) (f : Mbx → Mbx) : (s.modMb n f).cc = s.cc := rfl
@[simp] theorem State.modMb_tsStep (s : State) (n : Nat) (f : Mbx → Mbx) : (s.modMb n f).tsStep = s.tsStep := rfl
@[simp] theorem State.modMb_timeHi (s : State) (n : Nat) (f : Mbx → Mbx) : (s.modMb n f).timeHi = s.timeHi := rfl
@[simp] theorem State.modMb_heartbeatReg (s : State) (n : Nat) (f : Mbx → Mbx) : (s.modMb n f).heartbeatReg = s.heartbeatReg := rfl
@[simp] theorem State.modMb_freqWait (s : State) (n : Nat) (f : Mbx → Mbx) : (s.modMb n f).freqWait = s.freqWait := rfl
@[simp] theorem State.modMb_fwRestart (s : State) (n : Nat) (f : Mbx → Mbx) : (s.modMb n f).fwRestart = s.fwRestart := rfl
@[simp] theorem State.modMb_pinClock (s : State) (n : Nat) (f : Mbx → Mbx) : (s.modMb n f).pinClock = s.pinClock := rfl
@[simp] theorem State.modMb_scan (s : State) (n : Nat) (f : Mbx → Mbx) : (s.modMb n f).scan = s.scan := rfl
@[simp] theorem State.modMb_trainWait (s : State) (n : Nat) (f : Mbx → Mbx) : (s.modMb n f).trainWait = s.trainWait := rfl
@[simp] theorem State.modMb_heartbeatS (s : State) (n : Nat) (f : Mbx → Mbx) : (s.modMb n f).heartbeatS = s.heartbeatS := rfl
@[simp] theorem State.modMb_cmdsDone (s : State) (n : Nat) (f : Mbx → Mbx) : (s.modMb n f).cmdsDone = s.cmdsDone := rfl
@[simp] theorem State.modMb_posted (s : State) (n : Nat) (f : Mbx → Mbx) : (s.modMb n f).posted = s.posted := rfl
@[simp] theorem State.modMb_sent (s : State) (n : Nat) (f : Mbx → Mbx) : (s.modMb n f).sent = s.sent := rfl
@[simp] theorem State.modMb_cxlSince (s : State) (n : Nat) (f : Mbx → Mbx) : (s.modMb n f).cxlSince = s.cxlSince := rfl
@[simp] theorem State.modMb_cxlTurn (s : State) (n : Nat) (f : Mbx → Mbx) : (s.modMb n f).cxlTurn = s.cxlTurn := rfl
@[simp] theorem State.modMb_cxlLeft (s : State) (n : Nat) (f : Mbx → Mbx) : (s.modMb n f).cxlLeft = s.cxlLeft := rfl
@[simp] theorem State.modMb_cxlPart (s : State) (n : Nat) (f : Mbx → Mbx) : (s.modMb n f).cxlPart = s.cxlPart := rfl
@[simp] theorem State.modMb_lastRead (s : State) (n : Nat) (f : Mbx → Mbx) : (s.modMb n f).lastRead = s.lastRead := rfl
@[simp] theorem State.modMb_eventCount (s : State) (n : Nat) (f : Mbx → Mbx) : (s.modMb n f).eventCount = s.eventCount := rfl
@[simp] theorem State.modMb_boot (s : State) (n : Nat) (f : Mbx → Mbx) : (s.modMb n f).boot = s.boot := rfl
@[simp] theorem State.modMb_fuses (s : State) (n : Nat) (f : Mbx → Mbx) : (s.modMb n f).fuses = s.fuses := rfl
@[simp] theorem State.modMb_fuseShown (s : State) (n : Nat) (f : Mbx → Mbx) : (s.modMb n f).fuseShown = s.fuseShown := rfl
@[simp] theorem State.modMb_fwShown (s : State) (n : Nat) (f : Mbx → Mbx) : (s.modMb n f).fwShown = s.fwShown := rfl
@[simp] theorem State.modMb_i3cUp (s : State) (n : Nat) (f : Mbx → Mbx) : (s.modMb n f).i3cUp = s.i3cUp := rfl
@[simp] theorem State.modMb_ready (s : State) (n : Nat) (f : Mbx → Mbx) : (s.modMb n f).ready = s.ready := rfl
@[simp] theorem State.modMb_flash (s : State) (n : Nat) (f : Mbx → Mbx) : (s.modMb n f).flash = s.flash := rfl
@[simp] theorem State.modMb_link (s : State) (n : Nat) (f : Mbx → Mbx) : (s.modMb n f).link = s.link := rfl
@[simp] theorem State.modMb_evr (s : State) (n : Nat) (f : Mbx → Mbx) : (s.modMb n f).evr = s.evr := rfl
@[simp] theorem State.modMb_tlr (s : State) (n : Nat) (f : Mbx → Mbx) : (s.modMb n f).tlr = s.tlr := rfl
@[simp] theorem State.modMb_bb (s : State) (n : Nat) (f : Mbx → Mbx) : (s.modMb n f).bb = s.bb := rfl
@[simp] theorem State.modMb_doorOrder (s : State) (n : Nat) (f : Mbx → Mbx) : (s.modMb n f).doorOrder = s.doorOrder := rfl
@[simp] theorem State.modMb_stages (s : State) (n : Nat) (f : Mbx → Mbx) : (s.modMb n f).stages = s.stages := rfl
@[simp] theorem State.modMb_windows (s : State) (n : Nat) (f : Mbx → Mbx) : (s.modMb n f).windows = s.windows := rfl
@[simp] theorem State.modMb_tiles (s : State) (n : Nat) (f : Mbx → Mbx) : (s.modMb n f).tiles = s.tiles := rfl
@[simp] theorem State.modMb_clusters (s : State) (n : Nat) (f : Mbx → Mbx) : (s.modMb n f).clusters = s.clusters := rfl
@[simp] theorem State.modMb_parts (s : State) (n : Nat) (f : Mbx → Mbx) : (s.modMb n f).parts = s.parts := rfl
@[simp] theorem State.modMb_streams (s : State) (n : Nat) (f : Mbx → Mbx) : (s.modMb n f).streams = s.streams := rfl
@[simp] theorem State.modMb_pages (s : State) (n : Nat) (f : Mbx → Mbx) : (s.modMb n f).pages = s.pages := rfl
@[simp] theorem State.modMb_hbm (s : State) (n : Nat) (f : Mbx → Mbx) : (s.modMb n f).hbm = s.hbm := rfl
@[simp] theorem State.modMb_cxl (s : State) (n : Nat) (f : Mbx → Mbx) : (s.modMb n f).cxl = s.cxl := rfl
@[simp] theorem State.modMb_memports (s : State) (n : Nat) (f : Mbx → Mbx) : (s.modMb n f).memports = s.memports := rfl
@[simp] theorem State.modMb_uio (s : State) (n : Nat) (f : Mbx → Mbx) : (s.modMb n f).uio = s.uio := rfl
@[simp] theorem State.modMb_unitAcc (s : State) (n : Nat) (f : Mbx → Mbx) : (s.modMb n f).unitAcc = s.unitAcc := rfl
@[simp] theorem State.modMb_unitSeq (s : State) (n : Nat) (f : Mbx → Mbx) : (s.modMb n f).unitSeq = s.unitSeq := rfl
@[simp] theorem State.modMb_svc (s : State) (n : Nat) (f : Mbx → Mbx) : (s.modMb n f).svc = s.svc := rfl
@[simp] theorem State.modMb_svcTurn (s : State) (n : Nat) (f : Mbx → Mbx) : (s.modMb n f).svcTurn = s.svcTurn := rfl
@[simp] theorem State.modMb_routers (s : State) (n : Nat) (f : Mbx → Mbx) : (s.modMb n f).routers = s.routers := rfl
@[simp] theorem State.modMb_arrived (s : State) (n : Nat) (f : Mbx → Mbx) : (s.modMb n f).arrived = s.arrived := rfl
@[simp] theorem State.modMb_edge (s : State) (n : Nat) (f : Mbx → Mbx) : (s.modMb n f).edge = s.edge := rfl
@[simp] theorem State.modMb_disabled (s : State) (n : Nat) (f : Mbx → Mbx) : (s.modMb n f).disabled = s.disabled := rfl
@[simp] theorem State.modMb_withdrawn (s : State) (n : Nat) (f : Mbx → Mbx) : (s.modMb n f).withdrawn = s.withdrawn := rfl
@[simp] theorem State.modMb_baseFaults (s : State) (n : Nat) (f : Mbx → Mbx) : (s.modMb n f).baseFaults = s.baseFaults := rfl
@[simp] theorem State.modMb_retired (s : State) (n : Nat) (f : Mbx → Mbx) : (s.modMb n f).retired = s.retired := rfl
@[simp] theorem State.modMb_hports (s : State) (n : Nat) (f : Mbx → Mbx) : (s.modMb n f).hports = s.hports := rfl
@[simp] theorem State.modMb_job (s : State) (n : Nat) (f : Mbx → Mbx) : (s.modMb n f).job = s.job := rfl
@[simp] theorem State.modMb_power (s : State) (n : Nat) (f : Mbx → Mbx) : (s.modMb n f).power = s.power := rfl
@[simp] theorem State.modMb_telemetryUs (s : State) (n : Nat) (f : Mbx → Mbx) : (s.modMb n f).telemetryUs = s.telemetryUs := rfl
@[simp] theorem State.modMb_telemetryKinds (s : State) (n : Nat) (f : Mbx → Mbx) : (s.modMb n f).telemetryKinds = s.telemetryKinds := rfl
@[simp] theorem State.modMb_pins (s : State) (n : Nat) (f : Mbx → Mbx) : (s.modMb n f).pins = s.pins := rfl
@[simp] theorem State.modMb_observed (s : State) (n : Nat) (f : Mbx → Mbx) : (s.modMb n f).observed = s.observed := rfl
@[simp] theorem State.modMb_dbg (s : State) (n : Nat) (f : Mbx → Mbx) : (s.modMb n f).dbg = s.dbg := rfl
@[simp] theorem State.modMb_cv0 (s : State) (n : Nat) (f : Mbx → Mbx) : (s.modMb n f).cv0 = s.cv0 := rfl
@[simp] theorem State.modMb_cv1 (s : State) (n : Nat) (f : Mbx → Mbx) : (s.modMb n f).cv1 = s.cv1 := rfl
@[simp] theorem State.modMb_resets (s : State) (n : Nat) (f : Mbx → Mbx) : (s.modMb n f).resets = s.resets := rfl
@[simp] theorem State.modMb_preparing (s : State) (n : Nat) (f : Mbx → Mbx) : (s.modMb n f).preparing = s.preparing := rfl
@[simp] theorem State.modMb_removeReady (s : State) (n : Nat) (f : Mbx → Mbx) : (s.modMb n f).removeReady = s.removeReady := rfl
@[simp] theorem State.modMb_parkedCount (s : State) (n : Nat) (f : Mbx → Mbx) : (s.modMb n f).parkedCount = s.parkedCount := rfl
@[simp] theorem State.modMb_doorbellsIgnored (s : State) (n : Nat) (f : Mbx → Mbx) : (s.modMb n f).doorbellsIgnored = s.doorbellsIgnored := rfl
@[simp] theorem State.modMb_spdm (s : State) (n : Nat) (f : Mbx → Mbx) : (s.modMb n f).spdm = s.spdm := rfl
@[simp] theorem State.modMb_doe (s : State) (n : Nat) (f : Mbx → Mbx) : (s.modMb n f).doe = s.doe := rfl
@[simp] theorem State.modMb_i3c (s : State) (n : Nat) (f : Mbx → Mbx) : (s.modMb n f).i3c = s.i3c := rfl
@[simp] theorem State.modMb_meshTraffic (s : State) (n : Nat) (f : Mbx → Mbx) : (s.modMb n f).meshTraffic = s.meshTraffic := rfl
@[simp] theorem State.modMb_tile (s : State) (n : Nat) (f : Mbx → Mbx) (j : TileId) : (s.modMb n f).tile j = s.tile j := rfl
@[simp] theorem State.modMb_cluster (s : State) (n : Nat) (f : Mbx → Mbx) (j : Nat) : (s.modMb n f).cluster j = s.cluster j := rfl
@[simp] theorem State.modMb_part (s : State) (n : Nat) (f : Mbx → Mbx) (j : Nat) : (s.modMb n f).part j = s.part j := rfl
@[simp] theorem State.modMb_stream (s : State) (n : Nat) (f : Mbx → Mbx) (j : Nat) : (s.modMb n f).stream j = s.stream j := rfl
@[simp] theorem State.modMb_page (s : State) (n : Nat) (f : Mbx → Mbx) (j : Nat) : (s.modMb n f).page j = s.page j := rfl
@[simp] theorem State.modMb_memport (s : State) (n : Nat) (f : Mbx → Mbx) (j : Nat) : (s.modMb n f).memport j = s.memport j := rfl
@[simp] theorem State.modMb_router (s : State) (n : Nat) (f : Mbx → Mbx) (j : Nat) : (s.modMb n f).router j = s.router j := rfl
@[simp] theorem State.modMb_hport (s : State) (n : Nat) (f : Mbx → Mbx) (j : Nat) : (s.modMb n f).hport j = s.hport j := rfl

@[simp] theorem State.used_pending (s : State) (n : Nat) : (s.used n).pending = s.pending := rfl
@[simp] theorem State.used_time (s : State) (n : Nat) : (s.used n).time = s.time := rfl
@[simp] theorem State.used_cc (s : State) (n : Nat) : (s.used n).cc = s.cc := rfl
@[simp] theorem State.used_tsStep (s : State) (n : Nat) : (s.used n).tsStep = s.tsStep := rfl
@[simp] theorem State.used_timeHi (s : State) (n : Nat) : (s.used n).timeHi = s.timeHi := rfl
@[simp] theorem State.used_heartbeatReg (s : State) (n : Nat) : (s.used n).heartbeatReg = s.heartbeatReg := rfl
@[simp] theorem State.used_freqWait (s : State) (n : Nat) : (s.used n).freqWait = s.freqWait := rfl
@[simp] theorem State.used_fwRestart (s : State) (n : Nat) : (s.used n).fwRestart = s.fwRestart := rfl
@[simp] theorem State.used_pinClock (s : State) (n : Nat) : (s.used n).pinClock = s.pinClock := rfl
@[simp] theorem State.used_scan (s : State) (n : Nat) : (s.used n).scan = s.scan := rfl
@[simp] theorem State.used_trainWait (s : State) (n : Nat) : (s.used n).trainWait = s.trainWait := rfl
@[simp] theorem State.used_heartbeatS (s : State) (n : Nat) : (s.used n).heartbeatS = s.heartbeatS := rfl
@[simp] theorem State.used_cmdsDone (s : State) (n : Nat) : (s.used n).cmdsDone = s.cmdsDone := rfl
@[simp] theorem State.used_posted (s : State) (n : Nat) : (s.used n).posted = s.posted := rfl
@[simp] theorem State.used_sent (s : State) (n : Nat) : (s.used n).sent = s.sent := rfl
@[simp] theorem State.used_cxlSince (s : State) (n : Nat) : (s.used n).cxlSince = s.cxlSince := rfl
@[simp] theorem State.used_cxlTurn (s : State) (n : Nat) : (s.used n).cxlTurn = s.cxlTurn := rfl
@[simp] theorem State.used_cxlLeft (s : State) (n : Nat) : (s.used n).cxlLeft = s.cxlLeft := rfl
@[simp] theorem State.used_cxlPart (s : State) (n : Nat) : (s.used n).cxlPart = s.cxlPart := rfl
@[simp] theorem State.used_lastRead (s : State) (n : Nat) : (s.used n).lastRead = s.lastRead := rfl
@[simp] theorem State.used_eventCount (s : State) (n : Nat) : (s.used n).eventCount = s.eventCount := rfl
@[simp] theorem State.used_boot (s : State) (n : Nat) : (s.used n).boot = s.boot := rfl
@[simp] theorem State.used_fuses (s : State) (n : Nat) : (s.used n).fuses = s.fuses := rfl
@[simp] theorem State.used_fuseShown (s : State) (n : Nat) : (s.used n).fuseShown = s.fuseShown := rfl
@[simp] theorem State.used_fwShown (s : State) (n : Nat) : (s.used n).fwShown = s.fwShown := rfl
@[simp] theorem State.used_i3cUp (s : State) (n : Nat) : (s.used n).i3cUp = s.i3cUp := rfl
@[simp] theorem State.used_ready (s : State) (n : Nat) : (s.used n).ready = s.ready := rfl
@[simp] theorem State.used_flash (s : State) (n : Nat) : (s.used n).flash = s.flash := rfl
@[simp] theorem State.used_link (s : State) (n : Nat) : (s.used n).link = s.link := rfl
@[simp] theorem State.used_evr (s : State) (n : Nat) : (s.used n).evr = s.evr := rfl
@[simp] theorem State.used_tlr (s : State) (n : Nat) : (s.used n).tlr = s.tlr := rfl
@[simp] theorem State.used_bb (s : State) (n : Nat) : (s.used n).bb = s.bb := rfl
@[simp] theorem State.used_mbx (s : State) (n : Nat) : (s.used n).mbx = s.mbx := rfl
@[simp] theorem State.used_doorOrder (s : State) (n : Nat) : (s.used n).doorOrder = s.doorOrder := rfl
@[simp] theorem State.used_stages (s : State) (n : Nat) : (s.used n).stages = s.stages := rfl
@[simp] theorem State.used_windows (s : State) (n : Nat) : (s.used n).windows = s.windows := rfl
@[simp] theorem State.used_tiles (s : State) (n : Nat) : (s.used n).tiles = s.tiles := rfl
@[simp] theorem State.used_clusters (s : State) (n : Nat) : (s.used n).clusters = s.clusters := rfl
@[simp] theorem State.used_parts (s : State) (n : Nat) : (s.used n).parts = s.parts := rfl
@[simp] theorem State.used_streams (s : State) (n : Nat) : (s.used n).streams = s.streams := rfl
@[simp] theorem State.used_pages (s : State) (n : Nat) : (s.used n).pages = s.pages := rfl
@[simp] theorem State.used_hbm (s : State) (n : Nat) : (s.used n).hbm = s.hbm := rfl
@[simp] theorem State.used_cxl (s : State) (n : Nat) : (s.used n).cxl = s.cxl := rfl
@[simp] theorem State.used_memports (s : State) (n : Nat) : (s.used n).memports = s.memports := rfl
@[simp] theorem State.used_uio (s : State) (n : Nat) : (s.used n).uio = s.uio := rfl
@[simp] theorem State.used_unitAcc (s : State) (n : Nat) : (s.used n).unitAcc = s.unitAcc := rfl
@[simp] theorem State.used_unitSeq (s : State) (n : Nat) : (s.used n).unitSeq = s.unitSeq := rfl
@[simp] theorem State.used_svc (s : State) (n : Nat) : (s.used n).svc = s.svc := rfl
@[simp] theorem State.used_svcTurn (s : State) (n : Nat) : (s.used n).svcTurn = s.svcTurn := rfl
@[simp] theorem State.used_routers (s : State) (n : Nat) : (s.used n).routers = s.routers := rfl
@[simp] theorem State.used_arrived (s : State) (n : Nat) : (s.used n).arrived = s.arrived := rfl
@[simp] theorem State.used_edge (s : State) (n : Nat) : (s.used n).edge = s.edge := rfl
@[simp] theorem State.used_disabled (s : State) (n : Nat) : (s.used n).disabled = s.disabled := rfl
@[simp] theorem State.used_withdrawn (s : State) (n : Nat) : (s.used n).withdrawn = s.withdrawn := rfl
@[simp] theorem State.used_baseFaults (s : State) (n : Nat) : (s.used n).baseFaults = s.baseFaults := rfl
@[simp] theorem State.used_retired (s : State) (n : Nat) : (s.used n).retired = s.retired := rfl
@[simp] theorem State.used_hports (s : State) (n : Nat) : (s.used n).hports = s.hports := rfl
@[simp] theorem State.used_job (s : State) (n : Nat) : (s.used n).job = s.job := rfl
@[simp] theorem State.used_power (s : State) (n : Nat) : (s.used n).power = s.power := rfl
@[simp] theorem State.used_telemetryUs (s : State) (n : Nat) : (s.used n).telemetryUs = s.telemetryUs := rfl
@[simp] theorem State.used_telemetryKinds (s : State) (n : Nat) : (s.used n).telemetryKinds = s.telemetryKinds := rfl
@[simp] theorem State.used_pins (s : State) (n : Nat) : (s.used n).pins = s.pins := rfl
@[simp] theorem State.used_observed (s : State) (n : Nat) : (s.used n).observed = s.observed := rfl
@[simp] theorem State.used_dbg (s : State) (n : Nat) : (s.used n).dbg = s.dbg := rfl
@[simp] theorem State.used_cv0 (s : State) (n : Nat) : (s.used n).cv0 = s.cv0 := rfl
@[simp] theorem State.used_cv1 (s : State) (n : Nat) : (s.used n).cv1 = s.cv1 := rfl
@[simp] theorem State.used_resets (s : State) (n : Nat) : (s.used n).resets = s.resets := rfl
@[simp] theorem State.used_preparing (s : State) (n : Nat) : (s.used n).preparing = s.preparing := rfl
@[simp] theorem State.used_removeReady (s : State) (n : Nat) : (s.used n).removeReady = s.removeReady := rfl
@[simp] theorem State.used_parkedCount (s : State) (n : Nat) : (s.used n).parkedCount = s.parkedCount := rfl
@[simp] theorem State.used_doorbellsIgnored (s : State) (n : Nat) : (s.used n).doorbellsIgnored = s.doorbellsIgnored := rfl
@[simp] theorem State.used_spdm (s : State) (n : Nat) : (s.used n).spdm = s.spdm := rfl
@[simp] theorem State.used_doe (s : State) (n : Nat) : (s.used n).doe = s.doe := rfl
@[simp] theorem State.used_i3c (s : State) (n : Nat) : (s.used n).i3c = s.i3c := rfl
@[simp] theorem State.used_meshTraffic (s : State) (n : Nat) : (s.used n).meshTraffic = s.meshTraffic := rfl
@[simp] theorem State.used_tile (s : State) (n : Nat) (j : TileId) : (s.used n).tile j = s.tile j := rfl
@[simp] theorem State.used_cluster (s : State) (n : Nat) (j : Nat) : (s.used n).cluster j = s.cluster j := rfl
@[simp] theorem State.used_part (s : State) (n : Nat) (j : Nat) : (s.used n).part j = s.part j := rfl
@[simp] theorem State.used_stream (s : State) (n : Nat) (j : Nat) : (s.used n).stream j = s.stream j := rfl
@[simp] theorem State.used_page (s : State) (n : Nat) (j : Nat) : (s.used n).page j = s.page j := rfl
@[simp] theorem State.used_memport (s : State) (n : Nat) (j : Nat) : (s.used n).memport j = s.memport j := rfl
@[simp] theorem State.used_router (s : State) (n : Nat) (j : Nat) : (s.used n).router j = s.router j := rfl
@[simp] theorem State.used_hport (s : State) (n : Nat) (j : Nat) : (s.used n).hport j = s.hport j := rfl
@[simp] theorem State.used_mb (s : State) (n : Nat) (j : Nat) : (s.used n).mb j = s.mb j := rfl

@[simp] theorem State.modCluster_cluster_self (s : State) (c : Nat) (f : Cluster → Cluster) :
    (s.modCluster c f).cluster c = f (s.cluster c) := by simp [State.modCluster, State.cluster]

theorem State.modCluster_cluster_ne (s : State) {c j : Nat} (f : Cluster → Cluster) (h : j ≠ c) :
    (s.modCluster c f).cluster j = s.cluster j := by simp [State.modCluster, State.cluster, tget_tset_ne _ _ _ h]

@[simp] theorem State.modCluster_modCluster (s : State) (c : Nat) (f g : Cluster → Cluster) :
    (s.modCluster c f).modCluster c g = s.modCluster c fun x => g (f x) := by simp [State.modCluster, State.cluster]

@[simp] theorem State.modPart_part_self (s : State) (p : Nat) (f : Partition → Partition) :
    (s.modPart p f).part p = f (s.part p) := by simp [State.modPart, State.part]

theorem State.modPart_part_ne (s : State) {p j : Nat} (f : Partition → Partition) (h : j ≠ p) :
    (s.modPart p f).part j = s.part j := by simp [State.modPart, State.part, tget_tset_ne _ _ _ h]

@[simp] theorem State.modPart_modPart (s : State) (p : Nat) (f g : Partition → Partition) :
    (s.modPart p f).modPart p g = s.modPart p fun x => g (f x) := by simp [State.modPart, State.part]

@[simp] theorem State.modStream_stream_self (s : State) (n : Nat) (f : Stream → Stream) :
    (s.modStream n f).stream n = f (s.stream n) := by simp [State.modStream, State.stream]

theorem State.modStream_stream_ne (s : State) {n j : Nat} (f : Stream → Stream) (h : j ≠ n) :
    (s.modStream n f).stream j = s.stream j := by simp [State.modStream, State.stream, tget_tset_ne _ _ _ h]

@[simp] theorem State.modStream_modStream (s : State) (n : Nat) (f g : Stream → Stream) :
    (s.modStream n f).modStream n g = s.modStream n fun x => g (f x) := by simp [State.modStream, State.stream]

@[simp] theorem State.modPage_page_self (s : State) (n : Nat) (f : Page → Page) :
    (s.modPage n f).page n = f (s.page n) := by simp [State.modPage, State.page]

theorem State.modPage_page_ne (s : State) {n j : Nat} (f : Page → Page) (h : j ≠ n) :
    (s.modPage n f).page j = s.page j := by simp [State.modPage, State.page, tget_tset_ne _ _ _ h]

@[simp] theorem State.modPage_modPage (s : State) (n : Nat) (f g : Page → Page) :
    (s.modPage n f).modPage n g = s.modPage n fun x => g (f x) := by simp [State.modPage, State.page]

@[simp] theorem State.modMemport_memport_self (s : State) (m : Nat) (f : MemPort → MemPort) :
    (s.modMemport m f).memport m = f (s.memport m) := by simp [State.modMemport, State.memport]

theorem State.modMemport_memport_ne (s : State) {m j : Nat} (f : MemPort → MemPort) (h : j ≠ m) :
    (s.modMemport m f).memport j = s.memport j := by simp [State.modMemport, State.memport, tget_tset_ne _ _ _ h]

@[simp] theorem State.modMemport_modMemport (s : State) (m : Nat) (f g : MemPort → MemPort) :
    (s.modMemport m f).modMemport m g = s.modMemport m fun x => g (f x) := by simp [State.modMemport, State.memport]

@[simp] theorem State.modRouter_router_self (s : State) (k : Nat) (f : Router → Router) :
    (s.modRouter k f).router k = f (s.router k) := by simp [State.modRouter, State.router]

theorem State.modRouter_router_ne (s : State) {k j : Nat} (f : Router → Router) (h : j ≠ k) :
    (s.modRouter k f).router j = s.router j := by simp [State.modRouter, State.router, tget_tset_ne _ _ _ h]

@[simp] theorem State.modRouter_modRouter (s : State) (k : Nat) (f g : Router → Router) :
    (s.modRouter k f).modRouter k g = s.modRouter k fun x => g (f x) := by simp [State.modRouter, State.router]

@[simp] theorem State.modHport_hport_self (s : State) (q : Nat) (f : HPort → HPort) :
    (s.modHport q f).hport q = f (s.hport q) := by simp [State.modHport, State.hport]

theorem State.modHport_hport_ne (s : State) {q j : Nat} (f : HPort → HPort) (h : j ≠ q) :
    (s.modHport q f).hport j = s.hport j := by simp [State.modHport, State.hport, tget_tset_ne _ _ _ h]

@[simp] theorem State.modHport_modHport (s : State) (q : Nat) (f g : HPort → HPort) :
    (s.modHport q f).modHport q g = s.modHport q fun x => g (f x) := by simp [State.modHport, State.hport]

@[simp] theorem State.modMb_mb_self (s : State) (n : Nat) (f : Mbx → Mbx) :
    (s.modMb n f).mb n = f (s.mb n) := by simp [State.modMb, State.mb]

theorem State.modMb_mb_ne (s : State) {n j : Nat} (f : Mbx → Mbx) (h : j ≠ n) :
    (s.modMb n f).mb j = s.mb j := by simp [State.modMb, State.mb, tget_tset_ne _ _ _ h]

@[simp] theorem State.modMb_modMb (s : State) (n : Nat) (f g : Mbx → Mbx) :
    (s.modMb n f).modMb n g = s.modMb n fun x => g (f x) := by simp [State.modMb, State.mb]

@[simp] theorem State.setTile_tile_self (s : State) (t : TileId) (x : Tile) : (s.setTile t x).tile t = x := by
  simp [State.setTile, State.tile]

theorem State.setTile_tile_ne (s : State) {t u : TileId} (x : Tile) (h : u ≠ t) :
    (s.setTile t x).tile u = s.tile u := by simp [State.setTile, State.tile, tget_tset_ne _ _ _ h]

@[simp] theorem State.setTile_setTile (s : State) (t : TileId) (x y : Tile) :
    (s.setTile t x).setTile t y = s.setTile t y := by simp [State.setTile]

theorem State.modTile_eq (s : State) (t : TileId) (f : Tile → Tile) : s.modTile t f = s.setTile t (f (s.tile t)) := rfl

@[simp] theorem State.modTile_tile_self (s : State) (t : TileId) (f : Tile → Tile) :
    (s.modTile t f).tile t = f (s.tile t) := by simp [State.modTile]

theorem State.modTile_tile_ne (s : State) {t u : TileId} (f : Tile → Tile) (h : u ≠ t) :
    (s.modTile t f).tile u = s.tile u := by simp [State.modTile, State.setTile_tile_ne _ _ h]

@[simp] theorem State.modTile_modTile (s : State) (t : TileId) (f g : Tile → Tile) :
    (s.modTile t f).modTile t g = s.modTile t fun x => g (f x) := by simp [State.modTile]

end Sys2Proof.Machine
end

