-- ==== Sys2Proof/Laws/Events.lean ====
section
/-!
SUPPORT. What raising an event can do: posted writes, the event count, the black box and its flash slots, the event ring
and the pending MSI-X bits change, and nothing else. What recording a fault can do besides.
-/

namespace Sys2Proof.Machine

/-- Equal but for what events touch. -/
def EventOnly (s t : State) : Prop :=
  t = { s with posted := t.posted, eventCount := t.eventCount, bb := t.bb, evr := t.evr, tlr := t.tlr,
               flash := t.flash, link := t.link }

theorem EventOnly.refl (s : State) : EventOnly s s := rfl

theorem EventOnly.trans {s t u : State} (h : EventOnly s t) (k : EventOnly t u) : EventOnly s u := by
  unfold EventOnly at *
  rw [k, h]

theorem State.msix_eventOnly (s : State) (v : Nat) : EventOnly s (s.msix v) := by
  unfold State.msix
  repeat' split
  all_goals rfl

theorem State.signalRing_eventOnly (s : State) (a b : Bool) : EventOnly s (s.signalRing a b) := by
  cases a <;> simp only [State.signalRing, Bool.false_eq_true, if_true, if_false]
  all_goals
    split
    · refine EventOnly.trans ?_ (State.msix_eventOnly _ _); rfl
    · rfl

theorem State.ringPut_eventOnly (s : State) (e : EventRec) : EventOnly s (s.ringPut e) :=
  EventOnly.trans (t := { s with posted := _, evr := _ }) rfl (State.signalRing_eventOnly _ _ _)

theorem State.overflow_eventOnly (s : State) : EventOnly s s.overflow :=
  EventOnly.trans (t := { s with eventCount := _, bb := _, evr := _ }) rfl (State.ringPut_eventOnly _ _)

theorem State.overflowIfDue_eventOnly (s : State) : EventOnly s s.overflowIfDue := by
  unfold State.overflowIfDue
  split
  · exact State.overflow_eventOnly s
  · rfl

theorem State.toRing_eventOnly (s : State) (e : EventRec) : EventOnly s (s.toRing e) := by
  unfold State.toRing
  dsimp only
  repeat' split
  · rfl
  · exact (State.overflowIfDue_eventOnly s).trans (State.ringPut_eventOnly _ _)
  · exact (State.overflowIfDue_eventOnly s).trans rfl

theorem State.startCopy_eventOnly (s : State) (t : Option EventRec) : EventOnly s (s.startCopy t) := rfl

theorem State.takeCapture_eventOnly (s : State) (p n : Nat) : EventOnly s (s.takeCapture p n) := rfl

theorem EventOnly.ite {s t u : State} {b : Prop} [Decidable b] (h : EventOnly s t) (k : EventOnly s u) :
    EventOnly s (if b then t else u) := by split <;> assumption

/-- Everything raising an event can do. -/
theorem State.raiseRec_eventOnly (s : State) (e : EventRec) (b : Bool) : EventOnly s (s.raiseRec e b) := by
  unfold State.raiseRec
  dsimp only
  generalize (if e.ts = 0 then s.now else e.ts) = u
  refine EventOnly.trans ?_ (State.toRing_eventOnly _ _)
  repeat' split
  all_goals rfl

theorem State.raiseDev_eventOnly (s : State) (a b c d : Nat) : EventOnly s (s.raiseDev a b c d) :=
  State.raiseRec_eventOnly _ _ _

/-- A fault's event waits in the black box or is raised. -/
theorem State.raiseFault_eventOnly (s : State) (late : Bool) (e : EventRec) : EventOnly s (s.raiseFault late e) := by
  unfold State.raiseFault
  split
  · rfl
  · exact State.raiseRec_eventOnly _ _ _

theorem State.raisePart_eventOnly (s : State) (p a b c d : Nat) : EventOnly s (s.raisePart p a b c d) :=
  State.raiseFault_eventOnly _ _ _

theorem State.raiseTide_eventOnly (s : State) (p t : Nat) (r : Bool) (a b c d : Nat) :
    EventOnly s (s.raiseTide p t r a b c d) := State.raiseRec_eventOnly _ _ _

theorem State.raiseTile_eventOnly (s : State) (t a b c : Nat) : EventOnly s (s.raiseTile t a b c) := by
  unfold State.raiseTile
  split
  · exact State.raisePart_eventOnly _ _ _ _ _ _
  · exact State.raiseDev_eventOnly _ _ _ _ _

@[simp] theorem State.raiseRec_pending (s : State) (e : EventRec) (b : Bool) : (s.raiseRec e b).pending = s.pending := by rw [State.raiseRec_eventOnly s e b]
@[simp] theorem State.raiseRec_freeCtr (s : State) (e : EventRec) (b : Bool) : (s.raiseRec e b).freeCtr = s.freeCtr := by rw [State.raiseRec_eventOnly s e b]
@[simp] theorem State.raiseRec_time (s : State) (e : EventRec) (b : Bool) : (s.raiseRec e b).time = s.time := by rw [State.raiseRec_eventOnly s e b]
@[simp] theorem State.raiseRec_cc (s : State) (e : EventRec) (b : Bool) : (s.raiseRec e b).cc = s.cc := by rw [State.raiseRec_eventOnly s e b]
@[simp] theorem State.raiseRec_tsStep (s : State) (e : EventRec) (b : Bool) : (s.raiseRec e b).tsStep = s.tsStep := by rw [State.raiseRec_eventOnly s e b]
@[simp] theorem State.raiseRec_timeHi (s : State) (e : EventRec) (b : Bool) : (s.raiseRec e b).timeHi = s.timeHi := by rw [State.raiseRec_eventOnly s e b]
@[simp] theorem State.raiseRec_heartbeatReg (s : State) (e : EventRec) (b : Bool) : (s.raiseRec e b).heartbeatReg = s.heartbeatReg := by rw [State.raiseRec_eventOnly s e b]
@[simp] theorem State.raiseRec_freqWait (s : State) (e : EventRec) (b : Bool) : (s.raiseRec e b).freqWait = s.freqWait := by rw [State.raiseRec_eventOnly s e b]
@[simp] theorem State.raiseRec_fwRestart (s : State) (e : EventRec) (b : Bool) : (s.raiseRec e b).fwRestart = s.fwRestart := by rw [State.raiseRec_eventOnly s e b]
@[simp] theorem State.raiseRec_pinClock (s : State) (e : EventRec) (b : Bool) : (s.raiseRec e b).pinClock = s.pinClock := by rw [State.raiseRec_eventOnly s e b]
@[simp] theorem State.raiseRec_scan (s : State) (e : EventRec) (b : Bool) : (s.raiseRec e b).scan = s.scan := by rw [State.raiseRec_eventOnly s e b]
@[simp] theorem State.raiseRec_trainWait (s : State) (e : EventRec) (b : Bool) : (s.raiseRec e b).trainWait = s.trainWait := by rw [State.raiseRec_eventOnly s e b]
@[simp] theorem State.raiseRec_heartbeatS (s : State) (e : EventRec) (b : Bool) : (s.raiseRec e b).heartbeatS = s.heartbeatS := by rw [State.raiseRec_eventOnly s e b]
@[simp] theorem State.raiseRec_cmdsDone (s : State) (e : EventRec) (b : Bool) : (s.raiseRec e b).cmdsDone = s.cmdsDone := by rw [State.raiseRec_eventOnly s e b]
@[simp] theorem State.raiseRec_lastRead (s : State) (e : EventRec) (b : Bool) : (s.raiseRec e b).lastRead = s.lastRead := by rw [State.raiseRec_eventOnly s e b]
@[simp] theorem State.raiseRec_boot (s : State) (e : EventRec) (b : Bool) : (s.raiseRec e b).boot = s.boot := by rw [State.raiseRec_eventOnly s e b]
@[simp] theorem State.raiseRec_fuses (s : State) (e : EventRec) (b : Bool) : (s.raiseRec e b).fuses = s.fuses := by rw [State.raiseRec_eventOnly s e b]
@[simp] theorem State.raiseRec_fuseShown (s : State) (e : EventRec) (b : Bool) : (s.raiseRec e b).fuseShown = s.fuseShown := by rw [State.raiseRec_eventOnly s e b]
@[simp] theorem State.raiseRec_fwShown (s : State) (e : EventRec) (b : Bool) : (s.raiseRec e b).fwShown = s.fwShown := by rw [State.raiseRec_eventOnly s e b]
@[simp] theorem State.raiseRec_i3cUp (s : State) (e : EventRec) (b : Bool) : (s.raiseRec e b).i3cUp = s.i3cUp := by rw [State.raiseRec_eventOnly s e b]
@[simp] theorem State.raiseRec_ready (s : State) (e : EventRec) (b : Bool) : (s.raiseRec e b).ready = s.ready := by rw [State.raiseRec_eventOnly s e b]
@[simp] theorem State.raiseRec_mbx (s : State) (e : EventRec) (b : Bool) : (s.raiseRec e b).mbx = s.mbx := by rw [State.raiseRec_eventOnly s e b]
@[simp] theorem State.raiseRec_doorOrder (s : State) (e : EventRec) (b : Bool) : (s.raiseRec e b).doorOrder = s.doorOrder := by rw [State.raiseRec_eventOnly s e b]
@[simp] theorem State.raiseRec_stages (s : State) (e : EventRec) (b : Bool) : (s.raiseRec e b).stages = s.stages := by rw [State.raiseRec_eventOnly s e b]
@[simp] theorem State.raiseRec_windows (s : State) (e : EventRec) (b : Bool) : (s.raiseRec e b).windows = s.windows := by rw [State.raiseRec_eventOnly s e b]
@[simp] theorem State.raiseRec_tiles (s : State) (e : EventRec) (b : Bool) : (s.raiseRec e b).tiles = s.tiles := by rw [State.raiseRec_eventOnly s e b]
@[simp] theorem State.raiseRec_clusters (s : State) (e : EventRec) (b : Bool) : (s.raiseRec e b).clusters = s.clusters := by rw [State.raiseRec_eventOnly s e b]
@[simp] theorem State.raiseRec_parts (s : State) (e : EventRec) (b : Bool) : (s.raiseRec e b).parts = s.parts := by rw [State.raiseRec_eventOnly s e b]
@[simp] theorem State.raiseRec_streams (s : State) (e : EventRec) (b : Bool) : (s.raiseRec e b).streams = s.streams := by rw [State.raiseRec_eventOnly s e b]
@[simp] theorem State.raiseRec_pages (s : State) (e : EventRec) (b : Bool) : (s.raiseRec e b).pages = s.pages := by rw [State.raiseRec_eventOnly s e b]
@[simp] theorem State.raiseRec_hbm (s : State) (e : EventRec) (b : Bool) : (s.raiseRec e b).hbm = s.hbm := by rw [State.raiseRec_eventOnly s e b]
@[simp] theorem State.raiseRec_cxl (s : State) (e : EventRec) (b : Bool) : (s.raiseRec e b).cxl = s.cxl := by rw [State.raiseRec_eventOnly s e b]
@[simp] theorem State.raiseRec_memports (s : State) (e : EventRec) (b : Bool) : (s.raiseRec e b).memports = s.memports := by rw [State.raiseRec_eventOnly s e b]
@[simp] theorem State.raiseRec_uio (s : State) (e : EventRec) (b : Bool) : (s.raiseRec e b).uio = s.uio := by rw [State.raiseRec_eventOnly s e b]
@[simp] theorem State.raiseRec_routers (s : State) (e : EventRec) (b : Bool) : (s.raiseRec e b).routers = s.routers := by rw [State.raiseRec_eventOnly s e b]
@[simp] theorem State.raiseRec_arrived (s : State) (e : EventRec) (b : Bool) : (s.raiseRec e b).arrived = s.arrived := by rw [State.raiseRec_eventOnly s e b]
@[simp] theorem State.raiseRec_edge (s : State) (e : EventRec) (b : Bool) : (s.raiseRec e b).edge = s.edge := by rw [State.raiseRec_eventOnly s e b]
@[simp] theorem State.raiseRec_disabled (s : State) (e : EventRec) (b : Bool) : (s.raiseRec e b).disabled = s.disabled := by rw [State.raiseRec_eventOnly s e b]
@[simp] theorem State.raiseRec_withdrawn (s : State) (e : EventRec) (b : Bool) : (s.raiseRec e b).withdrawn = s.withdrawn := by rw [State.raiseRec_eventOnly s e b]
@[simp] theorem State.raiseRec_baseFaults (s : State) (e : EventRec) (b : Bool) : (s.raiseRec e b).baseFaults = s.baseFaults := by rw [State.raiseRec_eventOnly s e b]
@[simp] theorem State.raiseRec_retired (s : State) (e : EventRec) (b : Bool) : (s.raiseRec e b).retired = s.retired := by rw [State.raiseRec_eventOnly s e b]
@[simp] theorem State.raiseRec_hports (s : State) (e : EventRec) (b : Bool) : (s.raiseRec e b).hports = s.hports := by rw [State.raiseRec_eventOnly s e b]
@[simp] theorem State.raiseRec_job (s : State) (e : EventRec) (b : Bool) : (s.raiseRec e b).job = s.job := by rw [State.raiseRec_eventOnly s e b]
@[simp] theorem State.raiseRec_power (s : State) (e : EventRec) (b : Bool) : (s.raiseRec e b).power = s.power := by rw [State.raiseRec_eventOnly s e b]
@[simp] theorem State.raiseRec_telemetryUs (s : State) (e : EventRec) (b : Bool) : (s.raiseRec e b).telemetryUs = s.telemetryUs := by rw [State.raiseRec_eventOnly s e b]
@[simp] theorem State.raiseRec_telemetryKinds (s : State) (e : EventRec) (b : Bool) : (s.raiseRec e b).telemetryKinds = s.telemetryKinds := by rw [State.raiseRec_eventOnly s e b]
@[simp] theorem State.raiseRec_pins (s : State) (e : EventRec) (b : Bool) : (s.raiseRec e b).pins = s.pins := by rw [State.raiseRec_eventOnly s e b]
@[simp] theorem State.raiseRec_observed (s : State) (e : EventRec) (b : Bool) : (s.raiseRec e b).observed = s.observed := by rw [State.raiseRec_eventOnly s e b]
@[simp] theorem State.raiseRec_dbg (s : State) (e : EventRec) (b : Bool) : (s.raiseRec e b).dbg = s.dbg := by rw [State.raiseRec_eventOnly s e b]
@[simp] theorem State.raiseRec_cv0 (s : State) (e : EventRec) (b : Bool) : (s.raiseRec e b).cv0 = s.cv0 := by rw [State.raiseRec_eventOnly s e b]
@[simp] theorem State.raiseRec_cv1 (s : State) (e : EventRec) (b : Bool) : (s.raiseRec e b).cv1 = s.cv1 := by rw [State.raiseRec_eventOnly s e b]
@[simp] theorem State.raiseRec_resets (s : State) (e : EventRec) (b : Bool) : (s.raiseRec e b).resets = s.resets := by rw [State.raiseRec_eventOnly s e b]
@[simp] theorem State.raiseRec_preparing (s : State) (e : EventRec) (b : Bool) : (s.raiseRec e b).preparing = s.preparing := by rw [State.raiseRec_eventOnly s e b]
@[simp] theorem State.raiseRec_removeReady (s : State) (e : EventRec) (b : Bool) : (s.raiseRec e b).removeReady = s.removeReady := by rw [State.raiseRec_eventOnly s e b]
@[simp] theorem State.raiseRec_parkedCount (s : State) (e : EventRec) (b : Bool) : (s.raiseRec e b).parkedCount = s.parkedCount := by rw [State.raiseRec_eventOnly s e b]
@[simp] theorem State.raiseRec_spdm (s : State) (e : EventRec) (b : Bool) : (s.raiseRec e b).spdm = s.spdm := by rw [State.raiseRec_eventOnly s e b]
@[simp] theorem State.raiseRec_doe (s : State) (e : EventRec) (b : Bool) : (s.raiseRec e b).doe = s.doe := by rw [State.raiseRec_eventOnly s e b]
@[simp] theorem State.raiseRec_i3c (s : State) (e : EventRec) (b : Bool) : (s.raiseRec e b).i3c = s.i3c := by rw [State.raiseRec_eventOnly s e b]
@[simp] theorem State.raiseRec_meshTraffic (s : State) (e : EventRec) (b : Bool) : (s.raiseRec e b).meshTraffic = s.meshTraffic := by rw [State.raiseRec_eventOnly s e b]
@[simp] theorem State.raiseRec_tile (s : State) (e : EventRec) (b : Bool) (j : Nat) : (s.raiseRec e b).tile j = s.tile j := by
  rw [State.raiseRec_eventOnly s e b]; rfl
@[simp] theorem State.raiseRec_cluster (s : State) (e : EventRec) (b : Bool) (j : Nat) : (s.raiseRec e b).cluster j = s.cluster j := by
  rw [State.raiseRec_eventOnly s e b]; rfl
@[simp] theorem State.raiseRec_part (s : State) (e : EventRec) (b : Bool) (j : Nat) : (s.raiseRec e b).part j = s.part j := by
  rw [State.raiseRec_eventOnly s e b]; rfl
@[simp] theorem State.raiseRec_stream (s : State) (e : EventRec) (b : Bool) (j : Nat) : (s.raiseRec e b).stream j = s.stream j := by
  rw [State.raiseRec_eventOnly s e b]; rfl
@[simp] theorem State.raiseRec_page (s : State) (e : EventRec) (b : Bool) (j : Nat) : (s.raiseRec e b).page j = s.page j := by
  rw [State.raiseRec_eventOnly s e b]; rfl
@[simp] theorem State.raiseRec_memport (s : State) (e : EventRec) (b : Bool) (j : Nat) : (s.raiseRec e b).memport j = s.memport j := by
  rw [State.raiseRec_eventOnly s e b]; rfl
@[simp] theorem State.raiseRec_router (s : State) (e : EventRec) (b : Bool) (j : Nat) : (s.raiseRec e b).router j = s.router j := by
  rw [State.raiseRec_eventOnly s e b]; rfl
@[simp] theorem State.raiseRec_hport (s : State) (e : EventRec) (b : Bool) (j : Nat) : (s.raiseRec e b).hport j = s.hport j := by
  rw [State.raiseRec_eventOnly s e b]; rfl
@[simp] theorem State.raiseRec_mb (s : State) (e : EventRec) (b : Bool) (j : Nat) : (s.raiseRec e b).mb j = s.mb j := by
  rw [State.raiseRec_eventOnly s e b]; rfl

@[simp] theorem State.raiseDev_pending (s : State) (a b c d : Nat) : (s.raiseDev a b c d).pending = s.pending := by rw [State.raiseDev_eventOnly s a b c d]
@[simp] theorem State.raiseDev_freeCtr (s : State) (a b c d : Nat) : (s.raiseDev a b c d).freeCtr = s.freeCtr := by rw [State.raiseDev_eventOnly s a b c d]
@[simp] theorem State.raiseDev_time (s : State) (a b c d : Nat) : (s.raiseDev a b c d).time = s.time := by rw [State.raiseDev_eventOnly s a b c d]
@[simp] theorem State.raiseDev_cc (s : State) (a b c d : Nat) : (s.raiseDev a b c d).cc = s.cc := by rw [State.raiseDev_eventOnly s a b c d]
@[simp] theorem State.raiseDev_tsStep (s : State) (a b c d : Nat) : (s.raiseDev a b c d).tsStep = s.tsStep := by rw [State.raiseDev_eventOnly s a b c d]
@[simp] theorem State.raiseDev_timeHi (s : State) (a b c d : Nat) : (s.raiseDev a b c d).timeHi = s.timeHi := by rw [State.raiseDev_eventOnly s a b c d]
@[simp] theorem State.raiseDev_heartbeatReg (s : State) (a b c d : Nat) : (s.raiseDev a b c d).heartbeatReg = s.heartbeatReg := by rw [State.raiseDev_eventOnly s a b c d]
@[simp] theorem State.raiseDev_freqWait (s : State) (a b c d : Nat) : (s.raiseDev a b c d).freqWait = s.freqWait := by rw [State.raiseDev_eventOnly s a b c d]
@[simp] theorem State.raiseDev_fwRestart (s : State) (a b c d : Nat) : (s.raiseDev a b c d).fwRestart = s.fwRestart := by rw [State.raiseDev_eventOnly s a b c d]
@[simp] theorem State.raiseDev_pinClock (s : State) (a b c d : Nat) : (s.raiseDev a b c d).pinClock = s.pinClock := by rw [State.raiseDev_eventOnly s a b c d]
@[simp] theorem State.raiseDev_scan (s : State) (a b c d : Nat) : (s.raiseDev a b c d).scan = s.scan := by rw [State.raiseDev_eventOnly s a b c d]
@[simp] theorem State.raiseDev_trainWait (s : State) (a b c d : Nat) : (s.raiseDev a b c d).trainWait = s.trainWait := by rw [State.raiseDev_eventOnly s a b c d]
@[simp] theorem State.raiseDev_heartbeatS (s : State) (a b c d : Nat) : (s.raiseDev a b c d).heartbeatS = s.heartbeatS := by rw [State.raiseDev_eventOnly s a b c d]
@[simp] theorem State.raiseDev_cmdsDone (s : State) (a b c d : Nat) : (s.raiseDev a b c d).cmdsDone = s.cmdsDone := by rw [State.raiseDev_eventOnly s a b c d]
@[simp] theorem State.raiseDev_lastRead (s : State) (a b c d : Nat) : (s.raiseDev a b c d).lastRead = s.lastRead := by rw [State.raiseDev_eventOnly s a b c d]
@[simp] theorem State.raiseDev_boot (s : State) (a b c d : Nat) : (s.raiseDev a b c d).boot = s.boot := by rw [State.raiseDev_eventOnly s a b c d]
@[simp] theorem State.raiseDev_fuses (s : State) (a b c d : Nat) : (s.raiseDev a b c d).fuses = s.fuses := by rw [State.raiseDev_eventOnly s a b c d]
@[simp] theorem State.raiseDev_fuseShown (s : State) (a b c d : Nat) : (s.raiseDev a b c d).fuseShown = s.fuseShown := by rw [State.raiseDev_eventOnly s a b c d]
@[simp] theorem State.raiseDev_fwShown (s : State) (a b c d : Nat) : (s.raiseDev a b c d).fwShown = s.fwShown := by rw [State.raiseDev_eventOnly s a b c d]
@[simp] theorem State.raiseDev_i3cUp (s : State) (a b c d : Nat) : (s.raiseDev a b c d).i3cUp = s.i3cUp := by rw [State.raiseDev_eventOnly s a b c d]
@[simp] theorem State.raiseDev_ready (s : State) (a b c d : Nat) : (s.raiseDev a b c d).ready = s.ready := by rw [State.raiseDev_eventOnly s a b c d]
@[simp] theorem State.raiseDev_mbx (s : State) (a b c d : Nat) : (s.raiseDev a b c d).mbx = s.mbx := by rw [State.raiseDev_eventOnly s a b c d]
@[simp] theorem State.raiseDev_doorOrder (s : State) (a b c d : Nat) : (s.raiseDev a b c d).doorOrder = s.doorOrder := by rw [State.raiseDev_eventOnly s a b c d]
@[simp] theorem State.raiseDev_stages (s : State) (a b c d : Nat) : (s.raiseDev a b c d).stages = s.stages := by rw [State.raiseDev_eventOnly s a b c d]
@[simp] theorem State.raiseDev_windows (s : State) (a b c d : Nat) : (s.raiseDev a b c d).windows = s.windows := by rw [State.raiseDev_eventOnly s a b c d]
@[simp] theorem State.raiseDev_tiles (s : State) (a b c d : Nat) : (s.raiseDev a b c d).tiles = s.tiles := by rw [State.raiseDev_eventOnly s a b c d]
@[simp] theorem State.raiseDev_clusters (s : State) (a b c d : Nat) : (s.raiseDev a b c d).clusters = s.clusters := by rw [State.raiseDev_eventOnly s a b c d]
@[simp] theorem State.raiseDev_parts (s : State) (a b c d : Nat) : (s.raiseDev a b c d).parts = s.parts := by rw [State.raiseDev_eventOnly s a b c d]
@[simp] theorem State.raiseDev_streams (s : State) (a b c d : Nat) : (s.raiseDev a b c d).streams = s.streams := by rw [State.raiseDev_eventOnly s a b c d]
@[simp] theorem State.raiseDev_pages (s : State) (a b c d : Nat) : (s.raiseDev a b c d).pages = s.pages := by rw [State.raiseDev_eventOnly s a b c d]
@[simp] theorem State.raiseDev_hbm (s : State) (a b c d : Nat) : (s.raiseDev a b c d).hbm = s.hbm := by rw [State.raiseDev_eventOnly s a b c d]
@[simp] theorem State.raiseDev_cxl (s : State) (a b c d : Nat) : (s.raiseDev a b c d).cxl = s.cxl := by rw [State.raiseDev_eventOnly s a b c d]
@[simp] theorem State.raiseDev_memports (s : State) (a b c d : Nat) : (s.raiseDev a b c d).memports = s.memports := by rw [State.raiseDev_eventOnly s a b c d]
@[simp] theorem State.raiseDev_uio (s : State) (a b c d : Nat) : (s.raiseDev a b c d).uio = s.uio := by rw [State.raiseDev_eventOnly s a b c d]
@[simp] theorem State.raiseDev_routers (s : State) (a b c d : Nat) : (s.raiseDev a b c d).routers = s.routers := by rw [State.raiseDev_eventOnly s a b c d]
@[simp] theorem State.raiseDev_arrived (s : State) (a b c d : Nat) : (s.raiseDev a b c d).arrived = s.arrived := by rw [State.raiseDev_eventOnly s a b c d]
@[simp] theorem State.raiseDev_edge (s : State) (a b c d : Nat) : (s.raiseDev a b c d).edge = s.edge := by rw [State.raiseDev_eventOnly s a b c d]
@[simp] theorem State.raiseDev_disabled (s : State) (a b c d : Nat) : (s.raiseDev a b c d).disabled = s.disabled := by rw [State.raiseDev_eventOnly s a b c d]
@[simp] theorem State.raiseDev_withdrawn (s : State) (a b c d : Nat) : (s.raiseDev a b c d).withdrawn = s.withdrawn := by rw [State.raiseDev_eventOnly s a b c d]
@[simp] theorem State.raiseDev_baseFaults (s : State) (a b c d : Nat) : (s.raiseDev a b c d).baseFaults = s.baseFaults := by rw [State.raiseDev_eventOnly s a b c d]
@[simp] theorem State.raiseDev_retired (s : State) (a b c d : Nat) : (s.raiseDev a b c d).retired = s.retired := by rw [State.raiseDev_eventOnly s a b c d]
@[simp] theorem State.raiseDev_hports (s : State) (a b c d : Nat) : (s.raiseDev a b c d).hports = s.hports := by rw [State.raiseDev_eventOnly s a b c d]
@[simp] theorem State.raiseDev_job (s : State) (a b c d : Nat) : (s.raiseDev a b c d).job = s.job := by rw [State.raiseDev_eventOnly s a b c d]
@[simp] theorem State.raiseDev_power (s : State) (a b c d : Nat) : (s.raiseDev a b c d).power = s.power := by rw [State.raiseDev_eventOnly s a b c d]
@[simp] theorem State.raiseDev_telemetryUs (s : State) (a b c d : Nat) : (s.raiseDev a b c d).telemetryUs = s.telemetryUs := by rw [State.raiseDev_eventOnly s a b c d]
@[simp] theorem State.raiseDev_telemetryKinds (s : State) (a b c d : Nat) : (s.raiseDev a b c d).telemetryKinds = s.telemetryKinds := by rw [State.raiseDev_eventOnly s a b c d]
@[simp] theorem State.raiseDev_pins (s : State) (a b c d : Nat) : (s.raiseDev a b c d).pins = s.pins := by rw [State.raiseDev_eventOnly s a b c d]
@[simp] theorem State.raiseDev_observed (s : State) (a b c d : Nat) : (s.raiseDev a b c d).observed = s.observed := by rw [State.raiseDev_eventOnly s a b c d]
@[simp] theorem State.raiseDev_dbg (s : State) (a b c d : Nat) : (s.raiseDev a b c d).dbg = s.dbg := by rw [State.raiseDev_eventOnly s a b c d]
@[simp] theorem State.raiseDev_cv0 (s : State) (a b c d : Nat) : (s.raiseDev a b c d).cv0 = s.cv0 := by rw [State.raiseDev_eventOnly s a b c d]
@[simp] theorem State.raiseDev_cv1 (s : State) (a b c d : Nat) : (s.raiseDev a b c d).cv1 = s.cv1 := by rw [State.raiseDev_eventOnly s a b c d]
@[simp] theorem State.raiseDev_resets (s : State) (a b c d : Nat) : (s.raiseDev a b c d).resets = s.resets := by rw [State.raiseDev_eventOnly s a b c d]
@[simp] theorem State.raiseDev_preparing (s : State) (a b c d : Nat) : (s.raiseDev a b c d).preparing = s.preparing := by rw [State.raiseDev_eventOnly s a b c d]
@[simp] theorem State.raiseDev_removeReady (s : State) (a b c d : Nat) : (s.raiseDev a b c d).removeReady = s.removeReady := by rw [State.raiseDev_eventOnly s a b c d]
@[simp] theorem State.raiseDev_parkedCount (s : State) (a b c d : Nat) : (s.raiseDev a b c d).parkedCount = s.parkedCount := by rw [State.raiseDev_eventOnly s a b c d]
@[simp] theorem State.raiseDev_spdm (s : State) (a b c d : Nat) : (s.raiseDev a b c d).spdm = s.spdm := by rw [State.raiseDev_eventOnly s a b c d]
@[simp] theorem State.raiseDev_doe (s : State) (a b c d : Nat) : (s.raiseDev a b c d).doe = s.doe := by rw [State.raiseDev_eventOnly s a b c d]
@[simp] theorem State.raiseDev_i3c (s : State) (a b c d : Nat) : (s.raiseDev a b c d).i3c = s.i3c := by rw [State.raiseDev_eventOnly s a b c d]
@[simp] theorem State.raiseDev_meshTraffic (s : State) (a b c d : Nat) : (s.raiseDev a b c d).meshTraffic = s.meshTraffic := by rw [State.raiseDev_eventOnly s a b c d]
@[simp] theorem State.raiseDev_tile (s : State) (a b c d : Nat) (j : Nat) : (s.raiseDev a b c d).tile j = s.tile j := by
  rw [State.raiseDev_eventOnly s a b c d]; rfl
@[simp] theorem State.raiseDev_cluster (s : State) (a b c d : Nat) (j : Nat) : (s.raiseDev a b c d).cluster j = s.cluster j := by
  rw [State.raiseDev_eventOnly s a b c d]; rfl
@[simp] theorem State.raiseDev_part (s : State) (a b c d : Nat) (j : Nat) : (s.raiseDev a b c d).part j = s.part j := by
  rw [State.raiseDev_eventOnly s a b c d]; rfl
@[simp] theorem State.raiseDev_stream (s : State) (a b c d : Nat) (j : Nat) : (s.raiseDev a b c d).stream j = s.stream j := by
  rw [State.raiseDev_eventOnly s a b c d]; rfl
@[simp] theorem State.raiseDev_page (s : State) (a b c d : Nat) (j : Nat) : (s.raiseDev a b c d).page j = s.page j := by
  rw [State.raiseDev_eventOnly s a b c d]; rfl
@[simp] theorem State.raiseDev_memport (s : State) (a b c d : Nat) (j : Nat) : (s.raiseDev a b c d).memport j = s.memport j := by
  rw [State.raiseDev_eventOnly s a b c d]; rfl
@[simp] theorem State.raiseDev_router (s : State) (a b c d : Nat) (j : Nat) : (s.raiseDev a b c d).router j = s.router j := by
  rw [State.raiseDev_eventOnly s a b c d]; rfl
@[simp] theorem State.raiseDev_hport (s : State) (a b c d : Nat) (j : Nat) : (s.raiseDev a b c d).hport j = s.hport j := by
  rw [State.raiseDev_eventOnly s a b c d]; rfl
@[simp] theorem State.raiseDev_mb (s : State) (a b c d : Nat) (j : Nat) : (s.raiseDev a b c d).mb j = s.mb j := by
  rw [State.raiseDev_eventOnly s a b c d]; rfl

@[simp] theorem State.raisePart_pending (s : State) (p a b c d : Nat) : (s.raisePart p a b c d).pending = s.pending := by rw [State.raisePart_eventOnly s p a b c d]
@[simp] theorem State.raisePart_freeCtr (s : State) (p a b c d : Nat) : (s.raisePart p a b c d).freeCtr = s.freeCtr := by rw [State.raisePart_eventOnly s p a b c d]
@[simp] theorem State.raisePart_time (s : State) (p a b c d : Nat) : (s.raisePart p a b c d).time = s.time := by rw [State.raisePart_eventOnly s p a b c d]
@[simp] theorem State.raisePart_cc (s : State) (p a b c d : Nat) : (s.raisePart p a b c d).cc = s.cc := by rw [State.raisePart_eventOnly s p a b c d]
@[simp] theorem State.raisePart_tsStep (s : State) (p a b c d : Nat) : (s.raisePart p a b c d).tsStep = s.tsStep := by rw [State.raisePart_eventOnly s p a b c d]
@[simp] theorem State.raisePart_timeHi (s : State) (p a b c d : Nat) : (s.raisePart p a b c d).timeHi = s.timeHi := by rw [State.raisePart_eventOnly s p a b c d]
@[simp] theorem State.raisePart_heartbeatReg (s : State) (p a b c d : Nat) : (s.raisePart p a b c d).heartbeatReg = s.heartbeatReg := by rw [State.raisePart_eventOnly s p a b c d]
@[simp] theorem State.raisePart_freqWait (s : State) (p a b c d : Nat) : (s.raisePart p a b c d).freqWait = s.freqWait := by rw [State.raisePart_eventOnly s p a b c d]
@[simp] theorem State.raisePart_fwRestart (s : State) (p a b c d : Nat) : (s.raisePart p a b c d).fwRestart = s.fwRestart := by rw [State.raisePart_eventOnly s p a b c d]
@[simp] theorem State.raisePart_pinClock (s : State) (p a b c d : Nat) : (s.raisePart p a b c d).pinClock = s.pinClock := by rw [State.raisePart_eventOnly s p a b c d]
@[simp] theorem State.raisePart_scan (s : State) (p a b c d : Nat) : (s.raisePart p a b c d).scan = s.scan := by rw [State.raisePart_eventOnly s p a b c d]
@[simp] theorem State.raisePart_trainWait (s : State) (p a b c d : Nat) : (s.raisePart p a b c d).trainWait = s.trainWait := by rw [State.raisePart_eventOnly s p a b c d]
@[simp] theorem State.raisePart_heartbeatS (s : State) (p a b c d : Nat) : (s.raisePart p a b c d).heartbeatS = s.heartbeatS := by rw [State.raisePart_eventOnly s p a b c d]
@[simp] theorem State.raisePart_cmdsDone (s : State) (p a b c d : Nat) : (s.raisePart p a b c d).cmdsDone = s.cmdsDone := by rw [State.raisePart_eventOnly s p a b c d]
@[simp] theorem State.raisePart_lastRead (s : State) (p a b c d : Nat) : (s.raisePart p a b c d).lastRead = s.lastRead := by rw [State.raisePart_eventOnly s p a b c d]
@[simp] theorem State.raisePart_boot (s : State) (p a b c d : Nat) : (s.raisePart p a b c d).boot = s.boot := by rw [State.raisePart_eventOnly s p a b c d]
@[simp] theorem State.raisePart_fuses (s : State) (p a b c d : Nat) : (s.raisePart p a b c d).fuses = s.fuses := by rw [State.raisePart_eventOnly s p a b c d]
@[simp] theorem State.raisePart_fuseShown (s : State) (p a b c d : Nat) : (s.raisePart p a b c d).fuseShown = s.fuseShown := by rw [State.raisePart_eventOnly s p a b c d]
@[simp] theorem State.raisePart_fwShown (s : State) (p a b c d : Nat) : (s.raisePart p a b c d).fwShown = s.fwShown := by rw [State.raisePart_eventOnly s p a b c d]
@[simp] theorem State.raisePart_i3cUp (s : State) (p a b c d : Nat) : (s.raisePart p a b c d).i3cUp = s.i3cUp := by rw [State.raisePart_eventOnly s p a b c d]
@[simp] theorem State.raisePart_ready (s : State) (p a b c d : Nat) : (s.raisePart p a b c d).ready = s.ready := by rw [State.raisePart_eventOnly s p a b c d]
@[simp] theorem State.raisePart_mbx (s : State) (p a b c d : Nat) : (s.raisePart p a b c d).mbx = s.mbx := by rw [State.raisePart_eventOnly s p a b c d]
@[simp] theorem State.raisePart_doorOrder (s : State) (p a b c d : Nat) : (s.raisePart p a b c d).doorOrder = s.doorOrder := by rw [State.raisePart_eventOnly s p a b c d]
@[simp] theorem State.raisePart_stages (s : State) (p a b c d : Nat) : (s.raisePart p a b c d).stages = s.stages := by rw [State.raisePart_eventOnly s p a b c d]
@[simp] theorem State.raisePart_windows (s : State) (p a b c d : Nat) : (s.raisePart p a b c d).windows = s.windows := by rw [State.raisePart_eventOnly s p a b c d]
@[simp] theorem State.raisePart_tiles (s : State) (p a b c d : Nat) : (s.raisePart p a b c d).tiles = s.tiles := by rw [State.raisePart_eventOnly s p a b c d]
@[simp] theorem State.raisePart_clusters (s : State) (p a b c d : Nat) : (s.raisePart p a b c d).clusters = s.clusters := by rw [State.raisePart_eventOnly s p a b c d]
@[simp] theorem State.raisePart_parts (s : State) (p a b c d : Nat) : (s.raisePart p a b c d).parts = s.parts := by rw [State.raisePart_eventOnly s p a b c d]
@[simp] theorem State.raisePart_streams (s : State) (p a b c d : Nat) : (s.raisePart p a b c d).streams = s.streams := by rw [State.raisePart_eventOnly s p a b c d]
@[simp] theorem State.raisePart_pages (s : State) (p a b c d : Nat) : (s.raisePart p a b c d).pages = s.pages := by rw [State.raisePart_eventOnly s p a b c d]
@[simp] theorem State.raisePart_hbm (s : State) (p a b c d : Nat) : (s.raisePart p a b c d).hbm = s.hbm := by rw [State.raisePart_eventOnly s p a b c d]
@[simp] theorem State.raisePart_cxl (s : State) (p a b c d : Nat) : (s.raisePart p a b c d).cxl = s.cxl := by rw [State.raisePart_eventOnly s p a b c d]
@[simp] theorem State.raisePart_memports (s : State) (p a b c d : Nat) : (s.raisePart p a b c d).memports = s.memports := by rw [State.raisePart_eventOnly s p a b c d]
@[simp] theorem State.raisePart_uio (s : State) (p a b c d : Nat) : (s.raisePart p a b c d).uio = s.uio := by rw [State.raisePart_eventOnly s p a b c d]
@[simp] theorem State.raisePart_routers (s : State) (p a b c d : Nat) : (s.raisePart p a b c d).routers = s.routers := by rw [State.raisePart_eventOnly s p a b c d]
@[simp] theorem State.raisePart_arrived (s : State) (p a b c d : Nat) : (s.raisePart p a b c d).arrived = s.arrived := by rw [State.raisePart_eventOnly s p a b c d]
@[simp] theorem State.raisePart_edge (s : State) (p a b c d : Nat) : (s.raisePart p a b c d).edge = s.edge := by rw [State.raisePart_eventOnly s p a b c d]
@[simp] theorem State.raisePart_disabled (s : State) (p a b c d : Nat) : (s.raisePart p a b c d).disabled = s.disabled := by rw [State.raisePart_eventOnly s p a b c d]
@[simp] theorem State.raisePart_withdrawn (s : State) (p a b c d : Nat) : (s.raisePart p a b c d).withdrawn = s.withdrawn := by rw [State.raisePart_eventOnly s p a b c d]
@[simp] theorem State.raisePart_baseFaults (s : State) (p a b c d : Nat) : (s.raisePart p a b c d).baseFaults = s.baseFaults := by rw [State.raisePart_eventOnly s p a b c d]
@[simp] theorem State.raisePart_retired (s : State) (p a b c d : Nat) : (s.raisePart p a b c d).retired = s.retired := by rw [State.raisePart_eventOnly s p a b c d]
@[simp] theorem State.raisePart_hports (s : State) (p a b c d : Nat) : (s.raisePart p a b c d).hports = s.hports := by rw [State.raisePart_eventOnly s p a b c d]
@[simp] theorem State.raisePart_job (s : State) (p a b c d : Nat) : (s.raisePart p a b c d).job = s.job := by rw [State.raisePart_eventOnly s p a b c d]
@[simp] theorem State.raisePart_power (s : State) (p a b c d : Nat) : (s.raisePart p a b c d).power = s.power := by rw [State.raisePart_eventOnly s p a b c d]
@[simp] theorem State.raisePart_telemetryUs (s : State) (p a b c d : Nat) : (s.raisePart p a b c d).telemetryUs = s.telemetryUs := by rw [State.raisePart_eventOnly s p a b c d]
@[simp] theorem State.raisePart_telemetryKinds (s : State) (p a b c d : Nat) : (s.raisePart p a b c d).telemetryKinds = s.telemetryKinds := by rw [State.raisePart_eventOnly s p a b c d]
@[simp] theorem State.raisePart_pins (s : State) (p a b c d : Nat) : (s.raisePart p a b c d).pins = s.pins := by rw [State.raisePart_eventOnly s p a b c d]
@[simp] theorem State.raisePart_observed (s : State) (p a b c d : Nat) : (s.raisePart p a b c d).observed = s.observed := by rw [State.raisePart_eventOnly s p a b c d]
@[simp] theorem State.raisePart_dbg (s : State) (p a b c d : Nat) : (s.raisePart p a b c d).dbg = s.dbg := by rw [State.raisePart_eventOnly s p a b c d]
@[simp] theorem State.raisePart_cv0 (s : State) (p a b c d : Nat) : (s.raisePart p a b c d).cv0 = s.cv0 := by rw [State.raisePart_eventOnly s p a b c d]
@[simp] theorem State.raisePart_cv1 (s : State) (p a b c d : Nat) : (s.raisePart p a b c d).cv1 = s.cv1 := by rw [State.raisePart_eventOnly s p a b c d]
@[simp] theorem State.raisePart_resets (s : State) (p a b c d : Nat) : (s.raisePart p a b c d).resets = s.resets := by rw [State.raisePart_eventOnly s p a b c d]
@[simp] theorem State.raisePart_preparing (s : State) (p a b c d : Nat) : (s.raisePart p a b c d).preparing = s.preparing := by rw [State.raisePart_eventOnly s p a b c d]
@[simp] theorem State.raisePart_removeReady (s : State) (p a b c d : Nat) : (s.raisePart p a b c d).removeReady = s.removeReady := by rw [State.raisePart_eventOnly s p a b c d]
@[simp] theorem State.raisePart_parkedCount (s : State) (p a b c d : Nat) : (s.raisePart p a b c d).parkedCount = s.parkedCount := by rw [State.raisePart_eventOnly s p a b c d]
@[simp] theorem State.raisePart_spdm (s : State) (p a b c d : Nat) : (s.raisePart p a b c d).spdm = s.spdm := by rw [State.raisePart_eventOnly s p a b c d]
@[simp] theorem State.raisePart_doe (s : State) (p a b c d : Nat) : (s.raisePart p a b c d).doe = s.doe := by rw [State.raisePart_eventOnly s p a b c d]
@[simp] theorem State.raisePart_i3c (s : State) (p a b c d : Nat) : (s.raisePart p a b c d).i3c = s.i3c := by rw [State.raisePart_eventOnly s p a b c d]
@[simp] theorem State.raisePart_meshTraffic (s : State) (p a b c d : Nat) : (s.raisePart p a b c d).meshTraffic = s.meshTraffic := by rw [State.raisePart_eventOnly s p a b c d]
@[simp] theorem State.raisePart_tile (s : State) (p a b c d : Nat) (j : Nat) : (s.raisePart p a b c d).tile j = s.tile j := by
  rw [State.raisePart_eventOnly s p a b c d]; rfl
@[simp] theorem State.raisePart_cluster (s : State) (p a b c d : Nat) (j : Nat) : (s.raisePart p a b c d).cluster j = s.cluster j := by
  rw [State.raisePart_eventOnly s p a b c d]; rfl
@[simp] theorem State.raisePart_part (s : State) (p a b c d : Nat) (j : Nat) : (s.raisePart p a b c d).part j = s.part j := by
  rw [State.raisePart_eventOnly s p a b c d]; rfl
@[simp] theorem State.raisePart_stream (s : State) (p a b c d : Nat) (j : Nat) : (s.raisePart p a b c d).stream j = s.stream j := by
  rw [State.raisePart_eventOnly s p a b c d]; rfl
@[simp] theorem State.raisePart_page (s : State) (p a b c d : Nat) (j : Nat) : (s.raisePart p a b c d).page j = s.page j := by
  rw [State.raisePart_eventOnly s p a b c d]; rfl
@[simp] theorem State.raisePart_memport (s : State) (p a b c d : Nat) (j : Nat) : (s.raisePart p a b c d).memport j = s.memport j := by
  rw [State.raisePart_eventOnly s p a b c d]; rfl
@[simp] theorem State.raisePart_router (s : State) (p a b c d : Nat) (j : Nat) : (s.raisePart p a b c d).router j = s.router j := by
  rw [State.raisePart_eventOnly s p a b c d]; rfl
@[simp] theorem State.raisePart_hport (s : State) (p a b c d : Nat) (j : Nat) : (s.raisePart p a b c d).hport j = s.hport j := by
  rw [State.raisePart_eventOnly s p a b c d]; rfl
@[simp] theorem State.raisePart_mb (s : State) (p a b c d : Nat) (j : Nat) : (s.raisePart p a b c d).mb j = s.mb j := by
  rw [State.raisePart_eventOnly s p a b c d]; rfl

@[simp] theorem State.raiseTide_pending (s : State) (p t : Nat) (r : Bool) (a b c d : Nat) : (s.raiseTide p t r a b c d).pending = s.pending := by rw [State.raiseTide_eventOnly s p t r a b c d]
@[simp] theorem State.raiseTide_freeCtr (s : State) (p t : Nat) (r : Bool) (a b c d : Nat) : (s.raiseTide p t r a b c d).freeCtr = s.freeCtr := by rw [State.raiseTide_eventOnly s p t r a b c d]
@[simp] theorem State.raiseTide_time (s : State) (p t : Nat) (r : Bool) (a b c d : Nat) : (s.raiseTide p t r a b c d).time = s.time := by rw [State.raiseTide_eventOnly s p t r a b c d]
@[simp] theorem State.raiseTide_cc (s : State) (p t : Nat) (r : Bool) (a b c d : Nat) : (s.raiseTide p t r a b c d).cc = s.cc := by rw [State.raiseTide_eventOnly s p t r a b c d]
@[simp] theorem State.raiseTide_tsStep (s : State) (p t : Nat) (r : Bool) (a b c d : Nat) : (s.raiseTide p t r a b c d).tsStep = s.tsStep := by rw [State.raiseTide_eventOnly s p t r a b c d]
@[simp] theorem State.raiseTide_timeHi (s : State) (p t : Nat) (r : Bool) (a b c d : Nat) : (s.raiseTide p t r a b c d).timeHi = s.timeHi := by rw [State.raiseTide_eventOnly s p t r a b c d]
@[simp] theorem State.raiseTide_heartbeatReg (s : State) (p t : Nat) (r : Bool) (a b c d : Nat) : (s.raiseTide p t r a b c d).heartbeatReg = s.heartbeatReg := by rw [State.raiseTide_eventOnly s p t r a b c d]
@[simp] theorem State.raiseTide_freqWait (s : State) (p t : Nat) (r : Bool) (a b c d : Nat) : (s.raiseTide p t r a b c d).freqWait = s.freqWait := by rw [State.raiseTide_eventOnly s p t r a b c d]
@[simp] theorem State.raiseTide_fwRestart (s : State) (p t : Nat) (r : Bool) (a b c d : Nat) : (s.raiseTide p t r a b c d).fwRestart = s.fwRestart := by rw [State.raiseTide_eventOnly s p t r a b c d]
@[simp] theorem State.raiseTide_pinClock (s : State) (p t : Nat) (r : Bool) (a b c d : Nat) : (s.raiseTide p t r a b c d).pinClock = s.pinClock := by rw [State.raiseTide_eventOnly s p t r a b c d]
@[simp] theorem State.raiseTide_scan (s : State) (p t : Nat) (r : Bool) (a b c d : Nat) : (s.raiseTide p t r a b c d).scan = s.scan := by rw [State.raiseTide_eventOnly s p t r a b c d]
@[simp] theorem State.raiseTide_trainWait (s : State) (p t : Nat) (r : Bool) (a b c d : Nat) : (s.raiseTide p t r a b c d).trainWait = s.trainWait := by rw [State.raiseTide_eventOnly s p t r a b c d]
@[simp] theorem State.raiseTide_heartbeatS (s : State) (p t : Nat) (r : Bool) (a b c d : Nat) : (s.raiseTide p t r a b c d).heartbeatS = s.heartbeatS := by rw [State.raiseTide_eventOnly s p t r a b c d]
@[simp] theorem State.raiseTide_cmdsDone (s : State) (p t : Nat) (r : Bool) (a b c d : Nat) : (s.raiseTide p t r a b c d).cmdsDone = s.cmdsDone := by rw [State.raiseTide_eventOnly s p t r a b c d]
@[simp] theorem State.raiseTide_lastRead (s : State) (p t : Nat) (r : Bool) (a b c d : Nat) : (s.raiseTide p t r a b c d).lastRead = s.lastRead := by rw [State.raiseTide_eventOnly s p t r a b c d]
@[simp] theorem State.raiseTide_boot (s : State) (p t : Nat) (r : Bool) (a b c d : Nat) : (s.raiseTide p t r a b c d).boot = s.boot := by rw [State.raiseTide_eventOnly s p t r a b c d]
@[simp] theorem State.raiseTide_fuses (s : State) (p t : Nat) (r : Bool) (a b c d : Nat) : (s.raiseTide p t r a b c d).fuses = s.fuses := by rw [State.raiseTide_eventOnly s p t r a b c d]
@[simp] theorem State.raiseTide_fuseShown (s : State) (p t : Nat) (r : Bool) (a b c d : Nat) : (s.raiseTide p t r a b c d).fuseShown = s.fuseShown := by rw [State.raiseTide_eventOnly s p t r a b c d]
@[simp] theorem State.raiseTide_fwShown (s : State) (p t : Nat) (r : Bool) (a b c d : Nat) : (s.raiseTide p t r a b c d).fwShown = s.fwShown := by rw [State.raiseTide_eventOnly s p t r a b c d]
@[simp] theorem State.raiseTide_i3cUp (s : State) (p t : Nat) (r : Bool) (a b c d : Nat) : (s.raiseTide p t r a b c d).i3cUp = s.i3cUp := by rw [State.raiseTide_eventOnly s p t r a b c d]
@[simp] theorem State.raiseTide_ready (s : State) (p t : Nat) (r : Bool) (a b c d : Nat) : (s.raiseTide p t r a b c d).ready = s.ready := by rw [State.raiseTide_eventOnly s p t r a b c d]
@[simp] theorem State.raiseTide_mbx (s : State) (p t : Nat) (r : Bool) (a b c d : Nat) : (s.raiseTide p t r a b c d).mbx = s.mbx := by rw [State.raiseTide_eventOnly s p t r a b c d]
@[simp] theorem State.raiseTide_doorOrder (s : State) (p t : Nat) (r : Bool) (a b c d : Nat) : (s.raiseTide p t r a b c d).doorOrder = s.doorOrder := by rw [State.raiseTide_eventOnly s p t r a b c d]
@[simp] theorem State.raiseTide_stages (s : State) (p t : Nat) (r : Bool) (a b c d : Nat) : (s.raiseTide p t r a b c d).stages = s.stages := by rw [State.raiseTide_eventOnly s p t r a b c d]
@[simp] theorem State.raiseTide_windows (s : State) (p t : Nat) (r : Bool) (a b c d : Nat) : (s.raiseTide p t r a b c d).windows = s.windows := by rw [State.raiseTide_eventOnly s p t r a b c d]
@[simp] theorem State.raiseTide_tiles (s : State) (p t : Nat) (r : Bool) (a b c d : Nat) : (s.raiseTide p t r a b c d).tiles = s.tiles := by rw [State.raiseTide_eventOnly s p t r a b c d]
@[simp] theorem State.raiseTide_clusters (s : State) (p t : Nat) (r : Bool) (a b c d : Nat) : (s.raiseTide p t r a b c d).clusters = s.clusters := by rw [State.raiseTide_eventOnly s p t r a b c d]
@[simp] theorem State.raiseTide_parts (s : State) (p t : Nat) (r : Bool) (a b c d : Nat) : (s.raiseTide p t r a b c d).parts = s.parts := by rw [State.raiseTide_eventOnly s p t r a b c d]
@[simp] theorem State.raiseTide_streams (s : State) (p t : Nat) (r : Bool) (a b c d : Nat) : (s.raiseTide p t r a b c d).streams = s.streams := by rw [State.raiseTide_eventOnly s p t r a b c d]
@[simp] theorem State.raiseTide_pages (s : State) (p t : Nat) (r : Bool) (a b c d : Nat) : (s.raiseTide p t r a b c d).pages = s.pages := by rw [State.raiseTide_eventOnly s p t r a b c d]
@[simp] theorem State.raiseTide_hbm (s : State) (p t : Nat) (r : Bool) (a b c d : Nat) : (s.raiseTide p t r a b c d).hbm = s.hbm := by rw [State.raiseTide_eventOnly s p t r a b c d]
@[simp] theorem State.raiseTide_cxl (s : State) (p t : Nat) (r : Bool) (a b c d : Nat) : (s.raiseTide p t r a b c d).cxl = s.cxl := by rw [State.raiseTide_eventOnly s p t r a b c d]
@[simp] theorem State.raiseTide_memports (s : State) (p t : Nat) (r : Bool) (a b c d : Nat) : (s.raiseTide p t r a b c d).memports = s.memports := by rw [State.raiseTide_eventOnly s p t r a b c d]
@[simp] theorem State.raiseTide_uio (s : State) (p t : Nat) (r : Bool) (a b c d : Nat) : (s.raiseTide p t r a b c d).uio = s.uio := by rw [State.raiseTide_eventOnly s p t r a b c d]
@[simp] theorem State.raiseTide_routers (s : State) (p t : Nat) (r : Bool) (a b c d : Nat) : (s.raiseTide p t r a b c d).routers = s.routers := by rw [State.raiseTide_eventOnly s p t r a b c d]
@[simp] theorem State.raiseTide_arrived (s : State) (p t : Nat) (r : Bool) (a b c d : Nat) : (s.raiseTide p t r a b c d).arrived = s.arrived := by rw [State.raiseTide_eventOnly s p t r a b c d]
@[simp] theorem State.raiseTide_edge (s : State) (p t : Nat) (r : Bool) (a b c d : Nat) : (s.raiseTide p t r a b c d).edge = s.edge := by rw [State.raiseTide_eventOnly s p t r a b c d]
@[simp] theorem State.raiseTide_disabled (s : State) (p t : Nat) (r : Bool) (a b c d : Nat) : (s.raiseTide p t r a b c d).disabled = s.disabled := by rw [State.raiseTide_eventOnly s p t r a b c d]
@[simp] theorem State.raiseTide_withdrawn (s : State) (p t : Nat) (r : Bool) (a b c d : Nat) : (s.raiseTide p t r a b c d).withdrawn = s.withdrawn := by rw [State.raiseTide_eventOnly s p t r a b c d]
@[simp] theorem State.raiseTide_baseFaults (s : State) (p t : Nat) (r : Bool) (a b c d : Nat) : (s.raiseTide p t r a b c d).baseFaults = s.baseFaults := by rw [State.raiseTide_eventOnly s p t r a b c d]
@[simp] theorem State.raiseTide_retired (s : State) (p t : Nat) (r : Bool) (a b c d : Nat) : (s.raiseTide p t r a b c d).retired = s.retired := by rw [State.raiseTide_eventOnly s p t r a b c d]
@[simp] theorem State.raiseTide_hports (s : State) (p t : Nat) (r : Bool) (a b c d : Nat) : (s.raiseTide p t r a b c d).hports = s.hports := by rw [State.raiseTide_eventOnly s p t r a b c d]
@[simp] theorem State.raiseTide_job (s : State) (p t : Nat) (r : Bool) (a b c d : Nat) : (s.raiseTide p t r a b c d).job = s.job := by rw [State.raiseTide_eventOnly s p t r a b c d]
@[simp] theorem State.raiseTide_power (s : State) (p t : Nat) (r : Bool) (a b c d : Nat) : (s.raiseTide p t r a b c d).power = s.power := by rw [State.raiseTide_eventOnly s p t r a b c d]
@[simp] theorem State.raiseTide_telemetryUs (s : State) (p t : Nat) (r : Bool) (a b c d : Nat) : (s.raiseTide p t r a b c d).telemetryUs = s.telemetryUs := by rw [State.raiseTide_eventOnly s p t r a b c d]
@[simp] theorem State.raiseTide_telemetryKinds (s : State) (p t : Nat) (r : Bool) (a b c d : Nat) : (s.raiseTide p t r a b c d).telemetryKinds = s.telemetryKinds := by rw [State.raiseTide_eventOnly s p t r a b c d]
@[simp] theorem State.raiseTide_pins (s : State) (p t : Nat) (r : Bool) (a b c d : Nat) : (s.raiseTide p t r a b c d).pins = s.pins := by rw [State.raiseTide_eventOnly s p t r a b c d]
@[simp] theorem State.raiseTide_observed (s : State) (p t : Nat) (r : Bool) (a b c d : Nat) : (s.raiseTide p t r a b c d).observed = s.observed := by rw [State.raiseTide_eventOnly s p t r a b c d]
@[simp] theorem State.raiseTide_dbg (s : State) (p t : Nat) (r : Bool) (a b c d : Nat) : (s.raiseTide p t r a b c d).dbg = s.dbg := by rw [State.raiseTide_eventOnly s p t r a b c d]
@[simp] theorem State.raiseTide_cv0 (s : State) (p t : Nat) (r : Bool) (a b c d : Nat) : (s.raiseTide p t r a b c d).cv0 = s.cv0 := by rw [State.raiseTide_eventOnly s p t r a b c d]
@[simp] theorem State.raiseTide_cv1 (s : State) (p t : Nat) (r : Bool) (a b c d : Nat) : (s.raiseTide p t r a b c d).cv1 = s.cv1 := by rw [State.raiseTide_eventOnly s p t r a b c d]
@[simp] theorem State.raiseTide_resets (s : State) (p t : Nat) (r : Bool) (a b c d : Nat) : (s.raiseTide p t r a b c d).resets = s.resets := by rw [State.raiseTide_eventOnly s p t r a b c d]
@[simp] theorem State.raiseTide_preparing (s : State) (p t : Nat) (r : Bool) (a b c d : Nat) : (s.raiseTide p t r a b c d).preparing = s.preparing := by rw [State.raiseTide_eventOnly s p t r a b c d]
@[simp] theorem State.raiseTide_removeReady (s : State) (p t : Nat) (r : Bool) (a b c d : Nat) : (s.raiseTide p t r a b c d).removeReady = s.removeReady := by rw [State.raiseTide_eventOnly s p t r a b c d]
@[simp] theorem State.raiseTide_parkedCount (s : State) (p t : Nat) (r : Bool) (a b c d : Nat) : (s.raiseTide p t r a b c d).parkedCount = s.parkedCount := by rw [State.raiseTide_eventOnly s p t r a b c d]
@[simp] theorem State.raiseTide_spdm (s : State) (p t : Nat) (r : Bool) (a b c d : Nat) : (s.raiseTide p t r a b c d).spdm = s.spdm := by rw [State.raiseTide_eventOnly s p t r a b c d]
@[simp] theorem State.raiseTide_doe (s : State) (p t : Nat) (r : Bool) (a b c d : Nat) : (s.raiseTide p t r a b c d).doe = s.doe := by rw [State.raiseTide_eventOnly s p t r a b c d]
@[simp] theorem State.raiseTide_i3c (s : State) (p t : Nat) (r : Bool) (a b c d : Nat) : (s.raiseTide p t r a b c d).i3c = s.i3c := by rw [State.raiseTide_eventOnly s p t r a b c d]
@[simp] theorem State.raiseTide_meshTraffic (s : State) (p t : Nat) (r : Bool) (a b c d : Nat) : (s.raiseTide p t r a b c d).meshTraffic = s.meshTraffic := by rw [State.raiseTide_eventOnly s p t r a b c d]
@[simp] theorem State.raiseTide_tile (s : State) (p t : Nat) (r : Bool) (a b c d : Nat) (j : Nat) : (s.raiseTide p t r a b c d).tile j = s.tile j := by
  rw [State.raiseTide_eventOnly s p t r a b c d]; rfl
@[simp] theorem State.raiseTide_cluster (s : State) (p t : Nat) (r : Bool) (a b c d : Nat) (j : Nat) : (s.raiseTide p t r a b c d).cluster j = s.cluster j := by
  rw [State.raiseTide_eventOnly s p t r a b c d]; rfl
@[simp] theorem State.raiseTide_part (s : State) (p t : Nat) (r : Bool) (a b c d : Nat) (j : Nat) : (s.raiseTide p t r a b c d).part j = s.part j := by
  rw [State.raiseTide_eventOnly s p t r a b c d]; rfl
@[simp] theorem State.raiseTide_stream (s : State) (p t : Nat) (r : Bool) (a b c d : Nat) (j : Nat) : (s.raiseTide p t r a b c d).stream j = s.stream j := by
  rw [State.raiseTide_eventOnly s p t r a b c d]; rfl
@[simp] theorem State.raiseTide_page (s : State) (p t : Nat) (r : Bool) (a b c d : Nat) (j : Nat) : (s.raiseTide p t r a b c d).page j = s.page j := by
  rw [State.raiseTide_eventOnly s p t r a b c d]; rfl
@[simp] theorem State.raiseTide_memport (s : State) (p t : Nat) (r : Bool) (a b c d : Nat) (j : Nat) : (s.raiseTide p t r a b c d).memport j = s.memport j := by
  rw [State.raiseTide_eventOnly s p t r a b c d]; rfl
@[simp] theorem State.raiseTide_router (s : State) (p t : Nat) (r : Bool) (a b c d : Nat) (j : Nat) : (s.raiseTide p t r a b c d).router j = s.router j := by
  rw [State.raiseTide_eventOnly s p t r a b c d]; rfl
@[simp] theorem State.raiseTide_hport (s : State) (p t : Nat) (r : Bool) (a b c d : Nat) (j : Nat) : (s.raiseTide p t r a b c d).hport j = s.hport j := by
  rw [State.raiseTide_eventOnly s p t r a b c d]; rfl
@[simp] theorem State.raiseTide_mb (s : State) (p t : Nat) (r : Bool) (a b c d : Nat) (j : Nat) : (s.raiseTide p t r a b c d).mb j = s.mb j := by
  rw [State.raiseTide_eventOnly s p t r a b c d]; rfl

@[simp] theorem State.raiseTile_pending (s : State) (t a b c : Nat) : (s.raiseTile t a b c).pending = s.pending := by rw [State.raiseTile_eventOnly s t a b c]
@[simp] theorem State.raiseTile_freeCtr (s : State) (t a b c : Nat) : (s.raiseTile t a b c).freeCtr = s.freeCtr := by rw [State.raiseTile_eventOnly s t a b c]
@[simp] theorem State.raiseTile_time (s : State) (t a b c : Nat) : (s.raiseTile t a b c).time = s.time := by rw [State.raiseTile_eventOnly s t a b c]
@[simp] theorem State.raiseTile_cc (s : State) (t a b c : Nat) : (s.raiseTile t a b c).cc = s.cc := by rw [State.raiseTile_eventOnly s t a b c]
@[simp] theorem State.raiseTile_tsStep (s : State) (t a b c : Nat) : (s.raiseTile t a b c).tsStep = s.tsStep := by rw [State.raiseTile_eventOnly s t a b c]
@[simp] theorem State.raiseTile_timeHi (s : State) (t a b c : Nat) : (s.raiseTile t a b c).timeHi = s.timeHi := by rw [State.raiseTile_eventOnly s t a b c]
@[simp] theorem State.raiseTile_heartbeatReg (s : State) (t a b c : Nat) : (s.raiseTile t a b c).heartbeatReg = s.heartbeatReg := by rw [State.raiseTile_eventOnly s t a b c]
@[simp] theorem State.raiseTile_freqWait (s : State) (t a b c : Nat) : (s.raiseTile t a b c).freqWait = s.freqWait := by rw [State.raiseTile_eventOnly s t a b c]
@[simp] theorem State.raiseTile_fwRestart (s : State) (t a b c : Nat) : (s.raiseTile t a b c).fwRestart = s.fwRestart := by rw [State.raiseTile_eventOnly s t a b c]
@[simp] theorem State.raiseTile_pinClock (s : State) (t a b c : Nat) : (s.raiseTile t a b c).pinClock = s.pinClock := by rw [State.raiseTile_eventOnly s t a b c]
@[simp] theorem State.raiseTile_scan (s : State) (t a b c : Nat) : (s.raiseTile t a b c).scan = s.scan := by rw [State.raiseTile_eventOnly s t a b c]
@[simp] theorem State.raiseTile_trainWait (s : State) (t a b c : Nat) : (s.raiseTile t a b c).trainWait = s.trainWait := by rw [State.raiseTile_eventOnly s t a b c]
@[simp] theorem State.raiseTile_heartbeatS (s : State) (t a b c : Nat) : (s.raiseTile t a b c).heartbeatS = s.heartbeatS := by rw [State.raiseTile_eventOnly s t a b c]
@[simp] theorem State.raiseTile_cmdsDone (s : State) (t a b c : Nat) : (s.raiseTile t a b c).cmdsDone = s.cmdsDone := by rw [State.raiseTile_eventOnly s t a b c]
@[simp] theorem State.raiseTile_lastRead (s : State) (t a b c : Nat) : (s.raiseTile t a b c).lastRead = s.lastRead := by rw [State.raiseTile_eventOnly s t a b c]
@[simp] theorem State.raiseTile_boot (s : State) (t a b c : Nat) : (s.raiseTile t a b c).boot = s.boot := by rw [State.raiseTile_eventOnly s t a b c]
@[simp] theorem State.raiseTile_fuses (s : State) (t a b c : Nat) : (s.raiseTile t a b c).fuses = s.fuses := by rw [State.raiseTile_eventOnly s t a b c]
@[simp] theorem State.raiseTile_fuseShown (s : State) (t a b c : Nat) : (s.raiseTile t a b c).fuseShown = s.fuseShown := by rw [State.raiseTile_eventOnly s t a b c]
@[simp] theorem State.raiseTile_fwShown (s : State) (t a b c : Nat) : (s.raiseTile t a b c).fwShown = s.fwShown := by rw [State.raiseTile_eventOnly s t a b c]
@[simp] theorem State.raiseTile_i3cUp (s : State) (t a b c : Nat) : (s.raiseTile t a b c).i3cUp = s.i3cUp := by rw [State.raiseTile_eventOnly s t a b c]
@[simp] theorem State.raiseTile_ready (s : State) (t a b c : Nat) : (s.raiseTile t a b c).ready = s.ready := by rw [State.raiseTile_eventOnly s t a b c]
@[simp] theorem State.raiseTile_mbx (s : State) (t a b c : Nat) : (s.raiseTile t a b c).mbx = s.mbx := by rw [State.raiseTile_eventOnly s t a b c]
@[simp] theorem State.raiseTile_doorOrder (s : State) (t a b c : Nat) : (s.raiseTile t a b c).doorOrder = s.doorOrder := by rw [State.raiseTile_eventOnly s t a b c]
@[simp] theorem State.raiseTile_stages (s : State) (t a b c : Nat) : (s.raiseTile t a b c).stages = s.stages := by rw [State.raiseTile_eventOnly s t a b c]
@[simp] theorem State.raiseTile_windows (s : State) (t a b c : Nat) : (s.raiseTile t a b c).windows = s.windows := by rw [State.raiseTile_eventOnly s t a b c]
@[simp] theorem State.raiseTile_tiles (s : State) (t a b c : Nat) : (s.raiseTile t a b c).tiles = s.tiles := by rw [State.raiseTile_eventOnly s t a b c]
@[simp] theorem State.raiseTile_clusters (s : State) (t a b c : Nat) : (s.raiseTile t a b c).clusters = s.clusters := by rw [State.raiseTile_eventOnly s t a b c]
@[simp] theorem State.raiseTile_parts (s : State) (t a b c : Nat) : (s.raiseTile t a b c).parts = s.parts := by rw [State.raiseTile_eventOnly s t a b c]
@[simp] theorem State.raiseTile_streams (s : State) (t a b c : Nat) : (s.raiseTile t a b c).streams = s.streams := by rw [State.raiseTile_eventOnly s t a b c]
@[simp] theorem State.raiseTile_pages (s : State) (t a b c : Nat) : (s.raiseTile t a b c).pages = s.pages := by rw [State.raiseTile_eventOnly s t a b c]
@[simp] theorem State.raiseTile_hbm (s : State) (t a b c : Nat) : (s.raiseTile t a b c).hbm = s.hbm := by rw [State.raiseTile_eventOnly s t a b c]
@[simp] theorem State.raiseTile_cxl (s : State) (t a b c : Nat) : (s.raiseTile t a b c).cxl = s.cxl := by rw [State.raiseTile_eventOnly s t a b c]
@[simp] theorem State.raiseTile_memports (s : State) (t a b c : Nat) : (s.raiseTile t a b c).memports = s.memports := by rw [State.raiseTile_eventOnly s t a b c]
@[simp] theorem State.raiseTile_uio (s : State) (t a b c : Nat) : (s.raiseTile t a b c).uio = s.uio := by rw [State.raiseTile_eventOnly s t a b c]
@[simp] theorem State.raiseTile_routers (s : State) (t a b c : Nat) : (s.raiseTile t a b c).routers = s.routers := by rw [State.raiseTile_eventOnly s t a b c]
@[simp] theorem State.raiseTile_arrived (s : State) (t a b c : Nat) : (s.raiseTile t a b c).arrived = s.arrived := by rw [State.raiseTile_eventOnly s t a b c]
@[simp] theorem State.raiseTile_edge (s : State) (t a b c : Nat) : (s.raiseTile t a b c).edge = s.edge := by rw [State.raiseTile_eventOnly s t a b c]
@[simp] theorem State.raiseTile_disabled (s : State) (t a b c : Nat) : (s.raiseTile t a b c).disabled = s.disabled := by rw [State.raiseTile_eventOnly s t a b c]
@[simp] theorem State.raiseTile_withdrawn (s : State) (t a b c : Nat) : (s.raiseTile t a b c).withdrawn = s.withdrawn := by rw [State.raiseTile_eventOnly s t a b c]
@[simp] theorem State.raiseTile_baseFaults (s : State) (t a b c : Nat) : (s.raiseTile t a b c).baseFaults = s.baseFaults := by rw [State.raiseTile_eventOnly s t a b c]
@[simp] theorem State.raiseTile_retired (s : State) (t a b c : Nat) : (s.raiseTile t a b c).retired = s.retired := by rw [State.raiseTile_eventOnly s t a b c]
@[simp] theorem State.raiseTile_hports (s : State) (t a b c : Nat) : (s.raiseTile t a b c).hports = s.hports := by rw [State.raiseTile_eventOnly s t a b c]
@[simp] theorem State.raiseTile_job (s : State) (t a b c : Nat) : (s.raiseTile t a b c).job = s.job := by rw [State.raiseTile_eventOnly s t a b c]
@[simp] theorem State.raiseTile_power (s : State) (t a b c : Nat) : (s.raiseTile t a b c).power = s.power := by rw [State.raiseTile_eventOnly s t a b c]
@[simp] theorem State.raiseTile_telemetryUs (s : State) (t a b c : Nat) : (s.raiseTile t a b c).telemetryUs = s.telemetryUs := by rw [State.raiseTile_eventOnly s t a b c]
@[simp] theorem State.raiseTile_telemetryKinds (s : State) (t a b c : Nat) : (s.raiseTile t a b c).telemetryKinds = s.telemetryKinds := by rw [State.raiseTile_eventOnly s t a b c]
@[simp] theorem State.raiseTile_pins (s : State) (t a b c : Nat) : (s.raiseTile t a b c).pins = s.pins := by rw [State.raiseTile_eventOnly s t a b c]
@[simp] theorem State.raiseTile_observed (s : State) (t a b c : Nat) : (s.raiseTile t a b c).observed = s.observed := by rw [State.raiseTile_eventOnly s t a b c]
@[simp] theorem State.raiseTile_dbg (s : State) (t a b c : Nat) : (s.raiseTile t a b c).dbg = s.dbg := by rw [State.raiseTile_eventOnly s t a b c]
@[simp] theorem State.raiseTile_cv0 (s : State) (t a b c : Nat) : (s.raiseTile t a b c).cv0 = s.cv0 := by rw [State.raiseTile_eventOnly s t a b c]
@[simp] theorem State.raiseTile_cv1 (s : State) (t a b c : Nat) : (s.raiseTile t a b c).cv1 = s.cv1 := by rw [State.raiseTile_eventOnly s t a b c]
@[simp] theorem State.raiseTile_resets (s : State) (t a b c : Nat) : (s.raiseTile t a b c).resets = s.resets := by rw [State.raiseTile_eventOnly s t a b c]
@[simp] theorem State.raiseTile_preparing (s : State) (t a b c : Nat) : (s.raiseTile t a b c).preparing = s.preparing := by rw [State.raiseTile_eventOnly s t a b c]
@[simp] theorem State.raiseTile_removeReady (s : State) (t a b c : Nat) : (s.raiseTile t a b c).removeReady = s.removeReady := by rw [State.raiseTile_eventOnly s t a b c]
@[simp] theorem State.raiseTile_parkedCount (s : State) (t a b c : Nat) : (s.raiseTile t a b c).parkedCount = s.parkedCount := by rw [State.raiseTile_eventOnly s t a b c]
@[simp] theorem State.raiseTile_spdm (s : State) (t a b c : Nat) : (s.raiseTile t a b c).spdm = s.spdm := by rw [State.raiseTile_eventOnly s t a b c]
@[simp] theorem State.raiseTile_doe (s : State) (t a b c : Nat) : (s.raiseTile t a b c).doe = s.doe := by rw [State.raiseTile_eventOnly s t a b c]
@[simp] theorem State.raiseTile_i3c (s : State) (t a b c : Nat) : (s.raiseTile t a b c).i3c = s.i3c := by rw [State.raiseTile_eventOnly s t a b c]
@[simp] theorem State.raiseTile_meshTraffic (s : State) (t a b c : Nat) : (s.raiseTile t a b c).meshTraffic = s.meshTraffic := by rw [State.raiseTile_eventOnly s t a b c]
@[simp] theorem State.raiseTile_tile (s : State) (t a b c : Nat) (j : Nat) : (s.raiseTile t a b c).tile j = s.tile j := by
  rw [State.raiseTile_eventOnly s t a b c]; rfl
@[simp] theorem State.raiseTile_cluster (s : State) (t a b c : Nat) (j : Nat) : (s.raiseTile t a b c).cluster j = s.cluster j := by
  rw [State.raiseTile_eventOnly s t a b c]; rfl
@[simp] theorem State.raiseTile_part (s : State) (t a b c : Nat) (j : Nat) : (s.raiseTile t a b c).part j = s.part j := by
  rw [State.raiseTile_eventOnly s t a b c]; rfl
@[simp] theorem State.raiseTile_stream (s : State) (t a b c : Nat) (j : Nat) : (s.raiseTile t a b c).stream j = s.stream j := by
  rw [State.raiseTile_eventOnly s t a b c]; rfl
@[simp] theorem State.raiseTile_page (s : State) (t a b c : Nat) (j : Nat) : (s.raiseTile t a b c).page j = s.page j := by
  rw [State.raiseTile_eventOnly s t a b c]; rfl
@[simp] theorem State.raiseTile_memport (s : State) (t a b c : Nat) (j : Nat) : (s.raiseTile t a b c).memport j = s.memport j := by
  rw [State.raiseTile_eventOnly s t a b c]; rfl
@[simp] theorem State.raiseTile_router (s : State) (t a b c : Nat) (j : Nat) : (s.raiseTile t a b c).router j = s.router j := by
  rw [State.raiseTile_eventOnly s t a b c]; rfl
@[simp] theorem State.raiseTile_hport (s : State) (t a b c : Nat) (j : Nat) : (s.raiseTile t a b c).hport j = s.hport j := by
  rw [State.raiseTile_eventOnly s t a b c]; rfl
@[simp] theorem State.raiseTile_mb (s : State) (t a b c : Nat) (j : Nat) : (s.raiseTile t a b c).mb j = s.mb j := by
  rw [State.raiseTile_eventOnly s t a b c]; rfl

@[simp] theorem State.msix_pending (s : State) (v : Nat) : (s.msix v).pending = s.pending := by rw [State.msix_eventOnly s v]
@[simp] theorem State.msix_freeCtr (s : State) (v : Nat) : (s.msix v).freeCtr = s.freeCtr := by rw [State.msix_eventOnly s v]
@[simp] theorem State.msix_time (s : State) (v : Nat) : (s.msix v).time = s.time := by rw [State.msix_eventOnly s v]
@[simp] theorem State.msix_cc (s : State) (v : Nat) : (s.msix v).cc = s.cc := by rw [State.msix_eventOnly s v]
@[simp] theorem State.msix_tsStep (s : State) (v : Nat) : (s.msix v).tsStep = s.tsStep := by rw [State.msix_eventOnly s v]
@[simp] theorem State.msix_timeHi (s : State) (v : Nat) : (s.msix v).timeHi = s.timeHi := by rw [State.msix_eventOnly s v]
@[simp] theorem State.msix_heartbeatReg (s : State) (v : Nat) : (s.msix v).heartbeatReg = s.heartbeatReg := by rw [State.msix_eventOnly s v]
@[simp] theorem State.msix_freqWait (s : State) (v : Nat) : (s.msix v).freqWait = s.freqWait := by rw [State.msix_eventOnly s v]
@[simp] theorem State.msix_fwRestart (s : State) (v : Nat) : (s.msix v).fwRestart = s.fwRestart := by rw [State.msix_eventOnly s v]
@[simp] theorem State.msix_pinClock (s : State) (v : Nat) : (s.msix v).pinClock = s.pinClock := by rw [State.msix_eventOnly s v]
@[simp] theorem State.msix_scan (s : State) (v : Nat) : (s.msix v).scan = s.scan := by rw [State.msix_eventOnly s v]
@[simp] theorem State.msix_trainWait (s : State) (v : Nat) : (s.msix v).trainWait = s.trainWait := by rw [State.msix_eventOnly s v]
@[simp] theorem State.msix_heartbeatS (s : State) (v : Nat) : (s.msix v).heartbeatS = s.heartbeatS := by rw [State.msix_eventOnly s v]
@[simp] theorem State.msix_cmdsDone (s : State) (v : Nat) : (s.msix v).cmdsDone = s.cmdsDone := by rw [State.msix_eventOnly s v]
@[simp] theorem State.msix_lastRead (s : State) (v : Nat) : (s.msix v).lastRead = s.lastRead := by rw [State.msix_eventOnly s v]
@[simp] theorem State.msix_boot (s : State) (v : Nat) : (s.msix v).boot = s.boot := by rw [State.msix_eventOnly s v]
@[simp] theorem State.msix_fuses (s : State) (v : Nat) : (s.msix v).fuses = s.fuses := by rw [State.msix_eventOnly s v]
@[simp] theorem State.msix_fuseShown (s : State) (v : Nat) : (s.msix v).fuseShown = s.fuseShown := by rw [State.msix_eventOnly s v]
@[simp] theorem State.msix_fwShown (s : State) (v : Nat) : (s.msix v).fwShown = s.fwShown := by rw [State.msix_eventOnly s v]
@[simp] theorem State.msix_i3cUp (s : State) (v : Nat) : (s.msix v).i3cUp = s.i3cUp := by rw [State.msix_eventOnly s v]
@[simp] theorem State.msix_ready (s : State) (v : Nat) : (s.msix v).ready = s.ready := by rw [State.msix_eventOnly s v]
@[simp] theorem State.msix_mbx (s : State) (v : Nat) : (s.msix v).mbx = s.mbx := by rw [State.msix_eventOnly s v]
@[simp] theorem State.msix_doorOrder (s : State) (v : Nat) : (s.msix v).doorOrder = s.doorOrder := by rw [State.msix_eventOnly s v]
@[simp] theorem State.msix_stages (s : State) (v : Nat) : (s.msix v).stages = s.stages := by rw [State.msix_eventOnly s v]
@[simp] theorem State.msix_windows (s : State) (v : Nat) : (s.msix v).windows = s.windows := by rw [State.msix_eventOnly s v]
@[simp] theorem State.msix_tiles (s : State) (v : Nat) : (s.msix v).tiles = s.tiles := by rw [State.msix_eventOnly s v]
@[simp] theorem State.msix_clusters (s : State) (v : Nat) : (s.msix v).clusters = s.clusters := by rw [State.msix_eventOnly s v]
@[simp] theorem State.msix_parts (s : State) (v : Nat) : (s.msix v).parts = s.parts := by rw [State.msix_eventOnly s v]
@[simp] theorem State.msix_streams (s : State) (v : Nat) : (s.msix v).streams = s.streams := by rw [State.msix_eventOnly s v]
@[simp] theorem State.msix_pages (s : State) (v : Nat) : (s.msix v).pages = s.pages := by rw [State.msix_eventOnly s v]
@[simp] theorem State.msix_hbm (s : State) (v : Nat) : (s.msix v).hbm = s.hbm := by rw [State.msix_eventOnly s v]
@[simp] theorem State.msix_cxl (s : State) (v : Nat) : (s.msix v).cxl = s.cxl := by rw [State.msix_eventOnly s v]
@[simp] theorem State.msix_memports (s : State) (v : Nat) : (s.msix v).memports = s.memports := by rw [State.msix_eventOnly s v]
@[simp] theorem State.msix_uio (s : State) (v : Nat) : (s.msix v).uio = s.uio := by rw [State.msix_eventOnly s v]
@[simp] theorem State.msix_routers (s : State) (v : Nat) : (s.msix v).routers = s.routers := by rw [State.msix_eventOnly s v]
@[simp] theorem State.msix_arrived (s : State) (v : Nat) : (s.msix v).arrived = s.arrived := by rw [State.msix_eventOnly s v]
@[simp] theorem State.msix_edge (s : State) (v : Nat) : (s.msix v).edge = s.edge := by rw [State.msix_eventOnly s v]
@[simp] theorem State.msix_disabled (s : State) (v : Nat) : (s.msix v).disabled = s.disabled := by rw [State.msix_eventOnly s v]
@[simp] theorem State.msix_withdrawn (s : State) (v : Nat) : (s.msix v).withdrawn = s.withdrawn := by rw [State.msix_eventOnly s v]
@[simp] theorem State.msix_baseFaults (s : State) (v : Nat) : (s.msix v).baseFaults = s.baseFaults := by rw [State.msix_eventOnly s v]
@[simp] theorem State.msix_retired (s : State) (v : Nat) : (s.msix v).retired = s.retired := by rw [State.msix_eventOnly s v]
@[simp] theorem State.msix_hports (s : State) (v : Nat) : (s.msix v).hports = s.hports := by rw [State.msix_eventOnly s v]
@[simp] theorem State.msix_job (s : State) (v : Nat) : (s.msix v).job = s.job := by rw [State.msix_eventOnly s v]
@[simp] theorem State.msix_power (s : State) (v : Nat) : (s.msix v).power = s.power := by rw [State.msix_eventOnly s v]
@[simp] theorem State.msix_telemetryUs (s : State) (v : Nat) : (s.msix v).telemetryUs = s.telemetryUs := by rw [State.msix_eventOnly s v]
@[simp] theorem State.msix_telemetryKinds (s : State) (v : Nat) : (s.msix v).telemetryKinds = s.telemetryKinds := by rw [State.msix_eventOnly s v]
@[simp] theorem State.msix_pins (s : State) (v : Nat) : (s.msix v).pins = s.pins := by rw [State.msix_eventOnly s v]
@[simp] theorem State.msix_observed (s : State) (v : Nat) : (s.msix v).observed = s.observed := by rw [State.msix_eventOnly s v]
@[simp] theorem State.msix_dbg (s : State) (v : Nat) : (s.msix v).dbg = s.dbg := by rw [State.msix_eventOnly s v]
@[simp] theorem State.msix_cv0 (s : State) (v : Nat) : (s.msix v).cv0 = s.cv0 := by rw [State.msix_eventOnly s v]
@[simp] theorem State.msix_cv1 (s : State) (v : Nat) : (s.msix v).cv1 = s.cv1 := by rw [State.msix_eventOnly s v]
@[simp] theorem State.msix_resets (s : State) (v : Nat) : (s.msix v).resets = s.resets := by rw [State.msix_eventOnly s v]
@[simp] theorem State.msix_preparing (s : State) (v : Nat) : (s.msix v).preparing = s.preparing := by rw [State.msix_eventOnly s v]
@[simp] theorem State.msix_removeReady (s : State) (v : Nat) : (s.msix v).removeReady = s.removeReady := by rw [State.msix_eventOnly s v]
@[simp] theorem State.msix_parkedCount (s : State) (v : Nat) : (s.msix v).parkedCount = s.parkedCount := by rw [State.msix_eventOnly s v]
@[simp] theorem State.msix_spdm (s : State) (v : Nat) : (s.msix v).spdm = s.spdm := by rw [State.msix_eventOnly s v]
@[simp] theorem State.msix_doe (s : State) (v : Nat) : (s.msix v).doe = s.doe := by rw [State.msix_eventOnly s v]
@[simp] theorem State.msix_i3c (s : State) (v : Nat) : (s.msix v).i3c = s.i3c := by rw [State.msix_eventOnly s v]
@[simp] theorem State.msix_meshTraffic (s : State) (v : Nat) : (s.msix v).meshTraffic = s.meshTraffic := by rw [State.msix_eventOnly s v]
@[simp] theorem State.msix_tile (s : State) (v : Nat) (j : Nat) : (s.msix v).tile j = s.tile j := by
  rw [State.msix_eventOnly s v]; rfl
@[simp] theorem State.msix_cluster (s : State) (v : Nat) (j : Nat) : (s.msix v).cluster j = s.cluster j := by
  rw [State.msix_eventOnly s v]; rfl
@[simp] theorem State.msix_part (s : State) (v : Nat) (j : Nat) : (s.msix v).part j = s.part j := by
  rw [State.msix_eventOnly s v]; rfl
@[simp] theorem State.msix_stream (s : State) (v : Nat) (j : Nat) : (s.msix v).stream j = s.stream j := by
  rw [State.msix_eventOnly s v]; rfl
@[simp] theorem State.msix_page (s : State) (v : Nat) (j : Nat) : (s.msix v).page j = s.page j := by
  rw [State.msix_eventOnly s v]; rfl
@[simp] theorem State.msix_memport (s : State) (v : Nat) (j : Nat) : (s.msix v).memport j = s.memport j := by
  rw [State.msix_eventOnly s v]; rfl
@[simp] theorem State.msix_router (s : State) (v : Nat) (j : Nat) : (s.msix v).router j = s.router j := by
  rw [State.msix_eventOnly s v]; rfl
@[simp] theorem State.msix_hport (s : State) (v : Nat) (j : Nat) : (s.msix v).hport j = s.hport j := by
  rw [State.msix_eventOnly s v]; rfl
@[simp] theorem State.msix_mb (s : State) (v : Nat) (j : Nat) : (s.msix v).mb j = s.mb j := by
  rw [State.msix_eventOnly s v]; rfl

/-- Recording a fault against a tide changes its partition alone. -/
theorem State.addCause_frame (s : State) (p : Nat) (c : FaultCause) :
    s.addCause p c = { s with parts := (s.addCause p c).parts } := by
  unfold State.addCause
  split <;> rfl

@[simp] theorem State.addCause_pending (s : State) (p : Nat) (c : FaultCause) : (s.addCause p c).pending = s.pending := by rw [State.addCause_frame]
@[simp] theorem State.addCause_freeCtr (s : State) (p : Nat) (c : FaultCause) : (s.addCause p c).freeCtr = s.freeCtr := by rw [State.addCause_frame]
@[simp] theorem State.addCause_time (s : State) (p : Nat) (c : FaultCause) : (s.addCause p c).time = s.time := by rw [State.addCause_frame]
@[simp] theorem State.addCause_cc (s : State) (p : Nat) (c : FaultCause) : (s.addCause p c).cc = s.cc := by rw [State.addCause_frame]
@[simp] theorem State.addCause_tsStep (s : State) (p : Nat) (c : FaultCause) : (s.addCause p c).tsStep = s.tsStep := by rw [State.addCause_frame]
@[simp] theorem State.addCause_timeHi (s : State) (p : Nat) (c : FaultCause) : (s.addCause p c).timeHi = s.timeHi := by rw [State.addCause_frame]
@[simp] theorem State.addCause_heartbeatReg (s : State) (p : Nat) (c : FaultCause) : (s.addCause p c).heartbeatReg = s.heartbeatReg := by rw [State.addCause_frame]
@[simp] theorem State.addCause_freqWait (s : State) (p : Nat) (c : FaultCause) : (s.addCause p c).freqWait = s.freqWait := by rw [State.addCause_frame]
@[simp] theorem State.addCause_fwRestart (s : State) (p : Nat) (c : FaultCause) : (s.addCause p c).fwRestart = s.fwRestart := by rw [State.addCause_frame]
@[simp] theorem State.addCause_pinClock (s : State) (p : Nat) (c : FaultCause) : (s.addCause p c).pinClock = s.pinClock := by rw [State.addCause_frame]
@[simp] theorem State.addCause_scan (s : State) (p : Nat) (c : FaultCause) : (s.addCause p c).scan = s.scan := by rw [State.addCause_frame]
@[simp] theorem State.addCause_trainWait (s : State) (p : Nat) (c : FaultCause) : (s.addCause p c).trainWait = s.trainWait := by rw [State.addCause_frame]
@[simp] theorem State.addCause_heartbeatS (s : State) (p : Nat) (c : FaultCause) : (s.addCause p c).heartbeatS = s.heartbeatS := by rw [State.addCause_frame]
@[simp] theorem State.addCause_cmdsDone (s : State) (p : Nat) (c : FaultCause) : (s.addCause p c).cmdsDone = s.cmdsDone := by rw [State.addCause_frame]
@[simp] theorem State.addCause_posted (s : State) (p : Nat) (c : FaultCause) : (s.addCause p c).posted = s.posted := by rw [State.addCause_frame]
@[simp] theorem State.addCause_lastRead (s : State) (p : Nat) (c : FaultCause) : (s.addCause p c).lastRead = s.lastRead := by rw [State.addCause_frame]
@[simp] theorem State.addCause_eventCount (s : State) (p : Nat) (c : FaultCause) : (s.addCause p c).eventCount = s.eventCount := by rw [State.addCause_frame]
@[simp] theorem State.addCause_boot (s : State) (p : Nat) (c : FaultCause) : (s.addCause p c).boot = s.boot := by rw [State.addCause_frame]
@[simp] theorem State.addCause_fuses (s : State) (p : Nat) (c : FaultCause) : (s.addCause p c).fuses = s.fuses := by rw [State.addCause_frame]
@[simp] theorem State.addCause_fuseShown (s : State) (p : Nat) (c : FaultCause) : (s.addCause p c).fuseShown = s.fuseShown := by rw [State.addCause_frame]
@[simp] theorem State.addCause_fwShown (s : State) (p : Nat) (c : FaultCause) : (s.addCause p c).fwShown = s.fwShown := by rw [State.addCause_frame]
@[simp] theorem State.addCause_i3cUp (s : State) (p : Nat) (c : FaultCause) : (s.addCause p c).i3cUp = s.i3cUp := by rw [State.addCause_frame]
@[simp] theorem State.addCause_ready (s : State) (p : Nat) (c : FaultCause) : (s.addCause p c).ready = s.ready := by rw [State.addCause_frame]
@[simp] theorem State.addCause_flash (s : State) (p : Nat) (c : FaultCause) : (s.addCause p c).flash = s.flash := by rw [State.addCause_frame]
@[simp] theorem State.addCause_link (s : State) (p : Nat) (c : FaultCause) : (s.addCause p c).link = s.link := by rw [State.addCause_frame]
@[simp] theorem State.addCause_evr (s : State) (p : Nat) (c : FaultCause) : (s.addCause p c).evr = s.evr := by rw [State.addCause_frame]
@[simp] theorem State.addCause_tlr (s : State) (p : Nat) (c : FaultCause) : (s.addCause p c).tlr = s.tlr := by rw [State.addCause_frame]
@[simp] theorem State.addCause_bb (s : State) (p : Nat) (c : FaultCause) : (s.addCause p c).bb = s.bb := by rw [State.addCause_frame]
@[simp] theorem State.addCause_mbx (s : State) (p : Nat) (c : FaultCause) : (s.addCause p c).mbx = s.mbx := by rw [State.addCause_frame]
@[simp] theorem State.addCause_doorOrder (s : State) (p : Nat) (c : FaultCause) : (s.addCause p c).doorOrder = s.doorOrder := by rw [State.addCause_frame]
@[simp] theorem State.addCause_stages (s : State) (p : Nat) (c : FaultCause) : (s.addCause p c).stages = s.stages := by rw [State.addCause_frame]
@[simp] theorem State.addCause_windows (s : State) (p : Nat) (c : FaultCause) : (s.addCause p c).windows = s.windows := by rw [State.addCause_frame]
@[simp] theorem State.addCause_tiles (s : State) (p : Nat) (c : FaultCause) : (s.addCause p c).tiles = s.tiles := by rw [State.addCause_frame]
@[simp] theorem State.addCause_clusters (s : State) (p : Nat) (c : FaultCause) : (s.addCause p c).clusters = s.clusters := by rw [State.addCause_frame]
@[simp] theorem State.addCause_streams (s : State) (p : Nat) (c : FaultCause) : (s.addCause p c).streams = s.streams := by rw [State.addCause_frame]
@[simp] theorem State.addCause_pages (s : State) (p : Nat) (c : FaultCause) : (s.addCause p c).pages = s.pages := by rw [State.addCause_frame]
@[simp] theorem State.addCause_hbm (s : State) (p : Nat) (c : FaultCause) : (s.addCause p c).hbm = s.hbm := by rw [State.addCause_frame]
@[simp] theorem State.addCause_cxl (s : State) (p : Nat) (c : FaultCause) : (s.addCause p c).cxl = s.cxl := by rw [State.addCause_frame]
@[simp] theorem State.addCause_memports (s : State) (p : Nat) (c : FaultCause) : (s.addCause p c).memports = s.memports := by rw [State.addCause_frame]
@[simp] theorem State.addCause_uio (s : State) (p : Nat) (c : FaultCause) : (s.addCause p c).uio = s.uio := by rw [State.addCause_frame]
@[simp] theorem State.addCause_routers (s : State) (p : Nat) (c : FaultCause) : (s.addCause p c).routers = s.routers := by rw [State.addCause_frame]
@[simp] theorem State.addCause_arrived (s : State) (p : Nat) (c : FaultCause) : (s.addCause p c).arrived = s.arrived := by rw [State.addCause_frame]
@[simp] theorem State.addCause_edge (s : State) (p : Nat) (c : FaultCause) : (s.addCause p c).edge = s.edge := by rw [State.addCause_frame]
@[simp] theorem State.addCause_disabled (s : State) (p : Nat) (c : FaultCause) : (s.addCause p c).disabled = s.disabled := by rw [State.addCause_frame]
@[simp] theorem State.addCause_withdrawn (s : State) (p : Nat) (c : FaultCause) : (s.addCause p c).withdrawn = s.withdrawn := by rw [State.addCause_frame]
@[simp] theorem State.addCause_baseFaults (s : State) (p : Nat) (c : FaultCause) : (s.addCause p c).baseFaults = s.baseFaults := by rw [State.addCause_frame]
@[simp] theorem State.addCause_retired (s : State) (p : Nat) (c : FaultCause) : (s.addCause p c).retired = s.retired := by rw [State.addCause_frame]
@[simp] theorem State.addCause_hports (s : State) (p : Nat) (c : FaultCause) : (s.addCause p c).hports = s.hports := by rw [State.addCause_frame]
@[simp] theorem State.addCause_job (s : State) (p : Nat) (c : FaultCause) : (s.addCause p c).job = s.job := by rw [State.addCause_frame]
@[simp] theorem State.addCause_power (s : State) (p : Nat) (c : FaultCause) : (s.addCause p c).power = s.power := by rw [State.addCause_frame]
@[simp] theorem State.addCause_telemetryUs (s : State) (p : Nat) (c : FaultCause) : (s.addCause p c).telemetryUs = s.telemetryUs := by rw [State.addCause_frame]
@[simp] theorem State.addCause_telemetryKinds (s : State) (p : Nat) (c : FaultCause) : (s.addCause p c).telemetryKinds = s.telemetryKinds := by rw [State.addCause_frame]
@[simp] theorem State.addCause_pins (s : State) (p : Nat) (c : FaultCause) : (s.addCause p c).pins = s.pins := by rw [State.addCause_frame]
@[simp] theorem State.addCause_observed (s : State) (p : Nat) (c : FaultCause) : (s.addCause p c).observed = s.observed := by rw [State.addCause_frame]
@[simp] theorem State.addCause_dbg (s : State) (p : Nat) (c : FaultCause) : (s.addCause p c).dbg = s.dbg := by rw [State.addCause_frame]
@[simp] theorem State.addCause_cv0 (s : State) (p : Nat) (c : FaultCause) : (s.addCause p c).cv0 = s.cv0 := by rw [State.addCause_frame]
@[simp] theorem State.addCause_cv1 (s : State) (p : Nat) (c : FaultCause) : (s.addCause p c).cv1 = s.cv1 := by rw [State.addCause_frame]
@[simp] theorem State.addCause_resets (s : State) (p : Nat) (c : FaultCause) : (s.addCause p c).resets = s.resets := by rw [State.addCause_frame]
@[simp] theorem State.addCause_preparing (s : State) (p : Nat) (c : FaultCause) : (s.addCause p c).preparing = s.preparing := by rw [State.addCause_frame]
@[simp] theorem State.addCause_removeReady (s : State) (p : Nat) (c : FaultCause) : (s.addCause p c).removeReady = s.removeReady := by rw [State.addCause_frame]
@[simp] theorem State.addCause_parkedCount (s : State) (p : Nat) (c : FaultCause) : (s.addCause p c).parkedCount = s.parkedCount := by rw [State.addCause_frame]
@[simp] theorem State.addCause_spdm (s : State) (p : Nat) (c : FaultCause) : (s.addCause p c).spdm = s.spdm := by rw [State.addCause_frame]
@[simp] theorem State.addCause_doe (s : State) (p : Nat) (c : FaultCause) : (s.addCause p c).doe = s.doe := by rw [State.addCause_frame]
@[simp] theorem State.addCause_i3c (s : State) (p : Nat) (c : FaultCause) : (s.addCause p c).i3c = s.i3c := by rw [State.addCause_frame]
@[simp] theorem State.addCause_meshTraffic (s : State) (p : Nat) (c : FaultCause) : (s.addCause p c).meshTraffic = s.meshTraffic := by rw [State.addCause_frame]
@[simp] theorem State.addCause_tile (s : State) (p : Nat) (c : FaultCause) (j : Nat) : (s.addCause p c).tile j = s.tile j := by
  rw [State.addCause_frame]; rfl
@[simp] theorem State.addCause_cluster (s : State) (p : Nat) (c : FaultCause) (j : Nat) : (s.addCause p c).cluster j = s.cluster j := by
  rw [State.addCause_frame]; rfl
@[simp] theorem State.addCause_stream (s : State) (p : Nat) (c : FaultCause) (j : Nat) : (s.addCause p c).stream j = s.stream j := by
  rw [State.addCause_frame]; rfl
@[simp] theorem State.addCause_page (s : State) (p : Nat) (c : FaultCause) (j : Nat) : (s.addCause p c).page j = s.page j := by
  rw [State.addCause_frame]; rfl
@[simp] theorem State.addCause_memport (s : State) (p : Nat) (c : FaultCause) (j : Nat) : (s.addCause p c).memport j = s.memport j := by
  rw [State.addCause_frame]; rfl
@[simp] theorem State.addCause_router (s : State) (p : Nat) (c : FaultCause) (j : Nat) : (s.addCause p c).router j = s.router j := by
  rw [State.addCause_frame]; rfl
@[simp] theorem State.addCause_hport (s : State) (p : Nat) (c : FaultCause) (j : Nat) : (s.addCause p c).hport j = s.hport j := by
  rw [State.addCause_frame]; rfl
@[simp] theorem State.addCause_mb (s : State) (p : Nat) (c : FaultCause) (j : Nat) : (s.addCause p c).mb j = s.mb j := by
  rw [State.addCause_frame]; rfl

/-- A fault recorded while a tide runs: the bell rings and the cause stands by its kind (R204, R216). -/
theorem State.addCause_running (s : State) (p : Nat) (c : FaultCause) (h : running (s.part p).st = true) :
    (s.addCause p c).part p = { s.part p with cause := worse (s.part p).cause (s.ranked p c)
                                              causes := (s.part p).causes ++ [s.ranked p c], faultBell := true } := by
  simp [State.addCause, h]

end Sys2Proof.Machine
end

