-- ==== Sys2Proof/Laws/Memory.lean ====
section
/-!
SUPPORT. The byte memories: a read after a write, and that every memory operation keeps the canonical form `Memory.wf`
(addresses strictly rising, no zero byte listed).
-/

namespace Sys2Proof.Machine

theorem memWfFrom_mono {lo hi : Nat} (h : lo ≤ hi) : ∀ {m : List Host.Cell}, memWfFrom hi m = true → memWfFrom lo m = true
  | [], _ => rfl
  | (_, _) :: _, w => by
    simp only [memWfFrom, Bool.and_eq_true, decide_eq_true_eq] at w ⊢
    exact ⟨⟨Nat.le_trans h w.1.1, w.1.2⟩, w.2⟩

/-- Below its first address a canonical memory reads 0. -/
theorem memGet_below : ∀ {m : List Host.Cell} {lo a : Nat}, memWfFrom lo m = true → a < lo → memGet m a = 0
  | [], _, _, _, _ => rfl
  | (i, _) :: _, _, _, w, h => by
    simp only [memWfFrom, Bool.and_eq_true, decide_eq_true_eq] at w
    have hi : i ≠ _ := Nat.ne_of_gt (Nat.lt_of_lt_of_le h w.1.1)
    simp only [memGet, hi, if_false]
    exact memGet_below w.2 (by omega)

theorem memSet_wfFrom : ∀ {m : List Host.Cell} {lo a : Nat} (v : Byte), memWfFrom lo m = true → lo ≤ a →
    memWfFrom lo (memSet m a v) = true
  | [], _, _, v, _, h => by
    simp only [memSet]
    split <;> simp_all [memWfFrom]
  | (i, w) :: r, lo, a, v, hw, h => by
    simp only [memWfFrom, Bool.and_eq_true, decide_eq_true_eq] at hw
    simp only [memSet]
    split
    · subst_vars
      split
      · exact memWfFrom_mono (by omega) hw.2
      · simp_all [memWfFrom]
    · split
      · split
        · simp_all [memWfFrom]
        · simp only [memWfFrom, Bool.and_eq_true, decide_eq_true_eq]
          exact ⟨⟨h, by assumption⟩, ⟨by omega, hw.1.2⟩, hw.2⟩
      · simp only [memWfFrom, Bool.and_eq_true, decide_eq_true_eq]
        exact ⟨hw.1, memSet_wfFrom v hw.2 (by omega)⟩

/-- A byte write keeps the canonical form. -/
theorem memSet_wf {m : List Host.Cell} (a : Nat) (v : Byte) (h : Memory.wf m = true) : Memory.wf (memSet m a v) = true :=
  memSet_wfFrom v h (Nat.zero_le a)

theorem memGet_memSet_from : ∀ {m : List Host.Cell} {lo : Nat} (a : Nat) (v : Byte), memWfFrom lo m = true → lo ≤ a →
    ∀ b, memGet (memSet m a v) b = if b = a then v else memGet m b
  | [], _, a, v, _, _, b => by
    simp only [memSet]
    by_cases hv : v = 0 <;> by_cases hb : b = a
    · simp [memGet, hv]
    · simp [memGet, hv]
    · rw [if_neg hv]; simp [memGet, hb]
    · rw [if_neg hv]; simp [memGet, hb, Ne.symm hb]
  | (i, w) :: r, lo, a, v, hw, h, b => by
    simp only [memWfFrom, Bool.and_eq_true, decide_eq_true_eq] at hw
    simp only [memSet]
    split
    · subst_vars
      split
      · subst_vars
        by_cases hb : b = a
        · subst hb; simp [memGet_below hw.2 (by omega : b < b + 1)]
        · simp [memGet, hb, Ne.symm hb]
      · by_cases hb : b = a
        · simp [memGet, hb]
        · simp [memGet, hb, Ne.symm hb]
    · rename_i hia
      split
      · rename_i hlt
        split
        · subst_vars
          by_cases hb : b = a
          · subst hb
            have : memWfFrom i ((i, w) :: r) = true := by simpa [memWfFrom, hw.2] using hw.1.2
            simp [memGet_below this hlt]
          · simp [hb]
        · by_cases hb : b = a
          · simp [memGet, hb]
          · simp [memGet, hb, Ne.symm hb]
      · have ih := memGet_memSet_from a v hw.2 (by omega) b
        simp only [memGet, ih]
        by_cases hb : b = a
        · subst hb; simp [hia]
        · simp [hb]

/-- A read after a byte write. -/
theorem memGet_memSet {m : List Host.Cell} (h : Memory.wf m = true) (a : Nat) (v : Byte) (b : Nat) :
    memGet (memSet m a v) b = if b = a then v else memGet m b :=
  memGet_memSet_from a v h (Nat.zero_le a) b

/-- A run of bytes written keeps the canonical form. -/
theorem memPut_wf : ∀ (l : List Byte) {m : List Host.Cell} (a : Nat), Memory.wf m = true → Memory.wf (memPut m a l) = true
  | [], _, _, h => h
  | b :: r, _, a, h => memPut_wf r (a + 1) (memSet_wf a b h)

/-- A read after a run of bytes was written from `a` up. -/
theorem memGet_memPut : ∀ (l : List Byte) {m : List Host.Cell} (a b : Nat), Memory.wf m = true →
    memGet (memPut m a l) b = if a ≤ b ∧ b < a + l.length then l.getD (b - a) 0 else memGet m b
  | [], m, a, b, _ => by
    have : ¬ (a ≤ b ∧ b < a + ([] : List Byte).length) := by simp
    simp only [memPut, this, if_false]
  | x :: r, m, a, b, h => by
    rw [memPut, memGet_memPut r (a + 1) b (memSet_wf a x h), memGet_memSet h]
    simp only [List.length_cons]
    by_cases hb : b = a
    · subst hb
      have : ¬ (b + 1 ≤ b ∧ b < b + 1 + r.length) := by omega
      simp only [this, if_false, if_true]
      have h2 : b ≤ b ∧ b < b + (r.length + 1) := by omega
      simp [h2]
    · by_cases hc : a + 1 ≤ b ∧ b < a + 1 + r.length
      · have h2 : a ≤ b ∧ b < a + (r.length + 1) := by omega
        simp only [hc, h2, if_true, and_self]
        have : b - a = (b - (a + 1)) + 1 := by omega
        simp [this]
      · have h2 : ¬ (a ≤ b ∧ b < a + (r.length + 1)) := by omega
        simp only [hc, h2, if_false, hb]

/-- A word written keeps the canonical form. -/
theorem putWord_wf {m : List Host.Cell} (w : Nat) (v : Word) (h : Memory.wf m = true) : Memory.wf (putWord m w v) = true :=
  memPut_wf _ _ h

theorem leBytes_length : ∀ (n v : Nat), (leBytes n v).length = n
  | 0, _ => rfl
  | n + 1, v => by simp [leBytes, leBytes_length n]

theorem leNat_leBytes : ∀ (n v : Nat), v < 256 ^ n → leNat (leBytes n v) = v
  | 0, v, h => by simp at h; simp [leBytes, leNat, h]
  | n + 1, v, h => by
    have h2 : v / 256 < 256 ^ n := by
      rw [Nat.pow_succ] at h
      exact Nat.div_lt_of_lt_mul (by omega)
    have : (2 : Nat) ^ 8 = 256 := by decide
    simp only [leBytes, leNat, leNat_leBytes n _ h2, BitVec.toNat_ofNat, this]
    omega

theorem memBytes_memPut (l : List Byte) {m : List Host.Cell} (a : Nat) (h : Memory.wf m = true) :
    memBytes (memPut m a l) a l.length = l := by
  apply List.ext_getElem
  · simp [memBytes]
  · intro i h1 h2
    simp only [memBytes, List.getElem_map, List.getElem_range]
    rw [memGet_memPut l a (a + i) h]
    have : a ≤ a + i ∧ a + i < a + l.length := ⟨by omega, by omega⟩
    simp [this, h2]

/-- A word read after it was written. -/
theorem wordAt_putWord_self {m : List Host.Cell} (w : Nat) (v : Word) (h : Memory.wf m = true) :
    wordAt (putWord m w v) w = v := by
  have hb := memBytes_memPut (leBytes 4 v.toNat) (4 * w) h
  rw [leBytes_length] at hb
  unfold wordAt putWord
  rw [hb, leNat_leBytes 4 _ (by have := v.isLt; omega)]
  simp

/-- Another word is left alone. -/
theorem wordAt_putWord_ne {m : List Host.Cell} {w u : Nat} (v : Word) (h : Memory.wf m = true) (hu : u ≠ w) :
    wordAt (putWord m w v) u = wordAt m u := by
  have : memBytes (putWord m w v) (4 * u) 4 = memBytes m (4 * u) 4 := by
    apply List.map_congr_left
    intro i hi
    simp only [List.mem_range] at hi
    rw [putWord, memGet_memPut _ _ _ h, leBytes_length]
    have : ¬ (4 * w ≤ 4 * u + i ∧ 4 * u + i < 4 * w + 4) := by omega
    simp only [this, if_false]
  unfold wordAt
  rw [this]

/-- A line's bookkeeping leaves the words alone. -/
@[simp] theorem Tile.lineWritten_mem (x : Tile) (l : Nat) : (x.lineWritten l).mem = x.mem := by
  unfold Tile.lineWritten; dsimp only; split <;> rfl

/-- A landed write keeps the scratchpad canonical. -/
theorem Tile.apply_wf (x : Tile) (w : PendWrite) (h : Memory.wf x.mem = true) : Memory.wf (x.apply w).mem = true := by
  unfold Tile.apply
  split <;> first | exact h | (rw [Tile.lineWritten_mem]; exact putWord_wf _ _ h)

theorem Tile.foldl_apply_wf : ∀ (l : List PendWrite) (x : Tile), Memory.wf x.mem = true →
    Memory.wf (l.foldl Tile.apply x).mem = true
  | [], _, h => h
  | w :: r, x, h => Tile.foldl_apply_wf r (x.apply w) (x.apply_wf w h)

/-- The end of a cycle keeps the scratchpad canonical. -/
theorem Tile.landAll_wf (x : Tile) (h : Memory.wf x.mem = true) : Memory.wf x.landAll.mem = true :=
  Tile.foldl_apply_wf _ _ h

theorem Tile.foldl_stores_wf (e : Nat) : ∀ (l : List PendWrite) (m : List Host.Cell), Memory.wf m = true →
    Memory.wf (l.foldl (fun m w => match w.dest with
      | .mem a v => if w.issued < e then putWord m a v else m
      | _ => m) m) = true
  | [], _, h => h
  | w :: r, m, h => by
    refine Tile.foldl_stores_wf e r _ ?_
    dsimp only
    split
    · split
      · exact putWord_wf _ _ h
      · exact h
    · exact h

/-- The scratchpad as other requesters see it is canonical. -/
theorem Tile.memNow_wf (x : Tile) (h : Memory.wf x.mem = true) : Memory.wf x.memNow = true :=
  Tile.foldl_stores_wf _ _ _ h

/-- Making the stores of earlier cycles leaves the scratchpad that other requesters saw. -/
theorem Tile.storesIn_mem (x : Tile) : x.storesIn.mem = x.memNow := by
  have h : ∀ (l : List Nat) (y : Tile),
      (l.foldl (fun y a => ({ y with flips := tdel y.flips a } : Tile).lineWritten (a / 4)) y).mem = y.mem := by
    intro l
    induction l with
    | nil => intro y; rfl
    | cons a r ih => intro y; rw [List.foldl_cons, ih, Tile.lineWritten_mem]
  exact h _ _

/-- A word written by another requester keeps the scratchpad canonical. -/
theorem Tile.writeWord_wf (x : Tile) (w : Nat) (v : Word) (h : Memory.wf x.mem = true) :
    Memory.wf (x.writeWord w v).mem = true := by
  rw [Tile.writeWord, Tile.lineWritten_mem]
  exact putWord_wf _ _ (x.storesIn_mem ▸ x.memNow_wf h)

theorem reset_memories_wf : Memory.wf State.reset.hbm = true ∧ Memory.wf State.reset.cxl = true := ⟨rfl, rfl⟩

end Sys2Proof.Machine
end

