-- ==== Sys2Proof/Laws/Roots.lean ====
section
/-!
SUPPORT. What the shared operations keep: `Keeps` (the fuse map, the firmware floor, the canonical form of HBM and CXL
memory) holds of events, faults, unit updates, mailbox completions and slot operations; and what a slot operation, a
command and a fold can answer.
-/

namespace Sys2Proof.Machine

/-- The fuse map stays, the firmware floor does not fall, and canonical memories stay canonical. -/
def Keeps (s t : State) : Prop := keepsRoots s t ∧ (s.memoriesWf = true → t.memoriesWf = true)

theorem Keeps.refl (s : State) : Keeps s s := ⟨⟨rfl, Nat.le_refl _⟩, id⟩

theorem Keeps.trans {s t u : State} (h : Keeps s t) (k : Keeps t u) : Keeps s u :=
  ⟨⟨k.1.1.trans h.1.1, Nat.le_trans h.1.2 k.1.2⟩, fun w => k.2 (h.2 w)⟩

/-- A change of other fields keeps the roots. -/
theorem Keeps.of_eq {s t : State} (hf : t.fuses = s.fuses) (hl : t.flash.fwFloor = s.flash.fwFloor)
    (hh : t.hbm = s.hbm) (hc : t.cxl = s.cxl) : Keeps s t :=
  ⟨⟨hf, hl ▸ Nat.le_refl _⟩, fun w => by simpa [State.memoriesWf, hh, hc] using w⟩

/-- A change of HBM that keeps its form. -/
theorem Keeps.hbm (s : State) (m : List Host.Cell) (h : Memory.wf s.hbm = true → Memory.wf m = true) :
    Keeps s { s with hbm := m } :=
  ⟨⟨rfl, Nat.le_refl _⟩, fun w => by
    simp only [State.memoriesWf, Bool.and_eq_true] at w ⊢
    exact ⟨h w.1, w.2⟩⟩

/-- A change of CXL memory that keeps its form. -/
theorem Keeps.cxl (s : State) (m : List Host.Cell) (h : Memory.wf s.cxl = true → Memory.wf m = true) :
    Keeps s { s with cxl := m } :=
  ⟨⟨rfl, Nat.le_refl _⟩, fun w => by
    simp only [State.memoriesWf, Bool.and_eq_true] at w ⊢
    exact ⟨w.1, h w.2⟩⟩

theorem Keeps.ite {s t u : State} {b : Prop} [Decidable b] (h : Keeps s t) (k : Keeps s u) :
    Keeps s (if b then t else u) := by
  split
  · exact h
  · exact k

/-- A fold of changes that each keep the roots keeps them. -/
theorem foldl_keeps {α : Type} {f : State → α → State} (h : ∀ t a, Keeps t (f t a)) :
    ∀ (l : List α) (s : State), Keeps s (l.foldl f s)
  | [], s => Keeps.refl s
  | a :: l, s => (h s a).trans (foldl_keeps h l (f s a))

theorem each_keeps {α : Type} {f : α → State → State} (h : ∀ a t, Keeps t (f a t)) (l : List α) (s : State) :
    Keeps s (each l f s) := foldl_keeps (fun t a => h a t) l s

/-! Updates of one unit -/

theorem State.setTile_keeps (s : State) (t : TileId) (x : Tile) : Keeps s (s.setTile t x) := Keeps.of_eq rfl rfl rfl rfl
theorem State.modTile_keeps (s : State) (t : TileId) (f : Tile → Tile) : Keeps s (s.modTile t f) := Keeps.of_eq rfl rfl rfl rfl
theorem State.modCluster_keeps (s : State) (k : Nat) (f : Cluster → Cluster) : Keeps s (s.modCluster k f) :=
  Keeps.of_eq rfl rfl rfl rfl
theorem State.modPart_keeps (s : State) (k : Nat) (f : Partition → Partition) : Keeps s (s.modPart k f) :=
  Keeps.of_eq rfl rfl rfl rfl
theorem State.modStream_keeps (s : State) (k : Nat) (f : Stream → Stream) : Keeps s (s.modStream k f) :=
  Keeps.of_eq rfl rfl rfl rfl
theorem State.modPage_keeps (s : State) (k : Nat) (f : Page → Page) : Keeps s (s.modPage k f) := Keeps.of_eq rfl rfl rfl rfl
theorem State.modMemport_keeps (s : State) (k : Nat) (f : MemPort → MemPort) : Keeps s (s.modMemport k f) :=
  Keeps.of_eq rfl rfl rfl rfl
theorem State.modRouter_keeps (s : State) (k : Nat) (f : Router → Router) : Keeps s (s.modRouter k f) :=
  Keeps.of_eq rfl rfl rfl rfl
theorem State.modHport_keeps (s : State) (k : Nat) (f : HPort → HPort) : Keeps s (s.modHport k f) :=
  Keeps.of_eq rfl rfl rfl rfl
theorem State.modMb_keeps (s : State) (k : Nat) (f : Mbx → Mbx) : Keeps s (s.modMb k f) := Keeps.of_eq rfl rfl rfl rfl

/-! Events and faults -/

theorem State.msix_keeps (s : State) (v : Nat) : Keeps s (s.msix v) := by
  unfold State.msix
  repeat' split
  all_goals exact Keeps.of_eq rfl rfl rfl rfl

theorem State.signalRing_keeps (s : State) (a b : Bool) : Keeps s (s.signalRing a b) := by
  cases a <;> simp only [State.signalRing, Bool.false_eq_true, if_true, if_false]
  all_goals
    split
    · exact (Keeps.of_eq rfl rfl rfl rfl).trans (State.msix_keeps _ _)
    · exact Keeps.refl s

theorem State.ringPut_keeps (s : State) (e : EventRec) : Keeps s (s.ringPut e) :=
  (Keeps.of_eq (t := { s with posted := _, evr := _ }) rfl rfl rfl rfl).trans (State.signalRing_keeps _ _ _)

theorem State.overflow_keeps (s : State) : Keeps s s.overflow :=
  (Keeps.of_eq (t := { s with eventCount := _, bb := _, evr := _ }) rfl rfl rfl rfl).trans (State.ringPut_keeps _ _)

theorem State.toRing_keeps (s : State) (e : EventRec) : Keeps s (s.toRing e) := by
  unfold State.toRing
  split
  · exact Keeps.refl s
  · have h : Keeps s s.overflowIfDue := by
      unfold State.overflowIfDue
      exact Keeps.ite (State.overflow_keeps s) (Keeps.refl s)
    exact h.trans (Keeps.ite (State.ringPut_keeps _ _) (Keeps.of_eq rfl rfl rfl rfl))

theorem State.startCopy_keeps (s : State) (e : Option EventRec) : Keeps s (s.startCopy e) := by
  refine Keeps.of_eq rfl ?_ rfl rfl
  simp only [State.startCopy]
  split <;> rfl

theorem State.takeCapture_keeps (s : State) (p n : Nat) : Keeps s (s.takeCapture p n) := Keeps.of_eq rfl rfl rfl rfl

theorem State.raiseRec_keeps (s : State) (e : EventRec) (b : Bool) : Keeps s (s.raiseRec e b) := by
  unfold State.raiseRec
  refine Keeps.trans ?_ (State.toRing_keeps _ _)
  refine Keeps.trans (t := _) ?_ (Keeps.ite (Keeps.of_eq rfl rfl rfl rfl) (Keeps.refl _))
  refine Keeps.trans (t := _) ?_ (Keeps.ite (State.startCopy_keeps _ _) (Keeps.refl _))
  exact Keeps.trans (Keeps.ite (State.takeCapture_keeps _ _ _) (Keeps.refl _)) (Keeps.of_eq rfl rfl rfl rfl)

theorem State.raiseDev_keeps (s : State) (a b c d : Nat) : Keeps s (s.raiseDev a b c d) := State.raiseRec_keeps _ _ _
theorem State.raiseFault_keeps (s : State) (late : Bool) (e : EventRec) : Keeps s (s.raiseFault late e) :=
  Keeps.ite (Keeps.of_eq rfl rfl rfl rfl) (State.raiseRec_keeps _ _ _)
theorem State.raisePart_keeps (s : State) (p a b c d : Nat) : Keeps s (s.raisePart p a b c d) := State.raiseFault_keeps _ _ _
theorem State.raiseTide_keeps (s : State) (p t : Nat) (r : Bool) (a b c d : Nat) : Keeps s (s.raiseTide p t r a b c d) :=
  State.raiseRec_keeps _ _ _
theorem State.raiseTile_keeps (s : State) (t a b c : Nat) : Keeps s (s.raiseTile t a b c) := by
  unfold State.raiseTile
  split
  · exact State.raisePart_keeps _ _ _ _ _ _
  · exact State.raiseDev_keeps _ _ _ _ _

theorem State.addCause_keeps (s : State) (p : Nat) (c : FaultCause) : Keeps s (s.addCause p c) :=
  Keeps.ite (State.modPart_keeps _ _ _) (Keeps.refl s)

theorem State.unitFault_keeps (s : State) (p a b c d : Nat) (k : FaultKind) (e : Nat) :
    Keeps s (s.unitFault p a b c d k e) := (State.raisePart_keeps _ _ _ _ _ _).trans (State.addCause_keeps _ _ _)

theorem State.tileFault_keeps (s : State) (t : TileId) (a : Nat) (k : FaultKind) (b : Nat) :
    Keeps s (s.tileFault t a k b) := by
  unfold State.tileFault
  simp only
  split
  · exact State.setTile_keeps _ _ _
  · split
    · exact ((State.setTile_keeps s t _).trans (State.raiseTile_keeps _ t a 3 b)).trans (State.addCause_keeps _ _ _)
    · exact (State.setTile_keeps s t _).trans (State.raiseTile_keeps _ t a 3 b)

/-- What a tile fault does on its tile: no bundle of it issues. -/
theorem State.tileFault_stops (s : State) (t : TileId) (a : Nat) (k : FaultKind) (b : Nat) :
    ((s.tileFault t a k b).tile t).issuing = false := by
  unfold State.tileFault
  simp only
  split
  · simp
  · split <;> simp

/-! Mailbox completions (R391) -/

theorem State.finish_keeps (s : State) (n st : Nat) (resp buf : List Byte) (d o : Nat) :
    Keeps s (s.finish n st resp buf d o) := by
  unfold State.finish
  simp only
  split
  · exact Keeps.refl s
  · refine Keeps.trans (t := _) ?_ (Keeps.ite (Keeps.refl _) (State.msix_keeps _ _))
    refine Keeps.trans (t := _) ?_ (Keeps.ite (Keeps.refl _) (State.raiseRec_keeps _ _ _))
    cases buf with
    | nil => exact Keeps.of_eq rfl rfl rfl rfl
    | cons b l => exact Keeps.of_eq rfl rfl rfl rfl

theorem State.okWith_keeps (s : State) (n : Nat) (r : List Byte) : Keeps s (s.okWith n r) := State.finish_keeps _ _ _ _ _ _ _
theorem State.failWith_keeps (s : State) (n a b : Nat) : Keeps s (s.failWith n a b) := State.finish_keeps _ _ _ _ _ _ _
theorem State.failAt_keeps (s : State) (n a b : Nat) : Keeps s (s.failAt n a b) := State.finish_keeps _ _ _ _ _ _ _
theorem State.refuse_keeps (s : State) (n : Nat) (r : No) : Keeps s (s.refuse n r) := by
  unfold State.refuse
  by_cases h : r.status = stSignature
  · simp only [h, if_true]
    exact (State.raiseDev_keeps _ _ _ _ _).trans (State.finish_keeps _ _ _ _ _ _ _)
  · simp only [h, if_false]
    exact State.finish_keeps _ _ _ _ _ _ _
theorem State.cancelRemove_keeps (s : State) (n : Nat) : Keeps s (s.cancelRemove n) := by
  unfold State.cancelRemove
  split
  · refine Keeps.trans (t := { s with removeReady := false, pins := { s.pins with attn := false } }) ?_
      (State.raiseDev_keeps _ _ _ _ _)
    exact Keeps.of_eq rfl rfl rfl rfl
  · exact Keeps.refl s
theorem State.okHeld_keeps (s : State) (m : Option Nat) (r : List Byte) : Keeps s (s.okHeld m r) := by
  cases m
  · exact Keeps.refl s
  · exact State.okWith_keeps _ _ _

/-- Everything the command frame can do: nothing where the page does not run the opcode; a refusal; or the command's act. -/
theorem State.command_cases (s : State) (n opcode : Nat) (checks : List (Option No)) (act : State → State) :
    ((s.mb n).running ≠ some opcode ∧ s.command n opcode checks act = .next s) ∨
    (∃ r, (s.mb n).running = some opcode ∧ checks.findSome? id = some r ∧
      s.command n opcode checks act = .next ((s.modMb n fun m => { m with running := none }).refuse n r)) ∨
    ((s.mb n).running = some opcode ∧ checks.findSome? id = none ∧
      s.command n opcode checks act = .next (act (s.modMb n fun m => { m with running := none }))) := by
  unfold State.command
  by_cases h : (s.mb n).running = some opcode
  · cases hc : checks.findSome? id with
    | none => exact .inr (.inr ⟨h, rfl, by simp [h]⟩)
    | some r => exact .inr (.inl ⟨r, h, rfl, by simp [h]⟩)
  · exact .inl ⟨h, by simp [h]⟩

theorem State.command_keeps {s s' : State} {n opcode : Nat} {checks : List (Option No)} {act : State → State}
    (k : ∀ t, Keeps t (act t)) (h : s.command n opcode checks act = .next s') : Keeps s s' := by
  obtain ⟨-, e⟩ | ⟨r, -, -, e⟩ | ⟨-, -, e⟩ := s.command_cases n opcode checks act <;> rw [e] at h <;> cases h
  · exact Keeps.refl s
  · exact (State.modMb_keeps _ _ _).trans (State.refuse_keeps _ _ _)
  · exact (State.modMb_keeps _ _ _).trans (k _)

/-! Operations of a tile's slots (R112, R113, R147) -/

/-- Everything a slot operation can do: nothing where the tile does not issue; a fault of the first stage; or its effect. -/
theorem tileOp_cases (t : TileId) (slot : Nat) (check : State → Option Nat) (k : State → State) (s : State) :
    (s.canIssue t = false ∧ tileOp t slot check k s = .next s) ∨
    (∃ c, s.canIssue t = true ∧ check s = some c ∧
      tileOp t slot check k s = .next (s.tileFault t c .program ((s.tile t).slotPayload slot))) ∨
    (s.canIssue t = true ∧ check s = none ∧ tileOp t slot check k s = .next (k s)) := by
  unfold tileOp
  cases hi : s.canIssue t
  · exact .inl ⟨rfl, by simp⟩
  · cases hc : check s with
    | none => exact .inr (.inr ⟨rfl, rfl, by simp⟩)
    | some c => exact .inr (.inl ⟨c, rfl, rfl, by simp⟩)

theorem tileOp_keeps {t : TileId} {slot : Nat} {check : State → Option Nat} {k : State → State} {s s' : State}
    (hk : ∀ u, Keeps u (k u)) (h : tileOp t slot check k s = .next s') : Keeps s s' := by
  obtain ⟨-, e⟩ | ⟨c, -, -, e⟩ | ⟨-, -, e⟩ := tileOp_cases t slot check k s <;> rw [e] at h <;> cases h
  · exact Keeps.refl s
  · exact State.tileFault_keeps _ _ _ _ _
  · exact hk s

theorem ctlOp_keeps {t : TileId} {check : State → Option Nat} {k : State → State} {s s' : State}
    (hk : ∀ u, Keeps u (k u)) (h : ctlOp t check k s = .next s') : Keeps s s' :=
  tileOp_keeps (fun u => (hk u).trans (State.modTile_keeps _ _ _)) h

/-- A slot operation that may wait: held, or as a slot operation. -/
theorem waitOp_cases (i : Instr) (t : TileId) (slot : Nat) (check : State → Option Nat) (k : State → State) (s : State) :
    waitOp i t slot check k s = .next (s.modTile t fun x => { x with held := [i], heldFor := 0 }) ∨
    waitOp i t slot check k s = tileOp t slot check k s := by
  unfold waitOp
  split
  · exact .inl rfl
  · exact .inr rfl

theorem waitOp_keeps {i : Instr} {t : TileId} {slot : Nat} {check : State → Option Nat} {k : State → State} {s s' : State}
    (hk : ∀ u, Keeps u (k u)) (h : waitOp i t slot check k s = .next s') : Keeps s s' := by
  obtain e | e := waitOp_cases i t slot check k s <;> rw [e] at h
  · cases h
    exact State.modTile_keeps _ _ _
  · exact tileOp_keeps hk h

end Sys2Proof.Machine
end

