-- ==== Sys2Proof/Laws/Faults.lean ====
section
/-!
SUPPORT. The repairs, hardware faults and scratchpad accesses of a tile keep the roots (`Keeps`).
-/

namespace Sys2Proof.Machine

theorem State.used_keeps (s : State) (n : Nat) : Keeps s (s.used n) := Keeps.of_eq rfl rfl rfl rfl

theorem State.beginReset_keeps (s : State) (a b : Nat) : Keeps s (s.beginReset a b) := Keeps.of_eq rfl rfl rfl rfl

theorem State.signalAbsorb_keeps (s : State) (t : TileId) : Keeps s (s.signalAbsorb t) := by
  refine each_keeps (fun dir u => ?_) _ _
  split
  · exact Keeps.refl u
  · exact State.modTile_keeps _ _ _

theorem State.startTileReset_keeps (s : State) (t : TileId) : Keeps s (s.startTileReset t) :=
  (State.modTile_keeps _ _ _).trans ((State.beginReset_keeps _ _ _).trans (State.signalAbsorb_keeps _ _))

/-- Writing the repair log leaves the firmware floor alone. -/
@[simp] theorem Flash.writeLog_fwFloor (f : Flash) (a : List RepairRec) (b : List RetiredRec) : (f.writeLog a b).fwFloor = f.fwFloor := by
  unfold Flash.writeLog; dsimp only; split <;> rfl

theorem State.restoreMark_keeps (s : State) (t : TileId) : Keeps s (s.restoreMark t) := State.setTile_keeps _ _ _

theorem State.restoreTile_keeps (s : State) (t : TileId) : Keeps s (s.restoreTile t) := by
  unfold State.restoreTile
  split
  · exact Keeps.refl s
  · exact (State.modTile_keeps _ _ _).trans ((State.modTile_keeps _ _ _).trans (State.restoreMark_keeps _ _))

theorem State.rebuildTile_keeps (s : State) (t : TileId) : Keeps s (s.rebuildTile t) :=
  (State.startTileReset_keeps _ _).trans (State.restoreTile_keeps _ _)

theorem State.logRepair_keeps (s : State) (a b c d e : Nat) : Keeps s (s.logRepair a b c d e) := by
  unfold State.logRepair
  simp only
  split
  · exact Keeps.of_eq rfl (Flash.writeLog_fwFloor _ _ _) rfl rfl
  · exact State.raiseDev_keeps _ _ _ _ _

theorem State.logRetired_keeps (s : State) (a b c : Nat) : Keeps s (s.logRetired a b c) :=
  Keeps.of_eq rfl (Flash.writeLog_fwFloor _ _ _) rfl rfl

theorem State.withdraw_keeps (s : State) (a b c d : Nat) : Keeps s (s.withdraw a b c d) := by
  unfold State.withdraw
  split
  · exact Keeps.refl s
  · refine Keeps.trans (t := { s with withdrawn := s.withdrawn ||| BitVec.ofNat 8 (2 ^ a) }) ?_ (State.logRepair_keeps _ _ _ _ _ _)
    exact Keeps.of_eq rfl rfl rfl rfl

theorem State.endObserve_keeps (s : State) (a b : Nat) (t : TileId) : Keeps s (s.endObserve a b t) := by
  unfold State.endObserve
  split
  · exact Keeps.refl s
  · refine Keeps.trans (t := { s with observed := tdel s.observed (siteKey a b) }) ?_ (State.raiseTile_keeps _ _ _ _ _)
    exact Keeps.of_eq rfl rfl rfl rfl

theorem State.beginObserve_keeps (s : State) (t : TileId) (c : Nat) (r : Bool) : Keeps s (s.beginObserve t c r) := by
  unfold State.beginObserve
  simp only
  split
  · exact Keeps.refl s
  · refine Keeps.trans (t := { s with observed := tset s.observed _ { tides := 0, cause := c } }) ?_
      (State.raiseTile_keeps _ _ _ _ _)
    exact Keeps.of_eq rfl rfl rfl rfl

theorem State.exhaust_keeps (s : State) (p : Option Nat) (a b c d e : Nat) : Keeps s (s.exhaust p a b c d e) := by
  unfold State.exhaust
  cases p
  · exact (State.raiseDev_keeps _ _ _ _ _).trans (State.withdraw_keeps _ _ _ _ _)
  · exact (State.raisePart_keeps _ _ _ _ _ _).trans (State.withdraw_keeps _ _ _ _ _)

/-- The two state changes of a remap that depend on whether the site held a tile. -/
theorem optTile_keeps (s : State) (g : Option TileId) {f : TileId → State → State} (h : ∀ t u, Keeps u (f t u)) :
    Keeps s (match g with
      | some t => f t s
      | none => s) := by
  cases g
  · exact Keeps.refl s
  · exact h _ _

theorem State.disableSite_keeps (s : State) (a b c d e : Nat) : Keeps s (s.disableSite a b c d e) := by
  unfold State.disableSite
  split
  · exact Keeps.refl s
  · refine Keeps.trans (t := _) ?_ (State.raiseDev_keeps _ _ _ _ _)
    refine Keeps.trans (t := _) ?_ (State.logRepair_keeps _ _ _ _ _ _)
    refine Keeps.trans (t := _) ?_ (optTile_keeps _ _ (f := fun t u => u.rebuildTile t) fun t u => State.rebuildTile_keeps u t)
    refine Keeps.trans (t := _) ?_ (each_keeps (fun t u => State.rebuildTile_keeps u t) _ _)
    refine Keeps.trans (t := _) ?_ (each_keeps (fun t u => (State.modTile_keeps u t _).trans (State.used_keeps _ _)) _ _)
    refine Keeps.trans (t := each _ (fun t st => st.endObserve (st.siteOf t).1 (st.siteOf t).2 t) _) ?_
      (Keeps.of_eq rfl rfl rfl rfl)
    exact Keeps.trans (optTile_keeps _ _ (f := fun t u => u.endObserve a b t) fun t u => State.endObserve_keeps u a b t)
      (each_keeps (fun t u => State.endObserve_keeps u _ _ t) _ _)

theorem State.remapNow_keeps (s : State) (t : TileId) (c : Nat) : Keeps s (s.remapNow t c) := by
  unfold State.remapNow
  simp only
  split
  · exact State.disableSite_keeps _ _ _ _ _ _
  · exact Keeps.refl s

theorem State.hwFault_keeps (s : State) (t : TileId) (a b : Nat) : Keeps s (s.hwFault t a b) := by
  have h : Keeps s (s.tileFault t a .hardware b) := State.tileFault_keeps _ _ _ _ _
  unfold State.hwFault
  simp only
  split
  · exact h
  · split
    · split
      · exact h.trans (State.modPart_keeps _ _ _)
      · exact h
    · exact h.trans (State.remapNow_keeps _ _ _)

theorem State.retireFault_keeps (s : State) (t : TileId) (b : Nat) : Keeps s (s.retireFault t b) := by
  have h : Keeps s (s.raiseTile t 0x0707 3 b) := State.raiseTile_keeps _ _ _ _ _
  unfold State.retireFault
  simp only
  split
  · split
    · exact h.trans ((State.addCause_keeps _ _ _).trans (State.modPart_keeps _ _ _))
    · exact h
  · exact h.trans (State.remapNow_keeps _ _ _)

theorem State.spFault_keeps (s : State) (t : TileId) (a b c : Nat) : Keeps s (s.spFault t a b c) := State.hwFault_keeps _ _ _ _

theorem State.countCorrection_keeps (s : State) (t : TileId) (l : Option Nat) : Keeps s (s.countCorrection t l) := by
  unfold State.countCorrection
  refine Keeps.trans (t := _) ?_ (Keeps.ite ((State.modTile_keeps _ _ _).trans
    ((State.used_keeps _ _).trans (State.retireFault_keeps _ _ _))) (Keeps.refl _))
  refine Keeps.trans (t := _) ?_ (Keeps.ite ((State.modTile_keeps _ _ _).trans ((State.raiseTile_keeps _ _ _ _ _).trans
    (State.beginObserve_keeps _ _ _ _))) (Keeps.refl _))
  exact State.setTile_keeps _ _ _

/-! Scratchpad accesses (R157 to R160) -/

theorem State.noteCorrection_keeps (s : State) (t : TileId) (l : Nat) : Keeps s (s.noteCorrection t l) := by
  unfold State.noteCorrection
  simp only
  split
  · exact Keeps.refl s
  · split
    · exact (State.setTile_keeps _ _ _).trans (State.countCorrection_keeps _ _ _)
    · exact State.countCorrection_keeps _ _ _

theorem State.checkWord_keeps (s : State) (t : TileId) (w : Nat) (v : Word) (m : Nat) : Keeps s (s.checkWord t w v m).1 := by
  unfold State.checkWord
  split
  · exact Keeps.refl s
  · split
    · exact State.noteCorrection_keeps _ _ _
    · split
      · exact Keeps.refl s
      · split
        · exact State.used_keeps _ _
        · exact (State.used_keeps _ _).trans (State.noteCorrection_keeps _ _ _)
        · exact State.used_keeps _ _

/-- A word stored without error is read as it is, and nothing is counted. -/
theorem State.checkWord_clean (s : State) (t : TileId) (w : Nat) (v : Word) : s.checkWord t w v 0 = (s, v, false) := rfl

theorem State.readWords_keeps (t : TileId) (get : Nat → Word × Nat) : ∀ (ws : List Nat) (s : State),
    Keeps s (s.readWords t get ws).1
  | [], s => Keeps.refl s
  | w :: r, s => (State.checkWord_keeps s t w (get w).1 (get w).2).trans (State.readWords_keeps t get r _)

/-- Words stored without error: a read of them changes nothing and gives them. -/
theorem State.readWords_clean (s : State) (t : TileId) (get : Nat → Word × Nat) : ∀ ws : List Nat,
    (∀ w ∈ ws, (get w).2 = 0) → s.readWords t get ws = (s, ws.map fun w => (get w).1, none)
  | [], _ => rfl
  | w :: r, h => by
    have hw : s.checkWord t w (get w).1 (get w).2 = (s, (get w).1, false) := by rw [h w (by simp)]; rfl
    have hr := State.readWords_clean s t get r fun u hu => h u (by simp [hu])
    simp [State.readWords, hw, hr]

theorem State.lineRead_keeps (s : State) (t : TileId) (a : Nat) (get : Nat → Word × Nat) (ws : List Nat) :
    Keeps s (s.lineRead t a get ws).1 := by
  unfold State.lineRead
  dsimp only
  split
  · exact (State.setTile_keeps _ _ _).trans ((State.readWords_keeps _ _ _ _).trans (State.spFault_keeps _ _ _ _ _))
  · exact (State.setTile_keeps _ _ _).trans (State.readWords_keeps _ _ _ _)

theorem State.progRead_keeps (s : State) (t : TileId) (a b : Nat) (ws : List Nat) : Keeps s (s.progRead t a b ws).1 :=
  State.lineRead_keeps _ _ _ _ _

theorem State.progWrite_keeps (s : State) (t : TileId) (a : Nat) (ws : List (Nat × Word)) : Keeps s (s.progWrite t a ws) :=
  State.setTile_keeps _ _ _

theorem State.readLocal_keeps (s : State) (t : TileId) (a n b c : Nat) : Keeps s (s.readLocal t a n b c).1 := by
  unfold State.readLocal
  dsimp only
  split
  · exact (State.modTile_keeps _ _ _).trans ((State.readWords_keeps _ _ _ _).trans (State.spFault_keeps _ _ _ _ _))
  · exact (State.modTile_keeps _ _ _).trans (State.readWords_keeps _ _ _ _)

/-- A line written, read first where it has to be: the roots stay. -/
theorem State.writeLine_keeps (s : State) (t : TileId) (l : Nat) (whole : Bool) (a b : Nat) (put : Nat → Word → Option Word) :
    Keeps s (s.writeLine t l whole a b put) := by
  have h : ∀ w : Bool, Keeps s (if w then (s, some ((List.range 4).map fun i => wordAt (s.tile t).memNow (4 * l + i)))
      else s.readLine t l a b).1 := fun w => by
    cases w
    · exact State.readLocal_keeps _ _ _ _ _ _
    · exact Keeps.refl s
  unfold State.writeLine
  dsimp only
  split
  · exact h whole
  · exact (h whole).trans ((State.modTile_keeps _ _ _).trans (State.modTile_keeps _ _ _))

theorem State.writeLocal_keeps (s : State) (t : TileId) (a : Nat) (b : List Byte) (c d : Nat) :
    Keeps s (s.writeLocal t a b c d) := each_keeps (fun _ u => State.writeLine_keeps u _ _ _ _ _ _) _ _

theorem State.accLocal_keeps (s : State) (t : TileId) (w : Nat) (vals : List Word) (i : Bool) (a b : Nat) :
    Keeps s (s.accLocal t w vals i a b) := each_keeps (fun _ u => State.writeLine_keeps u _ _ _ _ _ _) _ _

end Sys2Proof.Machine
end

