-- ==== Sys2Proof/Laws/Pages.lean ====
section
/-!
SUPPORT. Pinned pages (R32): what settles a page, and that no move starts from one.
-/

namespace Sys2Proof.Machine

@[simp] theorem Page.settle_st (g : Page) (n : Nat) : (g.settle n).st = .hbm := rfl
@[simp] theorem Page.settle_cfill (g : Page) (n : Nat) : (g.settle n).cfill = n := rfl
@[simp] theorem Page.settle_tfill (g : Page) (n : Nat) : (g.settle n).tfill = n := rfl
@[simp] theorem Page.settle_frame (g : Page) (n : Nat) : (g.settle n).frame = g.frame := rfl
@[simp] theorem Page.settle_owner (g : Page) (n : Nat) : (g.settle n).owner = g.owner := rfl

/-- No move starts from a pinned page (R32). -/
theorem State.startMove_of_pinned (s : State) (p g : Nat) (demote app : Bool) (h : (s.page g).st = .pinned) :
    s.startMove p g demote app = s := by
  cases demote <;> simp [State.startMove, h]

/-- The tiering unit sends no request for a pinned page (R32). -/
theorem State.beginMove_of_pinned (s : State) (p g : Nat) (demote app : Bool) (h : (s.page g).st = .pinned) :
    s.beginMove p g demote app = s := by
  simp [State.beginMove, State.startMove_of_pinned s p g demote app h]

end Sys2Proof.Machine
end

