-- ==== Sys2Proof/Machine/Reads.lean ====
section
/-!
DEFINITION. What the host reads in BAR0 (spec/13_cxl_interface.md R357 to R369; spec/14_mailboxes.md R388), as a function of the
state: but for TIME_LO, whose read is a command of its own, a good read changes nothing.
-/

namespace Sys2Proof.Machine

/-! Features and configuration space (R354, R357) -/

/-- The features of R354. -/
inductive Feature where
  | cxlIo | cxlCache | cxlMem | flit256 | flit68 | uio | doe | ide | msix | intx | msi | aer | ras | hotPlug | flr | cxlReset
  | ats | pasid | pri | srIov | mld | aspm | d3hot | tags10
  deriving DecidableEq, Repr

/-- The features the device supports, and no others (R354). -/
def Feature.supported (f : Feature) : Bool :=
  match f with
  | .cxlMem | .flit68 | .intx | .msi | .cxlReset | .ats | .pasid | .pri | .srIov | .mld | .aspm => false
  | _ => true

/-- Class code: processing accelerator. -/
def classCode : Nat := 0x120000

/-- A BAR of the function: its first register, and its size; each is 64 bits wide and not prefetchable. -/
structure Bar where
  first : Nat
  bytes : Nat
  deriving DecidableEq, Repr

/-- BAR0, BAR2 and BAR4. -/
def bars : List Bar := [⟨0, 128 * 2 ^ 10⟩, ⟨2, 256 * 2 ^ 10⟩, ⟨4, 16 * 2 ^ 20⟩]

/-- Cache_Capable, IO_Capable, Mem_Capable of the DVSEC for CXL devices. -/
def cxlCapable : Bool × Bool × Bool := (true, true, false)

/-- Device ID of a part by its enabled stripes. -/
def deviceIdOf (stripes : Nat) : Nat := if stripes = 8 then 0x0808 else if stripes = 6 then 0x0806 else 0x0804

/-- What configuration space reports (R354, R357), by name: CXL 3.1 and PCIe give the places. -/
inductive CfgField where
  | vendorId | deviceId | classCode | barReg (n : Nat) | busMaster | msixEnable | uioEnable
  | cacheCapable | ioCapable | memCapable | resetCapable | cacheEnable
  /-- the BAR and the offset of the component register block, as the register locator DVSEC names them -/
  | locatorBar | locatorOffset
  deriving DecidableEq, Repr

/-- BAR register `n`: 0, 2 and 4 hold what the host assigned above the BAR's size with type bits for a 64-bit memory BAR that is not
prefetchable, 1, 3 and 5 the upper halves. -/
def State.barReg (s : State) (n : Nat) : Nat :=
  let v := (tget 0 s.link.barBase n).toNat
  match bars.find? fun b => b.first = n with
  | some b => v / b.bytes * b.bytes + 4
  | none => if n < 6 then v else 0

/-- A field of configuration space. -/
def State.readConfig (s : State) (f : CfgField) : Nat :=
  match f with
  | .vendorId => Config.vendorId.toNat
  | .deviceId => deviceIdOf ((List.range 8).filter fun i => s.fuses.stripeMap.getLsbD i).length
  | .classCode => Sys2Proof.Machine.classCode
  | .barReg n => s.barReg n
  | .busMaster => b01 s.link.busMaster
  | .msixEnable => b01 s.link.msixEnable
  | .uioEnable => b01 s.link.uioEnable
  | .cacheCapable => b01 cxlCapable.1
  | .ioCapable => b01 cxlCapable.2.1
  | .memCapable => b01 cxlCapable.2.2
  | .resetCapable => b01 Feature.cxlReset.supported
  | .cacheEnable => b01 s.link.cacheEnable
  | .locatorBar => 0
  | .locatorOffset => 0x8000

/-! What telemetry reports beside the records of R410 (R258, R298, R319) [DEDUCED, log entry 156] -/

/-- Corrected errors of a memory port (R258). -/
def State.telemetryCorrected (s : State) (m : Nat) : Nat := (s.memport m).corrected

/-- Corrected FEC symbols and bad flits of a Hikolink port (R319). -/
def State.telemetryLink (s : State) (q : Nat) : Nat × Nat := ((s.hport q).fecCorrected, (s.hport q).badTotal)

/-- The expert capacities of a partition: layers, experts per layer, and the words, layer-major (R298). -/
def State.telemetryCapacities (s : State) (p : Nat) : Option (Nat × Nat × List Word) := (s.part p).image.bind fun b => b.capacity

/-! Registers (R361, R362, R364, R368, R388) -/

/-- The identification block (R361). -/
def State.readId (s : State) (r : Nat) : Nat :=
  if r = 0x030 then s.now % 2 ^ 32
  else if r = 0x034 then s.timeHi.toNat
  else s.idWords.getD (r / 4) 0

/-- The boot control block (R362). -/
def State.readBoot (s : State) (r : Nat) : Nat :=
  let b := s.boot
  match r with
  | 0x000 => b.memLevel * 2 ^ 8 + b01 b.warm * 2 ^ 7 + b.step
  | 0x004 => b.state * 2 ^ 30 + b.stStep * 2 ^ 24 + b.reached * 2 ^ 20 + (if b.state = 3 then b.error else 0)
  | 0x008 => s.bootElapsed
  | _ => 0

/-- Records counted in a ring's PRODUCER whose writes have not left: a read of PRODUCER counts those that have (R365). -/
def State.unsent (s : State) (telemetry : Bool) : Nat :=
  (s.posted.filter fun (p : Posted) => match p with
    | .event _ _ => !telemetry
    | .telemetry _ _ => telemetry
    | _ => false).length

/-- A ring control block (R364, R368), `unsent` records of which are still to leave; the telemetry ring has no MIN_SEV. -/
def Ring.read (r : Ring) (o : Nat) (telemetry : Bool) (unsent : Nat) : Nat :=
  match o with
  | 0x000 => r.baseLo
  | 0x004 => r.baseHi
  | 0x008 => b01 r.en * 2 ^ 31 + (if telemetry then 0 else r.minSev * 2 ^ 16) + r.coalesceUs * 2 ^ 8 + r.logSize
  | 0x00C => (r.producer + 2 ^ 32 - unsent) % 2 ^ 32
  | 0x010 => r.consumer
  | 0x014 => r.dropped
  | _ => 0

/-- A word of a mailbox page (R388). -/
def Mbx.read (m : Mbx) (o : Nat) : Nat :=
  if o ≥ 0x40 then leNat (memBytes m.payload (o - 0x40) 4)
  else match o with
    | 0x000 => m.opcode * 2 ^ 16 + m.seq
    | 0x004 => m.sglCount * 2 ^ 16 + m.length
    | 0x008 => b01 m.noEvent * 2 + b01 m.noIrq
    | 0x020 => b01 m.done * 2 ^ 31 + m.status
    | 0x024 => m.doneSeq
    | 0x028 => m.respLen
    | 0x02C => m.detail * 2 ^ 16 + m.offset
    | 0x030 => m.ignored
    | _ => 0

/-- Word `ix` of the MSI-X table: every fourth one is a vector's control word with its mask bit (R369). -/
def State.readMsix (s : State) (ix : Nat) : Nat :=
  if ix % 4 = 3 then b01 (s.link.msixMask.getLsbD (ix / 4)) else (tget 0 s.link.msixTable ix).toNat

/-- The aligned word at offset `off` of BAR0; an address that R359 does not name reads 0. [DESIGN CHOICE, log entry 76] -/
def State.readBar0 (s : State) (off : Nat) : Nat :=
  let r := off % 4096
  if !s.hostReaches then 0
  else if off < 0x1000 then s.readId r
  else if off < 0x2000 then s.readBoot r
  else if off < 0x3000 then s.evr.read r false (s.unsent false)
  else if off < 0x4000 then s.tlr.read r true (s.unsent true)
  else if 0x8000 ≤ off ∧ off < 0x10000 then
    (Config.componentReg (off - 0x8000) (tget 0 s.link.component ((off - 0x8000) / 4))).toNat
  else if 0x10000 ≤ off ∧ off < 0x19000 then (s.mb ((off - 0x10000) / 4096)).read r
  else if 0x1C000 ≤ off ∧ off < 0x1C400 then s.readMsix ((off - 0x1C000) / 4)
  else if off = 0x1E000 then s.link.msixPending.toNat % 2 ^ 32
  else if off = 0x1E004 then s.link.msixPending.toNat / 2 ^ 32
  else 0

/-- One aligned 32-bit read in BAR0: the one of TIME_LO latches TIME_HI (R361). -/
def State.readWord (s : State) (off : Nat) : State × Nat :=
  (if off = 0x030 && s.hostReaches then { s with timeHi := BitVec.ofNat 32 (s.now / 2 ^ 32) } else s, s.readBar0 off)

/-- A host read in BAR0 (R360): of 8 bytes, as two words in ascending order; one that a register block does not take reads 0 and is
counted. -/
def State.hostRead (s : State) (off size : Nat) : State × Nat :=
  if !s.hostReaches then (s, 0)
  else if size = 8 ∧ off % 8 = 0 then
    let a := s.readWord off
    let b := a.1.readWord (off + 4)
    (b.1, a.2 + b.2 * 2 ^ 32)
  else if size = 4 ∧ off % 4 = 0 then s.readWord off
  else if off < 0x4000 then ({ s with link := { s.link with badAccess := s.link.badAccess + 1 } }, 0)
  else (s, s.readBar0 (off / 4 * 4) / 2 ^ (8 * (off % 4)) % 2 ^ (8 * size))

end Sys2Proof.Machine
end

