-- ==== Sys2Proof/Tests/Witness.lean ====
section
/-!
SUPPORT. A concrete state and operands for the hypotheses of every statement of Certificates/Slice0/Obligations.lean: one
theorem per statement or part of it, its conjuncts the hypotheses of the statement's clauses, each together with the
clause's shared ones, at boundary values where a clause has a range.
-/

namespace Sys2Proof.Tests

-- One theorem at a time: each proof evaluates in the kernel, and many at once exhaust the threads of a bounded process.
set_option Elab.async false

open Sys2Proof Sys2Proof.Machine

/-- A powered cluster with tile 0 as `x`. -/
def one (x : Tile) : State := { State.reset with clusters := [(0, { power := true })], tiles := [(0, x)] }

/-- A tile about to issue. -/
def go : Tile := { issuing := true }

/-- `one x` within partition 0, which owns the device's stripes and is in state `st`. -/
def inPart (st : PState) (x : Tile) : State :=
  { one x with parts := [(0, { st := st, stripeCount := 8 })] }

/-! The control slot -/

theorem witness_SaluAndConditionTables :
    (one go).canIssue 0 = true ∧ saluFn 12 ((one go).rs 0 0 0 31) ((one go).rs 0 0 1 31) = some 0 ∧
    condFn 5 ((one go).rs 0 0 0 0) ((one go).rs 0 0 1 31) = some true ∧
    condFn 0 ((one go).rs 0 0 0 31) ((0x80 : BitVec 8).signExtend 32) = some false ∧
    -(2 : Int) ^ 27 ≤ (0xF8000000 : Word).toInt ∧ (0x07FFFFFF : Word).toInt < 2 ^ 27 := by decide +kernel

theorem witness_ControlScalarResults :
    (inPart .open_ go).canIssue 0 = true ∧ saluFn 8 ((one go).rs 0 0 0 31) ((one go).rs 0 0 1 31) = some 0 ∧
    (inPart .open_ go).partOf 0 = some 0 ∧ (5 : BitVec 5).toNat < 6 := by decide +kernel

theorem witness_PredicateResults : (one go).canIssue 0 = true ∧ (5 : BitVec 3).toNat < 6 := by decide +kernel

/-- A tile at bundle 7 in a loop of bundles 3 to `last` with `left` passes left. -/
def looping (last left : Nat) : Tile := { go with pc := 7, loops := [{ first := 3, last := last, left := left }] }

theorem witness_ControlFlowTargets :
    ((one go).canIssue 0 = true ∧ ((one go).tile 0).loops = []) ∧
    ((one (looping 8 2)).canIssue 0 = true ∧
      ((one (looping 8 2)).tile 0).loops = [{ first := 3, last := 8, left := 2 }] ∧ 8 ≠ ((one (looping 8 2)).tile 0).pc) ∧
    (((one (looping 7 2)).tile 0).loops = [{ first := 3, last := 7, left := 2 }] ∧ (one (looping 7 2)).canIssue 0 = true ∧
      7 = ((one (looping 7 2)).tile 0).pc) ∧
    (((one (looping 7 1)).tile 0).loops = [{ first := 3, last := 7, left := 1 }] ∧ (one (looping 7 1)).canIssue 0 = true ∧
      7 = ((one (looping 7 1)).tile 0).pc) ∧
    (((one go).rp 0 0 0 0 ^^ decide ((0 : BitVec 1).toNat = 1)) = true) ∧
    (((one go).rp 0 0 0 0 ^^ decide ((1 : BitVec 1).toNat = 1)) = false ∧ ((one go).tile 0).loops = []) ∧
    (((one go).tile 0).pc < (1 : BitVec 10).toNat ∧ ((one go).tile 0).loops.length < 4) ∧
    (((one (looping 8 2)).tile 0).pc < (8 : BitVec 10).toNat ∧ ((one (looping 8 2)).tile 0).loops.length < 4 ∧
      ((one (looping 8 2)).tile 0).loops = [{ first := 3, last := 8, left := 2 }] ∧ (8 : BitVec 10).toNat ≤ 8) := by
  decide +kernel

theorem witness_EndStopsTheTile : (one go).canIssue 0 = true := by decide +kernel

/-- A tile whose bell port 3 is bound, with `n` fires counted. -/
def belled (n : Nat) : Tile := { go with bellPorts := 0x80000, fireCnt := [(3, n)] }

theorem witness_BellAndHintOperations :
    ((one (belled 1)).canIssue 0 = true ∧ ((one (belled 1)).tile 0).bellBound 3 = true ∧
      tget 0 ((one (belled 1)).tile 0).fireCnt 3 > 0) ∧
    ((one (belled 0)).canIssue 0 = true ∧ ((one (belled 0)).tile 0).bellBound 3 = true ∧
      tget 0 ((one (belled 0)).tile 0).fireCnt 3 = 0 ∧ ((one (belled 0)).tile 0).cur = none) := by decide +kernel

/-- A tile whose tag 15 is in state `g`, and whose s1 names tag 15. -/
def tagged (g : TagState) : Tile := { go with tags := [(15, g)], sregs := [(1, 0x8000)] }

theorem witness_SpecKindZeroOnTags :
    ((one (tagged {})).canIssue 0 = true ∧ ((one (tagged {})).rs 0 0 0 1).toNat = 2 ^ 15 ∧
      (((one (tagged {})).tile 0).tag 15).st = .idle) ∧
    ((((one (tagged { st := .active })).tile 0).tag 15).st = .active ∧
      (((one (tagged { st := .active })).tile 0).tag 15).shadow = false) ∧
    ((((one (tagged { st := .landed })).tile 0).tag 15).st = .landed) ∧
    ((((one (tagged { st := .active, shadow := true })).tile 0).tag 15).st = .active ∧
      (((one (tagged { st := .active, shadow := true })).tile 0).tag 15).shadow = true) := by decide +kernel

theorem witness_VerdictOperations : (one go).canIssue 0 = true := by decide +kernel

/-- A tile in four loops. -/
def deep : Tile :=
  { go with loops := [{ first := 1, last := 9, left := 2 }, { first := 1, last := 9, left := 2 },
                      { first := 1, last := 9, left := 2 }, { first := 1, last := 9, left := 2 }] }

theorem witness_FirstStageCheckFaults :
    ((inPart .open_ go).canIssue 0 = true ∧ ((inPart .open_ go).tile 0).faulted = none ∧ (1 : BitVec 19) ≠ 0 ∧
      13 ≤ (13 : BitVec 4).toNat ∧ 6 ≤ (6 : BitVec 5).toNat ∧ (1 : BitVec 18) ≠ 0 ∧
      ((inPart .open_ go).tile 0).bellBound 0 = false ∧ (inPart .open_ go).inTide 0 = true ∧
      (inPart .open_ go).partOf 0 = some 0 ∧ running ((inPart .open_ go).part 0).st = true ∧
      (inPart .open_ go).afterDone 0 = false) ∧
    ((one deep).partOf 0 = none ∧ (one deep).canIssue 0 = true ∧ ((one deep).tile 0).faulted = none ∧ ((one deep).tile 0).pc < (9 : BitVec 10).toNat ∧
      0 < (1 : BitVec 9).toNat ∧ ((one deep).tile 0).loops.length = 4 ∧
      ((one deep).tile 0).loops.head? = some { first := 1, last := 9, left := 2 } ∧ (9 : BitVec 10).toNat ≤ 9) := by
  decide +kernel

theorem witness_ScalarScratchpadAccess :
    (one go).canIssue 0 = true ∧ ((one go).tile 0).lost ((((one go).rs 0 0 0 31).toNat + 511) % 65536 / 4) = false ∧
    tget 0 ((one go).tile 0).flips ((((one go).rs 0 0 0 31).toNat + 511) % 65536) = 0 := by decide +kernel

/-! The array and vector slots -/

/-- A plain INT8 operation of one K-block, as its registers s0 and s1 give it. -/
def plain (keep : Nat) : ArrRun := arrParams 0 0 keep 0 0 0x80000000 0 0 0

/-- A tile whose s1 asks for a plain operation of formats 8 and 8, with operations running and pending. -/
def arrTile (r p : Option ArrRun) : Tile := { go with sregs := [(1, 0x88000000)], run := r, pendRun := p }

theorem witness_ArrayRunStarts :
    ((one (arrTile none none)).canIssue 0 = true ∧ arrRunCheck 0 0 0 0 0 1 0 0 (one (arrTile none none)) = none ∧
      ((one (arrTile none none)).tile 0).run = none ∧ ((one (arrTile none none)).tile 0).tails = []) ∧
    ((one (arrTile (some (plain 1)) none)).canIssue 0 = true ∧
      arrRunCheck 0 0 0 0 0 1 0 0 (one (arrTile (some (plain 1)) none)) = none ∧
      ((one (arrTile (some (plain 1)) none)).tile 0).run ≠ none) ∧
    ((1 : BitVec 2).toNat < 2 ∧ (2 : BitVec 2).toNat = 2 ∧ arrRange 1 0 0x80000000 0x88000000 = true) ∧
    (arrRange 1 0 0 0x81000000 = false ∧ pairOk (arrParams 1 0 0 0 0 0x81000000 0 0 0).wfmt
      (arrParams 1 0 0 0 0 0x81000000 0 0 0).afmt = false) ∧
    (arrRange 1 0 0 0x88000000 = false ∧ pairOk (arrParams 1 0 0 0 0 0x88000000 0 0 0).wfmt
      (arrParams 1 0 0 0 0 0x88000000 0 0 0).afmt = true ∧
      ((one (arrTile (some (plain 1)) (some (plain 1)))).tile 0).pendRun ≠ none) := by decide +kernel

theorem witness_ArrayRegisterTransfers :
    ((one (arrTile (some (plain 1)) none)).canIssue 0 = true ∧
      992 = (992 + ((one (arrTile (some (plain 1)) none)).rs 0 1 0 0).toNat) % 2 ^ 32 ∧ 992 + 31 ≤ 1023) ∧
    (993 = (993 + ((one (arrTile (some (plain 1)) none)).rs 0 1 0 0).toNat) % 2 ^ 32 ∧ 1023 < 993 + 31) ∧
    (((one (arrTile (some (plain 1)) none)).tile 0).run = some (plain 1) ∧ (plain 1).covers 0 31 = true) ∧
    (∀ r, (((one (arrTile (some (plain 1)) none)).tile 0).run = some r ∨
      ((one (arrTile (some (plain 1)) none)).tile 0).pendRun = some r ∨
      r ∈ ((one (arrTile (some (plain 1)) none)).tile 0).tails) → r.covers 0 992 = false) ∧
    ((one (arrTile (some (plain 1)) none)).tile 0).summing 0 992 = false := by
  refine ⟨by decide +kernel, by decide +kernel, ⟨rfl, by decide +kernel⟩, fun r h => ?_, rfl⟩
  obtain h | h | h := h
  · rw [← Option.some.inj (show some (plain 1) = some r from h)]
    decide
  · exact nomatch (show (none : Option ArrRun) = some r from h)
  · exact nomatch (show r ∈ ([] : List ArrRun) from h)

/-- A tile at enabled cycle `e`, its pair in a plain operation whose one block has taken `c` of its 32 cycles. -/
def blockAt (e c : Nat) : Tile :=
  { arrTile (some { plain 1 with
      opened := 1, cur := some { j := 0, load := { len := 2048, beta := 4 }, steps := 32, time := 32, cyc := c } }) none with ecc := e }

theorem witness_ArrayBlockEnds :
    ((one (blockAt 9 31)).acts 0 = true ∧ ((one (blockAt 9 31)).tile 0).tails = [] ∧
      ((one (blockAt 9 31)).tile 0).run.map (fun r => (decide (r.mode < 2), r.cur.map fun b => decide (b.cyc < b.time)))
        = some (true, some true)) ∧
    (((one (blockAt 9 32)).tile 0).run.map (fun r => (decide (r.mode < 2), r.cur.map fun b => decide (b.time ≤ b.cyc)))
        = some (true, some true) ∧
      (0, 0) ∈ (plain 1).rowKeys ∧ ((plain 1).weightsOf 0 []).length = 256 ∧
      ((plain 1).stepTable { beta := 4 }).length = 256) ∧
    (((one go).tile 0).run = none) ∧
    (({ plain 1 with mode := 2 } : ArrRun).mode = 2 ∧
      ((one (arrTile (some { plain 1 with mode := 2 }) none)).tile 0).run = some { plain 1 with mode := 2 }) := by
  decide +kernel

theorem witness_PendingRunStarts :
    ((one (arrTile none (some (plain 1)))).acts 0 = true ∧ ((one (arrTile none (some (plain 1)))).tile 0).run = none ∧
      ((one (arrTile none (some (plain 1)))).tile 0).pendRun = some (plain 1) ∧
      ((one (arrTile none (some (plain 1)))).tile 0).tails = []) ∧
    (((one go).tile 0).pendRun = none) ∧ (((one (arrTile (some (plain 1)) (some (plain 1)))).tile 0).run ≠ none) ∧
    ((plain 1).mode ≠ 2 ∧ ((one { arrTile none (some (plain 1)) with tails := [plain 1] }).tile 0).tails ≠ []) := by
  decide +kernel

theorem witness_SquareOutputs :
    (arrParams 2 0 1 0 0x40000 0x88000000 0 0 0).halfOf 0 = some 0 ∧ (arrParams 2 0 1 0 0x40000 0x88000000 0 0 0).halfOf 1 = some 1 ∧
    (arrParams 2 0 1 0 0 0x67000000 0 0 0).halfOf 0 ≠ some 0 := by decide +kernel

theorem witness_BlockCompletion :
    (∃ n : Int, ({} : AccEntry).part = n * 2 ^ 340) ∧ ((255 : Nat) = 255 ∨ (0 : Nat) = 255) ∧
    (({} : AccEntry).nan = false ∧ ({} : AccEntry).posInf = false ∧ ({} : AccEntry).negInf = false ∧
      ({} : AccEntry).part = 0 ∧ (254 : Nat) < 255) ∧
    (∃ w : PendWrite, w.dest = .sum 2047 (some 1) true true) :=
  ⟨⟨0, (Int.zero_mul _).symm⟩, .inl rfl, by decide +kernel,
    { dest := .sum 2047 (some 1) true true, land := 0, issued := 0, slot := 1 }, rfl⟩

theorem witness_Fp32ToInt8RoundsAndSaturates :
    decodeFp32 0x7FC00000 = .nan ∧ (∃ neg, decodeFp32 0xFF800000 = .inf neg) ∧
    (∃ neg sig e, decodeFp32 0x43000000 = .fin neg sig e ∧ e < 0) ∧
    (∃ neg sig e, decodeFp32 0x7F000000 = .fin neg sig e ∧ 0 ≤ e) := by
  refine ⟨rfl, ⟨_, rfl⟩, ⟨_, _, _, rfl, by decide +kernel⟩, _, _, _, rfl, by decide +kernel⟩

theorem witness_Binary32NanAndZeroRules :
    isNan32 0x7FC00000 = true ∧ isNan32 0 = false ∧ isNan32 0x7F800000 = false := by decide +kernel

theorem witness_VectorLaneArithmetic : (one go).canIssue 0 = true := by decide +kernel

theorem witness_VectorMovesAndSelections : (one go).canIssue 0 = true ∧ (3 : BitVec 3).toNat < 4 := by decide +kernel

theorem witness_VectorConversionsAndFunctions :
    ((one go).canIssue 0 = true ∧ (14 : BitVec 4).toNat ≠ 15 ∧ (2 : BitVec 4).toNat < 3 ∧ ((one go).tile 0).sfuAt = none) ∧
    (∃ f, vmxqFmt (5 : BitVec 4).toNat = some f) ∧
    (∃ c, ((one { go with sfuAt := some 6, ecc := 10 }).tile 0).sfuAt = some c ∧
      c + 3 < ((one { go with sfuAt := some 6, ecc := 10 }).tile 0).ecc) ∧
    (((one { go with sfuAt := some 7, ecc := 10 }).tile 0).sfuAt = some 7 ∧
      ((one { go with sfuAt := some 7, ecc := 10 }).tile 0).ecc ≤ 7 + 3) := by
  refine ⟨by decide +kernel, ⟨_, rfl⟩, ⟨_, rfl, by decide +kernel⟩, by decide +kernel⟩

theorem witness_VectorScratchpadAccess :
    (one go).canIssue 0 = true ∧
    (∀ w ∈ (List.range 32).map fun n => (((one go).rs 0 2 0 31).toNat + 4095 + n) % 65536,
      ((one go).tile 0).lost (w / 4) = false) ∧
    (∀ w ∈ (List.range 32).map fun n => (((one go).rs 0 2 0 31).toNat + 4095 + n) % 65536,
      tget 0 ((one go).tile 0).flips w = 0) := by decide +kernel

theorem witness_RegisterWritesLand : (0 : Nat) < 1 ∧ ({} : Tile).ecc < 1 := by decide +kernel

theorem witness_SameCycleWrites :
    sameDest (.s 3 1) (.s 3 2) = true ∧ sameDest (.v 3 []) (.v 3 [(0, 1)]) = true ∧
    sameDest (.p 3 true) (.p 3 false) = true ∧ sameDest (.s 3 1) (.s 4 2) = false := by decide +kernel

/-! The mover and queue slots -/

/-- Tile 0 with its descriptor, at word 0, all zeros but its operation `op`: operation 0 copies one byte. -/
def described (op : Byte) : State := one { go with mem := if op = 0 then [] else [(3, op * 16)] }

/-- What tile 0 reads as its descriptor. -/
def readDesc (s : State) : State × Option (List Word) :=
  s.lineRead 0 2 (s.tile 0).readNow ((List.range 16).map fun i => s.descWord 0 31 + i)

theorem witness_MoverSlotOperations :
    ((one go).canIssue 0 = true ∧
      (∀ n, n < 16 → (0xFFFF : BitVec 16).getLsbD n = true → (((one go).tile 0).tag n).st ≠ .active)) ∧
    ((one (tagged { st := .active })).canIssue 0 = true ∧ (0x8000 : BitVec 16).getLsbD 15 = true ∧
      (((one (tagged { st := .active })).tile 0).tag 15).st = .active ∧ ((one (tagged { st := .active })).tile 0).cur = none) ∧
    ((((described 0).tile 0).tag 15).st = .idle ∧ (described 0).descWord 0 31 % 16 = 0 ∧
      (readDesc (described 0)).2.map ((readDesc (described 0)).1.descOk 0) = some true) ∧
    ((readDesc (described 15)).2.map ((readDesc (described 15)).1.descOk 0) = some false) := by
  decide +kernel

/-- A tile that may send `n` words to queue 7 of each neighbour. -/
def credited (n : Nat) : Tile := { go with credits := [(7, n), (15, n), (23, n), (31, n)] }

theorem witness_QueueSends :
    ((inPart .open_ (credited 4)).canIssue 0 = true ∧ (28 : BitVec 5).toNat + (3 : BitVec 2).toNat ≤ 31 ∧
      (inPart .open_ (credited 4)).sendWaits 0 (2 : BitVec 3).toNat 7 4 = false ∧ (2 : BitVec 3).toNat < 4 ∧
      ((inPart .open_ (credited 4)).neighbour 0 2).isSome = true) ∧
    ((inPart .open_ (credited 4)).sendWaits 0 (3 : BitVec 3).toNat 7 4 = false ∧
      (inPart .open_ (credited 4)).neighbour 0 3 = none) ∧
    ((inPart .open_ go).sendWaits 0 4 7 4 = false ∧
      (inPart .open_ go).meshTarget ((inPart .open_ go).rs 0 4 5 31) = some 0) ∧
    ((inPart .open_ (credited 3)).canIssue 0 = true ∧ (inPart .open_ (credited 3)).sendWaits 0 2 7 4 = true ∧
      ((inPart .open_ (credited 3)).tile 0).cur = none) := by decide +kernel

/-- A tile whose queue 7 holds an entry of `n` words, arrived by `link`, sent by tile 280. -/
def queued (link n : Nat) : Tile :=
  { go with queues := [(7, { entries := [{ words := List.replicate n 5, link := link, sender := 280 }] })] }

theorem witness_QueueReceives :
    ((one (queued 4 4)).canIssue 0 = true ∧ (((one (queued 4 4)).tile 0).queue 7).entries
        = [{ words := List.replicate 4 5, link := 4, sender := 280 }] ∧
      (List.replicate 4 (5 : Word)).length = (3 : BitVec 2).toNat + 1 ∧ ((one (queued 4 4)).tile 0).qFlips = [] ∧
      (28 : BitVec 5).toNat + (3 : BitVec 2).toNat ≤ 31) ∧
    ((one (queued 3 1)).canIssue 0 = true ∧ (((one (queued 3 1)).tile 0).queue 7).entries
        = [{ words := [5], link := 3, sender := 280 }] ∧ (280 : Nat) ≠ 0 ∧
      [(5 : Word)].length = (0 : BitVec 2).toNat + 1) ∧
    ((((one go).tile 0).queue 7).entries = [] ∧ ((one go).tile 0).cur = none) ∧
    ((List.replicate 4 (5 : Word)).length ≠ (2 : BitVec 2).toNat + 1) := by decide +kernel

/-! Tile events -/

/-- Tile 0 in partition 0 of a formed job whose tide is done on this device. -/
def afterDone0 (x : Tile) : State :=
  { one x with job := { formed := true, doneSent := true }, parts := [(0, { st := .closing, inJob := true, stripeCount := 8 })] }

theorem witness_TileFaultEffect :
    (((inPart .open_ go).tile 0).faulted = none ∧ (inPart .open_ go).partOf 0 = some 0 ∧
      (inPart .open_ go).afterDone 0 = false ∧ running ((inPart .open_ go).part 0).st = true) ∧
    (((afterDone0 go).tile 0).faulted = none ∧ (afterDone0 go).partOf 0 = some 0 ∧ (afterDone0 go).afterDone 0 = true ∧
      running ((afterDone0 go).part 0).st = true ∧ ((afterDone0 go).part 0).inJob = true) ∧
    (((one { go with faulted := some { code := 0x220, payload := 0, bundle := 0 } }).tile 0).faulted ≠ none) := by decide +kernel

/-- A tile that has held `i` for `n` enabled cycles. -/
def holds (i : Instr) (n : Nat) (x : Tile) : Tile := { x with held := [i], heldFor := n }

/-- A tile whose stall limit is 2^4 cycles, its tag 15 active. -/
def quick : Tile := { tagged { st := .active } with qctl := 4 }

theorem witness_HeldBundleEvents :
    ((one (holds (.bellWait 0 3 0) 0 (belled 0))).acts 0 = true ∧
      ((one (holds (.bellWait 0 3 0) 0 (belled 0))).tile 0).faulted = none ∧
      ((one (holds (.bellWait 0 3 0) 0 (belled 0))).tile 0).held = [.bellWait 0 (3 : BitVec 2) 0] ∧
      ((one (holds (.bellWait 0 3 0) 0 (belled 0))).tile 0).issuing = true ∧
      ((one (holds (.bellWait 0 3 0) 0 (belled 0))).tile 0).bellBound 3 = true ∧
      tget 0 ((one (holds (.bellWait 0 3 0) 0 (belled 0))).tile 0).fireCnt 3 = 0) ∧
    (0 < tget 0 ((one (holds (.bellWait 0 3 0) 0 (belled 1))).tile 0).fireCnt 3 ∧
      ((one (holds (.bellWait 0 3 0) 0 (belled 1))).tile 0).canaryRunning = false) ∧
    (((one (holds (.qRecv 0 7 3 1 0) 15 quick)).tile 0).heldFor < 2 ^ (quick.qctl.toNat % 32) ∧
      2 ^ (quick.qctl.toNat % 32) ≤ ((one (holds (.qRecv 0 7 3 1 0) 16 quick)).tile 0).heldFor ∧
      (((one (holds (.qRecv 0 7 3 1 0) 16 quick)).tile 0).queue 7).entries = []) ∧
    ((0x8000 : BitVec 16).getLsbD 15 = true ∧
      (((one (holds (.mvWait 0 0x8000 0) 16 quick)).tile 0).tag 15).st = .active ∧
      2 ^ (quick.qctl.toNat % 32) ≤ ((one (holds (.mvWait 0 0x8000 0) 16 quick)).tile 0).heldFor) ∧
    ((one { go with pc := 1024 }).canIssue 0 = true ∧ 1024 ≤ ((one { go with pc := 1024 }).tile 0).pc) := by decide +kernel

/-- A cluster asked for cadence 6 at tile-cycle count `n`. -/
def slowing (n : Nat) : State := { one go with cc := n, clusters := [(0, { power := true, nextCadence := some 6 })] }

/-- Tile 0 with the corrected line 15 noted for bank 15 if `q`. -/
def scrubbed (q : Bool) : State :=
  one { go with corrList := if q then [(15, [(15, false)])] else [], flips := if q then [(60, 1)] else [] }

theorem witness_CadenceAndScrubber :
    (((slowing 8).cluster 0).nextCadence = some 6 ∧ (slowing 8).cc % 8 = 0 ∧ (slowing 9).cc % 8 ≠ 0) ∧
    ((scrubbed true).acts 0 = true ∧ ((scrubbed true).tile 0).slotDue ((scrubbed true).tile 0).arrStep 15 = true ∧
      (tget [] ((scrubbed true).tile 0).corrList 15).filter (fun e => !e.2) = [(15, false)] ∧
      60 / 4 = 15 ∧ popcount39 (tget 0 ((scrubbed true).tile 0).flips 60) = 1) ∧
    (((scrubbed false).tile 0).slotDue ((scrubbed false).tile 0).arrStep 15 = true ∧
      (tget [] ((scrubbed false).tile 0).corrList 15).filter (fun e => !e.2) = [] ∧ ((scrubbed false).tile 0).flips = []) ∧
    (((one { go with slotted := 0x8000 }).tile 0).slotDue ((one { go with slotted := 0x8000 }).tile 0).arrStep 15 = false) ∧
    (((one { go with scrubReported := true }).tile 0).missWin = (one { go with scrubReported := true }).now / 1000000000) := by
  decide +kernel

/-- Tile 0 with `n` rings pending on port 3 and one ring and one fire in flight to it. -/
def ringing (n : Nat) : Tile :=
  { belled 0 with ringsFlying := [(3, 9)], pendRings := [(3, n)], firesFlying := [3] }

/-- Tile 0 with cluster channel 1 of MODE 1, to which its port 3 is bound. -/
def channelled (n : Nat) : State :=
  { one { ringing n with bellPorts := 0x88000 } with
    clusters := [(0, { power := true, bellChan := [(1, 0x40)] })] }

theorem witness_BellsRingAndFire :
    (((one (ringing 254)).tile 0).ringsFlying = [(3, 9)] ∧ tget 0 ((one (ringing 254)).tile 0).pendRings 3 < 255) ∧
    (255 ≤ tget 0 ((one (ringing 255)).tile 0).pendRings 3 ∧ ((one (ringing 255)).tile 0).faulted = none ∧
      (one (ringing 255)).partOf 0 = none) ∧
    ((channelled 1).boundPorts 0 1 = [(0, 3)] ∧ chanMode ((channelled 1).chanWord 0 1) = 1 ∧
      (channelled 1).ringPending (0, 3) = true ∧ (channelled 0).ringPending (0, 3) = false) ∧
    (((one (ringing 0)).tile 0).firesFlying = [3] ∧ tget 0 ((one (ringing 0)).tile 0).fireCnt 3 < 255) ∧
    (255 ≤ tget 0 ((one { go with fireCnt := [(3, 255)], ended := true }).tile 0).fireCnt 3 ∧
      ((one { go with fireCnt := [(3, 255)], ended := true }).tile 0).ended = true) := by decide +kernel

/-- An ended tile. -/
def done (x : Tile) : Tile := { x with issuing := false, ended := true }

/-- A partition of no stripe: a statement over its tiles holds at once. -/
def bare (p : Partition) : State := { State.reset with parts := [(0, p)] }

theorem witness_TideBells :
    ((one (done {})).acts 0 = true ∧ ((one (done {})).tile 0).rung = false ∧ ((one (done {})).tile 0).drained = true) ∧
    (((one go).tile 0).drained = false ∧ ((one go).tile 0).rung = false) ∧
    ((one (done { inReset := true })).acts 0 = false) ∧
    (((bare { st := .open_ }).part 0).st = .open_ ∧ ((bare { st := .open_ }).part 0).awaiting = false ∧
      (bare { st := .open_ }).tilesOf 0 = []) ∧
    (0 ∈ (inPart .open_ go).tilesOf 0 ∧ ((inPart .open_ go).tile 0).rung = false) ∧
    (((bare { st := .open_, faultBell := true }).part 0).faultBell = true) := by
  refine ⟨by decide +kernel, by decide +kernel, by decide +kernel, ?_⟩
  refine ⟨by decide +kernel, ⟨?_, rfl⟩, rfl⟩
  exact List.mem_flatMap.2 ⟨0, by simp, List.mem_map.2 ⟨0, by simp [inPart, State.part, tget], by decide +kernel⟩⟩

/-! Tides -/

theorem bare_nothingHeld (x : Partition) (h : x.enableHeld = none) : (bare x).nothingHeld := by
  refine ⟨fun p => ?_, rfl, rfl⟩
  simp only [bare, State.part, tget]
  split
  · exact h
  · rfl

theorem witness_TideStartsEveryTile :
    (((inPart .boundary go).part 0).inJob = false ∧ ((inPart .boundary go).part 0).cause = none ∧
      (inPart .boundary go).startHeld 0 = false ∧ ((inPart .boundary go).part 0).st = .boundary ∧
      ((inPart .boundary go).part 0).stopPending = false ∧ ((inPart .boundary go).part 0).single = none ∧
      ((inPart .boundary go).part 0).tablesDue = false ∧
      ((inPart .boundary go).part 0).nextStartT ≤ (inPart .boundary go).time) ∧
    (((bare { st := .open_, awaiting := true }).part 0).st = .open_ ∧
      ((bare { st := .open_, awaiting := true }).part 0).awaiting = true ∧
      ((bare { st := .open_, awaiting := true }).part 0).replaying = false ∧
      (bare { st := .open_, awaiting := true }).startHeld 0 = false) ∧
    (((bare { st := .open_, awaiting := true, replaying := true }).part 0).replaying = true ∧
      ((bare { st := .open_, awaiting := true, replaying := true }).part 0).stopPending = false ∧
      (bare { st := .open_, awaiting := true, replaying := true }).tablesFlying 0 = false ∧
      (bare { st := .open_, awaiting := true, replaying := true }).startHeld 0 = false) := by decide +kernel

/-- A tide whose bell has rung and whose results are in, with cause `c`. -/
def closing (c : Option FaultCause) : Partition := { st := .closing, bellReady := true, resultsIn := true, cause := c }

/-- A fault of kind `k`. -/
def fault (k : FaultKind) : FaultCause := { kind := k, code := 0x220, unit := 0 }

theorem witness_TideCommitTakesEffect :
    (((bare (closing none)).part 0).st = .closing ∧ ((bare (closing none)).part 0).bellReady = true ∧
      ((bare (closing none)).part 0).resultsIn = true ∧ ((bare (closing none)).part 0).inJob = false ∧
      ((bare (closing none)).part 0).cause = none) ∧
    (((bare (closing (some (fault .program)))).part 0).cause ≠ none) := by decide +kernel

theorem witness_AbandonStopsThePartition :
    (((bare (closing none)).part 0).inJob = false ∧ ((bare (closing none)).part 0).st = .closing ∧
      ((bare (closing none)).part 0).cause = none) ∧
    (((bare { st := .open_, cause := some (fault .stall) }).part 0).st = .open_ ∧
      ((bare { st := .open_, cause := some (fault .stall) }).part 0).cause ≠ none ∧
      ((bare { st := .boundary, cause := some (fault .stop) }).part 0).st = .boundary) := by decide +kernel

/-- An abandoned tide of a fault of kind `k`, replayed `n` times. -/
def abandoned (k : FaultKind) (n : Nat) : Partition :=
  { st := .abandoning, cause := some (fault k), causes := [fault k], replays := n
    image := some { params := { replayLimit := 1 } } }

theorem witness_AbandonOutcome :
    (((bare (abandoned .hardware 0)).part 0).inJob = false ∧ ((bare (abandoned .hardware 0)).part 0).st = .abandoning ∧
      ((bare (abandoned .hardware 0)).part 0).settled = false ∧ (bare (abandoned .hardware 0)).writesFlying 0 = false ∧
      ((bare (abandoned .hardware 0)).part 0).cause = some (fault .hardware) ∧
      ((bare (abandoned .hardware 0)).part 0).causes = [fault .hardware] ∧ (fault .hardware).code ≠ 0x0701 ∧
      ((bare (abandoned .hardware 0)).part 0).freeAbandons = 0 ∧ ((bare (abandoned .hardware 0)).part 0).cleared = false ∧
      (bare (abandoned .hardware 0)).hasEndpoints 0 = false ∧
      ((bare (abandoned .hardware 0)).part 0).replays < ((bare (abandoned .hardware 0)).params 0).replayLimit) ∧
    (bare (abandoned .hardware 0)).nothingHeld ∧
    (((bare (abandoned .stall 0)).part 0).stallSeen = [] ∧ (fault .stall).kind = .stall) ∧
    (((bare (abandoned .stall 1)).params 0).replayLimit ≤ ((bare (abandoned .stall 1)).part 0).replays ∧
      (fault .stop).kind = .stop ∧ (fault .program).kind = .program) ∧
    (bare { abandoned .stall 0 with
      image := some { fabric := some { channels := [{ id := 0, send := true, port := 0, peer := 1, blockFlits := 1, x := 0, y := 0, word := 0, blocks := 1 }] } } }).hasEndpoints 0 = true :=
  ⟨by decide +kernel, bare_nothingHeld _ rfl, by decide +kernel⟩

/-- A partition that recovers by restoring all its persistent state. -/
def repairing : State := bare { st := .recovering, restoreAll := true }

theorem witness_RecoveryAndStopPoint :
    ((bare { st := .recovering }).nothingHeld ∧ (bare { st := .boundary, stopPending := true }).nothingHeld ∧
      repairing.nothingHeld) ∧
    ((repairing.part 0).st = .recovering ∧ (repairing.part 0).repairLeft = true ∧
      (repairing.repairAll 0).recoveryStop 0 = none) ∧
    (((bare { st := .recovering }).part 0).inJob = false ∧ ((bare { st := .recovering }).part 0).st = .recovering ∧
      ((bare { st := .recovering }).part 0).repairLeft = false ∧ (bare { st := .recovering }).recoveryStop 0 = none ∧
      ((bare { st := .recovering }).part 0).cause = none ∧ (bare { st := .recovering }).resetsLeft 0 = false ∧
      (bare { st := .recovering }).tripLeft 0 = false ∧ ((bare { st := .recovering }).part 0).recovered = false) ∧
    ((bare { st := .boundary, stopPending := true }).part 0).nextStartT ≤ (bare { st := .boundary, stopPending := true }).time ∧
    ((bare { st := .boundary, stopPending := true }).part 0).stopPending = true ∧
    (((bare { st := .open_, awaiting := true, replaying := true, stopPending := true }).part 0).awaiting = true) ∧
    (((bare { st := .boundary }).part 0).stopPending = false ∧ ((bare { st := .boundary }).part 0).single = none) := by
  refine ⟨⟨bare_nothingHeld _ rfl, bare_nothingHeld _ rfl, bare_nothingHeld _ rfl⟩, ?_⟩
  decide +kernel

/-! Links -/

/-- Tile 0 as `x` over tile 280 as `y`, its neighbour to the south, in one partition. -/
def pair (x y : Tile) : State := { inPart .open_ x with tiles := [(0, x), (280, y)] }

/-- Queue 7 of `n` words from word 0. -/
def qOf (n : Nat) : Tile := { go with qcfg := [(7, BitVec.ofNat 32 (2 ^ 31 + n * 512))] }

/-- Tile 280 sending one entry of four words north. -/
def northward : Tile := { go with out := [(0, [.entry 7 { words := [1, 2, 3, 4], sender := 280 }])] }

theorem witness_LinkEntryArrival :
    ((pair (qOf 4) northward).neighbour 0 2 = some 280 ∧ (280 : Nat) ≠ 0 ∧ (2 : Nat) < 4 ∧
      (pair (qOf 4) northward).portsAct 0 = true ∧ tget [] ((pair (qOf 4) northward).tile 0).hold 2 = [] ∧
      tget (0, 0) ((pair (qOf 4) northward).tile 0).linkUse 2 = (0, 0) ∧ (280 : Nat) < 80640 ∧
      ((pair (qOf 4) northward).tile 0).laterThan 7 2 = [] ∧
      tget [] ((pair (qOf 4) northward).tile 280).out ((2 + 2) % 4) = [.entry 7 { words := [1, 2, 3, 4], sender := 280 }] ∧
      ((pair (qOf 4) northward).tile 0).readyBefore 7 2 = false ∧
      (pair (qOf 4) northward).absorbing 0 = false ∧ ((pair (qOf 4) northward).tile 0).qEn 7 = true ∧
      4 ≤ ((pair (qOf 4) northward).tile 0).qRoom 7) ∧
    ((pair (done {}) northward).portsAct 0 = true ∧ (pair (done {}) northward).absorbing 0 = true) ∧
    ((pair (qOf 3) northward).portsAct 0 = true ∧ (pair (qOf 3) northward).absorbing 0 = false ∧
      ((pair (qOf 3) northward).tile 0).qRoom 7 < 4 ∧ ((pair (qOf 3) northward).tile 0).roomAt 7 2 < 4) ∧
    ((tget (0, 0) ((pair { qOf 4 with linkUse := [(2, (1, 16))] } northward).tile 0).linkUse 2).1 ≠ 0 ∧
      (pair { qOf 4 with linkUse := [(2, (1, 16))] } northward).down 0 = false) ∧
    (((pair { qOf 8 with fresh := [(7, 3)] } northward).tile 0).laterThan 7 2 = [3]) := by decide +kernel

/-- A tile whose south link holds an entry of four words for queue 7 of `n` words. -/
def held (n : Nat) : Tile := { qOf n with hold := [(2, [(7, { words := [1, 2, 3, 4], sender := 280 })])] }

theorem witness_LinkSignalsAndCredits :
    ((one (held 4)).portsAct 0 = true ∧ tget [] ((one (held 4)).tile 0).hold 2 = [(7, { words := [1, 2, 3, 4], sender := 280 })] ∧
      (one (held 4)).absorbing 0 = false ∧ 4 ≤ ((one (held 4)).tile 0).qRoom 7 ∧
      ((one (held 4)).tile 0).readyBefore 7 2 = false ∧ ((one (held 3)).tile 0).roomAt 7 2 < 4) ∧
    (((one { held 8 with hold := [(1, [(7, { words := [1], sender := 1 })]), (2, [(7, { words := [1], sender := 280 })])] }).tile 0).readyBefore
      7 2 = true) ∧
    (((one { go with creditsFlying := [(3 * 8 + 7, 4)] }).tile 0).creditsFlying = [(3 * 8 + 7, 4)]) ∧
    (((one { go with sigFlying := [(3, 0)] }).tile 0).sigFlying = [(3, 0)]) ∧
    (((one { go with sigFlying := [(3, 1)] }).tile 0).sigFlying = [(3, 1)]) ∧
    (((one { go with sigFlying := [(3, 2)] }).tile 0).sigFlying = [(3, 2)]) := by decide +kernel

/-- An entry of four words from tile 280 for queue 7 of tile 0. -/
def meshEntry : Packet := { kind := .entry, vc := 2, words := [1, 2, 3, 4], queue := 7, src := 280, dst := 0, len := 16 }

/-- Tile 0 as `x` with a packet delivered. -/
def arriving (p : Packet) (x : Tile) : State := { one x with arrived := [p] }

/-- `n` entries parked for queue 6. -/
def parkedFor (n : Nat) (x : Tile) : Tile := { x with ingress := List.replicate n (6, { words := [1, 2], sender := 280 }) }

theorem witness_MeshRouteEntries_order : ∀ n, ((arriving meshEntry (qOf 4)).tile 0).laterThan n 4 = [] := fun _ => rfl

theorem witness_MeshRouteEntries :
    (((one { go with egress := [meshEntry] }).tile 0).egress = [meshEntry] ∧
      (one { go with egress := [meshEntry] }).portsAct 0 = true ∧
      (one { go with egress := [meshEntry] }).localRoom 0 meshEntry = true) ∧
    ((arriving meshEntry (qOf 4)).arrived = [meshEntry] ∧ meshEntry.kind = .entry ∧ meshEntry.dst = 0 ∧
      meshEntry.failed = false ∧ meshEntry.src ≠ 0 ∧ (arriving meshEntry (qOf 4)).absorbing 0 = false ∧
      ((arriving meshEntry (qOf 4)).tile 0).qEn 7 = true ∧ 4 ≤ ((arriving meshEntry (qOf 4)).tile 0).qRoom 7 ∧
      (arriving meshEntry (qOf 4)).portsAct 0 = true ∧ ((arriving meshEntry (qOf 4)).tile 0).ingress.length < 8 ∧
      ((arriving meshEntry (qOf 4)).tile 0).readyBefore 7 4 = false ∧
      ∀ i ∈ ((arriving meshEntry (qOf 4)).tile 0).ingress, i.1 ≠ 7) ∧
    ((arriving meshEntry (done {})).absorbing 0 = true) ∧
    (((arriving meshEntry (qOf 3)).tile 0).qRoom 7 < 4 ∧
      ((arriving meshEntry (parkedFor 7 (qOf 3))).tile 0).ingress.length < 8 ∧
      8 ≤ ((arriving meshEntry (parkedFor 8 (qOf 3))).tile 0).ingress.length) ∧
    ((one (parkedFor 1 (qOf 4))).absorbing 0 = false ∧ (one (parkedFor 1 (qOf 4))).portsAct 0 = true ∧
      ((one (parkedFor 1 (qOf 4))).tile 0).ingress = [(6, { words := [1, 2], sender := 280 })] ∧
      ((one (parkedFor 1 (qOf 4))).tile 0).qRoom 6 < 2 ∧
      ((one (parkedFor 1 { go with qcfg := [(6, 0x80000400)] })).tile 0).readyBefore 6 4 = false ∧
      2 ≤ ((one (parkedFor 1 { go with qcfg := [(6, 0x80000400)] })).tile 0).qRoom 6) := by decide +kernel

theorem witness_LocalWriteStoresTheBytes :
    Memory.wf ((one { go with mem := [(5, 7)] }).tile 0).mem = true ∧ ((one { go with mem := [(5, 7)] }).tile 0).flips = [] := by
  decide +kernel

theorem witness_RowSevenPorts :
    (({} : Tile).portFree {} (bankOfLine 15) = false ∧ ({ slotted := 0x8000 } : Tile).portFree {} (bankOfLine 15) = true ∧
      ({ slotted := 0x8000 } : Tile).mvBusy = none) ∧
    ((({ mvBusy := some (47, [(15, true)]) } : Tile).busy false = some (47, [(15, true)])) ∧ (47 : Nat) ≠ 15) ∧
    ((({ rmBusy := some (0, [(15, true)]) } : Tile).busy true = some (0, [(15, true)])) ∧ (0 : Nat) ≠ 1) := by decide +kernel

/-- A copy of one byte from HBM to the scratchpad, at row `r`, with requests `f` on their way. -/
def copying (r : Nat) (f : List MvReq) : TagState := { st := .active, desc := [0, 0, 0x30000000], row := r, flying := f }

/-- Request 4 of a tag: the write of one byte of row 0. -/
def fourth : MvReq := { seqNo := 4, row := 0, ix := 0, pos := 0, len := 1, isRead := false }

/-- The acknowledgement of request 4 of tag 15. -/
def ack : Packet := { kind := .writeDone, vc := 1, dst := 0, tag := 15, seqNo := 4 }

theorem witness_MoverRequestsAndCompletion :
    ((one go).acts 0 = true ∧ ((one go).tile 0).mvBusy = none ∧ ((one go).tile 0).turn ≠ some 15 ∧
      ((one { go with mvIssued := true }).tile 0).mvIssued = true ∧
      ({ inPart .open_ go with parts := [(0, { st := .open_, stripeCount := 8, halted := true })] } : State).haltedAt 0 = true) ∧
    ((one (tagged (copying 0 []))).acts 0 = true ∧ ((one (tagged (copying 0 []))).tile 0).mvBusy = none ∧
      (one (tagged (copying 0 []))).haltedAt 0 = false ∧ ((one (tagged (copying 0 []))).tile 0).mvIssued = false ∧
      ((one (tagged (copying 0 []))).tile 0).turn = some 15 ∧ ((one (tagged (copying 0 []))).tile 0).markFirst = false ∧
      ((one (tagged (copying 0 []))).tile 0).inFlight + ((one (tagged (copying 0 []))).tile 0).markFlying.length < 64 ∧
      (decodeDesc (copying 0 []).desc).check = 0 ∧ (decodeDesc (copying 0 []).desc).indexed = false ∧
      spaceOf (decodeDesc (copying 0 []).desc).src = 3 ∧ (((one (tagged (copying 0 []))).tile 0).tag 15).full = false) ∧
    ((arriving ack (tagged (copying 1 [fourth]))).arrived = [ack] ∧
      ack.kind = .writeDone ∧ ack.dst = 0 ∧ ack.tag = 15 ∧ ack.toPort = none ∧ ack.unit = .none ∧ ack.failed = false ∧
      (arriving ack (tagged (copying 1 [fourth]))).mayAnswer 0 15 4 = true ∧
      ((((arriving ack (tagged (copying 1 [fourth]))).tile 0).tag 15).flying.find? fun x => x.seqNo = 4) = some fourth ∧
      fourth.isRead = false) ∧
    (((one (tagged (copying 1 []))).tile 0).tag 15 = copying 1 [] ∧ ((one (tagged (copying 1 []))).tile 0).tagDone 15 = true ∧
      (decodeDesc (copying 1 []).desc).comp = false ∧
      ((one (tagged { copying 1 [] with desc := [0x20000, 0, 0x30000000] })).tile 0).tagDone 15 = true ∧
      (decodeDesc [0x20000, 0, 0x30000000]).comp = true) := by decide +kernel

/-- A read, and a write, of tile 280 at the end of tile 0's scratchpad. -/
def remote (k : PacketKind) : Packet := { kind := k, vc := 2, src := 280, dst := 0, addr := 262140, len := 4, data := [1, 2, 3, 4] }

theorem witness_RemoteAccessAndResume :
    ((arriving (remote .readReq) go).arrived = [remote .readReq] ∧ isRemote (remote .readReq) = true ∧ (remote .readReq).dst = 0 ∧
      (arriving (remote .readReq) go).acts 0 = true ∧ (remote .readReq).unit = .none ∧ (arriving (remote .readReq) go).down 0 = false ∧
      (remote .readReq).kind = .readReq ∧ ((arriving (remote .readReq) go).tile 0).flips = [] ∧
      (remote .write).kind = .write ∧ isRemote (remote .mgmt) = true ∧ (remote .accWrite).kind = .accWrite) ∧
    ((arriving (remote .readReq) { inReset := true }).down 0 = true) ∧
    (({ State.reset with pages := [(9, { st := .demoting })] } : State).page 9).st = .demoting ∧
    ¬ ((State.reset.page 9).st = .demoting ∨ (State.reset.page 9).st = .promoting) := by decide +kernel

/-! The mesh and the memory ports -/

/-- The flit of a one-flit write to router (rx, 0). -/
def flitTo (rx : Nat) : Flit := { pkt := { kind := .write, vc := 2, dstRx := rx }, idx := 0 }

/-- `flitTo rx`, waiting at the local input of router (0, 0). -/
def waiting (rx : Nat) : State := { State.reset with routers := [(0, { inq := [(bufKey 4 0 2 false, [flitTo rx])] })] }

theorem witness_FlitsAndEdgePackets :
    ((waiting 0).dropForeign 0 0 = waiting 0 ∧ (waiting 0).arbitrate 0 0 4 = some (4, flitTo 0) ∧
      (waiting 0).candidate 0 0 4 2 4 false = some (flitTo 0) ∧ (flitTo 0).idx + 1 = (flitTo 0).pkt.flits) ∧
    ((waiting 5).dropForeign 0 0 = waiting 5 ∧ (waiting 5).arbitrate 0 0 1 = some (4, flitTo 5) ∧
      (waiting 5).candidate 0 0 1 2 4 false = some (flitTo 5) ∧ (0 : Nat) < 147) ∧
    (tget [] ({ State.reset with edge := [(edgeKey 7 true false, [meshEntry])] } : State).edge (edgeKey 7 true false) = [meshEntry] ∧
      tget [] ({ State.reset with edge := [(edgeKey 7 true true, [meshEntry])] } : State).edge (edgeKey 7 true false) = []) := by
  decide +kernel

/-- Memory port 15 with packets queued. -/
def port15 (x : MemPort) : State := { State.reset with memports := [(15, x)] }

/-- A request for memory port 15 on channel `vc`. -/
def request (k : PacketKind) (vc : Nat) : Packet :=
  { kind := k, vc := vc, toPort := some 15, addr := 160, len := 4, data := [1, 2, 3, 4] }

theorem witness_PseudoChannelsShareOut :
    (31 : Nat) < 32 ∧ pseudoChannel (8192 * 8388607 + 256 * 31) = pseudoChannel (8192 * 8388607 + 256 * 31) ∧ (255 : Nat) < 256 := by
  decide +kernel

theorem witness_MemoryPortService :
    (({ port15 {} with arrived := [request .readReq 3] } : State).arrived = [request .readReq 3] ∧
      (request .readReq 3).toPort = some 15 ∧ ((port15 {}).memport 15).requests.length < 256) ∧
    (((port15 {}).memport 15).trained = false ∧ ((port15 { inSelfRefresh := true }).memport 15).inSelfRefresh = true) ∧
    (((port15 { requests := [request .readReq 3, request .write 2] }).memport 15).requests
        = [request .readReq 3, request .write 2] ∧ (request .readReq 3).vc = 3 ∧ (request .write 2).vc ≠ 3 ∧
      7 ≤ ((port15 { vc3Skip := 7 }).memport 15).vc3Skip ∧ ((port15 {}).memport 15).vc3Skip < 7) ∧
    (((port15 { trained := true, requests := [request .readReq 3] }).memport 15).tripped = false ∧
      ((port15 { trained := true, requests := [request .readReq 3] }).memport 15).inSelfRefresh = false ∧
      ((port15 { trained := true, requests := [request .readReq 3] }).memport 15).trained = true ∧
      ((port15 { trained := true, requests := [request .readReq 3] }).memport 15).requests = [request .readReq 3] ∧
      ((port15 { trained := true, requests := [request .readReq 3] }).memport 15).scrubs = [] ∧
      (∀ p ∈ ((port15 { trained := true, requests := [request .readReq 3] }).memport 15).requests, p.vc = 3) ∧
      (request .readReq 3).kind = .readReq ∧ (request .readReq 3).unit = .none ∧ (request .readReq 3).tiered = false ∧
      ((port15 { trained := true, requests := [request .write 2] }).memport 15).requests = [request .write 2] ∧
      (request .write 2).kind = .write ∧ (request .write 2).unit = .none ∧
      (∃ p ∈ ((port15 { trained := true, requests := [request .write 2] }).memport 15).requests, p.vc ≠ 3)) ∧
    (((port15 { trained := true, vc3Skip := 7, scrubs := [(256, 1)] }).memport 15).scrubs = [(256, 1)] ∧
      7 ≤ ((port15 { trained := true, vc3Skip := 7, scrubs := [(256, 1)] }).memport 15).vc3Skip ∧
      ((port15 { trained := true, vc3Skip := 7, scrubs := [(256, 1)] }).memport 15).trained = true) := by decide +kernel

/-- Stack 15 tripped 5 s and 1 ns ago, within partition 0. -/
def longTripped : State :=
  { State.reset with memports := [(15, { tripped := true })], tsStep := 5000000001
                     parts := [(0, { st := .recovering, stripeCount := 8 })] }

theorem witness_StackTemperatures :
    ((port15 {}).stripeOn (15 % 8) = true ∧ (85 * 16 - 1 : Int) < 85 * 16 ∧ ((port15 {}).memport 15).hot = false) ∧
    (({ port15 {} with fuses := { stripeMap := 0x7F } } : State).stripeOn (15 % 8) = false) ∧
    ((95 * 16 : Int) ≤ 1520 ∧ ((port15 {}).memport 15).tripped = false) ∧
    (((port15 { tripped := true }).memport 15).tripped = true ∧ (80 * 16 - 1 : Int) < 80 * 16) ∧
    ((longTripped.memport 15).tripped = true ∧ longTripped.now > (longTripped.memport 15).tripAt + 5000000000 ∧
      longTripped.partOfPort 15 = some 0) := by decide +kernel

/-! Tiering -/

/-- Partition 0 with slots 0 to 9 and CXL frames 0 to 15, one of them in a window, as `x` further says. -/
def tiered (pages : Tab Page) (f : Partition → Partition) : State :=
  { State.reset with pages := pages, windows := [(0, 2 ^ 19)]
                     parts := [(0, f { st := .boundary, slotCount := 10, cxlCount := 16 })] }

/-- A page of slot 9 in state `k`. -/
def pageAt (k : PgSt) (tier : Nat) : Tab Page := [(4194303, { st := k, tier := tier, owner := 9, frame := 5 })]

/-- A move of that page of two requests, `done` of them done. -/
def mv (down : Bool) (done : Nat) : Move := { page := 4194303, dest := 0, demote := down, sent := 2, done := done }

/-- `pageAt .hbm 0` next to be demoted. -/
def demotes : State := tiered (pageAt .hbm 0) fun q => { q with moveQueue := [(4194303, true, false)] }

theorem witness_PageMoves :
    (demotes.partOfSlot (demotes.page 4194303).owner = some 0 ∧ (demotes.part 0).moveQueue = [(4194303, true, false)] ∧
      (demotes.page 4194303).st = .hbm ∧ (demotes.part 0).moves.length < 64 ∧ demotes.freeCxl 0 = [0]) ∧
    (64 ≤ ((tiered (pageAt .hbm 0) fun q => { q with moves := List.replicate 64 (mv true 0) }).part 0).moves.length) ∧
    ((demotes.part 0).moveQueue = [(4194303, true, false)] ∧ 4194303 ≠ 9) ∧
    (((tiered (pageAt .demoting 0) fun q => { q with moves := [mv true 2] }).part 0).moves = [mv true 2] ∧
      (mv true 2).page = 4194303 ∧ (mv true 2).done = (mv true 2).sent ∧ (mv true 2).demote = true ∧
      (mv false 2).demote = false ∧ (mv true 1).done ≠ (mv true 1).sent) := by decide +kernel

/-- A partition of one stripe with one free HBM frame, whose slot 9 has its page in CXL, next to be promoted. -/
def promotes : State :=
  { State.reset with
    pages := pageAt .cxl 1
    parts := [(0, { st := .boundary, stripeCount := 1, slotCount := 10, homeFrames := 73728 - 321
                    moveQueue := [(4194303, false, false)] })] }

theorem witness_PageMoves_up :
    promotes.partOfSlot (promotes.page 4194303).owner = some 0 ∧ (promotes.part 0).moveQueue = [(4194303, false, false)] ∧
    (promotes.page 4194303).st = .cxl ∧ (promotes.part 0).moves.length < 64 ∧ promotes.bestPort 0 = some 0 ∧
    promotes.freeHbm 0 0 = [73727] := by decide +kernel

/-- A request of tag 15 of tile 0, or of a page's move, to CXL frame 5, sent on the link. -/
def uio5 (move : Bool) : Uio :=
  { part := 0, frame := 5, page := 4194303, off := 0, tile := 0, tag := 15, seqNo := 4, len := 256, move := move, write := move
    sent := true }

theorem witness_CxlFrameReads :
    (({ State.reset with uio := [uio5 false] } : State).uio = [uio5 false] ∧ (uio5 false).sent = true ∧
      (uio5 false).move = false ∧ ({ State.reset with uio := [uio5 false] } : State).uioDropped (uio5 false) = false ∧
      ({ State.reset with uio := [uio5 false] } : State).frameRetired 1 (uio5 false).frame = false) ∧
    (State.reset.takeUio 5 = none) ∧
    ((uio5 true).move = true ∧ (uio5 true).write = true ∧
      (tiered (pageAt .demoting 0) fun q => { q with moves := [{ mv true 0 with tag := 15 }] }).moveWanted (uio5 true) = true) ∧
    ((State.reset.page (uio5 true).page).cfill = 0 ∧
      0 < (({ State.reset with pages := [(4194303, { cfill := 1 })] } : State).page (uio5 true).page).cfill) := by
  decide +kernel

/-- A partition whose image has a tiering script that answers 1, with no free frame asked for but one. -/
def scripted (st : PState) (slots low : Nat) : State :=
  { State.reset with
    parts := [(0, { st := st, slotCount := slots
                    image := some { tiering := some { lowFree := low, recency := 1, code := [0x37C00001, 0] } } })]
    streams := [(0, { st := .open_ })] }

/-- The script of `scripted`. -/
def section1 (low : Nat) : TieringSec := { lowFree := low, recency := 1, code := [0x37C00001, 0] }

/-- A partition of one stripe with its home region one frame short of the whole stack. -/
def spacious : State :=
  { State.reset with parts := [(0, { st := .boundary, stripeCount := 1, homeFrames := 73728 - 321 })] }

theorem witness_TieringRuns :
    (((State.reset.part 0).image.bind fun b => b.tiering) = none) ∧
    ((((scripted .open_ 0 1).part 0).image.bind fun b => b.tiering) = some (section1 1) ∧
      ((scripted .open_ 0 1).part 0).st ≠ .boundary) ∧
    ((section1 1).lowFree ≠ 0 ∧ 1 ≤ (spacious.part 0).homeFrames ∧ (section1 1).lowFree ≤ spacious.freeHbmCount 0) ∧
    (((scripted .boundary 0 1).part 0).st = .boundary ∧ (scripted .boundary 0 1).freeHbmCount 0 < 1 ∧
      ((scripted .boundary 0 1).part 0).tierRan = false ∧ (scripted .boundary 0 1).tierCandidates 0 (section1 1) = []) ∧
    ((bare { st := .boundary, tierRan := true }).part 0).tierRan = true ∧
    ((scripted .boundary 1 1).tierCandidates 0 (section1 1) = [(0, false)] ∧ (scripted .boundary 1 1).isAdmitted 0 = false ∧
      (runScript (section1 1).code (fun _ => 0) 1024
        { regs := (scripted .boundary 1 1).tierRegs 0 (0, false) ((scripted .boundary 1 1).freeHbmCount 0)
            ((scripted .boundary 1 1).freeCxl 0).length }).2 = true ∧
      ((runScript (section1 1).code (fun _ => 0) 1024
        { regs := (scripted .boundary 1 1).tierRegs 0 (0, false) ((scripted .boundary 1 1).freeHbmCount 0)
            ((scripted .boundary 1 1).freeCxl 0).length }).1.getD 15 0).toNat = 1) := by decide +kernel

/-- A mailbox page whose command has not completed. -/
def busy (n : Nat) (s : State) : State := { s with mbx := [(n, { done := false })] }

/-- Partition 0 at a boundary, its one page command freeing page 4194303, which mailbox 0 carries. -/
def freeing : State := busy 0 (tiered (pageAt .cxl 1) fun q => { q with pageCmds := [.free 0 4194303 1] })

/-- Slot 9 parking into the second tier, its one page as `k` says. -/
def parks (k : PgSt) : State := { State.reset with pages := pageAt k 1, streams := [(9, { parking := true })] }

theorem witness_PageCommandsAndParks :
    ((freeing.part 0).gap = true ∧ (freeing.part 0).pageCmds = [.free 0 4194303 1] ∧ (freeing.part 0).streamCmds = [] ∧
      (freeing.mb 0).done = false ∧ ∀ g ∈ pageRange 4194303 1, (freeing.page g).st = .free ∨
        (freeing.partOfSlot (freeing.page g).owner = some 0 ∧ ((freeing.page g).st = .hbm ∨ (freeing.page g).st = .cxl))) ∧
    ((busy 0 State.reset).mb 0).done = false ∧
    (({ State.reset with job := { formed := true, i := 1 } } : State).awaitsOwner 9 = true) ∧
    (((parks .cxl).stream 9).parking = true ∧ ((parks .cxl).stream 9).parkTarget = 0 ∧ ((parks .cxl).stream 9).heldCmd = none ∧
      ((parks .cxl).stream 9).st ≠ .draining ∧ (parks .cxl).job.formed = false ∧ (parks .cxl).preparing = none ∧
      (∀ g ∈ (parks .cxl).pagesOf 9, g.2.st = .cxl) ∧ ∃ g ∈ (parks .hbm).pagesOf 9, g.2.st ≠ .cxl) := by
  decide +kernel

/-! Streams -/

/-- `s` reached by the host, over a link that gives it host memory or not. -/
def reached (access : Bool) (s : State) : State :=
  { s with link := { s.link with trained := true, access := access }, pins := { s.pins with perst := false } }

/-- Partition 0 with all slots, and slot 9 as `x`, the host reaching the device. -/
def slot9 (x : Stream) : State :=
  reached true { State.reset with parts := [(0, { st := .open_, slotCount := 8192 })], streams := [(9, x)] }

theorem witness_StreamDoorbells :
    ((slot9 { st := .open_ }).partOfSlot 9 = some 0 ∧ (9 : Nat) < 8192 ∧ (slot9 { st := .open_ }).streamRoot = true ∧
      (slot9 { st := .open_ }).hostReaches = true ∧ (slot9 { st := .open_ }).link.lost = false ∧
      ((slot9 { st := .open_ }).stream 9).st ≠ .closed ∧ ((slot9 { st := .open_ }).stream 9).st ≠ .parked ∧
      isOpen ((slot9 { st := .open_ }).stream 9).st = true ∧
      ((16 : Word).toNat + 2 ^ 32 - ((slot9 { st := .open_ }).stream 9).producerSeen) % 2 ^ 32 ≤
        (((slot9 { st := .open_ }).stream 9).consumer + 2 ^ (((slot9 { st := .open_ }).stream 9).ringLog + 4) + 2 ^ 32 -
          ((slot9 { st := .open_ }).stream 9).producerSeen) % 2 ^ 32) ∧
    ((((slot9 { st := .open_ }).stream 9).consumer + 2 ^ (((slot9 { st := .open_ }).stream 9).ringLog + 4) + 2 ^ 32 -
          ((slot9 { st := .open_ }).stream 9).producerSeen) % 2 ^ 32 <
        ((17 : Word).toNat + 2 ^ 32 - ((slot9 { st := .open_ }).stream 9).producerSeen) % 2 ^ 32) ∧
    (((slot9 {}).stream 9).st = .closed ∧ ((slot9 { st := .parked }).stream 9).st = .parked) ∧
    ((reached true State.reset).partOfSlot 8191 = none ∧ (8191 : Nat) < 8192 ∧ (reached true State.reset).streamRoot = true ∧
      (reached true State.reset).hostReaches = true ∧ (reached true State.reset).link.lost = false) ∧
    (State.reset.hostReaches = false) := by decide +kernel

/-- A host link with access, the cache enabled, ring line `k` held or stale. -/
def cached (k : Nat) (isStale : Bool) (s : State) : State :=
  { s with link := { s.link with access := true, cacheEnable := true
                                 lines := if isStale then [] else [k], stale := if isStale then [k] else [] } }

theorem witness_RingHeadLines :
    ((cached 9 false State.reset).link.lines.contains 9 = true) ∧
    ((cached 32768 true State.reset).link.access = true ∧ (cached 32768 true State.reset).link.cacheEnable = true ∧
      (cached 32768 true State.reset).link.stale.contains 32768 = true ∧ 32768 = 32768 + 0) ∧
    ((cached 9 true (slot9 { st := .open_ })).link.stale.contains 9 = true ∧
      (cached 9 true (slot9 { st := .open_ })).streamRoot = true ∧
      isOpen ((cached 9 true (slot9 { st := .open_ })).stream 9).st = true ∧
      (cached 9 true (slot9 { st := .open_ })).cached 9 = true ∧ (slot9 { st := .open_ }).cached 9 = false) ∧
    (State.reset.link.access = false ∧ (reached true State.reset).link.stale.contains 9 = false) := by decide +kernel

/-- Slot 9 open with one entry not read. -/
def unread : State := slot9 { st := .open_, producerSeen := 1 }

theorem witness_RingEntries :
    (isOpen (unread.stream 9).st = true ∧ (unread.stream 9).ringStopped = false ∧
      (unread.stream 9).ringEntries.length < ((unread.stream 9).producerSeen + 2 ^ 32 - (unread.stream 9).consumer) % 2 ^ 32 ∧
      unread.streamRoot = true ∧ unread.link.access = true ∧ unread.partResets 9 = false) ∧
    ((reached false unread).link.access = false ∧
      ({ unread with resets := [{ scope := 2, index := 0 }] } : State).partResets 9 = true) ∧
    ((entryOf 0).1.bad = true ∧ (entryOf 0x10000).2 ≠ 0) ∧
    ((entryOf 0x0101).2 = 0 ∧ (entryOf 0x0101).1.bad = false ∧ (entryOf 0x0101).1.kind = 1) ∧
    ((entryOf 0x0102).2 = 0 ∧ (entryOf 0x0102).1.bad = false ∧ (entryOf 0x0102).1.kind = 2 ∧
      behind (entryOf 0x0102).1.pos (unread.stream 9).tokenPos = false ∧ behind (entryOf 0x0102).1.pos 1 = true ∧
      (unread.stream 9).ringEntries = []) ∧
    ((entryOf 0x100000000000000000000000000000003).2 = 0 ∧ (entryOf 0x100000000000000000000000000000003).1.bad = false ∧
      (entryOf 0x100000000000000000000000000000003).1.kind = 3) ∧
    ((entryOf 4).2 = 0 ∧ (entryOf 4).1.bad = false ∧ (entryOf 4).1.kind = 4) := by decide +kernel

/-- Slot 9 admitted to the next tide of partition 0, its one input to be read from host address 64. -/
def awaited : Admit :=
  { slot := 0, stream := 9, prefill := true, sample := false, firstPos := 0, inputs := [], drafts := 0, want := [.ref 64 1] }

/-- Partition 0 waiting for that read, its tables due or not. -/
def prompting (due : Bool) : State :=
  reached true { State.reset with
    parts := [(0, { st := .open_, slotCount := 10, nextAdmitted := [awaited], tablesDue := due })]
    streams := [(9, { st := .active, promptRef := some (64, 1) })] }

theorem witness_PromptReads :
    (((prompting false).stream 9).promptRef = some (64, 1) ∧ (prompting false).partOfSlot 9 = some 0 ∧
      ((prompting false).part 0).nextAdmitted = [awaited] ∧ awaited.stream = 9 ∧ awaited.want = [.ref 64 1] ∧
      [(7 : Word)].length = 1 ∧ ((prompting false).part 0).tablesDue = false ∧
      isOpen ((prompting false).stream 9).st = true ∧ (prompting false).link.access = true ∧
      (prompting false).partResets 9 = false) ∧
    ((reached false (prompting true)).link.access = false ∧
      ({ prompting false with resets := [{ scope := 2, index := 0 }] } : State).partResets 9 = true) ∧
    (((prompting true).part 0).tablesDue = true ∧ (prompting true).job.formed = false) := by decide +kernel

/-- Partition 0 whose tide-complete bell has rung, its results not read. -/
def rungBell : State := bare { st := .closing, bellReady := true }

theorem witness_AdmissionAndResults :
    (((bare { st := .open_ }).part 0).st = .open_ ∧ ((bare { st := .open_ }).part 0).awaiting = false ∧
      ((bare { st := .open_ }).part 0).admitTide ≠ some (((bare { st := .open_ }).part 0).tide + 1) ∧
      (bare { st := .open_ }).streamRoot = true) ∧
    (((bare { st := .open_, admitTide := some 1 }).part 0).admitTide
      = some (((bare { st := .open_, admitTide := some 1 }).part 0).tide + 1)) ∧
    ((rungBell.part 0).st = .closing ∧ (rungBell.part 0).bellReady = true ∧ (rungBell.part 0).resultsIn = false ∧
      rungBell.job.formed = false ∧ rungBell.unitTake (keyResults 0) = (rungBell, .idle) ∧ rungBell.resultPlaces 0 = []) ∧
    (((bare { st := .closing }).part 0).bellReady = false) := by decide +kernel

/-- `rungBell` while its read of the receivers, of `w` answers, is on its way. -/
def readingBell (w : Nat) : State := { rungBell with unitAcc := [{ key := keyResults 0, phase := 0, tag := 4, part := 0, want := w }] }

theorem witness_AdmissionAndResults_reads :
    (readingBell 1).unitTake (keyResults 0) = (readingBell 1, .waiting) := by decide +kernel

/-- A verdict of tile 0 for slot 9. -/
def verdictOf : Packet := { kind := .verdict, vc := 2, src := 0, words := [9, 0] }

/-- Slot 9 admitted to the tide at hand with `d` drafts. -/
def admitted9 (d : Nat) : List Admit :=
  [{ slot := 0, stream := 9, prefill := false, sample := true, firstPos := 0, inputs := [], drafts := d }]

theorem witness_VerdictsArrive :
    (({ inPart .open_ go with arrived := [verdictOf] } : State).arrived = [verdictOf] ∧ verdictOf.kind = .verdict ∧
      ({ inPart .open_ go with arrived := [verdictOf] } : State).partOf verdictOf.src = some 0 ∧ verdictOf.failed = false ∧
      verdictOf.words = [9, 0] ∧ verdictOf.acc ≠ 1 ∧ (9 : Word).toNat < 2 ^ 15) ∧
    (∃ a ∈ ((inPart .open_ go).modPart 0 fun q => { q with admitted := admitted9 1 }).part 0 |>.admitted,
      a.stream = (9 : Word).toNat ∧ 0 < a.drafts) ∧
    (∀ a ∈ ((inPart .open_ go).part 0).admitted, a.stream ≠ (9 : Word).toNat) := by
  decide +kernel

/-- A completion record of slot 9. -/
def rec9 : CompletionRec := { stream := 9, kind := 3, pos := 0, cause := 3 }

/-- Slot 9 draining, its last record written. -/
def drained9 : State :=
  { State.reset with parts := [(0, { st := .loaded, slotCount := 10 })], streams := [(9, { st := .draining, closedWritten := true })] }

/-- Partition 0 between tides, a stream command waiting, slot 9 as `x`. -/
def commanded (c : StreamCmd) (x : Stream) : State :=
  { State.reset with parts := [(0, { st := .loaded, slotCount := 10, streamCmds := [(0, c)] })], streams := [(9, x)] }

theorem witness_CompletionWrites :
    (((bare { st := .open_, completions := [rec9] }).part 0).completions ≠ [] ∧
      (bare { st := .open_, completions := [rec9] }).link.access = false) ∧
    ((cached 9 false (bare { st := .open_, completions := [rec9], cringLog := 5 })).link.access = true ∧
      0 < ((cached 9 false (bare { st := .open_, completions := [rec9], cringLog := 5 })).part 0).ringRoom) ∧
    (rec9.stream < 2 ^ 16 ∧ rec9.pos < 2 ^ 32 ∧ rec9.tide < 2 ^ 48 ∧ rec9.kind = 3 ∧ rec9.cause < 2 ^ 32) := by decide +kernel

theorem witness_StreamCommandsAct :
    (drained9.partOfSlot 9 = some 0 ∧ (drained9.stream 9).st = .draining ∧ drained9.isAdmitted 9 = false ∧
      (drained9.stream 9).parking = false ∧ drained9.pagesAtWork 9 = false ∧
      (drained9.stream 9).closedWritten = true ∧ (drained9.stream 9).heldCmd = none ∧ drained9.job.formed = false ∧
      drained9.preparing = none ∧
      ((drained9.part 0).completions ++ (drained9.part 0).holdArea).all (fun c => decide (c.stream ≠ 9)) = true) ∧
    (((commanded (.close 9) { st := .open_ }).part 0).gap = true ∧ (commanded (.close 9) { st := .open_ }).job.formed = false ∧
      (commanded (.close 9) { st := .open_ }).partOfSlot 9 = some 0 ∧ ((commanded (.close 9) { st := .open_ }).part 0).pageCmds = [] ∧
      ((commanded (.close 9) { st := .open_ }).part 0).streamCmds = [(0, .close 9)] ∧
      isOpen ((commanded (.close 9) { st := .open_ }).stream 9).st = true ∧
      (commanded (.close 9) { st := .open_ }).isAdmitted 9 = false ∧
      ((commanded (.close 9) { st := .open_ }).stream 9).closedWritten = false ∧
      ((commanded (.close 9) { st := .open_ }).stream 9).drafter = false) ∧
    (((commanded (.open_ 9 []) {}).part 0).streamCmds = [(0, .open_ 9 [])] ∧
      ((commanded (.open_ 9 []) {}).stream 9).st = .closed) ∧
    (((commanded (.park 9 0 0) { st := .open_ }).part 0).streamCmds = [(0, .park 9 0 0)] ∧
      (commanded (.park 9 0 0) { st := .open_ }).parkForbidden 9 = false) ∧
    (((commanded (.resume 9 0 []) { st := .parked }).part 0).streamCmds = [(0, .resume 9 0 [])] ∧
      ((commanded (.resume 9 0 []) { st := .parked }).stream 9).st = .parked) := by decide +kernel

/-! Hikolink and jobs -/

/-- Ports of `l`, and the job `b`. -/
def fabric (b : Job) (l : Tab HPort) : State := { State.reset with job := b, hports := l }

/-- Member (1, 0, 0) of a job of four devices in a row: its parent is over port 0, its one child over port 3. -/
def member4 : Job := { formed := true, dimI := 4, dimJ := 1, dimK := 1, i := 1, joined := 4 }

/-- The same job's root. -/
def root4 : Job := { member4 with i := 0 }

/-- An up port whose neighbour has rank `r`. -/
def upPort (r : Nat) : HPort := { up := true, farRank := r, farPort := 0 }

/-- A DATA flit for rank `d` with the CRC of sequence number 0 from rank 2, port 0. -/
def dataFlit (d ch : Nat) : HFlit :=
  { type := 1, dst := d, channel := ch, crc := flitCrc { type := 1, dst := d, channel := ch } 0 2 0 }

/-- FABRIC_SLOTS of partition 0: port 0's slot 1 forwards channel 5 from port 3, slot 2 sends channel 6; channel 6 sends from
tile 0 and channel 7 receives there. -/
def slots : FabricSec :=
  { slots := [(1, 0x98000005), (2, 0x40000006)]
    channels := [{ id := 6, send := true, port := 0, peer := 0, blockFlits := 1, x := 0, y := 0, word := 0, blocks := 1 },
                 { id := 7, send := false, port := 0, peer := 0, blockFlits := 1, x := 0, y := 0, word := 16, blocks := 2 }] }

/-- Partition 0 in state `st` of the job `b` with FABRIC_SLOTS, over ports `l`. -/
def meshed (b : Job) (q : Partition) (l : Tab HPort) : State :=
  { fabric b l with parts := [(0, { q with inJob := true, image := some { fabric := some slots } })] }

theorem dataFlit_crc (d ch : Nat) : (dataFlit d ch).crc = flitCrc (dataFlit d ch) 0 2 0 := by
  simp only [dataFlit, flitCrc, flitBytes, flitCount]

theorem witness_HikolinkFlitsReceived :
    (((fabric member4 []).hport 3).up = false) ∧
    (((fabric member4 [(3, upPort 2)]).hport 3).up = true ∧ (dataFlit 1 5).type = 1 ∧
      (dataFlit 1 5).crc = flitCrc (dataFlit 1 5) ((fabric member4 [(3, upPort 2)]).hport 3).rxSeq
        ((fabric member4 [(3, upPort 2)]).hport 3).farRank ((fabric member4 [(3, upPort 2)]).hport 3).farPort ∧
      (dataFlit 1 5).dst = (fabric member4 [(3, upPort 2)]).job.rank ∧ (dataFlit 1 5).channel ≠ 0xFFE0 ∧
      (fabric member4 [(3, upPort 2)]).planPart (dataFlit 1 5).channel = none ∧
      ((fabric member4 [(3, upPort 2)]).hport 3).received.length < 1024) ∧
    ((dataFlit 0 5).dst ≠ (meshed member4 { st := .open_ } [(3, upPort 2)]).job.rank ∧
      (meshed member4 { st := .open_ } [(3, upPort 2)]).forwards 3 (dataFlit 0 5).channel = true ∧
      ((meshed member4 { st := .open_ } [(3, upPort 2)]).hport 3).forward.length < 512) ∧
    ((fabric member4 [(3, upPort 2)]).job.needsPort 3 = true ∧ (fabric member4 [(3, upPort 2)]).job.formed = true ∧
      (fabric member4 [(3, upPort 2)]).jobParts.any (fabric member4 [(3, upPort 2)]).afterDone = false ∧
      (fabric member4 [(3, upPort 2)]).job.away.contains ((fabric member4 [(3, upPort 2)]).hport 3).farRank = false) := by
  refine ⟨by decide +kernel, ⟨by decide +kernel, rfl, dataFlit_crc 1 5, by decide +kernel⟩, by decide +kernel, by decide +kernel⟩

/-- A flit of channel 6. -/
def flit6 : HFlit := { type := 1, channel := 6 }

/-- A flit of the committing CONFIRM. -/
def committing : HFlit := { type := 2, recs := [(0, .confirm 0 0 false {})] }

/-- Member 4's port 0 as `x`, with FABRIC_SLOTS; `n` says that its beacon has been sent. -/
def sending (n : Bool) (x : HPort) : State := meshed member4 { st := .open_ } [(0, { x with named := n })]

theorem witness_SlotSending :
    (State.reset.beaconDue 0 = false ∧ (State.reset.hport 0).up = false ∧ (State.reset.hport 0).absorbing = false) ∧
    ((sending false (upPort 0)).beaconDue 0 = true ∧ ((sending false (upPort 0)).hport 0).absorbing = false) ∧
    ((sending true { upPort 0 with urgent := [flit6], absorbing := true }).beaconDue 0 = false ∧
      ((sending true { upPort 0 with urgent := [flit6], absorbing := true }).hport 0).up = true ∧
      ((sending true { upPort 0 with urgent := [flit6], absorbing := true }).hport 0).absorbing = true ∧
      ((sending true { upPort 0 with urgent := [flit6], absorbing := true }).hport 0).slot % 16 = 0 ∧
      ((sending true { upPort 0 with urgent := [flit6], absorbing := true }).hport 0).urgent = [flit6] ∧ flit6.type ≠ 0 ∧
      flit6.channel ≠ 0xFFE0) ∧
    ((sending true { upPort 0 with urgent := [flit6] }).beaconDue 0 = false ∧
      ((sending true { upPort 0 with urgent := [flit6] }).hport 0).up = true ∧
      ((sending true { upPort 0 with urgent := [flit6] }).hport 0).absorbing = false ∧
      ((sending true { upPort 0 with urgent := [flit6] }).hport 0).urgent = [flit6] ∧
      ((sending true { upPort 0 with urgent := [flit6] }).isRoot && flit6.commits) = false) ∧
    ((meshed root4 { st := .closing } [(3, { upPort 2 with named := true, urgent := [committing] })]).beaconDue 3 = false ∧
      ((meshed root4 { st := .closing } [(3, { upPort 2 with named := true, urgent := [committing] })]).hport 3).up = true ∧
      ((meshed root4 { st := .closing } [(3, { upPort 2 with named := true, urgent := [committing] })]).isRoot
        && committing.commits) = true) ∧
    (((sending true { upPort 0 with bulk := [flit6] }).hport 0).urgent = [] ∧
      ((sending true { upPort 0 with bulk := [flit6] }).hport 0).bulk = [flit6]) ∧
    (slotKind ((sending true { upPort 0 with slot := 15 }).slotEntry 0 15) = 0 ∧
      ((sending true { upPort 0 with slot := 15 }).hport 0).slot % 16 ≠ 0) ∧
    (slotKind ((sending true { upPort 0 with slot := 2, staged := [flit6] }).slotEntry 0 2) = 1 ∧
      flit6.channel = slotChan ((sending true { upPort 0 with slot := 2, staged := [flit6] }).slotEntry 0 2)) := by
  decide +kernel

/-- Channel 6 of `slots`. -/
def chan6 : Channel := { id := 6, send := true, port := 0, peer := 0, blockFlits := 1, x := 0, y := 0, word := 0, blocks := 1 }
/-- Channel 7 of `slots`. -/
def chan7 : Channel := { id := 7, send := false, port := 0, peer := 0, blockFlits := 1, x := 0, y := 0, word := 16, blocks := 2 }

/-- A received flit of block 0 of channel 7. -/
def flit7 : HFlit := { type := 1, channel := 7 }

/-- FABRIC_SLOTS' partition in tide 0, port 3 up, with an access of key `key` in phase `ph` answered by `v`. -/
def engaged (key ph : Nat) (v : Word) (l : List HFlit) : State :=
  { meshed member4 { st := .open_ } [(3, { upPort 2 with received := l })] with
    unitAcc := [{ key := key, phase := ph, tag := 0, part := 0, want := 1, got := [(0, leBytes 4 v.toNat)] }] }

/-- The same partition with no access at hand. -/
def unengaged (l : List HFlit) : State := meshed member4 { st := .open_ } [(3, { upPort 2 with received := l })]

theorem witness_EndpointEngines_send :
    ((unengaged []).channel 6 true = some (0, chan6) ∧ ((unengaged []).part 0).engines = true ∧
      (unengaged []).unitTake (keySend 6) = (unengaged [], .idle) ∧ tget 0 (unengaged []).job.chanBlocks 6 < chan6.blocks) ∧
    ((engaged (keySend 6) 0 0 []).channel 6 true = some (0, chan6) ∧ ((engaged (keySend 6) 0 0 []).part 0).engines = true ∧
      ((engaged (keySend 6) 0 0 []).unitTake (keySend 6)).2 = .done 0 (leBytes 4 0) ∧
      leNat (leBytes 4 0) = (blockValue 0 0).toNat ∧ ((engaged (keySend 6) 0 0 []).unitTake (keySend 6)).1.stagingRoom chan6 = true ∧
      ((engaged (keySend 6) 1 0 []).unitTake (keySend 6)).2 = .done 1 (leBytes 4 0) ∧
      ((engaged (keySend 6) 2 0 []).unitTake (keySend 6)).2 = .done 2 (leBytes 4 0)) ∧
    (({ engaged (keySend 6) 0 0 [] with unitAcc := [{ key := keySend 6, phase := 0, tag := 0, part := 0, want := 1 }] } : State).unitTake
      (keySend 6)).2 = .waiting ∧
    ((meshed member4 { st := .loaded } []).channel 6 true = some (0, chan6) ∧
      ((meshed member4 { st := .loaded } []).part 0).engines = false) ∧
    State.reset.channel 6 true = none := by decide +kernel

/-- Block 1 of channel 7 received, block 0 passed. -/
def onSecond : State :=
  meshed { member4 with chanBlocks := [(65543, 1)] } { st := .open_ } [(3, { upPort 2 with received := [{ flit7 with block := 1 }] })]

theorem witness_EndpointEngines_receive :
    ((unengaged [flit7]).channel 7 false = some (0, chan7) ∧ ((unengaged [flit7]).part 0).engines = true ∧
      chan7.blockFlits ≤ ((unengaged [flit7]).blockFlits 7 0).length ∧
      tget 0 (unengaged [flit7]).job.chanBlocks (65536 + 7) < chan7.blocks) ∧
    (onSecond.channel 7 false = some (0, chan7) ∧ (onSecond.part 0).engines = true ∧
      chan7.blockFlits ≤ (onSecond.blockFlits 7 1).length ∧ tget 0 onSecond.job.chanBlocks (65536 + 7) < chan7.blocks ∧
      onSecond.unitTake (keyRecv 7) = (onSecond, .idle) ∧ 0 < tget 0 onSecond.job.chanBlocks (65536 + 7)) ∧
    ((engaged (keyRecv 7) 0 0 [flit7]).channel 7 false = some (0, chan7) ∧
      ((engaged (keyRecv 7) 0 0 [flit7]).part 0).engines = true ∧
      chan7.blockFlits ≤ ((engaged (keyRecv 7) 0 0 [flit7]).blockFlits 7 0).length ∧
      ((engaged (keyRecv 7) 0 0 [flit7]).unitTake (keyRecv 7)).2 = .done 0 (leBytes 4 0) ∧
      leNat (leBytes 4 0) = (blockValue 0 (0 - 1)).toNat ∧
      ((engaged (keyRecv 7) 1 0 [flit7]).unitTake (keyRecv 7)).2 = .done 1 (leBytes 4 0) ∧
      ((engaged (keyRecv 7) 2 0 [flit7]).unitTake (keyRecv 7)).2 = .done 2 (leBytes 4 0)) ∧
    (({ engaged (keyRecv 7) 0 0 [flit7] with unitAcc := [{ key := keyRecv 7, phase := 0, tag := 0, part := 0, want := 1 }] } : State).unitTake
      (keyRecv 7)).2 = .waiting ∧
    ((unengaged [flit7]).unitTake (keyRecv 7)).2 = .idle ∧ ((unengaged []).blockFlits 7 0).length < chan7.blockFlits ∧
    ((meshed member4 { st := .loaded } []).channel 7 false = some (0, chan7) ∧
      ((meshed member4 { st := .loaded } []).part 0).engines = false) ∧
    State.reset.channel 7 false = none := by decide +kernel

theorem witness_PortShutdown :
    (((fabric member4 [(3, { upPort 2 with shutting := true })]).hport 3).shutting = true ∧
      (fabric member4 [(3, { upPort 2 with shutting := true })]).trainWait = none) ∧
    (((fabric { member4 with left := true } [(0, { upPort 0 with shutting := true })]).hport 0).shutting = true ∧
      (fabric { member4 with left := true } []).job.left = true ∧
      (fabric { member4 with left := true } []).job.parentPort = some 0) ∧
    (State.reset.hport 3).shutting = false := by decide +kernel

theorem meshed_nothingHeld (b : Job) (q : Partition) (l : Tab HPort) (h : q.enableHeld = none) (k : b.leaveMbx = none) :
    (meshed b q l).nothingHeld := by
  refine ⟨fun p => ?_, k, rfl⟩
  simp only [meshed, State.part, tget]
  split
  · exact h
  · rfl

theorem witness_TreeRecordsDown :
    ((meshed member4 { st := .closing } []).job.formed = true ∧ (meshed member4 { st := .closing } []).isRoot = false ∧
      (meshed member4 { st := .closing } []).jobParts = [0] ∧ (meshed member4 { st := .closing } []).job.abandoned = false ∧
      ((meshed member4 { st := .closing } []).part 0).st = .closing) ∧
    (∀ q : Partition, q.enableHeld = none → (meshed member4 q []).nothingHeld) ∧
    (((meshed member4 { st := .open_, awaiting := true } []).part 0).st = .open_ ∧
      ((meshed member4 { st := .open_, awaiting := true } []).part 0).awaiting = true ∧
      ((meshed member4 { st := .open_, awaiting := true } []).part 0).replaying = false) ∧
    ((meshed member4 { st := .abandoning } []).jobParts = [0] ∧
      ((meshed member4 { st := .abandoning } []).part 0).st = .abandoning) :=
  ⟨by decide +kernel, fun q h => meshed_nothingHeld _ q _ h rfl, by decide +kernel⟩

theorem witness_MemberRecords :
    ((fabric member4 [(3, upPort 2)]).job.formed = true ∧ (fabric member4 [(3, upPort 2)]).job.away.contains 2 = false ∧
      ((fabric member4 [(3, upPort 2)]).hport 3).up = true ∧ ((fabric member4 [(3, upPort 2)]).hport 3).farRank = 2 ∧
      (fabric member4 [(3, upPort 2)]).job.needsPort 3 = true) ∧
    ((fabric { member4 with away := [2] } [(3, upPort 2)]).job.away.contains 2 = true) := by decide +kernel

theorem witness_TreeRecordsUp :
    ((meshed member4 { st := .open_ } [(3, upPort 2)]).job.formed = true ∧
      (meshed member4 { st := .open_ } [(3, upPort 2)]).job.childPorts.contains 3 = true ∧
      ((meshed member4 { st := .open_ } [(3, upPort 2)]).job.doneFrom.map fun d => d.1).contains 3 = false ∧
      (meshed member4 { st := .open_ } [(3, upPort 2)]).job.parentPort = some 0 ∧
      (meshed member4 { st := .open_ } [(3, upPort 2)]).liveChildren = [3] ∧
      (meshed member4 { st := .open_ } [(3, upPort 2)]).job.settledFrom = [] ∧
      (meshed member4 { st := .open_ } [(3, upPort 2)]).job.selfSettled = false ∧
      (meshed member4 { st := .open_ } [(3, upPort 2)]).job.recoveredFrom = [] ∧
      (meshed member4 { st := .open_ } [(3, upPort 2)]).job.selfRecovered = false) ∧
    (∀ b q, b.leaveMbx = none → q.enableHeld = none → (meshed b q [(3, upPort 2)]).nothingHeld) ∧
    ((({ member4 with doneFrom := [(3, 1)] } : Job).doneFrom.map fun d => d.1).contains 3 = true) ∧
    ((meshed root4 { st := .open_ } []).isRoot = true ∧ (meshed root4 { st := .open_ } []).job.childPorts.contains 3 = true ∧
      (meshed root4 { st := .open_ } []).jobParts = [0] ∧ ((meshed root4 { st := .open_ } []).part 0).st = .open_ ∧
      (meshed root4 { st := .open_ } []).job.abandoned = false) ∧
    ((meshed member4 { st := .abandoning, settled := true } [(3, upPort 2)]).jobParts.all
      (fun p => ((meshed member4 { st := .abandoning, settled := true } [(3, upPort 2)]).part p).settled) = true) ∧
    ((meshed member4 { st := .recovering, recovered := true } [(3, upPort 2)]).jobParts.all
      (fun p => ((meshed member4 { st := .recovering, recovered := true } [(3, upPort 2)]).part p).recovered) = true) :=
  ⟨by decide +kernel, fun b q h k => meshed_nothingHeld b q _ k h, by decide +kernel⟩

/-- A device that is done with its tide. -/
def ended : Partition := { st := .closing, bellReady := true, resultsIn := true }

/-- The job `b` with this device's set sent and its child done. -/
def readyJob (b : Job) : Job := { b with setSent := true, doneFrom := [(3, 1), (0, 1)], rootI := b.rootI }

/-- Member 4 in a running tide, 10 µs after its parent's last good CONTROL flit. -/
def silent (l : Tab HPort) : State := { meshed member4 { st := .open_ } l with tsStep := 10000 }

theorem witness_TreeSendsAndLosses :
    (((meshed (readyJob member4) ended []).job.formed = true ∧ (meshed (readyJob member4) ended []).job.parentPort = some 0 ∧
      (meshed (readyJob member4) ended []).job.doneSent = false ∧ (meshed (readyJob member4) ended []).deviceDone = true ∧
      (meshed (readyJob member4) ended []).setsDone = true ∧ (meshed (readyJob member4) ended []).streamRoot = false ∧
      (meshed (readyJob member4) ended []).isRoot = false ∧
      ∀ p ∈ (meshed (readyJob member4) ended []).jobParts, ((meshed (readyJob member4) ended []).part p).single = none) ∧
    (({ member4 with doneSent := true, confirmSent := true } : Job).doneSent = true) ∧
    ((meshed { readyJob member4 with i := 1, rootI := 1 } ended []).isRoot = true ∧
      (meshed { readyJob member4 with i := 1, rootI := 1 } ended []).job.confirmSent = false ∧
      (meshed { readyJob member4 with i := 1, rootI := 1 } ended []).deviceDone = true ∧
      (meshed { readyJob member4 with i := 1, rootI := 1 } ended []).setsDone = true) ∧
    ((silent []).job.formed = true ∧ (silent []).job.treeLost = false ∧ (silent []).parentSilent = true ∧
      (silent []).jobParts = [0] ∧ ((silent []).part 0).st = .open_ ∧ ((silent []).part 0).cause = none) ∧
    ((meshed member4 { st := .open_ } [(3, { upPort 2 with badCopies := 4 })]).copiesLost = true ∧
      (meshed member4 { st := .open_ } [(3, { upPort 2 with badCopies := 4 })]).jobParts = [0] ∧
      ((meshed member4 { st := .open_ } []).copiesLost || (meshed member4 { st := .open_ } []).parentSilent) = false ∧
      ({ member4 with treeLost := true } : Job).treeLost = true) ∧
    ((meshed member4 { st := .open_ } []).jobParts.any (meshed member4 { st := .open_ } []).afterDone = false ∧
      (meshed member4 { st := .open_ } []).job.clockLocked = true ∧ (meshed member4 { st := .open_ } []).isRoot = false) ∧
    (({ member4 with onRecovered := true, clockLocked := false } : Job).onRecovered = true ∧ member4.onRecovered = false ∧
      ({ member4 with onRecovered := true, clockLocked := false } : Job).clockLocked = false)) ∧
    (silent []).nothingHeld :=
  ⟨by decide +kernel, meshed_nothingHeld member4 _ [] rfl rfl⟩

/-- A plan of no segment with the script `code`. -/
def plan0 (code : List Word) : CollPlan :=
  { plan := 0, op := 3, inFmt := 0, outFmt := 0, participants := [0], elems := 0, ins := [], outs := [], stepLimit := 2, code := code }

/-- Partition 0 with that plan. -/
def planned (code : List Word) (r : PlanState) : State :=
  bare { st := .open_, image := some { plans := [plan0 code] }, plans := [(0, r)] }

/-- `planned []` running, an access of phase `ph` answered with no bytes. -/
def reducing (ph : Nat) : State :=
  { planned [] { runs := true } with unitAcc := [{ key := keyPlan 0 0, phase := ph, tag := 0, part := 0, want := 0 }] }

theorem witness_HikolinkFlitsReceived_plan :
    ({ planned [] {} with hports := [(3, upPort 2)] } : State).planPart 0xFF00 = some 0 ∧
    (({ planned [] {} with hports := [(3, upPort 2)] } : State).hport 3).up = true ∧
    (dataFlit 0 0xFF00).dst = ({ planned [] {} with hports := [(3, upPort 2)] } : State).job.rank ∧
    (dataFlit 0 0xFF00).crc = flitCrc (dataFlit 0 0xFF00) 0 2 0 :=
  ⟨by decide +kernel, by decide +kernel, by decide +kernel, dataFlit_crc 0 0xFF00⟩

/-- A plan of operation `op` over four elements of ranks 0 and 1. -/
def plan2 (op : Nat) : CollPlan := { plan0 [] with op := op, participants := [0, 1], elems := 4 }

/-- Partition 0 with that plan, running, its record as `r` further says. -/
def planned2 (op : Nat) (r : PlanState) : State :=
  bare { st := .open_, image := some { plans := [plan2 op] }, plans := [(0, { r with runs := true })] }

/-- The flits of rank 1 with which a plan of `op` has this device's part, and the whole, of its result. -/
def partIn : List HFlit := [{ type := 1, channel := 0xFF00, src := 1, block := 0, words := List.replicate 60 0 }]

theorem witness_Collectives_parts :
    ((planned2 0 {}).plan 0 0 = some (plan2 0) ∧ ((planned2 0 {}).planState 0 0).runs = true ∧
      ((planned2 0 {}).planState 0 0).done = false ∧ ((planned2 0 {}).part 0).engines = true ∧ (plan2 0).op < 3) ∧
    (((planned2 0 { mine := some [0, 0, 0, 0] }).planState 0 0).mine = some [0, 0, 0, 0] ∧
      ((planned2 0 { mine := some [0, 0, 0, 0] }).unitTake (keyPlan 0 0)).2 = .idle ∧
      ((planned2 0 { mine := some [0, 0, 0, 0] }).planState 0 0).own = none ∧
      planOwn (plan2 0) (planned2 0 {}).rank ((planned2 0 { mine := some [0, 0, 0, 0] }).planState 0 0) [0, 0, 0, 0] = none) ∧
    (((planned2 0 { mine := some [0, 0, 0, 0], own := some [0, 0] }).planState 0 0).own = some [0, 0] ∧
      planWhole (plan2 0) (planned2 0 {}).rank ((planned2 0 { mine := some [0, 0, 0, 0], own := some [0, 0] }).planState 0 0) [0, 0]
        = none) ∧
    ((planOwn (plan0 []) (planned [] {}).rank ((planned [] {}).planState 0 0) []).isSome = true ∧
      (planWhole (plan0 []) (planned [] {}).rank ((planned [] {}).planState 0 0) []).isSome = true) := by decide +kernel

theorem witness_Collectives :
    ((planned [] {}).plan 0 0 = some (plan0 []) ∧ ((planned [] {}).part 0).st = .open_ ∧ (plan0 []).code = []) ∧
    ((plan0 [0]).code ≠ [] ∧ (runScript (plan0 [0]).code (fun _ => 0) (plan0 [0]).stepLimit
        { regs := scriptRegs [(1, 0), (2, ((planned [0] {}).part 0).tide % 2 ^ 32),
          (3, ((planned [0] {}).part 0).tide / 2 ^ 32), (4, (planned [0] {}).rank)] }).2 = true ∧
      ((bare {}).part 0).st ≠ .open_) ∧
    (((planned [] { runs := true }).part 0).engines = true ∧ ((planned [] { runs := true }).planState 0 0).runs = true ∧
      ((planned [] { runs := true }).planState 0 0).done = false ∧
      ((planned [] { runs := true }).unitTake (keyPlan 0 0)).2 = .idle) ∧
    (((reducing 0).part 0).engines = true ∧ ((reducing 0).unitTake (keyPlan 0 0)).2 = .done 0 [] ∧
      ((wordsOfBytes (plan0 []).ins.length []).all fun w => w = blockValue ((reducing 0).part 0).tide 0) = true ∧
      ((reducing 1).unitTake (keyPlan 0 0)).2 = .done 1 [] ∧ ((reducing 2).unitTake (keyPlan 0 0)).2 = .done 2 [] ∧
      ((reducing 3).unitTake (keyPlan 0 0)).2 = .done 3 [] ∧ ((reducing 4).unitTake (keyPlan 0 0)).2 = .done 4 [] ∧
      3 ≤ (plan0 []).op) ∧
    (({ planned [] { runs := true } with unitAcc := [{ key := keyPlan 0 0, phase := 0, tag := 0, part := 0, want := 1 }] } : State).unitTake
      (keyPlan 0 0)).2 = .waiting ∧
    ((planned [] { runs := true }).planState 0 0).mine = none ∧
    (((planned [] { done := true }).part 0).engines && ((planned [] { done := true }).planState 0 0).runs
      && !((planned [] { done := true }).planState 0 0).done) = false ∧
    State.reset.plan 0 0 = none := by decide +kernel

/-- A job of two devices forming at step 4. -/
def forming2 : Job := { id := 7, dimI := 2, dimJ := 1, dimK := 1, formingStep := 4, rootI := 1 }

/-- The identity beacon of the device at (i, 0, 0) of job `n`. -/
def beaconOf (n i : Nat) : Beacon :=
  { serial := 2, variant := 0, arithEpoch := 1, fabMin := 1, fabMax := 1, linkLayer := 1, fwVersion := 0, jobId := n, i := i }

/-- Device (0, 0, 0) of `forming2` as `b`, with the ports of `l`, after the beacon `c` on port 3. -/
def greets (b : Job) (l : Tab HPort) (c : Beacon) : State := ((fabric b l).modHport 3 fun x => trainPort x 3 c).takePlace 3 c

/-- `forming2` with the beacons of both ports in. -/
def bothIn (b : Job) : State :=
  fabric b [(0, { upPort 1 with beacon := some (beaconOf 7 1) }), (3, { upPort 1 with beacon := some (beaconOf 7 1) })]

theorem witness_JobForming :
    ((fabric forming2 [(3, { calFailed := true })]).job.formingStep ≠ 0 ∧
      ((fabric forming2 [(3, { calFailed := true })]).hport 3).calFailed = true) ∧
    ((fabric forming2 []).job.formingStep ≠ 0 ∧ (fabric forming2 []).job.needsPort 3 = true ∧
      ((fabric forming2 []).hport 3).shutting = false ∧ ((fabric forming2 []).hport 3).calFailed = false ∧
      (beaconOf 8 1).jobId ≠ (fabric forming2 []).job.id) ∧
    ((beaconOf 7 1).jobId = (fabric forming2 []).job.id ∧ ({ beaconOf 7 1 with placed := false } : Beacon).placed = false ∧
      (beaconOf 7 1).placed = true ∧ 4 ≤ (fabric forming2 []).job.formingStep) ∧
    (({ forming2 with formingStep := 2, dimI := 3, rootI := 1 } : Job).formingStep < 4 ∧
      ({ forming2 with formingStep := 2, dimI := 3, rootI := 1 } : Job).needsPort 3 = true ∧
      ({ forming2 with formingStep := 2, dimI := 3, rootI := 1 } : Job).stepFrom ((3 + 3) % 6) 1 0 0 = (0, 0, 0) ∧
      ({ forming2 with formingStep := 2, dimI := 3, rootI := 1 } : Job).parentPortAt 0 0 0 = some 3) ∧
    ((greets { forming2 with rootSerial := 2 } [] (beaconOf 7 1)).duplicate = none ∧
      (greets { forming2 with rootSerial := 2 } [] (beaconOf 7 1)).miscabled = none) ∧
    ((greets { forming2 with rootSerial := 3 } [] (beaconOf 7 1)).duplicate = some 3) ∧
    ((greets { forming2 with dimI := 4, rootI := 3, rootSerial := 3 } [] (beaconOf 7 2)).duplicate = none ∧
      (greets { forming2 with dimI := 4, rootI := 3, rootSerial := 3 } [] (beaconOf 7 2)).miscabled = some 3) ∧
    ((bothIn forming2).stepReached = 5 ∧ (bothIn forming2).neighboursAgree = true ∧ (bothIn forming2).job.joining = false ∧
      (bothIn forming2).job.parentPort.isSome = true) ∧
    ((bothIn { forming2 with joining := true, formed := true, away := [0] }).stepReached = 5 ∧
      (bothIn { forming2 with joining := true, formed := true, away := [0] }).neighboursAgree = true ∧
      (bothIn { forming2 with joining := true, formed := true, away := [0] }).job.joining = true) ∧
    ((false && (bothIn forming2).neighboursAgree) = false) ∧
    (({ forming2 with rootI := 0 } : Job).parentPort = none) ∧
    ((∀ l ∈ [((3 : Nat), (554400 : Nat))], l.2 ≤ 554400) ∧ ((3 : Nat), (554401 : Nat)) ∈ [(3, 554401)] ∧ 554400 < 554401) ∧
    (({ forming2 with formMbx := some 0 } : Job).formMbx = some 0 ∧ ((busy 0 State.reset).mb 0).done = false) := by
  decide +kernel

/-! Host link, bring-up, registers -/

/-- A device out of PERST# with the host link `l`. -/
def linked (l : HostLink) : State := { State.reset with link := l, pins := { State.reset.pins with perst := false } }

/-- A trained link. -/
def up : HostLink := { trained := true, width := 4, rate := 64 }

/-- Access to host memory, IDE on, and vectors enabled. -/
def accessible : HostLink :=
  { up with access := true, busMaster := true, ideOn := true, msixEnable := true, msixMask := 0xFFFFFFFFFFFFF9FF }

/-- Partition 0 open. -/
def opened (s : State) : State := { s with parts := [(0, { st := .open_, stripeCount := 8 })] }

theorem witness_HostAccessLoss :
    ((opened (linked accessible)).link.access = true ∧ (opened (linked accessible)).link.lost = false ∧ (opened (linked accessible)).link.ideOn = true ∧
      (opened (linked accessible)).link.ideFailed = false ∧ 0 ∈ (opened (linked accessible)).runningParts ∧
      running ((opened (linked accessible)).part 0).st = true) ∧
    (State.reset.link.access = false) := by decide +kernel

theorem witness_HostAccessReturn :
    ((linked { up with lost := true }).link.access = false ∧ (linked { up with lost := true }).link.trained = true ∧
      (linked { up with lost := true }).link.ideFailed = false ∧ (linked { up with lost := true }).pins.perst = false ∧
      (linked { up with lost := true }).link.d3hot = false ∧ (linked { up with lost := true }).link.lost = true) ∧
    ((linked up).link.access = false ∧ (linked up).link.trained = true ∧ (linked up).link.ideFailed = false ∧
      (linked up).pins.perst = false ∧ (linked up).link.d3hot = false ∧ (linked up).link.lost = false ∧
      (linked up).link.cacheLag = []) ∧
    ((linked { up with d3hot := true }).link.access = false ∧ (linked { up with d3hot := true }).link.d3hot = true ∧
      (linked { up with d3hot := true }).pins.perst = false) ∧
    ((({ sessions := [(1, true)] } : Spdm).sessions.any fun e => e.2) = true ∧
      (State.reset.spdm.sessions.any fun e => e.2) = false) ∧
    (linkOk 4 64 = true ∧ (linked up).link.width = 4 ∧ (linked up).link.rate = 64 ∧ linkOk 2 16 = true ∧
      (linked up).link.width ≠ 2) ∧
    (State.reset.pins.perst = true ∧ State.reset.pins.pwrgd = true) ∧
    (({ State.reset with pins := { State.reset.pins with pwrgd := false } } : State).pins.pwrgd = false) := by
  decide +kernel

/-- Ring state with a signal owed at time 0. -/
def owed : Ring := { unsignalled := true }

theorem witness_CacheAndVectors :
    ((linked accessible).runningParts = [] ∧ 0 ∈ (opened (linked accessible)).runningParts ∧
      1 ∉ (opened (linked accessible)).runningParts ∧ (opened (linked accessible)).keyPart 32768 = some 0) ∧
    (63 < 64 ∧ (linked accessible).link.msixEnable = true ∧ (linked accessible).link.access = true) ∧
    (({ linked accessible with evr := owed } : State).evr.unsignalled = true ∧
      ({ linked accessible with evr := owed } : State).evr.lastSignal
        + ({ linked accessible with evr := owed } : State).evr.coalesceUs * 1000
        ≤ ({ linked accessible with evr := owed } : State).now ∧
      ({ linked accessible with evr := owed } : State).link.msixMask.getLsbD 9 = false) ∧
    (({ linked accessible with tlr := owed } : State).tlr.unsignalled = true ∧
      ({ linked accessible with tlr := owed } : State).tlr.lastSignal
        + ({ linked accessible with tlr := owed } : State).tlr.coalesceUs * 1000
        ≤ ({ linked accessible with tlr := owed } : State).now ∧
      ({ linked accessible with tlr := owed } : State).link.msixMask.getLsbD 10 = false) := by decide +kernel

/-- Bring-up in step `n`, its work not done, on the path (`warm`, `level`). -/
def booting (n : Nat) (warm : Bool) (level : Nat) : State :=
  { linked up with boot := { state := 1, stStep := n, pathWarm := warm, pathLevel := level } }

/-- Step `n` with its work done, with the cause `c`. -/
def stepped (n : Nat) (c : Option Nat) : State :=
  { State.reset with boot := { state := 1, stStep := n, workDone := true, failCause := c } }

theorem witness_BringUpInOrder :
    (State.reset.inStep 1 = false ∧ State.reset.inStep 12 = false) ∧
    ((stepped 12 none).boot.state = 1 ∧ (stepped 12 none).boot.workDone = true ∧ (stepped 12 none).boot.failCause = none) ∧
    ((stepped 6 (some 1)).boot.workDone = true ∧ (stepped 6 (some 1)).boot.failCause = some 1) ∧
    (State.reset.boot.workDone = false) ∧ (State.reset.boot.state ≠ 1) := by decide +kernel

/-- Step 5 with `other` the newer bank. -/
def twoBanks : State :=
  { booting 5 false 1 with flash := { other := { valid := true, verified := true, version := 0x02030001 } } }

theorem witness_BringUpFirstSteps :
    ((booting 1 false 0).inStep 1 = true ∧
      ({ (booting 1 false 0).power with vinMv := 43999 } : Power).vinMv < 44000 ∧ 44000 ≤ (booting 1 false 0).power.vinMv ∧
      (booting 1 false 0).power.vinMv ≤ 58000 ∧ (booting 1 false 0).pins.pwrgd = true ∧ (booting 1 false 0).hotSensor = false ∧
      (booting 1 false 0).boot.poweredOff = false ∧ (booting 1 false 0).flash.present = true ∧
      (booting 1 false 0).boot.pathOk = true ∧ (booting 1 false 0).boot.pathWarm = false) ∧
    (({ booting 1 false 0 with pins := { (booting 1 false 0).pins with pwrgd := false } } : State).pins.pwrgd = false ∧
      ({ (booting 1 false 0).boot with poweredOff := true } : Boot).poweredOff = true ∧
      ({ booting 1 false 0 with clusters := [(287, { temps := [960] })] } : State).hotSensor = true ∧
      (booting 1 false 3).boot.pathOk = false) ∧
    ((booting 1 true 0).inStep 1 = true ∧ (booting 1 true 0).hotSensor = false ∧ (booting 1 true 0).boot.pathOk = true ∧
      (booting 1 true 0).boot.pathWarm = true) ∧
    ((booting 2 false 0).inStep 2 = true ∧ (booting 2 false 0).fuses = State.reset.fuses ∧ State.reset.fuses.variantOk = true ∧
      (booting 2 false 0).boot.pathWarm = false ∧ (booting 2 true 0).boot.pathWarm = true ∧
      (booting 2 true 0).flash.logValid = true ∧
      ({ log0 := { valid := false }, log1 := { valid := false } } : Flash).logValid = false ∧
      ({ stripeMap := 0 } : Fuses).variantOk = false) ∧
    ((booting 3 false 0).inStep 3 = true ∧ (booting 4 false 0).inStep 4 = true ∧ (booting 4 true 0).inStep 4 = true ∧
      (booting 4 true 0).boot.pathWarm = true) ∧
    ((booting 5 false 0).inStep 5 = true ∧ (booting 5 false 0).flash.activateCold = false ∧
      (booting 5 false 0).flash.running.valid = true ∧
      (booting 5 false 0).flash.fwFloor ≤ (booting 5 false 0).flash.running.version ∧
      twoBanks.inStep 5 = true ∧ twoBanks.flash.other.valid = true ∧
      twoBanks.flash.fwFloor ≤ twoBanks.flash.other.version) := by decide +kernel

theorem digestOk_zero (f : Fuses) (h : f.digestOk = true) (hd : f.digest ≠ 0) :
    ({ f with digest := 0 } : Fuses).digestOk = false := by
  have e : f.digest = sha512 f.map := of_decide_eq_true h
  have m : ({ f with digest := 0 } : Fuses).map = f.map := rfl
  rw [Fuses.digestOk, m, ← e]
  exact decide_eq_false fun z => hd z.symm

theorem reset_digestOk : State.reset.fuses.digestOk = true := by decide +kernel

theorem witness_BringUpFirstSteps_fuses :
    State.reset.fuses.digestOk = true ∧ ({ State.reset.fuses with digest := 0 } : Fuses).digestOk = false :=
  ⟨reset_digestOk, digestOk_zero _ reset_digestOk (by decide +kernel)⟩

theorem witness_BringUpLaterSteps :
    ((booting 6 false 1).inStep 6 = true ∧ (booting 6 true 1).inStep 6 = true ∧ 0 ∈ (booting 6 false 1).enabledPorts) ∧
    ((booting 7 false 0).inStep 7 = true ∧ (booting 7 false 0).boot.pathLevel = 0 ∧
      (booting 7 false 1).boot.pathLevel ≠ 0 ∧ (booting 7 false 1).stripeOn (0 % 8) = true ∧ 320 ≤ (320 * 2 ^ 19) / 2 ^ 19) ∧
    (({ booting 7 false 1 with fuses := { stripeMap := 0x7F } } : State).inStep 7 = true ∧
      ({ booting 7 false 1 with fuses := { stripeMap := 0x7F } } : State).stripeOn (7 % 8) = false) ∧
    ((booting 8 false 1).inStep 8 = true ∧ 287 < 288 ∧
      (booting 8 false 1).fuses.stripeMap.getLsbD (287 / 36) = true) ∧
    ((booting 9 true 1).inStep 9 = true ∧ (booting 9 true 1).boot.pathWarm = true ∧ (booting 9 false 1).inStep 9 = true ∧
      (booting 9 false 1).boot.pathWarm = false ∧ (booting 9 false 1).fuses.stripeMap.getLsbD (0 / 37) = true ∧
      (booting 9 false 1).disabled.contains (0, 0) = false ∧
      (booting 9 false 1).segHasRoom 0 0 = true) ∧
    ((booting 10 false 1).inStep 10 = true ∧ (booting 11 false 1).inStep 11 = true ∧
      (booting 11 false 1).fuses.portMap.getLsbD 5 = true ∧ (booting 12 false 1).inStep 12 = true ∧
      (booting 12 false 1).boot.pathWarm = false) := by decide +kernel

/-- Tile 5 in a unit reset that no mailbox waits for. -/
def unitReset : State :=
  { State.reset with tiles := [(5, { inReset := true })], resets := [{ scope := 0, index := 5, mbx := none }] }

theorem witness_ResetsBeginAndEnd :
    ((0xA4 : Word) ≠ 0xA5 ∧ (linked up).hostReaches = true ∧ State.reset.hostReaches = false ∧ State.reset.boot.announced = false ∧ ({ announced := true } : Boot).announced = true) ∧
    (unitReset.resets = [{ scope := 0, index := 5, mbx := none }] ∧ (unitReset.tile 5).inReset = true ∧ 6 ≠ 5) ∧
    (State.reset.resets = []) := by decide +kernel

/-- A ready device with mailbox page 0 as `m`. -/
def serving (m : Mbx) : State := { linked accessible with ready := true, mbx := [(0, m)] }

/-- An idle page with sequence number 7 in its header and the opcode `op`. -/
def idlePage (op : Nat) : Mbx := { done := true, seq := 7, opcode := op }

theorem witness_RingControlsAndDoorbells :
    ((linked up).hostReaches = true ∧ State.reset.hostReaches = false ∧ (linked up).link.eventsHeld = false) ∧
    (({ linked up with evr := { en := true } } : State).evr.en = true ∧ (linked up).evr.en = false ∧
      bit (0x80000006 : Word).toNat 31 = true ∧ bits (0x80000006 : Word).toNat 4 0 = 6 ∧
      bit (0x80000010 : Word).toNat 31 = true ∧ bits (0x80000010 : Word).toNat 4 0 = 16 ∧
      bits (0x80000005 : Word).toNat 4 0 < 6 ∧ (linked up).tlr.en = false) ∧
    ((serving (idlePage 1)).hostReaches = true ∧ (serving (idlePage 1)).ready = true ∧
      ((serving (idlePage 1)).mb 0).done = true ∧
      (7 : BitVec 16).toNat = ((serving (idlePage 1)).mb 0).seq ∧ (7 : BitVec 16) ≠ 0 ∧
      (7 : BitVec 16).toNat ≠ ((serving (idlePage 1)).mb 0).doneSeq ∧
      opcodeKnown ((serving (idlePage 1)).mb 0).opcode = true ∧
      opcodeKnown ((serving (idlePage 0xFFFF)).mb 0).opcode = false ∧
      (8 : BitVec 16).toNat ≠ ((serving (idlePage 1)).mb 0).seq) := by decide +kernel

/-- The debug window open on tile 0 of partition 0 in state `st`. -/
def window (st : PState) : State :=
  { linked accessible with
    dbg := { tile := true }, parts := [(0, { st := st, stripeCount := 8 })], clusters := [(0, { power := true })]
    tiles := [(0, {})] }

theorem witness_RegisterAndDebugAccess :
    ((linked up).windowOpen = false ∧ (window .open_).hostReaches = true ∧ (window .open_).windowOpen = true ∧
      (1 : Word).toNat % 2 ^ 17 ≠ (window .open_).dbg.selected ∧ (1 : Word).toNat % 2 = 1 ∧
      (window .open_).quiet 0 = false ∧ (window .loaded).quiet 0 = true) ∧
    (0x40000 ≤ 0x7FFFC ∧ 0x7FFFC < 0x80000 ∧ 0x7FFFC % 4 = 0 ∧ (window .open_).sealedFrom 0 = false ∧
      (window .open_).down 0 = false ∧ ((window .open_).tile 0).flips = [] ∧ (window .loaded).sealedFrom 0 = false ∧
      (window .loaded).down 0 = false) ∧
    (8 ≤ 8 ∧ 956 < 960 ∧ 956 % 4 = 0 ∧ ((serving { done := true }).mb 0).done = true ∧
      ((serving { done := false }).mb 0).done = false) ∧
    (952 < 960 ∧ 952 % 8 = 0 ∧ (serving { done := true }).hostReaches = true) ∧
    ((0x3FFE < 0x4000 ∧ 0x3FFE % 4 ≠ 0) ∧ (0x3FFC < 0x4000 ∧ 0x3FFC % 8 ≠ 0) ∧ (0x3FFC < 0x4000 ∧ (2 : Nat) ≠ 4 ∧ (2 : Nat) ≠ 8) ∧
      0x80000 ≤ 0x83FFC ∧ 0x83FFC < 0x84000) := by decide +kernel

/-! Out-of-band management and attestation -/

/-- The I3C port served, and a black-box copy in progress. -/
def managed : State := { State.reset with i3cUp := true, bb := { copying := some (0, none, 2) } }

theorem witness_OutOfBandAndPowerOff :
    (State.reset.i3cUp = false ∧ managed.i3cUp = true ∧ 15 < 16 ∧ 2 ≤ 2 ∧ 2 < 3) ∧
    (({ managed with boot := { poweredOff := true } } : State).boot.poweredOff = true ∧ managed.boot.poweredOff = false) ∧
    (running ((opened managed).part 0).st = true ∧ (opened managed).i3cUp = true ∧
      (({ managed with clusters := [(287, { rising := true })] } : State).cluster 287).rising = true ∧
      (managed.cluster 287).rising = false ∧ (({ managed with hports := [(3, upPort 2)] } : State).hport 3).up = true) ∧
    (managed.bb.copying = some (0, none, 2) ∧ State.reset.bb.copying = none) := by decide +kernel

/-- The SPDM responder with the connection `c`. -/
def attested (c : Spdm) : State := { linked up with fwShown := true, spdm := c }

/-- An agreed connection with the sessions `l`. -/
def agreement (l : List (Nat × Bool)) : Spdm := { version := true, caps := true, algs := true, sessions := l }

theorem witness_AttestationResponder :
    ((attested {}).doeUp = true ∧ State.reset.doeUp = false ∧ State.reset.spdmUp = false ∧ 2 ≤ 2) ∧
    ((attested {}).spdmUp = true ∧ (attested {}).spdm.version = false) ∧
    ((attested (agreement [])).spdmUp = true ∧ (attested (agreement [])).spdm.version = true ∧
      (attested (agreement [])).spdm.caps = true ∧ (attested (agreement [])).agreed = true) ∧
    ((attested (agreement [(1, true), (2, true), (3, false)])).session 4 = none ∧
      (attested (agreement [(1, true), (2, true), (3, false)])).spdm.sessions.length < 4 ∧
      (attested (agreement [(1, true), (2, true), (3, false)])).session 3 = some false ∧
      (attested (agreement [(1, true), (2, true), (3, false)])).session 2 = some true ∧ 1 ≠ 2) := by decide +kernel

/-! Mailbox commands -/

/-- A page whose command `op` has not acted, with the bytes of its block. -/
def block (op : Nat) (l : List Byte) : Mbx :=
  { done := false, running := some op, opcode := op, length := l.length, payload := memPut [] 0 l }

/-- As `block`: the fields (bytes, value) of the block in order. -/
def asking (op : Nat) (fields : List (Nat × Nat)) : Mbx := block op (fields.flatMap fun f => leBytes f.1 f.2)

/-- As `asking`, with one scatter list entry of `size` bytes at address 0. -/
def buffered (op : Nat) (fields : List (Nat × Nat)) (size : Nat) : Mbx :=
  let m := asking op fields
  { m with sglCount := 1, payload := memPut m.payload (m.sglStart + 8) (leBytes 4 size) }

/-- `s` with mailbox page 0 as `m`. -/
def State.page0 (s : State) (m : Mbx) : State := { s with mbx := [(0, m)] }

/-- Partition 0 of all stripes, `q` further set; with all slots of a device without the licence. -/
def owning (q : Partition) : State :=
  { linked accessible with parts := [(0, { q with stripeCount := 8, slotCount := 8192 })] }

/-- Tile 0 of partition 0, powered, its canary slot at bundle 0. -/
def withTile (s : State) : State :=
  { s with clusters := [(0, { power := true })], tiles := [(0, { canary := 0x80000000 })], dbg := { tile := true } }

/-- Partition 0 with slot 9 as `x`. -/
def slotted (st : PState) (x : Stream) : State := { owning { st := st } with streams := [(9, x)] }

/-- Partition 7, and PARTITION_QUERY of it on its own page. -/
def page8 : State :=
  { linked accessible with parts := [(7, { st := .loaded, stripeCount := 8 })], mbx := [(8, asking 0x0104 [(1, 7)])] }

theorem witness_MailboxQueries :
    ((State.page0 State.reset (asking 0x0001 [])).asks 0 0x0001 0) ∧
    ((State.page0 State.reset (asking 0x0003 [(4, 3600)])).asks 0 0x0003 4 ∧
      (State.page0 State.reset (asking 0x0003 [(4, 3600)])).param 0 0 4 ≤ 3600) ∧
    ((State.page0 State.reset (asking 0x0104 [(1, 7)])).asks 0 0x0104 1 ∧
      (State.page0 State.reset (asking 0x0104 [(1, 7)])).param 0 0 1 ≤ 7) ∧
    (page8.asks 8 0x0104 1 ∧ 8 - 1 = page8.param 8 0 1 ∧ page8.pageExists 8 = true ∧
      ({ page8 with mbx := [(8, asking 0x0702 [(1, 7)])] } : State).asks 8 0x0702 1) ∧
    ((State.page0 State.reset (asking 0x0603 [])).asks 0 0x0603 0 ∧
      (State.page0 State.reset (asking 0x0603 [])).pageExists 0 = true) ∧
    ((State.page0 (owning { st := .loaded }) (asking 0x0702 [(1, 0)])).asks 0 0x0702 1 ∧
      (State.page0 (owning { st := .loaded }) (asking 0x0702 [(1, 0)])).partScope 0
        ((State.page0 (owning { st := .loaded }) (asking 0x0702 [(1, 0)])).param 0 0 1) = none) ∧
    ((State.page0 (withTile (owning { st := .loaded })) (asking 0x0C01 [(4, 0)])).asks 0 0x0C01 4 ∧
      (State.page0 (withTile (owning { st := .loaded })) (asking 0x0C01 [(4, 0)])).badTile 0 = (0, false) ∧
      (State.page0 (withTile (owning { st := .loaded })) (asking 0x0C01 [(4, 0)])).tileScope 0 0 = none ∧
      (State.page0 (withTile (owning { st := .loaded })) (asking 0x0C01 [(4, 0)])).dbg.tile = true) ∧
    ((State.page0 State.reset (asking 0x0404 [(4, 4193800), (4, 504)])).asks 0 0x0404 8 ∧
      (State.page0 State.reset (asking 0x0404 [(4, 4193800), (4, 504)])).badField 0
        ((State.page0 State.reset (asking 0x0404 [(4, 4193800), (4, 504)])).badPages 0 504) [] = none) ∧
    ((State.page0 (slotted .loaded {}) (asking 0x0305 [(4, 8191)])).asks 0 0x0305 4 ∧
      (State.page0 (slotted .loaded {}) (asking 0x0305 [(4, 8191)])).badField 0
        [(State.page0 (slotted .loaded {}) (asking 0x0305 [(4, 8191)])).badSlotAt 0 0] [] = none ∧
      (State.page0 (slotted .loaded {}) (asking 0x0305 [(4, 8191)])).slotUsable 8191 = true) ∧
    ((State.page0 State.reset (asking 0x0905 [])).asks 0 0x0905 0) := by
  unfold State.asks
  decide +kernel

theorem witness_MailboxQueries_buffers :
    ((State.page0 (linked accessible) (buffered 0x0002 [(1, 1), (3, 0), (4, 5)] 4096)).asksBuffer 0 0x0002 8 4096 ∧
      (State.page0 (linked accessible) (buffered 0x0002 [(1, 1), (3, 0), (4, 5)] 4096)).param 0 0 1 ≤ 1 ∧
      (∀ o ∈ span 1 4, memGet ((State.page0 (linked accessible) (buffered 0x0002 [(1, 1), (3, 0), (4, 5)] 4096)).mb 0).payload o
        = 0) ∧ (linked accessible).link.access = true) ∧
    ((State.page0 (linked accessible) (buffered 0x0805 [(1, 2)] (6 * 2 ^ 20))).asksBuffer 0 0x0805 1 (6 * 2 ^ 20) ∧
      (State.page0 (linked accessible) (buffered 0x0805 [(1, 2)] (6 * 2 ^ 20))).param 0 0 1 ≤ 2) := by
  unfold State.asksBuffer
  decide +kernel

theorem witness_MailboxRefusals :
    (((State.page0 State.reset (asking 0x0602 [(1, 0)])).mb 0).done = false ∧
      ((State.page0 State.reset (asking 0x0602 [(1, 0)])).mb 0).running ≠ some 0x0601) ∧
    (((State.page0 State.reset (asking 0x0601 [(4, 5000), (1, 0)])).mb 0).running = some 0x0601 ∧
      ((State.page0 State.reset (asking 0x0601 [(4, 5000), (1, 0)])).mb 0).length ≠ 4) ∧
    (({ State.reset with mbx := [(1, asking 0x0601 [(4, 3000)])] } : State).asks 1 0x0601 4 ∧
      3000 ≤ ({ State.reset with mbx := [(1, asking 0x0601 [(4, 3000)])] } : State).param 1 0 4 ∧
      ({ State.reset with mbx := [(1, asking 0x0601 [(4, 3000)])] } : State).param 1 0 4 ≤ 18000 ∧
      ({ State.reset with mbx := [(1, asking 0x0601 [(4, 3000)])] } : State).param 1 0 4 % 50 = 0) ∧
    ((State.page0 State.reset (asking 0x0701 [(4, 999), (4, 0)])).asks 0 0x0701 8 ∧
      (State.page0 State.reset (asking 0x0701 [(4, 999), (4, 0)])).param 0 0 4 < 1000 ∧
      1000000 < (State.page0 State.reset (asking 0x0701 [(4, 1000001), (4, 0)])).param 0 0 4) ∧
    ((State.page0 State.reset (asking 0x0701 [(4, 1000), (4, 8)])).asks 0 0x0701 8 ∧
      (State.page0 State.reset (asking 0x0701 [(4, 1000), (4, 8)])).param 0 0 4 = 1000 ∧
      7 < (State.page0 State.reset (asking 0x0701 [(4, 1000), (4, 8)])).param 0 4 4) := by
  unfold State.asks
  decide +kernel

/-- PARTITION_CREATE of partition 7 over all stripes and 8,192 slots. -/
def creating : State :=
  State.page0 State.reset (asking 0x0101
    [(1, 7), (1, 0), (1, 8), (1, 0), (4, 100), (4, 0), (4, 0), (4, 8192), (4, 0), (4, 0), (1, 20), (3, 0), (8, 4096)])

/-- The same with traffic of the stripes in the mesh: the wait not begun, or begun at 0 more than a millisecond ago. -/
def draining (a : Option Nat) : State :=
  { creating with
    mbx := [(0, { asking 0x0101 [(1, 7), (1, 0), (1, 8), (1, 0), (4, 100), (4, 0), (4, 0), (4, 8192), (4, 0), (4, 0), (1, 20), (3, 0), (8, 4096)]
      with drainAt := a })]
    time := 1000001 * 4158, arrived := [meshEntry] }

/-- PARTITION_SET of partition 0's CXL_WEIGHT. -/
def setting : State :=
  State.page0 (owning { st := .loaded }) (asking 0x0103 [(1, 0), (1, 1), (1, 0), (1, 0), (4, 0), (24, 0), (8, 0)])

/-- PARTITION_DESTROY of partition 0. -/
def destroying : State := State.page0 (owning { st := .empty }) (asking 0x0102 [(1, 0)])

/-- The partition reset of PARTITION_DESTROY or PROGRAM_LOAD, `op`, in progress. -/
def resetting (op : Nat) (st : List Stage) : State :=
  { State.page0 (owning { st := .loaded }) { done := false, opcode := op } with
    resets := [{ scope := 2, index := 0, mbx := some 0 }], stages := st }

theorem witness_MailboxPartitions :
    (creating.asks 0 0x0101 40 ∧ creating.param 0 0 1 = 7 ∧ creating.badField 0 (creating.badCreate 0) (span 29 32) = none ∧
      creating.createLicence 0 = false ∧ creating.trafficIn (creating.param 0 1 1) (creating.param 0 2 1) = false ∧
      creating.resets = [] ∧ creating.withdrawnOf (creating.param 0 1 1) (creating.param 0 2 1) = none) ∧
    ((draining none).asks 0 0x0101 40 ∧ (draining none).param 0 0 1 = 7 ∧
      (draining none).badField 0 ((draining none).badCreate 0) (span 29 32) = none ∧ (draining none).createLicence 0 = false ∧
      (draining none).trafficIn ((draining none).param 0 1 1) ((draining none).param 0 2 1) = true ∧ (draining none).resets = [] ∧
      (draining none).withdrawnOf ((draining none).param 0 1 1) ((draining none).param 0 2 1) = none ∧
      ((draining none).mb 0).drainAt = none ∧ ((draining (some 0)).mb 0).drainAt = some 0 ∧ 0 + 1000000 < (draining (some 0)).now) ∧
    (setting.asks 0 0x0103 40 ∧ setting.param 0 0 1 = 0 ∧ setting.param 0 1 1 = 1 ∧
      setting.badField 0 [setting.badPart 0, (1, false)] ([2] ++ span 4 28 ++ span 29 32) = none ∧
      setting.partScope 0 0 = none ∧ (setting.part 0).idle = true ∧ setting.partHeld 0 0 = false) ∧
    (destroying.asks 0 0x0102 1 ∧ destroying.param 0 0 1 = 0 ∧ (destroying.part 0).idle = true ∧ destroying.unused 0 = true ∧
      destroying.partHeld 0 0 = false ∧
      destroying.trafficIn (destroying.part 0).firstStripe (destroying.part 0).stripeCount = false ∧ destroying.resets = []) ∧
    ((resetting 0x0102 []).resets = [{ scope := 2, index := 0, mbx := some 0 }] ∧ ((resetting 0x0102 []).part 0).moves = [] ∧
      ((resetting 0x0102 []).mb 0).opcode = 0x0102 ∧ ((resetting 0x0102 []).mb 0).done = false) := by
  unfold State.asks
  decide +kernel

/-- The bytes of an image before its signature: the header and the table of the sections `t` (type, offset, length), then
`body` from byte 768 on. -/
def unsigned (kind version stepping packId total : Nat) (t : List (Nat × Nat × Nat)) (body : List Byte) : List Byte :=
  fill 768 (fill 512 (leBytes 4 0x4956424D ++ leBytes 2 1 ++ leBytes 2 kind ++ leBytes 4 version ++ leBytes 4 0 ++ leBytes 8 total
    ++ leBytes 8 0 ++ leBytes 2 stepping ++ leBytes 2 packId ++ leBytes 4 t.length)
    ++ t.flatMap fun e => leBytes 8 e.1 ++ leBytes 8 e.2.1 ++ leBytes 16 e.2.2) ++ body

/-- The signature of `b` under the secret scalar 1 with the nonce 1 (FIPS 186-5). -/
def signature (b : List Byte) : List Byte :=
  let r := basePoint.x % n521
  beBytes 66 r ++ beBytes 66 ((beNat (shaBytes b) + r) % n521)

/-- A staged image of bytes `b` of `kind` for partition `p`, whole. -/
def staged (kind p : Nat) (b : List Byte) (v : Bool) : Stage :=
  { kind := kind, part := p, total := b.length, staged := b.length, img := { bytes := b }, verified := v, digest := imageDigest b }

/-- A pack of one kernel, signed by the vendor. -/
def pack : List Byte :=
  let b := unsigned 3 1 0xB0 5 1940 [(0x0301, 768, 1040)] (List.replicate 1040 0)
  b ++ signature b

/-- A plain weight image: four bytes of home data at the start of the home area. -/
def weightImage : List Byte :=
  unsigned 2 0 0 0 912 [(0x0202, 768, 12)] (leBytes 8 (320 * 2 ^ 19) ++ leBytes 4 7) ++ List.replicate 132 0

/-- The sections of a program for one stripe, with their places: tide parameters, four sections of no bytes, an admission script
of one decode slot and one receiver in tile 0, a power plan of one entry, and no canary slots. -/
def programTable : List (Nat × Nat × Nat) :=
  [(0x0101, 768, 96), (0x0102, 1024, 0), (0x0103, 1024, 0), (0x0104, 1024, 0), (0x0105, 1024, 0), (0x0107, 1024, 28)]
    ++ [(0x010C, 1280, 16), (0x010B, 1536, 40328)]

/-- The program image's bytes before its canary section. -/
def programHead : List Byte :=
  unsigned 1 0 0 0 41996 programTable
    (fill 256 (leBytes 2 1 ++ leBytes 2 0x0101 ++ leBytes 4 0x0101 ++ leBytes 4 65536 ++ leBytes 12 0 ++ leBytes 2 1)
      ++ fill 256 (leBytes 2 1 ++ leBytes 2 1 ++ leBytes 2 16 ++ leBytes 2 1 ++ leBytes 2 1 ++ leBytes 2 32 ++ leBytes 2 1)
      ++ fill 256 (leBytes 2 1 ++ leBytes 2 1))

/-- The program image's canary section. -/
def canarySection : List Byte := leBytes 4 1 ++ leBytes 4 10080 ++ List.replicate (4 * 10080) 0

/-- A program image for one stripe. -/
def programImage : List Byte := programHead ++ (canarySection ++ List.replicate 132 0)

/-- The program of that image. -/
def oneStripe : ProgramBody :=
  { params := { stripeCount := 1, replayLimit := 1, nominalCc := 65536 }
    admission := { decodeSlots := 1, receivers := [{ word := 0, firstSlot := 0, slots := 1, x := 0, y := 0, result := false }], code := [0] }
    canaryEntries := 10080, power := [{ offsetCc := 0, level := 0, tides := 0 }] }

theorem programImage_sections : sectionsOf programImage = programTable.map fun e => { type := e.1, offset := e.2.1, length := e.2.2 } := by
  decide +kernel

theorem programHead_length : programHead.length = 1536 := by decide +kernel

theorem canarySection_length : canarySection.length = 40328 := by
  rw [canarySection, List.length_append, List.length_replicate]
  rfl

theorem programImage_canary : sectionOf programImage 0x010B = some canarySection := by
  rw [sectionOf, programImage_sections]
  show some ((programImage.drop 1536).take 40328) = _
  rw [programImage, List.drop_left' programHead_length, List.take_left' canarySection_length]

theorem zeros_drop (k n : Nat) : (List.replicate n (0 : Byte)).drop k = List.replicate (n - k) 0 := List.drop_replicate

theorem wordList_zeros (n : Nat) : ∀ w ∈ wordList n (List.replicate (4 * n) 0), w = 0 := by
  induction n with
  | zero => simp [wordList, runsOf]
  | succ n ih =>
    intro w hw
    rw [wordList, runsOf, List.map_cons, List.mem_cons] at hw
    rcases hw with rfl | hw
    · rw [List.take_replicate, Nat.min_eq_left (by omega)]
      rfl
    · rw [List.drop_replicate, show 4 * (n + 1) - 4 = 4 * n by omega] at hw
      exact ih w hw

theorem canarySection_words : canaryWords canarySection = [] := by
  have h8 : canarySection.drop 8 = List.replicate (4 * 10080) 0 := List.drop_left' rfl
  have hn : fieldOf canarySection 4 4 = 10080 := by
    rw [fieldOf, show (canarySection.drop 4).take 4 = leBytes 4 10080 from rfl]
    rfl
  rw [canaryWords, h8, hn, List.filter_eq_nil_iff.mpr, List.map_nil]
  intro e he
  have := wordList_zeros 10080 e.1 (List.fst_mem_of_mem_zipIdx he)
  simp [this]

theorem canarySection_form : canaryForm canarySection = true := by
  rw [canaryForm, canarySection_length]
  rfl

theorem programImage_plain :
    (paramsOf ((sectionOf programImage 0x0101).getD []) = oneStripe.params ∧
      paramsForm ((sectionOf programImage 0x0101).getD []) = true) ∧
    (admissionOf ((sectionOf programImage 0x0107).getD []) = oneStripe.admission ∧
      admissionForm ((sectionOf programImage 0x0107).getD []) = true) ∧
    (powerOf ((sectionOf programImage 0x010C).getD []) = oneStripe.power ∧
      powerForm ((sectionOf programImage 0x010C).getD []) = true) ∧
    sectionOf programImage 0x0106 = none ∧ sectionOf programImage 0x0108 = none ∧ sectionOf programImage 0x010A = none ∧
    sectionsAt programImage 0x0106 = [] ∧ sectionsAt programImage 0x0108 = [] ∧ sectionsAt programImage 0x0109 = [] ∧
    sectionsAt programImage 0x010A = [] ∧ fieldOf canarySection 4 4 = 10080 := by
  decide +kernel

theorem programImage_program : programOf { bytes := programImage } 0 1 = oneStripe := by
  obtain ⟨⟨h1, f1⟩, ⟨h7, f7⟩, ⟨hc, fc⟩, n6, n8, na, l6, l8, l9, la, hn⟩ := programImage_plain
  simp only [programOf, h1, f1, h7, f7, hc, fc, n6, n8, na, l6, l8, l9, la, programImage_canary, Option.getD_some,
    canarySection_words, canarySection_form, hn]
  rfl

/-- Partition 0 of one stripe, EMPTY, its program image staged and page 0 asking for the load. -/
def loading : State :=
  { State.page0 (linked accessible) (asking 0x0203 [(1, 0)]) with
    parts := [(0, { st := .empty, stripeCount := 1, slotCount := 8192 })], stages := [staged 1 0 programImage true] }

theorem loading_stripes : (loading.part 0).firstStripe = 0 ∧ (loading.part 0).stripeCount = 1 := by decide +kernel

theorem loading_programFor : loading.programFor 0 { bytes := programImage } = oneStripe := by
  rw [State.programFor, loading_stripes.1, loading_stripes.2]
  exact programImage_program

theorem loading_badImage : loading.badImage 0 { bytes := programImage } = false := by
  rw [State.badImage, loading_stripes.1, loading_stripes.2, programImage_program, programImage_sections]
  decide +kernel

theorem loading_stage : loading.stage 1 0 = some (staged 1 0 programImage true) := by
  rw [State.stage, loading, List.find?_cons_of_pos]
  rfl

theorem loading_fresh : loading.stale 1 0 = false := by
  simp [State.stale, loading_stage, staged]

/-- The module with the staging `g`, partition 0 as `q` and page 0 as `m`. -/
def holding (q : Partition) (g : Stage) (m : Mbx) : State := { State.page0 (owning q) m with stages := [g] }

/-- The block of IMAGE_STAGE for a pack of 4,096 bytes. -/
def stageBlock : Mbx := buffered 0x0201 [(1, 3), (1, 0xFF), (6, 0), (8, 0), (8, 4096)] 4096

/-- IMAGE_VERIFY of a staged pack. -/
def verifying : State := holding {} (staged 3 0xFF pack false) (asking 0x0202 [(1, 3), (1, 0xFF)])

/-- PACK_INSTALL of a staged pack with the digest `d`. -/
def installing (d : BitVec 512) : State := holding {} { staged 3 0xFF pack true with digest := d } (asking 0x0205 [])

/-- WEIGHT_LOAD of a staged weight image with the digest `d` into a partition of one home frame. -/
def weighing (d : BitVec 512) : State :=
  holding { st := .loaded, homeFrames := 1 } { staged 2 0 weightImage true with digest := d } (asking 0x0204 [(1, 0)])

/-- PROGRAM_LOAD where the staged bytes changed since they were verified. -/
def reloading : State := holding { st := .empty } { staged 1 0 weightImage true with digest := 0 } (asking 0x0203 [(1, 0)])

theorem witness_MailboxImages :
    ((State.page0 (linked accessible) stageBlock).asksBuffer 0 0x0201 24 4096 ∧
      (State.page0 (linked accessible) stageBlock).param 0 0 1 = 3 ∧ (State.page0 (linked accessible) stageBlock).param 0 1 1 = 0xFF ∧
      (∀ o ∈ span 2 8, memGet ((State.page0 (linked accessible) stageBlock).mb 0).payload o = 0) ∧
      (State.page0 (linked accessible) stageBlock).param 0 8 8 = 0 ∧
      (State.page0 (linked accessible) stageBlock).param 0 16 8 = 4096 ∧ (linked accessible).link.access = true) ∧
    (verifying.asks 0 0x0202 2 ∧ verifying.param 0 0 1 = 3 ∧ verifying.param 0 1 1 = 0xFF ∧
      verifying.stage 3 0xFF = some (staged 3 0xFF pack false) ∧ verifying.badEnvelope 3 (staged 3 0xFF pack false) = false ∧
      verifying.signatureFault pack = 0 ∧ verifying.badVersion (headerOf pack) = false) ∧
    ((installing (imageDigest pack)).asks 0 0x0205 0 ∧
      (installing (imageDigest pack)).stage 3 0xFF = some (staged 3 0xFF pack true) ∧
      (installing (imageDigest pack)).stale 3 0xFF = false ∧ (installing (imageDigest pack)).flash.packs = [] ∧
      (packOf { bytes := pack }).patterns = 0 ∧ (packOf { bytes := pack }).size ≤ 3 * 2 ^ 30 ∧ (packOf { bytes := pack }).kernels ≠ [] ∧
      (installing 0).stale 3 0xFF = true) ∧
    ((State.page0 State.reset (asking 0x0206 [(1, 3), (1, 0xFF)])).asks 0 0x0206 2) := by
  unfold State.asks State.asksBuffer
  decide +kernel

theorem witness_MailboxImages_weights :
    ((weighing (imageDigest weightImage)).asks 0 0x0204 1 ∧ (weighing (imageDigest weightImage)).param 0 0 1 = 0 ∧
      (weighing (imageDigest weightImage)).partScope 0 0 = none ∧ ((weighing (imageDigest weightImage)).part 0).st = .loaded ∧
      (weighing (imageDigest weightImage)).stage 2 0 = some (staged 2 0 weightImage true) ∧ (headerOf weightImage).sealed = false ∧
      (weighing (imageDigest weightImage)).homesOf { bytes := weightImage }
        = some { home := [{ offset := 320 * 2 ^ 19, bytes := [7, 0, 0, 0] }] } ∧
      badHomeData 1 { offset := 320 * 2 ^ 19, bytes := [7, 0, 0, 0] } = false ∧ (weighing (imageDigest weightImage)).partHeld 0 0 = false ∧
      (weighing (imageDigest weightImage)).resets = [] ∧ (weighing (imageDigest weightImage)).stageUnread 2 0 = false ∧
      (weighing (imageDigest weightImage)).stale 2 0 = false ∧ (weighing 0).stale 2 0 = true) := by
  unfold State.asks
  decide +kernel

theorem witness_MailboxImages_program :
    (loading.asks 0 0x0203 1 ∧ loading.param 0 0 1 = 0 ∧ loading.partScope 0 0 = none ∧ (loading.part 0).idle = true ∧
      loading.partHeld 0 0 = false ∧ loading.resets = [] ∧ loading.withdrawnIn 0 = none) ∧
    (loading.stage 1 0 = some (staged 1 0 programImage true) ∧ loading.stale 1 0 = false ∧
      (loading.programFor 0 { bytes := programImage }).params.arithEpoch = 1 ∧
      (loading.programFor 0 { bytes := programImage }).params.fabricEpoch = 1 ∧
      loading.badImage 0 { bytes := programImage } = false) ∧
    (reloading.asks 0 0x0203 1 ∧ reloading.param 0 0 1 = 0 ∧ reloading.partScope 0 0 = none ∧ (reloading.part 0).idle = true ∧
      reloading.stage 1 0 = some { staged 1 0 weightImage true with digest := 0 } ∧ reloading.stale 1 0 = true) ∧
    ((resetting 0x0203 [staged 1 0 weightImage true]).resets = [{ scope := 2, index := 0, mbx := some 0 }] ∧
      ((resetting 0x0203 [staged 1 0 weightImage true]).part 0).moves = [] ∧
      ((resetting 0x0203 [staged 1 0 weightImage true]).mb 0).opcode = 0x0203 ∧
      ((resetting 0x0203 [staged 1 0 weightImage true]).mb 0).done = false ∧
      (resetting 0x0203 [staged 1 0 weightImage true]).stage 1 0 = some (staged 1 0 weightImage true)) := by
  refine ⟨?_, ⟨loading_stage, loading_fresh, congrArg (·.params.arithEpoch) loading_programFor,
    congrArg (·.params.fabricEpoch) loading_programFor, loading_badImage⟩, ?_⟩ <;> unfold State.asks <;> decide +kernel

/-- Slot 9 as `x` of a LOADED or running partition 0 with UIO and the tiering licence, and page 0 as `m`. -/
def streaming (st : PState) (x : Stream) (m : Mbx) : State :=
  State.page0 { slotted st x with flash := { licences := [(2, 1)] }, link := { accessible with uioEnable := true } } m

/-- STREAM_OPEN of slot 9: a ring of 1 MiB, the last page of the page table, no drafter. -/
def openBlock : Mbx :=
  asking 0x0301 [(4, 9), (4, 0), (4, 0x00C00800), (4, 4194303), (4, 1), (4, 0), (8, 4096), (16, 0), (16, 5), (4, 0), (4, 0), (4, 7)
    , (10, 0), (2, 0xFFFF), (8, 0xFFFFFFFFFFFFFFFF), (1, 0), (39, 0)]

/-- A partition of one stripe with the only free frame of each of its ports the last, slot 9 open with the last page. -/
def frames : State :=
  { State.page0 State.reset (asking 0x0402 [(4, 4194303), (4, 1), (4, 9)]) with
    parts := [(0, { st := .loaded, stripeCount := 1, homeFrames := 73728 - 321, slotCount := 10 })]
    streams := [(9, { st := .open_, pageBase := 4194303, pageCount := 1 })] }

/-- TIER_WINDOWS of two windows. -/
def windowBlock : Mbx := asking 0x0401 [(1, 2), (7, 0), (8, 0), (8, 2 ^ 40 - 2 ^ 19), (8, 2 ^ 40), (8, 2 ^ 19)]

theorem witness_MailboxStreams :
    ((streaming .loaded {} openBlock).pageExists 0 = true ∧ (streaming .loaded {} openBlock).streamRoot = true ∧
      (streaming .loaded {} openBlock).slotUsable 9 = true ∧ (streaming .loaded {} openBlock).preparing = none ∧
      (streaming .loaded {} openBlock).param 0 0 4 = 9) ∧
    ((streaming .loaded {} openBlock).asks 0 0x0301 136 ∧
      (streaming .loaded {} openBlock).badField 0 ((streaming .loaded {} openBlock).badOpen 0) openReserved = none ∧
      ((streaming .loaded {} openBlock).stream 9).enableHeld = false ∧ (streaming .loaded {} openBlock).param 0 86 2 = 0xFFFF ∧
      ((streaming .loaded {} openBlock).part ((streaming .loaded {} openBlock).slotPart 9)).streamCmds = [] ∧
      ((streaming .loaded {} openBlock).part ((streaming .loaded {} openBlock).slotPart 9)).pageCmds = [] ∧
      ((streaming .loaded {} openBlock).stream 9).st = .closed ∧
      running ((streaming .loaded {} openBlock).part ((streaming .loaded {} openBlock).slotPart 9)).st = false) ∧
    ((streaming .loaded { st := .draining } openBlock).asks 0 0x0301 136 ∧
      (streaming .loaded { st := .draining } openBlock).badField 0
        ((streaming .loaded { st := .draining } openBlock).badOpen 0) openReserved = none ∧
      ((streaming .loaded { st := .draining } openBlock).stream 9).st = .draining) ∧
    ((streaming .open_ { st := .open_ } (asking 0x0302 [(4, 9)])).asks 0 0x0302 4 ∧
      (streaming .open_ { st := .open_ } (asking 0x0302 [(4, 9)])).badField 0
        [(streaming .open_ { st := .open_ } (asking 0x0302 [(4, 9)])).badSlotAt 0 0] [] = none ∧
      ((streaming .open_ { st := .open_ } (asking 0x0302 [(4, 9)])).stream 9).heldMbx = none ∧
      isOpen ((streaming .open_ { st := .open_ } (asking 0x0302 [(4, 9)])).stream 9).st = true ∧
      running ((streaming .open_ { st := .open_ } (asking 0x0302 [(4, 9)])).part
        ((streaming .open_ { st := .open_ } (asking 0x0302 [(4, 9)])).slotPart 9)).st = true ∧
      running ((streaming .loaded { st := .open_ } (asking 0x0302 [(4, 9)])).part 0).st = false ∧
      ((streaming .loaded { st := .open_ } (asking 0x0302 [(4, 9)])).part 0).streamCmds = [] ∧
      ((streaming .loaded { st := .open_ } (asking 0x0302 [(4, 9)])).part 0).pageCmds = []) ∧
    ((streaming .loaded { st := .open_ } (asking 0x0303 [(4, 9), (1, 0)])).asks 0 0x0303 5 ∧
      (streaming .loaded { st := .open_ } (asking 0x0303 [(4, 9), (1, 0)])).param 0 4 1 = 0 ∧
      (streaming .loaded { st := .open_ } (asking 0x0303 [(4, 9), (1, 0)])).badField 0
        [(streaming .loaded { st := .open_ } (asking 0x0303 [(4, 9), (1, 0)])).badSlotAt 0 0, (4, false)] [] = none ∧
      (streaming .loaded { st := .open_ } (asking 0x0303 [(4, 9), (1, 0)])).licensed 2 = true ∧
      ((streaming .loaded { st := .open_ } (asking 0x0303 [(4, 9), (1, 0)])).stream 9).parking = false ∧
      (streaming .loaded { st := .open_ } (asking 0x0303 [(4, 9), (1, 0)])).parkForbidden 9 = false) ∧
    ((streaming .loaded { st := .parked } (asking 0x0304 [(4, 9), (1, 0), (7, 0)])).asks 0 0x0304 12 ∧
      (streaming .loaded { st := .parked } (asking 0x0304 [(4, 9), (1, 0), (7, 0)])).param 0 4 1 = 0 ∧
      (streaming .loaded { st := .parked } (asking 0x0304 [(4, 9), (1, 0), (7, 0)])).badField 0
        [(streaming .loaded { st := .parked } (asking 0x0304 [(4, 9), (1, 0), (7, 0)])).badSlotAt 0 0, (4, false)] (span 5 8)
        = none ∧
      ((streaming .loaded { st := .parked } (asking 0x0304 [(4, 9), (1, 0), (7, 0)])).stream 9).st = .parked) := by
  unfold State.asks
  decide +kernel

theorem witness_MailboxStreams_pages :
    (({ streaming .loaded {} windowBlock with parts := [] } : State).asks 0 0x0401
        (8 + 16 * ({ streaming .loaded {} windowBlock with parts := [] } : State).param 0 0 1) ∧
      ({ streaming .loaded {} windowBlock with parts := [] } : State).badField 0
        (({ streaming .loaded {} windowBlock with parts := [] } : State).badWindows 0) (span 1 8) = none ∧
      ({ streaming .loaded {} windowBlock with parts := [] } : State).param 0 0 1 ≤ 8 ∧
      ({ streaming .loaded {} windowBlock with parts := [] } : State).link.uioEnable = true ∧
      ({ streaming .loaded {} windowBlock with parts := [] } : State).licensed 2 = true ∧
      ({ streaming .loaded {} windowBlock with parts := [] } : State).pageExists 0 = true) ∧
    (frames.asks 0 0x0402 12 ∧ frames.badField 0 (frames.badPages 0 4096 ++ [frames.badSlotAt 0 8]) [] = none ∧
      frames.param 0 8 4 = 9 ∧ frames.param 0 0 4 = 4194303 ∧ frames.param 0 4 4 = 1 ∧ frames.pagesBusy 0 = none ∧
      isOpen (frames.stream 9).st = true ∧ (frames.stream 9).pageBase ≤ 4194303 ∧
      4194303 < (frames.stream 9).pageBase + (frames.stream 9).pageCount ∧ (frames.page 4194303).st = .free ∧
      running (frames.part (frames.slotPart 9)).st = false ∧ (frames.part (frames.slotPart 9)).streamCmds = []) ∧
    ((State.page0 State.reset (asking 0x0403 [(4, 0), (4, 4096)])).asks 0 0x0403 8 ∧
      (State.page0 State.reset (asking 0x0403 [(4, 0), (4, 4096)])).badField 0
        ((State.page0 State.reset (asking 0x0403 [(4, 0), (4, 4096)])).badPages 0 4096) [] = none ∧
      (State.page0 State.reset (asking 0x0403 [(4, 0), (4, 4096)])).pageOwners 0 4096 = [] ∧
      (State.page0 State.reset (asking 0x0403 [(4, 0), (4, 4096)])).pagesBusy 0 = none) := by
  unfold State.asks
  decide +kernel

theorem witness_MailboxStreams_frame : ∃ f, frames.pickHbm (frames.slotPart 9) = some f := by
  have hp : frames.bestPort (frames.slotPart 9) = some 0 := by decide +kernel
  have hl : frames.freeHbm (frames.slotPart 9) 0 = [73727] := by decide +kernel
  rw [State.pickHbm, hp]
  simp only [hl, State.chooseFrom]
  exact ⟨_, rfl⟩

/-- Partition 0 LOADED with weights, and page 0 as `m`. -/
def loaded (m : Mbx) : State := State.page0 (owning { st := .loaded, weightsLoaded := true }) m

/-- A start of partition 0 in a job that waits for its members. -/
def starting : State :=
  { State.page0 (owning { st := .open_, awaiting := true, inJob := true, startMbx := some 0 }) { done := false } with
    job := { formed := true } }

theorem witness_MailboxRuns :
    ((loaded (asking 0x0501 [(1, 0), (1, 0), (6, 0)])).param 0 0 1 = 0 ∧ (0 : Nat) ≤ 7 ∧
      (loaded (asking 0x0501 [(1, 0), (1, 0), (6, 0)])).partScope 0 0 = none ∧
      (loaded (asking 0x0501 [(1, 0), (1, 0), (6, 0)])).job.formed = false ∧
      ((loaded (asking 0x0501 [(1, 0), (1, 0), (6, 0)])).part 0).st = .loaded ∧
      (loaded (asking 0x0501 [(1, 0), (1, 0), (6, 0)])).runRefusal 0 false = none ∧
      ((loaded (asking 0x0501 [(1, 0), (1, 0), (6, 0)])).part 0).enableHeld = none ∧
      (loaded (asking 0x0501 [(1, 0), (1, 0), (6, 0)])).resets = [] ∧
      (loaded (asking 0x0501 [(1, 0), (1, 0), (6, 0)])).preparing = none ∧
      (loaded (asking 0x0501 [(1, 0), (1, 0), (6, 0)])).asks 0 0x0501 8 ∧
      (loaded (asking 0x0501 [(1, 0), (1, 0), (6, 0)])).param 0 1 1 = 0 ∧
      (loaded (asking 0x0501 [(1, 0), (1, 0), (6, 0)])).param 0 2 6 = 0) ∧
    ((loaded (asking 0x0503 [(1, 0)])).asks 0 0x0503 1 ∧ (loaded (asking 0x0503 [(1, 0)])).partScope 0 0 = none ∧
      (loaded (asking 0x0503 [(1, 0)])).runRefusal 0 false = none) ∧
    ((State.page0 (owning { st := .open_ }) (asking 0x0502 [(1, 0)])).asks 0 0x0502 1 ∧
      (State.page0 (owning { st := .open_ }) (asking 0x0502 [(1, 0)])).partScope 0 0 = none ∧
      running ((State.page0 (owning { st := .open_ }) (asking 0x0502 [(1, 0)])).part 0).st = true ∧
      ((State.page0 (owning { st := .open_ }) (asking 0x0502 [(1, 0)])).part 0).stopMbx = none ∧
      ((State.page0 (owning { st := .open_ }) (asking 0x0502 [(1, 0)])).part 0).single = none ∧
      ((State.page0 (owning { st := .open_ }) (asking 0x0502 [(1, 0)])).part 0).enableHeld = none) ∧
    ((loaded (asking 0x0502 [(1, 0)])).asks 0 0x0502 1 ∧ running ((loaded (asking 0x0502 [(1, 0)])).part 0).st = false) ∧
    (starting.parts = [(0, starting.part 0)] ∧ (starting.part 0).startMbx = some 0 ∧ (starting.part 0).inJob = true ∧
      (starting.part 0).st = .open_ ∧ (starting.part 0).awaiting = true ∧ (starting.part 0).stopMbx = none ∧
      (starting.mb 0).done = false) ∧
    (State.reset.parts = []) := by
  unfold State.asks
  decide +kernel

theorem witness_MailboxRuns_held : starting.nothingHeld := by
  refine ⟨fun p => ?_, rfl, rfl⟩
  simp only [starting, State.page0, owning, linked, State.part, tget]
  split <;> rfl

/-- TILE_REPAIR of the site (3, 5), which is disabled where `d` holds it. -/
def siting (d : List (Nat × Nat)) : State :=
  { State.page0 (withTile (owning { st := .loaded })) (asking 0x0803 [(2, 3), (2, 5)]) with disabled := d }

/-- SCAN_RUN of cluster 287, powered or not. -/
def scanning (on : Bool) : State :=
  { State.page0 (owning { st := .loaded }) (asking 0x0804 [(2, 287), (2, 0)]) with clusters := [(287, { power := on })] }

theorem witness_MailboxSettingsAndRepair :
    ((State.page0 State.reset (asking 0x0601 [(4, 18000)])).asks 0 0x0601 4 ∧
      3000 ≤ (State.page0 State.reset (asking 0x0601 [(4, 3000)])).param 0 0 4 ∧
      (State.page0 State.reset (asking 0x0601 [(4, 18000)])).param 0 0 4 ≤ 18000 ∧
      (State.page0 State.reset (asking 0x0601 [(4, 18000)])).param 0 0 4 % 50 = 0) ∧
    ((State.page0 State.reset (asking 0x0602 [(1, 7)])).asks 0 0x0602 1 ∧
      (State.page0 State.reset (asking 0x0602 [(1, 7)])).param 0 0 1 ≤ 7 ∧
      (State.page0 State.reset (asking 0x0602 [(1, 7)])).runningParts = [] ∧
      (State.page0 (owning { st := .open_ }) (asking 0x0602 [(1, 7)])).asks 0 0x0602 1 ∧
      (State.page0 (owning { st := .open_ }) (asking 0x0602 [(1, 7)])).runningParts ≠ []) ∧
    ((State.page0 State.reset (asking 0x0701 [(4, 1000000), (4, 7)])).asks 0 0x0701 8 ∧
      1000 ≤ (State.page0 State.reset (asking 0x0701 [(4, 1000000), (4, 7)])).param 0 0 4 ∧
      (State.page0 State.reset (asking 0x0701 [(4, 1000000), (4, 7)])).param 0 0 4 ≤ 1000000 ∧
      (State.page0 State.reset (asking 0x0701 [(4, 1000000), (4, 7)])).param 0 0 4 % 1000 = 0 ∧
      (State.page0 State.reset (asking 0x0701 [(4, 1000000), (4, 7)])).param 0 4 4 ≤ 7) := by
  unfold State.asks
  decide +kernel

theorem witness_MailboxSettingsAndRepair_canaries :
    ((loaded (asking 0x0801 [(1, 0), (1, 1), (2, 0), (4, 65536), (4, 1000000)])).asks 0 0x0801 12 ∧
      (loaded (asking 0x0801 [(1, 0), (1, 1), (2, 0), (4, 65536), (4, 1000000)])).param 0 1 1 ≤ 1 ∧
      (∀ o ∈ span 2 4, memGet ((loaded (asking 0x0801 [(1, 0), (1, 1), (2, 0), (4, 65536), (4, 1000000)])).mb 0).payload o = 0) ∧
      1 ≤ (loaded (asking 0x0801 [(1, 0), (1, 1), (2, 0), (4, 65536), (4, 1000000)])).param 0 4 4 ∧
      (loaded (asking 0x0801 [(1, 0), (1, 1), (2, 0), (4, 65536), (4, 1000000)])).param 0 4 4 ≤ 65536 ∧
      1 ≤ (loaded (asking 0x0801 [(1, 0), (1, 1), (2, 0), (4, 65536), (4, 1000000)])).param 0 8 4 ∧
      (loaded (asking 0x0801 [(1, 0), (1, 1), (2, 0), (4, 65536), (4, 1000000)])).param 0 8 4 ≤ 1000000 ∧
      (loaded (asking 0x0801 [(1, 0), (1, 1), (2, 0), (4, 65536), (4, 1000000)])).partScope 0 0 = none ∧
      (loaded (asking 0x0801 [(1, 0), (1, 1), (2, 0), (4, 65536), (4, 1000000)])).partHeld 0 0 = false ∧
      running ((loaded (asking 0x0801 [(1, 0), (1, 1), (2, 0), (4, 65536), (4, 1000000)])).part 0).st = false ∧
      ((loaded (asking 0x0801 [(1, 0), (1, 1), (2, 0), (4, 65536), (4, 1000000)])).part 0).observeNext = []) ∧
    ((State.page0 (owning { st := .open_ }) (asking 0x0801 [(1, 0), (1, 1), (2, 0), (4, 1), (4, 1)])).asks 0 0x0801 12 ∧
      (State.page0 (owning { st := .open_ }) (asking 0x0801 [(1, 0), (1, 1), (2, 0), (4, 1), (4, 1)])).partScope 0 0 = none ∧
      (State.page0 (owning { st := .open_ }) (asking 0x0801 [(1, 0), (1, 1), (2, 0), (4, 1), (4, 1)])).partHeld 0 0 = false ∧
      running ((State.page0 (owning { st := .open_ }) (asking 0x0801 [(1, 0), (1, 1), (2, 0), (4, 1), (4, 1)])).part 0).st = true) ∧
    ((withTile (loaded (asking 0x0802 [(4, 0), (1, 1)]))).asks 0 0x0802 5 ∧
      (withTile (loaded (asking 0x0802 [(4, 0), (1, 1)]))).param 0 0 4 = 0 ∧
      (withTile (loaded (asking 0x0802 [(4, 0), (1, 1)]))).badTile 0 = (0, false) ∧
      (withTile (loaded (asking 0x0802 [(4, 0), (1, 1)]))).param 0 4 1 = 1 ∧
      (withTile (loaded (asking 0x0802 [(4, 0), (1, 1)]))).tileScope 0 0 = none ∧
      bit ((withTile (loaded (asking 0x0802 [(4, 0), (1, 1)]))).tile 0).canary.toNat 31 = true ∧
      (withTile (loaded (asking 0x0802 [(4, 0), (1, 1)]))).withdrawn.getLsbD
        (tileStripe 0 + (withTile (loaded (asking 0x0802 [(4, 0), (1, 1)]))).sigma0) = false ∧
      (withTile (loaded (asking 0x0802 [(4, 0), (1, 1)]))).partOf 0 = some 0 ∧
      (withTile (loaded (asking 0x0802 [(4, 0), (1, 1)]))).inTide 0 = false ∧
      (withTile (loaded (asking 0x0802 [(4, 0), (1, 1)]))).partHeld 0 0 = false) ∧
    ((withTile (State.page0 (owning { st := .open_ }) (asking 0x0802 [(4, 0), (1, 1)]))).asks 0 0x0802 5 ∧
      (withTile (State.page0 (owning { st := .open_ }) (asking 0x0802 [(4, 0), (1, 1)]))).badTile 0 = (0, false) ∧
      (withTile (State.page0 (owning { st := .open_ }) (asking 0x0802 [(4, 0), (1, 1)]))).tileScope 0 0 = none ∧
      (withTile (State.page0 (owning { st := .open_ }) (asking 0x0802 [(4, 0), (1, 1)]))).partOf 0 = some 0 ∧
      (withTile (State.page0 (owning { st := .open_ }) (asking 0x0802 [(4, 0), (1, 1)]))).partHeld 0 0 = false ∧
      running ((withTile (State.page0 (owning { st := .open_ }) (asking 0x0802 [(4, 0), (1, 1)]))).part 0).st = true) := by
  unfold State.asks
  decide +kernel

theorem witness_MailboxSettingsAndRepair_sites :
    ((siting [(3, 5)]).asks 0 0x0803 4 ∧ (siting [(3, 5)]).param 0 0 2 = 3 ∧ (siting [(3, 5)]).param 0 2 2 = 5 ∧
      (siting [(3, 5)]).quietPart ((siting [(3, 5)]).partOfPhys (3 / 37)) = true ∧
      (siting [(3, 5)]).optBusy 0 ((siting [(3, 5)]).partOfPhys (3 / 37)) = none ∧
      (siting [(3, 5)]).disabled.contains (3, 5) = true ∧ (siting []).disabled.contains (3, 5) = false ∧
      (siting []).fuses.stripeMap.getLsbD (3 / 37) = true ∧
      ({ siting [] with fuses := { (siting []).fuses with stripeMap := 0 } } : State).fuses.stripeMap.getLsbD (3 / 37) = false ∧
      (siting []).segHasRoom 3 5 = true ∧ ((siting []).tileAt 3 5).isSome = true) ∧
    ((scanning true).asks 0 0x0804 4 ∧ (scanning true).param 0 0 2 = 287 ∧ (scanning true).param 0 2 2 = 0 ∧
      (scanning true).fuses.stripeMap.getLsbD (287 / 36) = true ∧
      (scanning true).quietPart ((scanning true).partOfPhys (287 / 36)) = true ∧
      (scanning true).optBusy 0 ((scanning true).partOfPhys (287 / 36)) = none ∧ (scanning true).resets = [] ∧
      (scanning true).scan = none ∧ ((scanning true).cluster 287).powerUpHeld = false ∧
      ((scanning true).cluster 287).heldMbx = none ∧ (scanning true).boot.poweredOff = false ∧
      ((scanning true).cluster 287).power = true ∧ ((scanning false).cluster 287).power = false) := by
  unfold State.asks
  decide +kernel

/-- A flash whose other bank is valid and verified, and whose running one is on trial. -/
def banks : Flash := { other := { valid := true, verified := true, version := 0x02030001 }, onTrial := true }

/-- JOB_FORM of 4 by 2 by 2 devices, this one its root. -/
def forming16 : State :=
  State.page0 State.reset (asking 0x0902 [(8, 77), (1, 4), (1, 2), (1, 2), (1, 0), (8, 1), (1, 3), (1, 1), (1, 1)])

/-- The module in the job `b` with page 0 as `m`. -/
def member (b : Job) (m : Mbx) : State := { State.page0 State.reset m with job := b }

theorem witness_MailboxJobsAndFirmware :
    ((State.page0 State.reset (asking 0x0901 [(1, 63)])).asks 0 0x0901 1 ∧
      (State.page0 State.reset (asking 0x0901 [(1, 63)])).param 0 0 1 = 63 ∧
      (State.page0 State.reset (asking 0x0901 [(1, 63)])).inNoJob = true ∧
      (State.page0 State.reset (asking 0x0901 [(1, 63)])).fuses.portMap = 63) ∧
    (forming16.asks 0 0x0902 23 ∧ forming16.badField 0 (forming16.badForm 0) [11] = none ∧ forming16.inNoJob = true ∧
      forming16.allIdle ∧ forming16.fuses.portMap = 63 ∧ forming16.boot.poweredOff = false) ∧
    ((member { formed := true } (asking 0x0903 [])).asks 0 0x0903 0 ∧ (member { formed := true } (asking 0x0903 [])).inJob = true ∧
      (member { formed := true } (asking 0x0903 [])).jobParts = []) ∧
    ((member { formed := true, left := true } (asking 0x0904 [])).asks 0 0x0904 0 ∧
      (member { formed := true, left := true } (asking 0x0904 [])).job.left = true ∧
      (member { formed := true, left := true } (asking 0x0904 [])).job.formingStep = 0 ∧
      (member { formed := true, left := true } (asking 0x0904 [])).fuses.portMap = 63 ∧
      (member { formed := true, left := true } (asking 0x0904 [])).boot.poweredOff = false ∧
      (member { formed := true, left := true } (asking 0x0904 [])).allIdle) ∧
    (({ State.page0 State.reset (asking 0x0A01 [(1, 0)]) with flash := banks } : State).flash.other.valid = true ∧
      ({ State.page0 State.reset (asking 0x0A01 [(1, 0)]) with flash := banks } : State).flash.other.verified = true ∧
      ({ State.page0 State.reset (asking 0x0A01 [(1, 0)]) with flash := banks } : State).asks 0 0x0A01 1 ∧
      ({ State.page0 State.reset (asking 0x0A01 [(1, 0)]) with flash := banks } : State).param 0 0 1 = 0 ∧
      ({ State.page0 State.reset (asking 0x0A01 [(1, 1)]) with flash := banks } : State).param 0 0 1 = 1 ∧
      ({ State.page0 State.reset (asking 0x0A01 [(1, 1)]) with flash := banks } : State).inNoJob = true ∧
      ({ State.page0 State.reset (asking 0x0A03 [(1, 0)]) with flash := banks } : State).asks 0 0x0A03 1) ∧
    (({ State.page0 State.reset (asking 0x0A02 []) with flash := banks } : State).asks 0 0x0A02 0 ∧
      ({ State.page0 State.reset (asking 0x0A02 []) with flash := banks } : State).flash.onTrial = true) := by
  unfold State.asks State.allIdle
  decide +kernel

theorem witness_MailboxJobsAndFirmware_ports :
    ∀ q, (State.reset.hport q).shutting = false ∧ (State.reset.hport q).calFailed = false := fun _ => ⟨rfl, rfl⟩

/-- The public key of the secret scalar 1. -/
def oneKey : Nat := State.reset.flash.rootKey

/-- A device whose owner has that key, with page 0 as `m` and the nonce 0 of scope 1 made at time 0. -/
def owned (m : Mbx) : State :=
  { State.page0 (linked accessible) m with flash := { ownerKey := some oneKey }, dbg := { nonce := some (1, 0, 0) } }

/-- A record that the vendor signs: the device gets an owner and no debug key. -/
def record : List Byte :=
  let b := leBytes 4 0x4F56424D ++ leBytes 2 1 ++ leBytes 2 1 ++ leBytes 8 1 ++ leBytes 8 1 ++ beBytes 133 oneKey ++ List.replicate 139 0
  b ++ signature b

/-- LICENCE_INSTALL of the tiering licence. -/
def licence : Mbx :=
  let b := leBytes 4 0x4C56424D ++ leBytes 2 1 ++ leBytes 2 2 ++ leBytes 8 1 ++ leBytes 4 6 ++ List.replicate 104 0
  block 0x0B02 (b ++ signature b)

/-- DEBUG_UNLOCK of scope 1 by the owner for 600 s. -/
def unlock : Mbx :=
  let b := leBytes 4 0x4456424D ++ leBytes 4 0x0101 ++ leBytes 8 1 ++ List.replicate 64 0 ++ leBytes 16 600
  block 0x0B04 (b ++ signature b)

/-- PREPARE_REMOVE with partitions `l`. -/
def removing (l : Tab Partition) : State := { State.page0 State.reset (asking 0x0C02 [(1, 2)]) with parts := l }

theorem witness_MailboxSecurityAndRemoval :
    ((State.page0 (linked accessible) (buffered 0x0B01 [] 448)).asksBuffer 0 0x0B01 0 448 ∧
      (State.page0 (linked accessible) (buffered 0x0B01 [] 448)).link.access = true ∧ record.length = 428 ∧ fieldOf record 6 1 ≤ 2 ∧
      recordForm record (linked accessible).fuses.serial = true ∧ (linked accessible).parts = [] ∧
      (linked accessible).ownerSigner record = 0 ∧ (linked accessible).flash.ownerSeq < fieldOf record 16 8) ∧
    ((State.page0 State.reset licence).asks 0 0x0B02 256 ∧ bit ((State.page0 State.reset licence).param 0 7 1) 0 = false ∧
      (State.page0 State.reset licence).badField 0 ((State.page0 State.reset licence).badLicence 0 ++ []) (span 20 124 ++ []) = none ∧
      (State.page0 State.reset licence).vendorFault ((State.page0 State.reset licence).paramBytes 0 0 256) false
        ((State.page0 State.reset licence).paramBytes 0 124 276) 8 = 0 ∧
      (State.page0 State.reset licence).issueOld ((State.page0 State.reset licence).param 0 6 1)
        ((State.page0 State.reset licence).param 0 16 4) = false) ∧
    ((State.page0 State.reset (asking 0x0B03 [(1, 2)])).asks 0 0x0B03 1 ∧
      (State.page0 State.reset (asking 0x0B03 [(1, 2)])).param 0 0 1 ≤ 2) ∧
    ((owned unlock).asks 0 0x0B04 228 ∧ bit ((owned unlock).param 0 5 1) 1 = false ∧ bit ((owned unlock).param 0 5 1) 0 = true ∧
      (owned unlock).badField 0 ((owned unlock).badUnlock 0 ++ []) ([6, 7] ++ span 84 96 ++ []) = none ∧
      (owned unlock).dbg.nonce.isSome = true ∧ (owned unlock).unlockFault 0 = 0 ∧
      (owned unlock).scopeOpen ((owned unlock).param 0 4 1) = false) ∧
    ((owned {}).dbg.nonce = some (1, 0, 0) ∧ (owned {}).now < 0 + 600000000000 ∧
      0 + 600000000000 ≤ ({ owned {} with time := 600000000000 * 4158 } : State).now ∧ State.reset.dbg.nonce = none) := by
  unfold State.asks State.asksBuffer
  decide +kernel

theorem witness_MailboxSecurityAndRemoval_removal :
    ((removing []).asks 0 0x0C02 1 ∧ (removing []).param 0 0 1 = 2 ∧ (removing []).inJob = false ∧
      (removing []).job.leaveMbx = none ∧ (removing []).runningParts = [] ∧ (removing []).streams = []) ∧
    ((removing [(0, { st := .open_ })]).asks 0 0x0C02 1 ∧ (removing [(0, { st := .open_ })]).runningParts = [0] ∧
      (∀ x ∈ (removing [(0, { st := .open_ })]).streams, x.2.heldMbx = none) ∧
      running ((removing [(0, { st := .open_ })]).part 0).st = true) := by
  unfold State.asks
  decide +kernel

theorem witness_MailboxSecurityAndRemoval_held :
    (removing []).nothingHeld ∧ (removing [(0, { st := .open_ })]).nothingHeld := by
  refine ⟨⟨fun _ => rfl, rfl, rfl⟩, fun p => ?_, rfl, rfl⟩
  simp only [removing, State.page0, State.part, tget]
  split <;> rfl

/-! Pins, heat, clocks and power -/

/-- A module with the pins `p`. -/
def pinned (p : Pins) : State := { State.reset with pins := p }

/-- The switch open and nothing holding it, but for what is further said. -/
def off : Pins := { State.reset.pins with switchOn := false, pwrgd := false, pwrEn := false }

theorem witness_PowerUpByPins :
    ((pinned off).pins.switchOn = false ∧ (pinned off).pins.mateOk = true ∧ (pinned off).pins.opening = false ∧
      (pinned off).pins.openedAt = none ∧ (pinned off).pins.latched = false ∧ (pinned off).pins.faultOpen = false) ∧
    ((pinned { off with pwrEn := true, mateOk := false }).pins.pwrEn = true ∧
      (pinned { off with pwrEn := true, mateOk := false }).pins.mateOk = false ∧
      (pinned { off with pwrEn := true }).pins.pwrEn = true ∧ (pinned { off with pwrEn := true }).pins.mateOk = true) ∧
    ((pinned { off with opening := true }).pins.opening = true) ∧
    ((pinned { off with latched := true, lowSince := some 0 }).pins.latched = true ∧
      (pinned { off with latched := true, lowSince := some 0 }).pins.lowSince = some 0 ∧
      (pinned { off with latched := true, lowSince := some 0 }).pinNow < 0 + 1000000000 ∧
      0 + 1000000000 ≤ ({ pinned { off with latched := true, lowSince := some 0 } with time := 1000000000 * 4158 } : State).pinNow) ∧
    ((pinned { off with powering := true, pwrEn := true }).pins.powering = true ∧ (pinned off).pins.powering = false) ∧
    ((pinned { off with riseHeld := true, openedAt := some 0, pwrEn := true }).pins.riseHeld = true ∧
      (pinned { off with riseHeld := true, openedAt := some 0, pwrEn := true }).pins.openedAt = some 0 ∧
      (pinned { off with riseHeld := true, openedAt := some 0, pwrEn := true }).pinNow < 0 + 1000000000 ∧
      0 + 1000000000 ≤ ({ pinned { off with riseHeld := true, openedAt := some 0, pwrEn := true } with pinClock := 1000000000 } : State).pinNow ∧
      (pinned off).pins.riseHeld = false) ∧
    ((pinned { off with faultOpen := true, overOpen := true }).pins.faultOpen = true ∧ 40000 ≤ 57999 ∧ 57999 < 58000 ∧
      (pinned { off with faultOpen := true }).pins.overOpen = false ∧ 44000 < 44001 ∧ 60000 ≤ 60000 ∧ 39999 < 40000 ∧
      60000 < 60001) := by decide +kernel

theorem witness_PowerDownByPins :
    ((pinned {}).pins.switchOn = true ∧ (pinned {}).pins.opening = false ∧ (pinned { opening := true }).pins.opening = true ∧
      (pinned { opening := true }).pins.switchOn = true ∧ (pinned {}).boot.poweredOff = false) ∧
    (43999 < 44000 ∧ 39999 < 40000 ∧ 60000 < 60001 ∧ 440000 < 440001 ∧ 100000 ≤ 100000 ∧ 900000 < 900001 ∧ 2 ≤ 2) ∧
    ((125 * 16 : Int) < 125 * 16 + 1) := by decide +kernel

/-- Cluster 287, in partition 0, as `k`. -/
def heated (k : Cluster) : State := { owning { st := .open_ } with clusters := [(287, k)] }

theorem witness_HeatAndMargins :
    ((heated { power := true }).stripeOn (287 / 36) = true ∧ (hottest [1760, 1759]).1 = 110 * 16 ∧ (hottest [1759]).1 < 110 * 16 ∧
      ((heated { power := true }).cluster 287).power = true ∧ ((heated { power := true }).cluster 287).tripped = false ∧
      ((heated { power := true }).cluster 287).rising = false ∧ (heated { power := true }).partOfCluster 287 = some 0 ∧
      (heated { power := true }).afterDone 0 = false) ∧
    (((heated { rising := true }).cluster 287).rising = true ∧ ((heated { rising := true }).cluster 287).downHeld = false) ∧
    (({ heated {} with fuses := { stripeMap := 0x7F } } : State).stripeOn (287 / 36) = false) ∧
    (((heated { tripped := true }).cluster 287).tripped = true ∧ (heated { tripped := true }).boot.poweredOff = false ∧
      ((heated { tripped := true }).cluster 287).power = false ∧ ((heated { tripped := true }).cluster 287).rising = false ∧
      ((heated { tripped := true }).cluster 287).powerUpHeld = false ∧ (90 * 16 - 1 : Int) < 90 * 16) ∧
    ((({ heated { tripped := true } with time := 2000000001 * 4158 } : State).cluster 287).tripAt + 2000000000 <
        ({ heated { tripped := true } with time := 2000000001 * 4158 } : State).now ∧
      (heated { tripped := true }).partOfCluster 287 = some 0 ∧
      (heated { tripped := true }).now ≤ ((heated { tripped := true }).cluster 287).tripAt + 2000000000) ∧
    (24 < 25 ∧ 25 ≤ 25 ∧ ((heated {}).cluster 287).tripped = false ∧ tget 0 ((heated {}).cluster 287).offsets (heated {}).power.step < 20 ∧
      (heated {}).voltage 287 (heated {}).power.step + 5 ≤ 850) ∧
    (20 ≤ tget 0 ((heated { offsets := [(7, 20)] }).cluster 287).offsets (heated { offsets := [(7, 20)] }).power.step ∧
      850 < (heated { offsets := [(7, 300)] }).voltage 287 (heated { offsets := [(7, 300)] }).power.step + 5 ∧
      (heated { offsets := [(7, 20)] }).power.step < 8) := by decide +kernel

/-- The module with the power state `p`. -/
def powered (p : Power) : State := { State.reset with power := p, ready := true }

theorem witness_PowerAndClocks :
    (21001 = 54000 * 388908 / 1000000 ∧ (powered {}).effectiveW + 3000 < 21001 ∧ (powered {}).power.lastSlow = none ∧
      21000 < 21001) ∧
    (383 < 384 ∧ (powered {}).flash.phasesLost.contains 383 = false ∧
      ({ State.reset with flash := { phasesLost := [383] } } : State).flash.phasesLost.contains 383 = true) ∧
    (25 ≤ 25 ∧ (tget {} (powered {}).power.gens 25).lost = [] ∧ 24 < 25 ∧
      (tget {} (powered { gens := [(25, { lost := [false] })] }).power.gens 25).lost ≠ []) ∧
    ((powered {}).ownStep.1 < (powered {}).power.step ∧ (powered { step := 3, minStep := 3 }).power.step ≤
      (powered { step := 3, minStep := 3 }).ownStep.1) ∧
    ((powered { rising := some 0 }).ready = true ∧ (powered { rising := some 0 }).switchReady = true ∧
      State.reset.ready = false ∧ (powered { rising := some 0 }).runningParts = [] ∧
      (powered { rising := some 0 }).stepWanted ≠ (powered { rising := some 0 }).power.step ∧
      (powered {}).stepWanted = (powered {}).power.step) ∧
    (((heated { rising := true, switching := true }).cluster 287).rising = true ∧
      ((heated { rising := true, switching := true }).cluster 287).powerUpHeld = false ∧
      ((heated { rising := true, switching := true }).cluster 287).tripped = false ∧
      ((heated { rising := true, switching := true }).cluster 287).downHeld = false ∧
      (heated { rising := true, switching := true }).scan = none ∧
      ((heated { rising := true, switching := true, downHeld := true }).cluster 287).downHeld = true ∧
      ((heated {}).cluster 287).rising = false) ∧
    (((heated { switching := true }).cluster 287).switching = true ∧ ((heated { switching := true }).cluster 287).rising = false ∧
      ((heated { switching := true }).cluster 287).powerUpHeld = false ∧ ((heated {}).cluster 287).switching = false) := by
  decide +kernel

/-- A telemetry ring of 64 records enabled, kind 2 asked for, the firmware running on a bank on trial. -/
def reporting : State :=
  { linked accessible with
    tlr := { en := true }, telemetryKinds := 4, boot := { reached := 12 }, heartbeatS := 1, flash := banks
    parts := [(0, { st := .open_ })] }

theorem witness_TelemetryAndWatchdog :
    (State.reset.telemetryKinds = 0) ∧
    (reporting.telemetryKinds = 4 ∧ reporting.tlr.en = true ∧ reporting.link.access = true ∧ reporting.tlr.free ≠ 0) ∧
    (reporting.fwRuns = true ∧ 0 < reporting.heartbeatS ∧ running (reporting.part 0).st = true ∧
      reporting.flash.onTrial = true ∧ reporting.flash.bankOk reporting.flash.other true = true) ∧
    (({ State.reset with fwRestart := 2000 } : State).fwRestart ≠ 0 ∧ State.reset.fwRestart = 0) ∧
    (State.reset.fwRuns = false ∧ State.reset.heartbeatS = 0) := by decide +kernel

/-- A tile at its canary slot, a canary due. -/
def due : Tile := { issuing := true, seqIssue := true, canary := 0x80000000, canaryDueSince := some 0 }

/-- A tile past its canary slot with the check value `v`. -/
def fed (v : Nat) : Tile := { issuing := true, canary := 0x80000000, canaryEnd := some 3, ecc := 4, canaryCrc := v }

/-- Partition 0 running with tile 0 as `x` and one pack kernel that expects 0. -/
def canaried (x : Tile) : State :=
  { one x with parts := [(0, { st := .open_, stripeCount := 8, kernels := [.pack {}] })] }

theorem witness_CanaryRuns :
    ((canaried due).canaryStarts 0 = true ∧ State.reset.canaryStarts 0 = false) ∧
    (((canaried (fed 0)).tile 0).canaryEnd = some 3 ∧
      ((canaried (fed 0)).kernelList 0)[((canaried (fed 0)).tile 0).kernel]? = some (.pack {}) ∧
      (canaried (fed 0)).acts 0 = true ∧ 3 < ((canaried (fed 0)).tile 0).ecc ∧ ((canaried (fed 0)).tile 0).canaryCrc = (KernelSrc.pack {}).expected) ∧
    (((canaried (fed 1)).tile 0).canaryCrc ≠ (KernelSrc.pack {}).expected ∧ ((canaried (fed 1)).tile 0).faulted = none ∧
      (canaried (fed 1)).inTide 0 = true ∧ (canaried (fed 1)).partOf 0 = some 0 ∧ (canaried (fed 1)).afterDone 0 = false) ∧
    ((canaried { fed 1 with inReset := true }).acts 0 = false) ∧
    ((State.reset.tile 0).canaryEnd = none) := by decide +kernel

theorem witness_CheckValueUnits :
    (({ ctrl := 64 } : CvUnit).conf.bad = false ∧ ({ ctrl := 65 } : CvUnit).conf.bad = true ∧ State.reset.cv0.conf.bad = true) := by
  decide +kernel

/-! The machine -/

theorem witness_StepRunsFrontCommand :
    (({ State.reset with pending := [.nop 0 0, .ready] } : State).pending = .nop 0 0 :: [.ready] ∧
      State.reset.pending = []) := by decide +kernel

theorem witness_BundleRoundTrip :
    (slotOf (.salu 5 1 2 3 4) = some (5, 0) ∧ slotOf (.arrNop 5 0) = some (5, 1) ∧ slotOf (.vadd 5 1 2 3 0) = some (5, 2) ∧
      slotOf (.mvNop 5 0) = some (5, 3) ∧ slotOf (.qTest 5 1 2 0) = some (5, 4)) := by decide +kernel

theorem witness_EveryStepKeepsTheRoots :
    (∃ s', step { State.reset with pending := [.bootReset 0xA5] } = .next s') ∧ State.reset.memoriesWf = true :=
  ⟨⟨_, rfl⟩, by decide +kernel⟩

end Sys2Proof.Tests
end

