-- ==== Sys2Proof/WellFormed.lean ====
section
/-!
DEFINITION. Well-formed commands: every operand that names a unit or takes a small set of values lies in the range the spec
gives it (R3 to R7, R14, R20, R198, R248, R262, R277, R313, R333, R359). Fixed-width fields need no check.
-/

namespace Sys2Proof

/-- A tile's linear index (R4). -/
def tileOk (t : Nat) : Bool := decide (t < 80640)
/-- A mailbox page (R359). -/
def mailboxOk (n : Nat) : Bool := decide (n < 9)
/-- A partition (R205). -/
def partOk (p : Nat) : Bool := decide (p < 8)
/-- A stream slot (R277). -/
def slotOk (n : Nat) : Bool := decide (n < 32768)
/-- A cluster (R4). -/
def clusterOk (c : Nat) : Bool := decide (c < 288)
/-- A logical page (R262). -/
def kvPageOk (g : Nat) : Bool := decide (g < 4194304)
/-- A neighbour link: 0 north, 1 east, 2 south, 3 west (R178). -/
def dirOk (d : Nat) : Bool := decide (d < 4)
/-- A tile queue (R167). -/
def queueOk (q : Nat) : Bool := decide (q < 8)
/-- A mover tag (R134). -/
def tagOk (g : Nat) : Bool := decide (g < 16)
/-- A memory port (R14). -/
def memportOk (m : Nat) : Bool := decide (m < 16)
/-- A Hikolink port (R20). -/
def fabricPortOk (q : Nat) : Bool := decide (q < 6)

/-- The command is well formed. -/
def Instr.wf (i : Instr) : Bool :=
  match i with
  | .nop t _ => tileOk t
  | .salu t _ _ _ _ => tileOk t
  | .saddi t _ _ _ => tileOk t
  | .sli t _ _ => tileOk t
  | .slic t _ _ => tileOk t
  | .sld t _ _ _ => tileOk t
  | .sst t _ _ _ => tileOk t
  | .scmp t _ _ _ _ _ => tileOk t
  | .scmpi t _ _ _ _ => tileOk t
  | .plog t _ _ _ _ _ => tileOk t
  | .scsr t _ _ _ => tileOk t
  | .br t _ _ _ _ => tileOk t
  | .loop t _ _ _ => tileOk t
  | .loopi t _ _ => tileOk t
  | .bellRing t _ _ => tileOk t
  | .bellWait t _ _ => tileOk t
  | .hintLight t _ => tileOk t
  | .hintHeavy t _ => tileOk t
  | .specConfirm t _ _ _ => tileOk t
  | .specDiscard t _ _ => tileOk t
  | .specConfirmVerdict t _ _ _ => tileOk t
  | .specDiscardVerdict t _ _ => tileOk t
  | .deferralNotice t _ _ => tileOk t
  | .end_ t _ => tileOk t
  | .arrNop t _ => tileOk t
  | .arrRun t _ _ _ _ _ _ _ _ => tileOk t
  | .arrWin t _ _ _ _ _ _ => tileOk t
  | .arrRd t _ _ _ _ _ => tileOk t
  | .arrWr t _ _ _ _ _ => tileOk t
  | .vnop t _ => tileOk t
  | .vadd t _ _ _ _ => tileOk t
  | .vsub t _ _ _ _ => tileOk t
  | .vmul t _ _ _ _ => tileOk t
  | .vfma t _ _ _ _ _ => tileOk t
  | .vmax t _ _ _ _ => tileOk t
  | .vmin t _ _ _ _ => tileOk t
  | .vabs t _ _ _ => tileOk t
  | .vneg t _ _ _ => tileOk t
  | .vmov t _ _ _ => tileOk t
  | .vbcast t _ _ _ => tileOk t
  | .vcmp t _ _ _ _ _ => tileOk t
  | .vsel t _ _ _ _ _ => tileOk t
  | .vredsum t _ _ _ => tileOk t
  | .vredmax t _ _ _ => tileOk t
  | .vcvt t _ _ _ _ _ _ => tileOk t
  | .vmxq t _ _ _ _ _ => tileOk t
  | .vld t _ _ _ => tileOk t
  | .vst t _ _ _ => tileOk t
  | .vsfu t _ _ _ _ => tileOk t
  | .vrng t _ _ _ _ => tileOk t
  | .viadd t _ _ _ _ => tileOk t
  | .vand t _ _ _ _ => tileOk t
  | .vshr t _ _ _ _ => tileOk t
  | .vext t _ _ _ _ => tileOk t
  | .vins t _ _ _ _ => tileOk t
  | .mvNop t _ => tileOk t
  | .mvIssue t _ _ _ => tileOk t
  | .mvWait t _ _ => tileOk t
  | .mvTest t _ _ _ => tileOk t
  | .qNop t _ => tileOk t
  | .qSend t _ _ _ _ _ _ => tileOk t
  | .qSendv t _ _ _ _ _ _ => tileOk t
  | .qRecv t _ _ _ _ => tileOk t
  | .qRecvv t _ _ _ _ _ => tileOk t
  | .qTest t _ _ _ => tileOk t
  | .waitRelease t => tileOk t
  | .queueStall t => tileOk t
  | .waitStall t => tileOk t
  | .noEnd t => tileOk t
  | .pendingRunStart t => tileOk t
  | .arrayBlockDone t => tileOk t
  | .cadenceApply cluster => clusterOk cluster
  | .scrubSlot t bank => tileOk t && decide (bank < 16)
  | .bellRingArrive t port => tileOk t && decide (port < 4)
  | .bellChannelEvaluate cluster chan => clusterOk cluster && decide (chan < 16)
  | .bellFireArrive t port => tileOk t && decide (port < 4)
  | .tideCompleteRing t => tileOk t
  | .partitionTideComplete p => partOk p
  | .faultBell p => partOk p
  | .linkTransferArrive t dir _ => tileOk t && dirOk dir
  | .heldEntryEnter t dir => tileOk t && dirOk dir
  | .creditReturn t dir queue => tileOk t && dirOk dir && queueOk queue
  | .holdSignalArrive t dir => tileOk t && dirOk dir
  | .releaseSignalArrive t dir => tileOk t && dirOk dir
  | .absorbSignalArrive t dir => tileOk t && dirOk dir
  | .egressDepart t => tileOk t
  | .meshEntryArrive t => tileOk t
  | .parkedEntryEnter t queue => tileOk t && queueOk queue
  | .remoteAccessArrive t => tileOk t
  | .moverRequest t tag => tileOk t && tagOk tag
  | .moverResponse t tag => tileOk t && tagOk tag
  | .moverComplete t tag => tileOk t && tagOk tag
  | .waitingAccessResume page => kvPageOk page
  | .routerFlitPass rx _ out _ => decide (rx < 148) && decide (out < 8)
  | .edgeChannelPass stripe _ => decide (stripe < 8)
  | .memportRequestArrive port => memportOk port
  | .memportService port _ => memportOk port
  | .patrolScrub port _ _ => memportOk port
  | .hbmTempReport port _ => memportOk port
  | .hbmTripRecovery port _ _ => memportOk port
  | .tideStart p => partOk p
  | .tideCommit p => partOk p
  | .abandon p => partOk p
  | .abandonSettled p => partOk p
  | .recovery p => partOk p
  | .recoveryComplete p => partOk p
  | .stopPoint p => partOk p
  | .pageMoveStart page => kvPageOk page
  | .pageMoveSwitch page => kvPageOk page
  | .tieringScriptRun p => partOk p
  | .cxlUioComplete _ _ => true
  | .cxlUioTimeout _ _ => true
  | .parkComplete slot => slotOk slot
  | .streamDoorbell slot _ _ => slotOk slot
  | .ringSnoop slot => slotOk slot
  | .ringHeadRead slot _ => slotOk slot
  | .submissionEntry slot _ => slotOk slot
  | .promptRefRead slot _ _ => slotOk slot
  | .admissionRun p => partOk p
  | .streamVerdictArrive p => partOk p
  | .resultsRead p => partOk p
  | .completionWrite p => partOk p
  | .drainComplete slot => slotOk slot
  | .streamCommandApply p => partOk p
  | .pageCommandApply p => partOk p
  | .pageBindTimeout n => mailboxOk n
  | .hikolinkFlitReceive port _ _ _ => fabricPortOk port
  | .lossOfSignal port => fabricPortOk port
  | .slotSend port => fabricPortOk port
  | .endpointPoll chan => decide (chan < 65536)
  | .receiveBlockComplete chan => decide (chan < 65536)
  | .drumbeat tide _ step _ _ => decide (tide < 2 ^ 48) && decide (step < 8)
  | .confirm tide _ _ _ => decide (tide < 2 ^ 48)
  | .action tide act kind _ => decide (tide < 2 ^ 48) && decide (act < 3) && decide (kind < 4)
  | .member rank st => decide (rank < 1024) && decide (st < 4)
  | .done child tide _ stepReq => fabricPortOk child && decide (tide < 2 ^ 48) && decide (stepReq < 8)
  | .fault child tide kind _ => fabricPortOk child && decide (tide < 2 ^ 48) && decide (kind < 4)
  | .settled child tide _ kind _ => fabricPortOk child && decide (tide < 2 ^ 48) && decide (kind < 4)
  | .recovered child tide _ => fabricPortOk child && decide (tide < 2 ^ 48)
  | .doneSend => true
  | .confirmSend => true
  | .treeTimeout => true
  | .clockLockLoss => true
  | .collectiveScriptRun p plan => partOk p && decide (plan < 64)
  | .collectiveReduce p plan _ => partOk p && decide (plan < 64)
  | .identityBeacon port _ => fabricPortOk port
  | .jobFormStepTimeout _ => true
  | .formationComplete _ _ links => links.all fun l => decide (l.1 < 6)
  | .portShutdownDone port => fabricPortOk port
  | .referenceLoss => true
  | .perstAssert => true
  | .perstDeassert _ _ _ => true
  | .hotReset => true
  | .functionLevelReset => true
  | .hostLinkLoss => true
  | .busMasterDisable => true
  | .d3hotEntry => true
  | .busMasterEnable => true
  | .linkRetrain _ _ => true
  | .ideIntegrityFailure => true
  | .ideKmKeyProgram => true
  | .cacheEnableChange _ => true
  | .msixUnmask vector => decide (vector < 64)
  | .eventCoalesceTimer vector => decide (vector < 64)
  | .powerCheck => true
  | .fuseApply => true
  | .clockRoot _ _ => true
  | .baseUp _ _ => true
  | .mgmtBoot _ _ _ => true
  | .hbmTrain _ => true
  | .memTest _ => true
  | .clustersUp _ => true
  | .tileBist _ => true
  | .meshCal _ => true
  | .bootFabricTrain _ => true
  | .ready => true
  | .bootStepComplete => true
  | .bootStepTimeout => true
  | .bootReset _ => true
  | .deviceResetBegin => true
  | .unitResetDone scope _ => decide (scope < 3)
  | .evrCtrl _ => true
  | .tlrCtrl _ => true
  | .mbxDoorbell n _ _ => mailboxOk n
  | .dbgTile _ => true
  | .snap _ => true
  | .debugWindowRead _ => true
  | .debugWindowWrite _ _ => true
  | .timeLoRead => true
  | .registerWrite _ _ size => decide (1 ≤ size ∧ size ≤ 64)
  | .identify n => mailboxOk n
  | .logRead n => mailboxOk n
  | .heartbeatSet n => mailboxOk n
  | .partitionCreate n => mailboxOk n
  | .partitionDestroy n => mailboxOk n
  | .partitionSet n => mailboxOk n
  | .partitionQuery n => mailboxOk n
  | .imageStage n _ => mailboxOk n
  | .imageVerify n => mailboxOk n
  | .programLoad n => mailboxOk n
  | .weightLoad n => mailboxOk n
  | .packInstall n => mailboxOk n
  | .stageDiscard n => mailboxOk n
  | .streamOpen n => mailboxOk n
  | .streamClose n => mailboxOk n
  | .streamPark n => mailboxOk n
  | .streamResume n _ => mailboxOk n
  | .streamQuery n => mailboxOk n
  | .tierWindows n => mailboxOk n
  | .pageBind n => mailboxOk n
  | .pageFree n => mailboxOk n
  | .pageMapRead n => mailboxOk n
  | .runStart n => mailboxOk n
  | .runStop n => mailboxOk n
  | .runSingle n => mailboxOk n
  | .runStartTimeout n => mailboxOk n
  | .powerCapSet n => mailboxOk n
  | .freqStepSet n => mailboxOk n
  | .powerQuery n => mailboxOk n
  | .telemetryConfig n => mailboxOk n
  | .countersRead n => mailboxOk n
  | .canaryConfig n => mailboxOk n
  | .tileObserve n => mailboxOk n
  | .tileRepair n => mailboxOk n
  | .scanRun n _ => mailboxOk n
  | .blackboxRead n => mailboxOk n
  | .fabricTrain n _ => mailboxOk n
  | .jobForm n => mailboxOk n
  | .jobLeave n => mailboxOk n
  | .jobJoin n => mailboxOk n
  | .jobQuery n => mailboxOk n
  | .fwActivate n => mailboxOk n
  | .fwConfirm n => mailboxOk n
  | .fwRollback n => mailboxOk n
  | .ownerSet n _ => mailboxOk n
  | .licenceInstall n => mailboxOk n
  | .debugChallenge n => mailboxOk n
  | .debugUnlock n => mailboxOk n
  | .nonceExpire => true
  | .queuePeek n => mailboxOk n
  | .prepareRemove n => mailboxOk n
  | .pldmBase => true
  | .pldmPlatform _ => true
  | .pldmFru => true
  | .pldmFileTransfer _ => true
  | .emergencyPowerOff => true
  | .blackboxCopyDone => true
  | .getVersion => true
  | .getCapabilities => true
  | .negotiateAlgorithms _ => true
  | .getDigests => true
  | .getCertificate _ => true
  | .challenge _ => true
  | .getMeasurements _ => true
  | .keyExchange _ => true
  | .finish _ => true
  | .keyUpdate _ => true
  | .heartbeat _ => true
  | .endSession _ => true
  | .pwrEnRise => true
  | .pwrgdRelease => true
  | .pwrEnFall => true
  | .mateOkRelease => true
  | .inputSwitchOpen => true
  | .vinUndervoltage _ => true
  | .vinBrownout _ => true
  | .vinOvervoltage _ => true
  | .switchReclose _ => true
  | .overcurrentLatch _ _ => true
  | .switchOvertemp _ => true
  | .clusterTempSample cluster _ => clusterOk cluster
  | .thermalRecovery cluster _ => clusterOk cluster
  | .marginReport cluster monitor _ => clusterOk cluster && decide (monitor < 4)
  | .powerCapEval _ => true
  | .phaseStaging => true
  | .phaseLoss phase => decide (phase < 384)
  | .pllLockLoss _ _ => true
  | .regulatorSettled => true
  | .clockSwitch => true
  | .clusterPowerUpDone cluster => clusterOk cluster
  | .telemetryPeriod _ => true
  | .heartbeatRegisterTick => true
  | .heartbeatInterval => true
  | .watchdogExpire => true
  | .canaryRun t => tileOk t
  | .canaryCompare t => tileOk t
  | .cvData8 u _ => decide (u < 2)
  | .cvData16 u _ => decide (u < 2)
  | .cvData32 u _ => decide (u < 2)
  | .cvValue u _ => decide (u < 2)
  | .clusterPowerDownDone cluster => clusterOk cluster
  | .mateOkFall => true
  | .heldPwrEnPowerUp => true
  | .d3hotExit => true
  | .doeDiscovery _ => true

end Sys2Proof
end

