-- ==== Sys2Proof/Tests/Slice0.lean ====
section
/-!
SUPPORT. Tests: an ill-formed term for each check of WellFormed.lean, bundle words written out bit by bit from the encoding
tables of R112, R119, R127, R131, R134 and R136, the spec's worked examples, and one step of commands on small states.
Every expected result is the spec's own figure or is worked out from its rule by hand.
-/

namespace Sys2Proof.Tests

-- One theorem at a time: each proof evaluates in the kernel, and many at once exhaust the threads of a bounded process.
set_option Elab.async false

open Sys2Proof Sys2Proof.Machine

/-! An ill-formed term for each check -/

theorem test_wf_tile : (Instr.nop 80640 0).wf = false ∧ (Instr.nop 80639 0).wf = true := by decide
theorem test_wf_mailbox : (Instr.identify 9).wf = false ∧ (Instr.identify 8).wf = true := by decide
theorem test_wf_partition : (Instr.tideStart 8).wf = false ∧ (Instr.tideStart 7).wf = true := by decide
theorem test_wf_slot : (Instr.drainComplete 32768).wf = false ∧ (Instr.drainComplete 32767).wf = true := by decide
theorem test_wf_cluster : (Instr.cadenceApply 288).wf = false ∧ (Instr.cadenceApply 287).wf = true := by decide
theorem test_wf_page : (Instr.pageMoveStart 4194304).wf = false ∧ (Instr.pageMoveStart 4194303).wf = true := by decide
theorem test_wf_direction : (Instr.heldEntryEnter 0 4).wf = false ∧ (Instr.heldEntryEnter 0 3).wf = true := by decide
theorem test_wf_queue : (Instr.parkedEntryEnter 0 8).wf = false ∧ (Instr.parkedEntryEnter 0 7).wf = true := by decide
theorem test_wf_tag : (Instr.moverComplete 0 16).wf = false ∧ (Instr.moverComplete 0 15).wf = true := by decide
theorem test_wf_memport : (Instr.memportRequestArrive 16).wf = false ∧ (Instr.memportRequestArrive 15).wf = true := by decide
theorem test_wf_fabric_port : (Instr.slotSend 6).wf = false ∧ (Instr.slotSend 5).wf = true := by decide
theorem test_wf_bank : (Instr.scrubSlot 0 16).wf = false ∧ (Instr.scrubSlot 0 15).wf = true := by decide
theorem test_wf_bell_port : (Instr.bellRingArrive 0 4).wf = false ∧ (Instr.bellFireArrive 0 4).wf = false := by decide
theorem test_wf_bell_channel : (Instr.bellChannelEvaluate 0 16).wf = false := by decide
theorem test_wf_router : (Instr.routerFlitPass 148 0 0 0).wf = false ∧ (Instr.routerFlitPass 0 0 8 0).wf = false := by decide
theorem test_wf_stripe : (Instr.edgeChannelPass 8 true).wf = false := by decide
theorem test_wf_channel : (Instr.endpointPoll 65536).wf = false ∧ (Instr.receiveBlockComplete 65536).wf = false := by decide
theorem test_wf_tide : (Instr.drumbeat (2 ^ 48) 0 0 false false).wf = false ∧ (Instr.drumbeat 0 0 8 false false).wf = false := by decide
theorem test_wf_member : (Instr.member 1024 0).wf = false ∧ (Instr.member 0 4).wf = false := by decide
theorem test_wf_plan : (Instr.collectiveScriptRun 0 64).wf = false := by decide
theorem test_wf_vector : (Instr.msixUnmask 64).wf = false ∧ (Instr.eventCoalesceTimer 64).wf = false := by decide
theorem test_wf_reset_scope : (Instr.unitResetDone 3 0).wf = false := by decide
theorem test_wf_access_size : (Instr.registerWrite 0 0 65).wf = false ∧ (Instr.registerWrite 0 0 64).wf = true := by decide
theorem test_wf_monitor : (Instr.marginReport 0 4 0).wf = false := by decide
theorem test_wf_phase : (Instr.phaseLoss 384).wf = false := by decide
theorem test_wf_unit : (Instr.cvData8 2 0).wf = false ∧ (Instr.cvData8 1 0).wf = true := by decide

/-! Slot words, written field by field -/

/-- SALU: opcode 00001, rd 3, ra 5, rb 31, fn 8 (R119). -/
theorem test_word_salu : decControl 9 0b000010001100101111111000 = .salu 9 3 5 31 8 := by decide
/-- SCMPI: opcode 01000, pd 5, ra 2, cond 4, imm 0x80 (R119). -/
theorem test_word_scmpi : decControl 9 0b010001010001010010000000 = .scmpi 9 5 2 4 0x80 := by decide
/-- BR: opcode 01011, inv 1, p 6, target 1000000001, five reserved bits (R119). -/
theorem test_word_br : decControl 9 0b010111110100000000100000 = .br 9 1 6 513 0 := by decide
/-- LOOPI: opcode 01101, count 511, end 1 (R119). -/
theorem test_word_loopi : decControl 9 0b011011111111110000000001 = .loopi 9 511 1 := by decide
/-- HINT: opcode 10000, heavy 1 (R119). -/
theorem test_word_hint : decControl 9 0b100001000000000000000000 = .hintHeavy 9 0 := by decide
/-- SPEC.CONFIRM: opcode 10001, kind 0, sa 17, sb 2 (R119). -/
theorem test_word_spec : decControl 9 0b100010100010001000000000 = .specConfirm 9 17 2 0 := by decide
/-- The worked bundle of chapter 5: ARR.RUN WS4, ZERO, wbuf 0, sW s4, sK s5, sA s0. -/
theorem test_word_arr_run : decArray 9 0x504280 = .arrRun 9 1 0 0 0 4 5 0 0 := by decide
/-- ARR.WIN: opcode 0010, array 1, buffer 0, row 2, vA 7, sS 30 (R127). -/
theorem test_word_arr_win : decArray 9 0b00101010001111111000000000 = .arrWin 9 1 0 2 7 30 0 := by decide
/-- VFMA: opcode 000100, vD 1, vA 2, vB 3, vC 4 (R131). -/
theorem test_word_vfma : decVector 9 0b0001000000100010000110010000 = .vfma 9 1 2 3 4 0 := by decide
/-- VMXQ: opcode 010000, vD 1, vA 2, fmt 4, sD 9 (R131). -/
theorem test_word_vmxq : decVector 9 0b0100000000100010010000100100 = .vmxq 9 1 2 4 9 0 := by decide
/-- VLD: opcode 010001, vD 31, sA 1, imm 0x801 (R131). -/
theorem test_word_vld : decVector 9 0b0100011111100001100000000001 = .vld 9 31 1 0x801 := by decide
/-- MV.TEST: opcode 0011, pd 2, tag 12 (R134). -/
theorem test_word_mv_test : decMover 9 0b001101011000000000000000 = .mvTest 9 2 12 0 := by decide
/-- MV.WAIT: opcode 0010, four reserved bits, mask 0x8001 (R134). -/
theorem test_word_mv_wait : decMover 9 0b001000001000000000000001 = .mvWait 9 0x8001 0 := by decide
/-- Q.SENDV: opcode 00010, route 4, queue 7, len 3, vS 31, group 6, sT 5 (R136). -/
theorem test_word_q_sendv : decQueue 9 0b00010100111111111111000101 = .qSendv 9 4 7 3 31 6 5 := by decide
/-- Q.RECV: opcode 00011, queue 1, len 2, sD 8 (R136). -/
theorem test_word_q_recv : decQueue 9 0b00011001100100000000000000 = .qRecv 9 1 2 8 0 := by decide

/-- Chapter 5: the bundle with the ARR.RUN above in its array slot and NOPs elsewhere. -/
theorem test_word_bundle : decBundle 9 0x0000001410A000000000000000000000
    = [.nop 9 0, .arrRun 9 1 0 0 0 4 5 0 0, .vnop 9 0, .mvNop 9 0, .qNop 9 0] := by decide

/-! Worked examples of the numerics (spec/02_numerics.md) -/

theorem test_e4m3_point_three : cvtLane 0 true 0x3E99999A 0 = 0x2A := by decide +kernel
theorem test_e4m3_500 : cvtLane 0 true 0x43FA0000 0 = 0x7E ∧ cvtLane 0 false 0x43FA0000 0 = 0x7F := by decide +kernel
/-- 5.0 is the largest of its block: scale 0x7F, element 0x6. -/
theorem test_mx_five : mxQuantise .e2m1 (0x40A00000 :: List.replicate 31 0) = (0x7F, 6 :: List.replicate 31 0) := by
  decide +kernel
/-- 3.0 × 8 = 24.0. -/
theorem test_mx_element : cvtLane 12 false 0x5 0x82 = 0x41C00000 := by decide +kernel
theorem test_element_values : cvtLane 8 false 0x4C 0x7F = 0x40C00000 ∧ cvtLane 9 false 0xC9 0x7F = 0xC1200000 ∧
    cvtLane 10 false 0x1B 0x7F = 0x41600000 ∧ cvtLane 11 false 0x0D 0x7F = 0x3FD00000 ∧
    cvtLane 13 false 0xE0 0x7F = 0xBF000000 ∧ cvtLane 7 false 0x9C 0 = 0xC2C80000 ∧ cvtLane 6 false 0x3FC0 0 = 0x3FC00000 := by
  decide +kernel
/-- The products 2^24, 1 and −2^24 sum to exactly 1.0. -/
theorem test_exact_block : (({} : AccEntry).addProducts false
    (productsOf .e5m2 .e5m2 [0x6C, 0x3C, 0xEC] [0x6C, 0x3C, 0x6C])).result 0x7F 0x7F = 0x3F800000 := by decide +kernel
theorem test_exp2_minus_half : sfu 0 0xBF000000 = 0x3F3504F3 := by decide +kernel
theorem test_log2_eight : sfu 1 0x41000000 = 0x40400000 := by decide +kernel
/-- INT8: ties to even and saturation (R44). -/
theorem test_int8 : cvtLane 3 false 0x40200000 0 = 2 ∧ cvtLane 3 false 0x43FA0000 0 = 127 ∧ cvtLane 3 false 0x7FC00000 0 = 0 := by
  decide +kernel
/-- 2^24 + 1 rounds to 2^24, a tie to even (R55). -/
theorem test_fadd_tie : fadd 0x4B800000 0x3F800000 = 0x4B800000 ∧ fadd 0x80000000 0 = 0 := by decide +kernel

/-! Worked examples of sparse panels (spec/04_sparse_weights.md) -/

/-- The MXFP4 panel of 48 bytes: sliver 0 dense, 1 in 2:4 (positions 0 and 1 of every four), 2 unstructured with 8 elements. -/
def panel : List Byte :=
  [0x39, 0, 0, 0] ++ [0x7F, 0x80, 0x81, 0] ++ List.replicate 16 0x22 ++ ([0x44, 0x44, 0x44, 0x44] ++ List.replicate 8 0x22) ++
    ([0x11, 0x11, 0x11, 0x11, 0x01] ++ List.replicate 4 0x22 ++ List.replicate 3 0)

theorem test_panel_length : (parsePanel 4 panel).2 = 48 := by decide +kernel
theorem test_panel_loads : panelLoads (parsePanel 4 panel).1 = [32, 16, 4] ++ List.replicate 12 0 ∧
    panelTime 6 [(parsePanel 4 panel).1, (parsePanel 4 [0, 0, 0, 0]).1] 60 = 16 ∧
    (parsePanel 4 panel).1.any (fun v => v.bad) = false := by decide +kernel

/-! Worked examples of places and addresses -/

/-- L(100, 50): index 14,100, cluster 78, P(104, 50); router (52, 25); attach column of N2 52. -/
theorem test_place : tileIx 100 50 = 14100 ∧ State.reset.siteOf 14100 = (104, 50) ∧ State.reset.routerOf 14100 = (52, 25) ∧
    State.reset.portRouter 14100 2 = (52, 0) := by decide +kernel
/-- Stripe 3 with sites 12 and 30 of row 7 disabled: L(134, 7) sits at px 142. -/
theorem test_shifted_place : ({ State.reset with disabled := [(123, 7), (141, 7)] } : State).siteOf (tileIx 134 7) = (142, 7) ∧
    ({ State.reset with disabled := [(123, 7), (141, 7)] } : State).tileAt 142 7 = some (tileIx 134 7) := by decide +kernel
/-- Word 0x1234 is in bank 13. -/
theorem test_bank : bankOfLine (0x1234 / 4) = 13 := by decide +kernel
/-- Page 74,565 in stack N2, frame 5,000, before tide 51,200, and in CXL frame 1,000. -/
theorem test_page_entry :
    Page.entry { st := .hbm, frame := hbmFrame 2 5000, owner := 1234, tfill := 40, cfill := 40 } = 0x2209C404D2028028 ∧
    Page.entry { st := .cxl, tier := 1, frame := 1000, owner := 1234, tfill := 100, cfill := 100 } = 0x7001F404D2064064 := by
  decide +kernel
/-- In the reference job of 4 × 4 × 2, D(3, 2, 1) has rank 27. -/
theorem test_rank : ({ dimI := 4, dimJ := 4, dimK := 2, i := 3, j := 2, k := 1 } : Job).rank = 27 := by decide +kernel
/-- With rank 14 as root, the tree of the reference job has height 5, and rank 0 lies 3 below it. -/
theorem test_tree : ({ dimI := 4, dimJ := 4, dimK := 2, rootI := 2, rootJ := 3 } : Job).height = 5 ∧
    ({ dimI := 4, dimJ := 4, dimK := 2, rootI := 2, rootJ := 3 } : Job).depth 16 (0, 0, 0) = 3 := by decide +kernel

/-! Standard check values (R522) and folding -/

/-- The check value of "123456789". -/
def checkOf (ctrl poly init xorout : Nat) : Nat :=
  let c := cvConf ctrl poly init xorout 0
  cvValue c (cvFeed c (cvStart c) [0x31, 0x32, 0x33, 0x34, 0x35, 0x36, 0x37, 0x38, 0x39])

theorem test_crc8_smbus : checkOf 8 0x07 0 0 = 0xF4 := by decide +kernel
theorem test_crc16_arc : checkOf 0x60000010 0x8005 0 0 = 0xBB3D := by decide +kernel
theorem test_crc16_ibm3740 : checkOf 16 0x1021 0xFFFF 0 = 0x29B1 := by decide +kernel
theorem test_crc32c : checkOf 0x60000020 0x1EDC6F41 0xFFFFFFFF 0xFFFFFFFF = 0xE3069283 := by decide +kernel
theorem test_crc32_mpeg2 : checkOf 32 0x04C11DB7 0xFFFFFFFF 0 = 0x0376E6E7 := by decide +kernel
theorem test_crc64_xz : checkOf 0x60000040 0x42F0E1EBA9EA3693 0xFFFFFFFFFFFFFFFF 0xFFFFFFFFFFFFFFFF = 0x995DC9BBDF1939FA := by
  decide +kernel
/-- CRC-8/SMBUS over the byte 0x00 with 0x01 folded in under FOLD_MODE `mode`. -/
def folded (mode : Nat) : Nat :=
  let c := cvConf (mode * 2 ^ 27 + 8) 7 0 0 1
  cvValue c (cvFeed c (cvStart c) [0])

theorem test_fold : folded 2 = 0x07 ∧ folded 1 = 0x15 := by decide +kernel

/-! Published vectors of the standards that R497 and R507 name -/

/-- FIPS 180-4: SHA-512 of "abc". -/
theorem test_sha512_abc : beNat (shaBytes (ascii "abc")) =
    0xddaf35a193617abacc417349ae20413112e6fa4e89a97ea20a9eeee64b55d39a * 2 ^ 256
      + 0x2192992a274fc1a836ba3c23a3feebbd454d4423643ce80e2a9ac94fa54ca49f := by decide +kernel
/-- FIPS 197, 5.1.1: the S-box sends 53 to ED. -/
theorem test_aes_sbox : aesSub 0x53 = 0xED ∧ aesSub 0 = 0x63 := by decide +kernel
/-- The base point lies on the curve, and the group's order times it is the point at infinity. -/
theorem test_p521_order : (keyPoint (4 * 2 ^ 1056 + basePoint.x * 2 ^ 528 + basePoint.y)).isSome = true ∧
    (basePoint.times 521 n521).z = 0 := by decide +kernel

/-! One step on a small state -/

/-- The state after a command. -/
def after (i : Instr) (s : State) : State :=
  match exec i s with
  | .next t => t
  | _ => State.reset

/-- What tile 0 has pending after a command. -/
def owes (i : Instr) (x : Tile) : List Dest := ((after i (one x)).tile 0).pend.map fun w => w.dest

/-- A tile about to issue with s1 = 5, s2 = 0xFFFFFFFF and s3 = 35. -/
def regs : Tile := { go with sregs := [(1, 5), (2, 0xFFFFFFFF), (3, 35)] }

theorem test_salu_add_wraps : owes (.salu 0 4 1 2 0) regs = [.s 4 4] := by decide +kernel
theorem test_salu_sub : owes (.salu 0 4 1 2 1) regs = [.s 4 6] := by decide +kernel
theorem test_salu_shift_count : owes (.salu 0 4 1 3 5) regs = [.s 4 40] := by decide +kernel
theorem test_salu_sra : owes (.salu 0 4 2 1 7) regs = [.s 4 0xFFFFFFFF] := by decide +kernel
theorem test_salu_s0 : owes (.salu 0 0 1 2 0) regs = [] := by decide +kernel
theorem test_saddi_signed : owes (.saddi 0 4 1 0x1FF) regs = [.s 4 4] := by decide +kernel
/-- Chapter 5: SLI s4, 1,268 then SLIC s4, 0 makes 0x013D0000. -/
theorem test_sli_slic : owes (.sli 0 4 1268) regs = [.s 4 0x4F4] ∧
    owes (.slic 0 4 0) { go with sregs := [(4, 0x4F4)] } = [.s 4 0x013D0000] := by decide +kernel
theorem test_scmp_signed : owes (.scmp 0 1 2 1 2 0) regs = [.p 1 true] ∧ owes (.scmp 0 1 2 1 4 0) regs = [.p 1 false] := by
  decide +kernel
theorem test_scmpi_negative : owes (.scmpi 0 1 2 0 0xFF) regs = [.p 1 true] := by decide +kernel
theorem test_plog_and_not : owes (.plog 0 1 0 2 3 0) regs = [.p 1 true] := by decide +kernel
theorem test_sst_wraps : owes (.sst 0 1 2 1) regs = [.mem 0 5] := by decide +kernel
/-- SLD of word 0 at (s2 + 1) mod 65,536. -/
theorem test_sld : owes (.sld 0 4 2 1) { regs with mem := [(0, 7)] } = [.s 4 7] := by decide +kernel
theorem test_scsr_y : ((after (.scsr 281 4 1 0)
    { State.reset with clusters := [(0, { power := true })], tiles := [(281, go)],
                       parts := [(0, { st := .open_, stripeCount := 8 })] }).tile 281).pend.map (fun w => w.dest)
    = [.s 4 1] := by decide +kernel
theorem test_br_taken : ((after (.br 0 0 0 513 0) (one go)).tile 0).pc = 513 := by decide +kernel
theorem test_br_not_taken : ((after (.br 0 1 0 513 0) (one go)).tile 0).pc = 1 := by decide +kernel
theorem test_loopi : ((after (.loopi 0 2 5) (one go)).tile 0).loops = [{ first := 1, last := 5, left := 2 }] := by decide +kernel
theorem test_hint : ((after (.hintHeavy 0 0) (one go)).tile 0).heavy = true := by decide +kernel
/-- An unused bit that is set raises BAD_BUNDLE (R113). -/
theorem test_unused_bit : ((after (.nop 0 1) (inPart .open_ go)).tile 0).faulted.map (fun f => f.code) = some 0x0220 ∧
    ((after (.nop 0 1) (inPart .open_ go)).tile 0).issuing = false := by decide +kernel
theorem test_vext : owes (.vext 0 4 1 31 0) { go with vregs := [(1, List.replicate 31 0 ++ [9])] } = [.s 4 9] := by decide +kernel
theorem test_vins : owes (.vins 0 4 1 31 0) regs = [.v 4 [(31, 5)]] := by decide +kernel
theorem test_vbcast : owes (.vbcast 0 4 1 0) regs = [.v 4 ((List.range 32).map fun i => (i, (5 : Word)))] := by decide +kernel
theorem test_vredsum : owes (.vredsum 0 4 1 0) { go with vregs := [(1, List.replicate 32 0x3F800000)] }
    = [.v 4 ((List.range 32).map fun i => (i, (0x42000000 : Word)))] := by decide +kernel
theorem test_mv_test_idle : owes (.mvTest 0 2 15 0) go = [.p 2 true] := by decide +kernel
theorem test_q_test_empty : owes (.qTest 0 2 7 0) go = [.p 2 false] := by decide +kernel
theorem test_time_read : (after .timeLoRead { attested {} with time := (2 ^ 32 + 5) * 4158 }).timeHi = 1 ∧
    (after .timeLoRead { attested {} with time := (2 ^ 32 + 5) * 4158 }).lastRead = 5 := by decide +kernel
theorem test_boot_reset_value : after (.bootReset 0xA4) State.reset = State.reset := by decide +kernel
theorem test_getVersion : (after .getVersion (attested {})).spdm.version = true := by decide +kernel
theorem test_step_takes_front :
    step { State.reset with pending := [.timeLoRead, .ready] } = .next { State.reset with pending := [.ready] } := rfl

end Sys2Proof.Tests
end

section
/-!
SUPPORT. What reset leaves (`Obligations.ResetLeaves`).
-/

namespace Sys2Proof.Machine

theorem State.reset_mb (n : Nat) : State.reset.mb n = {} := rfl
theorem State.reset_cluster (c : Nat) : State.reset.cluster c = {} := rfl

/-- Nothing is written to HBM or CXL memory. -/
theorem State.reset_memGet (a : Nat) : memGet State.reset.hbm a = 0 ∧ memGet State.reset.cxl a = 0 := ⟨rfl, rfl⟩

theorem State.reset_memoriesWf : State.reset.memoriesWf = true :=
  Bool.and_eq_true_iff.mpr reset_memories_wf

/-- No tile is listed, so every scratchpad is empty. -/
theorem State.reset_scratchpadsWf : State.reset.scratchpadsWf = true := rfl

/-- Settles O2: every unit of the reset state is its default. -/
theorem resetLeaves : Obligations.ResetLeaves := by
  refine ⟨rfl, rfl, rfl, rfl, rfl, rfl, rfl, rfl, fun n => ?_, fun c => ?_, rfl, rfl, rfl, State.reset_memGet,
    State.reset_memoriesWf, State.reset_scratchpadsWf⟩
  · rw [State.reset_mb]
    exact ⟨rfl, rfl, rfl, rfl, rfl⟩
  · rw [State.reset_cluster]
    exact ⟨rfl, rfl⟩

end Sys2Proof.Machine
end

section
/-!
SUPPORT. How the event count, the waiting events and the flash move when an event or a fault is raised, and what an event or
a fault of a unit leaves alone.
-/

namespace Sys2Proof.Machine

/-! The count of events -/

@[simp] theorem State.msix_eventCount (s : State) (v : Nat) : (s.msix v).eventCount = s.eventCount := by
  unfold State.msix
  repeat' split
  all_goals rfl

@[simp] theorem State.msix_flash (s : State) (v : Nat) : (s.msix v).flash = s.flash := by
  unfold State.msix
  repeat' split
  all_goals rfl

@[simp] theorem State.signalRing_eventCount (s : State) (a b : Bool) : (s.signalRing a b).eventCount = s.eventCount := by
  cases a <;> simp only [State.signalRing, Bool.false_eq_true, if_true, if_false]
  all_goals split <;> simp

@[simp] theorem State.signalRing_flash (s : State) (a b : Bool) : (s.signalRing a b).flash = s.flash := by
  cases a <;> simp only [State.signalRing, Bool.false_eq_true, if_true, if_false]
  all_goals split <;> simp

@[simp] theorem State.ringPut_eventCount (s : State) (e : EventRec) : (s.ringPut e).eventCount = s.eventCount := by
  simp [State.ringPut]

@[simp] theorem State.ringPut_flash (s : State) (e : EventRec) : (s.ringPut e).flash = s.flash := by
  simp [State.ringPut]

@[simp] theorem State.overflow_eventCount (s : State) : s.overflow.eventCount = s.eventCount + 1 := by
  simp [State.overflow]

@[simp] theorem State.overflow_flash (s : State) : s.overflow.flash = s.flash := by
  simp [State.overflow]

/-- The ring may add an overflow record of its own to the events counted. -/
theorem State.toRing_eventCount_le (s : State) (e : EventRec) : s.eventCount ≤ (s.toRing e).eventCount := by
  unfold State.toRing State.overflowIfDue
  dsimp only
  repeat' split
  all_goals simp

@[simp] theorem State.toRing_flash (s : State) (e : EventRec) : (s.toRing e).flash = s.flash := by
  unfold State.toRing State.overflowIfDue
  dsimp only
  repeat' split
  all_goals simp

/-- An event raised is counted (R365). -/
theorem State.raiseRec_eventCount_lt (s : State) (e : EventRec) (b : Bool) :
    s.eventCount < (s.raiseRec e b).eventCount := by
  unfold State.raiseRec
  dsimp only
  refine Nat.lt_of_lt_of_le ?_ (State.toRing_eventCount_le _ _)
  repeat' split
  all_goals exact Nat.lt_succ_self _

/-- An event that triggers nothing and is not of severity 4 starts no flash copy (R490). -/
theorem State.raiseRec_flash (s : State) {e : EventRec} (h : e.sev ≠ 4) : (s.raiseRec e false).flash = s.flash := by
  simp only [State.raiseRec, h, decide_false, Bool.false_or, Bool.false_and, Bool.false_eq_true, if_false, State.toRing_flash]
  split <;> rfl

theorem State.raiseDev_eventCount_lt (s : State) (a b c d : Nat) : s.eventCount < (s.raiseDev a b c d).eventCount :=
  State.raiseRec_eventCount_lt _ _ _

theorem State.raiseDev_flash (s : State) (a : Nat) {b : Nat} (c d : Nat) (h : b ≠ 4) : (s.raiseDev a b c d).flash = s.flash :=
  State.raiseRec_flash _ h

/-- A fault's event is counted at once, or waits (R338). -/
theorem State.raiseFault_grows (s : State) (late : Bool) (e : EventRec) :
    s.eventCount < (s.raiseFault late e).eventCount ∨
      ((s.raiseFault late e).eventCount = s.eventCount ∧
        s.bb.waiting.length < (s.raiseFault late e).bb.waiting.length) := by
  unfold State.raiseFault
  split
  · exact .inr ⟨rfl, by simp⟩
  · exact .inl (State.raiseRec_eventCount_lt _ _ _)

/-- An event that need not wait is counted at once. -/
theorem State.raiseFault_eventCount_lt (s : State) {late : Bool} {e : EventRec} (h : late = false ∨ e.sev < 3) :
    s.eventCount < (s.raiseFault late e).eventCount := by
  have hc : ¬ (late && decide (e.sev ≥ 3)) = true := by
    rcases h with h | h
    · simp [h]
    · simp [Nat.not_le.mpr h]
  rw [State.raiseFault, if_neg hc]
  exact State.raiseRec_eventCount_lt _ _ _

/-- An event of severity below 3 never waits and starts no flash copy. -/
theorem State.raiseFault_flash (s : State) (late : Bool) {e : EventRec} (h : e.sev < 3) :
    (s.raiseFault late e).flash = s.flash := by
  have hc : ¬ (late && decide (e.sev ≥ 3)) = true := by simp [Nat.not_le.mpr h]
  rw [State.raiseFault, if_neg hc]
  exact s.raiseRec_flash (by omega)

/-! An event of a unit, of the partition that owns it or of the device -/

/-- The event of a unit of partition `p`, or of none: the shape of `clusterEvent` and `portEvent`. -/
def State.eventOf (s : State) (p : Option Nat) (code sev unit payload : Nat) : State :=
  match p with
  | some p => s.raisePart p code sev unit payload
  | none => s.raiseDev code sev unit payload

theorem State.clusterEvent_eq (s : State) (c code sev payload : Nat) :
    s.clusterEvent c code sev payload = s.eventOf (s.partOfCluster c) code sev (unitId 1 c) payload := rfl

theorem State.portEvent_eq (s : State) (m code sev payload : Nat) :
    s.portEvent m code sev payload = s.eventOf (s.partOfPort m) code sev (unitId 3 m) payload := rfl

theorem State.eventOf_eventOnly (s : State) (p : Option Nat) (code sev unit payload : Nat) :
    EventOnly s (s.eventOf p code sev unit payload) := by
  cases p with
  | none => exact State.raiseDev_eventOnly _ _ _ _ _
  | some p => exact State.raisePart_eventOnly _ _ _ _ _ _

theorem State.eventOf_eventCount_lt (s : State) (p : Option Nat) (code : Nat) {sev : Nat} (unit payload : Nat) (h : sev < 3) :
    s.eventCount < (s.eventOf p code sev unit payload).eventCount := by
  cases p with
  | none => exact State.raiseDev_eventCount_lt _ _ _ _ _
  | some p => exact State.raiseFault_eventCount_lt _ (.inr h)

theorem State.eventOf_flash (s : State) (p : Option Nat) (code : Nat) {sev : Nat} (unit payload : Nat) (h : sev < 3) :
    (s.eventOf p code sev unit payload).flash = s.flash := by
  cases p with
  | none => exact State.raiseDev_flash _ _ _ _ (by omega)
  | some p => exact State.raiseFault_flash _ _ h

/-! What an event leaves alone, read off `EventOnly` -/

theorem EventOnly.clusters {s t : State} (h : EventOnly s t) : t.clusters = s.clusters := by rw [h]
theorem EventOnly.parts {s t : State} (h : EventOnly s t) : t.parts = s.parts := by rw [h]
theorem EventOnly.fuses {s t : State} (h : EventOnly s t) : t.fuses = s.fuses := by rw [h]
theorem EventOnly.job {s t : State} (h : EventOnly s t) : t.job = s.job := by rw [h]
theorem EventOnly.boot {s t : State} (h : EventOnly s t) : t.boot = s.boot := by rw [h]
theorem EventOnly.hbm {s t : State} (h : EventOnly s t) : t.hbm = s.hbm := by rw [h]

theorem EventOnly.cluster {s t : State} (h : EventOnly s t) (c : Nat) : t.cluster c = s.cluster c := by rw [h]; rfl
theorem EventOnly.memport {s t : State} (h : EventOnly s t) (m : Nat) : t.memport m = s.memport m := by rw [h]; rfl
theorem EventOnly.now {s t : State} (h : EventOnly s t) : t.now = s.now := by rw [h]; rfl

/-! A hardware fault of a unit -/

/-- The hardware fault of a unit of partition `p`, or of none: the shape of `portFault` and of the fault of a trip. -/
def State.faultOf (s : State) (p : Option Nat) (code unit payload : Nat) : State :=
  match p with
  | some p => s.unitFault p code 3 unit payload .hardware 0
  | none => s.raiseDev code 3 unit payload

theorem State.portFault_eq (s : State) (m code payload : Nat) :
    s.portFault m code payload = s.faultOf (s.partOfPort m) code (unitId 3 m) payload := rfl

/-- A fault of a unit is an event and, of a running partition, its cause. -/
theorem State.faultOf_cases (s : State) (p : Option Nat) (code unit payload : Nat) :
    ∃ u parts, EventOnly s u ∧ s.faultOf p code unit payload = { u with parts := parts } := by
  cases p with
  | none => exact ⟨_, _, s.raiseDev_eventOnly code 3 unit payload, rfl⟩
  | some p => exact ⟨_, _, s.raisePart_eventOnly p code 3 unit payload, State.addCause_frame _ _ _⟩

@[simp] theorem State.faultOf_clusters (s : State) (p : Option Nat) (code unit payload : Nat) :
    (s.faultOf p code unit payload).clusters = s.clusters := by
  obtain ⟨u, l, hu, e⟩ := s.faultOf_cases p code unit payload
  rw [e]; exact hu.clusters

@[simp] theorem State.faultOf_memport (s : State) (p : Option Nat) (code unit payload m : Nat) :
    (s.faultOf p code unit payload).memport m = s.memport m := by
  obtain ⟨u, l, hu, e⟩ := s.faultOf_cases p code unit payload
  rw [e]; exact hu.memport m

@[simp] theorem State.faultOf_boot (s : State) (p : Option Nat) (code unit payload : Nat) :
    (s.faultOf p code unit payload).boot = s.boot := by
  obtain ⟨u, l, hu, e⟩ := s.faultOf_cases p code unit payload
  rw [e]; exact hu.boot

@[simp] theorem State.faultOf_hbm (s : State) (p : Option Nat) (code unit payload : Nat) :
    (s.faultOf p code unit payload).hbm = s.hbm := by
  obtain ⟨u, l, hu, e⟩ := s.faultOf_cases p code unit payload
  rw [e]; exact hu.hbm

/-- A fault's event is counted at once, or waits (R338). -/
theorem State.faultOf_grows (s : State) (p : Option Nat) (code unit payload : Nat) :
    s.eventCount < (s.faultOf p code unit payload).eventCount ∨
      ((s.faultOf p code unit payload).eventCount = s.eventCount ∧
        s.bb.waiting.length < (s.faultOf p code unit payload).bb.waiting.length) := by
  cases p with
  | none => exact .inl (State.raiseDev_eventCount_lt _ _ _ _ _)
  | some p =>
    simp only [State.faultOf, State.unitFault, State.addCause_eventCount, State.addCause_bb]
    exact State.raiseFault_grows s _ _

/-- The fault of a partition whose tide is not done in a job is counted at once. -/
theorem State.faultOf_eventCount_lt (s : State) (p : Option Nat) (code unit payload : Nat)
    (h : ∀ q, p = some q → s.afterDone q = false) : s.eventCount < (s.faultOf p code unit payload).eventCount := by
  cases p with
  | none => exact State.raiseDev_eventCount_lt _ _ _ _ _
  | some p =>
    simp only [State.faultOf, State.unitFault, State.addCause_eventCount]
    exact State.raiseFault_eventCount_lt _ (.inl (h p rfl))

/-! What decides whose a unit is -/

theorem State.partOfCluster_congr {s t : State} (hf : t.fuses = s.fuses) (hp : t.parts = s.parts) (c : Nat) :
    t.partOfCluster c = s.partOfCluster c := by
  unfold State.partOfCluster State.sigma0 State.partOfStripe State.exists? State.part
  rw [hf, hp]

theorem State.afterDone_congr {s t : State} (hp : t.parts = s.parts) (hj : t.job = s.job) (p : Nat) :
    t.afterDone p = s.afterDone p := by
  unfold State.afterDone State.part
  rw [hp, hj]

/-! Changes of a unit -/

/-- Two changes that give the same port give the same state. -/
theorem State.modMemport_congr (s : State) (m : Nat) {f g : MemPort → MemPort} (h : f (s.memport m) = g (s.memport m)) :
    s.modMemport m f = s.modMemport m g := by
  simp only [State.modMemport, h]

/-- Two changes that give the same cluster give the same state. -/
theorem State.modCluster_congr (s : State) (c : Nat) {f g : Cluster → Cluster} (h : f (s.cluster c) = g (s.cluster c)) :
    s.modCluster c f = s.modCluster c g := by
  simp only [State.modCluster, h]

theorem State.cluster_congr {s t : State} (h : t.clusters = s.clusters) (c : Nat) : t.cluster c = s.cluster c := by
  unfold State.cluster
  rw [h]

/-! Folds of a state change -/

/-- What every step of a fold leaves alone, the fold leaves alone. -/
theorem each_eq {α β : Type} {f : α → State → State} {π : State → β} (h : ∀ a t, π (f a t) = π t) :
    ∀ (l : List α) (s : State), π (each l f s) = π s
  | [], _ => rfl
  | a :: l, s => (each_eq h l (f a s)).trans (h a s)

/-- What every step of a fold keeps, the fold keeps. -/
theorem each_induction {α : Type} {f : α → State → State} {P : State → Prop} (h : ∀ a t, P t → P (f a t)) :
    ∀ (l : List α) (s : State), P s → P (each l f s)
  | [], _, hs => hs
  | a :: l, s, hs => each_induction h l (f a s) (h a s hs)

end Sys2Proof.Machine
end

section
/-!
SUPPORT. The pseudo-channels of a stack, one service slot of a memory port, and the steps of a stack's temperature
(`Obligations.MemoryPortsAndTemperatures`).
-/

namespace Sys2Proof.Machine

/-! What the commands of the memory ports call -/

theorem exec_memportRequestArrive (s : State) (m : Nat) :
    exec (.memportRequestArrive m) s = execMemportRequestArrive m s := rfl
theorem exec_memportService (s : State) (m err : Nat) : exec (.memportService m err) s = execMemportService m err s := rfl
theorem exec_patrolScrub (s : State) (m o err : Nat) : exec (.patrolScrub m o err) s = execPatrolScrub m o err s := rfl
theorem exec_hbmTempReport (s : State) (m : Nat) (temp : Int) :
    exec (.hbmTempReport m temp) s = execHbmTempReport m temp s := rfl
theorem exec_hbmTripRecovery (s : State) (m : Nat) (temp : Int) (ok : Bool) :
    exec (.hbmTripRecovery m temp ok) s = execHbmTripRecovery m temp ok s := rfl

/-! Pseudo-channels (R256) -/

/-- Byte `o` of granule `g` goes to the pseudo-channel of the granule. -/
theorem pseudoChannel_granule (g : Nat) {o : Nat} (h : o < 256) :
    pseudoChannel (g * 256 + o) = (g % 32) ^^^ (g / 32 % 32) ^^^ (g / 1024 % 32) := by
  have : (g * 256 + o) / 256 = g := by omega
  simp only [pseudoChannel, this]

theorem pseudoChannel_lt (a : Nat) : pseudoChannel a < 32 := by
  have h (n : Nat) : n % 32 < 2 ^ 5 := Nat.mod_lt n (by decide)
  exact Nat.xor_lt_two_pow (Nat.xor_lt_two_pow (h _) (h _)) (h _)

/-- Within an aligned 8 KiB only the lowest term of the pseudo-channel varies. -/
theorem pseudoChannel_in_block (b : Nat) {i : Nat} (h : i < 32) :
    pseudoChannel (8192 * b + 256 * i) = i ^^^ (b % 32 ^^^ b / 32 % 32) := by
  have e : 8192 * b + 256 * i = (32 * b + i) * 256 + 0 := by ring
  have e0 : (32 * b + i) % 32 = i := by omega
  have e1 : (32 * b + i) / 32 = b := by omega
  have e2 : (32 * b + i) / 1024 = b / 32 := by omega
  rw [e, pseudoChannel_granule _ (by decide), e0, e1, e2, Nat.xor_assoc]

theorem pseudoChannelsShareOut : Claims.PseudoChannelsShareOut := by
  refine ⟨fun b i j hi hj h => ?_, fun a o => ⟨pseudoChannel_lt a, fun ho => ?_⟩, fun a => ?_⟩
  · rw [pseudoChannel_in_block b hi, pseudoChannel_in_block b hj] at h
    exact Nat.xor_left_inj.mp h
  · rw [pseudoChannel_granule _ ho]
    rfl
  · have e1 : a / 2 ^ 13 = a / 256 / 32 := (Nat.div_div_eq_div_mul a 256 32).symm
    have e2 : a / 2 ^ 18 = a / 256 / 1024 := (Nat.div_div_eq_div_mul a 256 1024).symm
    rw [e1, e2]
    apply BitVec.eq_of_toNat_eq
    simp only [BitVec.toNat_xor, BitVec.toNat_ofNat, Nat.mod_eq_of_lt (pseudoChannel_lt a)]
    rfl

/-! A port's service slot (R257, R258) -/

/-- A port in self-refresh or not trained serves nothing (R465). -/
theorem MemPort.still_of_down {m : MemPort} (h : m.inSelfRefresh = true ∨ m.trained = false) : m.still = true := by
  rcases h with h | h <;> simp [MemPort.still, h]

theorem MemPort.not_still {m : MemPort} (ht : m.tripped = false) (hr : m.inSelfRefresh = false) (hu : m.trained = true) :
    m.still = false := by simp [MemPort.still, ht, hr, hu]

/-- A port's only request is the one it serves, whatever its channel. -/
theorem MemPort.pick_single {m : MemPort} {p : Packet} (h : m.requests = [p]) : m.pick = some (p, []) := by
  by_cases hv : p.vc = 3
  · simp [MemPort.pick, MemPort.bulkTurn, h, hv, takeFirst]
  · cases hb : m.bulkTurn <;> simp [MemPort.pick, hb, h, hv, takeFirst]

/-- With no request behind it and no patrol read waiting, a request served leaves the VC3 count at 0. -/
theorem MemPort.served_last {m : MemPort} (vc : Nat) (h : m.scrubs = []) :
    m.served vc [] = { m with requests := [], vc3Skip := 0 } := by
  simp [MemPort.served, h]

/-- A VC3 request and one of another channel: the VC3 request goes first once seven slots have passed it by. -/
theorem MemPort.pick_pair {m : MemPort} {a b : Packet} (h : m.requests = [a, b]) (ha : a.vc = 3) (hb : b.vc ≠ 3) :
    m.pick = if 7 ≤ m.vc3Skip then some (a, [b]) else some (b, [a]) := by
  by_cases hs : 7 ≤ m.vc3Skip <;> simp [MemPort.pick, MemPort.bulkTurn, h, ha, hb, hs, takeFirst]

/-- The next slot is one of VC3 where only VC3 requests wait, or where seven slots have passed VC3 by. -/
theorem MemPort.bulkTurn_iff (m : MemPort) : m.bulkTurn = true ↔ (∀ p ∈ m.requests, p.vc = 3) ∨ 7 ≤ m.vc3Skip := by
  simp [MemPort.bulkTurn]

/-- With no patrol read waiting, a service slot of a port that is up serves its only request. -/
theorem execMemportService_single {s : State} {m : Nat} {p : Packet} (hs : (s.memport m).still = false)
    (hr : (s.memport m).requests = [p]) (hc : (s.memport m).scrubs = []) :
    execMemportService m 0 s = .next ((s.modMemport m fun x => x.served p.vc []).portDone m p 0) := by
  simp [execMemportService, hs, hc, MemPort.pick_single hr]

/-- A read without error, of a tile and not translated, is answered with the bytes of the stack. -/
theorem State.portDone_read {s : State} {m : Nat} {p : Packet} (hk : p.kind = .readReq) (hu : p.unit = .none)
    (ht : p.tiered = false) :
    s.portDone m p 0 = (s.modMemport m fun x => x.goTo p.addr).sendFromPort m p.src
      { kind := .readResp, vc := if p.vc = 3 then 3 else 1
        data := memBytes s.hbm (m * 2 ^ 36 + p.addr) p.len, len := p.len, flits := flitsOf p.len
        tag := p.tag, seqNo := p.seqNo, page := p.page } := by
  simp [State.portDone, State.portAnswer, State.portData, isPortRead, hk, hu, ht, hbmAddr, memBytes]

/-- A write of a tile stores its bytes, and the port is at their pseudo-channel; no tile and no CXL byte changes. -/
theorem State.portDone_write {s : State} {m : Nat} {p : Packet} (hk : p.kind = .write) (hu : p.unit = .none) :
    (s.portDone m p 0).hbm = memPut s.hbm (m * 2 ^ 36 + p.addr) p.data ∧
      (s.portDone m p 0).memport m = (s.memport m).goTo p.addr ∧
      (s.portDone m p 0).tiles = s.tiles ∧ (s.portDone m p 0).cxl = s.cxl := by
  have e : ∃ a, s.portDone m p 0 = ({ s.modMemport m (fun x => x.goTo p.addr) with
      hbm := memPut s.hbm (m * 2 ^ 36 + p.addr) p.data } : State).sendFromPort m p.src a := by
    simp [State.portDone, State.portAnswer, isPortRead, hk, hu, hbmAddr]
  obtain ⟨a, e⟩ := e
  rw [e]
  exact ⟨rfl, s.modMemport_memport_self m fun x => x.goTo p.addr, rfl, rfl⟩

/-- A patrol read that finds a corrected error takes a VC3 slot, notes its place and counts the error (R258). -/
theorem State.scrubGranule_corrected (s : State) (m o : Nat) :
    s.scrubGranule m o 1 = s.modMemport m fun x =>
      { x with vc3Skip := 0, patrol := o / 256, channel := pseudoChannel o, corrected := x.corrected + 1 } := by
  simp [State.scrubGranule, MemPort.goTo, MemPort.served, b01]

theorem memportRequestArrive_queues {s : State} {m : Nat} {p : Packet} {r : List Packet} (ha : s.arrived = p :: r)
    (hp : p.toPort = some m) (hroom : (s.memport m).requests.length < 256) :
    exec (.memportRequestArrive m) s = .next (({ s with arrived := r } : State).modMemport m fun x =>
      { x with requests := x.requests ++ [p] }) := by
  simp [exec_memportRequestArrive, execMemportRequestArrive, ha, takeFirst, hp, hroom]

theorem memportService_read {s : State} {m : Nat} {p : Packet} (hs : (s.memport m).still = false)
    (hr : (s.memport m).requests = [p]) (hc : (s.memport m).scrubs = []) (hk : p.kind = .readReq) (hu : p.unit = .none)
    (ht : p.tiered = false) :
    exec (.memportService m 0) s = .next ((s.modMemport m fun x =>
      { x with requests := [], vc3Skip := 0, channel := pseudoChannel p.addr }).sendFromPort m p.src
      { kind := .readResp, vc := if p.vc = 3 then 3 else 1
        data := memBytes s.hbm (m * 2 ^ 36 + p.addr) p.len, len := p.len, flits := flitsOf p.len
        tag := p.tag, seqNo := p.seqNo, page := p.page }) := by
  have hport : (s.modMemport m fun x => (x.served p.vc []).goTo p.addr) = s.modMemport m fun x =>
      { x with requests := [], vc3Skip := 0, channel := pseudoChannel p.addr } :=
    State.modMemport_congr _ _ (by rw [MemPort.served_last _ hc]; rfl)
  rw [exec_memportService, execMemportService_single hs hr hc, State.portDone_read hk hu ht,
    State.modMemport_modMemport, hport, State.modMemport_hbm]

theorem memportService_write {s : State} {m : Nat} {p : Packet} (hs : (s.memport m).still = false)
    (hr : (s.memport m).requests = [p]) (hc : (s.memport m).scrubs = []) (hk : p.kind = .write) (hu : p.unit = .none) :
    ∃ s', exec (.memportService m 0) s = .next s' ∧ s'.hbm = memPut s.hbm (m * 2 ^ 36 + p.addr) p.data ∧
      (s'.memport m).requests = [] ∧ (s'.memport m).channel = pseudoChannel p.addr ∧ s'.tiles = s.tiles ∧
      s'.cxl = s.cxl := by
  obtain ⟨hhbm, hport, htiles, hcxl⟩ :=
    State.portDone_write (s := s.modMemport m fun x => x.served p.vc []) (m := m) hk hu
  rw [State.modMemport_memport_self, MemPort.served_last _ hc] at hport
  exact ⟨_, execMemportService_single hs hr hc, hhbm, by rw [hport]; rfl, by rw [hport]; rfl, htiles, hcxl⟩

theorem patrolScrub_at_once {s : State} {m : Nat} (o : Nat) (hs : (s.memport m).still = false)
    (hc : (s.memport m).scrubs = []) (ht : (s.memport m).bulkTurn = true) :
    exec (.patrolScrub m o 1) s = .next (s.modMemport m fun x =>
      { x with vc3Skip := 0, patrol := o / 256, channel := pseudoChannel o, corrected := x.corrected + 1 }) := by
  simp [exec_patrolScrub, execPatrolScrub, hs, hc, ht, State.scrubGranule_corrected]

theorem patrolScrub_waits {s : State} {m : Nat} (o : Nat) (hs : (s.memport m).still = false)
    (hc : (s.memport m).scrubs = []) (ht : (s.memport m).bulkTurn = false) :
    exec (.patrolScrub m o 1) s = .next (s.modMemport m fun x => { x with scrubs := [(o, 1)] }) := by
  have hport : (s.modMemport m fun x => { x with scrubs := x.scrubs ++ [(o, 1)] })
      = s.modMemport m fun x => { x with scrubs := [(o, 1)] } :=
    State.modMemport_congr _ _ (by simp [hc])
  simp [exec_patrolScrub, execPatrolScrub, hs, ht, hport]

theorem memportService_scrubs {s : State} {m o : Nat} {r : List (Nat × Nat)} (hs : (s.memport m).still = false)
    (hc : (s.memport m).scrubs = (o, 1) :: r) (hskip : 7 ≤ (s.memport m).vc3Skip) :
    exec (.memportService m 0) s = .next (s.modMemport m fun x =>
      { x with scrubs := r, vc3Skip := 0, patrol := o / 256, channel := pseudoChannel o, corrected := x.corrected + 1 }) := by
  have ht : (s.memport m).bulkTurn = true := (MemPort.bulkTurn_iff _).mpr (.inr hskip)
  simp [exec_memportService, execMemportService, hs, hc, ht, State.scrubGranule_corrected]

theorem memoryPortService : Claims.MemoryPortService := by
  intro s m
  refine ⟨fun p r => memportRequestArrive_queues, fun h => ?_, fun a b => MemPort.pick_pair, fun ht hr hu => ?_⟩
  · have hs := MemPort.still_of_down h
    exact ⟨fun err => by simp [exec_memportService, execMemportService, hs],
      fun o err => by simp [exec_patrolScrub, execPatrolScrub, hs]⟩
  · have hs := MemPort.not_still ht hr hu
    refine ⟨fun p => memportService_read hs, fun p => memportService_write hs, fun o hc => ⟨fun h => ?_, fun h h7 => ?_⟩,
      fun o r => memportService_scrubs hs⟩
    · exact patrolScrub_at_once o hs hc ((MemPort.bulkTurn_iff _).mpr h)
    · refine patrolScrub_waits o hs hc (Bool.eq_false_iff.mpr fun hb => ?_)
      obtain ⟨p, hp, hv⟩ := h
      rcases (MemPort.bulkTurn_iff _).mp hb with h3 | h3
      · exact hv (h3 p hp)
      · exact Nat.not_le.mpr h7 h3

/-! A stack's temperature (R465) -/

/-- The state once a stack's temperature is noted: hot from 85 °C on, with its event, until it falls below 82 °C. -/
def State.tempNoted (s : State) (m : Nat) (temp : Int) : State :=
  let u := s.modMemport m fun x => { x with temp := temp }
  if temp ≥ 85 * 16 ∧ !(s.memport m).hot then
    (u.modMemport m fun x => { x with hot := true }).portEvent m 0x0608 2 (tempField temp * 2 ^ 32 + 1)
  else if temp < 82 * 16 ∧ (s.memport m).hot then
    (u.modMemport m fun x => { x with hot := false }).portEvent m 0x0608 2 (tempField temp * 2 ^ 32)
  else u

/-- A stack that trips: in self-refresh from now on, and the boot path is no longer warm. -/
def State.stackTrips (s : State) (m : Nat) : State :=
  { (s.modMemport m fun x => { x with tripped := true, inSelfRefresh := true, tripAt := s.now }) with
    boot := { s.boot with epoOrTrip := true } }

theorem execHbmTempReport_on {s : State} {m : Nat} {temp : Int} (h : s.stripeOn (m % 8) = true) :
    exec (.hbmTempReport m temp) s = .next (
      if temp ≥ 95 * 16 ∧ !(s.memport m).tripped then
        ((s.tempNoted m temp).stackTrips m).portFault m 0x0609 (tempField temp * 2 ^ 32)
      else s.tempNoted m temp) := by
  rw [exec_hbmTempReport, execHbmTempReport, if_neg (by simp [h])]
  exact (apply_ite _ _ _ _).symm

/-- Noting a temperature changes the port and, where the stack turns hot or is so no longer, raises an event. -/
theorem State.tempNoted_cases (s : State) (m : Nat) (temp : Int) :
    ∃ hot, s.tempNoted m temp = (s.modMemport m fun x => { x with temp := temp, hot := hot }) ∨
      (EventOnly (s.modMemport m fun x => { x with temp := temp, hot := hot }) (s.tempNoted m temp) ∧
        s.eventCount < (s.tempNoted m temp).eventCount) := by
  have hevent (hot : Bool) (payload : Nat) :
      EventOnly (s.modMemport m fun x => { x with temp := temp, hot := hot })
          (((s.modMemport m fun x => { x with temp := temp }).modMemport m fun x => { x with hot := hot }).portEvent m
            0x0608 2 payload) ∧
        s.eventCount < (((s.modMemport m fun x => { x with temp := temp }).modMemport m fun x =>
          { x with hot := hot }).portEvent m 0x0608 2 payload).eventCount := by
    rw [State.modMemport_modMemport, State.portEvent_eq]
    refine ⟨State.eventOf_eventOnly _ _ _ _ _ _, ?_⟩
    rw [← State.modMemport_eventCount s m fun x => { x with temp := temp, hot := hot }]
    exact State.eventOf_eventCount_lt _ _ _ _ _ (by decide)
  unfold State.tempNoted
  dsimp only
  split
  · exact ⟨true, .inr (hevent true _)⟩
  · split
    · exact ⟨false, .inr (hevent false _)⟩
    · exact ⟨(s.memport m).hot, .inl (State.modMemport_congr _ _ rfl)⟩

/-- Below 85 °C a stack that is not hot only records its temperature. -/
theorem State.tempNoted_cool {s : State} {m : Nat} {temp : Int} (ht : temp < 85 * 16) (hh : (s.memport m).hot = false) :
    s.tempNoted m temp = s.modMemport m fun x => { x with temp := temp } := by
  unfold State.tempNoted
  dsimp only
  rw [if_neg (fun h => Int.not_le.mpr ht h.1), if_neg (by simp [hh])]

theorem State.stackTrips_memport (s : State) (m : Nat) : (s.stackTrips m).memport m =
    { s.memport m with tripped := true, inSelfRefresh := true, tripAt := s.now } :=
  s.modMemport_memport_self m fun x => { x with tripped := true, inSelfRefresh := true, tripAt := s.now }

/-- A trip: self-refresh, no warm boot, and the fault raised or kept until its tide is known. -/
theorem hbmTempReport_trips {s : State} {m : Nat} {temp : Int} (h : s.stripeOn (m % 8) = true) (ht : 95 * 16 ≤ temp)
    (hm : (s.memport m).tripped = false) :
    ∃ s', exec (.hbmTempReport m temp) s = .next s' ∧ (s'.memport m).tripped = true ∧
      (s'.memport m).inSelfRefresh = true ∧ (s'.memport m).temp = temp ∧ (s'.memport m).tripAt = s.now ∧
      s'.boot.epoOrTrip = true ∧ (s'.eventCount > s.eventCount ∨ s'.bb.waiting.length > s.bb.waiting.length) ∧
      s'.hbm = s.hbm := by
  obtain ⟨hot, hcases⟩ := s.tempNoted_cases m temp
  have e := (execHbmTempReport_on h).trans (congrArg _ (if_pos ⟨ht, by simp [hm]⟩))
  rw [State.portFault_eq] at e
  generalize s.tempNoted m temp = u at hcases e
  have hu : EventOnly (s.modMemport m fun x => { x with temp := temp, hot := hot }) u :=
    hcases.elim (fun h => h ▸ EventOnly.refl _) And.left
  have hport : (u.stackTrips m).memport m = { s.memport m with
      temp := temp, hot := hot, tripped := true, inSelfRefresh := true, tripAt := s.now } := by
    rw [State.stackTrips_memport, hu.memport, hu.now, State.modMemport_memport_self]
    rfl
  refine ⟨_, e, ?_⟩
  rw [State.faultOf_memport, hport, State.faultOf_boot, State.faultOf_hbm]
  refine ⟨rfl, rfl, rfl, rfl, rfl, ?_, hu.hbm⟩
  have hgrow := (u.stackTrips m).faultOf_grows ((u.stackTrips m).partOfPort m) 0x0609 (unitId 3 m)
    (tempField temp * 2 ^ 32)
  have hcount : (u.stackTrips m).eventCount = u.eventCount := rfl
  have hbb : (u.stackTrips m).bb = u.bb := rfl
  rw [hcount, hbb] at hgrow
  rcases hcases with rfl | ⟨-, hlt⟩
  · exact hgrow.imp id And.right
  · left; omega

theorem stackTemperatures : Claims.StackTemperatures := by
  intro s m temp
  refine ⟨fun h => ?_, fun h ht hh => ?_, hbmTempReport_trips, fun hm ht => ?_, fun p hm ht hlate hp => ?_, fun hm => ?_⟩
  · simp [exec_hbmTempReport, execHbmTempReport, h]
  · have hno : ¬ (temp ≥ 95 * 16 ∧ (!(s.memport m).tripped) = true) := by omega
    rw [execHbmTempReport_on h, if_neg hno, State.tempNoted_cool ht hh]
  · simp only [exec_hbmTripRecovery, execHbmTripRecovery, hm, ht, Bool.not_true, Bool.false_eq_true, if_true, if_false]
  · have hwait : s.now - (s.memport m).tripAt > 5000000000 := by omega
    simp only [exec_hbmTripRecovery, execHbmTripRecovery, hm, Int.not_lt.mpr ht, hwait, hp, Bool.not_true,
      Bool.false_eq_true, if_true, if_false]
  · simp [exec_hbmTripRecovery, execHbmTripRecovery, hm]

/-- Settles O32, from the three parts of the claim: the pseudo-channels as a xor with the block's own term, a port's service
slot case by case, and a temperature report as a note of the temperature followed by a trip. -/
theorem memoryPortsAndTemperatures : Obligations.MemoryPortsAndTemperatures :=
  ⟨pseudoChannelsShareOut, memoryPortService, stackTemperatures⟩

end Sys2Proof.Machine
end

section
/-!
SUPPORT. A temperature sample and a trip, a tripped cluster's recovery, and margin reports (`Obligations.HeatAndMargins`).
-/

namespace Sys2Proof.Machine

/-! What the commands of heat and margins call -/

theorem exec_clusterTempSample (s : State) (c : Nat) (l : List Int) :
    exec (.clusterTempSample c l) s = execClusterTempSample c l s := rfl
theorem exec_thermalRecovery (s : State) (c : Nat) (t : Int) :
    exec (.thermalRecovery c t) s = execThermalRecovery c t s := rfl
theorem exec_marginReport (s : State) (c m mv : Nat) : exec (.marginReport c m mv) s = execMarginReport c m mv s := rfl

/-! A cluster's switches open (R433, R455) -/

@[simp] theorem State.signalAbsorb_clusters (s : State) (t : TileId) : (s.signalAbsorb t).clusters = s.clusters := by
  refine each_eq (π := State.clusters) (fun dir u => ?_) _ _
  split <;> rfl

@[simp] theorem State.signalAbsorb_eventCount (s : State) (t : TileId) : (s.signalAbsorb t).eventCount = s.eventCount := by
  refine each_eq (π := State.eventCount) (fun dir u => ?_) _ _
  split <;> rfl

@[simp] theorem State.finish_clusters (s : State) (n st : Nat) (resp buf : List Byte) (d o : Nat) :
    (s.finish n st resp buf d o).clusters = s.clusters := by
  unfold State.finish
  dsimp only
  repeat' split
  all_goals simp

theorem State.finish_eventCount_le (s : State) (n st : Nat) (resp buf : List Byte) (d o : Nat) :
    s.eventCount ≤ (s.finish n st resp buf d o).eventCount := by
  unfold State.finish
  dsimp only
  split
  · exact Nat.le_refl _
  · simp only [apply_ite State.eventCount, State.msix_eventCount, ite_self]
    split
    · exact Nat.le_of_eq (by split <;> rfl)
    · refine Nat.le_trans (Nat.le_of_eq ?_) (Nat.le_of_lt (State.raiseRec_eventCount_lt _ _ _))
      split <;> rfl

@[simp] theorem State.failWith_clusters (s : State) (n a b : Nat) : (s.failWith n a b).clusters = s.clusters :=
  State.finish_clusters _ _ _ _ _ _ _

theorem State.failWith_eventCount_le (s : State) (n a b : Nat) : s.eventCount ≤ (s.failWith n a b).eventCount :=
  State.finish_eventCount_le _ _ _ _ _ _ _

/-- The tiles of a cluster whose power goes: dark, and their neighbours told. -/
def State.darken (s : State) (c : Nat) : State :=
  each (s.tilesOfCluster c) (fun t st => (st.modTile t darkTile).signalAbsorb t) s

/-- A cluster whose switches begin to open. -/
def Cluster.opening (k : Cluster) : Cluster :=
  { k with power := false, switching := k.power || k.switching, rising := false, powerUpHeld := false, heldMbx := none }

/-- Opening the switches is the tiles' darkness and the cluster's; a held power-up's command fails besides. -/
theorem State.openSwitches_cases (s : State) (c : Nat) :
    s.openSwitches c = (s.darken c).modCluster c Cluster.opening ∨
    ∃ n scan, s.openSwitches c
      = State.failWith { (s.darken c).modCluster c Cluster.opening with scan := scan } n stBusy 0 := by
  unfold State.openSwitches
  dsimp only
  split
  · exact .inl rfl
  · exact .inr ⟨_, _, rfl⟩

theorem State.darken_clusters (s : State) (c : Nat) : (s.darken c).clusters = s.clusters :=
  each_eq (π := State.clusters) (fun t u => State.signalAbsorb_clusters (u.modTile t darkTile) t) _ _

theorem State.darken_eventCount (s : State) (c : Nat) : (s.darken c).eventCount = s.eventCount :=
  each_eq (π := State.eventCount) (fun t u => State.signalAbsorb_eventCount (u.modTile t darkTile) t) _ _

theorem State.openSwitches_cluster (s : State) (c : Nat) : (s.openSwitches c).cluster c = (s.cluster c).opening := by
  have h : ((s.darken c).modCluster c Cluster.opening).cluster c = (s.cluster c).opening := by
    rw [State.modCluster_cluster_self, State.cluster_congr (s.darken_clusters c)]
  rcases s.openSwitches_cases c with e | ⟨n, scan, e⟩
  · rw [e, h]
  · rw [e, State.cluster_congr (State.failWith_clusters _ _ _ _)]
    exact h

theorem State.openSwitches_eventCount_le (s : State) (c : Nat) : s.eventCount ≤ (s.openSwitches c).eventCount := by
  have h : s.eventCount = ((s.darken c).modCluster c Cluster.opening).eventCount := (s.darken_eventCount c).symm
  rcases s.openSwitches_cases c with e | ⟨n, scan, e⟩
  · exact e ▸ Nat.le_of_eq h
  · rw [e]
    refine Nat.le_trans ?_ (State.failWith_eventCount_le _ _ _ _)
    exact Nat.le_of_eq h

/-- A power-down during a power-up waits for its end (R433). -/
theorem State.powerDownBegin_cluster (s : State) (c : Nat) : (s.powerDownBegin c).cluster c =
    if (s.cluster c).rising then { s.cluster c with downHeld := true } else (s.cluster c).opening := by
  unfold State.powerDownBegin
  split
  · rw [State.modCluster_cluster_self]
  · exact s.openSwitches_cluster c

theorem State.powerDownBegin_eventCount_le (s : State) (c : Nat) : s.eventCount ≤ (s.powerDownBegin c).eventCount := by
  unfold State.powerDownBegin
  split
  · exact Nat.le_refl _
  · exact s.openSwitches_eventCount_le c

/-! A thermal trip (R463) -/

/-- The fault of a trip, with the slower step it asks for: the state in which the cluster's power-down begins. -/
def State.tripFault (s : State) (c sensor : Nat) (t : Int) : State :=
  let u := s.faultOf (s.partOfCluster c) 0x0607 (unitId 1 c) (sensor * 2 ^ 62 + tempField t * 2 ^ 32)
  { u with power := { u.power with thermalStep := min 7 (u.power.step + 1) } }

theorem State.trip_eq (s : State) (c sensor : Nat) (t : Int) :
    s.trip c sensor t = ((s.tripFault c sensor t).powerDownBegin c).modCluster c fun k =>
      { k with tripped := true, tripAt := ((s.tripFault c sensor t).powerDownBegin c).now } := rfl

theorem State.tripFault_cluster (s : State) (c sensor : Nat) (t : Int) : (s.tripFault c sensor t).cluster c = s.cluster c :=
  State.cluster_congr (State.faultOf_clusters _ _ _ _ _) c

/-- A cluster that trips with no power-up running loses its power. -/
theorem State.trip_cluster_still {s : State} {c : Nat} (h : (s.cluster c).rising = false) (sensor : Nat) (t : Int) :
    ∃ now, (s.trip c sensor t).cluster c = { (s.cluster c).opening with tripped := true, tripAt := now } := by
  rw [State.trip_eq, State.modCluster_cluster_self, State.powerDownBegin_cluster, State.tripFault_cluster, h]
  exact ⟨_, rfl⟩

/-- A cluster that trips during its power-up keeps its power until that has ended (R433). -/
theorem State.trip_cluster_rising {s : State} {c : Nat} (h : (s.cluster c).rising = true) (sensor : Nat) (t : Int) :
    ∃ now, (s.trip c sensor t).cluster c = { s.cluster c with downHeld := true, tripped := true, tripAt := now } := by
  rw [State.trip_eq, State.modCluster_cluster_self, State.powerDownBegin_cluster, State.tripFault_cluster, h]
  exact ⟨_, rfl⟩

theorem State.trip_eventCount_le (s : State) (c sensor : Nat) (t : Int) :
    (s.tripFault c sensor t).eventCount ≤ (s.trip c sensor t).eventCount :=
  State.powerDownBegin_eventCount_le _ c

theorem State.trip_eventCount_lt {s : State} {c : Nat} (sensor : Nat) (t : Int)
    (h : ∀ p, s.partOfCluster c = some p → s.afterDone p = false) : s.eventCount < (s.trip c sensor t).eventCount :=
  Nat.lt_of_lt_of_le (State.faultOf_eventCount_lt s _ _ _ _ h) (s.trip_eventCount_le c sensor t)

/-! A temperature sample (R462) -/

/-- The cluster that records a sample: its temperatures and its thermal cadence. -/
def Cluster.sample (k : Cluster) (l : List Int) : Cluster :=
  { k with temps := l, thermal := (thermalNext k.thermal k.below (hottest l).1).1
           below := (thermalNext k.thermal k.below (hottest l).1).2 }

/-- The state once a sample is recorded and a change of cadence reported and asked for, before any trip. -/
def State.sampled (s : State) (c : Nat) (l : List Int) : State :=
  let u := s.modCluster c fun k => k.sample l
  let n := (thermalNext (s.cluster c).thermal (s.cluster c).below (hottest l).1).1
  if n ≠ (s.cluster c).thermal then
    (u.clusterEvent c 0x0606 1 (n * 2 ^ 60 + tempField (hottest l).1 * 2 ^ 32)).askCadence c
  else u

/-- A cluster trips where it has power and has not tripped, or where a power-up runs that no power-down waits for. -/
def Cluster.canTrip (k : Cluster) : Prop := (k.power ∧ !k.tripped) ∨ (k.rising ∧ !k.downHeld)

theorem execClusterTempSample_trips {s : State} {c : Nat} {l : List Int} (h : s.stripeOn (c / 36) = true)
    (ht : 110 * 16 ≤ (hottest l).1 ∧ (s.cluster c).canTrip) :
    exec (.clusterTempSample c l) s = .next ((s.sampled c l).trip c (hottest l).2 (hottest l).1) := by
  rw [exec_clusterTempSample, execClusterTempSample, if_neg (by simp [h])]
  exact if_pos ht

theorem execClusterTempSample_no_trip {s : State} {c : Nat} {l : List Int} (h : s.stripeOn (c / 36) = true)
    (ht : ¬ (110 * 16 ≤ (hottest l).1 ∧ (s.cluster c).canTrip)) :
    exec (.clusterTempSample c l) s = .next (s.sampled c l) := by
  rw [exec_clusterTempSample, execClusterTempSample, if_neg (by simp [h])]
  exact if_neg ht

/-- Recording a sample changes the cluster, and events where its cadence changes. -/
theorem State.sampled_cases (s : State) (c : Nat) (l : List Int) : ∃ u next,
    EventOnly (s.modCluster c fun k => k.sample l) u ∧ s.eventCount ≤ u.eventCount ∧
      s.sampled c l = u.modCluster c fun k => { k with nextCadence := next } := by
  unfold State.sampled
  dsimp only
  split
  · refine ⟨_, _, State.eventOf_eventOnly _ _ _ _ _ _, ?_, rfl⟩
    rw [← State.modCluster_eventCount s c fun k => k.sample l]
    exact Nat.le_of_lt (State.eventOf_eventCount_lt _ _ _ _ _ (by decide))
  · refine ⟨s.modCluster c fun k => k.sample l, (s.cluster c).nextCadence, EventOnly.refl _, Nat.le_refl _, ?_⟩
    rw [State.modCluster_modCluster]
    exact State.modCluster_congr _ _ rfl

/-- A sampled cluster has its temperatures and its thermal cadence; its power, trip and power-up are as they were. -/
theorem State.sampled_cluster (s : State) (c : Nat) (l : List Int) : ∃ next,
    (s.sampled c l).cluster c = { (s.cluster c).sample l with nextCadence := next } := by
  obtain ⟨u, next, hu, -, e⟩ := s.sampled_cases c l
  rw [e, State.modCluster_cluster_self, hu.cluster, State.modCluster_cluster_self]
  exact ⟨next, rfl⟩

theorem State.sampled_eventCount_le (s : State) (c : Nat) (l : List Int) : s.eventCount ≤ (s.sampled c l).eventCount := by
  obtain ⟨u, next, -, hle, e⟩ := s.sampled_cases c l
  exact e ▸ hle

/-- A sample changes neither whose the cluster is nor whether that partition's tide is done. -/
theorem State.sampled_partOf {s : State} {c : Nat} {l : List Int}
    (h : ∀ p, s.partOfCluster c = some p → s.afterDone p = false) :
    ∀ p, (s.sampled c l).partOfCluster c = some p → (s.sampled c l).afterDone p = false := by
  obtain ⟨u, next, hu, -, e⟩ := s.sampled_cases c l
  have hfuses : (s.sampled c l).fuses = s.fuses := e ▸ hu.fuses
  have hparts : (s.sampled c l).parts = s.parts := e ▸ hu.parts
  have hjob : (s.sampled c l).job = s.job := e ▸ hu.job
  intro p hp
  rw [State.afterDone_congr hparts hjob]
  exact h p (State.partOfCluster_congr hfuses hparts c ▸ hp)

/-- What a sample of an enabled stripe's cluster gives, whether or not the cluster trips. -/
theorem clusterTempSample_effect {s : State} {c : Nat} (h : s.stripeOn (c / 36) = true) (l : List Int) :
    ∃ s', exec (.clusterTempSample c l) s = .next s' ∧ (s'.cluster c).temps = l ∧
      (s'.cluster c).thermal = (thermalNext (s.cluster c).thermal (s.cluster c).below (hottest l).1).1 ∧
      ((hottest l).1 < 110 * 16 →
        (s'.cluster c).power = (s.cluster c).power ∧ (s'.cluster c).tripped = (s.cluster c).tripped) ∧
      (110 * 16 ≤ (hottest l).1 → (s.cluster c).power = true → (s.cluster c).tripped = false →
        (s.cluster c).rising = false →
        (s'.cluster c).power = false ∧ (s'.cluster c).tripped = true ∧
        ((∀ p, s.partOfCluster c = some p → s.afterDone p = false) → s.eventCount < s'.eventCount)) ∧
      (110 * 16 ≤ (hottest l).1 → (s.cluster c).rising = true → (s.cluster c).downHeld = false →
        (s'.cluster c).downHeld = true ∧ (s'.cluster c).rising = true ∧ (s'.cluster c).tripped = true) := by
  obtain ⟨next, hk⟩ := s.sampled_cluster c l
  by_cases htrip : 110 * 16 ≤ (hottest l).1 ∧ (s.cluster c).canTrip
  · refine ⟨_, execClusterTempSample_trips h htrip, ?_⟩
    obtain ⟨ht, -⟩ := htrip
    cases hr : (s.cluster c).rising
    · obtain ⟨now, hk'⟩ := State.trip_cluster_still (s := s.sampled c l) (c := c) (by rw [hk]; exact hr) (hottest l).2
        (hottest l).1
      rw [hk', hk]
      refine ⟨rfl, rfl, fun hlt => absurd ht (Int.not_le.mpr hlt), fun _ _ _ _ => ⟨rfl, rfl, fun hd => ?_⟩,
        fun _ hf => nomatch hf⟩
      exact Nat.lt_of_le_of_lt (s.sampled_eventCount_le c l) (State.trip_eventCount_lt _ _ (State.sampled_partOf hd))
    · obtain ⟨now, hk'⟩ := State.trip_cluster_rising (s := s.sampled c l) (c := c) (by rw [hk]; exact hr) (hottest l).2
        (hottest l).1
      rw [hk', hk]
      exact ⟨rfl, rfl, fun hlt => absurd ht (Int.not_le.mpr hlt), fun _ _ _ hf => (nomatch hf),
        fun _ _ _ => ⟨rfl, hr, rfl⟩⟩
  · refine ⟨_, execClusterTempSample_no_trip h htrip, ?_⟩
    rw [hk]
    refine ⟨rfl, rfl, fun _ => ⟨rfl, rfl⟩, fun ht hp htr _ => ?_, fun ht hr hd => ?_⟩
    · exact absurd ⟨ht, .inl ⟨hp, by simp [htr]⟩⟩ htrip
    · exact absurd ⟨ht, .inr ⟨hr, by simp [hd]⟩⟩ htrip

/-! Recovery of a tripped cluster (R464) -/

/-- A power-up of the cluster waits or runs. -/
def Cluster.wakes (k : Cluster) : Prop := k.powerUpHeld = true ∨ k.rising = true

/-- Filling the free places starts power-ups that wait and ends none (R455). -/
theorem State.fillSlots_wakes {s : State} {c : Nat} (h : (s.cluster c).wakes) : (s.fillSlots.cluster c).wakes := by
  refine each_induction (P := fun u : State => (u.cluster c).wakes) (fun d u hu => ?_) _ _ h
  dsimp only
  split
  · by_cases hd : c = d
    · subst hd
      rw [State.modCluster_cluster_self]
      exact .inr rfl
    · rw [State.modCluster_cluster_ne _ _ hd]
      exact hu
  · exact hu

theorem State.powerUpBegin_wakes {s : State} {c : Nat} (hp : (s.cluster c).power = false)
    (hr : (s.cluster c).rising = false) (hh : (s.cluster c).powerUpHeld = false) (opcode : Nat) (mbx : Option Nat) :
    ((s.powerUpBegin c opcode mbx).cluster c).wakes := by
  have hwait : ((s.modCluster c fun k =>
      { k with powerUpHeld := true, heldOpcode := opcode, heldMbx := mbx }).cluster c).wakes := by
    rw [State.modCluster_cluster_self]
    exact .inl rfl
  unfold State.powerUpBegin
  rw [if_neg (by simp [hp, hr, hh])]
  dsimp only
  split
  · rw [State.enableHeldEvent, State.raiseDev_cluster]
    exact hwait
  · exact State.fillSlots_wakes hwait

/-! Margins (R450 to R453) -/

/-- The state once a margin is noted. -/
def State.marginNoted (s : State) (c m mv : Nat) : State :=
  s.modCluster c fun k => { k with margins := tset k.margins m (min mv 255) }

theorem marginReport_wide {s : State} {c m mv : Nat} (h : s.stripeOn (c / 36) = true) (hmv : 25 ≤ mv) :
    exec (.marginReport c m mv) s = .next (s.marginNoted c m mv) := by
  have hmin : min mv 255 ≥ 25 := by omega
  rw [exec_marginReport, execMarginReport, if_neg (by simp [h])]
  exact if_pos hmin

/-- The cluster's offset at the running step can rise no further (R452, R453). -/
def State.atLimit (s : State) (c : Nat) : Bool :=
  decide (tget 0 (s.cluster c).offsets s.power.step ≥ 20) || decide (s.voltage c s.power.step + 5 > 850)

/-- The cluster's offset at the running step rises by 5 mV. -/
def State.raiseOffset (s : State) (c : Nat) : State :=
  s.modCluster c fun k => { k with offsets := tset k.offsets s.power.step (tget 0 (s.cluster c).offsets s.power.step + 5) }

theorem marginReport_narrow {s : State} {c m mv : Nat} (h : s.stripeOn (c / 36) = true) (hmv : mv < 25) :
    ∃ payload, exec (.marginReport c m mv) s = .next (
      (if (s.marginNoted c m mv).atLimit c then (s.marginNoted c m mv).markStep s.power.step
        else (s.marginNoted c m mv).raiseOffset c).clusterEvent c 0x0605 2 payload) := by
  have hmin : ¬ min mv 255 ≥ 25 := by omega
  rw [exec_marginReport, execMarginReport, if_neg (by simp [h])]
  exact ⟨_, if_neg hmin⟩

theorem State.marginNoted_cluster (s : State) (c m mv : Nat) :
    (s.marginNoted c m mv).cluster c = { s.cluster c with margins := tset (s.cluster c).margins m (min mv 255) } :=
  s.modCluster_cluster_self c fun k => { k with margins := tset k.margins m (min mv 255) }

/-- Noting a margin moves no offset and so no limit. -/
theorem State.marginNoted_atLimit (s : State) (c m mv : Nat) : (s.marginNoted c m mv).atLimit c = s.atLimit c := by
  unfold State.atLimit State.voltage
  rw [State.marginNoted_cluster]
  rfl

/-- Writing a record into the repair log marks no step. -/
@[simp] theorem Flash.writeLog_stepsUnavailable (f : Flash) (a : List RepairRec) (b : List RetiredRec) :
    (f.writeLog a b).stepsUnavailable = f.stepsUnavailable := by
  unfold Flash.writeLog; dsimp only; split <;> rfl

/-! A repair record, or the report that there is no room for it -/

theorem State.logRepair_clusters (s : State) (a b c d e : Nat) : (s.logRepair a b c d e).clusters = s.clusters := by
  unfold State.logRepair
  dsimp only
  split
  · rfl
  · exact State.raiseDev_clusters _ _ _ _ _

theorem State.logRepair_eventCount_le (s : State) (a b c d e : Nat) : s.eventCount ≤ (s.logRepair a b c d e).eventCount := by
  unfold State.logRepair
  dsimp only
  split
  · exact Nat.le_refl _
  · exact Nat.le_of_lt (State.raiseDev_eventCount_lt _ _ _ _ _)

theorem State.logRepair_stepsUnavailable (s : State) (a b c d e : Nat) :
    (s.logRepair a b c d e).flash.stepsUnavailable = s.flash.stepsUnavailable := by
  unfold State.logRepair
  dsimp only
  split
  · exact Flash.writeLog_stepsUnavailable _ _ _
  · rw [State.raiseDev_flash _ _ _ _ (by decide)]

theorem State.markStep_clusters (s : State) (n : Nat) : (s.markStep n).clusters = s.clusters := by
  unfold State.markStep
  split
  · rfl
  · exact State.logRepair_clusters _ _ _ _ _ _

theorem State.markStep_eventCount_le (s : State) (n : Nat) : s.eventCount ≤ (s.markStep n).eventCount := by
  unfold State.markStep
  split
  · exact Nat.le_refl _
  · refine Nat.le_trans ?_ (State.logRepair_eventCount_le _ _ _ _ _ _)
    exact Nat.le_refl _

/-- A step marked is unavailable (R453). -/
theorem State.markStep_marks (s : State) {n : Nat} (h : n < 8) :
    (s.markStep n).flash.stepsUnavailable.getLsbD n = true := by
  have hbit : (BitVec.ofNat 8 (2 ^ (n + 1) - 1)).getLsbD n = true := by
    simp [BitVec.getLsbD_ofNat, h]
  unfold State.markStep
  split
  · assumption
  · dsimp only
    rw [State.logRepair_stepsUnavailable, BitVec.getLsbD_or, hbit, Bool.or_true]

/-- A margin below 25 mV with room for the offset: 5 mV more, an event, and the flash as it was. -/
theorem marginReport_raises {s : State} {c : Nat} (h : s.stripeOn (c / 36) = true) (m : Nat) {mv : Nat} (hmv : mv < 25)
    (ho : tget 0 (s.cluster c).offsets s.power.step < 20) (hv : s.voltage c s.power.step + 5 ≤ 850) :
    ∃ s', exec (.marginReport c m mv) s = .next s' ∧ s.eventCount < s'.eventCount ∧
      tget 0 (s'.cluster c).offsets s.power.step = tget 0 (s.cluster c).offsets s.power.step + 5 ∧
      s'.flash = s.flash := by
  obtain ⟨payload, e⟩ := marginReport_narrow (m := m) h hmv
  have hlim : (s.marginNoted c m mv).atLimit c = false := by
    rw [State.marginNoted_atLimit]
    simp [State.atLimit, ho, hv]
  rw [hlim, if_neg Bool.false_ne_true, State.clusterEvent_eq] at e
  have hoff : tget 0 (((s.marginNoted c m mv).raiseOffset c).cluster c).offsets s.power.step
      = tget 0 (s.cluster c).offsets s.power.step + 5 := by
    rw [State.raiseOffset, State.modCluster_cluster_self, State.marginNoted_cluster]
    exact tget_tset_self _ _ _ _
  refine ⟨_, e, ?_, ?_, ?_⟩
  · refine Nat.lt_of_le_of_lt ?_ (State.eventOf_eventCount_lt _ _ _ _ _ (by decide))
    exact Nat.le_refl _
  · rw [(State.eventOf_eventOnly _ _ _ _ _ _).cluster, hoff]
  · rw [State.eventOf_flash _ _ _ _ _ (by decide)]
    rfl

/-- A margin below 25 mV at a limit: the step marked unavailable, an event, and the offset as it was. -/
theorem marginReport_marks {s : State} {c : Nat} (h : s.stripeOn (c / 36) = true) (m : Nat) {mv : Nat} (hmv : mv < 25)
    (hl : 20 ≤ tget 0 (s.cluster c).offsets s.power.step ∨ 850 < s.voltage c s.power.step + 5) (hn : s.power.step < 8) :
    ∃ s', exec (.marginReport c m mv) s = .next s' ∧ s'.flash.stepsUnavailable.getLsbD s.power.step = true ∧
      s.eventCount < s'.eventCount ∧
      tget 0 (s'.cluster c).offsets s.power.step = tget 0 (s.cluster c).offsets s.power.step := by
  obtain ⟨payload, e⟩ := marginReport_narrow (m := m) h hmv
  have hlim : (s.marginNoted c m mv).atLimit c = true := by
    rw [State.marginNoted_atLimit]
    simpa [State.atLimit] using hl
  rw [hlim, if_pos rfl, State.clusterEvent_eq] at e
  refine ⟨_, e, ?_, ?_, ?_⟩
  · rw [State.eventOf_flash _ _ _ _ _ (by decide)]
    exact State.markStep_marks _ hn
  · refine Nat.lt_of_le_of_lt ?_ (State.eventOf_eventCount_lt _ _ _ _ _ (by decide))
    exact State.markStep_eventCount_le (s.marginNoted c m mv) s.power.step
  · rw [(State.eventOf_eventOnly _ _ _ _ _ _).cluster, State.cluster_congr (State.markStep_clusters _ _),
      State.marginNoted_cluster]

/-- Settles O54: a sample is a note of the temperatures and then, at 110 °C, a trip; a power-up asked for waits or runs; and a
narrow margin raises the offset or marks the step. -/
theorem heatAndMargins : Obligations.HeatAndMargins := by
  intro s c
  refine ⟨fun h => ?_, fun h l t ht => ?_, fun htr hoff => ?_, fun htr t => ?_, fun h => ?_⟩
  · exact ⟨fun l => by simp [exec_clusterTempSample, execClusterTempSample, h],
      fun m mv => by simp [exec_marginReport, execMarginReport, h]⟩
  · subst ht
    exact clusterTempSample_effect h l
  · refine ⟨fun t ht hp hr hh => ⟨s.powerUpBegin c 0 none, ?_, State.powerUpBegin_wakes hp hr hh 0 none⟩,
      fun t p ht hlate hp => ?_, fun t ht hsoon => ?_⟩
    · simp only [exec_thermalRecovery, execThermalRecovery, htr, hoff, ht, Bool.not_true, Bool.or_false,
        Bool.false_eq_true, if_true, if_false]
    · have hwait : s.now - (s.cluster c).tripAt > 2000000000 := by omega
      simp only [exec_thermalRecovery, execThermalRecovery, htr, hoff, Int.not_lt.mpr ht, hwait, hp, Bool.not_true,
        Bool.or_false, Bool.false_eq_true, if_true, if_false]
    · have hwait : ¬ s.now - (s.cluster c).tripAt > 2000000000 := by omega
      simp only [exec_thermalRecovery, execThermalRecovery, htr, hoff, Int.not_lt.mpr ht, hwait, Bool.not_true,
        Bool.or_false, Bool.false_eq_true, if_false]
  · simp [exec_thermalRecovery, execThermalRecovery, htr]
  · exact ⟨fun m mv => marginReport_wide h, fun m mv hmv => marginReport_raises h m hmv,
      fun m mv hmv => marginReport_marks h m hmv⟩

end Sys2Proof.Machine
end

section
/-!
SUPPORT. Binary32: rounding to an integer (`Obligations.Fp32ToInt8RoundsAndSaturates`), what NaN operands give, and that two
words of one value are one word or the two zeros (`Claims.Binary32NanAndZeroRules`).
-/

namespace Sys2Proof.Machine

/-! Rounding to the nearest integer (R44) -/

/-- With no bits below the unit nothing is rounded. -/
theorem roundShift_of_nonneg (sig : Nat) {e : Int} (h : 0 ≤ e) : roundShift sig e 0 = sig * 2 ^ e.toNat := by
  have hs : (0 : Int) - e ≤ 0 := by omega
  have he : (-(0 - e)).toNat = e.toNat := by omega
  simp only [roundShift, if_pos hs, he]

/-- With `k + 1` bits below the unit the quotient goes up from above the half, and at the half from an odd one. -/
theorem roundShift_of_neg (sig k : Nat) {e : Int} (h : (-e).toNat = k + 1) :
    roundShift sig e 0 =
      if sig % 2 ^ (k + 1) > 2 ^ k ∨ (sig % 2 ^ (k + 1) = 2 ^ k ∧ sig / 2 ^ (k + 1) % 2 = 1) then sig / 2 ^ (k + 1) + 1
      else sig / 2 ^ (k + 1) := by
  have hs : ¬ (0 : Int) - e ≤ 0 := by omega
  have he : (0 - e).toNat = k + 1 := by omega
  simp only [roundShift, if_neg hs, he, Nat.add_sub_cancel]

/-- The rounded quotient is at most half a unit away, and even where that half is reached (R44). -/
theorem roundShift_nearest (sig : Nat) {e : Int} (h : e < 0) :
    2 * ((roundShift sig e 0 : Int) * 2 ^ (-e).toNat - sig) ≤ 2 ^ (-e).toNat ∧
    2 * ((sig : Int) - roundShift sig e 0 * 2 ^ (-e).toNat) ≤ 2 ^ (-e).toNat ∧
    ((2 * ((roundShift sig e 0 : Int) * 2 ^ (-e).toNat - sig) = 2 ^ (-e).toNat ∨
      2 * ((sig : Int) - roundShift sig e 0 * 2 ^ (-e).toNat) = 2 ^ (-e).toNat) → roundShift sig e 0 % 2 = 0) := by
  obtain ⟨k, hk⟩ : ∃ k : Nat, (-e).toNat = k + 1 := ⟨(-e).toNat - 1, by omega⟩
  have hdiv : ((sig / 2 ^ (k + 1) : Nat) : Int) * 2 ^ (k + 1) + (sig % 2 ^ (k + 1) : Nat) = sig := by
    exact_mod_cast Nat.div_add_mod' sig (2 ^ (k + 1))
  have hlt : sig % 2 ^ (k + 1) < 2 ^ (k + 1) := Nat.mod_lt _ (Nat.two_pow_pos _)
  have hhalf : 2 ^ (k + 1) = 2 * 2 ^ k := Nat.pow_succ'
  have hunit : (2 : Int) ^ (k + 1) = (2 ^ (k + 1) : Nat) := by push_cast; rfl
  rw [roundShift_of_neg sig k hk, hk]
  rw [hunit] at hdiv ⊢
  split
  · rw [Int.natCast_add, Int.add_mul]
    omega
  · omega

/-! Conversion to INT8 (R44) -/

/-- What a conversion gives lies within its bounds. -/
theorem toIntSat_bounds {lo hi : Int} (h0 : lo ≤ 0) (h1 : 0 ≤ hi) (v : FVal) : lo ≤ toIntSat lo hi v ∧ toIntSat lo hi v ≤ hi := by
  cases v with
  | nan => exact ⟨h0, h1⟩
  | inf n => cases n <;> simp only [toIntSat, if_true, Bool.false_eq_true, if_false] <;> omega
  | fin n s e => simp only [toIntSat]; omega

theorem signed_eq (n : Bool) (s : Nat) : signed n s = (if n then -1 else 1) * (s : Int) := by
  cases n <;> simp [signed]

theorem cvtLane_int8 (sat : Bool) (a b : Word) :
    cvtLane 3 sat a b = (BitVec.ofInt 8 (toIntSat (-128) 127 (decodeFp32 a))).zeroExtend 32 := by
  apply BitVec.eq_of_toNat_eq
  simp [cvtLane]

/-- Settles O13: the lane is the saturated integer of `toIntSat`, which rounds by `roundShift`. -/
theorem fp32ToInt8RoundsAndSaturates : Obligations.Fp32ToInt8RoundsAndSaturates := by
  intro sat a b
  obtain ⟨hlo, hhi⟩ := toIntSat_bounds (lo := -128) (hi := 127) (by decide) (by decide) (decodeFp32 a)
  refine ⟨toIntSat (-128) 127 (decodeFp32 a), hlo, hhi, cvtLane_int8 sat a b, fun h => ?_, fun neg h => ?_,
    fun neg sig e h => ⟨fun he => ?_, fun he => ⟨roundShift sig e 0, ?_, roundShift_nearest sig he⟩⟩⟩ <;> rw [h]
  · rfl
  · rfl
  · simp only [toIntSat, roundShift_of_nonneg sig he, signed_eq]
    push_cast
    rw [Int.mul_assoc]
  · simp only [toIntSat, signed_eq]

/-! NaN operands (R37, R55) -/

theorem isNan32_iff (a : Word) : isNan32 a = true ↔ decodeFp32 a = .nan := decide_eq_true_iff

theorem addVal_nan (v : FVal) : addVal .nan v = .nan ∧ addVal v .nan = .nan := by
  cases v <;> exact ⟨rfl, rfl⟩

theorem mulVal_nan (v : FVal) : mulVal .nan v = .nan ∧ mulVal v .nan = .nan := by
  cases v <;> exact ⟨rfl, rfl⟩

theorem binary_of_nan {a b : Word} (h : isNan32 a = true ∨ isNan32 b = true) :
    fadd a b = nan32 ∧ fsub a b = nan32 ∧ fmul a b = nan32 ∧ fmax a b = nan32 ∧ fmin a b = nan32 := by
  have hany : (isNan32 a || isNan32 b) = true := by simpa using h
  refine ⟨?_, ?_, ?_, if_pos hany, if_pos hany⟩ <;>
    obtain h | h := h <;> simp only [fadd, fsub, fmul, (isNan32_iff _).mp h, addVal_nan, mulVal_nan, negVal, encodeFp32]

theorem ffma_of_nan {a b c : Word} (h : isNan32 a = true ∨ isNan32 b = true ∨ isNan32 c = true) : ffma a b c = nan32 := by
  obtain h | h | h := h <;> simp only [ffma, (isNan32_iff _).mp h, addVal_nan, mulVal_nan, encodeFp32]

/-! Words of one value (R34) -/

/-- A word is a sign, an exponent field and a mantissa field. -/
theorem fp32_fields (a : Word) : ∃ (n : Bool) (ex m : Nat), ex < 256 ∧ m < 2 ^ 23 ∧
    a.toNat = (if n then 2 ^ 31 else 0) + ex * 2 ^ 23 + m := by
  have hlt := a.isLt
  refine ⟨decide (2 ^ 31 ≤ a.toNat), a.toNat / 2 ^ 23 % 256, a.toNat % 2 ^ 23, Nat.mod_lt _ (by decide),
    Nat.mod_lt _ (by decide), ?_⟩
  simp only [decide_eq_true_eq]
  split <;> omega

/-- What the three fields of a word stand for (R34). -/
theorem decodeFp32_fields {a : Word} {n : Bool} {ex m : Nat} (hex : ex < 256) (hm : m < 2 ^ 23)
    (h : a.toNat = (if n then 2 ^ 31 else 0) + ex * 2 ^ 23 + m) :
    decodeFp32 a = if ex = 255 then (if m = 0 then .inf n else .nan)
      else if ex = 0 then .fin n m (-149) else .fin n (2 ^ 23 + m) ((ex : Int) - 127 - 23) := by
  have hsign : a.toNat / 2 ^ (8 + 23) % 2 = if n then 1 else 0 := by
    cases n <;> simp only [Bool.false_eq_true, if_true, if_false] at h ⊢ <;> omega
  have hexp : a.toNat / 2 ^ 23 % 2 ^ 8 = ex := by split at h <;> omega
  have hman : a.toNat % 2 ^ 23 = m := by split at h <;> omega
  simp only [decodeFp32, decodeIeee, decodeFinite, hsign, hexp, hman]
  cases n <;> rfl

/-- The word of an infinity. -/
theorem decodeFp32_inf {a : Word} {n : Bool} (h : decodeFp32 a = .inf n) : a = inf32 n := by
  obtain ⟨k, ex, m, hex, hm, ha⟩ := fp32_fields a
  rw [decodeFp32_fields hex hm ha] at h
  split_ifs at h with h255 h0
  cases h
  subst h255 h0
  apply BitVec.eq_of_toNat_eq
  rw [ha]
  cases n <;> rfl

/-- A finite value has its significand and exponent in one form, and they spell the word: a subnormal's exponent field is 0, and
the top bit of a normal one's significand carries into the field. -/
theorem decodeFp32_fin {a : Word} {n : Bool} {s : Nat} {e : Int} (h : decodeFp32 a = .fin n s e) :
    s < 2 ^ 24 ∧ -149 ≤ e ∧ (e = -149 ∨ 2 ^ 23 ≤ s) ∧
      a.toNat = (if n then 2 ^ 31 else 0) + (e + 149).toNat * 2 ^ 23 + s := by
  obtain ⟨k, ex, m, hex, hm, ha⟩ := fp32_fields a
  rw [decodeFp32_fields hex hm ha] at h
  rw [ha]
  split_ifs at h <;> cases h <;> omega

/-- Two significands of that form that stand for one magnitude are one, with one exponent. -/
theorem magnitude_unique {s t : Nat} {e f : Int} (hs : s < 2 ^ 24) (ht : t < 2 ^ 24) (he : e = -149 ∨ 2 ^ 23 ≤ s)
    (hf : f = -149 ∨ 2 ^ 23 ≤ t) (he0 : -149 ≤ e) (hf0 : -149 ≤ f)
    (h : s * 2 ^ (e - min e f).toNat = t * 2 ^ (f - min e f).toNat) : s = t ∧ e = f := by
  have apart {u v : Nat} {k : Nat} (hk : 0 < k) (hu : u < 2 ^ 24) (hv : 2 ^ 23 ≤ v) : u ≠ v * 2 ^ k := by
    have : 2 ^ 23 * 2 ^ 1 ≤ v * 2 ^ k := Nat.mul_le_mul hv (Nat.pow_le_pow_right (by decide) hk)
    omega
  obtain hlt | heq | hgt := lt_trichotomy e f
  · rw [min_eq_left hlt.le, Int.sub_self] at h
    exact absurd (by simpa using h) (apart (k := (f - e).toNat) (by omega) hs (by omega))
  · subst heq
    exact ⟨by simpa using h, rfl⟩
  · rw [min_eq_right hgt.le, Int.sub_self] at h
    exact absurd (by simpa using h.symm) (apart (k := (e - f).toNat) (by omega) ht (by omega))

/-- Only 0 has one value under both signs. -/
theorem eq_zero_of_signed_eq {n m : Bool} {s : Nat} (h : n ≠ m) (hs : signed n s = signed m s) : s = 0 := by
  cases n <;> cases m <;> simp [signed] at h hs ⊢ <;> omega

/-- A significand 0 is the word of a signed zero. -/
theorem decodeFp32_zero {a : Word} {n : Bool} {e : Int} (h : decodeFp32 a = .fin n 0 e) : a = zero32 n := by
  obtain ⟨-, -, he, ha⟩ := decodeFp32_fin h
  obtain rfl : e = -149 := by omega
  exact BitVec.eq_of_toNat_eq (by rw [ha]; cases n <;> rfl)

theorem signed_natAbs (n : Bool) (s : Nat) : (signed n s).natAbs = s := by
  cases n <;> simp [signed]

/-- Two words that are numbers, neither below the other: one word, or the two zeros. -/
theorem eq_or_zeros_of_not_lt {a b : Word} (ha : isNan32 a = false) (hb : isNan32 b = false)
    (hab : ltVal (decodeFp32 a) (decodeFp32 b) = false) (hba : ltVal (decodeFp32 b) (decodeFp32 a) = false) :
    a = b ∨ ∃ n, a = zero32 n ∧ b = zero32 !n := by
  simp only [isNan32, decide_eq_false_iff_not] at ha hb
  cases hA : decodeFp32 a with
  | nan => exact absurd hA ha
  | inf n =>
    cases hB : decodeFp32 b with
    | nan => exact absurd hB hb
    | inf m =>
      rw [hA, hB] at hab hba
      have : n = m := by cases n <;> cases m <;> simp_all [ltVal]
      subst this
      exact .inl ((decodeFp32_inf hA).trans (decodeFp32_inf hB).symm)
    | fin m t f => rw [hA, hB] at hab hba; cases n <;> simp [ltVal] at hab hba
  | fin n s e =>
    cases hB : decodeFp32 b with
    | nan => exact absurd hB hb
    | inf m => rw [hA, hB] at hab hba; cases m <;> simp [ltVal] at hab hba
    | fin m t f =>
      rw [hA, hB] at hab hba
      simp only [ltVal, decide_eq_false_iff_not, Int.not_lt, min_comm f e] at hab hba
      have heq : signed n s * 2 ^ (e - min e f).toNat = signed m t * 2 ^ (f - min e f).toNat := Int.le_antisymm hba hab
      obtain ⟨hs, he0, he, hA'⟩ := decodeFp32_fin hA
      obtain ⟨ht, hf0, hf, hB'⟩ := decodeFp32_fin hB
      have habs := congrArg Int.natAbs heq
      simp only [Int.natAbs_mul, signed_natAbs, Int.natAbs_pow] at habs
      obtain ⟨rfl, rfl⟩ := magnitude_unique hs ht he hf he0 hf0 habs
      by_cases hnm : n = m
      · subst hnm
        exact .inl (BitVec.eq_of_toNat_eq (hA'.trans hB'.symm))
      · have hz : s = 0 := eq_zero_of_signed_eq hnm (by simpa using heq)
        subst hz
        obtain rfl : m = !n := by cases n <;> cases m <;> simp at hnm ⊢
        exact .inr ⟨n, decodeFp32_zero hA, decodeFp32_zero hB⟩

/-- Of two numbers the maximum is one of them, or +0 where they are the two zeros. -/
theorem fmax_of_numbers {a b : Word} (ha : isNan32 a = false) (hb : isNan32 b = false) :
    fmax a b = a ∨ fmax a b = b ∨ fmax a b = 0 := by
  simp only [fmax, ha, hb, Bool.or_self, Bool.false_eq_true, if_false]
  split_ifs with hab hba
  · exact .inr (.inl rfl)
  · exact .inl rfl
  · obtain rfl | ⟨n, rfl, rfl⟩ := eq_or_zeros_of_not_lt ha hb (by simpa using hab) (by simpa using hba)
    · exact .inl (BitVec.and_self)
    · exact .inr (.inr (by cases n <;> rfl))

/-- Of two numbers the minimum is one of them, or -0 where they are the two zeros. -/
theorem fmin_of_numbers {a b : Word} (ha : isNan32 a = false) (hb : isNan32 b = false) :
    fmin a b = a ∨ fmin a b = b ∨ fmin a b = 0x80000000 := by
  simp only [fmin, ha, hb, Bool.or_self, Bool.false_eq_true, if_false]
  split_ifs with hab hba
  · exact .inl rfl
  · exact .inr (.inl rfl)
  · obtain rfl | ⟨n, rfl, rfl⟩ := eq_or_zeros_of_not_lt ha hb (by simpa using hab) (by simpa using hba)
    · exact .inl (BitVec.or_self)
    · exact .inr (.inr (by cases n <;> rfl))

theorem binary32NanAndZeroRules : Claims.Binary32NanAndZeroRules := by
  refine fun a b c => ⟨binary_of_nan, ffma_of_nan, fun h => ⟨if_pos h, if_pos h⟩, ?_, ?_, ?_, ?_,
    fun ha hb => ⟨fmax_of_numbers ha hb, fmin_of_numbers ha hb⟩⟩
  all_goals decide

end Sys2Proof.Machine
end

section
/-!
SUPPORT. Vector-slot operations that pass their check on a tile that issues (`Obligations.LaneArithmetic`,
`Obligations.VectorConversionsAndFunctions`).
-/

namespace Sys2Proof.Machine

/-! Operations of a slot on a tile that issues (R113, R147) -/

/-- An operation that passes its check has its effect. -/
theorem tileOp_effect {s : State} {t : TileId} (hi : s.canIssue t = true) {slot : Nat} {check : State → Option Nat}
    (hc : check s = none) (k : State → State) : tileOp t slot check k s = .next (k s) := by
  simp only [tileOp, hi, hc, if_true]

/-- An operation that fails its check faults the tile with the check's code. -/
theorem tileOp_fault {s : State} {t : TileId} (hi : s.canIssue t = true) {slot code : Nat} {check : State → Option Nat}
    (hc : check s = some code) (k : State → State) :
    tileOp t slot check k s = .next (s.tileFault t code .program ((s.tile t).slotPayload slot)) := by
  simp only [tileOp, hi, hc, if_true]

theorem unused_zero (s : State) : unused 0 s = none := rfl

theorem mustHold_zero {b : Bool} (h : b = true) (s : State) : mustHold b 0 s = none := by
  simp [mustHold, h]

/-! Vector registers as operands (R117) -/

/-- A read finds the stored value, or what some pending write gives: what both have, it has. -/
theorem seen_induction {α : Type} {P : α → Prop} {upd : PendWrite → α → Option α} (hu : ∀ w v u, upd w v = some u → P v → P u)
    (ecc key : Nat) : ∀ (l : List PendWrite) (j : Nat) (v : α), P v → P (seen ecc key upd j l v)
  | [], _, _, h => h
  | w :: r, j, v, h => by
    rw [seen]
    split
    · rename_i u e
      refine seen_induction hu ecc key r (j + 1) _ ?_
      split
      · exact hu w v u e h
      · exact h
    · exact seen_induction hu ecc key r (j + 1) v h

@[simp] theorem lanesOf_length (l : List Word) : (lanesOf l).length = 32 := by simp [lanesOf]
@[simp] theorem putLanes_length (l : List Word) (ch : List (Nat × Word)) : (putLanes l ch).length = 32 := by simp [putLanes]

/-- A vector register has 32 lanes, whatever is pending. -/
@[simp] theorem State.rv_length (s : State) (t : TileId) (slot n r : Nat) : (s.rv t slot n r).length = 32 := by
  refine seen_induction (P := fun l : List Word => l.length = 32) (fun w v u e _ => ?_) _ _ _ _ _ (lanesOf_length _)
  split at e
  · split at e <;> cases e
    exact putLanes_length _ _
  · cases e

/-- Three lists zipped, lane by lane. -/
theorem zipWith_zip_eq_range {n : Nat} (f : Word → Word → Word → Word) {a b c : List Word} (ha : a.length = n)
    (hb : b.length = n) (hc : c.length = n) :
    List.zipWith (fun (p : Word × Word) z => f p.1 p.2 z) (a.zip b) c
      = (List.range n).map fun i => f (a.getD i 0) (b.getD i 0) (c.getD i 0) := by
  apply List.ext_getElem
  · simp [ha, hb, hc]
  · intro i h _
    have hi : i < n := by simpa [ha, hb, hc] using h
    simp [List.getD_eq_getElem?_getD, ha, hb, hc, hi]

/-! Operations that give a whole register (R131, R138) -/

/-- The whole of vD is written after the latency, and nothing else changes. -/
theorem vecOp_effect {s : State} {t : TileId} (hi : s.canIssue t = true) (lat vD : Nat) (f : State → List Word) :
    vecOp t 0 lat vD f s = .next (s.setTile t ((s.tile t).wV 2 lat vD (f s))) :=
  tileOp_effect hi (unused_zero s) _

theorem vecTri_effect {s : State} {t : TileId} (hi : s.canIssue t = true) (vD vA vB vC : Nat) (f : Word → Word → Word → Word) :
    vecTri t vD vA vB vC 0 f s = .next (s.setTile t ((s.tile t).wV 2 4 vD ((List.range 32).map fun i =>
      f ((s.rv t 2 0 vA).getD i 0) ((s.rv t 2 1 vB).getD i 0) ((s.rv t 2 2 vC).getD i 0)))) := by
  rw [← zipWith_zip_eq_range f (s.rv_length t 2 0 vA) (s.rv_length t 2 1 vB) (s.rv_length t 2 2 vC)]
  exact vecOp_effect hi _ _ _

/-! What the commands of the vector slot call -/

section
variable (s : State) (t : TileId) (vD vA vB vC sD : BitVec 5)

theorem exec_vnop (rsv : BitVec 22) : exec (.vnop t rsv) s = tileOp t 2 (unused rsv.toNat) id s := rfl
theorem exec_vadd (rsv : BitVec 7) :
    exec (.vadd t vD vA vB rsv) s = vecBin t vD.toNat vA.toNat vB.toNat rsv.toNat fadd s := rfl
theorem exec_vsub (rsv : BitVec 7) :
    exec (.vsub t vD vA vB rsv) s = vecBin t vD.toNat vA.toNat vB.toNat rsv.toNat fsub s := rfl
theorem exec_vmul (rsv : BitVec 7) :
    exec (.vmul t vD vA vB rsv) s = vecBin t vD.toNat vA.toNat vB.toNat rsv.toNat fmul s := rfl
theorem exec_vfma (rsv : BitVec 2) :
    exec (.vfma t vD vA vB vC rsv) s = vecTri t vD.toNat vA.toNat vB.toNat vC.toNat rsv.toNat ffma s := rfl
theorem exec_vmax (rsv : BitVec 7) :
    exec (.vmax t vD vA vB rsv) s = vecBin t vD.toNat vA.toNat vB.toNat rsv.toNat fmax s := rfl
theorem exec_vmin (rsv : BitVec 7) :
    exec (.vmin t vD vA vB rsv) s = vecBin t vD.toNat vA.toNat vB.toNat rsv.toNat fmin s := rfl
theorem exec_vabs (rsv : BitVec 12) : exec (.vabs t vD vA rsv) s = vecUn t vD.toNat vA.toNat rsv.toNat fabs s := rfl
theorem exec_vneg (rsv : BitVec 12) : exec (.vneg t vD vA rsv) s = vecUn t vD.toNat vA.toNat rsv.toNat fneg s := rfl
theorem exec_vcvt (code : BitVec 4) (sat : BitVec 1) (rsv : BitVec 2) :
    exec (.vcvt t vD vA vB code sat rsv) s = execVcvt t vD vA vB code sat rsv s := rfl
theorem exec_vmxq (fmt : BitVec 4) (rsv : BitVec 3) : exec (.vmxq t vD vA fmt sD rsv) s = execVmxq t vD vA fmt sD rsv s := rfl
theorem exec_vrng (rsv : BitVec 7) : exec (.vrng t vD vA vB rsv) s = execVrng t vD vA vB rsv s := rfl

end

/-! Lane arithmetic (R55, R131) -/

theorem vectorLaneArithmetic : Claims.VectorLaneArithmetic := by
  intro s t vD vA vB vC hi
  simp only [exec_vnop, exec_vadd, exec_vsub, exec_vmul, exec_vfma, exec_vmax, exec_vmin, exec_vabs, exec_vneg]
  have op := vecOp_effect hi 4 vD.toNat
  exact ⟨tileOp_effect hi (unused_zero s) id, op _, op _, op _, vecTri_effect hi _ _ _ _ _, op _, op _, op _, op _⟩

/-- Settles O14: the lane operations through `vecOp` and `vecTri`, and the rules of binary32. -/
theorem laneArithmetic : Obligations.LaneArithmetic := ⟨vectorLaneArithmetic, binary32NanAndZeroRules⟩

/-! Conversions, quantisation and the function unit (R132, R133) -/

theorem vcvt_effect {s : State} {t : TileId} (hi : s.canIssue t = true) (vD vA vB : BitVec 5) {code : BitVec 4} {sat : BitVec 1}
    (hcode : code.toNat ≠ 15) (hsat : code.toNat < 3 ∨ sat = 0) :
    exec (.vcvt t vD vA vB code sat 0) s = .next (s.setTile t ((s.tile t).wV 2 3 vD.toNat
      (List.zipWith (cvtLane code.toNat (sat.toNat = 1)) (s.rv t 2 0 vA.toNat) (s.rv t 2 1 vB.toNat)))) := by
  have hok : (decide (code.toNat ≠ 15) && (decide (code.toNat < 3) || decide (sat.toNat = 0))) = true := by
    obtain h | rfl := hsat
    · simp [hcode, h]
    · simp [hcode]
  rw [exec_vcvt, execVcvt]
  exact tileOp_effect hi (mustHold_zero hok s) _

theorem vmxq_effect {s : State} {t : TileId} (hi : s.canIssue t = true) (vD vA sD : BitVec 5) {fmt : BitVec 4} {f : EFmt}
    (hf : vmxqFmt fmt.toNat = some f) :
    exec (.vmxq t vD vA fmt sD 0) s = .next (s.setTile t
      (((s.tile t).wV 2 6 vD.toNat ((mxQuantise f (s.rv t 2 0 vA.toNat)).2.map (BitVec.ofNat 32 ·))).wS 2 6 sD.toNat
        (BitVec.ofNat 32 (mxQuantise f (s.rv t 2 0 vA.toNat)).1))) := by
  rw [exec_vmxq, execVmxq, hf]
  exact tileOp_effect hi (mustHold_zero rfl s) _

/-- The function unit takes an operation in every fourth enabled cycle: what the check of VSFU answers (R133). -/
def sfuCheck (t : TileId) (s : State) : Option Nat :=
  match (s.tile t).sfuAt with
  | some c => if (s.tile t).ecc ≤ c + 3 then some 0x0225 else none
  | none => none

theorem exec_vsfu_check (s : State) (t : TileId) (vD vA : BitVec 5) (fn : BitVec 2) :
    exec (.vsfu t vD vA fn 0) s = tileOp t 2 (sfuCheck t) (fun s => s.modTile t fun x =>
      ({ x with sfuAt := some x.ecc }).wV 2 12 vD.toNat ((s.rv t 2 0 vA.toNat).map (sfu fn.toNat))) s := rfl

theorem sfuCheck_free {s : State} {t : TileId}
    (h : (s.tile t).sfuAt = none ∨ ∃ c, (s.tile t).sfuAt = some c ∧ c + 3 < (s.tile t).ecc) : sfuCheck t s = none := by
  obtain h | ⟨c, h, hc⟩ := h
  · simp [sfuCheck, h]
  · simp [sfuCheck, h, hc]

theorem sfuCheck_busy {s : State} {t : TileId} {c : Nat} (h : (s.tile t).sfuAt = some c) (hc : (s.tile t).ecc ≤ c + 3) :
    sfuCheck t s = some 0x0225 := by
  simp [sfuCheck, h, hc]

/-- Settles O16: each operation passes its check and has its effect, or VSFU fails its own and faults. -/
theorem vectorConversionsAndFunctions : Obligations.VectorConversionsAndFunctions := by
  intro s t vD vA vB sD hi
  refine ⟨fun code sat => vcvt_effect hi vD vA vB, fun fmt f => vmxq_effect hi vD vA sD, fun fn h => ?_, fun fn c h hc => ?_, ?_⟩
  · rw [exec_vsfu_check, tileOp_effect hi (sfuCheck_free h)]
    rfl
  · rw [exec_vsfu_check, tileOp_fault hi (sfuCheck_busy h hc)]
    rfl
  · rw [exec_vrng, execVrng]
    exact vecOp_effect hi _ _ _

end Sys2Proof.Machine
end

section
/-!
SUPPORT. The end of a block of an array operation, the start of a pending one, the outputs of SQ16, and what joins a running sum
(`Obligations.ArrayRunProgress`).
-/

namespace Sys2Proof.Machine

/-! What finishing products may change (R73, R83) -/

/-- Writes are added, accumulator entries change but for their running sums, and nothing else of the tile does. -/
structure Tile.Adds (x y : Tile) : Prop where
  pend : ∀ w ∈ x.pend, w ∈ y.pend
  sum : ∀ k, (tget ({} : AccEntry) y.acc k).sum = (tget ({} : AccEntry) x.acc k).sum
  rest : y = { x with pend := y.pend, acc := y.acc }

theorem Tile.Adds.refl (x : Tile) : x.Adds x := ⟨fun _ h => h, fun _ => rfl, rfl⟩

theorem Tile.Adds.trans {x y z : Tile} (h : x.Adds y) (k : y.Adds z) : x.Adds z :=
  ⟨fun w hw => k.pend w (h.pend w hw), fun i => (k.sum i).trans (h.sum i), by rw [k.rest, h.rest]⟩

section
variable {x y : Tile} (h : x.Adds y)
include h
theorem Tile.Adds.ecc : y.ecc = x.ecc := by rw [h.rest]
theorem Tile.Adds.pendRun : y.pendRun = x.pendRun := by rw [h.rest]
theorem Tile.Adds.mem : y.mem = x.mem := by rw [h.rest]
theorem Tile.Adds.win : y.win = x.win := by rw [h.rest]
theorem Tile.Adds.sregs : y.sregs = x.sregs := by rw [h.rest]
theorem Tile.Adds.vregs : y.vregs = x.vregs := by rw [h.rest]
end

theorem Tile.addResult_adds (x : Tile) (r : ArrRun) (k wait : Nat) (res : Option Word) (zero : Bool) :
    x.Adds (x.addResult r k wait res zero) :=
  ⟨fun _ h => List.mem_append_left _ h, fun _ => rfl, rfl⟩

/-- Accumulator entry `k` set. -/
def Tile.setAcc (x : Tile) (k : Nat) (e : AccEntry) : Tile := { x with acc := tset x.acc k e }

/-- An entry's running sum, with no partial. -/
def Tile.cleared (x : Tile) (k : Nat) : AccEntry := { sum := (tget ({} : AccEntry) x.acc k).sum }

theorem Tile.tget_setAcc (x : Tile) (k : Nat) (e : AccEntry) : tget ({} : AccEntry) (x.setAcc k e).acc k = e :=
  tget_tset_self _ _ _ _

/-- Setting an entry to one with its running sum is such a change. -/
theorem Tile.setAcc_adds (x : Tile) {k : Nat} {e : AccEntry} (h : e.sum = (x.cleared k).sum) : x.Adds (x.setAcc k e) := by
  refine ⟨fun _ h => h, fun i => ?_, rfl⟩
  by_cases hi : i = k
  · rw [hi, x.tget_setAcc, h]
    rfl
  · rw [Tile.setAcc, tget_tset_ne _ _ _ hi]

/-- A fold of such changes is one. -/
theorem foldl_adds {α : Type} {f : Tile → α → Tile} (h : ∀ (y : Tile) (a : α), y.Adds (f y a)) :
    ∀ (l : List α) (x : Tile), x.Adds (l.foldl f x)
  | [], x => Tile.Adds.refl x
  | a :: l, x => (h x a).trans (foldl_adds h l (f x a))

/-- A fold of such changes passes through the change of each element of its list. -/
theorem foldl_adds_through {α : Type} {f : Tile → α → Tile} (h : ∀ (y : Tile) (a : α), y.Adds (f y a)) {a : α} {l : List α}
    (ha : a ∈ l) (x : Tile) : ∃ y, x.Adds y ∧ (f y a).Adds (l.foldl f x) := by
  induction l generalizing x with
  | nil => cases ha
  | cons b l ih =>
    obtain rfl | ha := List.mem_cons.mp ha
    · exact ⟨x, Tile.Adds.refl x, foldl_adds h l _⟩
    · obtain ⟨y, hy, hl⟩ := ih ha (f x b)
      exact ⟨y, (h x b).trans hy, hl⟩

/-! The end of a WS block (R73, R80, R83, R104) -/

/-- What token row `a` and column `n` of a block add, with the weights `w` and the element steps `l` of the column. -/
def ArrRun.blockWrite (r : ArrRun) (b : BlockRun) (ecc : Nat) (a : Nat × Nat) (n : Nat) (w : WBlock) (l : List (Option Nat)) :
    PendWrite :=
  { dest := .sum (r.entryOf a.1 a.2 n) (some ((({} : AccEntry).addProducts (r.wfmt = 9) (productsOf (fmtOf r.wfmt) (fmtOf r.afmt)
      w.elems (b.actsFor r (a.1 * 4 + a.2) l).elems)).blockResult (r.wfmt = 8) (b.actsFor r (a.1 * 4 + a.2) l).scale w.scale))
      (decide (r.wfmt = 8)) (r.zeroes b.j)
    land := ecc + 2, issued := ecc, slot := 1 }

/-- The entry of token row `a` and a column drops its partial, and the column's result is on its way. -/
def Tile.columnDone (r : ArrRun) (b : BlockRun) (a : Nat × Nat) (y : Tile) (p : Nat × WBlock × List (Option Nat)) : Tile :=
  { y.setAcc (r.entryOf a.1 a.2 p.1) (y.cleared (r.entryOf a.1 a.2 p.1)) with
    pend := y.pend ++ [r.blockWrite b y.ecc a p.1 p.2.1 p.2.2] }

/-- The columns of a block: number, weights, element steps. -/
def ArrRun.columns (r : ArrRun) (b : BlockRun) : List (Nat × WBlock × List (Option Nat)) :=
  (List.range (r.weightsOf b.j b.load.bytes).length).zip ((r.weightsOf b.j b.load.bytes).zip (r.stepTable b.load))

theorem Tile.wsDone_eq (x : Tile) (r : ArrRun) (b : BlockRun) :
    x.wsDone r b = r.rowKeys.foldl (fun y a => (r.columns b).foldl (Tile.columnDone r b a) y) x := rfl

theorem Tile.columnDone_adds (r : ArrRun) (b : BlockRun) (a : Nat × Nat) (y : Tile) (p : Nat × WBlock × List (Option Nat)) :
    y.Adds (Tile.columnDone r b a y p) :=
  (y.setAcc_adds rfl).trans (Tile.addResult_adds _ r _ 2 _ _)

theorem Tile.rowDone_adds (r : ArrRun) (b : BlockRun) (y : Tile) (a : Nat × Nat) :
    y.Adds ((r.columns b).foldl (Tile.columnDone r b a) y) := foldl_adds (Tile.columnDone_adds r b a) _ y

theorem Tile.wsDone_adds (x : Tile) (r : ArrRun) (b : BlockRun) : x.Adds (x.wsDone r b) :=
  foldl_adds (Tile.rowDone_adds r b) _ x

theorem ArrRun.mem_columns {r : ArrRun} {b : BlockRun} {n : Nat} {w : WBlock} {l : List (Option Nat)}
    (hw : (r.weightsOf b.j b.load.bytes)[n]? = some w) (hl : (r.stepTable b.load)[n]? = some l) : (n, w, l) ∈ r.columns b := by
  obtain ⟨hn, hw⟩ := List.getElem?_eq_some_iff.mp hw
  obtain ⟨hm, hl⟩ := List.getElem?_eq_some_iff.mp hl
  refine List.mem_iff_getElem.mpr ⟨n, by simp [ArrRun.columns, hn, hm], by simp [ArrRun.columns, hw, hl]⟩

/-- Every token row in use and every column adds its result (R80). -/
theorem Tile.wsDone_pend {r : ArrRun} {b : BlockRun} (x : Tile) {a : Nat × Nat} (ha : a ∈ r.rowKeys) {n : Nat} {w : WBlock}
    {l : List (Option Nat)} (hp : (n, w, l) ∈ r.columns b) : r.blockWrite b x.ecc a n w l ∈ (x.wsDone r b).pend := by
  obtain ⟨y, hxy, hrow⟩ := foldl_adds_through (Tile.rowDone_adds r b) ha x
  obtain ⟨z, hyz, hcol⟩ := foldl_adds_through (Tile.columnDone_adds r b a) hp y
  refine hrow.pend _ (hcol.pend _ ?_)
  rw [← hxy.ecc, ← hyz.ecc]
  exact List.mem_append_right _ (List.mem_singleton_self _)

/-! ARRAY_BLOCK_DONE with no SQ16 operation still giving outputs -/

theorem exec_arrayBlockDone {s : State} {t : TileId} (h : s.acts t = true) :
    exec (.arrayBlockDone t) s = .next (s.setTile t (s.tile t).blockDone) := by
  change execArrayBlockDone t s = _
  rw [execArrayBlockDone, if_pos h, State.modTile_eq]

theorem exec_pendingRunStart {s : State} {t : TileId} (h : s.acts t = true) :
    exec (.pendingRunStart t) s = .next (s.setTile t (s.tile t).startPending) := by
  change execPendingRunStart t s = _
  rw [execPendingRunStart, if_pos h, State.modTile_eq]

/-- The SQ16 operations whose last outputs still flow give theirs, and leave once all are out (R79, R85). -/
def Tile.tailsDone (x : Tile) : Tile :=
  { x.tails.foldl Tile.sqOutputs x with
    tails := ((x.tails.foldl Tile.sqOutputs x).tails.map ArrRun.settle).filter fun r => !r.passes.isEmpty }

/-- The running operation's own part of ARRAY_BLOCK_DONE. -/
def Tile.runDone (x : Tile) : Tile :=
  match x.run with
  | none => x
  | some r => if r.mode < 2 then x.nextBlock r else { x.sqOutputs r with run := some r.settle }

theorem Tile.blockDone_eq (x : Tile) : x.blockDone = x.tailsDone.runDone := rfl

theorem Tile.tailsDone_of_nil {x : Tile} (ht : x.tails = []) : x.tailsDone = x := by
  have hnil : (x.tails.map ArrRun.settle).filter (fun r => !r.passes.isEmpty) = x.tails := by rw [ht]; rfl
  have hfold : x.tails.foldl Tile.sqOutputs x = x := by rw [ht]; rfl
  rw [Tile.tailsDone, hfold, hnil]

section
variable {x : Tile} (ht : x.tails = [])
include ht

theorem Tile.blockDone_of_idle (hr : x.run = none) : x.blockDone = x := by
  rw [Tile.blockDone_eq, Tile.tailsDone_of_nil ht, Tile.runDone, hr]

theorem Tile.blockDone_of_ws {r : ArrRun} (hr : x.run = some r) (hm : r.mode < 2) : x.blockDone = x.nextBlock r := by
  rw [Tile.blockDone_eq, Tile.tailsDone_of_nil ht, Tile.runDone, hr]
  exact if_pos hm

theorem Tile.blockDone_of_sq {r : ArrRun} (hr : x.run = some r) (hm : r.mode = 2) :
    x.blockDone = { x.sqOutputs r with run := some r.settle } := by
  rw [Tile.blockDone_eq, Tile.tailsDone_of_nil ht, Tile.runDone, hr]
  exact if_neg (by omega)

end

theorem Tile.nextBlock_early {x : Tile} {r : ArrRun} {b : BlockRun} (hb : r.cur = some b) (h : b.cyc < b.time) :
    x.nextBlock r = x := by
  simp only [Tile.nextBlock, hb, h, if_true]

theorem Tile.nextBlock_last {x : Tile} {r : ArrRun} {b : BlockRun} (hb : r.cur = some b) (h : b.time ≤ b.cyc) :
    x.nextBlock r = { x.wsDone r b with
      run := if r.nxt = none ∧ r.opened = r.runLen then none else some { r with cur := r.nxt, nxt := none } } := by
  simp only [Tile.nextBlock, hb, Nat.not_lt.mpr h, if_false, Bool.and_eq_true, Option.isNone_iff_eq_none, decide_eq_true_eq]

/-! Outputs of SQ16 (R84, R85) -/

/-- The products an output adds: those of the pass's weights and the token row's activations. -/
def Tile.sqProducts (x : Tile) (r : ArrRun) (p : PassRun) (array row n : Nat) : List FVal :=
  productsOf (fmtOf r.wfmt) (fmtOf r.afmt) ((p.w.getD x.wActive).getD n { scale := 0, elems := [] }).elems
    (r.actsOf array (p.p * r.rowsA + row)).elems

theorem ArrRun.sq_eq_four (r : ArrRun) : r.sq = 4 ↔ r.wfmt = 9 := by
  by_cases h : r.wfmt = 9 <;> simp [ArrRun.sq, h]

theorem ArrRun.halfOf_isNone (r : ArrRun) (p : Nat) : (r.halfOf p).isNone = decide (r.halfOf p = none) := by
  cases r.halfOf p <;> rfl

/-- The first half of a K-block leaves its partial; of block 0, ZERO drops the old sum when its result would land. -/
theorem Tile.sqOutput_half (x : Tile) {r : ArrRun} {p : PassRun} (h : r.halfOf p.p = some 0) (array row n : Nat) :
    x.sqOutput r p array row n =
      let k := r.entryOf array row n
      let y := x.setAcc k ((x.cleared k).addProducts (r.wfmt = 9) (x.sqProducts r p array row n))
      if r.zeroes p.p then y.addResult r k (if r.sq = 4 then 20 else 2) none true else y := by
  simp only [Tile.sqOutput, h, Option.some.injEq, Nat.zero_ne_one, if_true, if_false]
  rfl

/-- What an output that completes a block adds its products to (R84): half 1 to the partial of half 0. -/
def Tile.sqBase (x : Tile) (r : ArrRun) (p : PassRun) (k : Nat) : AccEntry :=
  if r.halfOf p.p = some 1 then tget ({} : AccEntry) x.acc k else x.cleared k

/-- A half 1 or a whole block leaves no partial, and its result is on its way. -/
theorem Tile.sqOutput_whole (x : Tile) {r : ArrRun} {p : PassRun} (h : r.halfOf p.p ≠ some 0) (array row n : Nat) :
    x.sqOutput r p array row n =
      let k := r.entryOf array row n
      (x.setAcc k (x.cleared k)).addResult r k (if r.sq = 4 then 20 else 2)
        (some (((x.sqBase r p k).addProducts (r.wfmt = 9) (x.sqProducts r p array row n)).blockResult (r.wfmt = 8)
          (r.actsOf array (p.p * r.rowsA + row)).scale ((p.w.getD x.wActive).getD n { scale := 0, elems := [] }).scale))
        ((r.halfOf p.p).isNone && r.zeroes p.p) := by
  simp only [Tile.sqOutput, h, if_false]
  rfl

theorem Tile.sqOutput_adds (x : Tile) (r : ArrRun) (p : PassRun) (array row n : Nat) : x.Adds (x.sqOutput r p array row n) := by
  by_cases h : r.halfOf p.p = some 0
  · rw [x.sqOutput_half h]
    dsimp only
    split
    · refine Tile.Adds.trans ?_ (Tile.addResult_adds _ _ _ _ _ _)
      exact x.setAcc_adds rfl
    · exact x.setAcc_adds rfl
  · rw [x.sqOutput_whole h]
    exact (x.setAcc_adds rfl).trans (Tile.addResult_adds _ _ _ _ _ _)

theorem Tile.sqOutputs_adds (x : Tile) (r : ArrRun) : x.Adds (x.sqOutputs r) := by
  refine foldl_adds (fun y p => ?_) _ x
  split
  · refine foldl_adds (fun z o => ?_) _ y
    split
    · exact z.sqOutput_adds r p _ _ _
    · exact Tile.Adds.refl z
  · exact Tile.Adds.refl y

theorem squareOutputs : Claims.SquareOutputs := by
  rintro x r p array row n k w a ps rfl rfl rfl rfl
  refine ⟨fun h => ?_, fun h => ⟨?_, ?_⟩⟩
  · rw [x.sqOutput_half h]
    dsimp only
    split <;> exact x.tget_setAcc _ _
  · rw [x.sqOutput_whole h]
    exact x.tget_setAcc _ _
  · rw [x.sqOutput_whole h]
    simp only [Tile.addResult, ArrRun.sq_eq_four, ArrRun.zeroes, ArrRun.halfOf_isNone]
    rfl

/-! The clauses of ARRAY_BLOCK_DONE and PENDING_RUN_START -/

theorem arrayBlockEnds : Claims.ArrayBlockEnds := by
  intro s t hacts ht
  rw [exec_arrayBlockDone hacts]
  refine ⟨fun hr => ?_, fun r b hr hm hb => ⟨fun h => ?_, fun h => ?_⟩, fun r hr hm => ?_⟩
  · rw [Tile.blockDone_of_idle ht hr]
  · rw [Tile.blockDone_of_ws ht hr hm, Tile.nextBlock_early hb h]
  · have hadds := (s.tile t).wsDone_adds r b
    rw [Tile.blockDone_of_ws ht hr hm, Tile.nextBlock_last hb h]
    refine ⟨_, rfl, ?_⟩
    simp only [State.setTile_tile_self]
    refine ⟨trivial, trivial, ?_, hadds.pend, hadds.sum, hadds.pendRun, hadds.mem, hadds.win, hadds.sregs, hadds.vregs⟩
    rintro a ha n w act e l hw hl rfl rfl
    exact Tile.wsDone_pend _ ha (ArrRun.mem_columns hw hl)
  · have hadds := (s.tile t).sqOutputs_adds r
    rw [Tile.blockDone_of_sq ht hr hm]
    refine ⟨_, rfl, ?_⟩
    simp only [State.setTile_tile_self]
    exact ⟨trivial, trivial, hadds.pendRun, hadds.mem, hadds.win, hadds.sregs⟩

theorem Tile.startPending_starts {x : Tile} {r : ArrRun} (hr : x.run = none) (hp : x.pendRun = some r)
    (h : r.mode = 2 ∨ x.tails = []) :
    x.startPending = { x with pendRun := none, run := some (if r.cur = none then { r with cur := r.nxt, nxt := none } else r) } := by
  have hfree : (x.run.isNone && (decide (r.mode = 2) || x.tails.isEmpty)) = true := by simpa [hr] using h
  simp only [Tile.startPending, hp, if_pos hfree, Option.isNone_iff_eq_none]

theorem Tile.startPending_waits {x : Tile}
    (h : x.pendRun = none ∨ x.run ≠ none ∨ ∃ r, x.pendRun = some r ∧ r.mode ≠ 2 ∧ x.tails ≠ []) : x.startPending = x := by
  unfold Tile.startPending
  split
  · rfl
  · rename_i r hp
    refine if_neg ?_
    obtain h | h | ⟨q, hq, hm, ht⟩ := h
    · rw [hp] at h; cases h
    · simp [h]
    · obtain rfl : r = q := Option.some.inj (hp.symm.trans hq)
      simp [hm, ht]

theorem pendingRunStarts : Claims.PendingRunStarts := by
  intro s t hacts
  rw [exec_pendingRunStart hacts]
  exact ⟨fun r hr hp h => by rw [Tile.startPending_starts hr hp h], fun h => by rw [Tile.startPending_waits h]⟩

/-! What joins a running sum (R49 to R52, R74) -/

theorem AccEntry.blockResult_int8 {e : AccEntry} {n : Int} (h : e.part = n * 2 ^ 340) (a w : Nat) :
    e.blockResult true a w = BitVec.ofInt 32 n := by
  have hunit : accUnit.toNat = 340 := rfl
  rw [AccEntry.blockResult, if_pos rfl, h, hunit, Int.mul_ediv_cancel _ (by positivity)]

theorem AccEntry.blockResult_nan_scale (e : AccEntry) {a w : Nat} (h : a = 255 ∨ w = 255) :
    e.blockResult false a w = 0x7FC00000 := by
  have hnan : (e.nan || decide (a = 255) || decide (w = 255) || (e.posInf && e.negInf)) = true := by
    obtain rfl | rfl := h <;> simp
  simp only [AccEntry.blockResult, AccEntry.result, hnan, if_true]
  rfl

theorem AccEntry.blockResult_zero {e : AccEntry} {a w : Nat} (hn : e.nan = false) (hp : e.posInf = false) (hm : e.negInf = false)
    (hz : e.part = 0) (ha : a < 255) (hw : w < 255) : e.blockResult false a w = 0 := by
  have ha' : a ≠ 255 := by omega
  have hw' : w ≠ 255 := by omega
  simp [AccEntry.blockResult, AccEntry.result, hn, hp, hm, hz, ha', hw', roundFp32]

/-- A sum of 32-bit integers kept within their bounds, by cases. -/
theorem saturate_eq (n : Int) : max (-2147483648) (min 2147483647 n)
    = if n < -2147483648 then -2147483648 else if 2147483647 < n then 2147483647 else n := by
  split_ifs <;> omega

theorem blockCompletion : Claims.BlockCompletion := by
  refine ⟨fun e a w => ⟨fun n h => AccEntry.blockResult_int8 h a w, AccEntry.blockResult_nan_scale e,
    AccEntry.blockResult_zero⟩, fun sum v => ⟨?_, rfl⟩, fun x w k r int zero hd => ?_⟩
  · rw [← saturate_eq]
    rfl
  · simp only [Tile.apply, hd, tget_tset_self]
    exact ⟨trivial, trivial, fun j hj => tget_tset_ne _ _ _ hj⟩

/-- Settles O12: a block's end adds results and touches no running sum (`Tile.Adds`), and a result that lands joins one. -/
theorem arrayRunProgress : Obligations.ArrayRunProgress :=
  ⟨arrayBlockEnds, pendingRunStarts, squareOutputs, blockCompletion⟩

end Sys2Proof.Machine
end

section
/-!
SUPPORT. The operations of the array slot on a tile that issues (`Obligations.ArrayOperations`).
-/

namespace Sys2Proof.Machine

/-! What the commands of the array slot call -/

section
variable (s : State) (t : TileId)

theorem exec_arrNop (rsv : BitVec 22) : exec (.arrNop t rsv) s = execArrNop t rsv s := rfl
theorem exec_arrRun (mode : BitVec 2) (aonly keep wbuf : BitVec 1) (sW sK sA : BitVec 5) (rsv : BitVec 2) :
    exec (.arrRun t mode aonly keep wbuf sW sK sA rsv) s = execArrRun t mode aonly keep wbuf sW sK sA rsv s := rfl
theorem exec_arrWin (array buffer : BitVec 1) (row : BitVec 2) (vA sS : BitVec 5) (rsv : BitVec 8) :
    exec (.arrWin t array buffer row vA sS rsv) s = execArrWin t array buffer row vA sS rsv s := rfl

end

/-- A fault of the array slot names the slot and the bundle (R149). -/
theorem Tile.slotPayload_array (x : Tile) : x.slotPayload 1 = 2 ^ 13 + x.bundle := by
  rw [Tile.slotPayload, Nat.one_mul]

/-! ARR.RUN (R77, R79, R127 to R129) -/

/-- Register words and fields that are in place: what is left to check is the range, the pairing and the pending operation. -/
theorem arrRunCheck_fields {mode aonly wbuf sA : Nat} (h : mode < 2 ∧ sA = 0 ∨ mode = 2 ∧ wbuf = 0) (t : TileId) (sW sK : Nat)
    (s : State) :
    arrRunCheck t mode aonly wbuf sW sK sA 0 s =
      if arrRange mode aonly (s.rs t 1 0 sW).toNat (s.rs t 1 1 sK).toNat then some 0x0223
      else if !(pairOk (bits (s.rs t 1 1 sK).toNat 31 28) (bits (s.rs t 1 1 sK).toNat 27 24)) then some 0x0222
      else if (s.tile t).pendRun.isSome then some 0x0221
      else none := by
  have hfields : ¬ ((0 : Nat) ≠ 0 ∨ mode = 3 ∨ (mode = 2 ∧ wbuf = 1) ∨ (mode < 2 ∧ sA ≠ 0)) := by omega
  exact if_neg hfields

/-- An operation runs at once where the pair is free for it, and is pending otherwise. -/
theorem State.issueRun_eq (s : State) (t : TileId) (r : ArrRun) :
    s.issueRun t r = s.setTile t (if (s.tile t).run = none ∧ (r.mode = 2 ∨ (s.tile t).tails = []) then
      { s.tile t with run := some r } else { s.tile t with pendRun := some r }) := by
  simp only [State.issueRun, State.modTile_eq, Bool.and_eq_true, Bool.or_eq_true, decide_eq_true_eq, List.isEmpty_iff,
    Option.isNone_iff_eq_none]

section
variable {s : State} {t : TileId} (hi : s.canIssue t = true) (mode : BitVec 2) (aonly keep wbuf : BitVec 1) (sW sK sA : BitVec 5)
include hi

theorem arrRun_issues
    (hc : arrRunCheck t mode.toNat aonly.toNat wbuf.toNat sW.toNat sK.toNat sA.toNat 0 s = none) :
    exec (.arrRun t mode aonly keep wbuf sW sK sA 0) s = .next (s.issueRun t (arrParams mode.toNat aonly.toNat keep.toNat
      wbuf.toNat (s.rs t 1 0 sW.toNat).toNat (s.rs t 1 1 sK.toNat).toNat (s.rs t 1 2 sA.toNat).toNat (s.tile t).ecc
      (s.tile t).bundle)) := by
  rw [exec_arrRun, execArrRun]
  exact tileOp_effect hi hc _

theorem arrRun_faults {code : Nat}
    (hc : arrRunCheck t mode.toNat aonly.toNat wbuf.toNat sW.toNat sK.toNat sA.toNat 0 s = some code) :
    exec (.arrRun t mode aonly keep wbuf sW sK sA 0) s = .next (s.tileFault t code .program (2 ^ 13 + (s.tile t).bundle)) := by
  rw [exec_arrRun, execArrRun, ← Tile.slotPayload_array]
  exact tileOp_fault hi hc _

end

theorem arrayRunStarts : Claims.ArrayRunStarts := by
  rintro s t mode aonly keep wbuf sW sK sA r hi rfl
  refine ⟨?_, fun hc => ?_, fun hf => ?_⟩
  · rw [exec_arrNop, execArrNop]
    exact tileOp_effect hi (unused_zero s) id
  · rw [arrRun_issues hi _ _ _ _ _ _ _ hc, State.issueRun_eq]
  · have hf' : mode.toNat < 2 ∧ sA.toNat = 0 ∨ mode.toNat = 2 ∧ wbuf.toNat = 0 :=
      hf.imp (.imp_right fun h => by rw [h]; rfl) (.imp_right fun h => by rw [h]; rfl)
    have hcheck := arrRunCheck_fields (aonly := aonly.toNat) hf' t sW.toNat sK.toNat s
    refine ⟨fun hr => ?_, fun hr => ⟨fun hp => ?_, fun hp hq => ?_⟩⟩
    · exact arrRun_faults hi _ _ _ _ _ _ _ (hcheck.trans (if_pos hr))
    · rw [hr, if_neg Bool.false_ne_true] at hcheck
      refine arrRun_faults hi _ _ _ _ _ _ _ (hcheck.trans (if_pos ?_))
      exact congrArg not hp
    · rw [hr, if_neg Bool.false_ne_true] at hcheck
      refine arrRun_faults hi _ _ _ _ _ _ _ ((hcheck.trans (if_neg ?_)).trans (if_pos (Option.isSome_iff_ne_none.mpr hq)))
      exact fun h => Bool.false_ne_true ((congrArg not hp).symm.trans h)

/-! ARR.WIN, ARR.RD and ARR.WR (R74, R81, R130) -/

/-- Writes of one slot with one latency, added one by one, are added together. -/
theorem Tile.foldl_later {α : Type} (slot lat : Nat) (d : α → Dest) (l : List α) (x : Tile) :
    l.foldl (fun y a => y.later slot lat (d a)) x = { x with pend := x.pend ++ l.map fun a =>
      { dest := d a, land := x.ecc + lat - 1, issued := x.ecc, slot := slot } } := by
  induction l generalizing x with
  | nil => simp
  | cons a l ih =>
    rw [List.foldl_cons, ih, List.map_cons, List.append_cons]
    rfl

/-- The entries are in no operation that runs, is pending or still gives outputs, and no result is on its way to one (R130). -/
theorem Tile.entriesBusy_eq_false {x : Tile} {array e : Nat}
    (h : ∀ r, (x.run = some r ∨ x.pendRun = some r ∨ r ∈ x.tails) → r.covers array e = false) (hs : x.summing array e = false) :
    x.entriesBusy array e = false := by
  have hnone : (x.run.toList ++ x.pendRun.toList ++ x.tails).any (·.covers array e) = false := by
    rw [List.any_eq_false]
    intro r hr
    rw [h r (by simpa [or_assoc] using hr)]
    exact Bool.false_ne_true
  rw [Tile.entriesBusy, hnone, hs, Bool.or_self]

theorem Tile.entriesBusy_of_covers {x : Tile} {array e : Nat} {r : ArrRun} (hr : x.run = some r ∨ x.pendRun = some r)
    (h : r.covers array e = true) : x.entriesBusy array e = true := by
  have hsome : (x.run.toList ++ x.pendRun.toList ++ x.tails).any (·.covers array e) = true :=
    List.any_eq_true.mpr ⟨r, by simpa [or_assoc] using hr.imp_right .inl, h⟩
  rw [Tile.entriesBusy, hsome, Bool.true_or]

/-- The check of ARR.RD and the first part of that of ARR.WR: 32 entries from `e` on lie in the array (R127, R130). -/
def arrRdCheck (t : TileId) (imm sI rsv : Nat) (s : State) : Option Nat :=
  if rsv ≠ 0 then some 0x0220 else if s.arrEntry t imm sI + 31 > 1023 then some 0x0223 else none

/-- The check of ARR.WR (R130). -/
def arrWrCheck (t : TileId) (array imm sI rsv : Nat) (s : State) : Option Nat :=
  if rsv ≠ 0 then some 0x0220
  else if s.arrEntry t imm sI + 31 > 1023 then some 0x0223
  else if (s.tile t).entriesBusy array (s.arrEntry t imm sI) then some 0x0221
  else none

/-- What ARR.RD does where it passes its check. -/
def State.arrRead (s : State) (t : TileId) (array e vD : Nat) : State :=
  s.modTile t fun x => x.wV 1 3 vD ((List.range 32).map fun i => (tget ({} : AccEntry) x.acc (array * 1024 + e + i)).sum)

/-- What ARR.WR does where it passes its check. -/
def State.arrWrite (s : State) (t : TileId) (array e vS : Nat) : State :=
  s.modTile t fun x => (List.range 32).foldl (fun y i => y.later 1 1 (.acc (array * 1024 + e + i) ((s.rv t 1 1 vS).getD i 0))) x

theorem exec_arrRd_check (s : State) (t : TileId) (array : BitVec 1) (imm : BitVec 10) (sI vD : BitVec 5) :
    exec (.arrRd t array imm sI vD 0) s = tileOp t 1 (arrRdCheck t imm.toNat sI.toNat 0)
      (fun s => s.arrRead t array.toNat (s.arrEntry t imm.toNat sI.toNat) vD.toNat) s := rfl

theorem exec_arrWr_check (s : State) (t : TileId) (array : BitVec 1) (imm : BitVec 10) (sI vS : BitVec 5) :
    exec (.arrWr t array imm sI vS 0) s = tileOp t 1 (arrWrCheck t array.toNat imm.toNat sI.toNat 0)
      (fun s => s.arrWrite t array.toNat (s.arrEntry t imm.toNat sI.toNat) vS.toNat) s := rfl

theorem State.arrWrite_eq (s : State) (t : TileId) (array e vS : Nat) :
    s.arrWrite t array e vS = s.setTile t { s.tile t with pend := (s.tile t).pend ++ (List.range 32).map fun i =>
      { dest := .acc (array * 1024 + e + i) ((s.rv t 1 1 vS).getD i 0)
        land := (s.tile t).ecc, issued := (s.tile t).ecc, slot := 1 } } := by
  rw [State.arrWrite, State.modTile_eq, Tile.foldl_later]
  rfl

section
variable {s : State} {t : TileId} (imm sI array : Nat)

/-- Past the end of the array both fault with ARRAY_RANGE. -/
theorem arrCheck_range (h : 1023 < s.arrEntry t imm sI + 31) :
    arrRdCheck t imm sI 0 s = some 0x0223 ∧ arrWrCheck t array imm sI 0 s = some 0x0223 :=
  ⟨if_pos h, if_pos h⟩

theorem arrRdCheck_passes (h : s.arrEntry t imm sI + 31 ≤ 1023) : arrRdCheck t imm sI 0 s = none :=
  if_neg (Nat.not_lt.mpr h)

/-- In the array, ARR.WR asks whether the entries are busy. -/
theorem arrWrCheck_busy (h : s.arrEntry t imm sI + 31 ≤ 1023) : arrWrCheck t array imm sI 0 s =
    if (s.tile t).entriesBusy array (s.arrEntry t imm sI) then some 0x0221 else none :=
  if_neg (Nat.not_lt.mpr h)

end

theorem arrWin_effect {s : State} {t : TileId} (hi : s.canIssue t = true) (array buffer : BitVec 1) (row : BitVec 2)
    (vA sS : BitVec 5) :
    exec (.arrWin t array buffer row vA sS 0) s = .next (s.setTile t { s.tile t with pend := (s.tile t).pend ++
      [{ dest := .win (array.toNat * 8 + buffer.toNat * 4 + row.toNat)
           { lanes := (s.rv t 1 0 vA.toNat).map fun w => w.setWidth 16, scale := (s.rs t 1 1 sS.toNat).setWidth 8 }
         land := (s.tile t).ecc, issued := (s.tile t).ecc, slot := 1 }] }) := by
  rw [exec_arrWin, execArrWin]
  refine (tileOp_effect hi (unused_zero s) _).trans ?_
  simp only [BitVec.ofNat_toNat]
  rfl

theorem arrayRegisterTransfers : Claims.ArrayRegisterTransfers := by
  intro s t array hi
  refine ⟨arrWin_effect hi array, ?_⟩
  rintro imm sI v e rfl
  rw [exec_arrRd_check, exec_arrWr_check, ← Tile.slotPayload_array]
  refine ⟨fun h => ?_, fun h => ⟨?_, fun ⟨r, hr, hcov⟩ => ?_, fun hfree hsum => ?_⟩⟩
  · obtain ⟨hrd, hwr⟩ := arrCheck_range imm.toNat sI.toNat array.toNat h
    exact ⟨tileOp_fault hi hrd _, tileOp_fault hi hwr _⟩
  · exact tileOp_effect hi (arrRdCheck_passes imm.toNat sI.toNat h) _
  · exact tileOp_fault hi ((arrWrCheck_busy _ _ _ h).trans (if_pos (Tile.entriesBusy_of_covers hr hcov))) _
  · have hbusy : ¬ (s.tile t).entriesBusy array.toNat (s.arrEntry t imm.toNat sI.toNat) = true :=
      Bool.eq_false_iff.mp (Tile.entriesBusy_eq_false hfree hsum)
    rw [tileOp_effect hi ((arrWrCheck_busy _ _ _ h).trans (if_neg hbusy)), State.arrWrite_eq]
    rfl

/-- Settles O11: each operation passes its check and has its effect, or fails it and faults with the check's code. -/
theorem arrayOperations : Obligations.ArrayOperations := ⟨arrayRunStarts, arrayRegisterTransfers⟩

end Sys2Proof.Machine
end

section
/-!
SUPPORT. The cadence of a cluster and the slots of the scrubber (`Obligations.CadenceAndScrubber`).
-/

namespace Sys2Proof.Machine

/-! What the commands of the cadence and the scrubber call -/

theorem exec_cadenceApply (s : State) (c : Nat) : exec (.cadenceApply c) s = execCadenceApply c s := rfl
theorem exec_scrubSlot (s : State) (t : TileId) (b : Nat) : exec (.scrubSlot t b) s = execScrubSlot t b s := rfl

/-! Keys of a sparse table deleted -/

@[simp] theorem tget_tdel_self {α : Type} (d : α) (l : Tab α) (k : Nat) : tget d (tdel l k) k = d := by
  induction l with
  | nil => rfl
  | cons p r ih =>
    obtain ⟨i, v⟩ := p
    by_cases h : i = k <;> simp_all [tdel, tget]

theorem tget_tdel_ne {α : Type} (d : α) (l : Tab α) {k j : Nat} (h : j ≠ k) : tget d (tdel l k) j = tget d l j := by
  induction l with
  | nil => rfl
  | cons p r ih =>
    obtain ⟨i, v⟩ := p
    by_cases hi : i = k
    · subst hi
      simpa [tdel, tget, Ne.symm h] using ih
    · by_cases hj : i = j <;> simp_all [tdel, tget]

/-! A write-back corrects the words of its line (R159, R161) -/

/-- Word `w` is written back: its single-bit error is gone. -/
def dropSingle (f : Tab Nat) (w : Nat) : Tab Nat := if popcount39 (tget 0 f w) = 1 then tdel f w else f

theorem tget_dropSingle_ne (f : Tab Nat) {v w : Nat} (h : w ≠ v) : tget 0 (dropSingle f v) w = tget 0 f w := by
  unfold dropSingle
  split
  · exact tget_tdel_ne _ _ h
  · rfl

theorem tget_dropSingle_self {f : Tab Nat} {w : Nat} (h : popcount39 (tget 0 f w) = 1) : tget 0 (dropSingle f w) w = 0 := by
  rw [dropSingle, if_pos h, tget_tdel_self]

/-- A word without error stays so. -/
theorem tget_foldl_dropSingle_zero {w : Nat} (l : List Nat) {f : Tab Nat} (h : tget 0 f w = 0) :
    tget 0 (l.foldl dropSingle f) w = 0 := by
  induction l generalizing f with
  | nil => exact h
  | cons v l ih =>
    refine ih ?_
    have hclean : popcount39 0 ≠ 1 := by decide
    by_cases hv : w = v
    · rw [dropSingle, if_neg (by rwa [← hv, h]), h]
    · rw [tget_dropSingle_ne _ hv, h]

/-- A word of the line with a single-bit error is without error once the line is written back. -/
theorem tget_foldl_dropSingle {w : Nat} {l : List Nat} (hw : w ∈ l) {f : Tab Nat} (h : popcount39 (tget 0 f w) = 1) :
    tget 0 (l.foldl dropSingle f) w = 0 := by
  induction l generalizing f with
  | nil => cases hw
  | cons v l ih =>
    by_cases hv : w = v
    · subst hv
      exact tget_foldl_dropSingle_zero l (tget_dropSingle_self h)
    · exact ih ((List.mem_cons.mp hw).resolve_left hv) (by rwa [tget_dropSingle_ne _ hv])

theorem mem_lineWords {l w : Nat} (h : w / 4 = l) : w ∈ lineWords l := by
  refine List.mem_map.mpr ⟨w % 4, List.mem_range.mpr (Nat.mod_lt w (by decide)), ?_⟩
  omega

/-! One slot of a bank (R161) -/

/-- The tile once the slot of bank `b` is taken: the lines written since leave the bank's list. -/
def Tile.slotTaken (x : Tile) (b : Nat) : Tile :=
  { x with slotted := x.slotted ||| BitVec.ofNat 16 (2 ^ b), low := x.low ++ [(b, .scrub)]
           corrList := tset x.corrList b ((tget ([] : List (Nat × Bool)) x.corrList b).filter fun e => !e.2) }

theorem Tile.slotTaken_list (x : Tile) (b : Nat) :
    tget ([] : List (Nat × Bool)) (x.slotTaken b).corrList b = (tget [] x.corrList b).filter fun e => !e.2 :=
  tget_tset_self _ _ _ _

theorem Tile.slotTaken_slotted (x : Tile) {b : Nat} (h : b < 16) : (x.slotTaken b).slotted.getLsbD b = true := by
  have hbit : (BitVec.ofNat 16 (2 ^ b)).getLsbD b = true := by
    rw [BitVec.getLsbD_ofNat, Nat.testBit_two_pow_self, decide_eq_true h, Bool.and_self]
  rw [Tile.slotTaken, BitVec.getLsbD_or, hbit, Bool.or_true]

/-- A slot writes back the bank's first corrected line, or walks where none waits. -/
theorem State.scrubSlot_eq (s : State) (t : TileId) (b : Nat) :
    s.scrubSlot t b = match (tget ([] : List (Nat × Bool)) (s.tile t).corrList b).filter fun e => !e.2 with
      | l :: _ => (s.setTile t ((s.tile t).slotTaken b)).writeBack t b l.1
      | [] => (s.setTile t ((s.tile t).slotTaken b)).walkLine t b := by
  rw [← Tile.slotTaken_list]
  simp only [State.scrubSlot, State.modTile_eq, State.setTile_tile_self]
  rfl

/-- With no stored error a step of the walk only moves on. -/
theorem State.walkLine_clean {s : State} {t : TileId} (h : (s.tile t).flips = []) (b : Nat) :
    s.walkLine t b = s.modTile t fun x => { x with walk := tset x.walk b ((tget 0 x.walk b + 1) % 1024) } := by
  have hclean : ∀ (x : Tile) (w : Nat), x.flips = [] → (x.readNow w).2 = 0 := by
    intro x w hx
    simp only [Tile.readNow, Tile.flipsNow, hx, tget, ite_self]
  rw [State.walkLine]
  rw [State.readWords_clean _ _ _ _ fun w _ => hclean _ w (by rw [State.modTile_tile_self]; exact h)]
  rfl

theorem Tile.slotDue_lt {x y : Tile} {b : Nat} (h : x.slotDue y b = true) : b < 16 := by
  simp only [Tile.slotDue, Bool.and_eq_true, decide_eq_true_eq] at h
  obtain ⟨⟨⟨hb, -⟩, -⟩, -⟩ := h
  exact hb

theorem execScrubSlot_due {s : State} {t : TileId} {b : Nat} (ha : s.acts t = true)
    (hd : (s.tile t).slotDue (s.tile t).arrStep b = true) : exec (.scrubSlot t b) s = .next (s.scrubSlot t b) := by
  simp only [exec_scrubSlot, execScrubSlot, ha, hd, Bool.and_self, if_true]

/-- The slot of a bank with a corrected line waiting writes the first one back. -/
theorem scrubSlot_writesBack {s : State} {t : TileId} {b : Nat} (ha : s.acts t = true)
    (hd : (s.tile t).slotDue (s.tile t).arrStep b = true) {e : Nat × Bool} {r : List (Nat × Bool)}
    (hl : (tget [] (s.tile t).corrList b).filter (fun e => !e.2) = e :: r) :
    ∃ s', exec (.scrubSlot t b) s = .next s' ∧ s' = s.setTile t (s'.tile t) ∧ (s'.tile t).slotted.getLsbD b = true ∧
      tget [] (s'.tile t).corrList b = r.filter (fun k => k.1 ≠ e.1) ∧
      (∀ w, w / 4 = e.1 → popcount39 (tget 0 (s.tile t).flips w) = 1 → tget 0 (s'.tile t).flips w = 0) ∧
      (s'.tile t).mem = (s.tile t).mem := by
  refine ⟨(s.setTile t ((s.tile t).slotTaken b)).writeBack t b e.1, ?_, ?_⟩
  · rw [execScrubSlot_due ha hd, State.scrubSlot_eq, hl]
  · simp only [State.writeBack, State.modTile_eq, State.setTile_tile_self, State.setTile_setTile, tget_tset_self,
      Tile.slotTaken_list, hl]
    refine ⟨trivial, (s.tile t).slotTaken_slotted (Tile.slotDue_lt hd), ?_, fun w hw hp => ?_, rfl⟩
    · simp
    · exact tget_foldl_dropSingle (mem_lineWords hw) hp

/-- The slot of a bank with no line waiting and no error stored moves the walk on. -/
theorem scrubSlot_walks {s : State} {t : TileId} {b : Nat} (ha : s.acts t = true)
    (hd : (s.tile t).slotDue (s.tile t).arrStep b = true)
    (hl : (tget [] (s.tile t).corrList b).filter (fun e => !e.2) = []) (hf : (s.tile t).flips = []) :
    exec (.scrubSlot t b) s = .next (s.setTile t { s.tile t with
      slotted := (s.tile t).slotted ||| BitVec.ofNat 16 (2 ^ b), low := (s.tile t).low ++ [(b, .scrub)]
      corrList := tset (s.tile t).corrList b []
      walk := tset (s.tile t).walk b ((tget 0 (s.tile t).walk b + 1) % 1024) }) := by
  have hclean : ((s.setTile t ((s.tile t).slotTaken b)).tile t).flips = [] := by
    rw [State.setTile_tile_self]
    exact hf
  rw [execScrubSlot_due ha hd, State.scrubSlot_eq, hl]
  dsimp only
  rw [State.walkLine_clean hclean, State.modTile_eq, State.setTile_setTile, State.setTile_tile_self, Tile.slotTaken, hl]

/-! A slot missed (R161, R474) -/

/-- The tile in the 1 s window `win`: the count and the report of an earlier window are gone. -/
def Tile.inMissWindow (x : Tile) (win : Nat) : Tile :=
  if x.missWin = win then x else { x with missWin := win, missed := 0, scrubReported := false }

/-- The state once a missed slot is counted, before it is reported. -/
def State.missCounted (s : State) (t : TileId) : State :=
  s.setTile t { (s.tile t).inMissWindow (s.now / 1000000000) with
    missed := ((s.tile t).inMissWindow (s.now / 1000000000)).missed + 1, scrubReported := true }

/-- A missed slot is counted, and reported where none of its window has been. -/
theorem State.missSlot_cases (s : State) (t : TileId) : ∃ payload, s.missSlot t =
    if ((s.tile t).inMissWindow (s.now / 1000000000)).scrubReported then s.missCounted t
    else (s.missCounted t).raiseTile t 0x0708 2 payload := ⟨_, rfl⟩

theorem State.missSlot_tile (s : State) (t : TileId) : (s.missSlot t).tile t = (s.missCounted t).tile t := by
  obtain ⟨payload, e⟩ := s.missSlot_cases t
  rw [e]
  split
  · rfl
  · rw [State.raiseTile_eventOnly]
    rfl

/-- Settles O22: a slot as the bank taken, then a write-back or a step of the walk, and a missed slot as a count, then a
report. -/
theorem cadenceAndScrubber : Obligations.CadenceAndScrubber := by
  refine ⟨fun s c k hk => ?_, fun s t b => ⟨fun h => ?_, fun ha hd => ⟨fun e r => scrubSlot_writesBack ha hd,
    scrubSlot_walks ha hd⟩, ?_, ?_, fun hw hr => ?_⟩⟩
  · rw [exec_cadenceApply, execCadenceApply, hk]
    exact (apply_ite _ _ _ _).symm
  · rw [exec_scrubSlot, execScrubSlot]
    exact if_neg (by obtain h | h := h <;> simp [h])
  · rw [State.missSlot_tile, State.missCounted, State.setTile_tile_self, Tile.inMissWindow]
    split <;> rfl
  · rw [State.missSlot_tile, State.missCounted, State.setTile_tile_self]
  · have hsame : (s.tile t).inMissWindow (s.now / 1000000000) = s.tile t := if_pos hw
    obtain ⟨payload, e⟩ := s.missSlot_cases t
    rw [e, hsame, if_pos hr]
    rfl

end Sys2Proof.Machine
end

section
/-!
SUPPORT. Rings, fires and evaluations of bells, and the bells of a tide (`Obligations.BellsAndTideBells`).
-/

namespace Sys2Proof.Machine

/-! What the commands of the bells call -/

theorem exec_bellRingArrive (s : State) (t : TileId) (port : Nat) :
    exec (.bellRingArrive t port) s = execBellRingArrive t port s := rfl
theorem exec_bellChannelEvaluate (s : State) (c chan : Nat) :
    exec (.bellChannelEvaluate c chan) s = execBellChannelEvaluate c chan s := rfl
theorem exec_bellFireArrive (s : State) (t : TileId) (port : Nat) :
    exec (.bellFireArrive t port) s = execBellFireArrive t port s := rfl
theorem exec_tideCompleteRing (s : State) (t : TileId) : exec (.tideCompleteRing t) s = execTideCompleteRing t s := rfl
theorem exec_partitionTideComplete (s : State) (p : Nat) :
    exec (.partitionTideComplete p) s = execPartitionTideComplete p s := rfl

/-! The first fault of a tile (R147, R338) -/

/-- The event of a tile outside a job's done tide is counted at once. -/
theorem State.raiseTile_eventCount_lt {s : State} {t : TileId} (h : ∀ p, s.partOf t = some p → s.afterDone p = false)
    (code sev payload : Nat) : s.eventCount < (s.raiseTile t code sev payload).eventCount := by
  unfold State.raiseTile
  split
  · rename_i p hp
    exact State.raiseFault_eventCount_lt _ (.inl (h p hp))
  · exact State.raiseDev_eventCount_lt _ _ _ _ _

section
variable {s : State} {t : TileId} (hf : (s.tile t).faulted = none) (code : Nat) (kind : FaultKind) (payload : Nat)
include hf

/-- A tile's first fault stops its issue and is noted; nothing else of the tile changes. -/
theorem State.tileFault_tile_of_first : (s.tileFault t code kind payload).tile t =
    { s.tile t with issuing := false, held := [], bubble := 0, reports := (s.tile t).reports + 1
                    faulted := if s.inTide t then some { code := code, payload := BitVec.ofNat 64 payload
                                                         bundle := (s.tile t).bundle } else none } := by
  simp only [State.tileFault, hf, Option.isSome_none, Bool.false_eq_true, if_false]
  split
  · rw [State.addCause_tile, State.raiseTile_eventOnly]
    exact State.setTile_tile_self _ _ _
  · rw [State.raiseTile_eventOnly]
    exact State.setTile_tile_self _ _ _

/-- A tile's first fault outside a job's done tide is counted at once. -/
theorem State.tileFault_eventCount_lt (h : ∀ p, s.partOf t = some p → s.afterDone p = false) :
    s.eventCount < (s.tileFault t code kind payload).eventCount := by
  have hraise : ∀ x : Tile, s.eventCount < ((s.setTile t x).raiseTile t code 3 payload).eventCount :=
    fun x => State.raiseTile_eventCount_lt (s := s.setTile t x) h code 3 payload
  simp only [State.tileFault, hf, Option.isSome_none, Bool.false_eq_true, if_false]
  split
  · rw [State.addCause_eventCount]
    exact hraise _
  · exact hraise _

end

/-! Rings (R123, R202) -/

theorem bellRingArrive_counts {s : State} {t : TileId} {port b : Nat} {r : List (Nat × Nat)}
    (hr : (s.tile t).ringsFlying = (port, b) :: r) (h : tget 0 (s.tile t).pendRings port < 255) :
    exec (.bellRingArrive t port) s = .next (s.setTile t { s.tile t with
      ringsFlying := r, pendRings := tset (s.tile t).pendRings port (tget 0 (s.tile t).pendRings port + 1) }) := by
  rw [exec_bellRingArrive, execBellRingArrive, hr]
  simp only [takeFirst, decide_true, if_true, State.modTile_tile_self, Nat.not_le.mpr h, if_false, State.modTile_modTile]
  rfl

theorem bellRingArrive_overflows {s : State} {t : TileId} {port b : Nat} {r : List (Nat × Nat)}
    (hr : (s.tile t).ringsFlying = (port, b) :: r) (h : 255 ≤ tget 0 (s.tile t).pendRings port)
    (hf : (s.tile t).faulted = none) (hp : ∀ p, s.partOf t = some p → s.afterDone p = false) :
    ∃ s', exec (.bellRingArrive t port) s = .next s' ∧ (s'.tile t).issuing = false ∧
      (s'.tile t).pendRings = (s.tile t).pendRings ∧ s'.eventCount > s.eventCount := by
  have hf' : ((s.modTile t fun x => { x with ringsFlying := r }).tile t).faulted = none := by
    rw [State.modTile_tile_self]
    exact hf
  refine ⟨(s.modTile t fun x => { x with ringsFlying := r }).tileFault t 0x0228 .program b, ?_, State.tileFault_stops _ _ _ _ _,
    ?_, State.tileFault_eventCount_lt hf' _ _ _ hp⟩
  · rw [exec_bellRingArrive, execBellRingArrive, hr]
    simp only [takeFirst, decide_true, State.modTile_tile_self, h, if_true]
  · rw [State.tileFault_tile_of_first hf', State.modTile_tile_self]

/-! Cluster channels (R200, R202) -/

/-- A channel with one bound port, of MODE 1, fires that port where a ring of it is pending. -/
theorem bellChannelEvaluate_fires {s : State} {t : TileId} {port c chan : Nat} (hb : s.boundPorts c chan = [(t, port)])
    (hm : chanMode (s.chanWord c chan) = 1) (h : s.ringPending (t, port) = true) :
    exec (.bellChannelEvaluate c chan) s = .next (s.setTile t { s.tile t with
      pendRings := tset (s.tile t).pendRings port (tget 0 (s.tile t).pendRings port - 1)
      firesFlying := (s.tile t).firesFlying ++ [port] }) := by
  have hfire : ((s.useRings [(t, port)]).sendFires [(t, port)]) = s.modTile t fun x =>
      { x with pendRings := tset x.pendRings port (tget 0 x.pendRings port - 1), firesFlying := x.firesFlying ++ [port] } := by
    simp only [State.useRings, State.sendFires, each, List.foldl_cons, List.foldl_nil, State.modTile_modTile]
  rw [exec_bellChannelEvaluate, execBellChannelEvaluate, hb]
  simp only [List.isEmpty_cons, List.all_cons, List.all_nil, h, Bool.and_self, Bool.not_true, Bool.or_self, Bool.false_eq_true,
    if_false, hm, if_true, hfire]
  rfl

theorem bellChannelEvaluate_waits {s : State} {t : TileId} {port c chan : Nat} (hb : s.boundPorts c chan = [(t, port)])
    (h : s.ringPending (t, port) = false) : exec (.bellChannelEvaluate c chan) s = .next s := by
  rw [exec_bellChannelEvaluate, execBellChannelEvaluate, hb]
  exact if_pos (by simp [h])

/-! Fires (R123) -/

/-- A fire arrived: counted below 255; at 255 lost on a tile that absorbs, and a fault on another. -/
theorem exec_bellFireArrive_head {s : State} {t : TileId} {port : Nat} {r : List Nat} (hr : (s.tile t).firesFlying = port :: r) :
    exec (.bellFireArrive t port) s = .next (
      let u := s.setTile t { s.tile t with firesFlying := r }
      if tget 0 (s.tile t).fireCnt port < 255 then
        s.setTile t { s.tile t with firesFlying := r, fireCnt := tset (s.tile t).fireCnt port (tget 0 (s.tile t).fireCnt port + 1) }
      else if u.absorbing t then u else u.tileFault t 0x0228 .program (s.tile t).bundle) := by
  rw [exec_bellFireArrive, execBellFireArrive, hr]
  simp only [takeFirst, decide_true, if_true, State.modTile_eq, State.setTile_tile_self, State.setTile_setTile]
  split
  · rfl
  · split <;> rfl

theorem State.absorbing_of_ended {s : State} {t : TileId} (h : (s.tile t).ended = true) : s.absorbing t = true := by
  rw [State.absorbing, h, Bool.true_or]

theorem bellsRingAndFire : Claims.BellsRingAndFire := by
  intro s t port
  refine ⟨fun b r hr => ⟨bellRingArrive_counts hr, bellRingArrive_overflows hr⟩,
    fun c chan hb hm => ⟨bellChannelEvaluate_fires hb hm, bellChannelEvaluate_waits hb⟩, fun r hr => ⟨fun h => ?_, fun h he => ?_⟩⟩
  · rw [exec_bellFireArrive_head hr]
    exact congrArg _ (if_pos h)
  · have habs : (s.setTile t { s.tile t with firesFlying := r }).absorbing t = true :=
      State.absorbing_of_ended (by rw [State.setTile_tile_self]; exact he)
    rw [exec_bellFireArrive_head hr]
    exact congrArg _ ((if_neg (Nat.not_lt.mpr h)).trans (if_pos habs))

/-! The bells of a tide (R125, R204, R216) -/

/-- The tiles of a list changed by one change that, made twice, is as made once. -/
theorem each_modTile_tile {f : Tile → Tile} (hf : ∀ x, f (f x) = f x) (u : TileId) (l : List TileId) (s : State) :
    (each l (fun t st => st.modTile t f) s).tile u = if u ∈ l then f (s.tile u) else s.tile u := by
  induction l generalizing s with
  | nil => rfl
  | cons t l ih =>
    have hstep : each (t :: l) (fun t st => st.modTile t f) s = each l (fun t st => st.modTile t f) (s.modTile t f) := rfl
    rw [hstep, ih]
    by_cases hu : u = t
    · subst hu
      simp [hf]
    · simp [hu, State.modTile_tile_ne _ _ hu]

/-- The fault bell stops a tile. -/
def Tile.stopped (x : Tile) : Tile := { x with issuing := false, held := [] }

/-- The tiles of a list stopped by a fault bell. -/
def State.stopAll (s : State) (l : List TileId) : State := each l (fun t st => st.modTile t Tile.stopped) s

theorem State.stopAll_tile (s : State) (l : List TileId) (u : TileId) :
    (s.stopAll l).tile u = if u ∈ l then (s.tile u).stopped else s.tile u :=
  each_modTile_tile (f := Tile.stopped) (fun _ => rfl) u l s

theorem State.stopAll_eventCount (s : State) (l : List TileId) : (s.stopAll l).eventCount = s.eventCount :=
  each_eq (f := fun t st => st.modTile t Tile.stopped) (π := State.eventCount) (fun _ _ => rfl) l s

theorem exec_faultBell_rung {s : State} {p : Nat} (h : (s.part p).faultBell = true) : exec (.faultBell p) s
    = .next ((s.stopAll (s.tilesOf p)).modPart p fun q => { q with faultBell := false, halted := true }) :=
  if_pos h

theorem tideBells : Claims.TideBells := by
  refine ⟨fun s t hr => ⟨fun hd ha => ?_, fun h => ?_⟩, fun s p ho hw => ⟨fun h => ?_, fun ⟨t, ht, h⟩ => ?_⟩, fun s p h => ?_⟩
  · rw [exec_tideCompleteRing, execTideCompleteRing]
    exact if_pos (by simp [hd, hr, ha])
  · rw [exec_tideCompleteRing, execTideCompleteRing]
    exact if_neg (by obtain h | h := h <;> simp [h])
  · rw [exec_partitionTideComplete, execPartitionTideComplete]
    exact if_pos (by simpa [ho, hw] using h)
  · rw [exec_partitionTideComplete, execPartitionTideComplete]
    exact if_neg (by simpa [ho, hw] using ⟨t, ht, h⟩)
  · refine ⟨_, exec_faultBell_rung h, ?_⟩
    simp only [State.modPart_part_self, State.modPart_tile, State.modPart_eventCount, State.stopAll_tile,
      State.stopAll_eventCount]
    refine ⟨trivial, trivial, fun t ht => ?_, fun t ht => if_neg ht, trivial⟩
    rw [if_pos ht]
    exact ⟨rfl, rfl, rfl⟩

/-- Settles O23: a ring, an evaluation and a fire as changes of one tile, an overflow as a tile fault, and the fault bell as a
change of every tile of its partition. -/
theorem bellsAndTideBells : Obligations.BellsAndTideBells := ⟨bellsRingAndFire, tideBells⟩

end Sys2Proof.Machine
end

section
/-!
SUPPORT. Entries of tile queues: absorbed, entered, held at the end of a link, and what each leaves alone.
-/

namespace Sys2Proof.Machine

/-! The first of a list -/

theorem takeFirst_none {α : Type} {f : α → Bool} : ∀ {l : List α}, (∀ a ∈ l, f a = false) → takeFirst f l = none
  | [], _ => rfl
  | a :: l, h => by
    have ha : f a = false := h a List.mem_cons_self
    have hl : takeFirst f l = none := takeFirst_none fun b hb => h b (List.mem_cons_of_mem a hb)
    simp only [takeFirst, ha, hl, Bool.false_eq_true, if_false, Option.map_none]

/-! What moving entries leaves alone -/

/-- No tile's link messages, scratchpad or scalar registers change. -/
structure EntryFrame (s s' : State) : Prop where
  out : ∀ v, (s'.tile v).out = (s.tile v).out
  mem : ∀ v, (s'.tile v).mem = (s.tile v).mem
  sregs : ∀ v, (s'.tile v).sregs = (s.tile v).sregs

theorem EntryFrame.refl (s : State) : EntryFrame s s := ⟨fun _ => rfl, fun _ => rfl, fun _ => rfl⟩

theorem EntryFrame.trans {s u v : State} (h : EntryFrame s u) (k : EntryFrame u v) : EntryFrame s v :=
  ⟨fun t => (k.out t).trans (h.out t), fun t => (k.mem t).trans (h.mem t), fun t => (k.sregs t).trans (h.sregs t)⟩

theorem EntryFrame.ite {s u v : State} {b : Prop} [Decidable b] (h : EntryFrame s u) (k : EntryFrame s v) :
    EntryFrame s (if b then u else v) := by split <;> assumption

/-- A change of one tile that leaves these alone. -/
theorem EntryFrame.modTile (s : State) (t : TileId) {f : Tile → Tile}
    (hf : ∀ x, (f x).out = x.out ∧ (f x).mem = x.mem ∧ (f x).sregs = x.sregs) : EntryFrame s (s.modTile t f) := by
  have h {β : Type} {π : Tile → β} (hπ : ∀ x, π (f x) = π x) (v : TileId) : π ((s.modTile t f).tile v) = π (s.tile v) := by
    by_cases hv : v = t
    · rw [hv, State.modTile_tile_self, hπ]
    · rw [State.modTile_tile_ne _ _ hv]
  refine ⟨h fun x => ?_, h fun x => ?_, h fun x => ?_⟩ <;> obtain ⟨ho, hm, hr⟩ := hf x <;> assumption

theorem State.modQueue_frame (s : State) (t : TileId) (n : Nat) (f : Queue → Queue) : EntryFrame s (s.modQueue t n f) :=
  EntryFrame.modTile s t fun _ => ⟨rfl, rfl, rfl⟩

theorem State.entryDone_frame (s : State) (u : TileId) : EntryFrame s (s.entryDone u) :=
  EntryFrame.ite (EntryFrame.modTile s u fun _ => ⟨rfl, rfl, rfl⟩) (EntryFrame.refl s)

theorem State.signalLink_frame (s : State) (t : TileId) (dir k : Nat) : EntryFrame s (s.signalLink t dir k) := by
  unfold State.signalLink
  split
  · exact EntryFrame.refl s
  · exact EntryFrame.modTile s _ fun _ => ⟨rfl, rfl, rfl⟩

theorem State.noteAbsorbed_frame (s : State) (t : TileId) : EntryFrame s (s.noteAbsorbed t) :=
  ⟨fun _ => rfl, fun _ => rfl, fun _ => rfl⟩

theorem State.absorb_frame (s : State) (t : TileId) (n : Nat) (e : QEntry) : EntryFrame s (s.absorb t n e) := by
  unfold State.absorb
  dsimp only
  refine EntryFrame.trans (EntryFrame.ite (EntryFrame.trans ?_ (State.noteAbsorbed_frame _ t)) ?_) (State.entryDone_frame _ _)
  · exact State.modQueue_frame s t n _
  · exact State.modQueue_frame s t n _

theorem State.enter_frame (s : State) (t : TileId) (n k : Nat) (e : QEntry) : EntryFrame s (s.enter t n k e) := by
  unfold State.enter
  dsimp only
  refine EntryFrame.trans (EntryFrame.trans ?_ (State.modQueue_frame _ _ _ _)) (State.entryDone_frame _ _)
  exact EntryFrame.modTile s t fun _ => ⟨rfl, rfl, rfl⟩

theorem State.holdAt_frame (s : State) (t : TileId) (n k : Nat) (e : QEntry) : EntryFrame s (s.holdAt t n k e) := by
  refine EntryFrame.ite (EntryFrame.trans ?_ (State.signalLink_frame _ _ _ _)) ?_
  · exact EntryFrame.modTile s t fun _ => ⟨rfl, rfl, rfl⟩
  · exact EntryFrame.modTile s t fun _ => ⟨rfl, rfl, rfl⟩

theorem State.putBack_frame (s : State) (t : TileId) (n k : Nat) : EntryFrame s (s.putBack t n k) := by
  unfold State.putBack
  split
  · exact EntryFrame.refl s
  · rename_i e _
    have hback : EntryFrame s ((s.modTile t fun x => { x with fresh := x.fresh.erase (n, k) }).modQueue t n
        fun q => { q with entries := q.entries.dropLast }) := by
      refine EntryFrame.trans ?_ (State.modQueue_frame _ _ _ _)
      exact EntryFrame.modTile s t fun _ => ⟨rfl, rfl, rfl⟩
    refine EntryFrame.trans (EntryFrame.ite (EntryFrame.trans hback ?_) hback) (State.holdAt_frame _ _ _ _ _)
    exact EntryFrame.modTile _ e.sender fun _ => ⟨rfl, rfl, rfl⟩

theorem State.makeRoom_frame (s : State) (t : TileId) (n k need : Nat) : EntryFrame s (s.makeRoom t n k need) := by
  refine each_induction (P := EntryFrame s) (fun r u hu => ?_) _ s (EntryFrame.refl s)
  exact EntryFrame.ite (hu.trans (u.putBack_frame t n r)) hu

theorem State.linkEntry_frame (s : State) (t : TileId) (dir n : Nat) (e : QEntry) : EntryFrame s (s.linkEntry t dir n e) :=
  EntryFrame.ite (s.absorb_frame t n _) (EntryFrame.ite ((s.makeRoom_frame t n dir _).trans (State.enter_frame _ _ _ _ _))
    (s.holdAt_frame t n dir _))

/-! An entry no longer in flight (R125, R174) -/

/-- Only the sender's count of entries in flight changes. -/
theorem State.entryDone_tile (s : State) (u v : TileId) : (s.entryDone u).tile v = { s.tile v with
    entriesFlying := (s.tile v).entriesFlying - if v = u ∧ u < 80640 then 1 else 0 } := by
  unfold State.entryDone
  by_cases hu : u < 80640
  · rw [if_pos hu]
    by_cases hv : v = u
    · subst hv
      rw [State.modTile_tile_self, if_pos ⟨rfl, hu⟩]
    · rw [State.modTile_tile_ne _ _ hv, if_neg fun h => hv h.1]
      rfl
  · rw [if_neg hu, if_neg fun h => hu h.2]
    rfl

@[simp] theorem State.entryDone_arrived (s : State) (u : TileId) : (s.entryDone u).arrived = s.arrived := by
  unfold State.entryDone
  split <;> rfl

/-! An entry absorbed (R174, R175) -/

/-- A queue that counts an absorbed entry and notes why: ended, down or disabled. -/
def Queue.absorbOne (q : Queue) (ended down : Bool) : Queue :=
  if ended then { q with absorbed := q.absorbed + 1, ended := true }
  else if down then { q with absorbed := q.absorbed + 1, reset := true }
  else { q with absorbed := q.absorbed + 1, disabled := true }

theorem Queue.absorbOne_absorbed (q : Queue) (ended down : Bool) : (q.absorbOne ended down).absorbed = q.absorbed + 1 := by
  cases ended <;> cases down <;> rfl

theorem Queue.absorbOne_entries (q : Queue) (ended down : Bool) : (q.absorbOne ended down).entries = q.entries := by
  cases ended <;> cases down <;> rfl

/-- Of the tiles, the absorbing one counts the entry in its queue, and the sender has it no longer in flight. -/
theorem State.absorb_tile (s : State) (t : TileId) (n : Nat) (e : QEntry) (v : TileId) : (s.absorb t n e).tile v
    = ((s.modQueue t n fun q => q.absorbOne (s.tile t).ended (s.down t)).entryDone e.sender).tile v := by
  rw [State.entryDone_tile, State.absorb, State.entryDone_tile]
  by_cases hd : s.down t = true
  · rw [if_pos hd]
    rfl
  · rw [if_neg hd]
    rfl

theorem State.modQueue_tile_self (s : State) (t : TileId) (n : Nat) (f : Queue → Queue) :
    (s.modQueue t n f).tile t = { s.tile t with queues := tset (s.tile t).queues n (f ((s.tile t).queue n)) } :=
  State.modTile_tile_self _ _ _

theorem State.absorb_queue (s : State) (t : TileId) (n : Nat) (e : QEntry) :
    (((s.absorb t n e).tile t).queue n).absorbed = ((s.tile t).queue n).absorbed + 1 ∧
      (((s.absorb t n e).tile t).queue n).entries = ((s.tile t).queue n).entries := by
  have hq : ((s.absorb t n e).tile t).queue n = ((s.tile t).queue n).absorbOne (s.tile t).ended (s.down t) := by
    rw [State.absorb_tile, State.entryDone_tile, State.modQueue_tile_self]
    exact tget_tset_self _ _ _ _
  rw [hq]
  exact ⟨Queue.absorbOne_absorbed _ _ _, Queue.absorbOne_entries _ _ _⟩

/-- The sender of an absorbed entry, another tile, has one entry less in flight. -/
theorem State.absorb_sender (s : State) {t : TileId} (n : Nat) {e : QEntry} (hne : e.sender ≠ t) (hlt : e.sender < 80640) :
    ((s.absorb t n e).tile e.sender).entriesFlying = (s.tile e.sender).entriesFlying - 1 := by
  rw [State.absorb_tile, State.entryDone_tile, if_pos ⟨rfl, hlt⟩, State.modQueue, State.modTile_tile_ne _ _ hne]

@[simp] theorem State.absorb_arrived (s : State) (t : TileId) (n : Nat) (e : QEntry) : (s.absorb t n e).arrived = s.arrived := by
  rw [State.absorb, State.entryDone_arrived]
  split <;> rfl

/-! An entry in its queue (R169, R170) -/

/-- A queue with an entry put in before its last `late` ones. -/
def Queue.insert (q : Queue) (late : Nat) (e : QEntry) : Queue :=
  { q with entries := q.entries.take (q.entries.length - late) ++ [e] ++ q.entries.drop (q.entries.length - late)
           lastSender := if late = 0 then some e.sender else q.lastSender }

/-- The tile whose queue an entry has entered, but for what it sends itself. -/
def Tile.entered (x : Tile) (n k : Nat) (e : QEntry) : Tile :=
  { x.freshWords n e.words.length with
    fresh := x.fresh ++ [(n, k)], queues := tset x.queues n ((x.queue n).insert (x.laterThan n k).length e) }

theorem State.enter_eq (s : State) (t : TileId) (n k : Nat) (e : QEntry) :
    s.enter t n k e = (s.setTile t ((s.tile t).entered n k e)).entryDone e.sender := by
  simp only [State.enter, State.modQueue, State.modTile_modTile]
  rfl

theorem State.enter_tile_self (s : State) (t : TileId) (n k : Nat) (e : QEntry) : ∃ fly,
    (s.enter t n k e).tile t = { (s.tile t).entered n k e with entriesFlying := fly } := by
  rw [State.enter_eq, State.entryDone_tile, State.setTile_tile_self]
  exact ⟨_, rfl⟩

/-- Its entry comes before those of the same cycle that come after its place. -/
theorem State.enter_queue (s : State) (t : TileId) (n k : Nat) (e : QEntry) :
    ((s.enter t n k e).tile t).queue n = ((s.tile t).queue n).insert ((s.tile t).laterThan n k).length e := by
  obtain ⟨fly, h⟩ := s.enter_tile_self t n k e
  rw [h]
  exact tget_tset_self _ _ _ _

/-- With none of the same cycle after its place, it comes last. -/
theorem State.enter_entries_last {s : State} {t : TileId} {n k : Nat} (h : (s.tile t).laterThan n k = []) (e : QEntry) :
    (((s.enter t n k e).tile t).queue n).entries = ((s.tile t).queue n).entries ++ [e] := by
  rw [State.enter_queue, h]
  simp [Queue.insert]

theorem State.enter_hold (s : State) (t : TileId) (n k : Nat) (e : QEntry) :
    ((s.enter t n k e).tile t).hold = (s.tile t).hold := by
  obtain ⟨fly, h⟩ := s.enter_tile_self t n k e
  rw [h]
  rfl

theorem State.enter_ingress (s : State) (t : TileId) (n k : Nat) (e : QEntry) :
    ((s.enter t n k e).tile t).ingress = (s.tile t).ingress := by
  obtain ⟨fly, h⟩ := s.enter_tile_self t n k e
  rw [h]
  rfl

/-- The sender of an entered entry, another tile, has one entry less in flight. -/
theorem State.enter_sender (s : State) {t : TileId} (n k : Nat) {e : QEntry} (hne : e.sender ≠ t) (hlt : e.sender < 80640) :
    ((s.enter t n k e).tile e.sender).entriesFlying = (s.tile e.sender).entriesFlying - 1 := by
  rw [State.enter_eq, State.entryDone_tile, if_pos ⟨rfl, hlt⟩, State.setTile_tile_ne _ _ hne]

@[simp] theorem State.enter_arrived (s : State) (t : TileId) (n k : Nat) (e : QEntry) : (s.enter t n k e).arrived = s.arrived := by
  rw [State.enter_eq, State.entryDone_arrived, State.setTile_arrived]

/-! Room (R170) -/

/-- With room free no entry goes back. -/
theorem State.makeRoom_of_room {s : State} {t : TileId} {n need : Nat} (h : need ≤ (s.tile t).qRoom n) (k : Nat) :
    s.makeRoom t n k need = s := by
  refine each_induction (P := fun u => u = s) (fun r u hu => ?_) _ s rfl
  subst hu
  exact if_neg (Nat.not_lt.mpr h)

theorem State.enterAt_of_room {s : State} {t : TileId} {n : Nat} {e : QEntry} (h : e.words.length ≤ (s.tile t).qRoom n) (k : Nat) :
    s.enterAt t n k e = s.enter t n k e := by
  rw [State.enterAt, State.makeRoom_of_room h]

theorem Tile.qRoom_le_roomAt (x : Tile) (n k : Nat) : x.qRoom n ≤ x.roomAt n k := Nat.le_add_right _ _

/-! An entry held at the end of a link (R171) -/

/-- A signal reaches one tile's list of signals, and nothing else. -/
theorem State.signalLink_tile (s : State) (t : TileId) (dir k : Nat) (v : TileId) : ∃ sig,
    (s.signalLink t dir k).tile v = { s.tile v with sigFlying := sig } := by
  unfold State.signalLink
  split
  · exact ⟨_, rfl⟩
  · rename_i u _
    by_cases hv : v = u
    · subst hv
      rw [State.modTile_tile_self]
      exact ⟨_, rfl⟩
    · rw [State.modTile_tile_ne _ _ hv]
      exact ⟨_, rfl⟩

theorem State.holdAt_tile_self (s : State) (t : TileId) (n : Nat) {k : Nat} (h : k < 4) (e : QEntry) : ∃ sig,
    (s.holdAt t n k e).tile t
      = { s.tile t with hold := tset (s.tile t).hold k ((n, e) :: tget [] (s.tile t).hold k), sigFlying := sig } := by
  obtain ⟨sig, hsig⟩ := State.signalLink_tile
    (s.modTile t fun x => { x with hold := tset x.hold k ((n, e) :: tget [] x.hold k) }) t k 0 t
  rw [State.holdAt, if_pos h, hsig, State.modTile_tile_self]
  exact ⟨sig, rfl⟩

/-! An entry at the end of its link (R171, R174) -/

section
variable {s : State} {t : TileId} {n : Nat} {e : QEntry} (dir : Nat)

theorem State.linkEntry_absorbs (h : s.absorbing t = true) : s.linkEntry t dir n e = s.absorb t n { e with link := dir } :=
  if_pos h

theorem State.linkEntry_enters (h : s.absorbing t = false) (hen : (s.tile t).qEn n = true)
    (hr : e.words.length ≤ (s.tile t).qRoom n) : s.linkEntry t dir n e = s.enter t n dir { e with link := dir } := by
  have hroom : (s.tile t).roomAt n dir ≥ e.words.length := hr.trans ((s.tile t).qRoom_le_roomAt n dir)
  simp only [State.linkEntry, h, hen, hroom, decide_true, Bool.and_self, Bool.false_eq_true, if_true, if_false]
  exact State.enterAt_of_room (e := { e with link := dir }) hr dir

theorem State.linkEntry_holds (h : s.absorbing t = false) (hr : (s.tile t).roomAt n dir < e.words.length) :
    s.linkEntry t dir n e = s.holdAt t n dir { e with link := dir } := by
  simp only [State.linkEntry, h, Nat.not_le.mpr hr, decide_false, Bool.and_false, Bool.false_eq_true, if_false]

end

end Sys2Proof.Machine
end

section
/-!
SUPPORT. Entries that arrive over a neighbour link, held entries, credits and signals (`Obligations.LinkEntriesAndSignals`).
-/

namespace Sys2Proof.Machine

/-! What the commands of the links call -/

theorem exec_linkTransferArrive (s : State) (t : TileId) (dir flips : Nat) :
    exec (.linkTransferArrive t dir flips) s = execLinkTransferArrive t dir flips s := rfl
theorem exec_heldEntryEnter (s : State) (t : TileId) (dir : Nat) :
    exec (.heldEntryEnter t dir) s = execHeldEntryEnter t dir s := rfl
theorem exec_creditReturn (s : State) (t : TileId) (dir q : Nat) :
    exec (.creditReturn t dir q) s = execCreditReturn t dir q s := rfl
theorem exec_holdSignalArrive (s : State) (t : TileId) (dir : Nat) :
    exec (.holdSignalArrive t dir) s = execHoldSignalArrive t dir s := rfl
theorem exec_releaseSignalArrive (s : State) (t : TileId) (dir : Nat) :
    exec (.releaseSignalArrive t dir) s = execReleaseSignalArrive t dir s := rfl
theorem exec_absorbSignalArrive (s : State) (t : TileId) (dir : Nat) :
    exec (.absorbSignalArrive t dir) s = execAbsorbSignalArrive t dir s := rfl

/-! One cycle of a link (R171, R179) -/

/-- No mover write is on the link from `u`: its bytes carry nothing further. -/
theorem State.writePass_of_entries {s : State} {u : TileId} {dir : Nat}
    (h : ∀ m ∈ tget [] (s.tile u).out (opposite dir), isEntry m = true) (t : TileId) (flips : Nat) :
    s.writePass t u dir flips = s := by
  have hnone : takeFirst isLinkWrite (tget [] (s.tile u).out (opposite dir)) = none :=
    takeFirst_none fun m hm => by rw [isLinkWrite, h m hm, Bool.not_true]
  simp only [State.writePass, State.writeLen, hnone]

/-- The first entry from `u` has left the link, which leaves `r` behind and has carried `w` words. -/
def State.entryTaken (s : State) (t u : TileId) (dir w : Nat) (r : List LinkMsg) : State :=
  (s.modTile u fun y => { y with out := tset y.out (opposite dir) r }).modTile t fun y => y.useLink dir 1 (4 * w)

section
variable {s : State} {t u : TileId} (hut : u ≠ t) (dir w : Nat) (r : List LinkMsg)
include hut

theorem State.entryTaken_receiver : (s.entryTaken t u dir w r).tile t = (s.tile t).useLink dir 1 (4 * w) := by
  rw [State.entryTaken, State.modTile_tile_self, State.modTile_tile_ne _ _ hut.symm]

theorem State.entryTaken_sender : (s.entryTaken t u dir w r).tile u
    = { s.tile u with out := tset (s.tile u).out (opposite dir) r } := by
  rw [State.entryTaken, State.modTile_tile_ne _ _ hut, State.modTile_tile_self]

theorem State.entryTaken_absorbing : (s.entryTaken t u dir w r).absorbing t = s.absorbing t := by
  simp only [State.absorbing, State.down, State.entryTaken_receiver hut]
  rfl

end

section
variable {s : State} {t u : TileId} {dir n : Nat} {e : QEntry} {r : List LinkMsg}
  (hout : tget [] (s.tile u).out (opposite dir) = .entry n e :: r)
include hout

/-- A link that has carried an entry in the cycle carries no other (R179). -/
theorem State.entryPass_busy (huse : (tget (0, 0) (s.tile t).linkUse dir).1 ≠ 0) (hd : s.down t = false) (flips : Nat) :
    s.entryPass t u dir flips = (s, false) := by
  have hfree : (s.tile t).linkFree dir (4 * e.words.length) = false := by simp [Tile.linkFree, huse]
  simp only [State.entryPass, hout, takeFirst, isEntry, if_true, hd, hfree, Bool.or_self, Bool.not_false, Bool.or_true,
    Bool.true_or]

/-- An unharmed entry passes where none is held, none has passed in the cycle, and none that comes first is ready. -/
theorem State.entryPass_passes (hhold : tget [] (s.tile t).hold dir = []) (huse : tget (0, 0) (s.tile t).linkUse dir = (0, 0))
    (hready : s.absorbing t = true ∨ (s.tile t).qRoom n < e.words.length ∨ (s.tile t).readyBefore n dir = false)
    (hlen : e.words.length ≤ 4) :
    s.entryPass t u dir 0 = ((s.entryTaken t u dir e.words.length r).linkEntry t dir n e, true) := by
  have hfree : (s.tile t).linkFree dir (4 * e.words.length) = true := by
    have hbytes : 4 * e.words.length ≤ 32 := by omega
    simp [Tile.linkFree, huse, hbytes]
  have hpass : (!(s.absorbing t) && decide (e.words.length ≤ (s.tile t).qRoom n) && (s.tile t).readyBefore n dir) = false := by
    obtain h | h | h := hready
    · simp [h]
    · simp [Nat.not_le.mpr h]
    · simp [h]
  simp only [State.entryPass, hout, takeFirst, isEntry, if_true, hhold, hfree, hpass, List.isEmpty_nil, Bool.or_true,
    Bool.not_true, Bool.or_self, Bool.false_eq_true, if_false, State.linkWord]
  rfl

end

section
variable {s : State} {t u : TileId} {dir n : Nat} {e : QEntry} {r : List LinkMsg} (hn : s.neighbour t dir = some u)
  (ha : s.portsAct t = true) (hout : tget [] (s.tile u).out (opposite dir) = .entry n e :: r)
  (hr : ∀ m ∈ r, isEntry m = true)
include hn ha hout hr

theorem linkTransferArrive_busy (huse : (tget (0, 0) (s.tile t).linkUse dir).1 ≠ 0) (hd : s.down t = false) :
    exec (.linkTransferArrive t dir 0) s = .next s := by
  have hall : ∀ m ∈ tget [] (s.tile u).out (opposite dir), isEntry m = true := by
    rw [hout]
    exact List.forall_mem_cons.mpr ⟨rfl, hr⟩
  simp only [exec_linkTransferArrive, execLinkTransferArrive, hn, ha, if_true, State.entryPass_busy hout huse hd,
    State.writePass_of_entries hall]

/-- The entry that passes leaves its link and goes where `linkEntry` puts it. -/
theorem linkTransferArrive_passes (hut : u ≠ t) (hhold : tget [] (s.tile t).hold dir = [])
    (huse : tget (0, 0) (s.tile t).linkUse dir = (0, 0))
    (hready : s.absorbing t = true ∨ (s.tile t).qRoom n < e.words.length ∨ (s.tile t).readyBefore n dir = false)
    (hlen : e.words.length ≤ 4) :
    exec (.linkTransferArrive t dir 0) s = .next ((s.entryTaken t u dir e.words.length r).linkEntry t dir n e) ∧
      tget [] (((s.entryTaken t u dir e.words.length r).linkEntry t dir n e).tile u).out (opposite dir) = r := by
  have hleft : tget [] (((s.entryTaken t u dir e.words.length r).linkEntry t dir n e).tile u).out (opposite dir) = r := by
    rw [(State.linkEntry_frame _ t dir n e).out, State.entryTaken_sender hut]
    exact tget_tset_self _ _ _ _
  refine ⟨?_, hleft⟩
  simp only [exec_linkTransferArrive, execLinkTransferArrive, hn, ha, if_true,
    State.entryPass_passes hout hhold huse hready hlen]
  rw [State.writePass_of_entries (by rwa [hleft])]

end

theorem linkEntryArrival : Claims.LinkEntryArrival := by
  intro s t u dir n e r hn hut hdir ha hhold hout hr hready hsender hlt hlen
  refine ⟨linkTransferArrive_busy hn ha hout hr, fun huse => ?_⟩
  obtain ⟨hexec, hleft⟩ := linkTransferArrive_passes hn ha hout hr hut hhold huse hready hlen
  have hx := State.entryTaken_receiver (s := s) hut dir e.words.length r
  have hy := State.entryTaken_sender (s := s) hut dir e.words.length r
  have habsorb := State.entryTaken_absorbing (s := s) hut dir e.words.length r
  have hframe := (s.entryTaken t u dir e.words.length r).linkEntry_frame t dir n e
  generalize s.entryTaken t u dir e.words.length r = v at *
  subst hsender
  refine ⟨_, hexec, hleft, fun h => ?_, fun h hen hroom => ?_, fun h hroom => ?_, ?_, ?_⟩
  · rw [State.linkEntry_absorbs dir (habsorb.trans h)]
    obtain ⟨habs, hent⟩ := v.absorb_queue t n { e with link := dir }
    have hsent := v.absorb_sender n (e := { e with link := dir }) hut hlt
    rw [hx] at habs hent
    rw [hy] at hsent
    exact ⟨habs, hent, hsent⟩
  · have hroom' : e.words.length ≤ (v.tile t).qRoom n := by
      rw [hx]
      exact hroom
    rw [State.linkEntry_enters dir (habsorb.trans h) (by rw [hx]; exact hen) hroom']
    have hsent := v.enter_sender n dir (e := { e with link := dir }) hut hlt
    rw [hy] at hsent
    rw [State.enter_queue, hx]
    exact ⟨rfl, fun hlate => if_pos (List.length_eq_zero_iff.mpr hlate), hsent⟩
  · rw [State.linkEntry_holds dir (habsorb.trans h) (by rw [hx]; exact hroom)]
    obtain ⟨sig, hsig⟩ := v.holdAt_tile_self t n hdir { e with link := dir }
    have hnone : tget [] (v.tile t).hold dir = [] := by
      rw [hx]
      exact hhold
    rw [hsig, hnone]
    refine ⟨tget_tset_self _ _ _ _, ?_⟩
    rw [hx]
    rfl
  · rw [hframe.mem, hx]
    rfl
  · rw [hframe.sregs, hx]
    rfl

/-! A held entry (R170, R171) -/

/-- The entry held at the end of link `dir` has left its place, and the far tile is told. -/
def State.holdCleared (s : State) (t : TileId) (dir : Nat) : State :=
  (s.modTile t fun x => { x with hold := tset x.hold dir ((tget [] x.hold dir).drop 1) }).signalLink t dir 1

theorem State.holdCleared_tile_self (s : State) (t : TileId) (dir : Nat) : ∃ sig, (s.holdCleared t dir).tile t
    = { s.tile t with hold := tset (s.tile t).hold dir ((tget [] (s.tile t).hold dir).drop 1), sigFlying := sig } := by
  obtain ⟨sig, hsig⟩ := State.signalLink_tile
    (s.modTile t fun x => { x with hold := tset x.hold dir ((tget [] x.hold dir).drop 1) }) t dir 1 t
  rw [State.holdCleared, hsig, State.modTile_tile_self]
  exact ⟨sig, rfl⟩

section
variable {s : State} {t : TileId} {dir n : Nat} {e : QEntry} (hhold : tget [] (s.tile t).hold dir = [(n, e)])
  (habs : s.absorbing t = false)
include hhold habs

theorem heldEntryEnter_enters (ha : s.portsAct t = true) (hroom : e.words.length ≤ (s.tile t).qRoom n)
    (hready : (s.tile t).readyBefore n dir = false) :
    exec (.heldEntryEnter t dir) s = .next ((s.holdCleared t dir).enter t n dir e) := by
  have hat : (s.tile t).roomAt n dir ≥ e.words.length := hroom.trans ((s.tile t).qRoom_le_roomAt n dir)
  have hroom' : e.words.length ≤ ((s.holdCleared t dir).tile t).qRoom n := by
    obtain ⟨sig, h⟩ := s.holdCleared_tile_self t dir
    rw [h]
    exact hroom
  rw [← State.enterAt_of_room hroom']
  simp only [exec_heldEntryEnter, execHeldEntryEnter, hhold, ha, habs, hat, hready, decide_true, Bool.not_true, Bool.not_false,
    Bool.and_self, Bool.false_eq_true, if_true, if_false]
  rfl

theorem heldEntryEnter_waits (h : (s.tile t).roomAt n dir < e.words.length ∨ (s.tile t).readyBefore n dir = true) :
    exec (.heldEntryEnter t dir) s = .next s := by
  have hno : (decide ((s.tile t).roomAt n dir ≥ e.words.length) && !((s.tile t).readyBefore n dir)) = false := by
    obtain h | h := h
    · simp [h]
    · simp [h]
  simp only [exec_heldEntryEnter, execHeldEntryEnter, hhold, habs, hno, Bool.false_eq_true, if_false, ite_self]

end

/-! Signals (R171, R174) -/

/-- The first signal in flight of its link and kind, taken in an enabled cycle. -/
theorem State.signalAt_head {s : State} {t : TileId} {dir k : Nat} {r : List (Nat × Nat)} (ha : s.portsAct t = true)
    (h : (s.tile t).sigFlying = (dir, k) :: r) : s.signalAt t dir k = some (s.modTile t fun x => { x with sigFlying := r }) := by
  simp only [State.signalAt, ha, State.takeSignal, h, takeFirst, decide_true, Bool.and_self, if_true]

theorem linkSignalsAndCredits : Claims.LinkSignalsAndCredits := by
  intro s t dir hdir ha
  refine ⟨fun n e hhold habs => ⟨fun hroom hready => ?_, heldEntryEnter_waits hhold habs⟩, fun q w r h => ?_, fun r h => ?_,
    fun r h => ?_, fun r h => ?_⟩
  · refine ⟨_, heldEntryEnter_enters hhold habs ha hroom hready, ?_⟩
    obtain ⟨sig, hx⟩ := s.holdCleared_tile_self t dir
    rw [State.enter_hold, State.enter_queue, hx, hhold]
    exact ⟨tget_tset_self _ _ _ _, rfl⟩
  · simp only [exec_creditReturn, execCreditReturn, h, takeFirst, decide_true, if_true, ha]
    rfl
  · simp only [exec_holdSignalArrive, execHoldSignalArrive, State.signalAt_head ha h, State.modTile_modTile]
    rfl
  · simp only [exec_releaseSignalArrive, execReleaseSignalArrive, State.signalAt_head ha h, State.modTile_modTile]
    rfl
  · simp only [exec_absorbSignalArrive, execAbsorbSignalArrive, State.signalAt_head ha h, State.modTile_modTile]
    rfl

/-- Settles O27: an entry that passes its link goes where `linkEntry` puts it, absorbed, in its queue or held; a held one enters
as one that arrives; credits and signals are changes of one tile. -/
theorem linkEntriesAndSignals : Obligations.LinkEntriesAndSignals := ⟨linkEntryArrival, linkSignalsAndCredits⟩

end Sys2Proof.Machine
end

section
/-!
SUPPORT. Entries of the mesh route: the egress buffer, arrival and the ingress buffer (`Obligations.MeshRouteEntries`).
-/

namespace Sys2Proof.Machine

/-! What the commands of the mesh route call -/

theorem exec_egressDepart (s : State) (t : TileId) : exec (.egressDepart t) s = execEgressDepart t s := rfl
theorem exec_meshEntryArrive (s : State) (t : TileId) : exec (.meshEntryArrive t) s = execMeshEntryArrive t s := rfl
theorem exec_parkedEntryEnter (s : State) (t : TileId) (n : Nat) :
    exec (.parkedEntryEnter t n) s = execParkedEntryEnter t n s := rfl

/-! The egress buffer (R172, R427) -/

theorem execEgressDepart_head {s : State} {t : TileId} {p : Packet} {r : List Packet} (h : (s.tile t).egress = p :: r) :
    exec (.egressDepart t) s = .next (if s.portsAct t && s.localRoom t p then
      (s.setTile t { s.tile t with egress := r }).sendToTile t p.dst p else s) := by
  rw [exec_egressDepart, execEgressDepart, h]
  exact (apply_ite _ _ _ _).symm

/-! Arrival (R170, R172, R174) -/

/-- The state in which an entry delivered from the mesh is taken. -/
def State.arrivedTaken (s : State) (r : List Packet) : State := { s with arrived := r }

/-- The queue entry of a packet. -/
def packetEntry (p : Packet) : QEntry := { words := p.words, sender := p.src }

/-- Where an entry goes that is delivered to tile `t`. -/
def State.meshEntry (s : State) (t : TileId) (p : Packet) (r : List Packet) : State :=
  if s.absorbing t || !((s.tile t).qEn p.queue) then (s.arrivedTaken r).absorb t p.queue (packetEntry p)
  else if (s.tile t).ingress.length ≥ 8 then s
  else if decide ((s.tile t).qRoom p.queue ≥ p.words.length) && !((s.tile t).ingress.any fun i => i.1 = p.queue) then
    if (s.tile t).readyBefore p.queue 4 then s else (s.arrivedTaken r).enter t p.queue 4 (packetEntry p)
  else (s.arrivedTaken r).modTile t fun x => { x with ingress := x.ingress ++ [(p.queue, packetEntry p)] }

/-- The first entry delivered, in an enabled cycle, where its tide goes on. -/
theorem exec_meshEntryArrive_head {s : State} {t : TileId} {p : Packet} {r : List Packet} (h : s.arrived = p :: r)
    (hk : p.kind = .entry) (hd : p.dst = t) (hf : p.failed = false) (ha : s.portsAct t = true) :
    exec (.meshEntryArrive t) s = .next (s.meshEntry t p r) := by
  simp only [exec_meshEntryArrive, execMeshEntryArrive, h, takeFirst, hk, hd, hf, ha, decide_true, Bool.and_self, Bool.not_true,
    Bool.false_eq_true, if_true, if_false]
  simp only [State.meshEntry, apply_ite (Host.Outcome.next (φ := Fault) (ρ := Refusal))]
  rfl

section
variable {s : State} {t : TileId} {p : Packet} (r : List Packet)

theorem State.meshEntry_absorbs (h : s.absorbing t = true) :
    s.meshEntry t p r = (s.arrivedTaken r).absorb t p.queue (packetEntry p) := if_pos (by rw [h, Bool.true_or])

variable (h : s.absorbing t = false) (hen : (s.tile t).qEn p.queue = true)
include h hen

theorem State.meshEntry_waits (hfull : 8 ≤ (s.tile t).ingress.length) : s.meshEntry t p r = s := by
  rw [State.meshEntry, if_neg (by simp [h, hen])]
  exact if_pos hfull

theorem State.meshEntry_enters (hfull : (s.tile t).ingress.length < 8) (hroom : p.words.length ≤ (s.tile t).qRoom p.queue)
    (hpark : ∀ i ∈ (s.tile t).ingress, i.1 ≠ p.queue) (hready : (s.tile t).readyBefore p.queue 4 = false) :
    s.meshEntry t p r = (s.arrivedTaken r).enter t p.queue 4 (packetEntry p) := by
  have hnone : ((s.tile t).ingress.any fun i => i.1 = p.queue) = false := by simpa using hpark
  rw [State.meshEntry, if_neg (by simp [h, hen]), if_neg (Nat.not_le.mpr hfull), if_pos (by simp [hroom, hnone]), hready,
    if_neg Bool.false_ne_true]

theorem State.meshEntry_parks (hfull : (s.tile t).ingress.length < 8) (hroom : (s.tile t).qRoom p.queue < p.words.length) :
    s.meshEntry t p r = (s.arrivedTaken r).modTile t fun x => { x with ingress := x.ingress ++ [(p.queue, packetEntry p)] } := by
  rw [State.meshEntry, if_neg (by simp [h, hen]), if_neg (Nat.not_le.mpr hfull), if_neg (by simp [hroom])]

end

/-! Parked entries (R170, R172) -/

section
variable {s : State} {t : TileId} {n : Nat} {e : QEntry} {r : List (Nat × QEntry)} (h : (s.tile t).ingress = (n, e) :: r)
  (habs : s.absorbing t = false)
include h habs

theorem parkedEntryEnter_enters (ha : s.portsAct t = true) (hroom : e.words.length ≤ (s.tile t).qRoom n)
    (hready : (s.tile t).readyBefore n 4 = false) :
    exec (.parkedEntryEnter t n) s = .next ((s.modTile t fun x => { x with ingress := r }).enter t n 4 e) := by
  simp only [exec_parkedEntryEnter, execParkedEntryEnter, h, takeFirst, ha, habs, hroom, hready, decide_true,
    Bool.not_true, Bool.not_false, Bool.and_self, Bool.false_eq_true, if_true, if_false]

theorem parkedEntryEnter_waits (hno : (s.tile t).qRoom n < e.words.length ∨ (s.tile t).readyBefore n 4 = true) :
    exec (.parkedEntryEnter t n) s = .next s := by
  have hno' : (decide ((s.tile t).qRoom n ≥ e.words.length) && !((s.tile t).readyBefore n 4)) = false := by
    obtain hno | hno := hno
    · simp [hno]
    · simp [hno]
  simp only [exec_parkedEntryEnter, execParkedEntryEnter, h, takeFirst, habs, hno', decide_true, Bool.false_eq_true, if_true,
    if_false, ite_self]

end

/-- Settles O28: an entry delivered goes where `meshEntry` puts it, absorbed, in its queue, parked or waiting. -/
theorem meshRouteEntries : Obligations.MeshRouteEntries := by
  intro s t hlate
  refine ⟨fun p r h => ⟨fun ha hl => ?_, fun hno => ?_⟩, fun p r h hk hd hf _ ha => ?_,
    fun n e r h habs ha => ⟨fun hroom hready => ?_, parkedEntryEnter_waits h habs⟩⟩
  · rw [execEgressDepart_head h, ha, hl]
    rfl
  · rw [execEgressDepart_head h, if_neg (by obtain hno | hno := hno <;> simp [hno])]
  · refine ⟨_, exec_meshEntryArrive_head h hk hd hf ha, fun habs => ?_, fun habs hen hroom hfull hpark hready => ?_,
      fun habs hen hroom hfull => ?_, fun habs hen hfull => State.meshEntry_waits r habs hen hfull⟩
    · obtain ⟨hcount, -⟩ := (s.arrivedTaken r).absorb_queue t p.queue (packetEntry p)
      rw [State.meshEntry_absorbs r habs]
      exact ⟨State.absorb_arrived _ _ _ _, hcount⟩
    · rw [State.meshEntry_enters r habs hen hfull hroom hpark hready]
      exact ⟨State.enter_arrived _ _ _ _ _, State.enter_entries_last (s := s.arrivedTaken r) (hlate p.queue) (packetEntry p)⟩
    · rw [State.meshEntry_parks r habs hen hfull hroom, State.modTile_tile_self]
      exact ⟨rfl, rfl⟩
  · have hnone : ((s.modTile t fun x => { x with ingress := r }).tile t).laterThan n 4 = [] := by
      rw [State.modTile_tile_self]
      exact hlate n
    refine ⟨_, parkedEntryEnter_enters h habs ha hroom hready, ?_⟩
    rw [State.enter_ingress, State.enter_entries_last hnone, State.modTile_tile_self]
    exact ⟨rfl, rfl⟩

end Sys2Proof.Machine
end

section
/-!
SUPPORT. Words of slot operations decoded (`Obligations.BundleRoundTrip`).
-/

namespace Sys2Proof.Machine

/-! Fields of a word (R112) -/

theorem bits_field {k r hi lo : Nat} (hr : r < 2 ^ lo) (hk : k < 2 ^ (hi + 1 - lo)) : bits (k * 2 ^ lo + r) hi lo = k := by
  rw [bits, Nat.mul_comm, Nat.mul_add_div (Nat.two_pow_pos lo), Nat.div_eq_of_lt hr, Nat.add_zero, Nat.mod_eq_of_lt hk]

theorem bits_low {v hi lo : Nat} (h : v < 2 ^ lo) : bits v hi lo = 0 := by
  rw [bits, Nat.div_eq_of_lt h, Nat.zero_mod]

theorem bit_ne_true {v i : Nat} (h : v / 2 ^ i % 2 = 0) : ¬ bit v i = true := by
  simp [bit, h]

theorem fld_eq {w v lo : Nat} {x : BitVec w} (h : v / 2 ^ lo % 2 ^ w = x.toNat) : fld w v lo = x :=
  BitVec.eq_of_toNat_eq h

/-- Unused bits that stand in two places of a slot. -/
theorem append_fld {w u v lo lo' : Nat} {x : BitVec (w + u)} (hw : v / 2 ^ lo % 2 ^ w = x.toNat / 2 ^ u)
    (hu : v / 2 ^ lo' % 2 ^ u = x.toNat % 2 ^ u) : fld w v lo ++ fld u v lo' = x := by
  apply BitVec.eq_of_toNat_eq
  rw [BitVec.toNat_append, fld, fld, BitVec.toNat_ofNat, BitVec.toNat_ofNat, hw, hu,
    ← Nat.shiftLeft_add_eq_or_of_lt (Nat.mod_lt _ (Nat.two_pow_pos u)), Nat.shiftLeft_eq, Nat.div_add_mod']

/-! The word of an operation fills its slot (R112) -/

theorem encControl_lt {t : TileId} {c : Instr} (hc : slotOf c = some (t, 0)) : encControl c < 2 ^ 24 := by
  cases c <;> cases hc <;> rw [encControl] <;> omega

theorem encArray_lt {t : TileId} {c : Instr} (hc : slotOf c = some (t, 1)) : encArray c < 2 ^ 26 := by
  cases c <;> cases hc <;> rw [encArray] <;> omega

theorem encVector_lt {t : TileId} {c : Instr} (hc : slotOf c = some (t, 2)) : encVector c < 2 ^ 28 := by
  cases c <;> cases hc <;> rw [encVector] <;> omega

theorem encMover_lt {t : TileId} {c : Instr} (hc : slotOf c = some (t, 3)) : encMover c < 2 ^ 24 := by
  cases c <;> cases hc <;> rw [encMover] <;> omega

theorem encQueue_lt {t : TileId} {c : Instr} (hc : slotOf c = some (t, 4)) : encQueue c < 2 ^ 26 := by
  cases c <;> cases hc <;> rw [encQueue] <;> omega

/-! A slot's word gives its operation back (R119, R127, R131, R134, R136) -/

theorem decControl_encControl {t : TileId} {c : Instr} (hc : slotOf c = some (t, 0)) (hn : ∀ x y, c ≠ .deferralNotice t x y) :
    decControl t (encControl c) = c := by
  cases c <;> cases hc
  case deferralNotice => exact absurd rfl (hn _ _)
  case hintLight | specConfirm | specDiscard =>
    simp (disch := omega) only [decControl, encControl, Nat.add_assoc, bits_field]
    refine (if_neg (bit_ne_true (by omega))).trans ?_
    congr 1 <;> exact fld_eq (by omega)
  case hintHeavy | specConfirmVerdict | specDiscardVerdict =>
    simp (disch := omega) only [decControl, encControl, Nat.add_assoc, bits_field]
    refine (if_pos (decide_eq_true (by omega))).trans ?_
    congr 1 <;> exact fld_eq (by omega)
  all_goals
    simp (disch := omega) only [decControl, encControl, Nat.add_assoc, bits_field, bits_low]
    congr 1 <;> exact fld_eq (by omega)

theorem decArray_encArray {t : TileId} {c : Instr} (hc : slotOf c = some (t, 1)) : decArray t (encArray c) = c := by
  cases c <;> cases hc <;> simp (disch := omega) only [decArray, encArray, Nat.add_assoc, bits_field, bits_low] <;>
    congr 1 <;> exact fld_eq (by omega)

theorem decVector_encVector {t : TileId} {c : Instr} (hc : slotOf c = some (t, 2)) : decVector t (encVector c) = c := by
  cases c <;> cases hc
  case vmxq rsv =>
    have hhigh : rsv.toNat / 4 < 2 := by omega
    have hlow : rsv.toNat % 4 < 4 := by omega
    simp (disch := omega) only [decVector, encVector, Nat.add_assoc, bits_field]
    congr 1
    case e_rsv => exact append_fld (by omega) (by omega)
    all_goals
      generalize rsv.toNat / 4 = high, rsv.toNat % 4 = low at hhigh hlow ⊢
      exact fld_eq (by omega)
  case vsfu rsv =>
    have hhigh : rsv.toNat / 32 < 32 := by omega
    have hlow : rsv.toNat % 32 < 32 := by omega
    simp (disch := omega) only [decVector, encVector, Nat.add_assoc, bits_field]
    congr 1
    case e_rsv => exact append_fld (by omega) (by omega)
    all_goals
      generalize rsv.toNat / 32 = high, rsv.toNat % 32 = low at hhigh hlow ⊢
      exact fld_eq (by omega)
  all_goals
    simp (disch := omega) only [decVector, encVector, Nat.add_assoc, bits_field, bits_low]
    congr 1 <;> exact fld_eq (by omega)

theorem decMover_encMover {t : TileId} {c : Instr} (hc : slotOf c = some (t, 3)) : decMover t (encMover c) = c := by
  cases c <;> cases hc <;> simp (disch := omega) only [decMover, encMover, Nat.add_assoc, bits_field, bits_low] <;>
    congr 1 <;> exact fld_eq (by omega)

theorem decQueue_encQueue {t : TileId} {c : Instr} (hc : slotOf c = some (t, 4)) : decQueue t (encQueue c) = c := by
  cases c <;> cases hc <;> simp (disch := omega) only [decQueue, encQueue, Nat.add_assoc, bits_field, bits_low] <;>
    congr 1 <;> exact fld_eq (by omega)

/-- Settles O3: each slot's word stands in its own bits of the bundle, and its fields in their own bits of the word. -/
theorem bundleRoundTrip : Obligations.BundleRoundTrip := by
  intro t c a v m q hc ha hv hm hq hn
  have hc' := encControl_lt hc
  have ha' := encArray_lt ha
  have hv' := encVector_lt hv
  have hm' := encMover_lt hm
  have hq' := encQueue_lt hq
  refine ⟨by rw [encBundle]; omega, ?_⟩
  have bc : bits (encBundle c a v m q) 127 104 = encControl c := by rw [bits, encBundle]; omega
  have ba : bits (encBundle c a v m q) 103 78 = encArray a := by rw [bits, encBundle]; omega
  have bv : bits (encBundle c a v m q) 77 50 = encVector v := by rw [bits, encBundle]; omega
  have bm : bits (encBundle c a v m q) 49 26 = encMover m := by rw [bits, encBundle]; omega
  have bq : bits (encBundle c a v m q) 25 0 = encQueue q := by rw [bits, encBundle]; omega
  rw [decBundle, bc, ba, bv, bm, bq, decControl_encControl hc hn, decArray_encArray ha, decVector_encVector hv,
    decMover_encMover hm, decQueue_encQueue hq]

end Sys2Proof.Machine
end

section
/-!
SUPPORT. Scalar and predicate operations of the control slot on a tile that issues (`Obligations.SaluAndConditionTables`,
`Obligations.ScalarAndPredicateResults`).
-/

namespace Sys2Proof.Machine

/-! What the commands of the control slot call -/

section
variable (s : State) (t : TileId)

theorem exec_nop (rsv : BitVec 19) : exec (.nop t rsv) s = ctlOp t (unused rsv.toNat) id s := rfl
theorem exec_salu (rd ra rb : BitVec 5) (fn : BitVec 4) : exec (.salu t rd ra rb fn) s = execSalu t rd ra rb fn s := rfl
theorem exec_saddi (rd ra : BitVec 5) (imm : BitVec 9) : exec (.saddi t rd ra imm) s
    = ctlScalar t 0 1 rd.toNat (fun s => s.rs t 0 0 ra.toNat + imm.signExtend 32) s := rfl
theorem exec_sli (rd : BitVec 5) (imm : BitVec 14) :
    exec (.sli t rd imm) s = ctlScalar t 0 1 rd.toNat (fun _ => imm.signExtend 32) s := rfl
theorem exec_slic (rd : BitVec 5) (imm : BitVec 14) : exec (.slic t rd imm) s
    = ctlScalar t 0 1 rd.toNat (fun s => (s.rs t 0 0 rd.toNat <<< 14) ||| imm.zeroExtend 32) s := rfl
theorem exec_scmp (pd : BitVec 3) (ra rb : BitVec 5) (cond rsv : BitVec 3) :
    exec (.scmp t pd ra rb cond rsv) s = ctlCmp t rsv.toNat pd.toNat cond.toNat (fun s => s.rs t 0 0 ra.toNat)
      (fun s => s.rs t 0 1 rb.toNat) s := rfl
theorem exec_scmpi (pd : BitVec 3) (ra : BitVec 5) (cond : BitVec 3) (imm : BitVec 8) :
    exec (.scmpi t pd ra cond imm) s = ctlCmp t 0 pd.toNat cond.toNat (fun s => s.rs t 0 0 ra.toNat)
      (fun _ => imm.signExtend 32) s := rfl
theorem exec_plog (pd pa pb : BitVec 3) (fn : BitVec 2) (rsv : BitVec 8) :
    exec (.plog t pd pa pb fn rsv) s = execPlog t pd pa pb fn rsv s := rfl
theorem exec_scsr (rd index : BitVec 5) (rsv : BitVec 9) : exec (.scsr t rd index rsv) s = execScsr t rd index rsv s := rfl

end

/-! Operations of the control slot on a tile that issues (R113, R126, R147) -/

/-- An operation that passes its check has its effect and steps to the next bundle. -/
theorem ctlOp_effect {s : State} {t : TileId} (hi : s.canIssue t = true) {check : State → Option Nat} (hc : check s = none)
    (k : State → State) : ctlOp t check k s = .next ((k s).advance t) :=
  tileOp_effect hi hc _

/-- A change of the tile, and a step to the next bundle. -/
theorem ctlOp_modTile {s : State} {t : TileId} (hi : s.canIssue t = true) {check : State → Option Nat} (hc : check s = none)
    (f : State → Tile → Tile) :
    ctlOp t check (fun s => s.modTile t (f s)) s = .next (s.setTile t (f s (s.tile t)).advance) := by
  rw [ctlOp_effect hi hc, State.advance, State.modTile_modTile]
  rfl

theorem ctlScalar_effect {s : State} {t : TileId} (hi : s.canIssue t = true) (lat rd : Nat) (v : State → Word) :
    ctlScalar t 0 lat rd v s = .next (s.setTile t ((s.tile t).wS 0 lat rd (v s)).advance) :=
  ctlOp_modTile hi (unused_zero s) _

/-- A comparison with a condition in the table writes the predicate. -/
theorem ctlCmp_effect {s : State} {t : TileId} (hi : s.canIssue t = true) (pd : Nat) {cond : Nat} (hc : cond < 6)
    (a b : State → Word) : ctlCmp t 0 pd cond a b s
      = .next (s.setTile t ((s.tile t).wP 0 1 pd ((condFn cond (a s) (b s)).getD false)).advance) :=
  ctlOp_modTile hi (mustHold_zero (decide_eq_true hc) s) _

/-! The tables (R120) -/

theorem saluFn_reserved {n : Nat} (h : 13 ≤ n) (a b : Word) : saluFn n a b = none := by
  obtain ⟨k, rfl⟩ := Nat.exists_eq_add_of_le' h
  rfl

theorem condFn_reserved {n : Nat} (h : 6 ≤ n) (a b : Word) : condFn n a b = none := by
  obtain ⟨k, rfl⟩ := Nat.exists_eq_add_of_le' h
  rfl

/-- A function with a value is in the table. -/
theorem saluFn_lt {n : Nat} {a b v : Word} (h : saluFn n a b = some v) : n < 13 := by
  by_contra hn
  rw [saluFn_reserved (Nat.not_lt.mp hn)] at h
  cases h

theorem condFn_lt {n : Nat} {a b : Word} {v : Bool} (h : condFn n a b = some v) : n < 6 := by
  by_contra hn
  rw [condFn_reserved (Nat.not_lt.mp hn)] at h
  cases h

theorem saluFn_arith (a b : Word) :
    saluFn 0 a b = some (BitVec.ofNat 32 (a.toNat + b.toNat)) ∧
    saluFn 1 a b = some (BitVec.ofInt 32 ((a.toNat : Int) - b.toNat)) ∧
    saluFn 8 a b = some (BitVec.ofNat 32 (a.toNat * b.toNat)) := by
  refine ⟨congrArg some ?_, congrArg some ?_, congrArg some ?_⟩
  · rw [BitVec.ofNat_add, BitVec.ofNat_toNat, BitVec.ofNat_toNat, BitVec.setWidth_eq, BitVec.setWidth_eq]
  · apply BitVec.eq_of_toNat_eq
    rw [BitVec.toNat_sub, BitVec.toNat_ofInt]
    omega
  · rw [BitVec.ofNat_mul, BitVec.ofNat_toNat, BitVec.ofNat_toNat, BitVec.setWidth_eq, BitVec.setWidth_eq]

theorem saluFn_shifts (a b : Word) :
    saluFn 5 a b = some (BitVec.ofNat 32 (a.toNat * 2 ^ (b.toNat % 32))) ∧
    saluFn 6 a b = some (BitVec.ofNat 32 (a.toNat / 2 ^ (b.toNat % 32))) ∧
    saluFn 7 a b = some (BitVec.ofInt 32 (a.toInt / 2 ^ (b.toNat % 32))) := by
  refine ⟨congrArg some (BitVec.eq_of_toNat_eq ?_), congrArg some (BitVec.eq_of_toNat_eq ?_), congrArg some ?_⟩
  · rw [BitVec.toNat_shiftLeft, Nat.shiftLeft_eq, BitVec.toNat_ofNat]
  · rw [BitVec.toNat_ushiftRight, Nat.shiftRight_eq_div_pow, BitVec.toNat_ofNat,
      Nat.mod_eq_of_lt (Nat.lt_of_le_of_lt (Nat.div_le_self _ _) a.isLt)]
  · rw [BitVec.sshiftRight, Int.shiftRight_eq_div_pow]
    push_cast
    rfl

theorem saluFn_signed (a b : Word) :
    saluFn 9 a b = some (BitVec.ofInt 32 (min a.toInt b.toInt)) ∧
    saluFn 10 a b = some (BitVec.ofInt 32 (max a.toInt b.toInt)) := by
  simp only [saluFn, BitVec.slt, decide_eq_true_eq]
  by_cases h : a.toInt < b.toInt
  · simp only [h, if_true, min_eq_left h.le, max_eq_right h.le, BitVec.ofInt_toInt, and_self]
  · simp only [h, if_false, min_eq_right (not_lt.mp h), max_eq_left (not_lt.mp h), BitVec.ofInt_toInt, and_self]

theorem saluFn_unsigned (a b : Word) :
    saluFn 11 a b = some (BitVec.ofNat 32 (min a.toNat b.toNat)) ∧
    saluFn 12 a b = some (BitVec.ofNat 32 (max a.toNat b.toNat)) := by
  simp only [saluFn, BitVec.ult, decide_eq_true_eq]
  by_cases h : a.toNat < b.toNat
  · simp only [h, if_true, min_eq_left h.le, max_eq_right h.le, BitVec.ofNat_toNat, BitVec.setWidth_eq, and_self]
  · simp only [h, if_false, min_eq_right (not_lt.mp h), max_eq_left (not_lt.mp h), BitVec.ofNat_toNat, BitVec.setWidth_eq,
      and_self]

/-- The relations of the conditions as propositions about the words' numbers. -/
theorem condFn_table (a b : Word) :
    condFn 0 a b = some (decide (a = b)) ∧ condFn 1 a b = some (decide (a ≠ b)) ∧
    condFn 2 a b = some (decide (a.toInt < b.toInt)) ∧ condFn 3 a b = some (decide (b.toInt ≤ a.toInt)) ∧
    condFn 4 a b = some (decide (a.toNat < b.toNat)) ∧ condFn 5 a b = some (decide (b.toNat ≤ a.toNat)) := by
  refine ⟨congrArg some ?_, congrArg some ?_, rfl, congrArg some ?_, rfl, congrArg some ?_⟩
  · by_cases h : a = b <;> simp [h]
  · by_cases h : a = b <;> simp [h]
  · simp [BitVec.slt, ← decide_not]
  · simp [BitVec.ult, ← decide_not]

/-! The words that SLI and SLIC build -/

/-- SLIC's step on numbers: the low 18 bits of the register, then the 14 of the immediate. -/
theorem slic_toNat (w : Word) (j : BitVec 14) :
    ((w <<< 14) ||| j.zeroExtend 32).toNat = w.toNat % 2 ^ 18 * 2 ^ 14 + j.toNat := by
  have hj : j.toNat < 2 ^ 32 := Nat.lt_of_lt_of_le j.isLt (by decide)
  have hshift : w.toNat <<< 14 % 2 ^ 32 = (w.toNat % 2 ^ 18) <<< 14 := by
    rw [Nat.shiftLeft_eq, Nat.shiftLeft_eq]; omega
  rw [BitVec.toNat_or, BitVec.toNat_shiftLeft, BitVec.toNat_setWidth, Nat.mod_eq_of_lt hj, hshift,
    ← Nat.shiftLeft_add_eq_or_of_lt j.isLt, Nat.shiftLeft_eq]

/-- SLI's word: the immediate's bits, and above them its sign. -/
theorem sli_toNat (i : BitVec 14) :
    ((i.signExtend 32 : Word)).toNat = i.toNat + if 2 ^ 13 ≤ i.toNat then 2 ^ 32 - 2 ^ 14 else 0 := by
  have hi : i.toNat < 2 ^ 32 := Nat.lt_of_lt_of_le i.isLt (by decide)
  rw [BitVec.toNat_signExtend, BitVec.toNat_setWidth, Nat.mod_eq_of_lt hi, BitVec.msb_eq_decide]
  simp only [decide_eq_true_eq]

/-- The two parts of a word whose top five bits agree. -/
theorem sli_slic_builds {w : Word} (h0 : -(2 : Int) ^ 27 ≤ w.toInt) (h1 : w.toInt < 2 ^ 27) :
    ∃ i j : BitVec 14, ((i.signExtend 32 : Word) <<< 14) ||| j.zeroExtend 32 = w := by
  refine ⟨BitVec.ofNat 14 (w.toNat / 2 ^ 14), BitVec.ofNat 14 w.toNat, BitVec.eq_of_toNat_eq ?_⟩
  rw [BitVec.toInt_eq_toNat_cond] at h0 h1
  rw [slic_toNat, sli_toNat, BitVec.toNat_ofNat, BitVec.toNat_ofNat]
  split <;> omega

theorem sli_slic_slic_builds (w : Word) : ∃ i j k : BitVec 14,
    ((((i.signExtend 32 : Word) <<< 14) ||| j.zeroExtend 32) <<< 14) ||| k.zeroExtend 32 = w := by
  refine ⟨BitVec.ofNat 14 (w.toNat / 2 ^ 28), BitVec.ofNat 14 (w.toNat / 2 ^ 14), BitVec.ofNat 14 w.toNat,
    BitVec.eq_of_toNat_eq ?_⟩
  rw [slic_toNat, slic_toNat, sli_toNat, BitVec.toNat_ofNat, BitVec.toNat_ofNat, BitVec.toNat_ofNat]
  split <;> omega

/-! Scalar and predicate results (R118 to R120) -/

section
variable {s : State} {t : TileId} (hi : s.canIssue t = true)
include hi

theorem salu_effect (rd ra rb : BitVec 5) {fn : BitVec 4} {v : Word}
    (h : saluFn fn.toNat (s.rs t 0 0 ra.toNat) (s.rs t 0 1 rb.toNat) = some v) :
    exec (.salu t rd ra rb fn) s
      = .next (s.setTile t ((s.tile t).wS 0 (if fn.toNat = 8 then 3 else 1) rd.toNat v).advance) := by
  rw [exec_salu, execSalu, ctlOp_modTile hi (mustHold_zero (decide_eq_true (saluFn_lt h)) s), h, Option.getD_some]

theorem saddi_effect (rd ra : BitVec 5) (imm : BitVec 9) : exec (.saddi t rd ra imm) s
    = .next (s.setTile t ((s.tile t).wS 0 1 rd.toNat (s.rs t 0 0 ra.toNat + imm.signExtend 32)).advance) := by
  rw [exec_saddi, ctlScalar_effect hi]

theorem sli_effect (rd : BitVec 5) (imm : BitVec 14) :
    exec (.sli t rd imm) s = .next (s.setTile t ((s.tile t).wS 0 1 rd.toNat (imm.signExtend 32)).advance) := by
  rw [exec_sli, ctlScalar_effect hi]

theorem slic_effect (rd : BitVec 5) (imm : BitVec 14) : exec (.slic t rd imm) s
    = .next (s.setTile t ((s.tile t).wS 0 1 rd.toNat ((s.rs t 0 0 rd.toNat <<< 14) ||| imm.zeroExtend 32)).advance) := by
  rw [exec_slic, ctlScalar_effect hi]

theorem scmp_effect (pd : BitVec 3) (ra rb : BitVec 5) {cond : BitVec 3} (hc : cond.toNat < 6) : exec (.scmp t pd ra rb cond 0) s
    = .next (s.setTile t ((s.tile t).wP 0 1 pd.toNat
        ((condFn cond.toNat (s.rs t 0 0 ra.toNat) (s.rs t 0 1 rb.toNat)).getD false)).advance) := by
  rw [exec_scmp]
  exact ctlCmp_effect hi _ hc _ _

theorem scmpi_effect (pd : BitVec 3) (ra : BitVec 5) {cond : BitVec 3} (imm : BitVec 8) (hc : cond.toNat < 6) :
    exec (.scmpi t pd ra cond imm) s
      = .next (s.setTile t ((s.tile t).wP 0 1 pd.toNat
          ((condFn cond.toNat (s.rs t 0 0 ra.toNat) (imm.signExtend 32)).getD false)).advance) := by
  rw [exec_scmpi, ctlCmp_effect hi _ hc]

theorem plog_effect (pd pa pb : BitVec 3) (fn : BitVec 2) : exec (.plog t pd pa pb fn 0) s
    = .next (s.setTile t ((s.tile t).wP 0 1 pd.toNat (plogFn fn.toNat (s.rp t 0 0 pa.toNat) (s.rp t 0 1 pb.toNat))).advance) := by
  rw [exec_plog, execPlog]
  exact ctlOp_modTile hi (unused_zero s) _

theorem scsr_effect (rd : BitVec 5) {index : BitVec 5} (h : index.toNat < 6) : exec (.scsr t rd index 0) s
    = .next (s.setTile t ((s.tile t).wS 0 1 rd.toNat (s.statusValue t index.toNat)).advance) := by
  rw [exec_scsr, execScsr]
  exact ctlOp_modTile hi (mustHold_zero (decide_eq_true h) s) _

end

/-- Settles O5: the tables by the arithmetic of words, and the words of SLI and SLIC on numbers. -/
theorem saluAndConditionTables : Obligations.SaluAndConditionTables := by
  refine ⟨fun a b => ?_, fun s t hi => ⟨fun rd ra rb fn v => salu_effect hi rd ra rb, fun pd ra rb cond b h => ?_,
    fun pd ra cond imm b h => ?_, fun rd imm => ⟨sli_effect hi rd imm, slic_effect hi rd imm⟩⟩,
    fun w => sli_slic_builds, sli_slic_slic_builds⟩
  · obtain ⟨hadd, hsub, hmul⟩ := saluFn_arith a b
    obtain ⟨hshl, hshr, hsra⟩ := saluFn_shifts a b
    obtain ⟨hmin, hmax⟩ := saluFn_signed a b
    obtain ⟨huMin, huMax⟩ := saluFn_unsigned a b
    obtain ⟨heq, hne, hlt, hge, hltu, hgeu⟩ := condFn_table a b
    exact ⟨hadd, hsub, rfl, rfl, rfl, hshl, hshr, hsra, hmul, hmin, hmax, huMin, huMax, fun n h => saluFn_reserved h a b,
      heq, hne, hlt, hge, hltu, hgeu, fun n h => condFn_reserved h a b⟩
  · rw [scmp_effect hi pd ra rb (condFn_lt h), h, Option.getD_some]
  · rw [scmpi_effect hi pd ra imm (condFn_lt h), h, Option.getD_some]

/-- A number below six is one of them. -/
theorem condFn_getD_eq {n : Nat} (h : n < 6) (a b : Word) : (condFn n a b).getD false
    = [decide (a = b), decide (a ≠ b), decide (a.toInt < b.toInt), decide (b.toInt ≤ a.toInt), decide (a.toNat < b.toNat),
        decide (b.toNat ≤ a.toNat)].getD n false := by
  obtain ⟨heq, hne, hlt, hge, hltu, hgeu⟩ := condFn_table a b
  interval_cases n
  · rw [heq]; rfl
  · rw [hne]; rfl
  · rw [hlt]; rfl
  · rw [hge]; rfl
  · rw [hltu]; rfl
  · rw [hgeu]; rfl

theorem plogFn_eq (n : BitVec 2) (a b : Bool) : plogFn n.toNat a b = [a && b, a || b, a ^^ b, a && !b].getD n.toNat false := by
  have h : n.toNat < 4 := n.isLt
  generalize n.toNat = k at h
  interval_cases k <;> rfl

theorem State.statusValue_eq {s : State} {t : TileId} {p : Nat} (hp : s.partOf t = some p) {n : Nat} (h : n < 6) :
    s.statusValue t n = [BitVec.ofNat 32 (t % 280), BitVec.ofNat 32 (t / 280), BitVec.ofNat 32 (s.part p).tide,
      BitVec.ofNat 32 ((s.part p).tide / 2 ^ 32 % 2 ^ 16), BitVec.ofNat 32 p,
      BitVec.ofNat 32 (if s.job.formed then s.job.i + s.job.dimI * (s.job.j + s.job.dimJ * s.job.k) else 0)].getD n 0 := by
  unfold State.statusValue
  rw [hp]
  interval_cases n <;> rfl

/-- Settles O6: one write and a step for each operation. -/
theorem scalarAndPredicateResults : Obligations.ScalarAndPredicateResults := by
  refine ⟨fun s t hi => ⟨fun rd ra rb fn v => salu_effect hi rd ra rb, saddi_effect hi, sli_effect hi, slic_effect hi,
    fun rd index p hp h => ?_⟩, fun s t pd hi => ⟨fun ra rb cond h => ?_, fun ra cond imm => scmpi_effect hi pd ra imm,
    fun pa pb fn => ?_⟩⟩
  · rw [scsr_effect hi rd h, State.statusValue_eq hp h]
  · rw [scmp_effect hi pd ra rb h, condFn_getD_eq h]
  · rw [plog_effect hi pd pa pb fn, plogFn_eq]

end Sys2Proof.Machine
end

section
/-!
SUPPORT. Copies, comparison, selection, reductions, integer and lane operations of the vector slot
(`Obligations.VectorMovesAndSelections`), and two writes to one register in one cycle (`Obligations.SameCycleWrites`).
-/

namespace Sys2Proof.Machine

/-! What the commands of the vector slot call -/

section
variable (s : State) (t : TileId) (vD vA vB vC sA lane : BitVec 5)

theorem exec_vmov (rsv : BitVec 12) : exec (.vmov t vD vA rsv) s = vecUn t vD.toNat vA.toNat rsv.toNat id s := rfl
theorem exec_vbcast (rsv : BitVec 12) : exec (.vbcast t vD sA rsv) s
    = vecOp t rsv.toNat 4 vD.toNat (fun s => List.replicate 32 (s.rs t 2 0 sA.toNat)) s := rfl
theorem exec_vcmp (cond : BitVec 3) (rsv : BitVec 4) : exec (.vcmp t vD vA vB cond rsv) s
    = vecBin t vD.toNat vA.toNat vB.toNat (rsv.toNat + cond.toNat / 4) (cmpMask cond.toNat) s := rfl
theorem exec_vsel (rsv : BitVec 2) : exec (.vsel t vD vA vB vC rsv) s
    = vecTri t vD.toNat vA.toNat vB.toNat vC.toNat rsv.toNat (fun a b c => if c = 0 then b else a) s := rfl
theorem exec_vredsum (rsv : BitVec 12) : exec (.vredsum t vD vA rsv) s
    = vecOp t rsv.toNat 8 vD.toNat (fun s => List.replicate 32 (tree32 fadd 0 (s.rv t 2 0 vA.toNat))) s := rfl
theorem exec_vredmax (rsv : BitVec 12) : exec (.vredmax t vD vA rsv) s
    = vecOp t rsv.toNat 6 vD.toNat (fun s => List.replicate 32 (tree32 fmax 0 (s.rv t 2 0 vA.toNat))) s := rfl
theorem exec_viadd (rsv : BitVec 7) : exec (.viadd t vD vA vB rsv) s
    = vecBin t vD.toNat vA.toNat vB.toNat rsv.toNat (fun a b => a + b) s := rfl
theorem exec_vand (rsv : BitVec 7) : exec (.vand t vD vA vB rsv) s
    = vecBin t vD.toNat vA.toNat vB.toNat rsv.toNat (fun a b => a &&& b) s := rfl
theorem exec_vshr (rsv : BitVec 7) : exec (.vshr t vD vA vB rsv) s
    = vecBin t vD.toNat vA.toNat vB.toNat rsv.toNat (fun a b => a >>> (b.toNat % 32)) s := rfl
theorem exec_vext (rsv : BitVec 7) : exec (.vext t sA vA lane rsv) s = execVext t sA vA lane rsv s := rfl
theorem exec_vins (rsv : BitVec 7) : exec (.vins t vD sA lane rsv) s = execVins t vD sA lane rsv s := rfl

end

section
variable {s : State} {t : TileId} (hi : s.canIssue t = true)
include hi

theorem vmov_effect (vD vA : BitVec 5) :
    exec (.vmov t vD vA 0) s = .next (s.setTile t ((s.tile t).wV 2 4 vD.toNat (s.rv t 2 0 vA.toNat))) := by
  rw [exec_vmov, vecUn]
  exact (vecOp_effect hi _ _ _).trans (by rw [List.map_id])

/-- A condition below 4 leaves the bits of its check 0. -/
theorem vcmp_effect (vD vA vB : BitVec 5) {cond : BitVec 3} (hc : cond.toNat < 4) :
    exec (.vcmp t vD vA vB cond 0) s = .next (s.setTile t ((s.tile t).wV 2 4 vD.toNat
      (List.zipWith (cmpMask cond.toNat) (s.rv t 2 0 vA.toNat) (s.rv t 2 1 vB.toNat)))) := by
  rw [exec_vcmp, Nat.div_eq_of_lt hc]
  exact vecOp_effect hi _ _ _

theorem vext_effect (sD vA lane : BitVec 5) :
    exec (.vext t sD vA lane 0) s = .next (s.setTile t ((s.tile t).wS 2 2 sD.toNat
      ((s.rv t 2 0 vA.toNat).getD lane.toNat 0))) := by
  rw [exec_vext, execVext]
  exact tileOp_effect hi (unused_zero s) _

theorem vins_effect (vD sA lane : BitVec 5) :
    exec (.vins t vD sA lane 0) s = .next (s.setTile t ((s.tile t).later 2 4
      (.v vD.toNat [(lane.toNat, s.rs t 2 0 sA.toNat)]))) := by
  rw [exec_vins, execVins]
  exact tileOp_effect hi (unused_zero s) _

end

/-- Settles O15: each operation passes its check, and `vecOp` gives its destination, value and latency. -/
theorem vectorMovesAndSelections : Obligations.VectorMovesAndSelections := by
  intro s t vD vA vB vC sA lane hi
  have op := vecOp_effect hi
  refine ⟨vmov_effect hi vD vA, ?_, fun cond hc => vcmp_effect hi vD vA vB hc, ?_, ?_, ?_, ?_, ?_, ?_,
    vext_effect hi sA vA lane, vins_effect hi vD sA lane⟩
  · rw [exec_vbcast]; exact op _ _ _
  · rw [exec_vsel]; exact vecTri_effect hi _ _ _ _ _
  · rw [exec_vredsum]; exact op _ _ _
  · rw [exec_vredmax]; exact op _ _ _
  · rw [exec_viadd]; exact op _ _ _
  · rw [exec_vand]; exact op _ _ _
  · rw [exec_vshr]; exact op _ _ _

/-! Two writes of one register in one cycle (R115) -/

theorem survivors_single (w : PendWrite) : survivors [w] = [w] := by simp [survivors]

/-- Of two writes to one place the later one of the list goes first unless the other's slot comes before. -/
theorem survivors_pair {u w : PendWrite} (h : sameDest u.dest w.dest = true) :
    survivors [u, w] = [if u.slot < w.slot then u else w] := by
  by_cases hlt : u.slot < w.slot
  · have hn : ¬ w.slot ≤ u.slot := Nat.not_le.mpr hlt
    simp [survivors, h, hlt, hn]
  · have hle : w.slot ≤ u.slot := Nat.not_lt.mp hlt
    simp [survivors, h, hlt, hle]

/-- At the end of a cycle in which every pending write is due, the survivors land on the tile with none pending. -/
theorem Tile.landAll_due (x : Tile) {l : List PendWrite} (h : ∀ w ∈ l, w.land = x.ecc) :
    ({ x with pend := l } : Tile).landAll = ({ (survivors l).foldl Tile.apply { x with pend := [] } with
      ecc := ((survivors l).foldl Tile.apply { x with pend := [] }).ecc + 1
      lines := [], low := [], mvIssued := false, conflicted := false, fresh := [], linkUse := [] } : Tile) := by
  have due : (l.filter fun w => decide (w.land ≤ x.ecc)) = l :=
    List.filter_eq_self.mpr fun w hw => decide_eq_true (h w hw).le
  have left : (l.filter fun w => decide (x.ecc < w.land)) = [] :=
    List.filter_eq_nil_iff.mpr fun w hw => by simp [h w hw]
  simp only [Tile.landAll, due, left]

/-- Settles O18: both writes are due, and one of the two survives. -/
theorem sameCycleWrites : Obligations.SameCycleWrites := by
  intro x u w hd hu hw _
  have pair : ∀ v ∈ [u, w], v.land = x.ecc := by simp [hu, hw]
  have one : ∀ v ∈ [if u.slot < w.slot then u else w], v.land = x.ecc := by
    split <;> simp [hu, hw]
  rw [x.landAll_due pair, x.landAll_due one, survivors_pair hd, survivors_single]

end Sys2Proof.Machine
end

section
/-!
SUPPORT. What a tile fault does, and the events of a held bundle (`Obligations.FaultsAndHeldBundles`).
-/

namespace Sys2Proof.Machine

/-! The first fault of a tile (R147, R216, R224, R338) -/

/-- The tile after its first fault: it issues nothing, and the fault is noted within a running tide. -/
def State.stopped (s : State) (t : TileId) (code payload : Nat) : Tile :=
  { s.tile t with issuing := false, held := [], bubble := 0, reports := (s.tile t).reports + 1
                  faulted := if s.inTide t then some { code := code, payload := BitVec.ofNat 64 payload
                                                       bundle := (s.tile t).bundle } else none }

section
variable {s : State} {t : TileId} (hf : (s.tile t).faulted = none) (code : Nat) (kind : FaultKind) (payload : Nat)
include hf

/-- The first fault of a tile of a partition: the tile's stop, the partition's event, and its cause. -/
theorem State.tileFault_of_part {p : Nat} (hp : s.partOf t = some p) : s.tileFault t code kind payload
    = ((s.setTile t (s.stopped t code payload)).raisePart p code 3 t payload).addCause p
        { kind := kind, code := code, unit := t } := by
  have hp' : (s.setTile t (s.stopped t code payload)).partOf t = some p := hp
  have hq : ((s.setTile t (s.stopped t code payload)).raiseTile t code 3 payload).partOf t = some p := by
    rw [State.raiseTile_eventOnly]
    exact hp
  have hr : (s.setTile t (s.stopped t code payload)).raiseTile t code 3 payload
      = (s.setTile t (s.stopped t code payload)).raisePart p code 3 t payload := by
    rw [State.raiseTile, hp']
  rw [← hr, State.tileFault, hf]
  exact (congrArg (fun o : Option Nat => match o with
    | some p => ((s.setTile t (s.stopped t code payload)).raiseTile t code 3 payload).addCause p
        { kind := kind, code := code, unit := t }
    | none => (s.setTile t (s.stopped t code payload)).raiseTile t code 3 payload) hq)

/-- No other tile changes at a tile's first fault. -/
theorem State.tileFault_tile_ne {u : TileId} (hu : u ≠ t) : (s.tileFault t code kind payload).tile u = s.tile u := by
  simp only [State.tileFault, hf, Option.isSome_none, Bool.false_eq_true, if_false]
  split
  · rw [State.addCause_tile, State.raiseTile_eventOnly]
    exact State.setTile_tile_ne _ _ hu
  · rw [State.raiseTile_eventOnly]
    exact State.setTile_tile_ne _ _ hu

/-- Of a partition whose tide is done in a job, the fault's event waits. -/
theorem State.tileFault_waiting {p : Nat} (hp : s.partOf t = some p) (hd : s.afterDone p = true) :
    ∃ e, e.code = code ∧ e.unit = t ∧ e.part = p ∧
      (s.tileFault t code kind payload).bb.waiting = s.bb.waiting ++ [e] := by
  have hd' : (s.setTile t (s.stopped t code payload)).afterDone p = true := hd
  rw [State.tileFault_of_part hf code kind payload hp, State.addCause_bb, State.raisePart, hd']
  exact ⟨_, rfl, rfl, rfl, rfl⟩

/-- Within a running tide the fault rings its partition's fault bell and joins its causes with this device's rank. -/
theorem State.tileFault_part {p : Nat} (hp : s.partOf t = some p) (hr : running (s.part p).st = true) :
    ((s.tileFault t code kind payload).part p).faultBell = true ∧
    ((s.tileFault t code kind payload).part p).causes = (s.part p).causes ++
      [{ kind := kind, code := code, unit := t, rank := if (s.part p).inJob then s.job.rank else 0 }] := by
  have hpart : ((s.setTile t (s.stopped t code payload)).raisePart p code 3 t payload).part p = s.part p :=
    State.raisePart_part _ _ _ _ _ _ _
  rw [State.tileFault_of_part hf code kind payload hp, State.addCause_running _ _ _ (by rw [hpart]; exact hr), State.ranked,
    hpart, State.raisePart_job]
  exact ⟨rfl, rfl⟩

end

/-- A later fault of a tile that has one only stops it. -/
theorem State.tileFault_later {s : State} {t : TileId} (hf : (s.tile t).faulted ≠ none) (code : Nat) (kind : FaultKind)
    (payload : Nat) : s.tileFault t code kind payload = s.setTile t { s.tile t with issuing := false, held := [] } :=
  if_pos (Option.isSome_iff_ne_none.mpr hf)

theorem tileFaultEffect : Claims.TileFaultEffect := by
  intro s t code kind payload
  refine ⟨fun hf => ⟨State.tileFault_tile_of_first hf code kind payload, State.tileFault_eventCount_lt hf code kind payload,
    fun p => State.tileFault_waiting hf code kind payload, fun u => State.tileFault_tile_ne hf code kind payload,
    fun p => State.tileFault_part hf code kind payload⟩, fun hf => State.tileFault_later hf code kind payload⟩

/-! What the commands call -/

theorem exec_waitRelease (s : State) (t : TileId) : exec (.waitRelease t) s = execWaitRelease t s := rfl
theorem exec_queueStall (s : State) (t : TileId) : exec (.queueStall t) s = execQueueStall t s := rfl
theorem exec_waitStall (s : State) (t : TileId) : exec (.waitStall t) s = execWaitStall t s := rfl
theorem exec_noEnd (s : State) (t : TileId) : exec (.noEnd t) s = execNoEnd t s := rfl
theorem exec_bellWait (s : State) (t : TileId) (port : BitVec 2) (rsv : BitVec 17) :
    exec (.bellWait t port rsv) s = execBellWait t port rsv s := rfl

/-! Waits (R123, R140, R141) -/

/-- The waits of a held bundle of one operation. -/
theorem State.unmet_single {s : State} {t : TileId} {i : Instr} (h : (s.tile t).held = [i]) :
    s.unmet t = if s.waitUnmet i then [i] else [] := by
  rw [State.unmet, h, List.filter_singleton, Bool.cond_eq_ite]

/-- BELL.WAIT on a bound port waits while no fire of it is counted. -/
theorem State.waitUnmet_bellWait {s : State} {t : TileId} {port : BitVec 2} (hb : (s.tile t).bellBound port.toNat = true)
    (rsv : BitVec 17) : s.waitUnmet (.bellWait t port rsv) = decide (tget 0 (s.tile t).fireCnt port.toNat = 0) := by
  rw [State.waitUnmet, ← Tile.bellBound, hb, Bool.true_and]

theorem bellCheck_bound {s : State} {t : TileId} {port : Nat} (hb : (s.tile t).bellBound port = true) :
    bellCheck t 0 port s = none := by
  simp [bellCheck, hb]

/-- The tile with one fire of a port used up and its bundle past. -/
def Tile.fireUsed (x : Tile) (port : Nat) : Tile :=
  ({ x with fireCnt := tset x.fireCnt port (tget 0 x.fireCnt port - 1) } : Tile).advance

/-- BELL.WAIT that need not wait uses a fire and steps to the next bundle. -/
theorem bellWait_passes {s : State} {t : TileId} (hi : s.canIssue t = true) {port : BitVec 2}
    (hb : (s.tile t).bellBound port.toNat = true) (hw : ((s.tile t).cur.isNone && s.waitUnmet (.bellWait t port 0)) = false) :
    exec (.bellWait t port 0) s = .next (s.setTile t ((s.tile t).fireUsed port.toNat)) := by
  rw [exec_bellWait, execBellWait, Bool.and_assoc, hw, Bool.and_false]
  exact (ctlOp_modTile hi (bellCheck_bound hb) _)

theorem State.issue_bellWait (s : State) (t : TileId) (port : BitVec 2) (rsv : BitVec 17) : s.issue (.bellWait t port rsv)
    = match exec (.bellWait t port rsv) s with
      | .next u => u
      | _ => s := rfl

/-! A held bundle of one operation issues (R113, R140) -/

/-- The tile as its bundle begins to issue. -/
def Tile.began (x : Tile) : Tile := { x with cur := some x.pc, held := [], heldFor := 0 }

/-- The tile with no bundle in flight, after the bundle at `pc`. -/
def Tile.done (x : Tile) (pc : Nat) : Tile := { x with cur := none, seqIssue := x.pc = pc + 1 && x.bubble = 0 }

/-- The tile with one more bundle counted. -/
def Tile.counted (x : Tile) : Tile := { x with bundlesIssued := x.bundlesIssued + 1 }

/-- No slot of a canary ends while none runs. -/
theorem Tile.slotEnd_idle {x : Tile} (h : x.canaryRunning = false) (pc : Nat) : x.slotEnd pc = x := by
  simp [Tile.slotEnd, h]

theorem issueOrder_single (i : Instr) : issueOrder [i] = [i] := by
  cases h : issuesLast i <;> simp [issueOrder, h]

/-- An operation after which no fault is noted fails no check of the first stage. -/
theorem State.firstStage_of_clean {s : State} {t : TileId} {i : Instr} (h : ((s.issue i).tile t).faulted = none) :
    s.firstStage t i = false := by
  rw [State.firstStage, h]

theorem State.issueOps_single {s : State} {t : TileId} {i : Instr} {y : Tile}
    (hy : (s.setTile t (s.tile t).began).issue i = s.setTile t y) (hf : y.faulted = none) :
    s.issueOps t [i] = s.setTile t ((y.counted.slotEnd (s.tile t).pc).done (s.tile t).pc) := by
  have hclean : (s.setTile t (s.tile t).began).firstStage t i = false :=
    State.firstStage_of_clean (by rw [hy, State.setTile_tile_self]; exact hf)
  have hbegan : s.modTile t (fun x => { x with cur := some (s.tile t).pc, held := [], heldFor := 0 })
      = s.setTile t (s.tile t).began := rfl
  simp only [State.issueOps, hbegan, List.find?_cons, hclean, List.find?_nil, issueOrder_single, List.foldl_cons,
    List.foldl_nil, hy, State.modTile_eq, State.setTile_tile_self, State.setTile_setTile]
  rfl

/-- A tile acts as before while its reset line and its cluster's power stay as they are. -/
theorem State.acts_setTile {s : State} {t : TileId} {x : Tile} (h : x.inReset = (s.tile t).inReset) :
    (s.setTile t x).acts t = s.acts t := by
  rw [State.acts, State.down, State.setTile_tile_self, h]
  rfl

/-- A tile that acts issues while its bundle is issuing. -/
theorem State.canIssue_began {s : State} {t : TileId} (ha : s.acts t = true) :
    (s.setTile t (s.tile t).began).canIssue t = true := by
  have hb : (s.setTile t (s.tile t).began).acts t = true :=
    (State.acts_setTile (x := (s.tile t).began) rfl).trans ha
  rw [State.canIssue, hb, State.setTile_tile_self]
  rfl

/-- A held BELL.WAIT issues as a bundle of its own. -/
theorem State.issueOps_bellWait {s : State} {t : TileId} (ha : s.acts t = true) (hf : (s.tile t).faulted = none)
    {port : BitVec 2} (hb : (s.tile t).bellBound port.toNat = true) :
    s.issueOps t [.bellWait t port 0]
      = s.setTile t ((((s.tile t).began.fireUsed port.toNat).counted.slotEnd (s.tile t).pc).done (s.tile t).pc) := by
  have hbegan : (s.setTile t (s.tile t).began).tile t = (s.tile t).began := State.setTile_tile_self _ _ _
  refine State.issueOps_single ?_ hf
  rw [State.issue_bellWait, bellWait_passes (State.canIssue_began ha) (by rw [hbegan]; exact hb) (by rw [hbegan]; rfl), hbegan,
    State.setTile_setTile]

theorem waitRelease_waits {s : State} {t : TileId} {port : BitVec 2} (hh : (s.tile t).held = [.bellWait t port 0])
    (hb : (s.tile t).bellBound port.toNat = true) (h0 : tget 0 (s.tile t).fireCnt port.toNat = 0) :
    exec (.waitRelease t) s = .next s := by
  have hu : s.unmet t = [.bellWait t port 0] := by
    rw [State.unmet_single hh, State.waitUnmet_bellWait hb, h0]
    rfl
  rw [exec_waitRelease, execWaitRelease, hu]
  exact if_pos (by simp)

section
variable {s : State} {t : TileId} (ha : s.acts t = true)
include ha

theorem waitRelease_issues {port : BitVec 2} (hf : (s.tile t).faulted = none)
    (hh : (s.tile t).held = [.bellWait t port 0]) (hi : (s.tile t).issuing = true)
    (hb : (s.tile t).bellBound port.toNat = true) (h0 : 0 < tget 0 (s.tile t).fireCnt port.toNat) :
    exec (.waitRelease t) s = .next (s.setTile t ((((s.tile t).began.fireUsed port.toNat).counted.slotEnd (s.tile t).pc).done (s.tile t).pc)) := by
  have hu : s.unmet t = [] := by
    rw [State.unmet_single hh, State.waitUnmet_bellWait hb, decide_eq_false h0.ne']
    rfl
  rw [exec_waitRelease, execWaitRelease, hu]
  refine (if_neg (by simp [ha, hh, hi])).trans ?_
  rw [hh, State.issueOps_bellWait ha hf hb]

/-- How long a held bundle waits before it stalls (R141). -/
theorem State.stalled_of_held {i : Instr} (hh : (s.tile t).held = [i]) :
    s.stalled t = decide (2 ^ ((s.tile t).qctl.toNat % 32) ≤ (s.tile t).heldFor) := by
  simp [State.stalled, ha, hh, bits]

theorem queueStall_waits {queue : BitVec 3} {len : BitVec 2} {sD : BitVec 5} (hh : (s.tile t).held = [.qRecv t queue len sD 0])
    (he : ((s.tile t).queue queue.toNat).entries = []) :
    exec (.queueStall t) s = if 2 ^ ((s.tile t).qctl.toNat % 32) ≤ (s.tile t).heldFor then
      .next (s.tileFault t 0x022D .stall
          ((((s.tile t).queue queue.toNat).lastSender.getD 0xFFFFFFFF) * 2 ^ 32 + 2 ^ 19 + queue.toNat * 2 ^ 16
            + (4 * 2 ^ 13 + (s.tile t).bundle))) else .next s := by
  have hw : s.waitUnmet (.qRecv t queue len sD 0) = true := by rw [State.waitUnmet, he]; rfl
  rw [exec_queueStall, execQueueStall, State.unmet_single hh, hw, if_pos rfl]
  simp only [List.find?_cons, isQueueWait, State.stalled_of_held ha hh, decide_eq_true_eq]
  rfl

theorem waitStall_stalls {mask : BitVec 16} {n : Nat} (hh : (s.tile t).held = [.mvWait t mask 0]) (hn : n < 16)
    (hm : mask.getLsbD n = true) (hs : ((s.tile t).tag n).st = .active)
    (h : 2 ^ ((s.tile t).qctl.toNat % 32) ≤ (s.tile t).heldFor) :
    exec (.waitStall t) s = .next (s.tileFault t 0x022E .stall (3 * 2 ^ 13 + (s.tile t).bundle)) := by
  have hw : s.waitUnmet (.mvWait t mask 0) = true := by
    rw [State.waitUnmet, List.any_eq_true]
    exact ⟨n, List.mem_range.mpr hn, by simp [hm, Tile.tagFree, hs]⟩
  rw [exec_waitStall, execWaitStall, State.unmet_single hh, hw, if_pos rfl]
  simp only [State.stalled_of_held ha hh, decide_eq_true h]
  rfl

end

theorem heldBundleEvents : Claims.HeldBundleEvents := by
  intro s t ha hf
  refine ⟨fun port hh hi hb => ⟨waitRelease_waits hh hb, fun h0 hc => ?_⟩, fun queue len sD hh he => ⟨fun h => ?_, fun h => ?_⟩,
    fun mask n hh hn hm hs => waitStall_stalls ha hh hn hm hs, fun hi hp => ?_⟩
  · refine ⟨_, waitRelease_issues ha hf hh hi hb h0, ?_⟩
    rw [State.setTile_tile_self, Tile.slotEnd_idle (x := ((s.tile t).began.fireUsed port.toNat).counted) hc]
    exact ⟨rfl, tget_tset_self _ _ _ _, rfl, rfl, rfl, rfl⟩
  · rw [queueStall_waits ha hh he, if_neg (Nat.not_le.mpr h)]
  · rw [queueStall_waits ha hh he, if_pos h]
  · rw [exec_noEnd, execNoEnd, hi, decide_eq_true (show (s.tile t).pc ≥ 1024 from hp)]
    rfl

/-- Settles O21: the first fault as the tile's stop, an event and a cause; a held bundle as one of a single operation. -/
theorem faultsAndHeldBundles : Obligations.FaultsAndHeldBundles := ⟨tileFaultEffect, heldBundleEvents⟩

end Sys2Proof.Machine
end

section
/-!
SUPPORT. The control slot's faults before issue and where issue goes (`Obligations.FirstStageCheckFaults`, `Obligations.ControlFlow`).
-/

namespace Sys2Proof.Machine

/-! What the commands of the control slot call -/

section
variable (s : State) (t : TileId)

theorem exec_hintLight (rsv : BitVec 18) : exec (.hintLight t rsv) s
    = ctlOp t (unused rsv.toNat) (fun s => s.modTile t fun x => { x with heavy := false }) s := rfl
theorem exec_hintHeavy (rsv : BitVec 18) : exec (.hintHeavy t rsv) s
    = ctlOp t (unused rsv.toNat) (fun s => s.modTile t fun x => { x with heavy := true }) s := rfl
theorem exec_bellRing (port : BitVec 2) (rsv : BitVec 17) : exec (.bellRing t port rsv) s
    = ctlOp t (bellCheck t rsv.toNat port.toNat) (fun s =>
        s.modTile t fun x => { x with ringsFlying := x.ringsFlying ++ [(port.toNat, x.bundle)] }) s := rfl
theorem exec_end (rsv : BitVec 19) :
    exec (.end_ t rsv) s = tileOp t 0 (unused rsv.toNat) (fun s => s.endTile t) s := rfl
theorem exec_br (inv : BitVec 1) (p : BitVec 3) (target : BitVec 10) (rsv : BitVec 5) :
    exec (.br t inv p target rsv) s = execBr t inv p target rsv s := rfl
theorem exec_loop (sc : BitVec 5) (last : BitVec 10) (rsv : BitVec 4) : exec (.loop t sc last rsv) s
    = ctlLoop t rsv.toNat (fun s => (s.rs t 0 0 sc.toNat).toNat) last.toNat s := rfl
theorem exec_loopi (count : BitVec 9) (last : BitVec 10) : exec (.loopi t count last) s
    = ctlLoop t 0 (fun _ => count.toNat) last.toNat s := rfl

end

/-! Checks that fail (R113, R147) -/

theorem unused_ne_zero {w : Nat} {r : BitVec w} (h : r ≠ 0) (s : State) : unused r.toNat s = some 0x0220 :=
  if_neg fun h0 => h (BitVec.eq_of_toNat_eq (by simpa using h0))

theorem mustHold_false {b : Bool} (h : b = false) (n : Nat) (s : State) : mustHold b n s = some 0x0220 := by
  simp [mustHold, h]

theorem bellCheck_unbound {s : State} {t : TileId} {port : Nat} (h : (s.tile t).bellBound port = false) (rsv : Nat) :
    bellCheck t rsv port s = some 0x0220 := by
  simp [bellCheck, h]

/-- A loop lies ahead of its operation and within the innermost loop that runs. -/
def Tile.loopFits (x : Tile) (last : Nat) : Prop :=
  x.pc < last ∧ (x.loops = [] ∨ ∃ f r, x.loops = f :: r ∧ last ≤ f.last)

/-- Of a loop that fits, only a fifth one that runs is refused. -/
theorem loopCheck_fits {s : State} {t : TileId} {last : Nat} (h : (s.tile t).loopFits last) (count : State → Nat) :
    loopCheck t 0 count last s = if count s > 0 ∧ (s.tile t).loops.length ≥ 4 then some 0x0226 else none := by
  obtain ⟨hpc, hl | ⟨f, r, hl, hf⟩⟩ := h
  · have hle : ¬ last < (s.tile t).pc + 1 := by omega
    simp [loopCheck, hl, hle]
  · have hle : ¬ last < (s.tile t).pc + 1 := by omega
    have hin : ¬ f.last < last := Nat.not_lt.mpr hf
    simp [loopCheck, hl, hle, hin]

/-- What a first fault before issue leaves of the machine: `Obligations.FirstStageCheckFaults` for one operation. -/
theorem firstStage_fault {s : State} {t : TileId} {c : Instr} {code payload : Nat}
    (hc : exec c s = .next (s.tileFault t code .program payload)) (hf : (s.tile t).faulted = none)
    (hp : ∀ p, s.partOf t = some p → s.afterDone p = false) :
    ∃ s', exec c s = .next s' ∧ (s'.tile t).issuing = false ∧ (s'.tile t).held = [] ∧
      (s.inTide t = true → ∃ f, (s'.tile t).faulted = some f ∧ f.code = code ∧ f.bundle = (s.tile t).bundle) ∧
      (∀ p, s.partOf t = some p → running (s.part p).st = true → (s'.part p).faultBell = true) ∧
      s'.eventCount > s.eventCount ∧
      (s'.tile t).sregs = (s.tile t).sregs ∧ (s'.tile t).preds = (s.tile t).preds ∧
      (s'.tile t).vregs = (s.tile t).vregs ∧ (s'.tile t).mem = (s.tile t).mem ∧ (s'.tile t).pend = (s.tile t).pend ∧
      (s'.tile t).loops = (s.tile t).loops ∧ (s'.tile t).pc = (s.tile t).pc ∧ ∀ u, u ≠ t → s'.tile u = s.tile u := by
  refine ⟨_, hc, State.tileFault_stops _ _ _ _ _, ?_⟩
  rw [State.tileFault_tile_of_first hf]
  refine ⟨rfl, fun hi => ⟨_, if_pos hi, rfl, rfl⟩, fun p hpo hr => ?_, State.tileFault_eventCount_lt hf _ _ _ hp, rfl, rfl, rfl,
    rfl, rfl, rfl, rfl, fun u => State.tileFault_tile_ne hf _ _ _⟩
  exact (State.tileFault_part hf code .program payload hpo hr).1

/-- Settles O9: each operation fails its check, and a failed check is the tile's first fault. -/
theorem firstStageCheckFaults : Obligations.FirstStageCheckFaults := by
  intro s t hi hf hp c code h
  obtain ⟨r, rfl, hr, rfl⟩ | ⟨rd, ra, rb, fn, rfl, hfn, rfl⟩ | ⟨rd, ix, rfl, hix, rfl⟩ | ⟨r, rfl, hr, rfl⟩ |
    ⟨port, rfl, hb, rfl⟩ | ⟨r, rfl, hr, rfl⟩ | ⟨count, last, rfl, hpc, hcount, hlen, hin, rfl⟩ := h
  all_goals refine firstStage_fault (payload := (s.tile t).slotPayload 0) ?_ hf hp
  · rw [exec_nop, ctlOp]
    exact tileOp_fault hi (unused_ne_zero hr s) _
  · rw [exec_salu, execSalu, ctlOp]
    exact tileOp_fault hi (mustHold_false (decide_eq_false (Nat.not_lt.mpr hfn)) 0 s) _
  · rw [exec_scsr, execScsr, ctlOp]
    exact tileOp_fault hi (mustHold_false (decide_eq_false (Nat.not_lt.mpr hix)) _ s) _
  · rw [exec_hintLight, ctlOp]
    exact tileOp_fault hi (unused_ne_zero hr s) _
  · rw [exec_bellRing, ctlOp]
    exact tileOp_fault hi (bellCheck_unbound hb _) _
  · rw [exec_end]
    exact tileOp_fault hi (unused_ne_zero hr s) _
  · rw [exec_loopi, ctlLoop]
    exact tileOp_fault hi ((loopCheck_fits ⟨hpc, .inr hin⟩ _).trans (if_pos ⟨hcount, hlen.ge⟩)) _

/-! Where issue goes after a bundle (R121, R122, R126) -/

/-- With no loop that ends here, issue goes to the next bundle. -/
theorem Tile.advance_next {x : Tile} (h : x.loops = [] ∨ ∃ f r, x.loops = f :: r ∧ f.last ≠ x.pc) :
    x.advance = { x with pc := x.pc + 1 } := by
  obtain h | ⟨f, r, h, hne⟩ := h
  · simp only [Tile.advance, h, backEdge]
  · simp only [Tile.advance, h, backEdge, if_neg hne]

/-- With a pass left, issue goes back to the loop's first bundle. -/
theorem Tile.advance_back {x : Tile} {f : LoopFrame} {r : List LoopFrame} (h : x.loops = f :: r) (hl : f.last = x.pc)
    (hn : f.left > 1) : x.advance = { x with pc := f.first, loops := { f with left := f.left - 1 } :: r } := by
  simp only [Tile.advance, h, backEdge, if_pos hl, if_pos hn]

/-- After the last pass of the only loop, issue goes on and the loop ends. -/
theorem Tile.advance_done {x : Tile} {f : LoopFrame} (h : x.loops = [f]) (hl : f.last = x.pc) (hn : f.left ≤ 1) :
    x.advance = { x with pc := x.pc + 1, loops := [] } := by
  simp only [Tile.advance, h, backEdge, if_pos hl, if_neg (Nat.not_lt.mpr hn)]

section
variable {s : State} {t : TileId} (hi : s.canIssue t = true)
include hi

theorem nop_effect : exec (.nop t 0) s = .next (s.setTile t (s.tile t).advance) := by
  rw [exec_nop]
  exact ctlOp_effect hi (unused_zero s) id

theorem br_taken {inv : BitVec 1} {p : BitVec 3} (h : (s.rp t 0 0 p.toNat ^^ decide (inv.toNat = 1)) = true)
    (target : BitVec 10) : exec (.br t inv p target 0) s = .next (s.setTile t ((s.tile t).branch target.toNat)) := by
  rw [exec_br, execBr]
  exact (tileOp_effect hi (unused_zero s) _).trans (by rw [if_pos h, State.modTile_eq])

theorem br_not_taken {inv : BitVec 1} {p : BitVec 3} (h : (s.rp t 0 0 p.toNat ^^ decide (inv.toNat = 1)) = false)
    (target : BitVec 10) : exec (.br t inv p target 0) s = .next (s.setTile t (s.tile t).advance) := by
  rw [exec_br, execBr]
  exact (tileOp_effect hi (unused_zero s) _).trans (by
    rw [if_neg (Bool.not_eq_true _ ▸ h), State.advance, State.modTile_eq])

/-- A loop that fits and is not a fifth one starts. -/
theorem ctlLoop_effect {last : Nat} (h : (s.tile t).loopFits last) (hl : (s.tile t).loops.length < 4) (count : State → Nat) :
    ctlLoop t 0 count last s = .next (s.setTile t ((s.tile t).startLoop (count s) last)) := by
  have hc : loopCheck t 0 count last s = none :=
    (loopCheck_fits h count).trans (if_neg fun h' => Nat.not_le.mpr hl h'.2)
  exact tileOp_effect hi hc _

theorem hintLight_effect : exec (.hintLight t 0) s = .next (s.setTile t ({ s.tile t with heavy := false } : Tile).advance) := by
  rw [exec_hintLight]
  exact ctlOp_modTile hi (unused_zero s) _

theorem hintHeavy_effect : exec (.hintHeavy t 0) s = .next (s.setTile t ({ s.tile t with heavy := true } : Tile).advance) := by
  rw [exec_hintHeavy]
  exact ctlOp_modTile hi (unused_zero s) _

theorem bellRing_effect {port : BitVec 2} (hb : (s.tile t).bellBound port.toNat = true) :
    exec (.bellRing t port 0) s = .next (s.setTile t ({ s.tile t with
      ringsFlying := (s.tile t).ringsFlying ++ [(port.toNat, (s.tile t).bundle)] } : Tile).advance) := by
  rw [exec_bellRing]
  exact ctlOp_modTile hi (bellCheck_bound hb) _

/-- BELL.WAIT with no fire counted, at an issue of its own, is held. -/
theorem bellWait_held {port : BitVec 2} (hb : (s.tile t).bellBound port.toNat = true)
    (h0 : tget 0 (s.tile t).fireCnt port.toNat = 0) (hc : (s.tile t).cur = none) :
    exec (.bellWait t port 0) s = .next (s.setTile t { s.tile t with held := [.bellWait t port 0], heldFor := 0 }) := by
  have hw : s.waitUnmet (.bellWait t port 0) = true := by rw [State.waitUnmet_bellWait hb, h0]; rfl
  rw [exec_bellWait, execBellWait, hi, hw, hc]
  rfl

end

theorem controlFlowTargets : Claims.ControlFlowTargets := by
  intro s t hi
  refine ⟨fun h => ?_, fun f r hl hlast hleft => ?_, fun f hl hlast hleft => ?_, fun inv p target h => br_taken hi h target,
    fun inv p target h hl => ?_, fun sc last hpc hin hlen => ?_, fun count last hpc hin hlen => ?_⟩
  · rw [nop_effect hi, Tile.advance_next h]
  · rw [nop_effect hi, Tile.advance_back hl hlast hleft]
  · rw [nop_effect hi, Tile.advance_done hl hlast hleft]
  · rw [br_not_taken hi h, Tile.advance_next (.inl hl)]
  · rw [exec_loop]
    exact ctlLoop_effect hi ⟨hpc, hin⟩ hlen _
  · rw [exec_loopi]
    exact ctlLoop_effect hi ⟨hpc, hin⟩ hlen _

/-! END (R122, R125, R174, R227) -/

/-- The neighbours told that a tile absorbs have a signal more on its way; nothing else changes. -/
theorem State.signalAbsorb_tile (s : State) (t u : TileId) :
    ∃ l, (s.signalAbsorb t).tile u = { s.tile u with sigFlying := l } := by
  refine each_induction (P := fun v : State => ∃ l, v.tile u = { s.tile u with sigFlying := l }) (fun dir v hv => ?_) _ s ⟨_, rfl⟩
  obtain ⟨l, hl⟩ := hv
  split
  · exact ⟨l, hl⟩
  · rename_i w _
    by_cases hu : u = w
    · subst hu
      rw [State.modTile_tile_self, hl]
      exact ⟨_, rfl⟩
    · exact ⟨l, (State.modTile_tile_ne _ _ hu).trans hl⟩

theorem State.signalAbsorb_frame (s : State) (t : TileId) : ∃ l, s.signalAbsorb t = { s with tiles := l } := by
  refine each_induction (P := fun v : State => ∃ l, v = { s with tiles := l }) (fun dir v hv => ?_) _ s ⟨_, rfl⟩
  obtain ⟨l, rfl⟩ := hv
  split
  · exact ⟨_, rfl⟩
  · exact ⟨_, rfl⟩

/-- A canary missed is noted with its window, and its event raised. -/
theorem State.canaryMissed_cases (s : State) (t : TileId) :
    s.canaryMissed t = s ∨ ∃ m, EventOnly (s.setTile t { s.tile t with canaryMissedAt := m }) (s.canaryMissed t) := by
  unfold State.canaryMissed
  dsimp only
  split
  · exact .inl rfl
  · split
    · exact .inl rfl
    · exact .inr ⟨_, State.raiseTile_eventOnly _ _ _ _ _⟩

theorem State.canaryMissed_tile (s : State) (t : TileId) :
    ∃ m, (s.canaryMissed t).tile t = { s.tile t with canaryMissedAt := m } := by
  obtain h | ⟨m, h⟩ := s.canaryMissed_cases t
  · exact ⟨_, by rw [h]⟩
  · rw [h]
    exact ⟨m, State.setTile_tile_self _ _ _⟩

theorem State.canaryMissed_frame (s : State) (t : TileId) : (s.canaryMissed t).parts = s.parts ∧
    (s.canaryMissed t).hbm = s.hbm ∧ (s.canaryMissed t).pages = s.pages ∧ (s.canaryMissed t).streams = s.streams := by
  obtain h | ⟨m, h⟩ := s.canaryMissed_cases t
  · rw [h]
    exact ⟨rfl, rfl, rfl, rfl⟩
  · rw [h]
    exact ⟨rfl, rfl, rfl, rfl⟩

/-- An ended tile: what END changes of it. -/
theorem State.endTile_tile (s : State) (t : TileId) : ∃ l m, (s.endTile t).tile t =
    { s.tile t with issuing := false, ended := true, loops := []
                    markLeft := if s.markTide t then s.markWrites t else [], sigFlying := l, canaryMissedAt := m } := by
  rw [State.endTile, State.modTile_eq]
  obtain ⟨m, hm⟩ := State.canaryMissed_tile (State.signalAbsorb (s.setTile t _) t) t
  obtain ⟨l, hl⟩ := State.signalAbsorb_tile (s.setTile t _) t t
  rw [hm, hl, State.setTile_tile_self]
  exact ⟨_, _, rfl⟩

theorem State.endTile_frame (s : State) (t : TileId) : (s.endTile t).parts = s.parts ∧
    (s.endTile t).hbm = s.hbm ∧ (s.endTile t).pages = s.pages ∧ (s.endTile t).streams = s.streams := by
  rw [State.endTile, State.modTile_eq]
  obtain ⟨hp, hh, hg, hs⟩ := State.canaryMissed_frame (State.signalAbsorb (s.setTile t _) t) t
  obtain ⟨l, hl⟩ := State.signalAbsorb_frame (s.setTile t _) t
  rw [hp, hh, hg, hs, hl]
  exact ⟨rfl, rfl, rfl, rfl⟩

theorem endStopsTheTile : Claims.EndStopsTheTile := by
  intro s t hi
  obtain ⟨l, m, h⟩ := s.endTile_tile t
  have hended : ((s.endTile t).tile t).ended = true := by rw [h]
  refine ⟨s.endTile t, by rw [exec_end]; exact tileOp_effect hi (unused_zero s) _, ?_⟩
  refine ⟨by rw [h], hended, State.absorbing_of_ended hended, ?_⟩
  rw [h]
  exact ⟨rfl, rfl, rfl, rfl, rfl, rfl, rfl, rfl, rfl, rfl, s.endTile_frame t⟩

theorem bellAndHintOperations : Claims.BellAndHintOperations := by
  intro s t hi
  refine ⟨fun port => bellRing_effect hi, fun port hb h0 => ?_, fun port => bellWait_held hi, hintLight_effect hi,
    hintHeavy_effect hi⟩
  have hw : s.waitUnmet (.bellWait t port 0) = false := by rw [State.waitUnmet_bellWait hb, decide_eq_false h0.ne']
  exact bellWait_passes hi hb (by rw [hw, Bool.and_false])

/-- Settles O7: issue by the cases of `Tile.advance`, of a branch and of a loop's start; END as the tile's change and the signals
to its neighbours. -/
theorem controlFlow : Obligations.ControlFlow := ⟨controlFlowTargets, endStopsTheTile, bellAndHintOperations⟩

end Sys2Proof.Machine
end

section
/-!
SUPPORT. SPEC operations on tags and on verdicts (`Obligations.SpecAndVerdicts`).
-/

namespace Sys2Proof.Machine

/-! What the commands call -/

section
variable (s : State) (t : TileId) (sa sb : BitVec 5)

theorem exec_specConfirm (rsv : BitVec 8) : exec (.specConfirm t sa sb rsv) s
    = ctlOp t (specCheck t rsv.toNat sa.toNat sb.toNat) (fun s =>
        each (s.specTags t sa.toNat) (fun n st => st.modTag t n TagState.confirm) s) s := rfl
theorem exec_specDiscard (rsv : BitVec 13) : exec (.specDiscard t sa rsv) s
    = ctlOp t (specCheck t rsv.toNat sa.toNat 0) (fun s =>
        each (s.specTags t sa.toNat) (fun n st => st.specDiscardTag t n) s) s := rfl
theorem exec_specConfirmVerdict (rsv : BitVec 8) : exec (.specConfirmVerdict t sa sb rsv) s
    = ctlOp t (unused rsv.toNat) (fun s => s.issueVerdict t (s.rs t 0 0 sa.toNat) (s.rs t 0 1 sb.toNat) false) s := rfl
theorem exec_specDiscardVerdict (rsv : BitVec 13) : exec (.specDiscardVerdict t sa rsv) s
    = ctlOp t (unused rsv.toNat) (fun s => s.issueVerdict t (s.rs t 0 0 sa.toNat) 0 true) s := rfl
theorem exec_deferralNotice (rsv : BitVec 13) : exec (.deferralNotice t sa rsv) s
    = ctlOp t (unused rsv.toNat) (fun s => s.issueVerdict t (s.rs t 0 0 sa.toNat) 0 true) s := rfl

end

/-! The tags that a word names (R143) -/

theorem bit_eq_testBit (v i : Nat) : bit v i = v.testBit i := (Nat.testBit_eq_decide_div_mod_eq).symm

/-- A word with one bit set names one tag. -/
theorem State.specTags_single {s : State} {t : TileId} {sa n : Nat} (hn : n < 16) (h : (s.rs t 0 0 sa).toNat = 2 ^ n) :
    s.specTags t sa = [n] := by
  have hone : ∀ n < 16, ((List.range 16).filter fun k => decide (n = k)) = [n] := by decide
  simp only [State.specTags, h, bit_eq_testBit, Nat.testBit_two_pow]
  exact hone n hn

theorem specCheck_single {s : State} {t : TileId} {sa n : Nat} (hn : n < 16) (h : (s.rs t 0 0 sa).toNat = 2 ^ n) :
    specCheck t 0 sa 0 s = none := by
  have hlt : ¬ 2 ^ n ≥ 2 ^ 16 := Nat.not_le.mpr (Nat.pow_lt_pow_right (by decide) hn)
  rw [specCheck, h, if_neg]
  simp only [ne_eq, not_true_eq_false, false_or, hlt, not_false_eq_true]

theorem TagState.confirm_eq (g : TagState) : g.confirm
    = if g.st = .landed then {} else if g.st = .active then { g with shadow := false } else g := by
  cases h : g.st <;> simp [TagState.confirm, h]

theorem specConfirm_effect {s : State} {t : TileId} {sa : BitVec 5} {n : Nat} (hi : s.canIssue t = true) (hn : n < 16)
    (h : (s.rs t 0 0 sa.toNat).toNat = 2 ^ n) : exec (.specConfirm t sa 0 0) s
      = .next (s.setTile t ({ s.tile t with tags := tset (s.tile t).tags n ((s.tile t).tag n).confirm } : Tile).advance) := by
  rw [exec_specConfirm]
  refine (ctlOp_effect hi (specCheck_single hn h) _).trans ?_
  have hone : each [n] (fun n st => st.modTag t n TagState.confirm) s = s.modTag t n TagState.confirm := rfl
  rw [State.specTags_single hn h, hone, State.modTag, State.advance, State.modTile_modTile, State.modTile_eq]

/-- SPEC.DISCARD of one tag discards it and steps on. -/
theorem specDiscard_effect {s : State} {t : TileId} {sa : BitVec 5} {n : Nat} (hi : s.canIssue t = true) (hn : n < 16)
    (h : (s.rs t 0 0 sa.toNat).toNat = 2 ^ n) : exec (.specDiscard t sa 0) s = .next ((s.specDiscardTag t n).advance t) := by
  rw [exec_specDiscard]
  refine (ctlOp_effect hi (specCheck_single hn h) _).trans ?_
  rw [State.specTags_single hn h]
  rfl

/-! A tag discarded (R143) -/

/-- Scratchpad words written: the stores of earlier cycles are made, and the words' check bits are fresh. -/
def Tile.ScratchOnly (x y : Tile) : Prop :=
  y = { x with mem := y.mem, pend := y.pend, flips := y.flips, corrList := y.corrList }

theorem Tile.ScratchOnly.trans {x y z : Tile} (h : x.ScratchOnly y) (k : y.ScratchOnly z) : x.ScratchOnly z := by
  unfold Tile.ScratchOnly at *
  rw [k, h]

theorem Tile.lineWritten_scratchOnly (x : Tile) (l : Nat) : x.ScratchOnly (x.lineWritten l) := by
  unfold Tile.lineWritten
  dsimp only
  split <;> rfl

theorem Tile.storesIn_scratchOnly (x : Tile) : x.ScratchOnly x.storesIn := by
  unfold Tile.storesIn
  refine List.foldlRecOn (motive := fun y => x.ScratchOnly y) _ _ rfl fun y hy a _ => ?_
  exact hy.trans (Tile.ScratchOnly.trans (y := { y with flips := tdel y.flips a }) rfl (Tile.lineWritten_scratchOnly _ _))

theorem Tile.writeWord_scratchOnly (x : Tile) (w : Nat) (v : Word) : x.ScratchOnly (x.writeWord w v) :=
  x.storesIn_scratchOnly.trans (Tile.ScratchOnly.trans
    (y := { x.storesIn with mem := putWord x.storesIn.mem w v, flips := tdel x.storesIn.flips w }) rfl
    (Tile.lineWritten_scratchOnly _ _))

/-- A discarded tag is idle; of its tile only scratchpad words, the tag and the mover's place change, and no other tile does. -/
theorem State.discardTag_tiles (s : State) (t : TileId) (n : Nat) :
    (∃ y, (s.tile t).ScratchOnly y ∧ (s.discardTag t n).tile t = { y with tags := tset y.tags n {}, mvBusy := none }) ∧
      ∀ u, u ≠ t → (s.discardTag t n).tile u = s.tile u := by
  unfold State.discardTag
  dsimp only
  generalize hv : List.foldl _ _ _ = v
  have key : (s.tile t).ScratchOnly (v.tile t) ∧ ∀ u, u ≠ t → v.tile u = s.tile u := by
    rw [← hv]
    refine List.foldlRecOn (motive := fun w : State => (s.tile t).ScratchOnly (w.tile t) ∧ ∀ u, u ≠ t → w.tile u = s.tile u)
      _ _ ⟨rfl, fun u _ => rfl⟩ fun w hw p _ => ⟨?_, fun u hu => ?_⟩
    · rw [State.modTile_tile_self]
      exact hw.1.trans (Tile.writeWord_scratchOnly _ _ _)
    · rw [State.modTile_tile_ne _ _ hu]
      exact hw.2 u hu
  refine ⟨⟨v.tile t, key.1, by rw [State.modTag, State.modTile_modTile, State.modTile_tile_self]⟩, fun u hu => ?_⟩
  rw [State.modTag, State.modTile_modTile, State.modTile_tile_ne _ _ hu]
  exact key.2 u hu

theorem specKindZeroOnTags : Claims.SpecKindZeroOnTags := by
  intro s t sa n hi hn h
  refine ⟨by rw [specConfirm_effect hi hn h, TagState.confirm_eq], fun hidle => ?_, fun hheld => ?_⟩
  · have hskip : s.specDiscardTag t n = s := if_neg (by obtain h | ⟨h, hs⟩ := hidle <;> simp_all)
    rw [specDiscard_effect hi hn h, hskip, State.advance, State.modTile_eq]
  · have hdisc : s.specDiscardTag t n = s.discardTag t n := if_pos (by simpa using hheld)
    obtain ⟨⟨y, hy, htile⟩, hother⟩ := s.discardTag_tiles t n
    refine ⟨_, specDiscard_effect hi hn h, ?_⟩
    rw [hdisc, State.advance, State.modTile_tile_self, htile]
    rw [Tile.ScratchOnly] at hy
    refine ⟨tget_tset_self _ _ _ _, fun m hm => ?_, by rw [hy]; rfl, by rw [hy]; rfl, by rw [hy]; rfl, by rw [hy]; rfl,
      by rw [hy]; rfl, fun u hu => ?_⟩
    · rw [hy]
      exact tget_tset_ne _ _ _ hm
    · rw [State.modTile_tile_ne _ _ hu]
      exact hother u hu

/-! Verdicts (R144, R300) -/

/-- A packet that enters the mesh and a change of a tile do not meet. -/
theorem State.inject_setTile (s : State) (port : Nat) (p : Packet) (t : TileId) (x : Tile) :
    (s.inject port p).setTile t x = (s.setTile t x).inject port p := rfl

theorem State.inject_tile (s : State) (port : Nat) (p : Packet) (t : TileId) : (s.inject port p).tile t = s.tile t := rfl

/-- A packet from a tile to a unit, changed tile or not: it enters at the tile's router. -/
theorem State.setTile_sendToUnit (s : State) (t : TileId) (x : Tile) (u : EdgeUnit) (p : Packet) :
    (s.setTile t x).sendToUnit t u p = (s.setTile t x).inject 4 (routed (s.routerOf t) (s.unitExit t u).1 (s.unitExit t u).2
      { p with src := t, dst := t, toPort := none, unit := u }) := rfl

/-- The packet of a verdict on its way to the stream engine. -/
def State.verdictPacket (s : State) (t : TileId) (sa sb : Word) (discard : Bool) : Packet :=
  routed (s.routerOf t) (s.unitExit t .stream).1 (s.unitExit t .stream).2
    { kind := .verdict, vc := 2, words := [sa, sb], acc := b01 discard, src := t, dst := t, toPort := none, unit := .stream }

/-- A verdict is counted as in flight, and enters the mesh; the tile steps on. -/
theorem ctlOp_verdict {s : State} {t : TileId} (hi : s.canIssue t = true) {r : Nat} (hr : r = 0) (sa sb : State → Word)
    (discard : Bool) : ctlOp t (unused r) (fun s => s.issueVerdict t (sa s) (sb s) discard) s
      = .next ((s.setTile t ({ s.tile t with verdictsFlying := (s.tile t).verdictsFlying + 1 } : Tile).advance).inject 4
          (s.verdictPacket t (sa s) (sb s) discard)) := by
  subst hr
  rw [ctlOp_effect hi (unused_zero s), State.issueVerdict, State.modTile_eq, State.setTile_sendToUnit, State.advance,
    State.modTile_eq, State.inject_tile, State.setTile_tile_self, State.inject_setTile, State.setTile_setTile]
  rfl

theorem verdictOperations : Claims.VerdictOperations := by
  intro s t hi
  refine ⟨fun sa sb => ⟨s.verdictPacket t (s.rs t 0 0 sa.toNat) (s.rs t 0 1 sb.toNat) false, ?_, rfl, rfl, rfl, rfl, rfl, rfl⟩,
    fun sa => ⟨s.verdictPacket t (s.rs t 0 0 sa.toNat) 0 true, ?_, ?_, rfl, rfl, rfl, rfl, rfl, rfl⟩⟩
  · rw [exec_specConfirmVerdict]
    exact ctlOp_verdict hi rfl _ _ _
  · rw [exec_specDiscardVerdict]
    exact ctlOp_verdict hi rfl _ (fun _ => 0) _
  · rw [exec_deferralNotice, exec_specDiscardVerdict]

/-- Settles O8: one tag confirmed or discarded, and a verdict as a packet that enters the mesh. -/
theorem specAndVerdicts : Obligations.SpecAndVerdicts := ⟨specKindZeroOnTags, verdictOperations⟩

end Sys2Proof.Machine
end

section
/-!
SUPPORT. Loads and stores of the control and vector slots (`Obligations.ScratchpadAccess`).
-/

namespace Sys2Proof.Machine

/-! What the commands call -/

theorem exec_sld (s : State) (t : TileId) (rd ra : BitVec 5) (imm : BitVec 9) :
    exec (.sld t rd ra imm) s = execSld t rd ra imm s := rfl
theorem exec_sst (s : State) (t : TileId) (rs ra : BitVec 5) (imm : BitVec 9) :
    exec (.sst t rs ra imm) s = execSst t rs ra imm s := rfl
theorem exec_vld (s : State) (t : TileId) (vD sA : BitVec 5) (imm : BitVec 12) :
    exec (.vld t vD sA imm) s = execVld t vD sA imm s := rfl
theorem exec_vst (s : State) (t : TileId) (vS sA : BitVec 5) (imm : BitVec 12) :
    exec (.vst t vS sA imm) s = execVst t vS sA imm s := rfl

/-! Reads of words in lines that are not lost (R154, R160) -/

/-- A word of a list is looked up under itself. -/
theorem lookup_zip_map {α : Type} (f : Nat → α) {w : Nat} : ∀ {ws : List Nat}, w ∈ ws →
    (ws.zip (ws.map f)).lookup w = some (f w)
  | v :: r, h => by
    by_cases e : w = v
    · subst e
      simp
    · have hr : w ∈ r := (List.mem_cons.mp h).resolve_left e
      have hne : (w == v) = false := by simpa using e
      simp only [List.map_cons, List.zip_cons_cons, List.lookup_cons, hne]
      exact lookup_zip_map f hr

theorem linesOf_single (w : Nat) : linesOf [w] = [w / 4] := rfl

/-- No line of the words is lost where none of the words lies in a lost line. -/
theorem linesOf_not_lost {x : Tile} {ws : List Nat} (h : ∀ w ∈ ws, x.lost (w / 4) = false) :
    ((linesOf ws).filter fun l => x.lost l) = [] := by
  refine List.filter_eq_nil_iff.mpr fun l hl => ?_
  obtain ⟨w, hw, rfl⟩ := List.mem_map.mp (List.mem_eraseDups.mp hl)
  simp [h w hw]

/-- A read of words in lines that are free, stored without error, takes the lines and gives the words. -/
theorem State.lineRead_clean {s : State} {t : TileId} {ws : List Nat} (hl : ∀ w ∈ ws, (s.tile t).lost (w / 4) = false)
    (req : Nat) {get : Nat → Word × Nat} (hg : ∀ w ∈ ws, (get w).2 = 0) :
    s.lineRead t req get ws = (s.setTile t ((s.tile t).take (linesOf ws)), some (ws.map fun w => (get w).1)) := by
  have hall : (ws.filter fun w => !(([] : List Nat).contains (w / 4))) = ws :=
    List.filter_eq_self.mpr fun _ _ => rfl
  simp only [State.lineRead, linesOf_not_lost hl, hall, State.readWords_clean _ _ _ _ hg]
  refine congrArg (fun l => (_, some l)) (List.map_congr_left fun w hw => ?_)
  rw [lookup_zip_map _ hw]
  rfl

/-- A word stored without error is read without one, whatever is pending. -/
theorem State.flipsSeen_zero {s : State} {t : TileId} {w : Nat} (h : tget 0 (s.tile t).flips w = 0) (slot : Nat) :
    s.flipsSeen t slot w = 0 := by
  refine seen_induction (P := fun n : Nat => n = 0) (fun p _ u e _ => ?_) _ _ _ _ _ h
  split at e
  · split at e <;> cases e
    rfl
  · cases e

theorem State.progRead_clean {s : State} {t : TileId} {ws : List Nat} (hl : ∀ w ∈ ws, (s.tile t).lost (w / 4) = false)
    (hz : ∀ w ∈ ws, tget 0 (s.tile t).flips w = 0) (slot req : Nat) : s.progRead t slot req ws
      = (s.setTile t ((s.tile t).take (linesOf ws)), some (ws.map fun w => s.memSeen t slot w)) :=
  State.lineRead_clean hl req fun w hw => State.flipsSeen_zero (hz w hw) slot

/-- A write of words in lines that are free: each is a pending store at latency 2. -/
theorem State.progWrite_free {s : State} {t : TileId} {ws : List (Nat × Word)}
    (hl : ∀ w ∈ ws, (s.tile t).lost (w.1 / 4) = false) (slot : Nat) : s.progWrite t slot ws
      = s.setTile t (ws.foldl (fun y w => y.later slot 2 (.mem w.1 w.2)) ((s.tile t).take (linesOf (ws.map (·.1))))) := by
  have hall : (ws.filter fun w => !((s.tile t).lost (w.1 / 4))) = ws :=
    List.filter_eq_self.mpr fun w hw => by rw [hl w hw]; rfl
  simp only [State.progWrite, hall]

/-! SLD and SST (R119, R133) -/

theorem scalarScratchpadAccess : Claims.ScalarScratchpadAccess := by
  intro s t ra imm hi hl
  have hone : ∀ w ∈ [s.scalarWord t ra.toNat imm.toNat], (s.tile t).lost (w / 4) = false := by
    simpa [State.scalarWord] using hl
  refine ⟨fun rd hz => ?_, fun rs => ?_⟩
  · have hclean : ∀ w ∈ [s.scalarWord t ra.toNat imm.toNat], tget 0 (s.tile t).flips w = 0 := by
      simpa [State.scalarWord] using hz
    rw [exec_sld, execSld]
    refine (ctlOp_effect hi (unused_zero s) _).trans ?_
    simp only [State.progRead_clean hone hclean, State.advance, State.modTile_eq, State.setTile_tile_self,
      State.setTile_setTile, linesOf_single]
    rfl
  · have hfree : ∀ w ∈ [(s.scalarWord t ra.toNat imm.toNat, s.rs t 0 1 rs.toNat)], (s.tile t).lost (w.1 / 4) = false := by
      simpa [State.scalarWord] using hl
    rw [exec_sst, execSst]
    refine (ctlOp_effect hi (unused_zero s) _).trans ?_
    rw [State.progWrite_free hfree, State.advance, State.modTile_eq, State.setTile_tile_self, State.setTile_setTile]
    rfl

/-! VLD and VST (R131, R133) -/

/-- The words of a vector access with the lanes of a register of 32. -/
theorem zip_range_map {l : List Word} {n : Nat} (h : l.length = n) (f : Nat → Nat) :
    ((List.range n).map f).zip l = (List.range n).map fun i => (f i, l.getD i 0) := by
  apply List.ext_getElem
  · simp [h]
  · intro i hi _
    have hil : i < l.length := by simpa [h] using hi
    simp [List.getD_eq_getElem?_getD, hil]

theorem vld_effect {s : State} {t : TileId} {sA : BitVec 5} {imm : BitVec 12} (hi : s.canIssue t = true)
    (hl : ∀ w ∈ s.vectorWords t sA.toNat imm.toNat, (s.tile t).lost (w / 4) = false)
    (hz : ∀ w ∈ s.vectorWords t sA.toNat imm.toNat, tget 0 (s.tile t).flips w = 0) (vD : BitVec 5) :
    exec (.vld t vD sA imm) s = .next (s.setTile t (((s.tile t).take (linesOf (s.vectorWords t sA.toNat imm.toNat))).wV 2 5
      vD.toNat ((s.vectorWords t sA.toNat imm.toNat).map fun w => s.memSeen t 2 w))) := by
  rw [exec_vld, execVld]
  refine (tileOp_effect hi (unused_zero s) _).trans ?_
  simp only [State.progRead_clean hl hz, State.modTile_eq, State.setTile_tile_self, State.setTile_setTile]

theorem vst_effect {s : State} {t : TileId} {sA : BitVec 5} {imm : BitVec 12} (hi : s.canIssue t = true)
    (hl : ∀ w ∈ s.vectorWords t sA.toNat imm.toNat, (s.tile t).lost (w / 4) = false) (vS : BitVec 5) :
    ∃ ls, exec (.vst t vS sA imm) s = .next (s.setTile t { (s.tile t).take ls with
      pend := (s.tile t).pend ++ (List.range 32).map (fun n =>
        { dest := .mem (((s.rs t 2 0 sA.toNat).toNat + imm.toNat + n) % 65536) ((s.rv t 2 1 vS.toNat).getD n 0)
          land := (s.tile t).ecc + 1, issued := (s.tile t).ecc, slot := 2 }) }) := by
  have hzip : (s.vectorWords t sA.toNat imm.toNat).zip (s.rv t 2 1 vS.toNat) = (List.range 32).map fun n =>
      (((s.rs t 2 0 sA.toNat).toNat + imm.toNat + n) % 65536, (s.rv t 2 1 vS.toNat).getD n 0) :=
    zip_range_map (s.rv_length t 2 1 vS.toNat) _
  have hfree : ∀ w ∈ (s.vectorWords t sA.toNat imm.toNat).zip (s.rv t 2 1 vS.toNat), (s.tile t).lost (w.1 / 4) = false :=
    fun w hw => hl w.1 (List.of_mem_zip hw).1
  rw [exec_vst, execVst, tileOp_effect hi (unused_zero s), State.progWrite_free hfree, Tile.foldl_later, hzip, List.map_map]
  exact ⟨_, rfl⟩

theorem vectorScratchpadAccess : Claims.VectorScratchpadAccess := by
  intro s t sA imm hi hl
  refine ⟨fun vD hz => ?_, fun vS => ?_⟩
  · rw [vld_effect hi hl hz, State.vectorWords, List.map_map]
    rfl
  · obtain ⟨ls, h⟩ := vst_effect hi hl vS
    refine ⟨_, h, ?_⟩
    rw [State.setTile_tile_self]
    exact ⟨rfl, rfl, rfl, rfl, rfl, rfl, fun u => State.setTile_tile_ne _ _⟩

/-- Settles O10: reads and writes of words in lines that are free, stored without error. -/
theorem scratchpadAccess : Obligations.ScratchpadAccess := ⟨scalarScratchpadAccess, vectorScratchpadAccess⟩

end Sys2Proof.Machine
end

section
/-!
SUPPORT. Operations of the mover slot (`Obligations.MoverSlotOperations`).
-/

namespace Sys2Proof.Machine

/-! What the commands of the mover slot call -/

section
variable (s : State) (t : TileId)

theorem exec_mvNop (rsv : BitVec 20) : exec (.mvNop t rsv) s = tileOp t 3 (unused rsv.toNat) id s := rfl
theorem exec_mvWait (mask : BitVec 16) (rsv : BitVec 4) : exec (.mvWait t mask rsv) s
    = waitOp (.mvWait t mask rsv) t 3 (unused rsv.toNat) id s := rfl
theorem exec_mvTest (pd : BitVec 3) (tag : BitVec 4) (rsv : BitVec 13) : exec (.mvTest t pd tag rsv) s
    = tileOp t 3 (unused rsv.toNat) (fun s => s.modTile t fun x => x.wP 3 1 pd.toNat (x.tagFree tag.toNat)) s := rfl
theorem exec_mvIssue (tag : BitVec 4) (sD : BitVec 5) (rsv : BitVec 11) :
    exec (.mvIssue t tag sD rsv) s = execMvIssue t tag sD rsv s := rfl

end

/-! Waiting operations on a tile that issues (R140) -/

/-- A wait that is met, or whose bundle is issuing, leaves an operation like any other. -/
theorem waitOp_met {s : State} {t : TileId} {i : Instr} (h : ((s.tile t).cur.isNone && s.waitUnmet i) = false)
    (slot : Nat) (check : State → Option Nat) (k : State → State) : waitOp i t slot check k s = tileOp t slot check k s := by
  rw [waitOp, Bool.and_assoc, h, Bool.and_false]
  exact if_neg Bool.false_ne_true

/-- An unmet wait at an issue of its own is held. -/
theorem waitOp_held {s : State} {t : TileId} {i : Instr} (hi : s.canIssue t = true) (hc : (s.tile t).cur = none)
    (h : s.waitUnmet i = true) (slot : Nat) (check : State → Option Nat) (k : State → State) :
    waitOp i t slot check k s = .next (s.setTile t { s.tile t with held := [i], heldFor := 0 }) := by
  rw [waitOp, hi, hc, h]
  rfl

/-- MV.WAIT waits for the named tags that are ACTIVE. -/
theorem State.waitUnmet_mvWait {s : State} {t : TileId} (mask : BitVec 16) (rsv : BitVec 4) :
    s.waitUnmet (.mvWait t mask rsv) = true ↔ ∃ n, n < 16 ∧ mask.getLsbD n = true ∧ ((s.tile t).tag n).st = .active := by
  simp [State.waitUnmet, Tile.tagFree]

/-! MV.ISSUE (R134, R135, R147) -/

theorem mvIssueCheck_passes {s : State} {t : TileId} {tag sD : Nat} (hidle : ((s.tile t).tag tag).st = .idle)
    (ha : s.descWord t sD % 16 = 0) : mvIssueCheck t 0 tag sD s = none := by
  simp [mvIssueCheck, hidle, ha]

/-- The tile with a tag that starts a fresh descriptor. -/
def Tile.descIssued (x : Tile) (tag : Nat) (w : List Word) : Tile :=
  { x with issueSeq := x.issueSeq + 1, tags := tset x.tags tag (x.newTag w) }

/-- A descriptor read without error starts where its content passes, and faults where it does not. -/
theorem mvIssue_effect {s s1 : State} {t : TileId} {tag : BitVec 4} {sD : BitVec 5} {w : List Word} (hi : s.canIssue t = true)
    (hidle : ((s.tile t).tag tag.toNat).st = .idle) (ha : s.descWord t sD.toNat % 16 = 0)
    (hr : s.lineRead t 2 (s.tile t).readNow ((List.range 16).map fun i => s.descWord t sD.toNat + i) = (s1, some w)) :
    exec (.mvIssue t tag sD 0) s = .next (if s1.descOk t w then s1.setTile t ((s1.tile t).descIssued tag.toNat w)
      else s1.tileFault t 0x022A .program ((s1.tile t).slotPayload 3)) := by
  rw [exec_mvIssue, execMvIssue]
  refine (tileOp_effect hi (mvIssueCheck_passes hidle ha) _).trans ?_
  simp only [hr]
  rfl

/-- Settles O19: the wait of MV.WAIT by the tags it names, and MV.ISSUE by the descriptor read and its check. -/
theorem moverSlotOperations : Obligations.MoverSlotOperations := by
  intro s t hi
  refine ⟨by rw [exec_mvNop]; exact tileOp_effect hi (unused_zero s) id, fun mask hfree => ?_, fun mask n hn hm ha hc => ?_,
    fun pd tag => by rw [exec_mvTest]; exact tileOp_effect hi (unused_zero s) _,
    fun tag sD s1 w hidle ha hr => ⟨fun hbad => ?_, fun hok => ⟨_, mvIssue_effect hi hidle ha hr, ?_⟩⟩⟩
  · have hw : s.waitUnmet (.mvWait t mask 0) = false := by
      rw [← Bool.not_eq_true, State.waitUnmet_mvWait]
      rintro ⟨n, hn, hm, ha⟩
      exact hfree n hn hm ha
    rw [exec_mvWait, waitOp_met (by rw [hw, Bool.and_false])]
    exact tileOp_effect hi (unused_zero s) id
  · rw [exec_mvWait]
    exact waitOp_held hi hc ((State.waitUnmet_mvWait mask 0).mpr ⟨n, hn, hm, ha⟩) _ _ _
  · rw [mvIssue_effect hi hidle ha hr, hbad]
    rfl
  · have htag : ((s1.tile t).descIssued tag.toNat w).tag tag.toNat = (s1.tile t).newTag w := tget_tset_self _ _ _ _
    rw [hok, if_pos rfl, State.setTile_tile_self, htag]
    exact ⟨rfl, rfl, rfl, rfl, rfl, fun m hm => tget_tset_ne _ _ _ hm, rfl⟩

end Sys2Proof.Machine
end

section
/-!
SUPPORT. Operations of the queue slot (`Obligations.QueueOperations`).
-/

namespace Sys2Proof.Machine

/-! What the commands of the queue slot call -/

section
variable (s : State) (t : TileId) (route queue : BitVec 3) (len : BitVec 2)

theorem exec_qNop (rsv : BitVec 21) : exec (.qNop t rsv) s = tileOp t 4 (unused rsv.toNat) id s := rfl
theorem exec_qTest (pd : BitVec 3) (rsv : BitVec 15) : exec (.qTest t pd queue rsv) s
    = tileOp t 4 (unused rsv.toNat) (fun s =>
        s.modTile t fun x => x.wP 4 1 pd.toNat (!(x.queue queue.toNat).entries.isEmpty)) s := rfl
theorem exec_qSend (sS sT : BitVec 5) (rsv : BitVec 3) : exec (.qSend t route queue len sS sT rsv) s
    = waitOp (.qSend t route queue len sS sT rsv) t 4
        (fun s => s.sendCheck t route.toNat rsv.toNat sT.toNat (decide (sS.toNat + len.toNat ≤ 31)))
        (fun s => s.send t route.toNat queue.toNat sT.toNat (s.sendWords t sS.toNat len.toNat)) s := rfl
theorem exec_qSendv (vS : BitVec 5) (group : BitVec 3) (sT : BitVec 5) : exec (.qSendv t route queue len vS group sT) s
    = waitOp (.qSendv t route queue len vS group sT) t 4 (fun s => s.sendCheck t route.toNat 0 sT.toNat true)
        (fun s => s.send t route.toNat queue.toNat sT.toNat (s.sendLanes t vS.toNat group.toNat len.toNat)) s := rfl
theorem exec_qRecv (sD : BitVec 5) (rsv : BitVec 11) :
    exec (.qRecv t queue len sD rsv) s = execQRecv t queue len sD rsv s := rfl
theorem exec_qRecvv (vD : BitVec 5) (group : BitVec 3) (rsv : BitVec 8) :
    exec (.qRecvv t queue len vD group rsv) s = execQRecvv t queue len vD group rsv s := rfl

end

/-! Sends (R136, R137, R171, R172) -/

/-- What the two sends share: `c` sends the words `ws` once it need not wait and its route has a target. -/
structure IsSend (s : State) (t : TileId) (c : Instr) (route queue : BitVec 3) (len : BitVec 2) (sT : BitVec 5)
    (ws : List Word) : Prop where
  waits : s.waitUnmet c = s.sendWaits t route.toNat queue.toNat (len.toNat + 1)
  exec_eq : ∃ check k, exec c s = waitOp c t 4 check k s ∧ check s = s.sendCheck t route.toNat 0 sT.toNat true ∧
    k s = s.send t route.toNat queue.toNat sT.toNat ws

/-- Q.SEND and Q.SENDV with their ranges in bounds. -/
theorem isSend_of_cases {s : State} {t : TileId} {c : Instr} {route queue : BitVec 3} {len : BitVec 2} {sT : BitVec 5}
    {ws : List Word}
    (h : (∃ sS : BitVec 5, sS.toNat + len.toNat ≤ 31 ∧ c = .qSend t route queue len sS sT 0 ∧
        ws = (List.range (len.toNat + 1)).map fun i => s.rs t 4 i (sS.toNat + i)) ∨
      (∃ (vS : BitVec 5) (group : BitVec 3), c = .qSendv t route queue len vS group sT ∧
        ws = ((s.rv t 4 0 vS.toNat).drop (4 * group.toNat)).take (len.toNat + 1))) :
    IsSend s t c route queue len sT ws := by
  obtain ⟨sS, hr, rfl, rfl⟩ | ⟨vS, group, rfl, rfl⟩ := h
  · exact ⟨rfl, _, _, exec_qSend s t route queue len sS sT 0, by rw [decide_eq_true hr]; rfl, rfl⟩
  · exact ⟨rfl, _, _, exec_qSendv s t route queue len vS group sT, rfl, rfl⟩

section
variable {s : State} {t : TileId} {c : Instr} {route queue : BitVec 3} {len : BitVec 2} {sT : BitVec 5} {ws : List Word}
  (hi : s.canIssue t = true) (hs : IsSend s t c route queue len sT ws)
include hi hs

/-- A send that need not wait and passes its check sends. -/
theorem IsSend.sends (hw : s.sendWaits t route.toNat queue.toNat (len.toNat + 1) = false)
    (hc : s.sendCheck t route.toNat 0 sT.toNat true = none) :
    exec c s = .next (s.send t route.toNat queue.toNat sT.toNat ws) := by
  obtain ⟨check, k, he, hcheck, hk⟩ := hs.exec_eq
  rw [he, waitOp_met (by rw [hs.waits, hw, Bool.and_false]), tileOp_effect hi (hcheck.trans hc), hk]

/-- A send that need not wait and fails its check faults. -/
theorem IsSend.faults (hw : s.sendWaits t route.toNat queue.toNat (len.toNat + 1) = false) {code : Nat}
    (hc : s.sendCheck t route.toNat 0 sT.toNat true = some code) :
    exec c s = .next (s.tileFault t code .program ((s.tile t).slotPayload 4)) := by
  obtain ⟨check, k, he, hcheck, hk⟩ := hs.exec_eq
  rw [he, waitOp_met (by rw [hs.waits, hw, Bool.and_false])]
  exact tileOp_fault hi (hcheck.trans hc) k

/-- A send that must wait, at an issue of its own, is held. -/
theorem IsSend.held (hw : s.sendWaits t route.toNat queue.toNat (len.toNat + 1) = true) (hc : (s.tile t).cur = none) :
    exec c s = .next (s.setTile t { s.tile t with held := [c], heldFor := 0 }) := by
  obtain ⟨check, k, he, -, -⟩ := hs.exec_eq
  rw [he]
  exact waitOp_held hi hc (hs.waits.trans hw) _ _ _

end

/-- By a neighbour link only the neighbour is checked. -/
theorem State.sendCheck_link {s : State} {t : TileId} {route : Nat} (hr : route < 4) :
    s.sendCheck t route 0 0 true = if (s.neighbour t route).isNone then some 0x022C else none := by
  have hle : ¬ route > 4 := by omega
  simp [State.sendCheck, hr, hle]

/-- By the mesh the target is checked. -/
theorem State.sendCheck_mesh {s : State} {t d : TileId} {sT : Nat} (h : s.meshTarget (s.rs t 4 5 sT) = some d) :
    s.sendCheck t 4 0 sT true = none := by
  simp [State.sendCheck, h]

theorem queueSends : Claims.QueueSends := by
  intro s t queue len hi
  refine ⟨by rw [exec_qNop]; exact tileOp_effect hi (unused_zero s) id,
    fun pd => by rw [exec_qTest]; exact tileOp_effect hi (unused_zero s) _,
    fun c route sT ws h => ⟨fun hw => ⟨fun hr h0 hn => ?_, fun hr h0 hn => ?_, fun d hr hd => ?_⟩, ?_⟩⟩
  · subst h0
    rw [(isSend_of_cases h).sends hi hw ((State.sendCheck_link hr).trans (if_neg (by simpa [Option.isSome_iff_ne_none] using hn))), State.send, if_pos hr,
      State.modTile_eq]
  · subst h0
    exact (isSend_of_cases h).faults hi hw ((State.sendCheck_link hr).trans (if_pos (by rw [hn]; rfl)))
  · subst hr
    rw [(isSend_of_cases h).sends hi hw (State.sendCheck_mesh hd), State.send, hd]
    rfl
  · exact (isSend_of_cases h).held hi

/-! Receives (R136, R138, R162, R169, R171) -/

/-- An entry stored without error is read as it is. -/
theorem State.readHead_clean {s : State} {t : TileId} (h : (s.tile t).qFlips = []) (n : Nat) (e : QEntry) :
    s.readHead t n e = (s, e.words, none) := by
  have step : ∀ (l : List (Nat × Word)) (vs : List Word), l.foldl (fun (acc : State × List Word × Option Nat) p =>
      (acc.1, acc.2.1 ++ [p.2], acc.2.2)) (s, vs, none) = (s, vs ++ l.map (·.2), none) := by
    intro l
    induction l with
    | nil => simp
    | cons p l ih =>
      intro vs
      rw [List.foldl_cons, ih, List.map_cons, List.append_assoc]
      rfl
  have hwords : ((List.range e.words.length).zip e.words).map (·.2) = e.words :=
    List.map_snd_zip (by rw [List.length_range])
  have hflips : ∀ w, tget 0 (s.tile t).qFlips w = 0 := fun w => by rw [h]; rfl
  simp only [State.readHead, hflips, if_true]
  rw [step, hwords]
  rfl

/-- The tile with the head entry of a queue popped. -/
def Tile.popped (x : Tile) (n : Nat) (e : QEntry) : Tile :=
  { x with queues := tset x.queues n { x.queue n with
      entries := (x.queue n).entries.drop 1
      headWord := ((x.queue n).headWord + e.words.length) % (max 1 (x.qDepth n)) } }

/-- An entry popped returns the credit of the link it came by. -/
theorem State.pop_eq (s : State) (t : TileId) (n : Nat) (e : QEntry) : s.pop t n e = if e.link < 4 then
    (s.setTile t ((s.tile t).popped n e)).modTile e.sender fun x =>
      { x with creditsFlying := x.creditsFlying ++ [(opposite e.link * 8 + n, e.words.length)] }
    else s.setTile t ((s.tile t).popped n e) := rfl

/-- A receive of an entry stored without error pops it and hands its words on. -/
theorem State.recv_clean {s : State} {t : TileId} {queue : Nat} {e : QEntry} {r : List QEntry}
    (he : ((s.tile t).queue queue).entries = e :: r) (h : (s.tile t).qFlips = []) (k : List Word → Tile → Tile) :
    s.recv t queue k = (s.pop t queue e).modTile t (k e.words) := by
  simp only [State.recv, he, State.readHead_clean h]

/-- Writes of scalar registers, made one by one: those of s0 are discarded. -/
theorem Tile.foldl_wS {α : Type} (slot lat : Nat) (r : α → Nat) (v : α → Word) (l : List α) (x : Tile) :
    l.foldl (fun y a => y.wS slot lat (r a) (v a)) x = { x with
      pend := x.pend ++ (l.filter fun a => decide (r a ≠ 0)).map fun a =>
        { dest := .s (r a) (v a), land := x.ecc + lat - 1, issued := x.ecc, slot := slot } } := by
  induction l generalizing x with
  | nil => simp
  | cons a l ih =>
    rw [List.foldl_cons, ih]
    by_cases h : r a = 0
    · simp [Tile.wS, h]
    · simp [Tile.wS, h, Tile.later]

theorem recvCheck_passes {s : State} {t : TileId} {queue len : Nat} {e : QEntry} {r : List QEntry}
    (he : ((s.tile t).queue queue).entries = e :: r) (hl : e.words.length = len + 1) : recvCheck t 0 queue len true s = none := by
  simp [recvCheck, he, hl]

theorem recvCheck_tuple {s : State} {t : TileId} {queue len : Nat} {e : QEntry} {r : List QEntry}
    (he : ((s.tile t).queue queue).entries = e :: r) (hl : e.words.length ≠ len + 1) :
    recvCheck t 0 queue len true s = some 0x022B := by
  simp [recvCheck, he, hl]

section
variable {s : State} {t : TileId} {queue : BitVec 3} {len : BitVec 2} {e : QEntry} {r : List QEntry}
  (hi : s.canIssue t = true) (he : ((s.tile t).queue queue.toNat).entries = e :: r)
include hi he

/-- The tile with an entry's words as pending writes of registers. -/
def Tile.received (x : Tile) (sD : Nat) (ws : List Word) : Tile :=
  { x with pend := x.pend ++ (((List.range ws.length).zip ws).filter fun p => decide (sD + p.1 ≠ 0)).map fun p =>
      { dest := .s (sD + p.1) p.2, land := x.ecc + 1, issued := x.ecc, slot := 4 } }

/-- The wait of a receive is met where its queue holds an entry. -/
theorem qRecv_effect (hl : e.words.length = len.toNat + 1) (hf : (s.tile t).qFlips = []) {sD : BitVec 5}
    (hr : sD.toNat + len.toNat ≤ 31) : exec (.qRecv t queue len sD 0) s
      = .next ((s.pop t queue.toNat e).modTile t fun x => x.received sD.toNat e.words) := by
  have hw : s.waitUnmet (.qRecv t queue len sD 0) = false := by rw [State.waitUnmet, he]; rfl
  rw [exec_qRecv, execQRecv, waitOp_met (by rw [hw, Bool.and_false]), decide_eq_true hr]
  refine (tileOp_effect hi (recvCheck_passes he hl) _).trans ?_
  simp only [State.recv_clean he hf, Tile.foldl_wS]
  rfl

theorem qRecvv_effect (hl : e.words.length = len.toNat + 1) (hf : (s.tile t).qFlips = []) (vD : BitVec 5) (group : BitVec 3) :
    exec (.qRecvv t queue len vD group 0) s = .next ((s.pop t queue.toNat e).modTile t fun x => x.later 4 2
      (.v vD.toNat (((List.range e.words.length).zip e.words).map fun p => (4 * group.toNat + p.1, p.2)))) := by
  have hw : s.waitUnmet (.qRecvv t queue len vD group 0) = false := by rw [State.waitUnmet, he]; rfl
  rw [exec_qRecvv, execQRecvv, waitOp_met (by rw [hw, Bool.and_false])]
  refine (tileOp_effect hi (recvCheck_passes he hl) _).trans ?_
  rw [State.recv_clean he hf]

theorem qRecv_tuple (hl : e.words.length ≠ len.toNat + 1) {sD : BitVec 5} (hr : sD.toNat + len.toNat ≤ 31) :
    exec (.qRecv t queue len sD 0) s = .next (s.tileFault t 0x022B .program (4 * 2 ^ 13 + (s.tile t).bundle)) := by
  have hw : s.waitUnmet (.qRecv t queue len sD 0) = false := by rw [State.waitUnmet, he]; rfl
  rw [exec_qRecv, execQRecv, waitOp_met (by rw [hw, Bool.and_false]), decide_eq_true hr]
  exact tileOp_fault hi (recvCheck_tuple he hl) _

end

/-- The queue of a tile popped. -/
theorem Tile.popped_queue {x : Tile} {n : Nat} {e : QEntry} {r : List QEntry} (he : (x.queue n).entries = e :: r) :
    ((x.popped n e).queue n).entries = r ∧
      ((x.popped n e).queue n).headWord = ((x.queue n).headWord + e.words.length) % (max 1 (x.qDepth n)) := by
  have hq : (x.popped n e).queue n = { x.queue n with
      entries := (x.queue n).entries.drop 1
      headWord := ((x.queue n).headWord + e.words.length) % (max 1 (x.qDepth n)) } := tget_tset_self _ _ _ _
  rw [hq, he]
  exact ⟨rfl, rfl⟩

theorem queueReceives : Claims.QueueReceives := by
  intro s t queue len hi
  refine ⟨fun e r he hlink hl hf => ⟨fun sD hr => ⟨_, qRecv_effect hi he hl hf hr, ?_⟩,
    fun vD group => ⟨_, qRecvv_effect hi he hl hf vD group, ?_⟩⟩, fun e r sD he hlink hne hl hf hr =>
    ⟨_, qRecv_effect hi he hl hf hr, ?_⟩, fun sD he hc => ?_, fun sD e r he hl hr => qRecv_tuple hi he hl hr⟩
  · obtain ⟨hentries, hhead⟩ := Tile.popped_queue he
    rw [State.pop_eq, if_neg (by omega), State.modTile_eq, State.setTile_setTile, State.setTile_tile_self,
      State.setTile_tile_self]
    exact ⟨hentries, hhead, rfl, rfl, rfl, rfl⟩
  · obtain ⟨hentries, -⟩ := Tile.popped_queue he
    rw [State.pop_eq, if_neg (by omega), State.modTile_eq, State.setTile_setTile, State.setTile_tile_self,
      State.setTile_tile_self]
    exact ⟨hentries, rfl, rfl, rfl, rfl⟩
  · obtain ⟨hentries, -⟩ := Tile.popped_queue he
    rw [State.pop_eq, if_pos hlink, State.modTile_tile_self, State.modTile_tile_ne _ _ hne.symm, State.setTile_tile_self,
      State.modTile_tile_ne _ _ hne, State.modTile_tile_self, State.setTile_tile_ne _ _ hne]
    exact ⟨hentries, rfl⟩
  · rw [exec_qRecv, execQRecv]
    exact waitOp_held hi hc (by rw [State.waitUnmet, he]; rfl) _ _ _

/-- Settles O20: a send by its wait and its check, a receive as the head entry popped and its words written. -/
theorem queueOperations : Obligations.QueueOperations := ⟨queueSends, queueReceives⟩

end Sys2Proof.Machine
end

section
/-!
SUPPORT. A replay whose tables are still to be written does not start (`Obligations.TideStartAndCommit`).
-/

namespace Sys2Proof.Machine

theorem exec_tideStart (s : State) (p : Nat) : exec (.tideStart p) s = execTideStart p s := rfl

/-- Partition 0 waits to replay a tide whose tables could not be written yet (R297): nothing else holds its start back. -/
def replayTablesDue : State :=
  State.reset.modPart 0 fun _ => { st := .open_, startT := 1, awaiting := true, replaying := true, tablesDue := true }

theorem replayTablesDue_part : replayTablesDue.part 0 =
    { st := .open_, startT := 1, awaiting := true, replaying := true, tablesDue := true } := State.modPart_part_self _ _ _

/-- No tables are on their way, and the tide to replay had started, so that no step change holds it back. -/
theorem replayTablesDue_free : replayTablesDue.startHeld 0 = false ∧ replayTablesDue.tablesFlying 0 = false := by
  refine ⟨?_, rfl⟩
  rw [State.startHeld, replayTablesDue_part]
  rfl

/-- The start waits for the tables (R297). -/
theorem tideStart_replayTablesDue : exec (.tideStart 0) replayTablesDue = .next replayTablesDue := by
  rw [exec_tideStart]
  simp [execTideStart, replayTablesDue_part]

/-- Refutes O24: of a replay the statement excludes tables on their way but not tables still to be written, and TIDE_START waits
for those too. -/
theorem not_tideStartAndCommit : ¬ Obligations.TideStartAndCommit := by
  rintro ⟨hstart, -⟩
  obtain ⟨hheld, hflying⟩ := replayTablesDue_free
  have hp := replayTablesDue_part
  obtain ⟨s', he, -, hawaiting, -⟩ := hstart replayTablesDue 0 (by rw [hp]) (by rw [hp]) hheld
    (.inr ⟨by rw [hp], by rw [hp], fun _ => ⟨by rw [hp], hflying⟩⟩)
  have hsame : replayTablesDue = s' := by
    rw [tideStart_replayTablesDue] at he
    cases he
    rfl
  rw [← hsame, hp] at hawaiting
  cases hawaiting

end Sys2Proof.Machine
end

section
/-!
SUPPORT. Admission, results and arriving verdicts (`Obligations.AdmissionResultsVerdicts`).
-/

namespace Sys2Proof.Machine

/-! What the commands call -/

theorem exec_admissionRun (s : State) (p : Nat) : exec (.admissionRun p) s = execAdmissionRun p s := rfl
theorem exec_resultsRead (s : State) (p : Nat) : exec (.resultsRead p) s = execResultsRead p s := rfl
theorem exec_streamVerdictArrive (s : State) (p : Nat) : exec (.streamVerdictArrive p) s = execStreamVerdictArrive p s := rfl

/-! Candidates taken and placed (R292 to R295) -/

theorem mem_insertBy {α : Type} {le : α → α → Bool} {a b : α} : ∀ {l : List α}, b ∈ insertBy le a l → b = a ∨ b ∈ l
  | [], h => .inl (List.mem_singleton.mp h)
  | c :: l, h => by
    rw [insertBy] at h
    split at h
    · exact List.mem_cons.mp h
    · obtain rfl | h := List.mem_cons.mp h
      · exact .inr List.mem_cons_self
      · exact (mem_insertBy h).imp_right (List.mem_cons_of_mem c)

theorem mem_of_mem_sortBy {α : Type} {le : α → α → Bool} {b : α} : ∀ {l : List α}, b ∈ sortBy l le → b ∈ l
  | a :: l, h => by
    obtain rfl | h := mem_insertBy (show b ∈ insertBy le a (sortBy l le) from h)
    · exact List.mem_cons_self
    · exact List.mem_cons_of_mem a (mem_of_mem_sortBy h)

theorem mem_of_mem_takeCandidates {q : Partition} {k : Nat} {b : Scored} : ∀ {l : List Scored} {n taken : Nat},
    b ∈ (takeCandidates q k n taken l).1 → b ∈ l
  | [], n, taken, h => by simp [takeCandidates] at h
  | c :: r, 0, taken, h => by simp [takeCandidates] at h
  | c :: r, n + 1, taken, h => by
    rw [takeCandidates] at h
    split at h
    · obtain rfl | h := List.mem_cons.mp h
      · exact List.mem_cons_self
      · exact List.mem_cons_of_mem c (mem_of_mem_takeCandidates h)
    · exact List.mem_cons_of_mem c (mem_of_mem_takeCandidates h)

@[simp] theorem State.admitOf_stream (s : State) (sec : AdmissionSec) (slot : Nat) (c : Scored) :
    (s.admitOf sec slot c).stream = c.slot := by
  unfold State.admitOf
  dsimp only
  split <;> rfl

/-- Candidates placed in slots from `first` on, in ascending stream slot: what an admission does with those it takes. -/
def State.placed (s : State) (sec : AdmissionSec) (l : List Scored) (first : Nat) : List Admit :=
  ((List.range (sortBy l fun a b => a.slot ≤ b.slot).length).zip (sortBy l fun a b => a.slot ≤ b.slot)).map fun e =>
    s.admitOf sec (first + e.1) e.2

theorem State.placed_stream {s : State} {sec : AdmissionSec} {l : List Scored} {first : Nat} {a : Admit}
    (h : a ∈ s.placed sec l first) : ∃ c ∈ l, a.stream = c.slot := by
  obtain ⟨e, he, rfl⟩ := List.mem_map.mp h
  exact ⟨e.2, mem_of_mem_sortBy (List.of_mem_zip he).2, State.admitOf_stream _ _ _ _⟩

/-- The streams taken in order from those of a list that satisfy `f`. -/
theorem State.placed_taken_stream {s : State} {sec : AdmissionSec} {q : Partition} {k n taken first : Nat} {l : List Scored}
    {f : Scored → Bool} {le : Scored → Scored → Bool} {a : Admit}
    (h : a ∈ s.placed sec (takeCandidates q k n taken (sortBy (l.filter f) le)).1 first) : ∃ c ∈ l, a.stream = c.slot := by
  obtain ⟨c, hc, e⟩ := State.placed_stream h
  exact ⟨c, (List.mem_filter.mp (mem_of_mem_sortBy (mem_of_mem_takeCandidates hc))).1, e⟩

/-! Admission (R292, R307, R311) -/

/-- Each stream of a list has its last admission set. -/
def State.admitAt (s : State) (tide : Nat) (l : List Admit) : State :=
  each l (fun a st => st.modStream a.stream fun x => { x with lastAdmit := tide }) s

theorem State.admitAt_lastAdmit (s : State) (tide : Nat) {l : List Admit} {a : Admit} (h : a ∈ l) :
    ((s.admitAt tide l).stream a.stream).lastAdmit = tide := by
  have step : ∀ (n : Nat) (l : List Admit) (v : State), (v.stream n).lastAdmit = tide ∨ (∃ b ∈ l, b.stream = n) →
      ((v.admitAt tide l).stream n).lastAdmit = tide := by
    intro n l
    induction l with
    | nil => exact fun v h => h.elim id fun ⟨_, hb, _⟩ => absurd hb List.not_mem_nil
    | cons b l ih =>
      intro v h
      have hcons : v.admitAt tide (b :: l)
          = (v.modStream b.stream fun x => { x with lastAdmit := tide }).admitAt tide l := rfl
      rw [hcons]
      refine ih _ ?_
      by_cases hb : n = b.stream
      · exact .inl (by rw [hb, State.modStream_stream_self])
      · rw [State.modStream_stream_ne _ _ hb]
        exact h.imp_right fun ⟨c, hc, e⟩ => ⟨c, (List.mem_cons.mp hc).resolve_left fun h => hb (h ▸ e.symm), e⟩
  exact step a.stream l s (.inr ⟨a, h, rfl⟩)

theorem State.admitAt_parts (s : State) (tide : Nat) (l : List Admit) : (s.admitAt tide l).parts = s.parts := by
  unfold State.admitAt
  refine each_eq (π := State.parts) ?_ l s
  exact fun _ _ => rfl

/-- The partition with the admissions of its next tide, `taken` records reserved for them and `held` streams held back. -/
def Partition.admits (q : Partition) (tide : Nat) (adm : List Admit) (taken held : Nat) : Partition :=
  { q with nextAdmitted := adm, admitTide := some tide, reserved := q.reserved + taken
           streamsAdmitted := (q.streamsAdmitted + adm.length) % 2 ^ 48, admitHeld := (q.admitHeld + held) % 2 ^ 32 }

theorem Partition.admits_fields (q : Partition) (tide : Nat) (adm : List Admit) (taken held : Nat) :
    (q.admits tide adm taken held).admitTide = some tide ∧ (q.admits tide adm taken held).nextAdmitted = adm ∧
    (q.admits tide adm taken held).streamsAdmitted = (q.streamsAdmitted + adm.length) % 2 ^ 48 ∧
    (q.admits tide adm taken held).admitted = q.admitted ∧ (q.admits tide adm taken held).tide = q.tide := by
  simp only [Partition.admits, and_self]

theorem State.readConsumer_frame (s : State) (p : Nat) :
    (s.readConsumer p).parts = s.parts ∧ (s.readConsumer p).streams = s.streams := by
  unfold State.readConsumer
  split <;> exact ⟨rfl, rfl⟩

/-! The parts of an admission, as the model forms them (R293, R294, R307) -/

/-- The partition's admission section. -/
def State.admitSec (s : State) (p : Nat) : AdmissionSec := (((s.part p).image).map fun b => b.admission).getD {}

/-- The candidates with their scores. -/
def State.scores (s : State) (p tide : Nat) : List (Nat × Nat × Nat × Bool) :=
  (s.candidates p tide).map fun n => (n, s.admitScore (s.admitSec p) n tide)

/-- The state with the events of the scripts that reached their step limit. -/
def State.scoreEvents (s : State) (p tide : Nat) : State :=
  each ((s.scores p tide).filter fun c => !c.2.2.2) (fun c st => st.raisePart p 0x0303 2 streamUnit (c.1 * 2 ^ 49)) s

/-- The candidates with a rank. -/
def State.scoredOf (s : State) (p tide : Nat) : List Scored :=
  ((s.scores p tide).map fun c => ({ slot := c.1, rank := c.2.1, want := c.2.2.1
                                     age := sat (tide - ((s.scoreEvents p tide).stream c.1).lastAdmit) 0xFFFFFFFF } : Scored)).filter
    fun c => c.rank ≠ 0

/-- The prefill candidates taken, the records reserved for them, and how many were held back. -/
def State.prefillsTaken (s : State) (p tide : Nat) : List Scored × Nat × Nat :=
  takeCandidates ((s.scoreEvents p tide).part p) 2 (s.admitSec p).prefillSlots 0
    (sortBy ((s.scoredOf p tide).filter fun c => ((s.scoreEvents p tide).stream c.slot).promptLeft > 0) Scored.before)

/-- The decode candidates taken after them. -/
def State.decodesTaken (s : State) (p tide : Nat) : List Scored × Nat × Nat :=
  takeCandidates ((s.scoreEvents p tide).part p) 3 (s.admitSec p).decodeSlots (s.prefillsTaken p tide).2.1
    (sortBy ((s.scoredOf p tide).filter fun c => ((s.scoreEvents p tide).stream c.slot).promptLeft = 0) Scored.before)

/-- The admissions of tide `tide`. -/
def State.admissions (s : State) (p tide : Nat) : List Admit :=
  (s.scoreEvents p tide).placed (s.admitSec p) (s.decodesTaken p tide).1 0
    ++ (s.scoreEvents p tide).placed (s.admitSec p) (s.prefillsTaken p tide).1 (s.admitSec p).decodeSlots

/-- The streams held back. -/
def State.admissionsHeld (s : State) (p tide : Nat) : Nat := (s.prefillsTaken p tide).2.2 + (s.decodesTaken p tide).2.2

/-- The state with its admissions noted. -/
def State.admissionsNoted (s : State) (p tide : Nat) : State :=
  ((s.scoreEvents p tide).modPart p fun q => q.admits tide (s.admissions p tide) (s.decodesTaken p tide).2.1
    (s.admissionsHeld p tide)).admitAt tide (s.admissions p tide)

theorem State.admission_eq (s : State) (p tide : Nat) : s.admission p tide = if s.admissionsHeld p tide > 0 then
    ((s.admissionsNoted p tide).readConsumer p).raisePart p 0x0304 1 streamUnit (sat (s.admissionsHeld p tide) 0xFFFFFFFF)
    else s.admissionsNoted p tide := rfl

theorem State.admission_frame (s : State) (p tide : Nat) : (s.admission p tide).parts = (s.admissionsNoted p tide).parts ∧
    (s.admission p tide).streams = (s.admissionsNoted p tide).streams := by
  obtain ⟨hparts, hstreams⟩ := (s.admissionsNoted p tide).readConsumer_frame p
  rw [State.admission_eq]
  split
  · exact ⟨(State.raisePart_parts _ _ _ _ _ _).trans hparts, (State.raisePart_streams _ _ _ _ _ _).trans hstreams⟩
  · exact ⟨rfl, rfl⟩

theorem State.scoreEvents_eventOnly (s : State) (p tide : Nat) : EventOnly s (s.scoreEvents p tide) := by
  unfold State.scoreEvents
  refine each_induction (P := EventOnly s) ?_ _ s (EventOnly.refl s)
  exact fun _ v hv => hv.trans (State.raisePart_eventOnly _ _ _ _ _ _)

/-- A ranked stream is a candidate. -/
theorem State.scoredOf_candidate {s : State} {p tide : Nat} {c : Scored} (h : c ∈ s.scoredOf p tide) :
    c.slot ∈ s.candidates p tide := by
  obtain ⟨e, he, rfl⟩ := List.mem_map.mp (List.mem_filter.mp h).1
  obtain ⟨n, hn, rfl⟩ := List.mem_map.mp he
  exact hn

/-- Only candidates are admitted. -/
theorem State.admissions_candidate {s : State} {p tide : Nat} {a : Admit} (h : a ∈ s.admissions p tide) :
    a.stream ∈ s.candidates p tide := by
  obtain h | h := List.mem_append.mp h
  · obtain ⟨c, hc, e⟩ := State.placed_taken_stream h
    exact e ▸ State.scoredOf_candidate hc
  · obtain ⟨c, hc, e⟩ := State.placed_taken_stream h
    exact e ▸ State.scoredOf_candidate hc

/-- What an admission notes in its partition. -/
theorem State.admission_part (s : State) (p tide : Nat) : (s.admission p tide).part p =
    (s.part p).admits tide (s.admissions p tide) (s.decodesTaken p tide).2.1 (s.admissionsHeld p tide) := by
  have hpart : (s.scoreEvents p tide).part p = s.part p := by
    rw [s.scoreEvents_eventOnly p tide]
    rfl
  rw [State.part, (s.admission_frame p tide).1, State.admissionsNoted, State.admitAt_parts, ← hpart]
  exact State.modPart_part_self _ _ _

theorem State.admission_lastAdmit {s : State} {p tide : Nat} {a : Admit} (h : a ∈ s.admissions p tide) :
    ((s.admission p tide).stream a.stream).lastAdmit = tide := by
  have hstream : (s.admission p tide).stream a.stream = (s.admissionsNoted p tide).stream a.stream := by
    rw [State.stream, (s.admission_frame p tide).2, State.stream]
  rw [hstream, State.admissionsNoted]
  exact State.admitAt_lastAdmit _ tide h

/-! Tables (R291, R295, R297) -/

/-- Equal but for the service tree and the Hikolink ports. -/
def SendsOnly (s t : State) : Prop := t = { s with svc := t.svc, hports := t.hports }

theorem SendsOnly.trans {s t u : State} (h : SendsOnly s t) (k : SendsOnly t u) : SendsOnly s u := by
  unfold SendsOnly at *
  rw [k, h]

theorem SendsOnly.part {s t : State} (h : SendsOnly s t) (p : Nat) : t.part p = s.part p := by rw [h]; rfl
theorem SendsOnly.stream {s t : State} (h : SendsOnly s t) (n : Nat) : t.stream n = s.stream n := by rw [h]; rfl

theorem each_sendsOnly {α : Type} {f : α → State → State} (h : ∀ a t, SendsOnly t (f a t)) (l : List α) (s : State) :
    SendsOnly s (each l f s) :=
  each_induction (P := SendsOnly s) (fun a t ht => ht.trans (h a t)) l s rfl

theorem State.treeWrite_sendsOnly (s : State) (t : TileId) (a : Nat) (b : List Byte) : SendsOnly s (s.treeWrite t a b) := by
  unfold State.treeWrite
  refine each_sendsOnly (fun _ _ => ?_) _ _
  rfl

theorem State.writeTables_sendsOnly (s : State) (p tide : Nat) (adm : List Admit) : SendsOnly s (s.writeTables p tide adm) := by
  unfold State.writeTables
  refine each_sendsOnly (fun r st => ?_) _ _
  refine SendsOnly.trans (SendsOnly.trans (each_sendsOnly (fun i v => ?_) _ _) (each_sendsOnly (fun e v => ?_) _ _))
    (State.treeWrite_sendsOnly _ _ _ _)
  · exact State.treeWrite_sendsOnly _ _ _ _
  · split
    · rfl
    · exact State.treeWrite_sendsOnly _ _ _ _

theorem State.queueTree_sendsOnly (s : State) (q ch : Nat) (ws : List Word) : SendsOnly s (s.queueTree q ch ws) := by
  unfold State.queueTree
  dsimp only
  split <;> rfl

theorem State.castTree_sendsOnly (s : State) (ch : Nat) (ws : List Word) : SendsOnly s (s.castTree ch ws) := by
  unfold State.castTree State.treeDown State.treeUp
  split
  · exact each_sendsOnly (fun q v => v.queueTree_sendsOnly q ch ws) _ _
  · split
    · rfl
    · exact State.queueTree_sendsOnly _ _ _ _

theorem State.castStream_sendsOnly (s : State) (n : Nat) : SendsOnly s (s.castStream n) := by
  unfold State.castStream
  split
  · exact State.castTree_sendsOnly _ _ _
  · rfl

theorem State.castTables_sendsOnly (s : State) (p tide : Nat) : SendsOnly s (s.castTables p tide) := by
  unfold State.castTables
  split
  · exact (each_sendsOnly (fun (a : Admit) v => v.castStream_sendsOnly a.stream) _ _).trans (State.castTree_sendsOnly _ _ _)
  · rfl

/-- Prompts asked for are noted in their streams, whose last admission stays. -/
theorem State.readPrompts_frame (s : State) (p : Nat) :
    (s.readPrompts p).parts = s.parts ∧ ∀ n, ((s.readPrompts p).stream n).lastAdmit = (s.stream n).lastAdmit := by
  unfold State.readPrompts
  refine each_induction (P := fun v : State => v.parts = s.parts ∧ ∀ n, (v.stream n).lastAdmit = (s.stream n).lastAdmit)
    (fun a v hv => ?_) _ s ⟨rfl, fun _ => rfl⟩
  obtain ⟨hparts, hlast⟩ := hv
  split
  · split
    · exact ⟨hparts, hlast⟩
    · refine ⟨hparts, fun n => ?_⟩
      by_cases hn : n = a.stream
      · subst hn
        rw [State.modStream_stream_self]
        exact hlast _
      · rw [State.modStream_stream_ne _ _ hn]
        exact hlast n
  · exact ⟨hparts, hlast⟩

/-- What building the tables leaves of an admission: its streams, their number and their last admission. -/
structure TablesBuilt (s t : State) (p : Nat) : Prop where
  part : ∃ l due, t.part p = { s.part p with nextAdmitted := l, tablesDue := due } ∧
    l.length = (s.part p).nextAdmitted.length ∧ ∀ a ∈ l, ∃ b ∈ (s.part p).nextAdmitted, a.stream = b.stream
  lastAdmit : ∀ n, (t.stream n).lastAdmit = (s.stream n).lastAdmit

theorem State.buildTables_built (s : State) (p : Nat) : TablesBuilt s (s.buildTables p) p := by
  unfold State.buildTables
  dsimp only
  split
  · have h := (State.writeTables_sendsOnly (s.modPart p fun q => { q with
      tablesDue := false, nextAdmitted := s.checkAppends (s.part p).nextAdmitted }) p ((s.part p).admitTide.getD 0)
      (s.checkAppends (s.part p).nextAdmitted)).trans (State.castTables_sendsOnly _ p ((s.part p).admitTide.getD 0))
    refine ⟨⟨s.checkAppends (s.part p).nextAdmitted, false, ?_, List.length_map _, fun a ha => ?_⟩, fun n => ?_⟩
    · rw [h.part]
      exact State.modPart_part_self _ _ _
    · obtain ⟨b, hb, rfl⟩ := List.mem_map.mp ha
      exact ⟨b, hb, rfl⟩
    · rw [h.stream]
      rfl
  · obtain ⟨hparts, hlast⟩ := (s.modPart p fun q => { q with tablesDue := true }).readPrompts_frame p
    refine ⟨⟨(s.part p).nextAdmitted, true, ?_, rfl, fun a ha => ⟨a, ha, rfl⟩⟩, hlast⟩
    rw [State.part, hparts]
    exact State.modPart_part_self _ _ _

/-! ADMISSION_RUN (R292, R297, R311) -/

theorem State.mem_candidates {s : State} {p tide n : Nat} (h : n ∈ s.candidates p tide) : (s.stream n).st = .active ∧
    (s.stream n).parking = false ∧ ∀ b ∈ (s.part p).admitted, b.stream ≠ n := by
  have hc := (List.mem_filter.mp h).2
  simp only [Bool.and_eq_true, Bool.not_eq_true', decide_eq_true_eq, List.any_eq_false] at hc
  obtain ⟨⟨⟨hst, hpark⟩, hadm⟩, -⟩ := hc
  exact ⟨hst, hpark, hadm⟩

/-- The next tide's admissions once they are formed: `Claims.AdmissionAndResults` for ADMISSION_RUN. -/
theorem State.admitted_built (s : State) (p tide : Nat) :
    ∃ s', s' = (s.admission p tide).buildTables p ∧ (s'.part p).admitTide = some tide ∧
      (s'.part p).streamsAdmitted = ((s.part p).streamsAdmitted + (s'.part p).nextAdmitted.length) % 2 ^ 48 ∧
      (s'.part p).admitted = (s.part p).admitted ∧ (s'.part p).tide = (s.part p).tide ∧
      (∀ a ∈ (s'.part p).nextAdmitted, (s.stream a.stream).st = .active ∧ (s.stream a.stream).parking = false ∧
        (∀ b ∈ (s.part p).admitted, b.stream ≠ a.stream) ∧ (s'.stream a.stream).lastAdmit = tide) := by
  obtain ⟨⟨l, due, hpart, hlen, hmem⟩, hlast⟩ := (s.admission p tide).buildTables_built p
  obtain ⟨htide, hnext, hcount, hadm, hnow⟩ := (s.part p).admits_fields tide (s.admissions p tide) (s.decodesTaken p tide).2.1
    (s.admissionsHeld p tide)
  rw [← State.admission_part] at htide hnext hcount hadm hnow
  rw [hnext] at hlen hmem
  generalize (s.admission p tide).part p = q at *
  refine ⟨_, rfl, ?_⟩
  rw [hpart]
  refine ⟨htide, ?_, hadm, hnow, fun a ha => ?_⟩
  · rw [hlen]
    exact hcount
  obtain ⟨b, hb, e⟩ := hmem a ha
  obtain ⟨hst, hpark, hnot⟩ := State.mem_candidates (State.admissions_candidate hb)
  rw [e, hlast]
  exact ⟨hst, hpark, hnot, State.admission_lastAdmit hb⟩

/-! RESULTS_READ (R297) -/

/-- Outside a job no verdict set is formed. -/
theorem State.stageVerdictSet_of_not_formed {s : State} (h : s.job.formed = false) : s.stageVerdictSet = s := by
  simp [State.stageVerdictSet, h]

theorem State.unitTake_job (s : State) (key : Nat) : (s.unitTake key).1.job = s.job := by
  unfold State.unitTake
  split
  · rfl
  · split <;> rfl

theorem execResultsRead_closing {s : State} {p : Nat} (hst : (s.part p).st = .closing) (hb : (s.part p).bellReady = true)
    (hr : (s.part p).resultsIn = false) : exec (.resultsRead p) s = .next (s.readResults p).stageVerdictSet := by
  rw [exec_resultsRead]
  exact if_pos ⟨hst, hb, by rw [hr]; rfl⟩

theorem admissionAndResults : Claims.AdmissionAndResults := by
  intro s p
  refine ⟨fun hst ha hne hroot => ?_, fun he => ?_, fun hst hb hr hf => ⟨fun u x b ht => ?_, fun ht => ?_, fun ht hp => ?_⟩,
    fun hb => ?_⟩
  · obtain ⟨s', rfl, h⟩ := s.admitted_built p ((s.part p).tide + 1)
    refine ⟨_, ?_, h⟩
    rw [exec_admissionRun]
    exact if_pos ⟨hst, by rw [ha]; rfl, hne, hroot⟩
  · rw [exec_admissionRun]
    exact if_neg fun h => h.2.2.1 he
  · have hu : (u.modPart p fun q => { q with
        results := resultsOf (s.resultPlaces p) b [], resultsIn := true }).job.formed = false := by
      have hjob := s.unitTake_job (keyResults p)
      rw [ht] at hjob
      exact (congrArg Job.formed hjob).trans hf
    rw [execResultsRead_closing hst hb hr, State.readResults, ht]
    exact congrArg _ (State.stageVerdictSet_of_not_formed hu)
  · rw [execResultsRead_closing hst hb hr, State.readResults, ht]
    exact congrArg _ (State.stageVerdictSet_of_not_formed hf)
  · rw [execResultsRead_closing hst hb hr, State.readResults, ht, hp]
    exact congrArg _ (State.stageVerdictSet_of_not_formed (s := s.modPart p fun q => { q with
      results := [], resultsIn := true }) hf)
  · rw [exec_resultsRead]
    exact if_neg fun h => by simp [hb] at h

/-! STREAM_VERDICT_ARRIVE (R144, R300) -/

/-- A verdict that is no discard counts for a stream admitted with drafts. -/
theorem streamVerdictArrive_effect {s : State} {p : Nat} {k : Packet} {sa sb : Word} (ha : s.arrived = [k])
    (hk : k.kind = .verdict) (hp : s.partOf k.src = some p) (hf : k.failed = false) (hw : k.words = [sa, sb]) (hacc : k.acc ≠ 1)
    (hsa : sa.toNat < 2 ^ 15) : exec (.streamVerdictArrive p) s
      = .next ((({ s with arrived := [] } : State).modTile k.src fun x => { x with verdictsFlying := x.verdictsFlying - 1 }).modPart
          p fun q => if (s.part p).admitted.any fun a => decide (a.stream = sa.toNat) && decide (0 < a.drafts) then
            { q with verdicts := q.verdicts ++ [{ sa := sa, sb := sb, discard := false, tile := k.src }] }
          else { q with verdictsIgnored := (q.verdictsIgnored + 1) % 2 ^ 32 }) := by
  have hslot : bits sa.toNat 14 0 = sa.toNat := by
    rw [bits, Nat.pow_zero, Nat.div_one]
    exact Nat.mod_eq_of_lt hsa
  have hlow : sa.toNat < 2 ^ 16 := by omega
  rw [exec_streamVerdictArrive, execStreamVerdictArrive, ha]
  simp only [takeFirst, hk, hp, decide_true, Bool.and_self, if_true, hf, Bool.false_eq_true, if_false, hw, hacc, decide_false,
    Bool.false_and, Bool.false_or, List.getD_cons_zero, List.getD_cons_succ, hslot, decide_eq_true hlow, Bool.true_and]
  rfl

theorem verdictsArrive : Claims.VerdictsArrive := by
  intro s p k sa sb ha hk hp hf hw hacc hsa
  refine ⟨_, streamVerdictArrive_effect ha hk hp hf hw hacc hsa, rfl, ?_, fun hadm => ?_, fun hnone => ?_⟩
  · have hpart : ∀ (v : State) f, (v.modPart p f).tile k.src = v.tile k.src := fun _ _ => rfl
    rw [hpart, State.modTile_tile_self]
    rfl
  · have hany : ((s.part p).admitted.any fun a => decide (a.stream = sa.toNat) && decide (0 < a.drafts)) = true := by
      obtain ⟨a, hm, hs, hd⟩ := hadm
      exact List.any_eq_true.mpr ⟨a, hm, by simp [hs, hd]⟩
    rw [State.modPart_part_self, hany]
    exact ⟨rfl, rfl⟩
  · have hany : ((s.part p).admitted.any fun a => decide (a.stream = sa.toNat) && decide (0 < a.drafts)) = false :=
      List.any_eq_false.mpr fun a hm => by simp [hnone a hm]
    rw [State.modPart_part_self, hany]
    exact ⟨rfl, rfl⟩

/-- Settles O38: an admission takes candidates only and the tables keep its streams; the results by how the reads stand. -/
theorem admissionResultsVerdicts : Obligations.AdmissionResultsVerdicts := ⟨admissionAndResults, verdictsArrive⟩

end Sys2Proof.Machine
end

section
/-!
SUPPORT. An abandoned tide (`Obligations.AbandonedTides`).
-/

namespace Sys2Proof.Machine

/-! What the commands call -/

theorem exec_abandon (s : State) (p : Nat) : exec (.abandon p) s = execAbandon p s := rfl
theorem exec_abandonSettled (s : State) (p : Nat) : exec (.abandonSettled p) s = execAbandonSettled p s := rfl

/-- Nothing of an abandoned tide goes on in the tile. -/
structure Tile.Stilled (x : Tile) : Prop where
  issuing : x.issuing = false
  held : x.held = []
  run : x.run = none
  pendRun : x.pendRun = none
  tails : x.tails = []
  shadow : ∀ n, (x.tag n).st = .active → (x.tag n).shadow = true

/-- Of the tags of an abandoned tide, an active one is a shadow. -/
theorem abandonTags_shadow (l : Tab TagState) (n : Nat)
    (h : (tget {} (l.map fun g => if g.2.st = .active ∧ !g.2.shadow then (g.1, ({} : TagState)) else g) n).st = .active) :
    (tget {} (l.map fun g => if g.2.st = .active ∧ !g.2.shadow then (g.1, ({} : TagState)) else g) n).shadow = true := by
  induction l with
  | nil => cases h
  | cons g l ih =>
    by_cases hg : g.2.st = .active ∧ (!g.2.shadow) = true
    · simp only [List.map_cons, if_pos hg, tget] at h ⊢
      split at h
      · cases h
      · rw [if_neg ‹_›]
        exact ih h
    · simp only [List.map_cons, if_neg hg, tget] at h ⊢
      split at h
      · rw [if_pos ‹_›]
        simpa [h] using hg
      · rw [if_neg ‹_›]
        exact ih h

theorem abandonTile_stilled (x : Tile) : (abandonTile x).Stilled :=
  ⟨rfl, rfl, rfl, rfl, rfl, abandonTags_shadow x.tags⟩

/-- A change of every tile of a list leaves each of them as the change makes it. -/
theorem each_modTile_mem {f : Tile → Tile} {P : Tile → Prop} (hf : ∀ x, P (f x)) {t : TileId} (l : List TileId) :
    ∀ s : State, t ∈ l → P ((each l (fun u st => st.modTile u f) s).tile t) := by
  have hkeep : ∀ (u : TileId) (v : State), P (v.tile t) → P ((v.modTile u f).tile t) := fun u v hv => by
    by_cases hu : t = u
    · subst hu
      rw [State.modTile_tile_self]
      exact hf _
    · rwa [State.modTile_tile_ne _ _ hu]
  induction l with
  | nil => exact fun s h => absurd h List.not_mem_nil
  | cons u l ih =>
    intro s h
    obtain rfl | h := List.mem_cons.mp h
    · exact each_induction (P := fun v => P (v.tile t)) hkeep l _ (by rw [State.modTile_tile_self]; exact hf _)
    · exact ih _ h

/-- A change of a tile's queues or buffers leaves a stilled tile stilled. -/
theorem State.modTile_stilled {s : State} {t : TileId} (u : TileId) {f : Tile → Tile}
    (hf : ∀ x : Tile, x.Stilled → (f x).Stilled) (h : (s.tile t).Stilled) : ((s.modTile u f).tile t).Stilled := by
  by_cases hu : t = u
  · subst hu
    rw [State.modTile_tile_self]
    exact hf _ h
  · rwa [State.modTile_tile_ne _ _ hu]

theorem State.loseQueue_stilled {s : State} {t : TileId} (out : List Packet) (u : TileId) (n : Nat) (h : (s.tile t).Stilled) :
    ((s.loseQueue out u n).tile t).Stilled := by
  unfold State.loseQueue
  dsimp only
  split
  · exact h
  · exact State.modTile_stilled u (fun x hx => ⟨hx.issuing, hx.held, hx.run, hx.pendRun, hx.tails, hx.shadow⟩) h

theorem State.loseQueues_stilled {s : State} {t : TileId} (p : Nat) (h : (s.tile t).Stilled) :
    ((s.loseQueues p).tile t).Stilled := by
  unfold State.loseQueues
  refine each_induction (P := fun v : State => (v.tile t).Stilled) (fun u v hv => ?_) _ _
    (each_induction (P := fun v : State => (v.tile t).Stilled) (fun u v hv => ?_) _ _ h)
  · exact State.modTile_stilled u (fun x hx => ⟨hx.issuing, hx.held, hx.run, hx.pendRun, hx.tails, hx.shadow⟩) hv
  · exact each_induction (P := fun w : State => (w.tile t).Stilled) (fun n w hw => State.loseQueue_stilled _ u n hw) _ _ hv

theorem State.beginAbandon_stilled (s : State) (p : Nat) {t : TileId} (ht : t ∈ s.tilesOf p) :
    ((s.beginAbandon p).tile t).Stilled := by
  have hjob : ∀ (b : Prop) [Decidable b] (v : State), (if b then v.abandonBeat else v).tile t = v.tile t := fun b _ v => by
    split <;> rfl
  have hmod : ∀ (f : Partition → Partition) (v : State), (v.modPart p f).tile t = v.tile t := fun _ _ => rfl
  have hmesh : ∀ v : State, (v.tile t).Stilled → (((v.dropInMesh p).unpin p).tile t).Stilled := fun _ h => h
  unfold State.beginAbandon
  dsimp only
  rw [hmod, hjob]
  exact State.loseQueues_stilled p (hmesh _ (each_modTile_mem abandonTile_stilled _ _ ht))

theorem abandonStopsThePartition : Claims.AbandonStopsThePartition := by
  intro s p hj hphase
  have hreport : s.reportFault p = s := if_pos (by simp [hj])
  have hst : (s.part p).st ≠ .abandoning := by
    obtain h | h | h := hphase <;> rw [h] <;> decide
  refine ⟨fun hc => ?_, fun hc => ⟨s.beginAbandon p, ?_, ?_⟩⟩
  · rw [exec_abandon, execAbandon, if_neg (by simp [hc])]
  · obtain ⟨c, hc⟩ := Option.ne_none_iff_exists'.mp hc
    rw [exec_abandon, execAbandon, if_pos (by obtain h | h | h := hphase <;> simp [h, hc, hj])]
    simp only [hreport, if_neg hst]
  · have hpart : (s.beginAbandon p).part p = _ := State.modPart_part_self _ _ _
    rw [hpart]
    refine ⟨rfl, rfl, rfl, rfl, rfl, fun t ht => ?_⟩
    obtain ⟨h1, h2, h3, h4, h5, h6⟩ := s.beginAbandon_stilled p ht
    exact ⟨h1, h2, h3, h4, h5, h6⟩

/-! The course of a partition's run -/

/-- What an abandon settles of a partition. -/
structure Course where
  st : PState
  awaiting : Bool
  cause : Option FaultCause
  replays : Nat
  abandoned : Nat

/-- The course of a partition. -/
def Partition.course (q : Partition) : Course := ⟨q.st, q.awaiting, q.cause, q.replays, q.tidesAbandoned⟩

theorem Partition.of_course {q : Partition} {d : Course} (h : q.course = d) :
    q.st = d.st ∧ q.awaiting = d.awaiting ∧ q.cause = d.cause ∧ q.replays = d.replays ∧
      q.tidesAbandoned = d.abandoned := by
  subst h
  exact ⟨rfl, rfl, rfl, rfl, rfl⟩

/-- No command that waits for the end of a run comes or goes. -/
def SameWaits (s t : State) : Prop := t.job.leaveMbx = s.job.leaveMbx ∧ ∀ p, (t.part p).enableHeld = (s.part p).enableHeld

/-- The course of every partition stays, and no command that waits for the end of a run comes or goes. -/
def SameCourse (s t : State) : Prop := SameWaits s t ∧ ∀ p, (t.part p).course = (s.part p).course

/-- Partition `p` takes the course `c`, and no command that waits for the end of a run comes or goes. -/
def TakesCourse (s : State) (p : Nat) (c : Course) (t : State) : Prop := SameWaits s t ∧ (t.part p).course = c

theorem SameWaits.trans {s t u : State} (h : SameWaits s t) (k : SameWaits t u) : SameWaits s u :=
  ⟨k.1.trans h.1, fun p => (k.2 p).trans (h.2 p)⟩

theorem SameCourse.refl (s : State) : SameCourse s s := ⟨⟨rfl, fun _ => rfl⟩, fun _ => rfl⟩

theorem SameCourse.trans {s t u : State} (h : SameCourse s t) (k : SameCourse t u) : SameCourse s u :=
  ⟨h.1.trans k.1, fun p => (k.2 p).trans (h.2 p)⟩

theorem SameCourse.ite {s t u : State} {b : Prop} [Decidable b] (h : SameCourse s t) (k : SameCourse s u) :
    SameCourse s (if b then t else u) := by split <;> assumption

/-- A change of other fields than the partitions and the waiting JOB_LEAVE keeps the course. -/
theorem SameCourse.of_eq {s t : State} (hj : t.job.leaveMbx = s.job.leaveMbx) (hp : t.parts = s.parts) : SameCourse s t := by
  have hpart : ∀ p, t.part p = s.part p := fun p => by rw [State.part, hp]; rfl
  exact ⟨⟨hj, fun p => by rw [hpart]⟩, fun p => by rw [hpart]⟩

theorem EventOnly.sameCourse {s t : State} (h : EventOnly s t) : SameCourse s t := .of_eq (by rw [h.job]) h.parts

theorem each_sameCourse {α : Type} {f : α → State → State} (h : ∀ a t, SameCourse t (f a t)) (l : List α) (s : State) :
    SameCourse s (each l f s) :=
  each_induction (P := SameCourse s) (fun a t ht => ht.trans (h a t)) l s (SameCourse.refl s)

theorem State.modPart_sameWaits (s : State) (p : Nat) {f : Partition → Partition}
    (h : ∀ y : Partition, (f y).enableHeld = y.enableHeld) :
    SameWaits s (s.modPart p f) := by
  refine ⟨rfl, fun j => ?_⟩
  by_cases hj : j = p
  · subst hj
    rw [State.modPart_part_self, h]
  · rw [State.modPart_part_ne _ _ hj]

theorem State.modPart_sameCourse (s : State) (p : Nat) {f : Partition → Partition}
    (h : ∀ y : Partition, (f y).enableHeld = y.enableHeld)
    (hc : ∀ y : Partition, (f y).course = y.course) : SameCourse s (s.modPart p f) := by
  refine ⟨s.modPart_sameWaits p h, fun j => ?_⟩
  by_cases hj : j = p
  · subst hj
    rw [State.modPart_part_self, hc]
  · rw [State.modPart_part_ne _ _ hj]

theorem State.modPart_takesCourse (s : State) (p : Nat) {f : Partition → Partition} {c : Course}
    (h : ∀ y : Partition, (f y).enableHeld = y.enableHeld) (hc : (f (s.part p)).course = c) :
    TakesCourse s p c (s.modPart p f) :=
  ⟨s.modPart_sameWaits p h, by rw [State.modPart_part_self, hc]⟩

theorem SameCourse.takes {s t u : State} {p : Nat} {c : Course} (h : SameCourse s t) (k : TakesCourse t p c u) :
    TakesCourse s p c u := ⟨h.1.trans k.1, k.2⟩

theorem TakesCourse.then_same {s t u : State} {p : Nat} {c : Course} (h : TakesCourse s p c t) (k : SameCourse t u) :
    TakesCourse s p c u := ⟨h.1.trans k.1, (k.2 p).trans h.2⟩

theorem TakesCourse.then_takes {s t u : State} {p : Nat} {c d : Course} (h : TakesCourse s p c t) (k : TakesCourse t p d u) :
    TakesCourse s p d u := ⟨h.1.trans k.1, k.2⟩

/-- The command that waited, if one did, is answered. -/
theorem TakesCourse.answered {s v : State} {p : Nat} {c : Course} (h : TakesCourse s p c v) (m : Option Nat) (f : Nat → State)
    (hf : ∀ n, SameCourse v (f n)) : TakesCourse s p c (match m with
      | none => v
      | some n => f n) := by
  cases m with
  | none => exact h
  | some n => exact h.then_same (hf n)

/-! What keeps the course -/

theorem State.modTile_sameCourse (s : State) (t : TileId) (f : Tile → Tile) : SameCourse s (s.modTile t f) := .of_eq rfl rfl

theorem State.used_sameCourse (s : State) (n : Nat) : SameCourse s (s.used n) := .of_eq rfl rfl

theorem State.tileEnd_sameCourse (s : State) (p tide : Nat) (replay : Bool) (out : List Packet) (t : TileId) :
    SameCourse s (s.tileEnd p tide replay out t) := by
  unfold State.tileEnd
  simp only
  have hnote : ∀ (b : Prop) [Decidable b] (v : State) (a c d e : Nat),
      SameCourse v (if b then v else v.raiseTide p tide replay a c d e) := fun b _ v a c d e =>
    .ite (.refl v) (State.raiseTide_eventOnly _ _ _ _ _ _ _ _).sameCourse
  refine SameCourse.trans ?_ (State.modTile_sameCourse _ _ _)
  refine SameCourse.trans ?_ (hnote _ _ _ _ _ _)
  refine SameCourse.trans ?_ (hnote _ _ _ _ _ _)
  exact each_sameCourse (fun n v => hnote _ _ _ _ _ _) _ _

theorem State.dropEvent_sameCourse (s : State) (p tide : Nat) (replay : Bool) (b : BwDrop) :
    SameCourse s (s.dropEvent p tide replay b) :=
  .ite (.refl s) (State.raiseTide_eventOnly _ _ _ _ _ _ _ _).sameCourse

theorem State.endEvents_sameCourse (s : State) (p tide : Nat) (replay : Bool) : SameCourse s (s.endEvents p tide replay) :=
  (each_sameCourse (fun t v => v.tileEnd_sameCourse p tide replay _ t) _ _).trans
    (((State.dropEvent_sameCourse _ _ _ _ _).trans (State.dropEvent_sameCourse _ _ _ _ _)).trans
      (State.modPart_sameCourse _ _ (fun _ => rfl) fun _ => rfl))

theorem State.abandonEvents_sameCourse (s : State) (p : Nat) : SameCourse s (s.abandonEvents p) :=
  .ite (s.endEvents_sameCourse _ _ _) (.refl s)

theorem State.signalAbsorb_sameCourse (s : State) (t : TileId) : SameCourse s (s.signalAbsorb t) := by
  refine each_sameCourse (fun dir v => ?_) _ _
  split
  · exact .refl v
  · exact v.modTile_sameCourse _ _

theorem State.beginReset_sameCourse (s : State) (a b : Nat) : SameCourse s (s.beginReset a b) := .of_eq rfl rfl

theorem State.startTileReset_sameCourse (s : State) (t : TileId) : SameCourse s (s.startTileReset t) :=
  (s.modTile_sameCourse t _).trans ((State.beginReset_sameCourse _ _ _).trans (State.signalAbsorb_sameCourse _ _))

theorem State.restoreTile_sameCourse (s : State) (t : TileId) : SameCourse s (s.restoreTile t) := by
  unfold State.restoreTile
  split
  · exact .refl s
  · exact (s.modTile_sameCourse t _).trans ((State.modTile_sameCourse _ _ _).trans (State.modTile_sameCourse _ _ _))

theorem State.rebuildTile_sameCourse (s : State) (t : TileId) : SameCourse s (s.rebuildTile t) :=
  (s.startTileReset_sameCourse t).trans (State.restoreTile_sameCourse _ _)

theorem State.logRepair_sameCourse (s : State) (a b c d e : Nat) : SameCourse s (s.logRepair a b c d e) :=
  .ite (.of_eq rfl rfl) (State.raiseDev_eventOnly _ _ _ _ _).sameCourse

theorem State.endObserve_sameCourse (s : State) (a b : Nat) (t : TileId) : SameCourse s (s.endObserve a b t) := by
  unfold State.endObserve
  split
  · exact .refl s
  · exact (SameCourse.of_eq rfl rfl).trans (State.raiseTile_eventOnly _ _ _ _ _).sameCourse

theorem State.beginObserve_sameCourse (s : State) (t : TileId) (c : Nat) (again : Bool) :
    SameCourse s (s.beginObserve t c again) :=
  .ite (.refl s) ((SameCourse.of_eq rfl rfl).trans (State.raiseTile_eventOnly _ _ _ _ _).sameCourse)

theorem State.disableSite_sameCourse (s : State) (px py source cause tide : Nat) :
    SameCourse s (s.disableSite px py source cause tide) := by
  have hgone : ∀ (g : Option TileId) (f : State → TileId → State) (v : State), (∀ w t, SameCourse w (f w t)) →
      SameCourse v (match g with
        | some t => f v t
        | none => v) := fun g f v hf => by
    cases g with
    | none => exact .refl v
    | some t => exact hf v t
  unfold State.disableSite
  simp only
  refine .ite (.refl s) (SameCourse.trans ?_ (State.raiseDev_eventOnly _ _ _ _ _).sameCourse)
  refine SameCourse.trans ?_ (State.logRepair_sameCourse _ _ _ _ _ _)
  refine SameCourse.trans ?_ (hgone _ _ _ State.rebuildTile_sameCourse)
  refine SameCourse.trans ?_ (each_sameCourse (fun t v => v.rebuildTile_sameCourse t) _ _)
  refine SameCourse.trans ?_ (each_sameCourse (fun t v => (v.modTile_sameCourse t _).trans (State.used_sameCourse _ _)) _ _)
  refine SameCourse.trans (t := each _ (fun t st => st.endObserve (st.siteOf t).1 (st.siteOf t).2 t) _) ?_ (.of_eq rfl rfl)
  refine SameCourse.trans ?_ (each_sameCourse (fun t v => v.endObserve_sameCourse _ _ t) _ _)
  exact hgone _ _ _ fun w t => w.endObserve_sameCourse px py t

theorem State.canaryOutcome_sameCourse (s : State) (p : Nat) : SameCourse s (s.canaryOutcome p) :=
  each_sameCourse (fun _ v => .ite (.ite (v.disableSite_sameCourse _ _ _ _ _) (.refl v)) (v.beginObserve_sameCourse _ _ _)) _ _

theorem State.applyCache_sameCourse (s : State) (p : Nat) : SameCourse s (s.applyCache p) := .ite (.of_eq rfl rfl) (.refl s)

theorem State.settleCanary_sameCourse (s : State) (p : Nat) : SameCourse s (s.settleCanary p) := by
  unfold State.settleCanary
  refine (State.modPart_sameCourse s p (fun y => ?_) (fun y => ?_)).trans (each_sameCourse (fun e v => ?_) _ _)
  · cases h : y.canaryNext <;> rfl
  · cases h : y.canaryNext <;> rfl
  · exact .ite (v.beginObserve_sameCourse _ _ _) (v.endObserve_sameCourse _ _ _)

theorem State.closeOut_sameCourse (s : State) (n : Nat) (covered : Bool) : SameCourse s (s.closeOut n covered) := by
  unfold State.closeOut
  simp only
  refine .ite (SameCourse.trans (t := s.modStream n fun y => { y with closedWritten := true }) (.of_eq rfl rfl) ?_) (.refl s)
  split
  · exact .refl _
  · exact .ite (.refl _) (State.modPart_sameCourse _ _ (fun _ => rfl) fun _ => rfl)

theorem State.finish_sameCourse (s : State) (n st : Nat) (resp buf : List Byte) (d o : Nat) :
    SameCourse s (s.finish n st resp buf d o) := by
  unfold State.finish
  simp only
  refine .ite (.refl s) (SameCourse.trans ?_ (.ite (.refl _) (State.msix_eventOnly _ _).sameCourse))
  refine SameCourse.trans ?_ (.ite (.refl _) (State.raiseRec_eventOnly _ _ _).sameCourse)
  cases buf with
  | nil => exact .of_eq rfl rfl
  | cons b l => exact .of_eq rfl rfl

theorem State.okHeld_sameCourse (s : State) (m : Option Nat) (resp : List Byte) : SameCourse s (s.okHeld m resp) := by
  cases m with
  | none => exact .refl s
  | some n => exact State.finish_sameCourse _ _ _ _ _ _ _

theorem State.freqApplied_sameCourse (s : State) : SameCourse s s.freqApplied := by
  unfold State.freqApplied
  split
  · exact .refl s
  · exact SameCourse.trans (t := { s with freqWait := none }) (.of_eq rfl rfl) (State.finish_sameCourse _ _ _ _ _ _ _)

theorem State.writeTables_sameCourse (s : State) (p tide : Nat) (adm : List Admit) : SameCourse s (s.writeTables p tide adm) := by
  have h := s.writeTables_sendsOnly p tide adm
  exact .of_eq (by rw [h]) (by rw [h])

/-! What waits for the end of a run -/

/-- Nothing waits for the end of a run. -/
def State.NothingWaits (s : State) : Prop := s.job.leaveMbx = none ∧ ∀ p, (s.part p).enableHeld = none

theorem SameWaits.nothingWaits {s t : State} (h : SameWaits s t) (hs : s.NothingWaits) : t.NothingWaits :=
  ⟨h.1.trans hs.1, fun p => (h.2 p).trans (hs.2 p)⟩

theorem State.actHeld_none {s : State} {p : Nat} (h : (s.part p).enableHeld = none) : s.actHeld p = s := by
  unfold State.actHeld
  simp only [h]

theorem State.leaveIfStopped_none {s : State} (h : s.job.leaveMbx = none) : s.leaveIfStopped = s := by
  unfold State.leaveIfStopped
  simp only [h]

theorem State.goOn_sameCourse {s : State} (h : s.NothingWaits) : SameCourse s s.goOn := by
  unfold State.goOn
  simp only
  generalize hv : (if s.runningParts.isEmpty then s.freqApplied else s) = v
  have hkept : SameCourse s v := hv ▸ .ite s.freqApplied_sameCourse (.refl s)
  have hw := hkept.1.nothingWaits h
  have heach : each (List.range 8) (fun p st => st.actHeld p) v = v :=
    each_induction (P := fun w => w = v) (fun p w hwv => by rw [hwv, State.actHeld_none (hw.2 p)]) _ _ rfl
  rw [heach, State.leaveIfStopped_none hw.1]
  exact hkept

/-! The outcome of an abandon (R216, R221, R222, R224) -/

theorem State.awaitReplay_takes (s : State) (p : Nat) : ∃ k, TakesCourse s p
    ⟨.open_, true, k, (s.part p).replays + 1, (s.part p).tidesAbandoned⟩ (s.awaitReplay p) := by
  unfold State.awaitReplay
  simp only
  generalize hv : (if (s.part p).admitTide ≠ some (s.part p).tide then
      (s.abandonEvents p).writeTables p (s.part p).tide (s.part p).admitted
    else if (s.part p).tablesDue then s.abandonEvents p
      else (s.abandonEvents p).writeTables p (s.part p).tide (s.part p).nextAdmitted) = v
  have hkept : SameCourse s v := by
    rw [← hv]
    exact (s.abandonEvents_sameCourse p).trans
      (.ite (State.writeTables_sameCourse _ _ _ _) (.ite (.refl _) (State.writeTables_sameCourse _ _ _ _)))
  have hreplays : (v.part p).replays = (s.part p).replays := congrArg Course.replays (hkept.2 p)
  have habandoned : (v.part p).tidesAbandoned = (s.part p).tidesAbandoned := congrArg Course.abandoned (hkept.2 p)
  refine ⟨if (v.part p).recovered then (v.part p).cause else none, hkept.takes (v.modPart_takesCourse p (fun y => ?_) ?_)⟩
  · split <;> rfl
  · rw [← hreplays, ← habandoned]
    split <;> rfl

theorem State.toLoaded_takes {s : State} {p : Nat} (hj : (s.part p).inJob = false) (action field tide : Nat) :
    TakesCourse s p ⟨.loaded, false, none, 0, (s.part p).tidesAbandoned⟩ (s.toLoaded p action field tide) := by
  unfold State.toLoaded
  simp only [hj, Bool.false_eq_true, if_false]
  refine TakesCourse.answered ?_ _ _ fun m =>
    .ite (State.finish_sameCourse _ _ _ _ _ _ _) (State.finish_sameCourse _ _ _ _ _ _ _)
  refine TakesCourse.answered ?_ _ _ fun m =>
    .ite (State.finish_sameCourse _ _ _ _ _ _ _) (State.finish_sameCourse _ _ _ _ _ _ _)
  refine TakesCourse.then_same ?_ (State.okHeld_sameCourse _ _ _)
  refine TakesCourse.then_same ?_ (each_sameCourse (fun n v => v.closeOut_sameCourse n false) _ _)
  refine TakesCourse.then_same ?_ (State.settleCanary_sameCourse _ _)
  refine TakesCourse.then_same ?_ (State.applyCache_sameCourse _ _)
  have hkept : SameCourse s (if action = 0 then (s.abandonEvents p).raiseTide p tide (s.part p).replaying 0x0205
      (if action = 0 then 0 else 3) mgmtUnit (if action = 6 then (s.part p).lastCommitted * 2 ^ 16 + 6 else field + action)
    else ((s.abandonEvents p).raiseTide p tide (s.part p).replaying 0x0205
      (if action = 0 then 0 else 3) mgmtUnit
      (if action = 6 then (s.part p).lastCommitted * 2 ^ 16 + 6 else field + action)).canaryOutcome p) :=
    ((s.abandonEvents_sameCourse p).trans (State.raiseTide_eventOnly _ _ _ _ _ _ _ _).sameCourse).trans
      (.ite (.refl _) (State.canaryOutcome_sameCourse _ _))
  exact hkept.takes (State.modPart_takesCourse _ p (fun _ => rfl)
    (congrArg (Course.mk _ _ _ _) (congrArg Course.abandoned (hkept.2 p))))

/-- TIDE_ABANDON, and the tide counted as abandoned. -/
def State.abandonCounted (s : State) (p act : Nat) : State :=
  let v := s.raiseTide p (s.part p).tide (s.part p).replaying 0x0202 2 mgmtUnit
    (causeField (s.part p).cause (s.part p).replays + act)
  v.modPart p fun y => { y with
    tidesAbandoned := (y.tidesAbandoned + 1) % 2 ^ 32, stallSeen := y.stallSeen ++ v.stalls (s.part p), settled := false }

theorem State.abandonCounted_part (s : State) (p act : Nat) : ∃ l, (s.abandonCounted p act).part p =
    { s.part p with tidesAbandoned := ((s.part p).tidesAbandoned + 1) % 2 ^ 32, stallSeen := l, settled := false } := by
  simp only [State.abandonCounted, State.modPart_part_self, State.raiseTide_part]
  exact ⟨_, rfl⟩

theorem State.abandonCounted_sameWaits (s : State) (p act : Nat) : SameWaits s (s.abandonCounted p act) :=
  (State.raiseTide_eventOnly _ _ _ _ _ _ _ _).sameCourse.1.trans (State.modPart_sameWaits _ _ fun _ => rfl)

/-- A replay: the tide counts as abandoned, and the partition awaits its start. -/
theorem State.actOnAbandon_replay (s : State) (p stop : Nat) : ∃ k, TakesCourse s p
    ⟨.open_, true, k, (s.part p).replays + 1, ((s.part p).tidesAbandoned + 1) % 2 ^ 32⟩ (s.actOnAbandon p 0 stop) := by
  obtain ⟨l, hpart⟩ := s.abandonCounted_part p 0
  obtain ⟨k, hw, hc⟩ := (s.abandonCounted p 0).awaitReplay_takes p
  rw [hpart] at hc
  exact ⟨k, (s.abandonCounted_sameWaits p 0).trans hw, hc⟩

/-- A recovery. -/
theorem State.actOnAbandon_recovery (s : State) (p stop : Nat) : ∃ k, TakesCourse s p
    ⟨.recovering, k, none, (s.part p).replays, ((s.part p).tidesAbandoned + 1) % 2 ^ 32⟩ (s.actOnAbandon p 1 stop) := by
  obtain ⟨l, hpart⟩ := s.abandonCounted_part p 1
  obtain ⟨hw, hc⟩ := State.modPart_takesCourse (s.abandonCounted p 1) p
    (f := fun y => { y with st := .recovering, cause := none }) (fun _ => rfl) rfl
  rw [hpart] at hc
  exact ⟨_, (s.abandonCounted_sameWaits p 1).trans hw, hc⟩

/-- The end of the run. -/
theorem State.actOnAbandon_stop {s : State} {p : Nat} (hj : (s.part p).inJob = false) (n stop : Nat) : TakesCourse s p
    ⟨.loaded, false, none, 0, ((s.part p).tidesAbandoned + 1) % 2 ^ 32⟩ (s.actOnAbandon p (n + 2) stop) := by
  obtain ⟨l, hpart⟩ := s.abandonCounted_part p (n + 2)
  obtain ⟨hw, hc⟩ := State.toLoaded_takes (s := s.abandonCounted p (n + 2)) (p := p) (by rw [hpart]; exact hj) stop
    (causeField (s.part p).cause (s.part p).replays) (s.part p).tide
  rw [hpart] at hc
  exact ⟨(s.abandonCounted_sameWaits p (n + 2)).trans hw, hc⟩

/-- Whatever the outcome, the tide counts as abandoned. -/
theorem State.actOnAbandon_counts {s : State} {p : Nat} (hj : (s.part p).inJob = false) (act stop : Nat) :
    ∃ c : Course, c.abandoned = ((s.part p).tidesAbandoned + 1) % 2 ^ 32 ∧ TakesCourse s p c (s.actOnAbandon p act stop) := by
  match act with
  | 0 =>
    obtain ⟨_, h⟩ := s.actOnAbandon_replay p stop
    exact ⟨_, rfl, h⟩
  | 1 =>
    obtain ⟨_, h⟩ := s.actOnAbandon_recovery p stop
    exact ⟨_, rfl, h⟩
  | n + 2 => exact ⟨_, rfl, State.actOnAbandon_stop hj n stop⟩

/-! Which outcome (R216, R221) -/

section
variable {s : State} {p : Nat} {c : FaultCause} (hc : (s.part p).cause = some c) (hcs : (s.part p).causes = [c])
  (hcode : c.code ≠ 0x0701) (hfree : (s.part p).freeAbandons = 0)

include hcs hcode in
theorem Partition.freeAbandon_other : (s.part p).freeAbandon = false := by
  simp [Partition.freeAbandon, hcs, hcode]

include hc hcs hcode hfree

theorem State.verdictOf_recovery (hk : c.kind = .hardware) (hl : (s.part p).replays < (s.params p).replayLimit) :
    s.verdictOf p = (1, 0) := by
  simp [State.verdictOf, hc, hk, Partition.freeAbandon_other hcs hcode, hfree, hl]

theorem State.verdictOf_replay (hk : c.kind = .stall) (hseen : (s.part p).stallSeen = [])
    (hl : (s.part p).replays < (s.params p).replayLimit) : s.verdictOf p = (0, 0) := by
  simp [State.verdictOf, hc, hk, Partition.freeAbandon_other hcs hcode, hfree, hl, hseen]

theorem State.verdictOf_stop (h : c.kind = .stop ∨ c.kind = .program ∨ (s.params p).replayLimit ≤ (s.part p).replays) :
    (s.verdictOf p).1 = 2 := by
  have hfull : c.kind = .hardware ∨ c.kind = .stall → (s.params p).replayLimit ≤ (s.part p).replays := by
    obtain hk | hk | hl := h
    · simp [hk]
    · simp [hk]
    · exact fun _ => hl
  cases hk : c.kind with
  | stop => simp [State.verdictOf, hc, hk]
  | program => simp [State.verdictOf, hc, hk]
  | hardware => simp [State.verdictOf, hc, hk, Partition.freeAbandon_other hcs hcode, hfree, hfull (.inl hk)]
  | stall =>
    simp only [State.verdictOf, hc, hk, Partition.freeAbandon_other hcs hcode, hfree]
    split
    · rfl
    · simp [hfull (.inr hk)]

end

/-- The abandon has settled: the tide's flits and packets are gone. -/
def State.settledDown (s : State) (p : Nat) : State :=
  (s.dropFlits.dropInMesh p).modPart p fun y => { y with settled := true }

theorem State.dropFlits_kept (s : State) : s.dropFlits.parts = s.parts ∧ s.dropFlits.job.leaveMbx = s.job.leaveMbx := by
  unfold State.dropFlits
  constructor
  · refine (each_eq (π := State.parts) ?_ _ _).trans rfl
    exact fun _ _ => rfl
  · refine (each_eq (π := fun v => v.job.leaveMbx) ?_ _ _).trans rfl
    exact fun _ _ => rfl

theorem State.settledDown_sameCourse (s : State) (p : Nat) : SameCourse s (s.settledDown p) :=
  (SameCourse.of_eq s.dropFlits_kept.2 s.dropFlits_kept.1).trans
    ((SameCourse.of_eq rfl rfl).trans (State.modPart_sameCourse (s.dropFlits.dropInMesh p) p (fun _ => rfl) fun _ => rfl))

theorem State.settledDown_part (s : State) (p : Nat) : (s.settledDown p).part p = { s.part p with settled := true } := by
  have hpart : (s.dropFlits.dropInMesh p).part p = s.part p := by
    rw [State.part, show (s.dropFlits.dropInMesh p).parts = s.parts from s.dropFlits_kept.1]
    rfl
  rw [State.settledDown, State.modPart_part_self, hpart]

theorem exec_abandonSettled_clear {s : State} {p : Nat} (hst : (s.part p).st = .abandoning) (hset : (s.part p).settled = false)
    (hw : s.writesFlying p = false) (hcl : (s.part p).cleared = false) (he : s.hasEndpoints p = true) :
    exec (.abandonSettled p) s = .next (s.clearEndpoints p) := by
  rw [exec_abandonSettled, execAbandonSettled, if_neg (by simp [hst, hset, hw]), if_pos (by simp [hcl, he])]

theorem exec_abandonSettled_acts {s : State} {p : Nat} (hj : (s.part p).inJob = false) (hst : (s.part p).st = .abandoning)
    (hset : (s.part p).settled = false) (hw : s.writesFlying p = false)
    (hcl : (s.part p).cleared = true ∨ s.hasEndpoints p = false) :
    exec (.abandonSettled p) s = .next ((s.settledDown p).actOnAbandon p ((s.settledDown p).verdictOf p).1
      ((s.settledDown p).verdictOf p).2).goOn := by
  rw [exec_abandonSettled, execAbandonSettled, if_neg (by simp [hst, hset, hw]), if_neg (by obtain h | h := hcl <;> simp [h])]
  exact if_neg (by simp [hj])

theorem abandonOutcome : Claims.AbandonOutcome := by
  intro s p c hj hst hset hw hc hcs hcode hfree hnone
  refine ⟨exec_abandonSettled_clear hst hset hw, fun hcl => ⟨_, exec_abandonSettled_acts hj hst hset hw hcl, ?_⟩⟩
  have hdown := s.settledDown_sameCourse p
  have hpart := s.settledDown_part p
  have hparams : (s.settledDown p).params p = s.params p := by
    rw [State.params, hpart]
    rfl
  generalize s.settledDown p = u at hdown hpart hparams
  have hgo : ∀ {d : Course} {act stop : Nat}, TakesCourse u p d (u.actOnAbandon p act stop) →
      ((u.actOnAbandon p act stop).goOn.part p).course = d := fun h => by
    have hwait : State.NothingWaits _ := (hdown.1.trans h.1).nothingWaits ⟨hnone.2.1, hnone.1⟩
    exact (h.then_same (State.goOn_sameCourse hwait)).2
  have huj : (u.part p).inJob = false := by rw [hpart]; exact hj
  have huc : (u.part p).cause = some c := by rw [hpart]; exact hc
  have hucs : (u.part p).causes = [c] := by rw [hpart]; exact hcs
  have hufree : (u.part p).freeAbandons = 0 := by rw [hpart]; exact hfree
  have hur : (u.part p).replays = (s.part p).replays := by rw [hpart]
  have hua : (u.part p).tidesAbandoned = (s.part p).tidesAbandoned := by rw [hpart]
  refine ⟨?_, fun hl => ⟨fun hk => ?_, fun hk hseen => ?_⟩, fun h => ?_⟩
  · obtain ⟨d, hd, h⟩ := State.actOnAbandon_counts huj (u.verdictOf p).1 (u.verdictOf p).2
    obtain ⟨-, -, -, -, habandoned⟩ := Partition.of_course (hgo h)
    rw [habandoned, hd, hua]
  · rw [State.verdictOf_recovery huc hucs hcode hufree hk (by rwa [hur, hparams])]
    obtain ⟨_, h⟩ := u.actOnAbandon_recovery p 0
    exact (Partition.of_course (hgo h)).1
  · rw [State.verdictOf_replay huc hucs hcode hufree hk (by rw [hpart]; exact hseen) (by rwa [hur, hparams])]
    obtain ⟨_, h⟩ := u.actOnAbandon_replay p 0
    obtain ⟨hopen, hawaiting, -, hreplays, -⟩ := Partition.of_course (hgo h)
    exact ⟨hopen, hawaiting, by rw [hreplays, hur]⟩
  · rw [State.verdictOf_stop huc hucs hcode hufree (by rwa [hur, hparams])]
    obtain ⟨hloaded, -, hcause, hreplays, -⟩ := Partition.of_course (hgo (State.actOnAbandon_stop huj 0 (u.verdictOf p).2))
    exact ⟨hloaded, hcause, hreplays⟩

/-- Settles O25: an abandon stills every tile of its partition; how it settles is the one change of the partition's course. -/
theorem abandonedTides : Obligations.AbandonedTides := ⟨abandonStopsThePartition, abandonOutcome⟩

end Sys2Proof.Machine
end

section
/-!
SUPPORT. Writes into a scratchpad from the mesh or the mover, the bank ports they use, and remote accesses
(`Obligations.ScratchpadWritesAndRemoteAccess`).
-/

namespace Sys2Proof.Machine

/-! What the commands call -/

theorem exec_remoteAccessArrive (s : State) (t : TileId) : exec (.remoteAccessArrive t) s = execRemoteAccessArrive t s := rfl
theorem exec_waitingAccessResume (s : State) (g : Nat) : exec (.waitingAccessResume g) s = execWaitingAccessResume g s := rfl

/-! Bytes and words (R8) -/

/-- The bytes of a number made of bytes are those bytes. -/
theorem leBytes_leNat : ∀ l : List Byte, leBytes l.length (leNat l) = l
  | [] => rfl
  | b :: r => by
    have hb := b.isLt
    have hlow : BitVec.ofNat 8 (b.toNat + 256 * leNat r) = b := BitVec.eq_of_toNat_eq (by rw [BitVec.toNat_ofNat]; omega)
    have hrest : (b.toNat + 256 * leNat r) / 256 = leNat r := by omega
    rw [List.length_cons, leNat, leBytes, hlow, hrest, leBytes_leNat r]

/-- Byte `i` of a number. -/
theorem leBytes_getD : ∀ {n i : Nat} (v : Nat), i < n → (leBytes n v).getD i 0 = BitVec.ofNat 8 (v / 2 ^ (8 * i))
  | n + 1, 0, v, _ => by simp [leBytes]
  | n + 1, i + 1, v, h => by
    have hpow : v / 2 ^ (8 * (i + 1)) = v / 256 / 2 ^ (8 * i) := by
      rw [Nat.div_div_eq_div_mul, Nat.mul_succ, Nat.pow_add, Nat.mul_comm]
    rw [leBytes, List.getD_cons_succ, leBytes_getD (v / 256) (by omega), hpow]

theorem leNat_lt : ∀ l : List Byte, leNat l < 256 ^ l.length
  | [] => Nat.one_pos
  | b :: r => by
    have hb := b.isLt
    have hr := leNat_lt r
    rw [leNat, List.length_cons, Nat.pow_succ]
    omega

/-- The bytes of a word made of four bytes are those bytes. -/
theorem leBytes_word {l : List Byte} (h : l.length = 4) : leBytes 4 (BitVec.ofNat 32 (leNat l)).toNat = l := by
  have hlt := leNat_lt l
  have hl := leBytes_leNat l
  rw [h] at hlt hl
  rw [BitVec.toNat_ofNat, Nat.mod_eq_of_lt (show leNat l < 2 ^ 32 from hlt), hl]

theorem memBytes_length (m : List Host.Cell) (a n : Nat) : (memBytes m a n).length = n := by simp [memBytes]

theorem memBytes_add (m : List Host.Cell) (a n k : Nat) : memBytes m a (n + k) = memBytes m a n ++ memBytes m (a + n) k := by
  simp [memBytes, List.range_add, Nat.add_assoc]

/-- A part of a run of bytes read is the run read from there. -/
theorem memBytes_drop_take (m : List Host.Cell) {a n k i : Nat} (h : i + k ≤ n) :
    ((memBytes m a n).drop i).take k = memBytes m (a + i) k := by
  obtain ⟨r, rfl⟩ := Nat.exists_eq_add_of_le h
  rw [Nat.add_assoc, memBytes_add, List.drop_left' (memBytes_length m a i), memBytes_add,
    List.take_left' (memBytes_length m (a + i) k)]

theorem leBytes_wordAt (m : List Host.Cell) (w : Nat) : leBytes 4 (wordAt m w).toNat = memBytes m (4 * w) 4 :=
  leBytes_word (memBytes_length m (4 * w) 4)

/-- Byte `i` of a word read. -/
theorem byte_wordAt (m : List Host.Cell) (w : Nat) {i : Nat} (h : i < 4) :
    BitVec.ofNat 8 ((wordAt m w).toNat / 2 ^ (8 * i)) = memGet m (4 * w + i) := by
  rw [← leBytes_getD _ h, leBytes_wordAt]
  simp [memBytes, List.getD_eq_getElem?_getD, h]

/-- The words in a row from `w` up are the bytes in a row from `4 * w` up. -/
theorem flatMap_wordAt (m : List Host.Cell) (w : Nat) : ∀ n,
    ((List.range n).map fun i => wordAt m (w + i)).flatMap (fun v => leBytes 4 v.toNat) = memBytes m (4 * w) (4 * n)
  | 0 => rfl
  | n + 1 => by
    rw [List.range_succ, List.map_append, List.flatMap_append, flatMap_wordAt m w n, Nat.mul_succ, memBytes_add, ← Nat.mul_add]
    simp [leBytes_wordAt]

/-- A byte read after a word was written. -/
theorem memGet_putWord {m : List Host.Cell} (h : Memory.wf m = true) (w : Nat) (v : Word) (i : Nat) :
    memGet (putWord m w v) i = if i / 4 = w then BitVec.ofNat 8 (v.toNat / 2 ^ (8 * (i % 4))) else memGet m i := by
  rw [putWord, memGet_memPut _ _ _ h, leBytes_length]
  by_cases hi : i / 4 = w
  · have hoff : i - 4 * w = i % 4 := by omega
    rw [if_pos hi, if_pos (by omega), hoff, leBytes_getD _ (Nat.mod_lt i (by decide))]
  · rw [if_neg hi, if_neg (by omega)]

/-! One word written by a requester outside the bundle (R156, R160) -/

/-- Where no store of an earlier cycle is on its way, other requesters see the scratchpad as it stands. -/
theorem Tile.memNow_eq_mem {x : Tile} (h : ∀ p ∈ x.pend, ∀ a v, p.dest = .mem a v → ¬ p.issued < x.ecc) :
    x.memNow = x.mem := by
  refine List.foldlRecOn (motive := fun m => m = x.mem) _ _ rfl fun m hm p hp => ?_
  split
  · exact (if_neg (h p hp _ _ ‹_›)).trans hm
  · exact hm

theorem Tile.lineWritten_memNow (x : Tile) (l : Nat) : (x.lineWritten l).memNow = x.memNow := by
  unfold Tile.lineWritten
  dsimp only
  split <;> rfl

theorem Tile.lineWritten_flips (x : Tile) (l : Nat) : (x.lineWritten l).flips = x.flips := by
  rw [Tile.lineWritten]
  split <;> rfl

theorem Tile.lineWritten_pend (x : Tile) (l : Nat) : (x.lineWritten l).pend = x.pend := by
  rw [Tile.lineWritten]
  split <;> rfl

theorem Tile.storesIn_flips {x : Tile} (h : x.flips = []) : x.storesIn.flips = [] := by
  refine List.foldlRecOn (motive := fun y : Tile => y.flips = []) _ _ h fun y hy a _ => ?_
  rw [Tile.lineWritten_flips, hy]
  rfl

/-- A store still on its way after the earlier ones were made is one of this cycle. -/
theorem Tile.storesIn_pend (x : Tile) : ∀ p ∈ x.storesIn.pend, ∀ a v, p.dest = .mem a v → ¬ p.issued < x.ecc := by
  refine List.foldlRecOn (motive := fun y : Tile => ∀ p ∈ y.pend, ∀ a v, p.dest = .mem a v → ¬ p.issued < x.ecc) _ _ ?_
    fun y hy a _ => ?_
  · intro p hp a v hd
    simpa [hd] using (List.mem_filter.mp hp).2
  · rwa [Tile.lineWritten_pend]

/-- Other requesters see a word written at once, after the stores of earlier cycles. -/
theorem Tile.writeWord_memNow (x : Tile) (w : Nat) (v : Word) : (x.writeWord w v).memNow = putWord x.memNow w v := by
  have hecc : x.storesIn.ecc = x.ecc := by rw [x.storesIn_scratchOnly]
  rw [Tile.writeWord, Tile.lineWritten_memNow, Tile.memNow_eq_mem (hecc ▸ x.storesIn_pend), Tile.storesIn_mem]

/-- A canonical scratchpad whose words hold no stored error. -/
structure Tile.Sound (x : Tile) : Prop where
  wf : Memory.wf x.mem = true
  flips : x.flips = []

theorem Tile.Sound.writeWord {x : Tile} (h : x.Sound) (w : Nat) (v : Word) : (x.writeWord w v).Sound where
  wf := x.writeWord_wf w v h.wf
  flips := by
    rw [Tile.writeWord, Tile.lineWritten_flips, Tile.storesIn_flips h.flips]
    rfl

theorem Tile.Sound.memGet_writeWord {x : Tile} (h : x.Sound) (w : Nat) (v : Word) (i : Nat) :
    memGet (x.writeWord w v).memNow i
      = if i / 4 = w then BitVec.ofNat 8 (v.toNat / 2 ^ (8 * (i % 4))) else memGet x.memNow i := by
  rw [Tile.writeWord_memNow, memGet_putWord (x.memNow_wf h.wf)]

theorem Tile.flipsNow_zero {x : Tile} (h : x.flips = []) (w : Nat) : x.flipsNow w = 0 := by
  rw [Tile.flipsNow, h]
  exact ite_self 0

/-! Reads of words without error (R157, R160) -/

/-- The row 7 lines of a read of bytes. -/
def readTouches (a n : Nat) : List (Nat × Bool) := (linesOf (wordsOf a n)).map fun l => (l, false)

/-- The words of a byte range hold its bytes, from the offset of the first in its word. -/
theorem bytes_of_wordsOf (m : List Host.Cell) (a n : Nat) :
    ((((wordsOf a n).map (wordAt m)).flatMap fun v => leBytes 4 v.toNat).drop (a % 4)).take n = memBytes m a n := by
  by_cases h : n = 0
  · subst h
    rfl
  · have hmap : (wordsOf a n).map (wordAt m) = (List.range ((a + n - 1) / 4 - a / 4 + 1)).map fun i => wordAt m (a / 4 + i) := by
      rw [wordsOf, if_neg h, List.map_map]
      rfl
    rw [hmap, flatMap_wordAt, memBytes_drop_take m (by omega), Nat.div_add_mod]

/-- A read of a scratchpad without stored errors gives its bytes, and only the lines touched are noted. -/
theorem State.readLocal_clean {s : State} {t : TileId} (h : (s.tile t).flips = []) (a n remote req : Nat) :
    s.readLocal t a n remote req
      = (s.modTile t fun x => x.touch (readTouches a n), memBytes (s.tile t).memNow a n, false) := by
  have hnow : ((s.modTile t fun x => x.touch (readTouches a n)).tile t).readNow = (s.tile t).readNow := by
    rw [State.modTile_tile_self]
    rfl
  have hread := State.readWords_clean (s.modTile t fun x => x.touch (readTouches a n)) t (s.tile t).readNow (wordsOf a n)
    fun w _ => Tile.flipsNow_zero h w
  rw [← hnow] at hread
  unfold State.readLocal
  dsimp only
  rw [← readTouches, hread, hnow]
  exact congrArg (fun b => (_, b, false)) (bytes_of_wordsOf (s.tile t).memNow a n)

/-- The words of line `l` as other requesters see them. -/
def Tile.lineNow (x : Tile) (l : Nat) : List Word := (List.range 4).map fun i => wordAt x.memNow (4 * l + i)

theorem State.readLine_clean {s : State} {t : TileId} (h : (s.tile t).flips = []) (l remote req : Nat) :
    s.readLine t l remote req = (s.modTile t fun x => x.touch (readTouches (16 * l) 16), some ((s.tile t).lineNow l)) := by
  rw [State.readLine, State.readLocal_clean h]
  refine congrArg (fun ws => (_, some ws)) (List.map_congr_left fun i hi => ?_)
  have hword : 16 * l + 4 * i = 4 * (4 * l + i) := by omega
  rw [memBytes_drop_take _ (by have := List.mem_range.mp hi; omega), hword]
  rfl

/-! Lines written (R157) -/

theorem Tile.touch_touch (x : Tile) (ls ms : List (Nat × Bool)) : (x.touch ls).touch ms = x.touch (ls ++ ms) := by
  simp [Tile.touch, Function.comp_def]

/-- A word written where there is one to write. -/
def Tile.writeSome (x : Tile) (w : Nat) : Option Word → Tile
  | none => x
  | some v => x.writeWord w v

/-- The words `ks` of line `l` written one after another, from what the line held in memory `m`. -/
def Tile.putWords (m : List Host.Cell) (l : Nat) (put : Nat → Word → Option Word) (ks : List Nat) (x : Tile) : Tile :=
  ks.foldl (fun y k => y.writeSome (4 * l + k) (put (4 * l + k) (wordAt m (4 * l + k)))) x

/-- A line of a scratchpad without stored errors written: read first or not, its words are put. -/
theorem State.writeLine_clean {s : State} {t : TileId} (h : (s.tile t).flips = []) (l : Nat) (whole : Bool) (remote req : Nat)
    (put : Nat → Word → Option Word) : ∃ ls, s.writeLine t l whole remote req put
      = s.setTile t (((s.tile t).touch ls).putWords (s.tile t).memNow l put (List.range 4)) := by
  cases whole with
  | true =>
    refine ⟨[(l, true)], ?_⟩
    unfold State.writeLine
    simp only [if_true, State.modTile_modTile]
    rfl
  | false =>
    refine ⟨readTouches (16 * l) 16 ++ [(l, true)], ?_⟩
    unfold State.writeLine
    simp only [Bool.false_eq_true, if_false, State.readLine_clean h, State.modTile_modTile, Tile.touch_touch]
    rfl

theorem Tile.putWords_cons (m : List Host.Cell) (l : Nat) (put : Nat → Word → Option Word) (k : Nat) (ks : List Nat)
    (x : Tile) : x.putWords m l put (k :: ks)
      = (x.writeSome (4 * l + k) (put (4 * l + k) (wordAt m (4 * l + k)))).putWords m l put ks := rfl

theorem Tile.putWords_scratchOnly (m : List Host.Cell) (l : Nat) (put : Nat → Word → Option Word) (ks : List Nat) (x : Tile) :
    x.ScratchOnly (x.putWords m l put ks) := by
  refine List.foldlRecOn (motive := fun y => x.ScratchOnly y) _ _ rfl fun y hy k _ => ?_
  cases put (4 * l + k) (wordAt m (4 * l + k)) with
  | none => exact hy
  | some v => exact hy.trans (Tile.writeWord_scratchOnly _ _ _)

theorem Tile.Sound.putWords {x : Tile} (h : x.Sound) (m : List Host.Cell) (l : Nat) (put : Nat → Word → Option Word)
    (ks : List Nat) : (x.putWords m l put ks).Sound := by
  refine List.foldlRecOn (motive := fun y : Tile => y.Sound) _ _ h fun y hy k _ => ?_
  cases put (4 * l + k) (wordAt m (4 * l + k)) with
  | none => exact hy
  | some v => exact hy.writeWord _ _

/-! The bytes `b` written from address `a` up (R157) -/

/-- Byte `i` after `b` is written from `a` up where it was `u` before. -/
def overlay (a : Nat) (b : List Byte) (i : Nat) (u : Byte) : Byte := if a ≤ i ∧ i < a + b.length then b.getD (i - a) 0 else u

theorem overlay_overlay (a : Nat) (b : List Byte) (i : Nat) (u : Byte) : overlay a b i (overlay a b i u) = overlay a b i u := by
  unfold overlay
  split <;> rfl

/-- Byte `i` of those written, where it is one. -/
def newByte (a : Nat) (b : List Byte) (i : Nat) : Option Byte := if a ≤ i then b[i - a]? else none

theorem newByte_getD (a : Nat) (b : List Byte) (i : Nat) (u : Byte) : (newByte a b i).getD u = overlay a b i u := by
  by_cases ha : a ≤ i
  · rw [newByte, if_pos ha, overlay]
    by_cases hi : i < a + b.length
    · have hb : i - a < b.length := by omega
      simp [ha, hi, hb]
    · have hb : b.length ≤ i - a := by omega
      simp [hi, hb]
  · rw [newByte, if_neg ha, overlay, if_neg fun h => ha h.1]
    rfl

/-- The word that a write of bytes makes of word `w`, where it writes in that word. -/
def newWord (a : Nat) (b : List Byte) (w : Nat) (v : Word) : Option Word :=
  if (wordsOf a b.length).contains w then
    some (BitVec.ofNat 32 (leNat ((List.range 4).map fun i =>
      (newByte a b (4 * w + i)).getD (BitVec.ofNat 8 (v.toNat / 2 ^ (8 * i))))))
  else none

/-- A byte range's words are those of its bytes. -/
theorem div_mem_wordsOf {a n i : Nat} (h : a ≤ i ∧ i < a + n) : i / 4 ∈ wordsOf a n := by
  rw [wordsOf, if_neg (by omega)]
  exact List.mem_map.mpr ⟨i / 4 - a / 4, List.mem_range.mpr (by omega), by omega⟩

theorem div_mem_linesOf {a n i : Nat} (h : a ≤ i ∧ i < a + n) : i / 16 ∈ linesOf (wordsOf a n) :=
  List.mem_eraseDups.mpr (List.mem_map.mpr ⟨i / 4, div_mem_wordsOf h, by omega⟩)

/-- A word put from what memory `m` holds: its bytes are those written, and elsewhere those of `m`. -/
theorem Tile.Sound.memGet_writeSome {y : Tile} (hy : y.Sound) (m : List Host.Cell) (a : Nat) (b : List Byte) (w i : Nat)
    (hi : overlay a b i (memGet y.memNow i) = overlay a b i (memGet m i)) :
    memGet (y.writeSome w (newWord a b w (wordAt m w))).memNow i
      = if i / 4 = w then overlay a b i (memGet m i) else memGet y.memNow i := by
  by_cases hw : w ∈ wordsOf a b.length
  · rw [newWord, if_pos (List.contains_iff_mem.mpr hw), Tile.writeSome, hy.memGet_writeWord]
    refine if_ctx_congr Iff.rfl (fun hiw => ?_) fun _ => rfl
    have hi4 : i % 4 < 4 := Nat.mod_lt i (by decide)
    have hat : 4 * w + i % 4 = i := by omega
    rw [← leBytes_getD _ hi4, leBytes_word (by simp)]
    simp [List.getD_eq_getElem?_getD, hi4, byte_wordAt m w hi4, newByte_getD, hat]
  · rw [newWord, if_neg (mt List.contains_iff_mem.mp hw), Tile.writeSome]
    by_cases hiw : i / 4 = w
    · have hout : ¬ (a ≤ i ∧ i < a + b.length) := fun h => hw (hiw ▸ div_mem_wordsOf h)
      rw [overlay, overlay, if_neg hout, if_neg hout] at hi
      rw [if_pos hiw, overlay, if_neg hout, hi]
    · rw [if_neg hiw]

/-- The words of a line put: each byte of theirs is as the write makes it, every other one as it was. -/
theorem Tile.Sound.memGet_putWords (m : List Host.Cell) (a : Nat) (b : List Byte) (l i : Nat) : ∀ (ks : List Nat) {y : Tile},
    y.Sound → overlay a b i (memGet y.memNow i) = overlay a b i (memGet m i) →
    memGet (y.putWords m l (newWord a b) ks).memNow i
      = if ∃ k ∈ ks, i / 4 = 4 * l + k then overlay a b i (memGet m i) else memGet y.memNow i
  | [], _, _, _ => by simp [Tile.putWords]
  | k :: ks, y, hy, hi => by
    have hone := hy.memGet_writeSome m a b (4 * l + k) i hi
    have hsound : (y.writeSome (4 * l + k) (newWord a b (4 * l + k) (wordAt m (4 * l + k)))).Sound :=
      hy.putWords m l (newWord a b) [k]
    rw [Tile.putWords_cons]
    generalize y.writeSome (4 * l + k) (newWord a b (4 * l + k) (wordAt m (4 * l + k))) = z at hone hsound
    have hz : overlay a b i (memGet z.memNow i) = overlay a b i (memGet m i) := by
      rw [hone]
      split
      · exact overlay_overlay a b i _
      · exact hi
    have ih := hsound.memGet_putWords m a b l i ks hz
    rw [hone] at ih
    refine ih.trans ?_
    by_cases hk : i / 4 = 4 * l + k <;> simp [hk]

/-- Every word of line `l` that the write touches is written whole. -/
def wholeLine (a : Nat) (b : List Byte) (l : Nat) : Bool :=
  ((wordsOf a b.length).filter fun w => w / 4 = l).all fun w => (List.range 4).all fun i => (newByte a b (4 * w + i)).isSome

theorem State.writeLocal_eq (s : State) (t : TileId) (a : Nat) (b : List Byte) (remote req : Nat) :
    s.writeLocal t a b remote req = each (linesOf (wordsOf a b.length))
      (fun l st => st.writeLine t l (wholeLine a b l) remote req (newWord a b)) s := rfl

/-- Of a state, only the scratchpad of tile `t` and what goes with it may have changed. -/
structure State.ScratchStep (s : State) (t : TileId) (s' : State) : Prop where
  sregs : (s'.tile t).sregs = (s.tile t).sregs
  queues : (s'.tile t).queues = (s.tile t).queues
  other : ∀ u, u ≠ t → s'.tile u = s.tile u
  hbm : s'.hbm = s.hbm
  parts : s'.parts = s.parts

theorem State.ScratchStep.refl (s : State) (t : TileId) : s.ScratchStep t s := ⟨rfl, rfl, fun _ _ => rfl, rfl, rfl⟩

theorem State.ScratchStep.trans {s s' s'' : State} {t : TileId} (h : s.ScratchStep t s') (k : s'.ScratchStep t s'') :
    s.ScratchStep t s'' :=
  ⟨k.sregs.trans h.sregs, k.queues.trans h.queues, fun u hu => (k.other u hu).trans (h.other u hu), k.hbm.trans h.hbm,
    k.parts.trans h.parts⟩

theorem State.setTile_scratchStep {s : State} {t : TileId} {ls : List (Nat × Bool)} {x : Tile}
    (h : ((s.tile t).touch ls).ScratchOnly x) : s.ScratchStep t (s.setTile t x) where
  sregs := by rw [State.setTile_tile_self, h]; rfl
  queues := by rw [State.setTile_tile_self, h]; rfl
  other := fun _ hu => State.setTile_tile_ne s x hu
  hbm := rfl
  parts := rfl

/-- One line of a write of bytes: the bytes in it are written, every other byte of the scratchpad stays. -/
theorem State.writeLine_bytes {s : State} {t : TileId} (h : (s.tile t).Sound) (a : Nat) (b : List Byte) (l : Nat) (whole : Bool)
    (remote req : Nat) : s.ScratchStep t (s.writeLine t l whole remote req (newWord a b)) ∧
      ((s.writeLine t l whole remote req (newWord a b)).tile t).Sound ∧
      ∀ i, memGet ((s.writeLine t l whole remote req (newWord a b)).tile t).memNow i
        = if i / 16 = l then overlay a b i (memGet (s.tile t).memNow i) else memGet (s.tile t).memNow i := by
  obtain ⟨ls, hw⟩ := State.writeLine_clean h.flips l whole remote req (newWord a b)
  have htouched : ((s.tile t).touch ls).Sound := ⟨h.wf, h.flips⟩
  rw [hw, State.setTile_tile_self]
  refine ⟨State.setTile_scratchStep (Tile.putWords_scratchOnly _ _ _ _ _), htouched.putWords _ _ _ _, fun i => ?_⟩
  have hline : (∃ k ∈ List.range 4, i / 4 = 4 * l + k) ↔ i / 16 = l :=
    ⟨fun ⟨k, hk, e⟩ => by have := List.mem_range.mp hk; omega,
      fun e => ⟨i / 4 - 4 * l, List.mem_range.mpr (by omega), by omega⟩⟩
  rw [Tile.Sound.memGet_putWords (s.tile t).memNow a b l i _ htouched rfl]
  exact if_ctx_congr hline (fun _ => rfl) fun _ => rfl

/-- The lines of a write of bytes, one after another. -/
theorem State.writeLines_bytes (a : Nat) (b : List Byte) (t : TileId) (remote req : Nat) :
    ∀ (ls : List Nat) {s : State}, (s.tile t).Sound →
      s.ScratchStep t (each ls (fun l st => st.writeLine t l (wholeLine a b l) remote req (newWord a b)) s) ∧
      ∀ i, memGet ((each ls (fun l st => st.writeLine t l (wholeLine a b l) remote req (newWord a b)) s).tile t).memNow i
        = if i / 16 ∈ ls then overlay a b i (memGet (s.tile t).memNow i) else memGet (s.tile t).memNow i
  | [], s, _ => ⟨State.ScratchStep.refl s t, fun i => by simp [each]⟩
  | l :: ls, s, h => by
    obtain ⟨hstep, hsound, hbytes⟩ := State.writeLine_bytes h a b l (wholeLine a b l) remote req
    obtain ⟨ihstep, ihbytes⟩ := State.writeLines_bytes a b t remote req ls hsound
    refine ⟨hstep.trans ihstep, fun i => (ihbytes i).trans ?_⟩
    rw [hbytes]
    by_cases hl : i / 16 = l
    · simp [hl, overlay_overlay]
    · simp [hl]

theorem localWriteStoresTheBytes : Claims.LocalWriteStoresTheBytes := by
  intro s t a b remote req hwf hflips
  obtain ⟨⟨hsregs, hqueues, hother, hhbm, hparts⟩, hbytes⟩ := State.writeLines_bytes a b t remote req
    (linesOf (wordsOf a b.length)) (s := s) ⟨hwf, hflips⟩
  rw [← State.writeLocal_eq] at hsregs hqueues hhbm hparts hbytes
  simp only [← State.writeLocal_eq] at hother
  refine ⟨fun i => (hbytes i).trans ?_, hsregs, hqueues, hother, hhbm, hparts⟩
  by_cases hi : a ≤ i ∧ i < a + b.length
  · rw [if_pos (div_mem_linesOf hi)]
    rfl
  · have hkept : overlay a b i (memGet (s.tile t).memNow i) = memGet (s.tile t).memNow i := if_neg hi
    rw [hkept, ite_self, if_neg hi]

/-! Row 7 of the bank ports (R153, R248) -/

/-- The use that an access of row 7 makes of a line. -/
def portUser (remote write : Bool) : PortUser := if remote then .remote else if write then .moverWrite else .moverRead

/-- The tile with a line of row 7 granted. -/
def Tile.granted (x : Tile) (remote : Bool) (l : Nat × Bool) : Tile :=
  { x with low := x.low ++ [(bankOfLine l.1, portUser remote l.2)], rmTurn := !remote }

/-- An access of row 7 can have line `l` in this cycle. -/
def Tile.canGrant (y x : Tile) (remote : Bool) (l : Nat × Bool) : Bool :=
  x.portFree y (bankOfLine l.1) && !(x.othersTurn remote (bankOfLine l.1)) && (remote || x.moverLines l.2)

theorem Tile.servePort_cons (y x : Tile) (remote : Bool) (l : Nat × Bool) (r : List (Nat × Bool)) :
    Tile.servePort y remote (l :: r) x = if Tile.canGrant y x remote l then Tile.servePort y remote r (x.granted remote l)
      else ((Tile.servePort y remote r x).1, l :: (Tile.servePort y remote r x).2) := rfl

theorem Tile.portFree_iff (x y : Tile) (b : Nat) : x.portFree y b = true ↔ (x.lines.any fun p => p.1 = b) = false ∧
    y.arrNeeds b = false ∧ x.slotted.getLsbD b = true ∧ (x.low.any fun p => p.1 = b) = false := by
  simp [Tile.portFree, and_assoc]

/-- Lines that row 7 may be granted in one cycle beside those it has had: of different banks that no requester above needs, the
mover's within its limits. -/
structure Tile.Grants (y x : Tile) (remote : Bool) (g : List (Nat × PortUser)) : Prop where
  banks : (g.map Prod.fst).Nodup
  free : ∀ e ∈ g, x.portFree y e.1 = true
  limit : remote = false → ∀ u, ((x.low ++ g).filter fun p => p.2 = u).length ≤ max 4 (x.low.filter fun p => p.2 = u).length

theorem Tile.Grants.nil (y x : Tile) (remote : Bool) : Tile.Grants y x remote [] :=
  ⟨List.nodup_nil, fun _ h => absurd h List.not_mem_nil, fun _ _ => by simp⟩

/-- What a requester of row 7 has had keeps the banks free that were, but for the one granted. -/
theorem Tile.portFree_granted (x y : Tile) (remote : Bool) (l : Nat × Bool) (b : Nat) :
    (x.granted remote l).portFree y b = true ↔ x.portFree y b = true ∧ bankOfLine l.1 ≠ b := by
  simp only [Tile.portFree_iff, Tile.granted, List.any_append, List.any_cons, List.any_nil, Bool.or_false, Bool.or_eq_false_iff,
    decide_eq_false_iff_not, and_assoc]

theorem Tile.Grants.cons {y x : Tile} {remote : Bool} {l : Nat × Bool} {g : List (Nat × PortUser)}
    (h : Tile.canGrant y x remote l = true) (hg : Tile.Grants y (x.granted remote l) remote g) :
    Tile.Grants y x remote ((bankOfLine l.1, portUser remote l.2) :: g) := by
  obtain ⟨⟨hfree, -⟩, hlines⟩ : (x.portFree y (bankOfLine l.1) = true ∧ _) ∧ _ := by
    simpa only [Tile.canGrant, Bool.and_eq_true] using h
  have hold : ∀ e ∈ g, x.portFree y e.1 = true ∧ bankOfLine l.1 ≠ e.1 := fun e he =>
    (x.portFree_granted y remote l e.1).mp (hg.free e he)
  refine ⟨List.nodup_cons.mpr ⟨fun hmem => ?_, hg.banks⟩, ?_, fun hr u => ?_⟩
  · obtain ⟨e, he, hb⟩ := List.mem_map.mp hmem
    exact (hold e he).2 hb.symm
  · exact List.forall_mem_cons.mpr ⟨hfree, fun e he => (hold e he).1⟩
  · subst hr
    have hlim := hg.limit rfl u
    rw [Tile.granted, List.append_assoc, List.singleton_append] at hlim
    refine hlim.trans (max_le (le_max_left _ _) ?_)
    rw [List.filter_append, List.length_append]
    by_cases hu : portUser false l.2 = u
    · have hfew : (x.low.filter fun p => p.2 = u).length < 4 := by
        subst hu
        simpa [Tile.moverLines, portUser] using hlines
      simp only [List.filter_cons, hu, decide_true, if_true, List.filter_nil, List.length_singleton]
      omega
    · simp [hu]

/-- An access of row 7 is granted what `Tile.Grants` allows, and the lines not granted remain. -/
theorem Tile.servePort_grants (y : Tile) (remote : Bool) : ∀ (ls : List (Nat × Bool)) (x : Tile), ∃ g,
    (Tile.servePort y remote ls x).1 = { x with low := x.low ++ g, rmTurn := (Tile.servePort y remote ls x).1.rmTurn } ∧
      g.length + (Tile.servePort y remote ls x).2.length = ls.length ∧ Tile.Grants y x remote g
  | [], x => ⟨[], by simp [Tile.servePort], rfl, Tile.Grants.nil y x remote⟩
  | l :: r, x => by
    rw [Tile.servePort_cons]
    split
    · obtain ⟨g, htile, hlen, hg⟩ := Tile.servePort_grants y remote r (x.granted remote l)
      refine ⟨(bankOfLine l.1, portUser remote l.2) :: g, htile.trans ?_, ?_, Tile.Grants.cons ‹_› hg⟩
      · simp [Tile.granted]
      · rw [List.length_cons, List.length_cons, ← hlen, Nat.add_right_comm]
    · obtain ⟨g, htile, hlen, hg⟩ := Tile.servePort_grants y remote r x
      exact ⟨g, htile, by rw [List.length_cons, List.length_cons, ← hlen, Nat.add_assoc], hg⟩

/-- While another access of its side is at hand, an access waits. -/
theorem State.atPort_waits {s : State} {t : TileId} {remote : Bool} {key k : Nat} {ls : List (Nat × Bool)}
    (h : (s.tile t).busy remote = some (k, ls)) (hk : k ≠ key) (f : State → State) : s.atPort t remote key f = s := by
  simp [State.atPort, h, hk]

theorem rowSevenPorts : Claims.RowSevenPorts := by
  refine ⟨fun y x remote ls => ?_, fun y x l hfree hquiet => ?_, fun s t remote key k ls f h hk => State.atPort_waits h hk f⟩
  · obtain ⟨g, htile, hlen, hg⟩ := Tile.servePort_grants y remote ls x
    exact ⟨g, htile, hg.banks, hlen, fun e he => (x.portFree_iff y e.1).mp (hg.free e he), hg.limit⟩
  · have hgrant : Tile.canGrant y x true l = true := by simp [Tile.canGrant, hfree, Tile.othersTurn, hquiet]
    rw [Tile.servePort_cons, if_pos hgrant]
    rfl

/-! Remote accesses (R164, R166, R245, R266) -/

section
variable {s : State} {t : TileId} {p : Packet} {r : List Packet} (ha : s.arrived = p :: r) (hp : isRemote p = true)
  (hd : p.dst = t)
include ha hp hd

/-- The first access delivered to a tile is the one it serves. -/
theorem State.takeRemote_head : s.takeRemote t = ({ s with arrived := r } : State).serveRemote t p := by
  rw [State.takeRemote, ha, takeFirst, if_pos (by simp [hp, hd])]

theorem exec_remoteAccessArrive_head : exec (.remoteAccessArrive t) s = if s.down t then .next (s.takeRemote t)
    else if s.acts t then .next (s.atPort t true 0 fun u => u.takeRemote t) else .next s := by
  rw [exec_remoteAccessArrive, execRemoteAccessArrive, if_neg (by simp [ha, hp, hd])]

end

section
variable {s : State} {t : TileId} {p : Packet}

theorem State.serveRemote_down (h : s.down t = true) : s.serveRemote t p
    = (s.noteAbsorbed t).answerRemote t p (if p.kind = .readReq then List.replicate p.len 0 else []) true := if_pos h

variable (h : s.down t = false)
include h

theorem State.serveRemote_read (hk : p.kind = .readReq) (hf : (s.tile t).flips = []) : s.serveRemote t p
    = (s.modTile t fun x => x.touch (readTouches (p.addr % 262144) p.len)).answerRemote t p
        (memBytes (s.tile t).memNow (p.addr % 262144) p.len) false := by
  simp [State.serveRemote, h, hk, State.readLocal_clean hf]

theorem State.serveRemote_write (hk : p.kind = .write ∨ p.kind = .mgmt) : s.serveRemote t p
    = (s.writeLocal t (p.addr % 262144) p.data (if p.unit = .none then p.src else 0) 7).answerRemote t p [] false := by
  obtain hk | hk := hk <;> simp [State.serveRemote, h, hk]

theorem State.serveRemote_acc (hk : p.kind = .accWrite) : s.serveRemote t p
    = (s.accLocal t (p.addr % 262144 / 4) (wordsOfBytes (p.data.length / 4) p.data) (decide (p.acc = 1))
        (if p.unit = .none then p.src else 0) 7).answerRemote t p [] false := by
  simp [State.serveRemote, h, hk]

end

/-- The tag with its wait for page `g` ended. -/
def TagState.resumed (x : TagState) (g : Nat) : TagState := if x.waitPage = some g then { x with waitPage := none } else x

/-- The tile with its tags' waits for page `g` ended. -/
def Tile.resumed (x : Tile) (g : Nat) : Tile := { x with tags := x.tags.map fun p => (p.1, p.2.resumed g) }

/-- A change of every entry of a table that leaves the default changes each entry read. -/
theorem tget_map {α : Type} {d : α} {f : α → α} (h : f d = d) (k : Nat) : ∀ l : Tab α,
    tget d (l.map fun p => (p.1, f p.2)) k = f (tget d l k)
  | [] => h.symm
  | (i, v) :: l => by
    simp only [List.map_cons, tget, tget_map h k l]
    split <;> rfl

theorem TagState.resumed_waitPage (x : TagState) (g : Nat) :
    (x.resumed g).waitPage = if x.waitPage = some g then none else x.waitPage := by
  unfold TagState.resumed
  split <;> rfl

theorem Tile.resumed_tag (x : Tile) (g n : Nat) : (x.resumed g).tag n = (x.tag n).resumed g :=
  tget_map (α := TagState) (d := {}) (f := fun u => u.resumed g) rfl n x.tags

/-- The state with every tag's wait for page `g` ended. -/
def State.resumed (s : State) (g : Nat) : State := { s with tiles := s.tiles.map fun p => (p.1, p.2.resumed g) }

theorem State.resumed_tile (s : State) (g : Nat) (t : TileId) : (s.resumed g).tile t = (s.tile t).resumed g :=
  tget_map (α := Tile) (d := {}) (f := fun x => x.resumed g) rfl t s.tiles

theorem exec_waitingAccessResume_still {s : State} {g : Nat} (h : ¬ ((s.page g).st = .demoting ∨ (s.page g).st = .promoting)) :
    exec (.waitingAccessResume g) s = .next (s.resumed g) := if_neg h

theorem remoteAccessAndResume : Claims.RemoteAccessAndResume := by
  refine ⟨fun s t p r ha hp hd => ⟨fun hacts => ?_, fun hdown => ?_, fun hup => ?_⟩, fun s g => ⟨fun h => ?_, fun h => ?_⟩⟩
  · have hup : s.down t = false := by
      rw [State.acts, Bool.and_eq_true] at hacts
      simpa using hacts.1
    rw [exec_remoteAccessArrive_head ha hp hd, if_neg (by simp [hup]), if_pos hacts]
  · rw [exec_remoteAccessArrive_head ha hp hd, if_pos hdown, State.takeRemote_head ha hp hd]
    exact congrArg _ (State.serveRemote_down hdown)
  · rw [State.takeRemote_head ha hp hd]
    have hup' : ({ s with arrived := r } : State).down t = false := hup
    exact ⟨State.serveRemote_read hup', State.serveRemote_write hup', State.serveRemote_acc hup'⟩
  · rw [exec_waitingAccessResume, execWaitingAccessResume, if_pos h]
  · refine ⟨_, exec_waitingAccessResume_still h, rfl, fun t n => ?_⟩
    rw [State.resumed_tile, Tile.resumed_tag, TagState.resumed_waitPage]
    exact ⟨rfl, rfl⟩

/-- Settles O29: a write as its lines, each byte overlaid; the ports by the lines a cycle grants; and a remote access by what its
tile serves. -/
theorem scratchpadWritesAndRemoteAccess : Obligations.ScratchpadWritesAndRemoteAccess :=
  ⟨localWriteStoresTheBytes, rowSevenPorts, remoteAccessAndResume⟩

end Sys2Proof.Machine
end

section
/-!
SUPPORT. The tile mover's requests, the answers to them and the end of a descriptor (`Obligations.MoverRequestsAndCompletion`).
-/

namespace Sys2Proof.Machine

/-! What the commands of the mover call -/

theorem exec_moverRequest (s : State) (t : TileId) (n : Nat) : exec (.moverRequest t n) s = execMoverRequest t n s := rfl
theorem exec_moverResponse (s : State) (t : TileId) (n : Nat) : exec (.moverResponse t n) s = execMoverResponse t n s := rfl
theorem exec_moverComplete (s : State) (t : TileId) (n : Nat) : exec (.moverComplete t n) s = execMoverComplete t n s := rfl

theorem State.down_of_acts {s : State} {t : TileId} (h : s.acts t = true) : s.down t = false := by
  rw [State.acts, Bool.and_eq_true] at h
  simpa using h.1

/-! An effect of the mover that touches no line of the scratchpad (R153, R248) -/

/-- The tile with the lines of an effect noted from here on. -/
def Tile.noting (x : Tile) : Tile := { x with touched := some [] }

/-- With no access of the mover at hand, an effect that touches no line is made at once. -/
theorem State.atPort_free {s : State} {t : TileId} {k : State → State} (key : Nat) (hb : (s.tile t).mvBusy = none)
    (hk : ((k (s.modTile t Tile.noting)).tile t).touched = some []) :
    s.atPort t false key k = k (s.setTile t (s.tile t)) := by
  have hlines : s.linesOfEffect t k = [] := congrArg (fun l => l.getD []) hk
  have hsame : (s.tile t).setBusy false none = s.tile t := by
    rw [Tile.setBusy, if_neg Bool.false_ne_true, ← hb]
  have hbusy : (s.tile t).busy false = none := hb
  unfold State.atPort
  simp only [hbusy, hlines, Tile.servePort, List.isEmpty_nil, if_true, hsame]

/-! A tag that issues (R248) -/

theorem Tile.tagIssues_ordinary {x : Tile} {n : Nat} (h : (x.tag n).shadow = false) :
    x.tagIssues n = { x with mvIssued := true, markTurn := true, lastTag := n } := if_neg (by simp [h])

theorem Tile.tagIssues_shadow {x : Tile} {n : Nat} (h : (x.tag n).shadow = true) :
    x.tagIssues n = { x with mvIssued := true, markTurn := true, lastShadow := n } := if_pos h

/-- But for the turn, a tag that issues leaves its tile as it is. -/
theorem Tile.tagIssues_eq (x : Tile) (n : Nat) : ∃ a b, x.tagIssues n =
    { x with mvIssued := true, markTurn := true, lastTag := a, lastShadow := b } := by
  unfold Tile.tagIssues
  split
  · exact ⟨_, _, rfl⟩
  · exact ⟨_, _, rfl⟩

/-- A tag asks for nothing in a cycle in which its turn has not come, another request has issued, or a fault is known. -/
theorem moverRequest_waits {s : State} {t : TileId} {n : Nat} (hb : (s.tile t).mvBusy = none)
    (h : (s.tile t).turn ≠ some n ∨ (s.tile t).mvIssued = true ∨ s.haltedAt t = true) :
    exec (.moverRequest t n) s = .next s := by
  rw [exec_moverRequest, execMoverRequest, if_neg]
  obtain h | h | h := h <;> simp [Tile.mayRequest, hb, h]

/-- The tag whose turn has come makes its next request through row 7 of the ports. -/
theorem moverRequest_asks {s : State} {t : TileId} {n : Nat} (ha : s.acts t = true) (hb : (s.tile t).mvBusy = none)
    (hhalt : s.haltedAt t = false) (hissued : (s.tile t).mvIssued = false) (hturn : (s.tile t).turn = some n)
    (hmark : (s.tile t).markFirst = false) (hfew : (s.tile t).inFlight + (s.tile t).markFlying.length < 64) :
    exec (.moverRequest t n) s
      = .next (s.atPort t false n fun u => (u.modTile t fun x => x.tagIssues n).moverStep t n) := by
  rw [exec_moverRequest, execMoverRequest, if_pos]
  simp [ha, hhalt, Tile.mayRequest, hissued, hb, hturn, hmark, hfew]

/-! One read of a plain HBM source (R239, R244, R248) -/

/-- The request that a tag of an unindexed descriptor makes next. -/
def Tile.nextRead (x : Tile) (n : Nat) (d : Desc) : MvReq :=
  { seqNo := x.reqSeq, row := (x.tag n).row, pos := (x.tag n).pos
    len := d.pieceLen (x.tag n).row (x.tag n).pos ((x.tag n).row % d.n1), ix := (x.tag n).row % d.n1, isRead := true }

/-- The tile with a request of tag `n` recorded in flight. -/
def Tile.records (x : Tile) (n : Nat) (q : MvReq) : Tile :=
  { x with reqSeq := x.reqSeq + 1, tags := tset x.tags n { x.tag n with flying := (x.tag n).flying ++ [q] } }

/-- The tile with tag `n` past `len` bytes of its row. -/
def Tile.steps (x : Tile) (n : Nat) (d : Desc) (len : Nat) : Tile :=
  { x with tags := tset x.tags n ((x.tag n).step d len) }

theorem TagState.step_flying (g : TagState) (d : Desc) (len : Nat) : (g.step d len).flying = g.flying := by
  unfold TagState.step
  split <;> rfl

/-- A tag past the bytes of a request it has recorded has it in flight. -/
theorem Tile.steps_records_flying (x : Tile) (n : Nat) (q : MvReq) (d : Desc) (len : Nat) :
    (((x.records n q).steps n d len).tag n).flying = (x.tag n).flying ++ [q] := by
  have hrec : (x.records n q).tag n = { x.tag n with flying := (x.tag n).flying ++ [q] } := tget_tset_self _ _ _ _
  have hstep : ((x.records n q).steps n d len).tag n = ((x.records n q).tag n).step d len := tget_tset_self _ _ _ _
  rw [hstep, TagState.step_flying, hrec]

theorem State.fly_eq (s : State) (t : TileId) (n row pos len ix : Nat) (r : Bool) : s.fly t n row pos len ix r
    = (s.setTile t ((s.tile t).records n
        { seqNo := (s.tile t).reqSeq, row := row, pos := pos, len := len, ix := ix, isRead := r }), (s.tile t).reqSeq) := by
  simp only [State.fly, State.modTag, State.modTile_modTile]
  rfl

/-- The read of an HBM source enters the mesh; of the tiles only its own changes, by the request it records. -/
theorem State.readRemote_hbm (s : State) (t : TileId) (n : Nat) {d : Desc} (hcheck : d.check = 0) (hsrc : spaceOf d.src = 3)
    (row pos len ix : Nat) : ∃ p, s.readRemote t n d row pos len ix = (s.setTile t (((s.tile t).records n
      { seqNo := (s.tile t).reqSeq, row := row, pos := pos, len := len, ix := ix, isRead := true }).steps n d len)).inject 4 p := by
  have hgo : ∀ u : State, ((u.modTag t n fun g => g.step d len).modTile t fun x => x.cvMoves d len)
      = u.setTile t ((u.tile t).steps n d len) := fun u => by
    have hcv : ∀ x : Tile, x.cvMoves d len = x := fun x => if_pos hcheck
    simp only [State.modTag, State.modTile_modTile, hcv]
    rfl
  unfold State.readRemote
  simp only [hsrc, hgo, State.fly_eq, State.sendToPort, State.inject_setTile, State.inject_tile, State.setTile_setTile,
    State.setTile_tile_self]
  exact ⟨_, rfl⟩

/-- The next request of a tag with an HBM source, no index, no check and no full buffer is one read. -/
theorem State.moverStep_reads {s : State} {t : TileId} {n : Nat} {d : Desc} (hd : decodeDesc ((s.tile t).tag n).desc = d)
    (hcheck : d.check = 0) (hix : d.indexed = false) (hsrc : spaceOf d.src = 3) (hfull : ((s.tile t).tag n).full = false) :
    ∃ p, s.moverStep t n = (s.setTile t (((s.tile t).records n ((s.tile t).nextRead n d)).steps n d
      ((s.tile t).nextRead n d).len)).inject 4 p := by
  have hstart : s.startCv t n = (s, false) := if_pos (by simp [hd, hcheck])
  have hindex : s.indexOf t n d ((s.tile t).tag n).row = (s, .ix (((s.tile t).tag n).row % d.n1)) := if_pos (by simp [hix])
  obtain ⟨p, hp⟩ := s.readRemote_hbm t n hcheck hsrc ((s.tile t).tag n).row ((s.tile t).tag n).pos
    ((s.tile t).nextRead n d).len (((s.tile t).tag n).row % d.n1)
  refine ⟨p, Eq.trans ?_ hp⟩
  unfold State.moverStep
  simp only [hstart, hd, hfull, hindex, hsrc, Bool.false_eq_true, if_false]
  rfl

/-- The tile of a tag that issues one read. -/
def Tile.asks (x : Tile) (n : Nat) (d : Desc) : Tile :=
  ((x.tagIssues n).records n ((x.tagIssues n).nextRead n d)).steps n d ((x.tagIssues n).nextRead n d).len

/-- What issuing a read leaves of a tile, and what it gives. -/
theorem Tile.asks_fields (x : Tile) (n : Nat) (d : Desc) : (x.asks n d).reqSeq = x.reqSeq + 1 ∧ (x.asks n d).mvIssued = true ∧
    (x.asks n d).mem = x.mem ∧ (x.asks n d).touched = x.touched ∧
    ((x.asks n d).tag n).flying = (x.tag n).flying ++ [x.nextRead n d] := by
  have hflying := (x.tagIssues n).steps_records_flying n ((x.tagIssues n).nextRead n d) d ((x.tagIssues n).nextRead n d).len
  obtain ⟨a, b, hx⟩ := x.tagIssues_eq n
  rw [Tile.asks]
  rw [hx] at hflying ⊢
  exact ⟨rfl, rfl, rfl, rfl, hflying⟩

theorem Tile.asks_turn (x : Tile) (n : Nat) (d : Desc) :
    ((x.tag n).shadow = false → (x.asks n d).lastTag = n) ∧ ((x.tag n).shadow = true → (x.asks n d).lastShadow = n) := by
  refine ⟨fun h => ?_, fun h => ?_⟩
  · rw [Tile.asks, Tile.tagIssues_ordinary h]
    rfl
  · rw [Tile.asks, Tile.tagIssues_shadow h]
    rfl

/-- The request of MOVER_REQUEST for a plain HBM source. -/
theorem State.issue_reads {s : State} {t : TileId} {n : Nat} {d : Desc} (hd : decodeDesc ((s.tile t).tag n).desc = d)
    (hcheck : d.check = 0) (hix : d.indexed = false) (hsrc : spaceOf d.src = 3) (hfull : ((s.tile t).tag n).full = false) :
    ∃ p, (s.modTile t fun x => x.tagIssues n).moverStep t n = (s.setTile t ((s.tile t).asks n d)).inject 4 p := by
  have htag : ((s.modTile t fun x => x.tagIssues n).tile t).tag n = (s.tile t).tag n := by
    obtain ⟨a, b, hx⟩ := (s.tile t).tagIssues_eq n
    rw [State.modTile_tile_self, hx]
    rfl
  obtain ⟨p, hp⟩ := State.moverStep_reads (s := s.modTile t fun x => x.tagIssues n) (htag ▸ hd) hcheck hix hsrc (htag ▸ hfull)
  exact ⟨p, by rw [hp, State.modTile_tile_self, State.modTile_eq, State.setTile_setTile]; rfl⟩

/-- A read of HBM touches no line of the scratchpad: it is made at once. -/
theorem moverRequest_reads {s : State} {t : TileId} {n : Nat} {d : Desc} (hb : (s.tile t).mvBusy = none)
    (hd : decodeDesc ((s.tile t).tag n).desc = d) (hcheck : d.check = 0) (hix : d.indexed = false) (hsrc : spaceOf d.src = 3)
    (hfull : ((s.tile t).tag n).full = false) :
    ∃ p, (s.atPort t false n fun u => (u.modTile t fun x => x.tagIssues n).moverStep t n)
      = (s.setTile t ((s.tile t).asks n d)).inject 4 p := by
  have hnoted : ((s.modTile t Tile.noting).tile t).tag n = (s.tile t).tag n := by
    rw [State.modTile_tile_self]
    rfl
  obtain ⟨p, hp⟩ := State.issue_reads (s := s.modTile t Tile.noting) (hnoted ▸ hd) hcheck hix hsrc (hnoted ▸ hfull)
  have htouched : ((((s.modTile t Tile.noting).modTile t fun x => x.tagIssues n).moverStep t n).tile t).touched = some [] := by
    obtain ⟨-, -, -, hkept, -⟩ := ((s.modTile t Tile.noting).tile t).asks_fields n d
    rw [hp, State.inject_tile, State.setTile_tile_self, hkept, State.modTile_tile_self]
    rfl
  have hsame : (s.setTile t (s.tile t)).tile t = s.tile t := State.setTile_tile_self _ _ _
  obtain ⟨p', hp'⟩ := State.issue_reads (s := s.setTile t (s.tile t)) (hsame.symm ▸ hd) hcheck hix hsrc (hsame.symm ▸ hfull)
  refine ⟨p', ?_⟩
  rw [State.atPort_free n hb htouched, hp', hsame, State.setTile_setTile]

/-! The answer to a write (R249) -/

/-- The tile with request `q` of tag `n` answered. -/
def Tile.answers (x : Tile) (n q : Nat) : Tile := { x with tags := tset x.tags n ((x.tag n).done q) }

/-- The acknowledgement of a write, first of what has been delivered, takes its request off the tag. -/
theorem State.takeAnswer_write {s : State} {t : TileId} {n : Nat} {p : Packet} {r : List Packet} {q : MvReq}
    (ha : s.arrived = p :: r) (hp : (isAnswer t n p && s.mayAnswer t n p.seqNo) = true) (hok : p.failed = false)
    (hq : (((s.tile t).tag n).flying.find? fun x => x.seqNo = p.seqNo) = some q) (hw : q.isRead = false) :
    s.takeAnswer t n = ({ s with arrived := r } : State).setTile t ((s.tile t).answers n p.seqNo) := by
  have hfirst : s.firstAnswer t n = some (p, r) := by rw [State.firstAnswer, ha, takeFirst, if_pos hp]
  have hflying : ((({ s with arrived := r } : State).tile t).tag n).flying.find? (fun x => x.seqNo = p.seqNo) = some q := hq
  unfold State.takeAnswer
  rw [hfirst]
  unfold State.moverAnswer
  simp only [hflying, hok, hw, Bool.false_eq_true, if_false, Bool.not_false, if_true]
  rfl

theorem moverResponse_write {s : State} {t : TileId} {n : Nat} {p : Packet} {r : List Packet} {q : MvReq}
    (hact : s.acts t = true) (hb : (s.tile t).mvBusy = none) (ha : s.arrived = p :: r) (hp : isAnswer t n p = true)
    (hmay : s.mayAnswer t n p.seqNo = true) (hok : p.failed = false)
    (hq : (((s.tile t).tag n).flying.find? fun x => x.seqNo = p.seqNo) = some q) (hw : q.isRead = false) :
    exec (.moverResponse t n) s = .next (({ s with arrived := r } : State).setTile t ((s.tile t).answers n p.seqNo)) := by
  have hfirst : (s.firstAnswer t n).isSome = true := by
    rw [State.firstAnswer, ha, takeFirst, if_pos (by rw [hp, hmay]; rfl)]
    rfl
  have htake : ∀ x : Tile, x.tags = (s.tile t).tags → (s.setTile t x).takeAnswer t n
      = ({ s with arrived := r } : State).setTile t (x.answers n p.seqNo) := fun x hx => by
    have htag : ((s.setTile t x).tile t).tag n = (s.tile t).tag n := by rw [State.setTile_tile_self, Tile.tag, hx, Tile.tag]
    have hmay' : (s.setTile t x).mayAnswer t n p.seqNo = true := by
      rw [State.mayAnswer, htag]
      exact hmay
    rw [State.takeAnswer_write (s := s.setTile t x) ha (by rw [hp, hmay']; rfl) hok (htag ▸ hq) hw, State.setTile_tile_self]
    exact State.setTile_setTile ({ s with arrived := r } : State) t x (x.answers n p.seqNo)
  have htouched : (((s.modTile t Tile.noting).takeAnswer t n).tile t).touched = some [] := by
    rw [State.modTile_eq, htake (s.tile t).noting rfl, State.setTile_tile_self]
    rfl
  rw [exec_moverResponse, execMoverResponse, State.down_of_acts hact, if_neg Bool.false_ne_true, if_pos (by rw [hact, hfirst]; rfl),
    State.atPort_free _ hb htouched, htake _ rfl]

/-! The end of a descriptor (R249) -/

/-- A line of which every word written is written whole: it is not read first. -/
theorem State.writeLine_whole (s : State) (t : TileId) (l remote req : Nat) (put : Nat → Word → Option Word) :
    s.writeLine t l true remote req put
      = s.setTile t (((s.tile t).touch [(l, true)]).putWords (s.tile t).memNow l put (List.range 4)) := by
  unfold State.writeLine
  simp only [if_true, State.modTile_modTile]
  rfl

/-- Of the words of its line, one is written. -/
theorem Tile.putWords_single (m : List Host.Cell) (w : Nat) (v : Word) {put : Nat → Word → Option Word}
    (hw : ∀ u, put w u = some v) (hne : ∀ k u, k ≠ w → put k u = none) (x : Tile) :
    x.putWords m (w / 4) put (List.range 4) = x.writeWord w v := by
  have hlist : List.range 4 = [0, 1, 2, 3] := rfl
  have hone : ∀ (y : Tile) (k : Nat), y.writeSome (4 * (w / 4) + k) (put (4 * (w / 4) + k) (wordAt m (4 * (w / 4) + k)))
      = if k = w % 4 then y.writeWord w v else y := fun y k => by
    by_cases hk : k = w % 4
    · have hat : 4 * (w / 4) + k = w := by omega
      rw [hat, hw, if_pos hk]
      rfl
    · rw [hne _ _ (by omega), if_neg hk]
      rfl
  simp only [hlist, Tile.putWords_cons, hone]
  have hlt : w % 4 < 4 := Nat.mod_lt w (by decide)
  obtain h | h | h | h : w % 4 = 0 ∨ w % 4 = 1 ∨ w % 4 = 2 ∨ w % 4 = 3 := by omega
  all_goals simp [h, Tile.putWords]

theorem wordsOf_word (w : Nat) : wordsOf (4 * w) 4 = [w] := by
  have hlast : (4 * w + 4 - 1) / 4 - 4 * w / 4 + 1 = 1 := by omega
  have hfirst : 4 * w / 4 = w := by omega
  rw [wordsOf, if_neg (by decide), hlast, hfirst]
  rfl

/-- The bytes of a word written at its address make that word. -/
theorem newWord_word (w : Nat) (v u : Word) : newWord (4 * w) (leBytes 4 v.toNat) w u = some v := by
  have hbytes : ((List.range 4).map fun i => (newByte (4 * w) (leBytes 4 v.toNat) (4 * w + i)).getD
      (BitVec.ofNat 8 (u.toNat / 2 ^ (8 * i)))) = leBytes 4 v.toNat := by
    simp [newByte, leBytes, List.range_succ]
  rw [newWord, leBytes_length, wordsOf_word, if_pos (by simp), hbytes, leNat_leBytes 4 _ v.isLt, BitVec.ofNat_toNat,
    BitVec.setWidth_eq]

theorem newWord_other (w : Nat) (v : Word) {k : Nat} (u : Word) (h : k ≠ w) : newWord (4 * w) (leBytes 4 v.toNat) k u = none := by
  rw [newWord, leBytes_length, wordsOf_word, if_neg (by simpa using h)]

theorem wholeLine_word (w : Nat) (v : Word) : wholeLine (4 * w) (leBytes 4 v.toNat) (w / 4) = true := by
  rw [wholeLine, leBytes_length, wordsOf_word]
  simp [newByte, leBytes, List.range_succ]

/-- A whole word written by the mover or the mesh: it needs no read. -/
theorem State.writeLocal_word (s : State) (t : TileId) (w : Nat) (v : Word) (remote req : Nat) :
    s.writeLocal t (4 * w) (leBytes 4 v.toNat) remote req
      = s.setTile t (((s.tile t).touch [(w / 4, true)]).writeWord w v) := by
  rw [State.writeLocal_eq, leBytes_length, wordsOf_word, linesOf_single]
  simp only [each, List.foldl_cons, List.foldl_nil, wholeLine_word, State.writeLine_whole]
  rw [Tile.putWords_single _ w v (newWord_word w v) fun k u hk => newWord_other w v u hk]

theorem Tile.writeWord_mem (x : Tile) (w : Nat) (v : Word) : (x.writeWord w v).mem = putWord x.memNow w v := by
  rw [Tile.writeWord, Tile.lineWritten_mem, Tile.storesIn_mem]

/-- A tag that has completed: LANDED for a shadow one, else free. -/
def TagState.completed (g : TagState) : TagState := if g.shadow then { g with st := .landed } else {}

section
variable {s : State} {t : TileId} {n : Nat} (hcheck : (decodeDesc ((s.tile t).tag n).desc).check = 0)
include hcheck

/-- A descriptor without a check completes: its completion word, where it has one, and its tag. -/
theorem State.completeTag_eq : s.completeTag t n = State.modTile
    (if (decodeDesc ((s.tile t).tag n).desc).comp then s.writeLocal t (4 * (decodeDesc ((s.tile t).tag n).desc).compWord)
      (leBytes 4 (compValue ((s.tile t).tag n).failed false).toNat) 0 6 else s) t
    fun x => { x with tags := tset x.tags n ((s.tile t).tag n).completed } := by
  have hstart : s.startCv t n = (s, false) := if_pos (by simp [hcheck])
  have hmiss : s.checkMiss t ((s.tile t).tag n) (decodeDesc ((s.tile t).tag n).desc) = (s, false, false) :=
    if_pos (by simp [hcheck])
  unfold State.completeTag
  simp only [hstart, hmiss, hcheck, Bool.false_eq_true, if_false, if_true]
  rfl

theorem State.completeTag_plain (hcomp : (decodeDesc ((s.tile t).tag n).desc).comp = false) : s.completeTag t n
    = s.setTile t { s.tile t with tags := tset (s.tile t).tags n ((s.tile t).tag n).completed } := by
  rw [State.completeTag_eq hcheck, hcomp, if_neg Bool.false_ne_true, State.modTile_eq]

theorem State.completeTag_word (hcomp : (decodeDesc ((s.tile t).tag n).desc).comp = true) :
    (s.completeTag t n).tile t = { (s.writeLocal t (4 * (decodeDesc ((s.tile t).tag n).desc).compWord)
        (leBytes 4 (compValue ((s.tile t).tag n).failed false).toNat) 0 6).tile t with
      tags := tset (s.tile t).tags n ((s.tile t).tag n).completed } ∧
    ((s.completeTag t n).tile t).mem = putWord (s.tile t).memNow (decodeDesc ((s.tile t).tag n).desc).compWord
      (compValue ((s.tile t).tag n).failed false) := by
  rw [State.completeTag_eq hcheck, if_pos hcomp, State.modTile_tile_self, State.writeLocal_word, State.setTile_tile_self]
  refine ⟨?_, Tile.writeWord_mem _ _ _⟩
  have htags := Tile.writeWord_scratchOnly ((s.tile t).touch [((decodeDesc ((s.tile t).tag n).desc).compWord / 4, true)])
    (decodeDesc ((s.tile t).tag n).desc).compWord (compValue ((s.tile t).tag n).failed false)
  rw [htags]
  rfl

end

/-- A descriptor whose requests are all made and answered completes. -/
theorem moverComplete_completes {s : State} {t : TileId} {n : Nat} (hact : s.acts t = true)
    (hdone : (s.tile t).tagDone n = true) : exec (.moverComplete t n) s
      = .next (s.atPort t false (32 + n) fun u => u.completeTag t n) := by
  rw [exec_moverComplete, execMoverComplete, if_pos (by rw [hdone, hact]; rfl)]

/-- Without a completion word it touches no line of the scratchpad: it completes at once. -/
theorem moverComplete_plain {s : State} {t : TileId} {n : Nat} (hact : s.acts t = true) (hb : (s.tile t).mvBusy = none)
    (hdone : (s.tile t).tagDone n = true) (hcheck : (decodeDesc ((s.tile t).tag n).desc).check = 0)
    (hcomp : (decodeDesc ((s.tile t).tag n).desc).comp = false) : exec (.moverComplete t n) s
      = .next (s.setTile t { s.tile t with tags := tset (s.tile t).tags n ((s.tile t).tag n).completed }) := by
  have hset : ∀ x : Tile, x.tags = (s.tile t).tags → (s.setTile t x).completeTag t n
      = s.setTile t { x with tags := tset x.tags n ((s.tile t).tag n).completed } := fun x hx => by
    have htag : ((s.setTile t x).tile t).tag n = (s.tile t).tag n := by rw [State.setTile_tile_self, Tile.tag, hx, Tile.tag]
    rw [State.completeTag_plain (s := s.setTile t x) (htag ▸ hcheck) (htag ▸ hcomp), htag, State.setTile_tile_self,
      State.setTile_setTile]
  have htouched : (((s.modTile t Tile.noting).completeTag t n).tile t).touched = some [] := by
    rw [State.modTile_eq, hset (s.tile t).noting rfl, State.setTile_tile_self]
    rfl
  rw [moverComplete_completes hact hdone, State.atPort_free _ hb htouched, hset _ rfl]

/-- Settles O30: what a tag asks for when its turn has come, what an acknowledgement takes off it, and what it leaves when it
completes. -/
theorem moverRequestsAndCompletion : Obligations.MoverRequestsAndCompletion := by
  intro s t n hact hb
  refine ⟨moverRequest_waits hb, fun hhalt hissued hturn hmark hfew => ?_, fun p r q ha hk hdst htag hport hunit hok hmay hq hw => ?_,
    fun g d hg hd hdone hcheck => ?_⟩
  · have hasks := moverRequest_asks hact hb hhalt hissued hturn hmark hfew
    refine ⟨hasks, fun d hd hcheck hix hsrc hfull => ?_⟩
    obtain ⟨p, hp⟩ := moverRequest_reads hb hd hcheck hix hsrc hfull
    obtain ⟨hseq, hiss, hmem, -, hflying⟩ := (s.tile t).asks_fields n d
    obtain ⟨hordinary, hshadow⟩ := (s.tile t).asks_turn n d
    refine ⟨_, (s.tile t).nextRead n d, hasks.trans (congrArg _ hp), ?_⟩
    rw [State.inject_tile, State.setTile_tile_self]
    exact ⟨hordinary, hshadow, hseq, hiss, hflying, rfl, rfl, rfl, rfl, hmem, fun u hu => State.setTile_tile_ne s _ hu, rfl⟩
  · exact moverResponse_write hact hb ha (by simp [isAnswer, hk, hport, hunit, hdst, htag]) hmay hok hq hw
  · subst hg hd
    exact ⟨moverComplete_completes hact hdone, moverComplete_plain hact hb hdone hcheck, State.completeTag_word hcheck⟩

end Sys2Proof.Machine
end

section
/-!
SUPPORT. Flits that pass a router's output, and the shares of the edge channel (`Obligations.FlitsAndEdgePackets`).
-/

namespace Sys2Proof.Machine

/-! What the commands of the mesh call -/

theorem exec_routerFlitPass (s : State) (rx ry out flips : Nat) :
    exec (.routerFlitPass rx ry out flips) s = execRouterFlitPass rx ry out flips s := rfl
theorem exec_edgeChannelPass (s : State) (stripe : Nat) (east : Bool) :
    exec (.edgeChannelPass stripe east) s = execEdgeChannelPass stripe east s := rfl

/-! Flits (R185, R188, R189) -/

/-- The flit that an output's arbitration picks passes, unharmed, where nothing is dropped. -/
theorem routerFlitPass_passes {s : State} {rx ry out inp : Nat} {f : Flit} (hdrop : s.dropForeign rx ry = s)
    (harb : s.arbitrate rx ry out = some (inp, f)) (hcand : s.candidate rx ry out f.pkt.vc inp f.pkt.yFirst = some f) :
    exec (.routerFlitPass rx ry out 0) s = .next (s.passFlit rx ry out inp f) := by
  simp only [exec_routerFlitPass, execRouterFlitPass, hdrop, harb, State.flitError, hcand]

/-- The router that a flit leaves by output `out`: gone from its input, the output's channel held until the last flit. -/
def Router.sends (r : Router) (half : Packet → Nat) (out inp : Nat) (f : Flit) : Router :=
  ({ r with
      inq := tset r.inq (bufKey inp (half f.pkt) f.pkt.vc f.pkt.yFirst)
        ((tget [] r.inq (bufKey inp (half f.pkt) f.pkt.vc f.pkt.yFirst)).drop 1)
      holder := tset r.holder (outKey out (half f.pkt) f.pkt.vc)
        (if f.idx + 1 = f.pkt.flits then 0 else 2 * inp + b01 f.pkt.yFirst + 1)
      rr := if f.idx + 1 = f.pkt.flits then tset r.rr (outKey out (half f.pkt) f.pkt.vc) ((inp + 1) % 7)
        else r.rr }).refill half inp

/-- The router that receives a flit in buffer `k`: the flit stands at its tail. -/
def Router.receives (r : Router) (k : Nat) (f : Flit) : Router := { r with inq := tset r.inq k (tget [] r.inq k ++ [f]) }

/-- The state once a flit has left its input, and the mesh has counted it. -/
def State.leaveInput (s : State) (rx ry out inp : Nat) (f : Flit) : State :=
  ({ s with meshTraffic := s.meshTraffic + 1 } : State).modRouter (routerKey rx ry) fun r => r.sends (s.half rx) out inp f

/-- A flit that goes on to a neighbour stands at the tail of its buffer there. -/
theorem State.passFlit_inner (s : State) (rx ry inp : Nat) {out : Nat} (f : Flit) (h : out < 4) :
    s.passFlit rx ry out inp f = (s.leaveInput rx ry out inp f).modRouter
      (routerKey (neighbourRouter rx ry out).1 (neighbourRouter rx ry out).2.1) fun r =>
        r.receives (bufKey (neighbourRouter rx ry out).2.2 (s.half (neighbourRouter rx ry out).1 f.pkt) f.pkt.vc f.pkt.yFirst) f :=
  if_pos h

/-- A flit at its exit port leaves the mesh, its packet with the last one. -/
theorem State.passFlit_exit (s : State) (rx ry inp : Nat) {out : Nat} (f : Flit) (h : 4 ≤ out) :
    s.passFlit rx ry out inp f = if f.idx + 1 = f.pkt.flits then (s.leaveInput rx ry out inp f).exitMesh f.pkt rx
      else s.leaveInput rx ry out inp f :=
  if_neg (Nat.not_lt.mpr h)

/-- A packet of no unit is delivered. -/
theorem State.exitMesh_deliver (s : State) {p : Packet} (h : p.unit = .none) (rx : Nat) : s.exitMesh p rx = s.deliver p :=
  if_pos (by simp [h])

theorem routerKey_ne_east (rx ry : Nat) : routerKey (rx + 1) ry ≠ routerKey rx ry := by
  unfold routerKey
  omega

theorem State.leaveInput_router_east (s : State) (rx ry out inp : Nat) (f : Flit) :
    (s.leaveInput rx ry out inp f).router (routerKey (rx + 1) ry) = s.router (routerKey (rx + 1) ry) :=
  State.modRouter_router_ne _ _ (routerKey_ne_east rx ry)

/-! The edge channel (R196) -/

theorem edgeKey_inbound_ne (sg : Nat) (east : Bool) : edgeKey sg east true ≠ edgeKey sg east false := by
  simp [edgeKey, b01]

section
variable {s : State} {stripe : Nat} {east inbound : Bool}

theorem State.edgePass_nil (h : tget [] s.edge (edgeKey stripe east inbound) = []) : s.edgePass stripe east inbound = s := by
  simp only [State.edgePass, h]

variable {p : Packet} {r : List Packet}

theorem State.edgePass_out (h : tget [] s.edge (edgeKey stripe east false) = p :: r) : s.edgePass stripe east false
    = ({ s with edge := tset s.edge (edgeKey stripe east false) r } : State).sinkUnit p := by
  simp only [State.edgePass, h, Bool.false_eq_true, if_false]

theorem State.edgePass_in (h : tget [] s.edge (edgeKey stripe east true) = p :: r) : s.edgePass stripe east true
    = ({ s with edge := tset s.edge (edgeKey stripe east true) r } : State).inject 5 p := by
  simp only [State.edgePass, h, if_true]

end

/-- A verdict at the stream engine is delivered. -/
theorem State.sinkUnit_verdict (s : State) {p : Packet} (hk : p.kind = .verdict) (hu : p.unit = .stream) :
    s.sinkUnit p = s.deliver p := by
  simp only [State.sinkUnit, hu, hk, if_true]

/-- Settles O31: a flit passes where `passFlit` puts it, out of the mesh or at the tail of a neighbour's buffer, and each share of
an edge channel is served. -/
theorem flitsAndEdgePackets : Obligations.FlitsAndEdgePackets := by
  refine ⟨fun s rx ry out inp f hdrop harb hcand => ⟨fun hout hmore => ?_, fun hout hlast hunit => ?_, fun hout _ => ?_⟩,
    fun s stripe east p r => ⟨fun hout hin hk hu => ?_, fun hout hin => ?_⟩⟩
  · refine ⟨_, routerFlitPass_passes hdrop harb hcand, ?_⟩
    rw [State.passFlit_exit s rx ry inp f hout, if_neg hmore]
    exact ⟨rfl, rfl, rfl, rfl⟩
  · refine ⟨_, routerFlitPass_passes hdrop harb hcand, ?_⟩
    rw [State.passFlit_exit s rx ry inp f hout, if_pos hlast, State.exitMesh_deliver _ hunit]
    exact ⟨rfl, rfl, rfl, rfl⟩
  · subst hout
    refine ⟨_, routerFlitPass_passes hdrop harb hcand, ?_⟩
    rw [State.passFlit_inner s rx ry inp f (by decide)]
    refine ⟨rfl, ?_⟩
    simp only [neighbourRouter, State.modRouter_router_self, State.leaveInput_router_east, Router.receives, tget_tset_self]
  · have hempty : tget [] (tset s.edge (edgeKey stripe east false) r) (edgeKey stripe east true) = [] := by
      rw [tget_tset_ne _ _ _ (edgeKey_inbound_ne stripe east), hin]
    rw [exec_edgeChannelPass, execEdgeChannelPass, State.edgePass_out hout, State.sinkUnit_verdict _ hk hu]
    exact congrArg _ (State.edgePass_nil hempty)
  · rw [exec_edgeChannelPass, execEdgeChannelPass, State.edgePass_nil hout, State.edgePass_in hin]

end Sys2Proof.Machine
end

section
/-!
SUPPORT. A mailbox command that acts: its checks, its completion, and what a completion leaves alone.
-/

namespace Sys2Proof.Machine

/-! The command taken up (R394) -/

/-- The state in which the command of page `n` acts. -/
def State.taken (s : State) (n : Nat) : State := s.modMb n fun m => { m with running := none }

@[simp] theorem State.taken_mb_self (s : State) (n : Nat) : (s.taken n).mb n = { s.mb n with running := none } :=
  State.modMb_mb_self _ _ _
@[simp] theorem State.taken_param (s : State) (n o k : Nat) : (s.taken n).param n o k = s.param n o k := by simp [State.param]
@[simp] theorem State.taken_bufLen (s : State) (n : Nat) : (s.taken n).bufLen n = s.bufLen n := by
  rw [State.bufLen, State.taken_mb_self]
  rfl
@[simp] theorem State.taken_stage (s : State) (n k p : Nat) : (s.taken n).stage k p = s.stage k p := rfl
@[simp] theorem State.taken_part (s : State) (n p : Nat) : (s.taken n).part p = s.part p := rfl
@[simp] theorem State.taken_parts (s : State) (n : Nat) : (s.taken n).parts = s.parts := rfl
@[simp] theorem State.taken_tiles (s : State) (n : Nat) : (s.taken n).tiles = s.tiles := rfl
@[simp] theorem State.taken_flash (s : State) (n : Nat) : (s.taken n).flash = s.flash := rfl
@[simp] theorem State.taken_resets (s : State) (n : Nat) : (s.taken n).resets = s.resets := rfl

section
variable {s : State} {n opcode : Nat} {checks : List (Option No)} {act : State → State} (h : (s.mb n).running = some opcode)
include h

theorem State.command_acts (hc : checks.findSome? id = none) : s.command n opcode checks act = .next (act (s.taken n)) := by
  simp only [State.command, h, hc, if_true]
  rfl

theorem State.command_refuses {r : No} (hc : checks.findSome? id = some r) :
    s.command n opcode checks act = .next ((s.taken n).refuse n r) := by
  simp only [State.command, h, hc, if_true]
  rfl

theorem State.commandElse_acts {fail : No → State → State} (hc : checks.findSome? id = none) :
    s.commandElse n opcode checks fail act = .next (act (s.taken n)) := by
  simp only [State.commandElse, h, hc, if_true]
  rfl

theorem State.commandElse_refuses {fail : No → State → State} {r : No} (hc : checks.findSome? id = some r) :
    s.commandElse n opcode checks fail act = .next ((fail r (s.taken n)).refuse n r) := by
  simp only [State.commandElse, h, hc, if_true]
  rfl

end

/-! Checks that pass (R389, R393, R395) -/

@[simp] theorem permit_true : permit true = none := rfl
@[simp] theorem noIf_false (st : Nat) : noIf false st = none := rfl

theorem Mbx.sglTotal_one (m : Mbx) : m.sglTotal 1 = m.sglLen 0 := by simp [Mbx.sglTotal, List.range_succ]

/-- A block of the right length, with no data buffer or with one of an allowed size, keeps the rules of lengths. -/
theorem State.badLength_none {s : State} {n len : Nat} {buffer : Bool} (hlen : (s.mb n).length = len) (hfit : len ≤ 4000)
    (hsgl : (s.mb n).sglCount = 0 ∨ (buffer = true ∧ (s.mb n).sglCount = 1 ∧ (s.mb n).sglLen 0 ≤ maxBuffer)) :
    s.badLength n len buffer = none := by
  have hstart : (s.mb n).sglStart + 16 ≤ 4032 := by
    rw [Mbx.sglStart, hlen]
    omega
  obtain h0 | ⟨rfl, h1, hsize⟩ := hsgl
  · simp only [State.badLength, hlen, h0, ne_eq, not_true_eq_false, if_false]
    rw [if_neg (by omega)]
    simp
  · simp only [State.badLength, hlen, h1, ne_eq, not_true_eq_false, if_false]
    rw [if_neg (by omega)]
    simp [List.range_succ, Mbx.sglTotal_one, hsize]

/-- With no data buffer no scatter list entry offends. -/
theorem Mbx.sglFaults_nil {m : Mbx} (h : m.sglCount = 0) : m.sglFaults = [] := by simp [Mbx.sglFaults, h]

/-- No field, reserved byte or scatter list entry offends. -/
theorem State.badField_none {s : State} {n : Nat} {fields : List (Nat × Bool)} {reserved : List Nat}
    (hf : ∀ f ∈ fields, f.2 = false) (hr : ∀ o ∈ reserved, memGet (s.mb n).payload o = 0)
    (hs : ∀ f ∈ (s.mb n).sglFaults, f.2 = false) : s.badField n fields reserved = none := by
  have hall : (fields ++ reserved.map (fun o => (o, decide (memGet (s.mb n).payload o ≠ 0))) ++ (s.mb n).sglFaults).filter
      (fun f => f.2) = [] := by
    refine List.filter_eq_nil_iff.mpr fun f hmem => ?_
    obtain (hmem | hmem) | hmem := (List.mem_append.mp hmem).imp_left List.mem_append.mp
    · simp [hf f hmem]
    · obtain ⟨o, ho, rfl⟩ := List.mem_map.mp hmem
      simp [hr o ho]
    · simp [hs f hmem]
  simp only [State.badField, hall, List.map_nil]

section
variable {s : State} {n opcode len : Nat} (h : s.asks n opcode len)
include h

theorem State.asks.badLength (hfit : len ≤ 4000) (buffer : Bool) : s.badLength n len buffer = none := by
  obtain ⟨-, -, hlen, hsgl⟩ := h
  exact State.badLength_none hlen hfit (.inl hsgl)

theorem State.asks.badField {fields : List (Nat × Bool)} (hf : ∀ f ∈ fields, f.2 = false) : s.badField n fields [] = none := by
  obtain ⟨-, -, -, hsgl⟩ := h
  exact State.badField_none hf (fun _ ho => absurd ho List.not_mem_nil) (by rw [Mbx.sglFaults_nil hsgl]; simp)

/-- The field PARTITION of a command that names one. -/
theorem State.asks.partitionField (hp : s.param n 0 1 ≤ 7) : s.badField n [s.badPart n] [] = none :=
  h.badField (by simpa [State.badPart] using hp)

end

theorem State.partBusy_free {s : State} {n p : Nat} (h : s.partHeld n p = false) : s.partBusy n p = none := by
  rw [State.partBusy, h, noIf_false]

/-! Completion (R391) -/

/-- Page `n` as its command leaves it when it completes. -/
def Mbx.completed (m : Mbx) (st : Nat) (resp : List Byte) (buf d o : Nat) : Mbx :=
  { m with payload := memPut m.payload 0 resp, respLen := resp.length + buf, detail := d, offset := o
           doneSeq := m.seq, done := true, status := st, running := none, drainAt := none }

/-- The state with the command of page `n` completed, before its event and its interrupt. -/
def State.complete (s : State) (n st : Nat) (resp : List Byte) (buf d o : Nat) : State :=
  { s.modMb n fun m => m.completed st resp buf d o with cmdsDone := s.cmdsDone + 1 }

theorem State.complete_mb_self (s : State) (n st : Nat) (resp : List Byte) (buf d o : Nat) :
    (s.complete n st resp buf d o).mb n = (s.mb n).completed st resp buf d o :=
  State.modMb_mb_self s n fun m => m.completed st resp buf d o

theorem EventOnly.mb {s t : State} (h : EventOnly s t) (n : Nat) : t.mb n = s.mb n := by rw [h]; rfl

/-- A completion is that of its page, and what events touch. -/
theorem State.finish_eventOnly {s : State} {n : Nat} (h : (s.mb n).done = false) (st : Nat) (resp buf : List Byte) (d o : Nat) :
    EventOnly (s.complete n st resp buf.length d o) (s.finish n st resp buf d o) := by
  unfold State.finish
  simp only [h, Bool.false_eq_true, if_false]
  refine EventOnly.trans ?_ (EventOnly.ite (EventOnly.refl _) (State.msix_eventOnly _ _))
  refine EventOnly.trans ?_ (EventOnly.ite (EventOnly.refl _) (State.raiseRec_eventOnly _ _ _))
  cases buf with
  | nil => rfl
  | cons b l => rfl

theorem completeSev_ne_four (st : Nat) : completeSev st ≠ 4 := by
  unfold completeSev
  split
  · decide
  · split <;> decide

@[simp] theorem State.finish_flash (s : State) (n st : Nat) (resp buf : List Byte) (d o : Nat) :
    (s.finish n st resp buf d o).flash = s.flash := by
  unfold State.finish
  dsimp only
  split
  · rfl
  · rw [apply_ite State.flash, State.msix_flash, ite_self]
    split
    · split <;> rfl
    · refine (State.raiseRec_flash _ (completeSev_ne_four st)).trans ?_
      split <;> rfl

/-- What a completion leaves alone of what mailbox commands work on. -/
structure State.OnlyPages (s t : State) : Prop where
  parts : t.parts = s.parts
  tiles : t.tiles = s.tiles
  stages : t.stages = s.stages
  resets : t.resets = s.resets
  power : t.power = s.power

theorem State.finish_onlyPages (s : State) (n st : Nat) (resp buf : List Byte) (d o : Nat) :
    s.OnlyPages (s.finish n st resp buf d o) := by
  cases h : (s.mb n).done with
  | true =>
    have hsame : s.finish n st resp buf d o = s := by
      unfold State.finish
      exact if_pos h
    rw [hsame]
    exact ⟨rfl, rfl, rfl, rfl, rfl⟩
  | false =>
    rw [State.finish_eventOnly h]
    exact ⟨rfl, rfl, rfl, rfl, rfl⟩

@[simp] theorem State.finish_parts (s : State) (n st : Nat) (resp buf : List Byte) (d o : Nat) :
    (s.finish n st resp buf d o).parts = s.parts := (s.finish_onlyPages n st resp buf d o).parts
@[simp] theorem State.finish_tiles (s : State) (n st : Nat) (resp buf : List Byte) (d o : Nat) :
    (s.finish n st resp buf d o).tiles = s.tiles := (s.finish_onlyPages n st resp buf d o).tiles
@[simp] theorem State.finish_stages (s : State) (n st : Nat) (resp buf : List Byte) (d o : Nat) :
    (s.finish n st resp buf d o).stages = s.stages := (s.finish_onlyPages n st resp buf d o).stages
@[simp] theorem State.finish_resets (s : State) (n st : Nat) (resp buf : List Byte) (d o : Nat) :
    (s.finish n st resp buf d o).resets = s.resets := (s.finish_onlyPages n st resp buf d o).resets
@[simp] theorem State.finish_part (s : State) (n st : Nat) (resp buf : List Byte) (d o p : Nat) :
    (s.finish n st resp buf d o).part p = s.part p := by rw [State.part, State.finish_parts, State.part]
@[simp] theorem State.finish_stage (s : State) (n st : Nat) (resp buf : List Byte) (d o k p : Nat) :
    (s.finish n st resp buf d o).stage k p = s.stage k p := by rw [State.stage, State.finish_stages, State.stage]

/-- Page `n` and the count of completions are as they were when the command of the page was taken up. -/
structure State.SamePage (s t : State) (n : Nat) : Prop where
  done : (t.mb n).done = (s.mb n).done
  seq : (t.mb n).seq = (s.mb n).seq
  payload : (t.mb n).payload = (s.mb n).payload
  count : t.cmdsDone = s.cmdsDone

theorem State.SamePage.trans {s t u : State} {n : Nat} (h : s.SamePage t n) (k : t.SamePage u n) : s.SamePage u n :=
  ⟨k.done.trans h.done, k.seq.trans h.seq, k.payload.trans h.payload, k.count.trans h.count⟩

theorem State.SamePage.of_eq {s t : State} (hm : t.mbx = s.mbx) (hc : t.cmdsDone = s.cmdsDone) {n : Nat} : s.SamePage t n := by
  have hmb : t.mb n = s.mb n := by rw [State.mb, hm, State.mb]
  exact ⟨by rw [hmb], by rw [hmb], by rw [hmb], hc⟩

theorem State.taken_samePage (s : State) (n : Nat) : s.SamePage (s.taken n) n := by
  refine ⟨?_, ?_, ?_, rfl⟩ <;> rw [State.taken_mb_self]

theorem EventOnly.samePage {s t : State} (h : EventOnly s t) (n : Nat) : s.SamePage t n :=
  .of_eq (by rw [h]) (by rw [h])

section
variable {s t : State} {n : Nat} (hp : s.SamePage t n) (hd : (s.mb n).done = false)
include hp hd

/-- A command that has not acted completes with its status and its response. -/
theorem State.SamePage.answered (st : Nat) (resp buf : List Byte) (d o : Nat) :
    s.answered (t.finish n st resp buf d o) n st resp := by
  have hfin := State.finish_eventOnly (hp.done.trans hd) st resp buf d o
  have hmb : (t.finish n st resp buf d o).mb n = (t.mb n).completed st resp buf.length d o := by
    rw [hfin.mb, State.complete_mb_self]
  have hcount : (t.finish n st resp buf d o).cmdsDone = t.cmdsDone + 1 := by rw [hfin]; rfl
  rw [State.answered, hmb, hcount, hp.count]
  exact ⟨rfl, rfl, rfl, hp.seq, congrArg (memPut · 0 resp) hp.payload, rfl⟩

theorem State.SamePage.detail (st : Nat) (resp buf : List Byte) (d o : Nat) :
    ((t.finish n st resp buf d o).mb n).detail = d := by
  rw [(State.finish_eventOnly (hp.done.trans hd) st resp buf d o).mb, State.complete_mb_self]
  rfl

theorem State.SamePage.ok (resp : List Byte) : s.answered (t.okWith n resp) n 0 resp := hp.answered hd stOk resp [] 0 0xFFFF

end

/-! Refusal (R503) -/

/-- A refused command completes; what it raises besides leaves alone what commands work on. -/
theorem State.refuse_eq (s : State) (n : Nat) (r : No) : ∃ t, EventOnly s t ∧ t.flash = s.flash ∧
    s.refuse n r = t.finish n r.status [] [] r.detail r.offset := by
  unfold State.refuse
  by_cases h : r.status = stSignature
  · refine ⟨s.raiseDev 0x0804 2 mgmtUnit ((s.mb n).opcode * 2 ^ 48 + r.detail), State.raiseDev_eventOnly _ _ _ _ _,
      State.raiseDev_flash _ _ _ _ (by decide), ?_⟩
    simp only [h, if_true]
  · exact ⟨s, EventOnly.refl s, rfl, by simp only [h, if_false]⟩

@[simp] theorem State.refuse_parts (s : State) (n : Nat) (r : No) : (s.refuse n r).parts = s.parts := by
  obtain ⟨t, ht, -, h⟩ := s.refuse_eq n r
  rw [h, State.finish_parts, ht.parts]
@[simp] theorem State.refuse_part (s : State) (n : Nat) (r : No) (p : Nat) : (s.refuse n r).part p = s.part p := by
  rw [State.part, State.refuse_parts, State.part]
@[simp] theorem State.refuse_resets (s : State) (n : Nat) (r : No) : (s.refuse n r).resets = s.resets := by
  obtain ⟨t, ht, -, h⟩ := s.refuse_eq n r
  rw [h, State.finish_resets, ht]
@[simp] theorem State.refuse_flash (s : State) (n : Nat) (r : No) : (s.refuse n r).flash = s.flash := by
  obtain ⟨t, -, hf, h⟩ := s.refuse_eq n r
  rw [h, State.finish_flash, hf]

theorem State.SamePage.refused {s t : State} {n : Nat} (hp : s.SamePage t n) (hd : (s.mb n).done = false) (r : No) :
    s.answered (t.refuse n r) n r.status [] ∧ ((t.refuse n r).mb n).detail = r.detail := by
  obtain ⟨u, hu, -, h⟩ := t.refuse_eq n r
  have hpu := hp.trans (hu.samePage n)
  rw [h]
  exact ⟨hpu.answered hd _ _ _ _ _, hpu.detail hd _ _ _ _ _⟩

end Sys2Proof.Machine
end

section
/-!
SUPPORT. The mailbox commands on partitions, and the end of a partition's reset (`Claims.MailboxPartitions`).
-/

namespace Sys2Proof.Machine

/-! What the commands call -/

theorem exec_partitionCreate (s : State) (n : Nat) : exec (.partitionCreate n) s = execPartitionCreate n s := rfl
theorem exec_partitionSet (s : State) (n : Nat) : exec (.partitionSet n) s = execPartitionSet n s := rfl
theorem exec_partitionDestroy (s : State) (n : Nat) : exec (.partitionDestroy n) s = execPartitionDestroy n s := rfl
theorem exec_unitResetDone (s : State) (scope ix : Nat) : exec (.unitResetDone scope ix) s = execUnitResetDone scope ix s := rfl
theorem exec_imageStage (s : State) (n : Nat) (i : Image) : exec (.imageStage n i) s = execImageStage n i s := rfl
theorem exec_imageVerify (s : State) (n : Nat) : exec (.imageVerify n) s = execImageVerify n s := rfl
theorem exec_programLoad (s : State) (n : Nat) : exec (.programLoad n) s = execProgramLoad n s := rfl
theorem exec_weightLoad (s : State) (n : Nat) : exec (.weightLoad n) s = execWeightLoad n s := rfl
theorem exec_packInstall (s : State) (n : Nat) : exec (.packInstall n) s = execPackInstall n s := rfl
theorem exec_stageDiscard (s : State) (n : Nat) : exec (.stageDiscard n) s = execStageDiscard n s := rfl

/-! Commands that wait for the mesh to drain (R210) -/

section
variable {s : State} {n opcode first count : Nat} {checks last : List (Option No)} {act : State → State}

theorem State.drains_quiet (h : s.trafficIn first count = false) : s.drains n first count = false := by
  rw [State.drains, h, Bool.false_and]

/-- Once the wait is over, the command goes through its checks, the traffic among them. -/
theorem State.drainCommand_over (h : s.drains n first count = false) : s.drainCommand n opcode first count checks last act
    = s.command n opcode (checks ++ [noIf (s.trafficIn first count) stBusy] ++ last) act :=
  if_neg fun ⟨_, _, hd⟩ => Bool.false_ne_true (h.symm.trans hd)

/-- A command whose checks hold begins its wait for the traffic in the mesh. -/
theorem State.drainCommand_waits (hrun : (s.mb n).running = some opcode) (hc : (checks ++ last).findSome? id = none)
    (ht : s.trafficIn first count = true) (hd : (s.mb n).drainAt = none) :
    s.drainCommand n opcode first count checks last act = .next (s.modMb n fun m => { m with drainAt := some s.now }) := by
  have hdrains : s.drains n first count = true := by simp [State.drains, ht, hd]
  have hmod : (s.modMb n fun m => { m with drainAt := some (m.drainAt.getD s.now) })
      = s.modMb n fun m => { m with drainAt := some s.now } := by
    simp only [State.modMb, hd, Option.getD_none]
  rw [State.drainCommand, if_pos ⟨hrun, hc, hdrains⟩, hmod]

/-- Not drained in 1 ms, the command gives up. -/
theorem State.drains_late {a : Nat} (hd : (s.mb n).drainAt = some a) (hlate : a + 1000000 < s.now) :
    s.drains n first count = false := by
  have hover : decide (s.now - a ≤ 1000000) = false := by simpa using (by omega)
  simp only [State.drains, hd, hover, Bool.and_false]

end

/-! PARTITION_CREATE (R398) -/

theorem State.taken_newPart (s : State) (n : Nat) : (s.taken n).newPart n = s.newPart n := by
  simp only [State.newPart, State.taken_param]

/-- The state with a new partition, and its ring line asked for or not. -/
theorem State.wantLine_frame (s : State) (b : Bool) (k : Nat) : ∃ l, (if b then s.wantLine k else s) = { s with link := l } := by
  split <;> exact ⟨_, rfl⟩

/-- The checks of PARTITION_CREATE that come before the traffic. -/
def State.createChecks (s : State) : List (Option No) :=
  [s.badLength 0 40 false, s.badField 0 (s.badCreate 0) (span 29 32), deviceScope 0, noIf (s.createLicence 0) stLicence
  , noIf (s.resets.any fun r => r.scope = 2 && r.index = s.param 0 0 1) stBusy]

section
variable {s : State} (hasks : s.asks 0 0x0101 40) (hfield : s.badField 0 (s.badCreate 0) (span 29 32) = none)
  (hlic : s.createLicence 0 = false) (hres : s.resets = [])
include hasks hfield hlic hres

theorem State.createChecks_pass : s.createChecks = [none, none, none, none, none] := by
  rw [State.createChecks, hasks.badLength (by decide), hfield, hlic, hres]
  rfl

variable (hw : s.withdrawnOf (s.param 0 1 1) (s.param 0 2 1) = none)
include hw

/-- PARTITION_CREATE makes its partition, EMPTY. -/
theorem partitionCreate_creates (ht : s.trafficIn (s.param 0 1 1) (s.param 0 2 1) = false) : ∃ u : State,
    exec (.partitionCreate 0) s = .next (u.okWith 0 []) ∧ s.SamePage u 0 ∧ u.tiles = s.tiles ∧
      u.part (s.param 0 0 1) = s.newPart 0 ∧ ∀ k, k ≠ s.param 0 0 1 → u.part k = s.part k := by
  have hchecks := State.createChecks_pass hasks hfield hlic hres
  obtain ⟨hrun, -⟩ := hasks
  generalize hv : s.taken 0 = v
  have hpage : s.SamePage v 0 := hv ▸ s.taken_samePage 0
  have hparts : v.parts = s.parts := by rw [← hv, State.taken_parts]
  have htiles : v.tiles = s.tiles := by rw [← hv, State.taken_tiles]
  obtain ⟨l, hl⟩ := State.wantLine_frame { v with parts := tset s.parts (s.param 0 0 1) (s.newPart 0) }
    (({ v with parts := tset s.parts (s.param 0 0 1) (s.newPart 0) } : State).cacheAt (s.param 0 0 1)) (cringKey (s.param 0 0 1))
  refine ⟨{ v with parts := tset s.parts (s.param 0 0 1) (s.newPart 0), link := l }, ?_,
    ⟨hpage.done, hpage.seq, hpage.payload, hpage.count⟩, htiles, tget_tset_self _ _ _ _, fun k hk => tget_tset_ne _ _ _ hk⟩
  rw [exec_partitionCreate, execPartitionCreate]
  rw [State.drainCommand_over (State.drains_quiet ht), State.command_acts hrun]
  · rw [← hl, State.taken_newPart, hv, hparts]
  · rw [← State.createChecks, hchecks, ht, hw]
    rfl

theorem partitionCreate_waits (ht : s.trafficIn (s.param 0 1 1) (s.param 0 2 1) = true) (hd : (s.mb 0).drainAt = none) :
    exec (.partitionCreate 0) s = .next (s.modMb 0 fun m => { m with drainAt := some s.now }) := by
  have hchecks := State.createChecks_pass hasks hfield hlic hres
  obtain ⟨hrun, -⟩ := hasks
  rw [exec_partitionCreate, execPartitionCreate]
  refine State.drainCommand_waits hrun ?_ ht hd
  rw [← State.createChecks, hchecks, hw]
  rfl

omit hw in
theorem partitionCreate_busy (ht : s.trafficIn (s.param 0 1 1) (s.param 0 2 1) = true) {a : Nat}
    (hd : (s.mb 0).drainAt = some a) (hlate : a + 1000000 < s.now) :
    exec (.partitionCreate 0) s = .next ((s.taken 0).refuse 0 { status := stBusy }) := by
  have hchecks := State.createChecks_pass hasks hfield hlic hres
  obtain ⟨hrun, -⟩ := hasks
  rw [exec_partitionCreate, execPartitionCreate]
  rw [State.drainCommand_over (State.drains_late hd hlate), State.command_refuses hrun]
  rw [← State.createChecks, hchecks, ht]
  rfl

end

/-! PARTITION_SET (R397) -/

theorem State.modPart_samePage (s : State) (p : Nat) (f : Partition → Partition) (n : Nat) : s.SamePage (s.modPart p f) n :=
  ⟨rfl, rfl, rfl, rfl⟩

/-- PARTITION_SET of the weight alone. -/
theorem partitionSet_sets {s : State} {n : Nat} (hasks : s.asks n 0x0103 40) (hwhat : s.param n 1 1 = 1)
    (hfield : s.badField n [s.badPart n, (1, false)] ([2] ++ span 4 28 ++ span 29 32) = none)
    (hscope : s.partScope n (s.param n 0 1) = none) (hidle : (s.part (s.param n 0 1)).idle = true)
    (hheld : s.partHeld n (s.param n 0 1) = false) : exec (.partitionSet n) s
      = .next (((s.taken n).modPart (s.param n 0 1) fun q => { q with cxlWeight := weightOf (s.param n 3 1) }).okWith n []) := by
  have hlen := hasks.badLength (by decide) false
  obtain ⟨hrun, -⟩ := hasks
  rw [exec_partitionSet, execPartitionSet]
  dsimp only
  rw [hwhat, State.command_acts hrun]
  · rw [State.taken_param]
    rfl
  · have hfields : [s.badPart n, (1, decide (1 > 3))] ++ (if bit 1 1 then s.badRing n else []) = [s.badPart n, (1, false)] := rfl
    rw [hfields, hlen, hfield, hscope, hidle, State.partBusy_free hheld]
    rfl

/-! A partition's reset begins (R426) -/

/-- Every step of a fold keeps what the step at `a` brings about. -/
theorem each_mem {α : Type} {f : α → State → State} {P : State → Prop} {a : α} (hstep : ∀ s, P (f a s))
    (hkeep : ∀ b s, P s → P (f b s)) : ∀ (l : List α) (s : State), a ∈ l → P (each l f s)
  | [], _, h => absurd h List.not_mem_nil
  | b :: l, s, h => by
    have hcons : each (b :: l) f s = each l f (f b s) := rfl
    rw [hcons]
    obtain hb | h := List.mem_cons.mp h
    · exact each_induction (P := P) hkeep l (f b s) (hb ▸ hstep s)
    · exact each_mem hstep hkeep l (f b s) h

/-- Mailbox pages, stagings and resets stay, and every partition its stripes. -/
structure State.KeepsCommands (s t : State) : Prop where
  mbx : t.mbx = s.mbx
  count : t.cmdsDone = s.cmdsDone
  stages : t.stages = s.stages
  resets : t.resets = s.resets
  stripes : ∀ p, (t.part p).firstStripe = (s.part p).firstStripe ∧ (t.part p).stripeCount = (s.part p).stripeCount

theorem State.KeepsCommands.refl (s : State) : s.KeepsCommands s := ⟨rfl, rfl, rfl, rfl, fun _ => ⟨rfl, rfl⟩⟩

theorem State.KeepsCommands.trans {s t u : State} (h : s.KeepsCommands t) (k : t.KeepsCommands u) : s.KeepsCommands u :=
  ⟨k.mbx.trans h.mbx, k.count.trans h.count, k.stages.trans h.stages, k.resets.trans h.resets,
    fun p => ⟨(k.stripes p).1.trans (h.stripes p).1, (k.stripes p).2.trans (h.stripes p).2⟩⟩

theorem State.each_keepsCommands {α : Type} {f : α → State → State} (h : ∀ a (t : State), t.KeepsCommands (f a t)) (l : List α) (s : State) :
    s.KeepsCommands (each l f s) :=
  each_induction (P := s.KeepsCommands) (fun a t ht => ht.trans (h a t)) l s (.refl s)

theorem State.modPart_keepsCommands (s : State) (p : Nat) {f : Partition → Partition}
    (hf : ∀ q, (f q).firstStripe = q.firstStripe ∧ (f q).stripeCount = q.stripeCount) : s.KeepsCommands (s.modPart p f) := by
  refine ⟨rfl, rfl, rfl, rfl, fun j => ?_⟩
  by_cases hj : j = p
  · subst hj
    rw [State.modPart_part_self]
    exact hf _
  · rw [State.modPart_part_ne _ _ hj]
    exact ⟨rfl, rfl⟩

theorem State.modTile_keepsCommands (s : State) (t : TileId) (f : Tile → Tile) : s.KeepsCommands (s.modTile t f) :=
  ⟨rfl, rfl, rfl, rfl, fun _ => ⟨rfl, rfl⟩⟩

theorem EventOnly.keepsCommands {s t : State} (h : EventOnly s t) : s.KeepsCommands t := by
  rw [h]
  exact ⟨rfl, rfl, rfl, rfl, fun _ => ⟨rfl, rfl⟩⟩

theorem State.KeepsCommands.tilesOf {s t : State} (h : s.KeepsCommands t) (p : Nat) : t.tilesOf p = s.tilesOf p := by
  obtain ⟨hfirst, hcount⟩ := h.stripes p
  rw [State.tilesOf, State.tilesOf, hfirst, hcount]

theorem State.KeepsCommands.mb {s t : State} (h : s.KeepsCommands t) (n : Nat) : t.mb n = s.mb n := by
  rw [State.mb, h.mbx, State.mb]

theorem State.KeepsCommands.samePage {s t : State} (h : s.KeepsCommands t) (n : Nat) : s.SamePage t n := .of_eq h.mbx h.count

theorem State.wipeWeights_keepsCommands (s : State) (p : Nat) : s.KeepsCommands (s.wipeWeights p) := by
  unfold State.wipeWeights
  refine State.KeepsCommands.trans ?_ (State.each_keepsCommands ?_ _ _)
  · exact ⟨rfl, rfl, rfl, rfl, fun _ => ⟨rfl, rfl⟩⟩
  · exact fun t u => u.modTile_keepsCommands t _

theorem State.clearSealed_keepsCommands (s : State) (l : List Nat) (cause : Nat) : s.KeepsCommands (s.clearSealed l cause) := by
  unfold State.clearSealed
  split
  · exact .refl s
  · refine State.KeepsCommands.trans (State.each_keepsCommands ?_ _ _) (State.raiseDev_eventOnly _ _ _ _ _).keepsCommands
    refine fun p u => (u.wipeWeights_keepsCommands p).trans (State.modPart_keepsCommands _ p ?_)
    exact fun _ => ⟨rfl, rfl⟩

theorem State.signalAbsorb_keepsCommands (s : State) (t : TileId) : s.KeepsCommands (s.signalAbsorb t) := by
  obtain ⟨l, h⟩ := s.signalAbsorb_frame t
  rw [h]
  exact ⟨rfl, rfl, rfl, rfl, fun _ => ⟨rfl, rfl⟩⟩

/-- A tile of the partition in its reset stays in it while the others join it. -/
theorem State.resetStep_inReset {s : State} {t : TileId} (u : TileId) (h : (s.tile t).inReset = true ∨ t = u) :
    (((s.modTile u tileClear).signalAbsorb u).tile t).inReset = true := by
  obtain ⟨l, hl⟩ := (s.modTile u tileClear).signalAbsorb_tile u t
  rw [hl]
  by_cases hu : t = u
  · subst hu
    rw [State.modTile_tile_self]
    rfl
  · rw [State.modTile_tile_ne _ _ hu]
    exact h.resolve_right hu

/-- What the start of a partition's reset leaves and brings about. -/
structure State.InPartReset (s t : State) (p n : Nat) : Prop where
  mbx : t.mbx = s.mbx
  count : t.cmdsDone = s.cmdsDone
  stages : t.stages = s.stages
  resets : t.resets = s.resets ++ [{ scope := 2, index := p, mbx := some n }]
  tiles : ∀ u ∈ s.tilesOf p, (t.tile u).inReset = true

/-- The tiles of partition `p` in their reset. -/
def State.tilesReset (s : State) (p : Nat) : State := each (s.tilesOf p) (fun t st => (st.modTile t tileClear).signalAbsorb t) s

theorem State.tilesReset_keepsCommands (s : State) (p : Nat) : s.KeepsCommands (s.tilesReset p) :=
  State.each_keepsCommands (fun t u => (u.modTile_keepsCommands t tileClear).trans (State.signalAbsorb_keepsCommands _ t)) _ _

theorem State.tilesReset_inReset (s : State) {p : Nat} {t : TileId} (h : t ∈ s.tilesOf p) :
    ((s.tilesReset p).tile t).inReset = true :=
  each_mem (P := fun v => (v.tile t).inReset = true) (fun _ => State.resetStep_inReset t (.inr rfl))
    (fun u _ hv => State.resetStep_inReset u (.inl hv)) _ s h

theorem State.startPartReset_inPartReset (s : State) (p n : Nat) : s.InPartReset (s.startPartReset p n) p n := by
  unfold State.startPartReset
  simp only
  generalize (match (s.part p).image.bind fun b => b.fabric with
    | none => []
    | some f => f.channels.flatMap fun (c : Channel) => [c.id, 65536 + c.id]) = ids
  generalize hv : each (List.range 6) _ _ = v
  have hport : s.KeepsCommands v := by
    rw [← hv]
    refine State.KeepsCommands.trans ?_ (State.each_keepsCommands ?_ _ _)
    · exact ⟨rfl, rfl, rfl, rfl, fun _ => ⟨rfl, rfl⟩⟩
    · exact fun h u => ⟨rfl, rfl, rfl, rfl, fun _ => ⟨rfl, rfl⟩⟩
  rw [← State.tilesReset]
  have htiles := hport.trans (v.tilesReset_keepsCommands p)
  generalize hw : each _ _ (v.tilesReset p) = w
  have hcluster : (v.tilesReset p).KeepsCommands w ∧ w.tiles = (v.tilesReset p).tiles := by
    rw [← hw]
    refine ⟨State.each_keepsCommands ?_ _ _, each_eq ?_ _ _⟩
    · exact fun c u => ⟨rfl, rfl, rfl, rfl, fun _ => ⟨rfl, rfl⟩⟩
    · exact fun c u => rfl
  obtain ⟨hcommands, hsame⟩ := hcluster
  have hall := htiles.trans hcommands
  refine ⟨hall.mbx, hall.count, hall.stages, congrArg (· ++ _) hall.resets, fun u hu => ?_⟩
  have hin := v.tilesReset_inReset (p := p) (t := u) (by rw [hport.tilesOf]; exact hu)
  have htile : w.tile u = (v.tilesReset p).tile u := by rw [State.tile, hsame, State.tile]
  rw [← htile] at hin
  exact hin

/-- A reset begun on a state that keeps the commands of `s`. -/
theorem State.InPartReset.of_keeps {s t u : State} {p n : Nat} (h : s.KeepsCommands t) (k : t.InPartReset u p n) :
    s.InPartReset u p n :=
  ⟨k.mbx.trans h.mbx, k.count.trans h.count, k.stages.trans h.stages, by rw [k.resets, h.resets],
    fun v hv => k.tiles v (by rw [h.tilesOf]; exact hv)⟩

theorem State.KeepsCommands.startPartReset {s t : State} (h : s.KeepsCommands t) (p n : Nat) :
    s.InPartReset (t.startPartReset p n) p n := .of_keeps h (t.startPartReset_inPartReset p n)

/-- The command that began a reset waits for its end. -/
theorem State.InPartReset.waits {s t : State} {p n : Nat} (h : (s.taken n).InPartReset t p n) (hd : (s.mb n).done = false) :
    t.waits n := by
  have hmb : t.mb n = (s.taken n).mb n := by rw [State.mb, h.mbx, State.mb]
  rw [State.waits, hmb, State.taken_mb_self]
  exact ⟨hd, rfl⟩

/-! PARTITION_DESTROY (R396, R426) -/

/-- Without the stagings of partition `p`'s images. -/
def State.dropStages (s : State) (p : Nat) : State :=
  { s with stages := s.stages.filter fun g => !(g.part = p && (g.kind = 1 || g.kind = 2)) }

theorem State.dropStages_mbx (s : State) (p : Nat) : (s.dropStages p).mbx = s.mbx := rfl
theorem State.dropStages_resets (s : State) (p : Nat) : (s.dropStages p).resets = s.resets := rfl
theorem State.dropStages_tilesOf (s : State) (p k : Nat) : (s.dropStages p).tilesOf k = s.tilesOf k := rfl

section
variable {s : State} (hasks : s.asks 0 0x0102 1) (hp : s.param 0 0 1 ≤ 7) (hidle : (s.part (s.param 0 0 1)).idle = true)
  (hunused : s.unused (s.param 0 0 1) = true) (hheld : s.partHeld 0 (s.param 0 0 1) = false)
  (ht : s.trafficIn (s.part (s.param 0 0 1)).firstStripe (s.part (s.param 0 0 1)).stripeCount = false) (hres : s.resets = [])
include hasks hp hidle hunused hheld ht hres

theorem partitionDestroy_resets : exec (.partitionDestroy 0) s = .next ((((s.taken 0).clearSealed
    (if (s.part (s.param 0 0 1)).sealedWeights then [s.param 0 0 1] else []) 0).dropStages (s.param 0 0 1)).startPartReset
      (s.param 0 0 1) 0) := by
  have hlen := hasks.badLength (by decide) false
  have hfield := hasks.partitionField hp
  obtain ⟨hrun, -⟩ := hasks
  rw [exec_partitionDestroy, execPartitionDestroy]
  rw [State.drainCommand_over (State.drains_quiet ht), State.command_acts hrun]
  · rfl
  · rw [hlen, hfield, hidle, hunused, State.partBusy_free hheld, ht, hres]
    rfl

/-- The tiles of the partition are in reset, and the command waits. -/
theorem partitionDestroy_waits : ∃ s', exec (.partitionDestroy 0) s = .next s' ∧ s'.waits 0 ∧
    s'.resets = [{ scope := 2, index := s.param 0 0 1, mbx := some 0 }] ∧
    (∀ t ∈ s.tilesOf (s.param 0 0 1), (s'.tile t).inReset = true) := by
  have hexec := partitionDestroy_resets hasks hp hidle hunused hheld ht hres
  obtain ⟨-, hdone, -⟩ := hasks
  refine ⟨_, hexec, ?_⟩
  generalize (if (s.part (s.param 0 0 1)).sealedWeights then [s.param 0 0 1] else []) = cleared
  have hkeeps := (s.taken 0).clearSealed_keepsCommands cleared 0
  generalize (s.taken 0).clearSealed cleared 0 = v at hkeeps
  have hreset := (v.dropStages (s.param 0 0 1)).startPartReset_inPartReset (s.param 0 0 1) 0
  have hmb : ((v.dropStages (s.param 0 0 1)).startPartReset (s.param 0 0 1) 0).mb 0 = (s.taken 0).mb 0 := by
    rw [State.mb, hreset.mbx, State.dropStages_mbx, hkeeps.mbx, State.mb]
  refine ⟨?_, ?_, fun t hmem => hreset.tiles t ?_⟩
  · rw [State.waits, hmb, State.taken_mb_self]
    exact ⟨hdone, rfl⟩
  · rw [hreset.resets, State.dropStages_resets, hkeeps.resets, State.taken_resets, hres, List.nil_append]
  · rw [State.dropStages_tilesOf, hkeeps.tilesOf]
    exact hmem

end

/-! The end of a partition's reset (R427) -/

/-- What the end of a partition's reset does for the command `op` that began it. -/
def State.resetEnds (s : State) (op p : Nat) : State :=
  if op = 0x0203 then s.finishLoad p else if op = 0x0102 then s.removePart p else s

/-- The state with a reset over, and its tiles out of it. -/
def State.resetOver (s : State) (ts : Tab Tile) : State := { s with resets := [], tiles := ts }

theorem each_modTile_frame (f : Tile → Tile) (l : List TileId) (s : State) :
    ∃ ts, each l (fun t st => st.modTile t f) s = { s with tiles := ts } :=
  each_induction (P := fun v => ∃ ts, v = { s with tiles := ts }) (fun t v hv => by
    obtain ⟨ts, rfl⟩ := hv
    exact ⟨_, rfl⟩) l s ⟨_, rfl⟩

/-- The reset of a partition with no page of its own in a move ends: its tiles leave it, the command that waited completes. -/
theorem unitResetDone_ends {s : State} {p n : Nat} (hres : s.resets = [{ scope := 2, index := p, mbx := some n }])
    (hmoves : (s.part p).moves = []) : ∃ ts, exec (.unitResetDone 2 p) s
      = .next ((((s.resetOver ts).resetEnds (s.mb n).opcode p).raiseDev 0x0106 1
          (unitId 2 ((s.part p).firstStripe + s.sigma0)) (2 * 2 ^ 62 + sat 0 0xFFFFFFFF)).okWith n []) := by
  have hfind : (s.resets.find? fun r => r.scope = 2 && r.index = p) = some { scope := 2, index := p, mbx := some n } := by
    simp [hres]
  have hnone : (s.resets.filter fun u => !(u.scope = 2 && u.index = p)) = [] := by simp [hres]
  rw [exec_unitResetDone, execUnitResetDone, hfind]
  simp only [hmoves, List.isEmpty_nil, Bool.not_true, Bool.and_false, Bool.false_eq_true, if_false, hnone]
  generalize hv : each _ _ _ = v
  obtain ⟨ts, hts⟩ := each_modTile_frame (fun x => { x with inReset := false })
    ((({ s with resets := [] } : State).resetTiles 2 p).filter fun t => (({ s with resets := [] } : State).tile t).inReset)
    { s with resets := [] }
  have hvs : v = s.resetOver ts := hv.symm.trans hts
  subst hvs
  refine ⟨ts, congrArg Host.Outcome.next ?_⟩
  simp only [State.okHeld, State.resetEnds, decide_true, Bool.true_and, decide_eq_true_eq]
  rfl

theorem State.resetEnds_destroy (s : State) (p : Nat) : s.resetEnds 0x0102 p = s.removePart p := rfl

theorem State.resetEnds_load (s : State) (p : Nat) : s.resetEnds 0x0203 p = s.finishLoad p := rfl

theorem State.removePart_part_self (s : State) (p : Nat) : (s.removePart p).part p = {} := tget_tdel_self _ _ _

theorem State.removePart_part_ne (s : State) {p k : Nat} (h : k ≠ p) : (s.removePart p).part k = s.part k := tget_tdel_ne _ _ h

/-- The reset that PARTITION_DESTROY began ends: the partition is removed, and the command completes. -/
theorem unitResetDone_destroys {s : State} {p : Nat} (hres : s.resets = [{ scope := 2, index := p, mbx := some 0 }])
    (hmoves : (s.part p).moves = []) (hop : (s.mb 0).opcode = 0x0102) (hdone : (s.mb 0).done = false) :
    ∃ s', exec (.unitResetDone 2 p) s = .next s' ∧ (s'.part p).st = .none ∧ s.answered s' 0 0 [] ∧ s'.resets = [] ∧
      (∀ k, k ≠ p → s'.part k = s.part k) := by
  obtain ⟨ts, hexec⟩ := unitResetDone_ends hres hmoves
  rw [hop, State.resetEnds_destroy] at hexec
  have hpage : s.SamePage ((s.resetOver ts).removePart p) 0 := ⟨rfl, rfl, rfl, rfl⟩
  refine ⟨_, hexec, ?_, (hpage.trans ((State.raiseDev_eventOnly _ _ _ _ _).samePage 0)).ok hdone [], ?_, fun k hk => ?_⟩
  · rw [State.okWith, State.finish_part, State.raiseDev_part, State.removePart_part_self]
  · rw [State.okWith, State.finish_resets, State.raiseDev_resets]
    rfl
  · rw [State.okWith, State.finish_part, State.raiseDev_part, State.removePart_part_ne _ hk]
    rfl

/-! Mailbox commands on partitions -/

theorem mailboxPartitions : Claims.MailboxPartitions := by
  intro s p
  refine ⟨fun hasks hp hfield hlic ht hres hw => ?_, fun hasks hp hfield hlic ht hres hw => ⟨fun hd => ?_, fun a hd hlate => ?_⟩,
    fun n hasks hp hwhat hfield hscope hidle hheld => ?_, fun hasks hp hle hidle hunused hheld ht hres => ?_,
    fun hres hmoves hop hdone => ?_⟩
  · obtain ⟨u, hexec, hpage, htiles, hself, hother⟩ := partitionCreate_creates hasks hfield hlic hres hw ht
    obtain ⟨-, hdone, -⟩ := hasks
    subst hp
    refine ⟨_, hexec, hpage.ok hdone [], ?_⟩
    simp only [State.okWith, State.finish_part, State.finish_tiles, hself]
    exact ⟨rfl, rfl, rfl, rfl, rfl, rfl, rfl, rfl, hother, htiles⟩
  · exact partitionCreate_waits hasks hfield hlic hres hw ht hd
  · have hl := partitionCreate_busy hasks hfield hlic hres ht hd hlate
    obtain ⟨-, hdone, -⟩ := hasks
    obtain ⟨hans, -⟩ := (s.taken_samePage 0).refused hdone { status := stBusy }
    exact ⟨_, hl, hans, State.refuse_parts _ _ _⟩
  · subst hp
    have hl := partitionSet_sets hasks hwhat hfield hscope hidle hheld
    obtain ⟨-, hdone, -⟩ := hasks
    refine ⟨_, hl, ((s.taken_samePage n).trans (State.modPart_samePage _ _ _ n)).ok hdone [], ?_⟩
    rw [State.okWith, State.finish_part, State.modPart_part_self]
    rfl
  · subst hp
    exact partitionDestroy_waits hasks hle hidle hunused hheld ht hres
  · exact unitResetDone_destroys hres hmoves hop hdone

end Sys2Proof.Machine
end

section
/-!
SUPPORT. The mailbox commands on images: staging, verifying, installing and loading (`Claims.MailboxImages`).
-/

namespace Sys2Proof.Machine

/-! Stagings (R400) -/

theorem State.stage_congr {s t : State} (h : t.stages = s.stages) (k p : Nat) : t.stage k p = s.stage k p := by
  rw [State.stage, h, State.stage]

@[simp] theorem State.stage_unstage_self (s : State) (k p : Nat) : (s.unstage k p).stage k p = none := by
  rw [State.stage, State.unstage, List.find?_eq_none]
  intro g hg hkey
  have hnot := (List.mem_filter.mp hg).2
  rw [hkey] at hnot
  exact Bool.false_ne_true hnot

/-- The first staging of a kind and partition, begun where there was none. -/
theorem State.stage_begun {s : State} {g : Stage} (h : s.stage g.kind g.part = none) :
    ({ s with stages := s.stages ++ [g] } : State).stage g.kind g.part = some g := by
  rw [State.stage] at h ⊢
  rw [List.find?_append, h]
  simp

/-- A change of a staging that leaves its kind and its partition. -/
theorem State.stage_modStage (s : State) (k p : Nat) {f : Stage → Stage} (hf : ∀ g, (f g).kind = g.kind ∧ (f g).part = g.part) :
    (s.modStage k p f).stage k p = (s.stage k p).map f := by
  have hkey : ((fun g : Stage => decide (g.kind = k) && decide (g.part = p)) ∘ fun g => if g.kind = k ∧ g.part = p then f g else g)
      = fun g => decide (g.kind = k) && decide (g.part = p) := by
    funext g
    obtain ⟨hk, hp⟩ := hf g
    by_cases h : g.kind = k ∧ g.part = p
    · simp only [Function.comp_apply, if_pos h, hk, hp]
    · simp only [Function.comp_apply, if_neg h]
  rw [State.stage, State.modStage, List.find?_map, hkey, State.stage]
  cases h : s.stages.find? fun g => decide (g.kind = k) && decide (g.part = p) with
  | none => rfl
  | some g =>
    have hg : g.kind = k ∧ g.part = p := by simpa using List.find?_some h
    rw [Option.map_some, Option.map_some, if_pos hg]

theorem State.onVerified_of {s : State} {k p : Nat} {g : Stage} (h : s.stage k p = some g) (hv : g.verified = true)
    (f : Image → Option No) : s.onVerified k p f = f g.img := by
  simp only [State.onVerified, h, hv, if_true]

/-! A pack or another image of the device (R399, R400) -/

/-- The place of a pack: kind 3, of no partition. -/
structure State.NamesPack (s : State) (n : Nat) : Prop where
  kind : s.param n 0 1 = 3
  part : s.param n 1 1 = 0xFF

section
variable {s : State} (h : s.NamesPack 0)
include h

theorem State.NamesPack.kindFields : ∀ f ∈ s.badKind 0, f.2 = false := by
  rw [State.badKind, h.kind, h.part]
  decide

theorem State.NamesPack.kindScope : s.kindScope 0 = none := by
  rw [State.kindScope, h.kind]
  rfl

theorem State.NamesPack.kindBusy : s.kindBusy 0 = none := by
  rw [State.kindBusy, h.kind]
  rfl

theorem stageDiscard_drops (hasks : s.asks 0 0x0206 2) :
    exec (.stageDiscard 0) s = .next (((s.taken 0).unstage 3 0xFF).okWith 0 []) := by
  have hlen := hasks.badLength (by decide) false
  have hfield := hasks.badField h.kindFields
  obtain ⟨hrun, -⟩ := hasks
  rw [exec_stageDiscard, execStageDiscard, State.command_acts hrun]
  · rw [State.taken_param, State.taken_param, h.kind, h.part]
  · rw [hlen, hfield, h.kindScope, h.kindBusy]
    rfl

/-- A whole staging that passes its checks verifies. -/
theorem imageVerify_verifies (hasks : s.asks 0 0x0202 2) {g : Stage} (hst : s.stage 3 0xFF = some g)
    (hwhole : g.staged = g.total) (henv : s.badEnvelope 3 g = false) (hsig : s.signatureFault g.img.bytes = 0)
    (hver : s.badVersion (headerOf g.img.bytes) = false) : exec (.imageVerify 0) s
      = .next (((s.taken 0).modStage 3 0xFF fun g' => { g' with verified := true, digest := imageDigest g.img.bytes }).okWith 0
          (verifyBytes 3 g.img.bytes)) := by
  have hlen := hasks.badLength (by decide) false
  have hfield := hasks.badField h.kindFields
  obtain ⟨hrun, -⟩ := hasks
  rw [exec_imageVerify, execImageVerify]
  dsimp only
  rw [h.kind, h.part, hst, State.command_acts hrun]
  · rfl
  · dsimp only
    rw [hlen, hfield, h.kindScope, h.kindBusy, henv, hsig, hver, hwhole]
    simp [signFault]

/-- A staging dropped. -/
theorem stageDiscard_done (hasks : s.asks 0 0x0206 2) : ∃ s', exec (.stageDiscard 0) s = .next s' ∧
    s.answered s' 0 0 [] ∧ s'.stage 3 0xFF = none ∧ s'.flash = s.flash := by
  have hexec := stageDiscard_drops h hasks
  obtain ⟨-, hdone, -⟩ := hasks
  have hpage : (s.taken 0).SamePage ((s.taken 0).unstage 3 0xFF) 0 := ⟨rfl, rfl, rfl, rfl⟩
  refine ⟨_, hexec, ((s.taken_samePage 0).trans hpage).ok hdone [], ?_, ?_⟩
  · rw [State.okWith, State.finish_stage, State.stage_unstage_self]
  · rw [State.okWith, State.finish_flash]
    rfl

/-- A staging verified; the response names its digest, its version and whether it is sealed. -/
theorem imageVerify_done (hasks : s.asks 0 0x0202 2) {g : Stage} (hst : s.stage 3 0xFF = some g)
    (hwhole : g.staged = g.total) (henv : s.badEnvelope 3 g = false) (hsig : s.signatureFault g.img.bytes = 0)
    (hver : s.badVersion (headerOf g.img.bytes) = false) : ∃ s', exec (.imageVerify 0) s = .next s' ∧
      s'.stage 3 0xFF = some { g with verified := true, digest := imageDigest g.img.bytes } ∧
      s.answered s' 0 0 (verifyBytes 3 g.img.bytes) ∧ s'.flash = s.flash := by
  have hexec := imageVerify_verifies h hasks hst hwhole henv hsig hver
  obtain ⟨-, hdone, -⟩ := hasks
  have hpage : (s.taken 0).SamePage ((s.taken 0).modStage 3 0xFF fun g' =>
    { g' with verified := true, digest := imageDigest g.img.bytes }) 0 := ⟨rfl, rfl, rfl, rfl⟩
  refine ⟨_, hexec, ?_, ((s.taken_samePage 0).trans hpage).ok hdone _, ?_⟩
  · rw [State.okWith, State.finish_stage, State.stage_modStage _ 3 0xFF
      (f := fun g' => { g' with verified := true, digest := imageDigest g.img.bytes }) fun _ => ⟨rfl, rfl⟩, State.taken_stage, hst]
    rfl
  · rw [State.okWith, State.finish_flash]
    rfl

end

/-! Staging a pack in one chunk (R400) -/

/-- The staging that one chunk of `size` bytes makes of a pack. -/
def packStage (size : Nat) (img : Image) : Stage :=
  ({ kind := 3, part := 0xFF, total := size, staged := 0, img := { bytes := [] } } : Stage).append size img

section
variable {s : State} {size : Nat} (hasks : s.asksBuffer 0 0x0201 24 size) (hsize : size ≤ 2 ^ 28) (h : s.NamesPack 0)
  (hres : ∀ o ∈ span 2 8, memGet (s.mb 0).payload o = 0) (hoff : s.param 0 8 8 = 0) (htotal : s.param 0 16 8 = size)
  (haccess : s.link.access = true)
include hasks

theorem State.asksBuffer.bufLen : s.bufLen 0 = size := by
  obtain ⟨-, -, -, hone, hsize, -⟩ := hasks
  rw [State.bufLen, hone, Mbx.sglTotal_one, hsize]

include hsize h hres hoff htotal haccess

theorem imageStage_stages (img : Image) : exec (.imageStage 0 img) s = .next
    ((((s.taken 0).beginStage 3 0xFF size).modStage 3 0xFF fun g => g.append size img).okWith 0 (leBytes 8 size)) := by
  have hbuf := hasks.bufLen
  obtain ⟨hrun, -, hlen, hone, hsgl, hfaults⟩ := hasks
  have hlength : s.badLength 0 24 true = none :=
    State.badLength_none hlen (by decide) (.inr ⟨rfl, hone, by rw [hsgl]; exact hsize.trans (by decide)⟩)
  have hchunk : s.badChunk 0 = none := by
    simp only [State.badChunk, hone, hbuf, hoff, htotal]
    rw [if_neg (by decide), if_neg (by omega)]
  have hstage : ∀ f ∈ s.badStage 0, f.2 = false := by
    rw [State.badStage, hoff]
    simp
  have hfield : s.badField 0 (s.badKind 0 ++ s.badStage 0) (span 2 8) = none :=
    State.badField_none (fun f hf => (List.mem_append.mp hf).elim (h.kindFields f) (hstage f)) hres
      (by simpa [List.all_eq_true] using hfaults)
  have hroom : s.noRoom 3 0xFF size = false := decide_eq_false (Nat.not_lt.mpr hsize)
  have hhost : s.noHost = none := by rw [State.noHost, haccess, if_pos rfl]
  have hbegun : ((s.taken 0).beginStage 3 0xFF size).bufLen 0 = size :=
    Eq.trans (b := (s.taken 0).bufLen 0) rfl (by rw [State.taken_bufLen, hbuf])
  rw [exec_imageStage, execImageStage]
  dsimp only
  rw [h.kind, h.part, hoff, htotal, State.command_acts hrun]
  · rw [if_pos rfl, hbegun, Nat.zero_add]
  · rw [hlength, hchunk, hfield, h.kindScope, h.kindBusy, hroom, hhost]
    rfl

omit hasks hsize h hres hoff htotal haccess in
/-- The staging that the first chunk of a pack begins. -/
theorem State.beginStage_pack (img : Image) : (((s.beginStage 3 0xFF size).modStage 3 0xFF fun g => g.append size img).stage 3 0xFF)
    = some (packStage size img) := by
  have hbegun : (s.beginStage 3 0xFF size).stage 3 0xFF
      = some { kind := 3, part := 0xFF, total := size, staged := 0, img := { bytes := [] } } :=
    State.stage_begun (s := s.unstage 3 0xFF) (s.stage_unstage_self 3 0xFF)
  rw [State.stage_modStage _ 3 0xFF (f := fun g => g.append size img) fun _ => ⟨rfl, rfl⟩, hbegun]
  rfl

/-- A pack staged in one chunk is held, its bytes counted. -/
theorem imageStage_done (img : Image) : ∃ s' g, exec (.imageStage 0 img) s = .next s' ∧ s.answered s' 0 0 (leBytes 8 size) ∧
    s'.stage 3 0xFF = some g ∧ g.staged = size ∧ g.total = size ∧ g.verified = false ∧ g.img.bytes = fill size img.bytes ∧
    s'.flash = s.flash := by
  have hexec := imageStage_stages hasks hsize h hres hoff htotal haccess img
  obtain ⟨-, hdone, -⟩ := hasks
  have hpage : (s.taken 0).SamePage (((s.taken 0).beginStage 3 0xFF size).modStage 3 0xFF fun g => g.append size img) 0 :=
    ⟨rfl, rfl, rfl, rfl⟩
  refine ⟨_, packStage size img, hexec, ((s.taken_samePage 0).trans hpage).ok hdone _, ?_, ?_⟩
  · rw [State.okWith, State.finish_stage, State.beginStage_pack]
  · refine ⟨Nat.zero_add size, rfl, rfl, rfl, ?_⟩
    rw [State.okWith, State.finish_flash]
    rfl

end

/-! PACK_INSTALL (R401, R485, R504) -/

theorem State.staleFault_fresh {s : State} {k p : Nat} (h : s.stale k p = false) : s.staleFault k p = none := by
  rw [State.staleFault, h]
  rfl

/-- A staging whose bytes read again have another digest is refused (R504). -/
theorem State.staleFault_stale {s : State} {k p : Nat} (h : s.stale k p = true) :
    s.staleFault k p = some { status := stSignature, detail := 1 } := by
  rw [State.staleFault, h]
  rfl

section
variable {s : State} (hasks : s.asks 0 0x0205 0) {g : Stage} (hst : s.stage 3 0xFF = some g) (hv : g.verified = true)
include hasks hst hv

theorem packInstall_stale (hstale : s.stale 3 0xFF = true) :
    exec (.packInstall 0) s = .next ((s.taken 0).refuse 0 { status := stSignature, detail := 1 }) := by
  have hlen := hasks.badLength (by decide) false
  obtain ⟨hrun, -⟩ := hasks
  rw [exec_packInstall, execPackInstall, State.command_refuses hrun]
  rw [hlen, State.onVerified_of hst hv, State.staleFault_stale hstale]
  rfl

/-- The first pack installed is the only one. -/
theorem packInstall_installs (hstale : s.stale 3 0xFF = false) (hnone : s.flash.packs = []) (hpat : (packOf g.img).patterns = 0)
    (hsize : (packOf g.img).size ≤ 3 * 2 ^ 30) (hker : (packOf g.img).kernels ≠ []) : exec (.packInstall 0) s
      = .next ((State.raiseDev { (s.taken 0).unstage 3 0xFF with flash := { s.flash with packs := [packOf g.img] } } 0x070C 0 mgmtUnit
          ((packOf g.img).id * 2 ^ 48 + (packOf g.img).version * 2 ^ 16 + (packOf g.img).kernels.length)).okWith 0 []) := by
  have hlen := hasks.badLength (by decide) false
  have hroom : decide ((([packOf g.img].map fun a => a.size).foldl (· + ·) 0) > packRoom) = false :=
    decide_eq_false (Nat.not_lt.mpr ((Nat.zero_add _).trans_le hsize))
  have hput : putPack [] (packOf g.img) = [packOf g.img] := by simp [putPack, hker, sortBy, insertBy]
  obtain ⟨hrun, -⟩ := hasks
  rw [exec_packInstall, execPackInstall, State.command_acts hrun]
  · simp only [State.taken_stage, hst, State.taken_flash, hnone, hput]
  · simp only [hlen, State.onVerified_of hst hv, State.staleFault_fresh hstale, hnone, hput, hpat, hroom]
    rfl

/-- The pack installed, its staging gone. -/
theorem packInstall_done (hstale : s.stale 3 0xFF = false) (hnone : s.flash.packs = []) (hpat : (packOf g.img).patterns = 0)
    (hsize : (packOf g.img).size ≤ 3 * 2 ^ 30) (hker : (packOf g.img).kernels ≠ []) : ∃ s', exec (.packInstall 0) s = .next s' ∧
      s.answered s' 0 0 [] ∧ s'.flash.packs = [packOf g.img] ∧ s'.stage 3 0xFF = none := by
  have hexec := packInstall_installs hasks hst hv hstale hnone hpat hsize hker
  obtain ⟨-, hdone, -⟩ := hasks
  generalize ht : ({ (s.taken 0).unstage 3 0xFF with flash := { s.flash with packs := [packOf g.img] } } : State) = t at hexec
  have hpage : (s.taken 0).SamePage t 0 := ht ▸ ⟨rfl, rfl, rfl, rfl⟩
  have hevent := State.raiseDev_eventOnly t 0x070C 0 mgmtUnit
    ((packOf g.img).id * 2 ^ 48 + (packOf g.img).version * 2 ^ 16 + (packOf g.img).kernels.length)
  refine ⟨_, hexec, (((s.taken_samePage 0).trans hpage).trans (hevent.samePage 0)).ok hdone [], ?_, ?_⟩
  · rw [State.okWith, State.finish_flash, State.raiseDev_flash _ _ _ _ (by decide), ← ht]
  · rw [State.okWith, State.finish_stage, State.stage_congr (State.raiseDev_stages _ _ _ _ _), ← ht]
    exact State.stage_unstage_self _ _ _

end

/-! WEIGHT_LOAD (R253, R401, R504) -/

/-- What weights loaded from an image of digest `d` leave of their partition. -/
def Partition.loadsWeights (q : Partition) (w : WeightBody) (d : BitVec 512) (sealed : Bool) : Partition :=
  { q with weights := some w, weightsLoaded := true, weightDigest := d, sealedWeights := sealed }

/-- A load has set partition `p` and the stagings; the mailbox pages are as they were. -/
structure State.Loaded (s t : State) (p : Nat) (stages : List Stage) (q : Partition) : Prop where
  mbx : t.mbx = s.mbx
  count : t.cmdsDone = s.cmdsDone
  stages : t.stages = stages
  part : t.part p = q

section
variable {s t : State} {p : Nat} {l : List Stage} {q : Partition} (h : s.Loaded t p l q)
include h

theorem State.Loaded.samePage (n : Nat) : s.SamePage t n := .of_eq h.mbx h.count

theorem State.Loaded.stage {u : State} (hu : u.stages = l) (k j : Nat) : t.stage k j = u.stage k j :=
  State.stage_congr (h.stages.trans hu.symm) k j

end

theorem State.Loaded.each {α : Type} {s t : State} {p : Nat} {l : List Stage} {q : Partition} {f : α → State → State} {as : List α}
    (hstep : ∀ a u, s.Loaded u p l q → s.Loaded (f a u) p l q) (h : s.Loaded t p l q) :
    s.Loaded (Machine.each as f t) p l q :=
  each_induction (P := fun u => s.Loaded u p l q) hstep as t h

/-- A partition set after a step that leaves pages, stagings and partitions as they are. -/
theorem State.loaded_modPart {s t : State} (hm : t.mbx = s.mbx) (hc : t.cmdsDone = s.cmdsDone) (hp : t.parts = s.parts)
    (p : Nat) (f : Partition → Partition) : s.Loaded (t.modPart p f) p t.stages (f (s.part p)) := by
  refine ⟨hm, hc, rfl, ?_⟩
  rw [State.modPart_part_self, State.part, hp, State.part]

theorem State.loadAllWeights_loaded (s : State) (p : Nat) (w : WeightBody) (d : BitVec 512) (sealed : Bool) :
    s.Loaded (s.loadAllWeights p w d sealed) p s.stages ((s.part p).loadsWeights w d sealed) := by
  unfold State.loadAllWeights
  refine State.Loaded.each (fun t v hv => ?_) ?_
  · exact ⟨hv.mbx, hv.count, hv.stages, hv.part⟩
  · exact State.loaded_modPart (s := s) (t := s.writeHomes p w) rfl rfl rfl p fun q => q.loadsWeights w d sealed

section
variable {s : State} {n : Nat} (hasks : s.asks n 0x0204 1) (hp : s.param n 0 1 ≤ 7)
  (hscope : s.partScope n (s.param n 0 1) = none) (hloaded : (s.part (s.param n 0 1)).st = .loaded) {g : Stage}
  (hst : s.stage 2 (s.param n 0 1) = some g) (hv : g.verified = true) (hplain : (headerOf g.img.bytes).sealed = false)
  {w : WeightBody} (hhomes : s.homesOf g.img = some w)
  (hfit : w.home.any (badHomeData (s.part (s.param n 0 1)).homeFrames) = false)
include hasks hp hscope hloaded hst hv hplain hhomes hfit

theorem weightLoad_stale (hstale : s.stale 2 (s.param n 0 1) = true) : exec (.weightLoad n) s
    = .next (((s.taken n).unloadWeights (s.param n 0 1)).refuse n { status := stSignature, detail := 1 }) := by
  have hlen := hasks.badLength (by decide) false
  have hfield := hasks.partitionField hp
  obtain ⟨hrun, -⟩ := hasks
  rw [exec_weightLoad, execWeightLoad]
  rw [State.commandElse_refuses (r := { status := stSignature, detail := 1 }) hrun]
  · rfl
  · simp only [hlen, hfield, State.onVerified_of hst hv, hhomes, hfit, hscope, hloaded, hplain, State.staleFault_stale hstale]
    rfl

theorem weightLoad_loads (hheld : s.partHeld n (s.param n 0 1) = false) (hres : s.resets = [])
    (hread : s.stageUnread 2 (s.param n 0 1) = false) (hstale : s.stale 2 (s.param n 0 1) = false) : exec (.weightLoad n) s
    = .next ((((s.taken n).unstage 2 (s.param n 0 1)).loadAllWeights (s.param n 0 1) w g.digest false).okWith n []) := by
  have hlen := hasks.badLength (by decide) false
  have hfield := hasks.partitionField hp
  have htaken : (s.taken n).homesOf g.img = some w := hhomes
  obtain ⟨hrun, -⟩ := hasks
  rw [exec_weightLoad, execWeightLoad]
  rw [State.commandElse_acts hrun]
  · simp only [State.taken_stage, hst, htaken, hplain]
  · simp only [hlen, hfield, State.onVerified_of hst hv, hhomes, hfit, hscope, hloaded, hplain, State.staleFault_fresh hstale,
      State.partBusy_free hheld, hres, hread]
    rfl

/-- The weights of the partition loaded, the staging gone. -/
theorem weightLoad_done (hheld : s.partHeld n (s.param n 0 1) = false) (hres : s.resets = [])
    (hread : s.stageUnread 2 (s.param n 0 1) = false) (hstale : s.stale 2 (s.param n 0 1) = false) :
    ∃ s', exec (.weightLoad n) s = .next s' ∧ s.answered s' n 0 [] ∧ (s'.part (s.param n 0 1)).weightsLoaded = true ∧
      (s'.part (s.param n 0 1)).weightDigest = g.digest ∧ (s'.part (s.param n 0 1)).sealedWeights = false ∧
      (s'.part (s.param n 0 1)).st = .loaded ∧ s'.stage 2 (s.param n 0 1) = none := by
  have hexec := weightLoad_loads hasks hp hscope hloaded hst hv hplain hhomes hfit hheld hres hread hstale
  obtain ⟨-, hdone, -⟩ := hasks
  have hload := ((s.taken n).unstage 2 (s.param n 0 1)).loadAllWeights_loaded (s.param n 0 1) w g.digest false
  have hpage : (s.taken n).SamePage ((s.taken n).unstage 2 (s.param n 0 1)) n := ⟨rfl, rfl, rfl, rfl⟩
  refine ⟨_, hexec, (((s.taken_samePage n).trans hpage).trans (hload.samePage n)).ok hdone [], ?_⟩
  simp only [State.okWith, State.finish_part, hload.part, State.finish_stage, hload.stage rfl, State.stage_unstage_self, and_true]
  exact ⟨rfl, rfl, rfl, hloaded⟩

/-- Bytes that no longer have the verified digest: the weights count as not loaded. -/
theorem weightLoad_unloads (hstale : s.stale 2 (s.param n 0 1) = true) : ∃ s', exec (.weightLoad n) s = .next s' ∧
    s.answered s' n stSignature [] ∧ (s'.mb n).detail = 1 ∧ (s'.part (s.param n 0 1)).weightsLoaded = false := by
  have hexec := weightLoad_stale hasks hp hscope hloaded hst hv hplain hhomes hfit hstale
  obtain ⟨-, hdone, -⟩ := hasks
  obtain ⟨hans, hdetail⟩ := ((s.taken_samePage n).trans (State.modPart_samePage (s.taken n) (s.param n 0 1)
    Partition.unloaded n)).refused hdone { status := stSignature, detail := 1 }
  refine ⟨_, hexec, hans, hdetail, ?_⟩
  rw [State.refuse_part, State.unloadWeights, State.modPart_part_self]
  rfl

end

/-! PROGRAM_LOAD (R234, R401, R504) -/

section
variable {s : State} {n : Nat} (hasks : s.asks n 0x0203 1) (hp : s.param n 0 1 ≤ 7)
  (hscope : s.partScope n (s.param n 0 1) = none) (hidle : (s.part (s.param n 0 1)).idle = true) {g : Stage}
  (hst : s.stage 1 (s.param n 0 1) = some g) (hv : g.verified = true)
include hasks hp hscope hidle hst hv

theorem programLoad_stale (hstale : s.stale 1 (s.param n 0 1) = true) :
    exec (.programLoad n) s = .next ((s.taken n).refuse n { status := stSignature, detail := 1 }) := by
  have hlen := hasks.badLength (by decide) false
  have hfield := hasks.partitionField hp
  obtain ⟨hrun, -⟩ := hasks
  rw [exec_programLoad, execProgramLoad]
  rw [State.command_refuses hrun]
  rw [hlen, hfield, hscope, hidle, State.onVerified_of hst hv, State.staleFault_stale hstale]
  rfl

theorem programLoad_resets (hstale : s.stale 1 (s.param n 0 1) = false)
    (harith : (s.programFor (s.param n 0 1) g.img).params.arithEpoch = 1)
    (hfabric : (s.programFor (s.param n 0 1) g.img).params.fabricEpoch = 1) (himage : s.badImage (s.param n 0 1) g.img = false)
    (hheld : s.partHeld n (s.param n 0 1) = false) (hres : s.resets = []) (hw : s.withdrawnIn (s.param n 0 1) = none) :
    exec (.programLoad n) s = .next (((s.taken n).clearSealed
      (if (s.part (s.param n 0 1)).sealedWeights then [s.param n 0 1] else []) 1).startPartReset (s.param n 0 1) n) := by
  have hlen := hasks.badLength (by decide) false
  have hfield := hasks.partitionField hp
  obtain ⟨hrun, -⟩ := hasks
  rw [exec_programLoad, execProgramLoad]
  rw [State.command_acts hrun]
  simp only [hlen, hfield, hscope, hidle, State.onVerified_of hst hv, State.staleFault_fresh hstale, harith, hfabric, himage,
    State.partBusy_free hheld, hres, hw]
  rfl

/-- The tiles of the partition are in reset, the staging is kept, and the command waits. -/
theorem programLoad_waits (hstale : s.stale 1 (s.param n 0 1) = false)
    (harith : (s.programFor (s.param n 0 1) g.img).params.arithEpoch = 1)
    (hfabric : (s.programFor (s.param n 0 1) g.img).params.fabricEpoch = 1) (himage : s.badImage (s.param n 0 1) g.img = false)
    (hheld : s.partHeld n (s.param n 0 1) = false) (hres : s.resets = []) (hw : s.withdrawnIn (s.param n 0 1) = none) :
    ∃ s', exec (.programLoad n) s = .next s' ∧ s'.waits n ∧ s'.resets = [{ scope := 2, index := s.param n 0 1, mbx := some n }] ∧
      s'.stage 1 (s.param n 0 1) = some g ∧ (∀ t ∈ s.tilesOf (s.param n 0 1), (s'.tile t).inReset = true) := by
  have hexec := programLoad_resets hasks hp hscope hidle hst hv hstale harith hfabric himage hheld hres hw
  obtain ⟨-, hdone, -⟩ := hasks
  refine ⟨_, hexec, ?_⟩
  generalize (if (s.part (s.param n 0 1)).sealedWeights then [s.param n 0 1] else []) = cleared
  have hreset := ((s.taken n).clearSealed_keepsCommands cleared 1).startPartReset (s.param n 0 1) n
  refine ⟨hreset.waits hdone, ?_, ?_, hreset.tiles⟩
  · rw [hreset.resets, State.taken_resets, hres, List.nil_append]
  · rw [State.stage_congr hreset.stages, State.taken_stage, hst]

theorem programLoad_refused (hstale : s.stale 1 (s.param n 0 1) = true) : ∃ s', exec (.programLoad n) s = .next s' ∧
    s.answered s' n stSignature [] ∧ (s'.mb n).detail = 1 ∧ s'.resets = s.resets ∧ s'.parts = s.parts := by
  have hexec := programLoad_stale hasks hp hscope hidle hst hv hstale
  obtain ⟨-, hdone, -⟩ := hasks
  obtain ⟨hans, hdetail⟩ := (s.taken_samePage n).refused hdone { status := stSignature, detail := 1 }
  exact ⟨_, hexec, hans, hdetail, State.refuse_resets _ _ _, State.refuse_parts _ _ _⟩

end

/-- What the image of a PROGRAM_LOAD leaves of its partition: LOADED at tide 0. -/
def Partition.loadsProgram (q : Partition) (g : Stage) (b : ProgramBody) : Partition :=
  { q with
    st := .loaded, image := some b, imageDigest := g.digest, imageFrames := g.frames, weights := none, weightsLoaded := false
    weightDigest := 0, sealedWeights := false, ranSinceLoad := false, tide := 0, markSlot := none, lastCommitted := 0
    lastStretch := 0, replaying := false, replays := 0, plans := b.plans.map fun c => (c.plan, ({} : PlanState)) }

theorem State.restoreBells_loaded {s t : State} {p : Nat} {l : List Stage} {q : Partition} (h : s.Loaded t p l q) (c : Nat) :
    s.Loaded (t.restoreBells c) p l q := by
  unfold State.restoreBells
  split
  · exact h
  · split
    · exact h
    · exact ⟨h.mbx, h.count, h.stages, h.part⟩

/-- The tiles and the bells take the image; the partition is as `loadsProgram` makes it, and the staging is gone. -/
theorem State.finishLoad_loaded {s : State} {p : Nat} {g : Stage} (hst : s.stage 1 p = some g) :
    s.Loaded (s.finishLoad p) p (s.unstage 1 p).stages ((s.part p).loadsProgram g (s.programFor p g.img)) := by
  unfold State.finishLoad
  simp only [hst]
  refine State.Loaded.each (fun c u hu => State.restoreBells_loaded hu c) (State.Loaded.each (fun t u hu => ?_) ?_)
  · split
    · exact hu
    · exact ⟨hu.mbx, hu.count, hu.stages, hu.part⟩
  · exact State.loaded_modPart (s := s) (t := s.unstage 1 p) rfl rfl rfl p fun q => q.loadsProgram g (s.programFor p g.img)

/-- The reset that PROGRAM_LOAD began ends: the partition is loaded, and the command completes. -/
theorem unitResetDone_loads {s : State} {p n : Nat} {g : Stage} (hres : s.resets = [{ scope := 2, index := p, mbx := some n }])
    (hmoves : (s.part p).moves = []) (hop : (s.mb n).opcode = 0x0203) (hdone : (s.mb n).done = false)
    (hst : s.stage 1 p = some g) : ∃ s', exec (.unitResetDone 2 p) s = .next s' ∧ (s'.part p).st = .loaded ∧
      (s'.part p).image = some (s.programFor p g.img) ∧ (s'.part p).imageDigest = g.digest ∧ (s'.part p).tide = 0 ∧
      (s'.part p).weightsLoaded = false ∧ s.answered s' n 0 [] ∧ s'.stage 1 p = none := by
  obtain ⟨ts, hexec⟩ := unitResetDone_ends hres hmoves
  rw [hop, State.resetEnds_load] at hexec
  have hload := State.finishLoad_loaded (s := s.resetOver ts) (p := p) hst
  have hpage : s.SamePage (s.resetOver ts) n := ⟨rfl, rfl, rfl, rfl⟩
  have hevent := State.raiseDev_eventOnly ((s.resetOver ts).finishLoad p) 0x0106 1
    (unitId 2 ((s.part p).firstStripe + s.sigma0)) (2 * 2 ^ 62 + sat 0 0xFFFFFFFF)
  have hans := ((hpage.trans (hload.samePage n)).trans (hevent.samePage n)).ok hdone []
  refine ⟨_, hexec, ?_⟩
  simp only [State.okWith, State.finish_part, State.raiseDev_part, hload.part, State.finish_stage,
    State.stage_congr (State.raiseDev_stages _ _ _ _ _), hload.stage rfl, State.stage_unstage_self, and_true]
  exact ⟨rfl, rfl, rfl, rfl, rfl, hans⟩

/-! Mailbox commands on images -/

theorem mailboxImages : Claims.MailboxImages := by
  intro s n p
  refine ⟨fun img size hasks hsize hk hpt hres hoff htotal haccess => ?_,
    fun g hasks hk hpt hst hwhole henv hsig hver => ?_, fun g hasks hst hv => ⟨fun hstale hnone hpat hsize hker => ?_, fun hstale => ?_⟩,
    fun hasks hk hpt => ?_, fun g w hasks hp hle hscope hloaded hst hv hplain hhomes hfit hheld hres hread =>
      ⟨fun hstale => ?_, fun hstale => ?_⟩,
    fun g hasks hp hle hscope hidle hst hv => ⟨fun hstale harith hfabric himage hheld hres hw => ?_, fun hstale => ?_⟩,
    fun g hres hmoves hop hdone hst => ?_⟩
  · exact imageStage_done hasks hsize ⟨hk, hpt⟩ hres hoff htotal haccess img
  · exact imageVerify_done ⟨hk, hpt⟩ hasks hst hwhole henv hsig hver
  · exact packInstall_done hasks hst hv hstale hnone hpat hsize hker
  · have hexec := packInstall_stale hasks hst hv hstale
    obtain ⟨-, hdone, -⟩ := hasks
    obtain ⟨hans, hdetail⟩ := (s.taken_samePage 0).refused hdone { status := stSignature, detail := 1 }
    exact ⟨_, hexec, hans, hdetail, congrArg Flash.packs (State.refuse_flash _ _ _)⟩
  · exact stageDiscard_done ⟨hk, hpt⟩ hasks
  · subst hp
    exact weightLoad_done hasks hle hscope hloaded hst hv hplain hhomes hfit hheld hres hread hstale
  · subst hp
    exact weightLoad_unloads hasks hle hscope hloaded hst hv hplain hhomes hfit hstale
  · subst hp
    exact programLoad_waits hasks hle hscope hidle hst hv hstale harith hfabric himage hheld hres hw
  · subst hp
    exact programLoad_refused hasks hle hscope hidle hst hv hstale
  · exact unitResetDone_loads hres hmoves hop hdone hst

/-- Settles O58: the commands on partitions, and the commands on images, each with the state that its act leaves. -/
theorem mailboxPartitionsAndImages : Obligations.MailboxPartitionsAndImages := ⟨mailboxPartitions, mailboxImages⟩

end Sys2Proof.Machine
end

section
/-!
SUPPORT. What a repair of tile sites can do: tiles are reset, rebuilt and shifted, sites are disabled and observed, records are
logged and events raised; partitions, the job and the mailbox pages stay.
-/

namespace Sys2Proof.Machine

/-- Equal but for the tiles, the resets begun, the sites under observation, the free values used and what events and log
records touch; no event is taken back. -/
structure RepairOnly (s t : State) : Prop where
  frame : t = { s with tiles := t.tiles, resets := t.resets, observed := t.observed, freeCtr := t.freeCtr,
                       posted := t.posted, eventCount := t.eventCount, bb := t.bb, evr := t.evr, tlr := t.tlr,
                       flash := t.flash, link := t.link }
  count : s.eventCount ≤ t.eventCount

/-- As `RepairOnly`, and more sites may be disabled. -/
def Remaps (s t : State) : Prop := RepairOnly { s with disabled := t.disabled } t

theorem RepairOnly.refl (s : State) : RepairOnly s s := ⟨rfl, Nat.le_refl _⟩

theorem RepairOnly.trans {s t u : State} (h : RepairOnly s t) (k : RepairOnly t u) : RepairOnly s u :=
  ⟨by rw [k.frame, h.frame], Nat.le_trans h.count k.count⟩

theorem RepairOnly.ite {s t u : State} {b : Prop} [Decidable b] (h : RepairOnly s t) (k : RepairOnly s u) :
    RepairOnly s (if b then t else u) := by split <;> assumption

theorem EventOnly.repairOnly {s t : State} (h : EventOnly s t) (hc : s.eventCount ≤ t.eventCount) : RepairOnly s t :=
  ⟨by rw [h], hc⟩

theorem each_repairOnly {α : Type} {f : α → State → State} (h : ∀ a t, RepairOnly t (f a t)) (l : List α) (s : State) :
    RepairOnly s (each l f s) :=
  each_induction (P := RepairOnly s) (fun a t ht => ht.trans (h a t)) l s (RepairOnly.refl s)

/-- The sites disabled before and after may both be replaced by the same list. -/
theorem RepairOnly.disabling {s t : State} (h : RepairOnly s t) (d : List (Nat × Nat)) :
    RepairOnly { s with disabled := d } { t with disabled := d } := ⟨by rw [h.frame], h.count⟩

theorem RepairOnly.remaps {s t : State} (h : RepairOnly s t) : Remaps s t := h.disabling t.disabled

theorem RepairOnly.disablingMore {s t : State} (h : RepairOnly s t) (l : List (Nat × Nat)) :
    RepairOnly { s with disabled := s.disabled ++ l } { t with disabled := t.disabled ++ l } := by
  have hd : t.disabled = s.disabled := by rw [h.frame]
  rw [hd]
  exact h.disabling _

theorem RepairOnly.disabled {s t : State} (h : RepairOnly s t) : t.disabled = s.disabled := by rw [h.frame]

theorem Remaps.trans {s t u : State} (h : Remaps s t) (k : Remaps t u) : Remaps s u :=
  RepairOnly.trans (RepairOnly.disabling h u.disabled) k

theorem Remaps.ite {s t u : State} {b : Prop} [Decidable b] (h : Remaps s t) (k : Remaps s u) :
    Remaps s (if b then t else u) := by split <;> assumption

theorem each_remaps {α : Type} {f : α → State → State} (h : ∀ a t, Remaps t (f a t)) (l : List α) (s : State) :
    Remaps s (each l f s) :=
  each_induction (P := Remaps s) (fun a t ht => ht.trans (h a t)) l s (RepairOnly.refl s).remaps

theorem Remaps.parts {s t : State} (h : Remaps s t) : t.parts = s.parts := by rw [h.frame]
theorem Remaps.job {s t : State} (h : Remaps s t) : t.job = s.job := by rw [h.frame]
theorem Remaps.mbx {s t : State} (h : Remaps s t) : t.mbx = s.mbx := by rw [h.frame]

/-! What repairs only -/

theorem State.modTile_repairOnly (s : State) (t : TileId) (f : Tile → Tile) : RepairOnly s (s.modTile t f) :=
  ⟨rfl, Nat.le_refl _⟩

theorem State.used_repairOnly (s : State) (n : Nat) : RepairOnly s (s.used n) := ⟨rfl, Nat.le_refl _⟩

theorem State.beginReset_repairOnly (s : State) (scope ix : Nat) : RepairOnly s (s.beginReset scope ix) := ⟨rfl, Nat.le_refl _⟩

theorem State.signalAbsorb_repairOnly (s : State) (t : TileId) : RepairOnly s (s.signalAbsorb t) := by
  refine each_repairOnly (fun dir v => ?_) _ _
  split
  · exact .refl v
  · exact v.modTile_repairOnly _ _

theorem State.startTileReset_repairOnly (s : State) (t : TileId) : RepairOnly s (s.startTileReset t) :=
  ((s.modTile_repairOnly t _).trans (State.beginReset_repairOnly _ _ _)).trans (State.signalAbsorb_repairOnly _ _)

theorem State.loadWeights_repairOnly (s : State) (t : TileId) : RepairOnly s (s.loadWeights t) := ⟨rfl, Nat.le_refl _⟩

theorem State.restoreMark_repairOnly (s : State) (t : TileId) : RepairOnly s (s.restoreMark t) := ⟨rfl, Nat.le_refl _⟩

theorem State.restoreTile_repairOnly (s : State) (t : TileId) : RepairOnly s (s.restoreTile t) := by
  unfold State.restoreTile
  split
  · exact .refl s
  · exact ((s.modTile_repairOnly t _).trans (State.loadWeights_repairOnly _ t)).trans (State.restoreMark_repairOnly _ t)

theorem State.rebuildTile_repairOnly (s : State) (t : TileId) : RepairOnly s (s.rebuildTile t) :=
  (s.startTileReset_repairOnly t).trans (State.restoreTile_repairOnly _ t)

theorem State.raiseDev_repairOnly (s : State) (a b c d : Nat) : RepairOnly s (s.raiseDev a b c d) :=
  (State.raiseDev_eventOnly s a b c d).repairOnly (Nat.le_of_lt (State.raiseDev_eventCount_lt s a b c d))

theorem State.raiseTide_repairOnly (s : State) (p tide : Nat) (replay : Bool) (a b c d : Nat) :
    RepairOnly s (s.raiseTide p tide replay a b c d) :=
  (State.raiseTide_eventOnly s p tide replay a b c d).repairOnly (Nat.le_of_lt (State.raiseRec_eventCount_lt _ _ _))

/-- An event of a tile below severity 3 is counted at once. -/
theorem State.raiseTile_low_eventCount_lt (s : State) (t : TileId) (code : Nat) {sev : Nat} (payload : Nat) (h : sev < 3) :
    s.eventCount < (s.raiseTile t code sev payload).eventCount :=
  s.eventOf_eventCount_lt (s.partOf t) code t payload h

theorem State.raiseTile_repairOnly (s : State) (t : TileId) (code : Nat) {sev : Nat} (payload : Nat) (h : sev < 3) :
    RepairOnly s (s.raiseTile t code sev payload) :=
  (State.raiseTile_eventOnly s t code sev payload).repairOnly (Nat.le_of_lt (s.raiseTile_low_eventCount_lt t code payload h))

theorem State.logRepair_repairOnly (s : State) (a b c d e : Nat) : RepairOnly s (s.logRepair a b c d e) :=
  .ite ⟨rfl, Nat.le_refl _⟩ (s.raiseDev_repairOnly _ _ _ _)

theorem State.observed_repairOnly (s : State) (l : Tab Observation) : RepairOnly s { s with observed := l } := ⟨rfl, Nat.le_refl _⟩

theorem State.endObserve_repairOnly (s : State) (px py : Nat) (t : TileId) : RepairOnly s (s.endObserve px py t) := by
  unfold State.endObserve
  split
  · exact .refl s
  · exact (s.observed_repairOnly _).trans (State.raiseTile_repairOnly _ t _ _ (by decide))

theorem State.beginObserve_repairOnly (s : State) (t : TileId) (cause : Nat) (restart : Bool) :
    RepairOnly s (s.beginObserve t cause restart) := by
  unfold State.beginObserve
  dsimp only
  split
  · exact .refl s
  · exact (s.observed_repairOnly _).trans (State.raiseTile_repairOnly _ t _ _ (by decide))

theorem State.setObserve_repairOnly (s : State) (t : TileId) (on : Bool) : RepairOnly s (s.setObserve t on) :=
  .ite (s.beginObserve_repairOnly _ _ _) (s.endObserve_repairOnly _ _ _)

/-- What is done to the tile at a site, where there is one. -/
theorem repairOnly_atSite {f : TileId → State → State} (hf : ∀ t v, RepairOnly v (f t v)) (g : Option TileId) (v : State) :
    RepairOnly v (match g with
      | some t => f t v
      | none => v) := by
  cases g with
  | none => exact .refl v
  | some t => exact hf t v

/-- A site that is not disabled yet is disabled, and its segment repaired. -/
theorem State.disableSite_repairOnly {s : State} {px py : Nat} (h : s.disabled.contains (px, py) = false)
    (source cause tide : Nat) : RepairOnly { s with disabled := s.disabled ++ [(px, py)] } (s.disableSite px py source cause tide) ∧
      s.eventCount < (s.disableSite px py source cause tide).eventCount := by
  unfold State.disableSite
  simp only [h, Bool.false_eq_true, if_false]
  generalize hy : State.logRepair _ 1 source cause (py * 65536 + px) tide = y
  have hlogged : RepairOnly { s with disabled := s.disabled ++ [(px, py)] } y := by
    rw [← hy]
    refine RepairOnly.trans ?_ (State.logRepair_repairOnly _ _ _ _ _ _)
    refine RepairOnly.trans ?_ (repairOnly_atSite (fun t v => v.rebuildTile_repairOnly t) _ _)
    refine RepairOnly.trans ?_ (each_repairOnly (fun t v => v.rebuildTile_repairOnly t) _ _)
    refine RepairOnly.trans ?_ (each_repairOnly (fun t v => (v.modTile_repairOnly t _).trans (State.used_repairOnly _ _)) _ _)
    refine RepairOnly.disablingMore ?_ [(px, py)]
    refine RepairOnly.trans ?_ (each_repairOnly (fun t v => v.endObserve_repairOnly _ _ t) _ _)
    exact repairOnly_atSite (fun t v => v.endObserve_repairOnly px py t) _ _
  exact ⟨hlogged.trans (y.raiseDev_repairOnly _ _ _ _),
    Nat.lt_of_le_of_lt hlogged.count (y.raiseDev_eventCount_lt _ _ _ _)⟩

theorem State.disableSite_remaps (s : State) (px py source cause tide : Nat) : Remaps s (s.disableSite px py source cause tide) := by
  cases h : s.disabled.contains (px, py) with
  | true =>
    have hsame : s.disableSite px py source cause tide = s := if_pos h
    rw [hsame]
    exact (RepairOnly.refl s).remaps
  | false =>
    obtain ⟨hrep, -⟩ := State.disableSite_repairOnly h source cause tide
    exact hrep.disabling (s.disableSite px py source cause tide).disabled

theorem State.remapNow_remaps (s : State) (t : TileId) (cause : Nat) : Remaps s (s.remapNow t cause) :=
  .ite (s.disableSite_remaps _ _ _ _ _) (RepairOnly.refl s).remaps

theorem State.canaryOutcome_remaps (s : State) (p : Nat) : Remaps s (s.canaryOutcome p) :=
  each_remaps (fun _ v => .ite (v.remapNow_remaps _ _) (v.beginObserve_repairOnly _ _ _).remaps) _ _

theorem State.tileEnd_repairOnly (s : State) (p tide : Nat) (replay : Bool) (out : List Packet) (t : TileId) :
    RepairOnly s (s.tileEnd p tide replay out t) := by
  have hnote : ∀ (b : Prop) [Decidable b] (v : State) (c d e f : Nat),
      RepairOnly v (if b then v else v.raiseTide p tide replay c d e f) := fun b _ v c d e f =>
    .ite (.refl v) (v.raiseTide_repairOnly _ _ _ _ _ _ _)
  unfold State.tileEnd
  simp only
  refine RepairOnly.trans ?_ (State.modTile_repairOnly _ _ _)
  refine RepairOnly.trans ?_ (hnote _ _ _ _ _ _)
  refine RepairOnly.trans ?_ (hnote _ _ _ _ _ _)
  exact each_repairOnly (fun n v => hnote _ v _ _ _ _) _ _

theorem State.dropEvent_repairOnly (s : State) (p tide : Nat) (replay : Bool) (b : BwDrop) :
    RepairOnly s (s.dropEvent p tide replay b) :=
  .ite (.refl s) (s.raiseTide_repairOnly _ _ _ _ _ _ _)

end Sys2Proof.Machine
end

section
/-!
SUPPORT. The run of a partition: what the events at a tide's end, its settings, its closing streams and a completed command leave
alone of a partition and of the job; what a replay and the end of a run make of it.
-/

namespace Sys2Proof.Machine

/-! The same run -/

/-- A partition without what the events at a tide's end clear, the settings that a boundary brings into effect, and its
completion records. -/
def Partition.bare (q : Partition) : Partition :=
  { q with bwWest := {}, bwEast := {}, canaryEn := false, canaryInterval := 0, observeTides := 0, canaryNext := none,
           observeNext := [], completions := [], unreserved := 0 }

/-- The job without its drumbeat at hand and the stops asked for. -/
def Job.bare (j : Job) : Job := { j with beat := false, stopWanted := false, endWanted := false }

/-- Every partition's run and the job stand as before. -/
structure SameRun (s t : State) : Prop where
  job : t.job.bare = s.job.bare
  parts : ∀ p, (t.part p).bare = (s.part p).bare

theorem SameRun.refl (s : State) : SameRun s s := ⟨rfl, fun _ => rfl⟩

theorem SameRun.trans {s t u : State} (h : SameRun s t) (k : SameRun t u) : SameRun s u :=
  ⟨k.job.trans h.job, fun p => (k.parts p).trans (h.parts p)⟩

theorem SameRun.ite {s t u : State} {b : Prop} [Decidable b] (h : SameRun s t) (k : SameRun s u) :
    SameRun s (if b then t else u) := by split <;> assumption

theorem SameRun.of_eq {s t : State} (hj : t.job.bare = s.job.bare) (hp : t.parts = s.parts) : SameRun s t :=
  ⟨hj, fun p => by rw [State.part, hp, State.part]⟩

theorem Remaps.sameRun {s t : State} (h : Remaps s t) : SameRun s t := .of_eq (by rw [h.job]) h.parts

theorem RepairOnly.sameRun {s t : State} (h : RepairOnly s t) : SameRun s t := h.remaps.sameRun

theorem EventOnly.sameRun {s t : State} (h : EventOnly s t) : SameRun s t := .of_eq (by rw [h.job]) h.parts

theorem each_sameRun {α : Type} {f : α → State → State} (h : ∀ a t, SameRun t (f a t)) (l : List α) (s : State) :
    SameRun s (each l f s) :=
  each_induction (P := SameRun s) (fun a t ht => ht.trans (h a t)) l s (SameRun.refl s)

/-- What does not read the fields left out is as before. -/
theorem SameRun.field {s t : State} (h : SameRun s t) {α : Type} {g : Partition → α} (hg : ∀ q : Partition, g q.bare = g q) (p : Nat) :
    g (t.part p) = g (s.part p) := by rw [← hg (t.part p), h.parts, hg]

theorem SameRun.jobField {s t : State} (h : SameRun s t) {α : Type} {g : Job → α} (hg : ∀ j : Job, g j.bare = g j) :
    g t.job = g s.job := by rw [← hg t.job, h.job, hg]

theorem SameRun.sameWaits {s t : State} (h : SameRun s t) : SameWaits s t :=
  ⟨h.jobField (g := Job.leaveMbx) fun _ => rfl, h.field (g := Partition.enableHeld) fun _ => rfl⟩

theorem State.modPart_sameRun (s : State) (p : Nat) {f : Partition → Partition} (hf : ∀ y : Partition, (f y).bare = y.bare) :
    SameRun s (s.modPart p f) := by
  refine ⟨rfl, fun j => ?_⟩
  by_cases hj : j = p
  · subst hj
    rw [State.modPart_part_self, hf]
  · rw [State.modPart_part_ne _ _ hj]

/-! What keeps the run -/

theorem State.endEvents_sameRun (s : State) (p tide : Nat) (replay : Bool) : SameRun s (s.endEvents p tide replay) := by
  unfold State.endEvents
  simp only
  refine SameRun.trans ?_ (State.modPart_sameRun _ _ fun _ => rfl)
  refine RepairOnly.sameRun ?_
  refine RepairOnly.trans ?_ (State.dropEvent_repairOnly _ _ _ _ _)
  refine RepairOnly.trans ?_ (State.dropEvent_repairOnly _ _ _ _ _)
  exact each_repairOnly (fun t v => v.tileEnd_repairOnly p tide replay _ t) _ _

theorem State.abandonEvents_sameRun (s : State) (p : Nat) : SameRun s (s.abandonEvents p) :=
  .ite (s.endEvents_sameRun _ _ _) (.refl s)

theorem State.applyCache_sameRun (s : State) (p : Nat) : SameRun s (s.applyCache p) := .ite (.of_eq rfl rfl) (.refl s)

theorem State.settleCanary_sameRun (s : State) (p : Nat) : SameRun s (s.settleCanary p) := by
  unfold State.settleCanary
  refine (State.modPart_sameRun s p fun y => ?_).trans (each_sameRun (fun e v => (v.setObserve_repairOnly _ _).sameRun) _ _)
  cases h : y.canaryNext <;> rfl

theorem State.closeOut_sameRun (s : State) (n : Nat) (covered : Bool) : SameRun s (s.closeOut n covered) := by
  unfold State.closeOut
  simp only
  refine .ite (SameRun.trans (t := s.modStream n fun y => { y with closedWritten := true }) (.of_eq rfl rfl) ?_) (.refl s)
  split
  · exact .refl _
  · exact .ite (.refl _) (State.modPart_sameRun _ _ fun _ => rfl)

theorem State.finish_job (s : State) (n st : Nat) (resp buf : List Byte) (d o : Nat) :
    (s.finish n st resp buf d o).job = s.job := by
  cases h : (s.mb n).done with
  | true =>
    have hsame : s.finish n st resp buf d o = s := by
      unfold State.finish
      exact if_pos h
    rw [hsame]
  | false =>
    rw [State.finish_eventOnly h]
    rfl

theorem State.finish_sameRun (s : State) (n st : Nat) (resp buf : List Byte) (d o : Nat) :
    SameRun s (s.finish n st resp buf d o) := .of_eq (by rw [State.finish_job]) (State.finish_parts _ _ _ _ _ _ _)

theorem State.okHeld_sameRun (s : State) (m : Option Nat) (resp : List Byte) : SameRun s (s.okHeld m resp) := by
  cases m with
  | none => exact .refl s
  | some n => exact State.finish_sameRun _ _ _ _ _ _ _

theorem State.freqApplied_sameRun (s : State) : SameRun s s.freqApplied := by
  unfold State.freqApplied
  split
  · exact .refl s
  · exact SameRun.trans (t := { s with freqWait := none }) (.of_eq rfl rfl) (State.finish_sameRun _ _ _ _ _ _ _)

theorem State.writeTables_sameRun (s : State) (p tide : Nat) (adm : List Admit) : SameRun s (s.writeTables p tide adm) := by
  have h := s.writeTables_sendsOnly p tide adm
  exact .of_eq (by rw [h]) (by rw [h])

theorem State.dropStops_sameRun (s : State) : SameRun s s.dropStops := .ite (.of_eq rfl rfl) (.refl s)

/-- With nothing that waits for the end of a run, a FREQ_STEP_SET alone goes on. -/
theorem State.goOn_eq {s : State} (h : s.NothingWaits) : s.goOn = if s.runningParts.isEmpty then s.freqApplied else s := by
  unfold State.goOn
  simp only
  generalize hv : (if s.runningParts.isEmpty then s.freqApplied else s) = v
  have hkept : SameRun s v := hv ▸ .ite s.freqApplied_sameRun (.refl s)
  have hw := hkept.sameWaits.nothingWaits h
  have heach : each (List.range 8) (fun p st => st.actHeld p) v = v :=
    each_induction (P := fun w => w = v) (fun p w hwv => by rw [hwv, State.actHeld_none (hw.2 p)]) _ _ rfl
  rw [heach, State.leaveIfStopped_none hw.1]

theorem State.goOn_sameRun {s : State} (h : s.NothingWaits) : SameRun s s.goOn := by
  rw [State.goOn_eq h]
  exact .ite s.freqApplied_sameRun (.refl s)

theorem State.waitProfile_repairOnly (s : State) (p : Nat) : RepairOnly s (s.waitProfile p) :=
  RepairOnly.trans (.ite (.refl s) (each_repairOnly (fun _ v => v.raiseDev_repairOnly _ _ _ _) _ _))
    (each_repairOnly (fun _ v => v.modTile_repairOnly _ _) _ _)

theorem State.commitEvents_repairOnly (s : State) (p tide : Nat) (replay : Bool) : RepairOnly s (s.commitEvents p tide replay) := by
  unfold State.commitEvents
  simp only
  refine RepairOnly.trans (RepairOnly.trans ?_ (.ite (State.raiseTide_repairOnly _ _ _ _ _ _ _ _) (.refl _))) (.ite ?_ (.refl _))
  · exact .ite (s.raiseTide_repairOnly _ _ _ _ _ _ _) (.refl s)
  · exact (State.raiseTide_repairOnly _ _ _ _ _ _ _ _).trans (State.waitProfile_repairOnly _ _)

theorem State.countObserved_repairOnly (s : State) (p : Nat) : RepairOnly s (s.countObserved p) := by
  refine each_repairOnly (fun o v => ?_) _ _
  split
  · exact .refl v
  · refine .ite (.refl v) (RepairOnly.trans (v.observed_repairOnly _) (.ite (State.endObserve_repairOnly _ _ _ _) (.refl _)))

theorem State.readConsumer_sameRun (s : State) (p : Nat) : SameRun s (s.readConsumer p) := .ite (.refl s) (.of_eq rfl rfl)

/-! A replay, and the end of a run (R222, R224) -/

/-- A partition that awaits its replay has the tide and the admission it had, and one more replay. -/
theorem State.awaitReplay_waits (s : State) (p : Nat) : SameWaits s (s.awaitReplay p) ∧
    ((s.awaitReplay p).part p).st = .open_ ∧ ((s.awaitReplay p).part p).awaiting = true ∧
    ((s.awaitReplay p).part p).replaying = true ∧ ((s.awaitReplay p).part p).replays = (s.part p).replays + 1 ∧
    ((s.awaitReplay p).part p).admitted = (s.part p).admitted ∧ ((s.awaitReplay p).part p).tide = (s.part p).tide := by
  unfold State.awaitReplay
  simp only
  generalize hv : (if (s.part p).admitTide ≠ some (s.part p).tide then
      (s.abandonEvents p).writeTables p (s.part p).tide (s.part p).admitted
    else if (s.part p).tablesDue then s.abandonEvents p
      else (s.abandonEvents p).writeTables p (s.part p).tide (s.part p).nextAdmitted) = v
  have hkept : SameRun s v := by
    rw [← hv]
    exact (s.abandonEvents_sameRun p).trans
      (.ite (State.writeTables_sameRun _ _ _ _) (.ite (.refl _) (State.writeTables_sameRun _ _ _ _)))
  refine ⟨hkept.sameWaits.trans (v.modPart_sameWaits p fun y => by split <;> rfl), ?_⟩
  rw [State.modPart_part_self]
  refine ⟨rfl, rfl, rfl, congrArg (· + 1) (hkept.field (g := Partition.replays) (fun _ => rfl) p), ?_, ?_⟩
  · rw [← hkept.field (g := Partition.admitted) (fun _ => rfl) p]
    split <;> rfl
  · rw [← hkept.field (g := Partition.tide) (fun _ => rfl) p]
    split <;> rfl

/-- What the end of a run leaves of partition `p`: LOADED, with no stop asked for and the tide it had; no command that waits
for the end of a run comes or goes. -/
structure RunEnds (s : State) (p : Nat) (t : State) : Prop where
  waits : SameWaits s t
  st : (t.part p).st = .loaded
  stopPending : (t.part p).stopPending = false
  single : (t.part p).single = none
  tide : (t.part p).tide = (s.part p).tide

theorem RunEnds.then_same {s t u : State} {p : Nat} (h : RunEnds s p t) (k : SameRun t u) : RunEnds s p u where
  waits := h.waits.trans k.sameWaits
  st := (k.field (g := Partition.st) (fun _ => rfl) p).trans h.st
  stopPending := (k.field (g := Partition.stopPending) (fun _ => rfl) p).trans h.stopPending
  single := (k.field (g := Partition.single) (fun _ => rfl) p).trans h.single
  tide := (k.field (g := Partition.tide) (fun _ => rfl) p).trans h.tide

/-- The command that waited, if one did, is answered. -/
theorem RunEnds.answered {s v : State} {p : Nat} (h : RunEnds s p v) (m : Option Nat) (f : Nat → State)
    (hf : ∀ n, SameRun v (f n)) : RunEnds s p (match m with
      | none => v
      | some n => f n) := by
  cases m with
  | none => exact h
  | some n => exact h.then_same (hf n)

theorem State.toLoaded_ends (s : State) (p action field tide : Nat) : RunEnds s p (s.toLoaded p action field tide) := by
  unfold State.toLoaded
  simp only
  refine RunEnds.answered ?_ _ _ fun m => .ite (State.finish_sameRun _ _ _ _ _ _ _) (State.finish_sameRun _ _ _ _ _ _ _)
  refine RunEnds.answered ?_ _ _ fun m => .ite (State.finish_sameRun _ _ _ _ _ _ _) (State.finish_sameRun _ _ _ _ _ _ _)
  refine RunEnds.then_same ?_ (State.okHeld_sameRun _ _ _)
  refine RunEnds.then_same ?_ (each_sameRun (fun n v => v.closeOut_sameRun n false) _ _)
  refine RunEnds.then_same ?_ (State.settleCanary_sameRun _ _)
  refine RunEnds.then_same ?_ (State.applyCache_sameRun _ _)
  refine RunEnds.then_same ?_ (.ite (State.dropStops_sameRun _) (.refl _))
  generalize hv : (if action = 0 then State.raiseTide (s.abandonEvents p) _ _ _ _ _ _ _
    else State.canaryOutcome (State.raiseTide (s.abandonEvents p) _ _ _ _ _ _ _) p) = v
  have hkept : SameRun s v := by
    rw [← hv]
    exact ((s.abandonEvents_sameRun p).trans (State.raiseTide_eventOnly _ _ _ _ _ _ _ _).sameRun).trans
      (.ite (.refl _) (State.canaryOutcome_remaps _ _).sameRun)
  have htide : (v.part p).tide = (s.part p).tide := hkept.field (g := Partition.tide) (fun _ => rfl) p
  refine ⟨hkept.sameWaits.trans (v.modPart_sameWaits p fun _ => rfl), ?_, ?_, ?_, ?_⟩ <;> rw [State.modPart_part_self]
  exact htide

end Sys2Proof.Machine
end

section
/-!
SUPPORT. Recovery and the stop point (`Obligations.RecoveryAndStopPoint`).
-/

namespace Sys2Proof.Machine

theorem exec_recovery (s : State) (p : Nat) : exec (.recovery p) s = execRecovery p s := rfl
theorem exec_recoveryComplete (s : State) (p : Nat) : exec (.recoveryComplete p) s = execRecoveryComplete p s := rfl
theorem exec_stopPoint (s : State) (p : Nat) : exec (.stopPoint p) s = execStopPoint p s := rfl

/-- The repairs leave no repair. -/
theorem State.repairAll_part_repairLeft (s : State) (p : Nat) : ((s.repairAll p).part p).repairLeft = false := by
  unfold State.repairAll
  simp only [State.modPart_part_self]
  rfl

/-- A recovery that nothing stops clears the cause. -/
theorem State.recovery_next {s v : State} {p : Nat} (hst : (s.part p).st = .recovering)
    (hv : (if (s.part p).repairLeft then s.repairAll p else s) = v) (hstop : v.recoveryStop p = none) :
    exec (.recovery p) s = .next (v.modPart p fun q => { q with cause := none }) := by
  rw [exec_recovery, execRecovery, if_neg (not_not.mpr hst)]
  simp only [hv, hstop]

/-- A stop at its stop point ends the run. -/
theorem State.stopPoint_ends {s : State} {p : Nat} (hheld : s.nothingHeld) (hat : s.atStopPoint p = true) :
    ∃ s', exec (.stopPoint p) s = .next s' ∧ RunEnds s p s' := by
  obtain ⟨hhold, hleave, -⟩ := hheld
  rw [exec_stopPoint, execStopPoint, if_pos hat]
  have hends := s.toLoaded_ends p 0
    (causeField none (if (s.part p).st = .boundary then (s.part p).lastReplays else (s.part p).replays - 1))
    (if (s.part p).st = .boundary then (s.part p).lastCommitted else (s.part p).tide)
  exact ⟨_, rfl, hends.then_same (State.goOn_sameRun (hends.waits.nothingWaits ⟨hleave, hhold⟩))⟩

/-- Settles O26: the repairs of a recovery and its end one by one; a stop point ends the run as `State.toLoaded` does. -/
theorem recoveryAndStopPoint : Obligations.RecoveryAndStopPoint := by
  intro s p hj hheld
  refine ⟨?_, ?_, ?_, ?_, ?_, ?_⟩
  · intro hst hleft hstop
    exact ⟨State.recovery_next hst (if_pos hleft) hstop, s.repairAll_part_repairLeft p⟩
  · intro hst hleft hstop
    exact State.recovery_next hst (if_neg (by simp [hleft])) hstop
  · intro hst hleft hc hstop hresets htrip hrec
    have hwaits := (s.awaitReplay_waits p).2
    refine ⟨s.awaitReplay p, ?_, hwaits⟩
    rw [exec_recoveryComplete, execRecoveryComplete]
    simp [hst, hleft, hc, hstop, hresets, htrip, hrec, hj]
  · intro hst hc htime hstop
    have hat : s.atStopPoint p = true := by
      simp only [State.atStopPoint, hj, hst, hc, htime]
      obtain h | h := hstop
      · simp [h]
      · simp [Option.isSome_iff_ne_none.mpr h]
    obtain ⟨s', hnext, hends⟩ := State.stopPoint_ends hheld hat
    exact ⟨s', hnext, hends.st, hends.stopPending, hends.single⟩
  · intro hst hawait hreplay hstop
    have hat : s.atStopPoint p = true := by simp [State.atStopPoint, hj, hst, hawait, hreplay, hstop]
    obtain ⟨s', hnext, hends⟩ := State.stopPoint_ends hheld hat
    exact ⟨s', hnext, hends.st, hends.stopPending, hends.tide⟩
  · intro hst hstop hsingle
    have hat : s.atStopPoint p = false := by simp [State.atStopPoint, hj, hst, hstop, hsingle]
    rw [exec_stopPoint, execStopPoint]
    simp [hat]

end Sys2Proof.Machine
end

section
/-!
SUPPORT. Records sent in the drumbeat tree, what the partitions of a job do on a record of its root, and the members of a job
(`Obligations.TreeAndMemberRecordsDown`).
-/

namespace Sys2Proof.Machine

theorem exec_drumbeat (s : State) (tide start step : Nat) (replay stop : Bool) :
    exec (.drumbeat tide start step replay stop) s = execDrumbeat tide start step replay stop s := rfl
theorem exec_confirm (s : State) (tide instant : Nat) (gone : Bool) (c : Cause) :
    exec (.confirm tide instant gone c) s = execConfirm tide instant gone c s := rfl
theorem exec_action (s : State) (tide act kind : Nat) (c : Cause) :
    exec (.action tide act kind c) s = execAction tide act kind c s := rfl
theorem exec_member (s : State) (rank st : Nat) : exec (.member rank st) s = execMember rank st s := rfl

/-! Records sent (R333, R334) -/

/-- The four copies of a record as port `q` sends them. -/
def State.copies (s : State) (q : Nat) (r : TreeRec) : List HFlit :=
  [0, 1, 2, 3].map fun c => ({ type := 2, src := s.job.rank, dst := (s.hport q).farRank, recs := [(c, r)] } : HFlit)

theorem State.queueRec_sendsOnly (s : State) (q : Nat) (r : TreeRec) : SendsOnly s (s.queueRec q r) := rfl

theorem State.sendDown_sendsOnly (s : State) (r : TreeRec) : SendsOnly s (s.sendDown r) :=
  each_sendsOnly (fun q v => v.queueRec_sendsOnly q r) _ _

theorem State.sendUp_sendsOnly (s : State) (r : TreeRec) : SendsOnly s (s.sendUp r) := by
  unfold State.sendUp
  split
  · rfl
  · exact s.queueRec_sendsOnly _ _

theorem State.queueRec_hport_self (s : State) (q : Nat) (r : TreeRec) :
    (s.queueRec q r).hport q = { s.hport q with urgent := (s.hport q).urgent ++ s.copies q r } := State.modHport_hport_self _ _ _

theorem State.queueRec_hport_ne (s : State) {q j : Nat} (r : TreeRec) (h : j ≠ q) : (s.queueRec q r).hport j = s.hport j :=
  State.modHport_hport_ne _ _ h

theorem each_queueRec_hport_of_not_mem (r : TreeRec) {q : Nat} (l : List Nat) (s : State) (h : q ∉ l) :
    (each l (fun q st => st.queueRec q r) s).hport q = s.hport q := by
  induction l generalizing s with
  | nil => rfl
  | cons a l ih =>
    obtain ⟨hne, hl⟩ := not_or.mp (mt List.mem_cons.mpr h)
    have hcons : each (a :: l) (fun q st => st.queueRec q r) s = each l (fun q st => st.queueRec q r) (s.queueRec a r) := rfl
    rw [hcons, ih _ hl, State.queueRec_hport_ne _ _ hne]

/-- Each port of a list without repetition sends the record once. -/
theorem each_queueRec_hport_of_mem (r : TreeRec) {q : Nat} (l : List Nat) (s : State) (hnd : l.Nodup) (h : q ∈ l) :
    (each l (fun q st => st.queueRec q r) s).hport q =
      { s.hport q with urgent := (s.hport q).urgent ++ s.copies q r } := by
  induction l generalizing s with
  | nil => exact absurd h List.not_mem_nil
  | cons a l ih =>
    obtain ⟨ha, hl⟩ := List.nodup_cons.mp hnd
    have hcons : each (a :: l) (fun q st => st.queueRec q r) s = each l (fun q st => st.queueRec q r) (s.queueRec a r) := rfl
    rw [hcons]
    by_cases hq : q = a
    · subst hq
      rw [each_queueRec_hport_of_not_mem r l _ ha, State.queueRec_hport_self]
    · have hport := s.queueRec_hport_ne r hq
      have hcopies : (s.queueRec a r).copies q r = s.copies q r := by rw [State.copies, hport, State.copies]; rfl
      rw [ih _ hl ((List.mem_cons.mp h).resolve_left hq), hport, hcopies]

theorem Job.childPorts_nodup (b : Job) : b.childPorts.Nodup := (List.nodup_range.filter _).filter _

theorem State.sendDown_hport_of_child {s : State} {q : Nat} (h : q ∈ s.job.childPorts) (r : TreeRec) :
    (s.sendDown r).hport q = { s.hport q with urgent := (s.hport q).urgent ++ s.copies q r } :=
  each_queueRec_hport_of_mem r _ s s.job.childPorts_nodup h

/-- Sending changes the queue of urgent flits of a port alone. -/
theorem State.sendDown_hport (s : State) (r : TreeRec) (q : Nat) : ∃ l, (s.sendDown r).hport q = { s.hport q with urgent := l } := by
  by_cases h : q ∈ s.job.childPorts
  · exact ⟨_, s.sendDown_hport_of_child h r⟩
  · exact ⟨_, each_queueRec_hport_of_not_mem r _ s h⟩

theorem SendsOnly.sameRun {s t : State} (h : SendsOnly s t) : SameRun s t := .of_eq (by rw [h]) (by rw [h])
theorem EventOnly.part {s t : State} (h : EventOnly s t) (p : Nat) : t.part p = s.part p := by rw [h]; rfl
theorem SendsOnly.jobParts {s t : State} (h : SendsOnly s t) : t.jobParts = s.jobParts := by rw [h]; rfl
theorem SendsOnly.job {s t : State} (h : SendsOnly s t) : t.job = s.job := by rw [h]
theorem SendsOnly.eventCount {s t : State} (h : SendsOnly s t) : t.eventCount = s.eventCount := by rw [h]

theorem State.jobTide_of_jobParts {s : State} {p : Nat} (h : s.jobParts = [p]) : s.jobTide = (s.part p).tide := by
  rw [State.jobTide, h]

/-! A partition changed for each of a list (R212) -/

/-- A change that changes nothing the second time is made once. -/
theorem each_modPart_part {f : Partition → Partition} (hf : ∀ x, f (f x) = f x) (j : Nat) (l : List Nat) (s : State) :
    (each l (fun p st => st.modPart p f) s).part j = if j ∈ l then f (s.part j) else s.part j := by
  induction l generalizing s with
  | nil => rfl
  | cons a l ih =>
    have hcons : each (a :: l) (fun p st => st.modPart p f) s = each l (fun p st => st.modPart p f) (s.modPart a f) := rfl
    rw [hcons, ih]
    by_cases hj : j = a
    · subst hj
      simp [hf]
    · rw [State.modPart_part_ne _ _ hj]
      simp [hj]

/-! The commit of a tide (R217) -/

theorem State.commitTide_part (s : State) (p c : Nat) : ((s.commitTide p c).part p).st = .boundary ∧
    ((s.commitTide p c).part p).tide = ((s.part p).tide + 1) % 2 ^ 48 ∧ ((s.commitTide p c).part p).commitT = c := by
  unfold State.commitTide
  simp only
  generalize hv : (State.modPart _ p fun y => { y with st := .boundary, commitTs := _, tierRan := false, streamActed := 0 }) = v
  have hv' : (v.part p).st = .boundary ∧ (v.part p).commitT = c := by
    rw [← hv, State.modPart_part_self, State.modPart_part_self]
    exact ⟨rfl, rfl⟩
  generalize hw : State.readConsumer _ p = w
  have hkept : SameRun v w := by
    rw [← hw]
    refine SameRun.trans ?_ (State.readConsumer_sameRun _ _)
    refine SameRun.trans ?_ (each_sameRun (fun t u => (u.modTile_repairOnly t _).sameRun) _ _)
    exact (State.endEvents_sameRun _ _ _ _).trans
      ((State.commitEvents_repairOnly _ _ _ _).sameRun.trans (State.countObserved_repairOnly _ _).sameRun)
  rw [State.modPart_part_self]
  refine ⟨?_, rfl, ?_⟩
  · exact (hkept.field (g := Partition.st) (fun _ => rfl) p).trans hv'.1
  · exact (hkept.field (g := Partition.commitT) (fun _ => rfl) p).trans hv'.2

theorem State.releaseFaults_eventOnly (s : State) (c : Option Nat) : EventOnly s (s.releaseFaults c) :=
  each_induction (P := EventOnly s) (fun _ _ ht => ht.trans (State.raiseRec_eventOnly _ _ _)) _ _ rfl

theorem State.commitJob_part {s : State} {p : Nat} (hparts : s.jobParts = [p]) (hst : (s.part p).st = .closing) (instant : Nat) :
    ((s.commitJob instant).part p).st = .boundary ∧ ((s.commitJob instant).part p).tide = ((s.part p).tide + 1) % 2 ^ 48 ∧
      ((s.commitJob instant).part p).commitT = (instant - s.tsStep) * nsUnits := by
  unfold State.commitJob
  simp only
  generalize hv : ({ s with job := _ } : State) = v
  have hfilter : (v.jobParts.filter fun p => decide ((v.part p).st = .closing)) = [p] := by
    have hpart : (v.part p).st = .closing := by rw [← hv]; exact hst
    have hlist : v.jobParts = [p] := by rw [← hv]; exact hparts
    rw [hlist]
    simp [hpart]
  rw [hfilter]
  have hone : each [p] (fun p st => st.commitTide p ((instant - st.tsStep) * nsUnits)) v
      = v.commitTide p ((instant - v.tsStep) * nsUnits) := rfl
  rw [hone, (State.releaseFaults_eventOnly _ _).part]
  have hcommit := v.commitTide_part p ((instant - v.tsStep) * nsUnits)
  rw [← hv] at hcommit ⊢
  exact hcommit

/-! The abandon of a tide in the job (R218) -/

theorem State.discardTag_repairOnly (s : State) (t : TileId) (n : Nat) : RepairOnly s (s.discardTag t n) := by
  unfold State.discardTag
  simp only
  refine RepairOnly.trans (RepairOnly.trans ?_ (State.modTile_repairOnly _ t _)) (State.modTile_repairOnly _ t _)
  exact (s.used_repairOnly _).trans (each_repairOnly (fun _ v => v.modTile_repairOnly _ _) _ _)

theorem State.loseQueue_repairOnly (s : State) (out : List Packet) (t : TileId) (n : Nat) : RepairOnly s (s.loseQueue out t n) := by
  unfold State.loseQueue
  dsimp only
  split
  · exact .refl s
  · exact s.modTile_repairOnly t _

theorem State.loseQueues_repairOnly (s : State) (p : Nat) : RepairOnly s (s.loseQueues p) := by
  unfold State.loseQueues
  refine RepairOnly.trans ?_ (each_repairOnly (fun t v => v.modTile_repairOnly t _) _ _)
  exact each_repairOnly (fun t v => each_repairOnly (fun n w => w.loseQueue_repairOnly _ t n) _ v) _ _

theorem State.dropInMesh_sameRun (s : State) (p : Nat) : SameRun s (s.dropInMesh p) := .of_eq rfl rfl
theorem State.unpin_sameRun (s : State) (p : Nat) : SameRun s (s.unpin p) := .of_eq rfl rfl
theorem State.abandonBeat_sameRun (s : State) : SameRun s s.abandonBeat := .of_eq rfl rfl

/-- A partition that begins its abandon has the tide it had, and the job stands but for its drumbeat. -/
theorem State.beginAbandon_begins (s : State) (p : Nat) : (s.beginAbandon p).job.bare = s.job.bare ∧
    ((s.beginAbandon p).part p).st = .abandoning ∧ ((s.beginAbandon p).part p).tide = (s.part p).tide := by
  unfold State.beginAbandon
  simp only
  generalize hv : (if (s.part p).inJob then State.abandonBeat _ else _) = v
  have hkept : SameRun s v := by
    rw [← hv]
    refine SameRun.trans ?_ (.ite (State.abandonBeat_sameRun _) (.refl _))
    refine SameRun.trans ?_ (State.loseQueues_repairOnly _ _).sameRun
    refine SameRun.trans ?_ ((State.dropInMesh_sameRun _ _).trans (State.unpin_sameRun _ _))
    refine SameRun.trans ?_ (each_sameRun (fun t v => (v.modTile_repairOnly t _).sameRun) _ _)
    refine SameRun.trans ?_ (each_sameRun (fun t v => each_sameRun (fun n w => (w.discardTag_repairOnly t n).sameRun) _ v) _ _)
    exact (State.releaseFaults_eventOnly _ _).sameRun.trans (State.takeCapture_eventOnly _ _ _).sameRun
  have htide : (v.part p).tide = (s.part p).tide := hkept.field (g := Partition.tide) (fun _ => rfl) p
  rw [State.modPart_part_self]
  exact ⟨hkept.job, rfl, htide⟩

/-- The one partition of the job, whose tide runs, begins its abandon. -/
theorem State.abandonJob_one {s : State} {p : Nat} (hparts : s.jobParts = [p])
    (hst : (s.part p).st = .open_ ∨ (s.part p).st = .closing) : s.abandonJob = s.beginAbandon p := by
  have hlist : (s.jobParts.filter fun p => (s.part p).st ≠ .abandoning && (s.part p).st ≠ .recovering) = [p] := by
    obtain h | h := hst <;> simp [hparts, h]
  rw [State.abandonJob, hlist]
  rfl

/-! An action of the root (R339) -/

theorem State.actOnAbandon_eq (s : State) (p act stop : Nat) : s.actOnAbandon p act stop = match act with
    | 0 => (s.abandonCounted p act).awaitReplay p
    | 1 => (s.abandonCounted p act).modPart p fun y => { y with st := .recovering, cause := none }
    | _ => (s.abandonCounted p act).toLoaded p stop (causeField (s.part p).cause (s.part p).replays) (s.part p).tide := rfl

theorem State.actOnAbandon_sameWaits (s : State) (p act stop : Nat) : SameWaits s (s.actOnAbandon p act stop) := by
  refine (s.abandonCounted_sameWaits p act).trans ?_
  rw [State.actOnAbandon_eq]
  split
  · exact (State.awaitReplay_waits _ p).1
  · exact State.modPart_sameWaits _ p fun _ => rfl
  · exact (State.toLoaded_ends _ p stop _ _).waits

/-- A recovery keeps the tide. -/
theorem State.actOnAbandon_recovers (s : State) (p stop : Nat) : ((s.actOnAbandon p 1 stop).part p).st = .recovering ∧
    ((s.actOnAbandon p 1 stop).part p).tide = (s.part p).tide := by
  obtain ⟨l, hcounted⟩ := s.abandonCounted_part p 1
  have hpart : (s.actOnAbandon p 1 stop).part p = { (s.abandonCounted p 1).part p with st := .recovering, cause := none } :=
    State.modPart_part_self _ _ _
  rw [hpart, hcounted]
  exact ⟨rfl, rfl⟩

/-- A stop loads the partition, in a job too. -/
theorem State.actOnAbandon_loads (s : State) (p stop : Nat) : ((s.actOnAbandon p 2 stop).part p).st = .loaded :=
  ((s.abandonCounted p 2).toLoaded_ends p stop _ _).st

/-- A stop that stands leaves the course and the tide of the partition, but for its cause. -/
theorem State.keepStop_keeps (s : State) (p : Nat) (own : Option FaultCause) : SameWaits s (s.keepStop p own) ∧
    ((s.keepStop p own).part p).st = (s.part p).st ∧ ((s.keepStop p own).part p).awaiting = (s.part p).awaiting ∧
    ((s.keepStop p own).part p).replays = (s.part p).replays ∧ ((s.keepStop p own).part p).tide = (s.part p).tide := by
  cases own with
  | none => exact ⟨(SameRun.refl s).sameWaits, rfl, rfl, rfl, rfl⟩
  | some c =>
    refine ⟨s.modPart_sameWaits p fun _ => rfl, ?_⟩
    rw [State.keepStop, State.modPart_part_self]
    exact ⟨rfl, rfl, rfl, rfl⟩

/-- An action on the one partition of the job, which abandons: its abandon ends with the cause of the action. -/
theorem State.applyAction_one {s : State} {p : Nat} (hparts : s.jobParts = [p]) (hst : (s.part p).st = .abandoning)
    (act kind : Nat) (c : Cause) : ∃ (v : State) (stop : Nat) (own : Option FaultCause), SameWaits s v ∧ (∃ k, v.part p = { s.part p with cause := k }) ∧
      s.applyAction act kind c = (v.actOnAbandon p act stop).keepStop p own := by
  have hone : ∀ (f : Nat → State → State) (v : State), each [p] f v = f p v := fun _ _ => rfl
  have hnoted : ∀ j, (s.noteAction kind c).part j = s.part j := fun _ => rfl
  have hwaits : SameWaits s (s.noteAction kind c) :=
    ⟨rfl, fun j => congrArg Partition.enableHeld (hnoted j)⟩
  unfold State.applyAction
  simp only [hparts, hone, State.modPart_part_self, hnoted, hst]
  refine ⟨_, _, _, ?_, ?_, rfl⟩
  · exact hwaits.trans (State.modPart_sameWaits _ p fun _ => rfl)
  · rw [State.modPart_part_self, hnoted, ← hst]
    exact ⟨_, rfl⟩

section
variable {s : State} (hformed : s.job.formed = true) (hroot : s.isRoot = false)
include hformed hroot

/-- An ACTION on the one partition of the job, which abandons, leaves it as its abandon ends. -/
theorem State.action_acts (hheld : s.nothingHeld) {p : Nat} (hparts : s.jobParts = [p]) (hst : (s.part p).st = .abandoning)
    (act kind : Nat) (c : Cause) : ∃ (s' v : State) (stop : Nat), exec (.action (s.part p).tide act kind c) s = .next s' ∧
      (∃ k, v.part p = { s.part p with cause := k }) ∧
      (s'.part p).st = ((v.actOnAbandon p act stop).part p).st ∧
      (s'.part p).awaiting = ((v.actOnAbandon p act stop).part p).awaiting ∧
      (s'.part p).replays = ((v.actOnAbandon p act stop).part p).replays ∧
      (s'.part p).tide = ((v.actOnAbandon p act stop).part p).tide := by
  obtain ⟨hhold, hleave, -⟩ := hheld
  have hsent := s.sendDown_sendsOnly (.action (s.part p).tide act kind c)
  generalize hu : s.sendDown (.action (s.part p).tide act kind c) = u at hsent
  have hupart : u.part p = s.part p := hsent.part p
  obtain ⟨v, stop, own, hwaits, hcause, hact⟩ := State.applyAction_one (s := u) (hsent.jobParts.trans hparts)
    (by rw [hupart, hst]) act kind c
  obtain ⟨hstop, hst', hawait, hreplays, htide⟩ := (v.actOnAbandon p act stop).keepStop_keeps p own
  rw [← hact] at hstop hst' hawait hreplays htide
  have hnothing : (u.applyAction act kind c).NothingWaits :=
    (((hsent.sameRun.sameWaits.trans hwaits).trans (v.actOnAbandon_sameWaits p act stop)).trans hstop).nothingWaits ⟨hleave, hhold⟩
  have hon := State.goOn_sameRun hnothing
  refine ⟨(u.applyAction act kind c).goOn, v, stop, ?_, hupart ▸ hcause, ?_, ?_, ?_, ?_⟩
  · rw [exec_action, execAction, if_neg (by simp [hformed, hroot, State.jobTide_of_jobParts hparts]), hu]
  · exact (hon.field (g := Partition.st) (fun _ => rfl) p).trans hst'
  · exact (hon.field (g := Partition.awaiting) (fun _ => rfl) p).trans hawait
  · exact (hon.field (g := Partition.replays) (fun _ => rfl) p).trans hreplays
  · exact (hon.field (g := Partition.tide) (fun _ => rfl) p).trans htide

/-- A DRUMBEAT on a device that is not the root: its fields are taken, and it goes down the tree. -/
theorem State.drumbeat_next (tide start step : Nat) (stop : Bool) : exec (.drumbeat tide start step false stop) s =
    .next (each (s.jobParts.filter fun p => (s.part p).awaiting && !(s.part p).replaying)
      (fun p st => st.modPart p fun q => { q with tide := tide })
      (State.sendDown { s with job := { s.job.onBeat tide start step false stop with
        stopWanted := s.job.stopWanted && !stop } } (.drumbeat tide start step false stop))) := by
  rw [exec_drumbeat, execDrumbeat, if_neg (by simp [hformed])]
  simp only [hroot, Bool.false_and, Bool.false_eq_true, if_false]
  generalize hbeat : ({ s with job := _ } : State) = b
  have hparts : b.parts = s.parts := by rw [← hbeat]
  have hsent := b.sendDown_sendsOnly (.drumbeat tide start step false stop)
  have hjob : (b.sendDown (.drumbeat tide start step false stop)).jobParts = s.jobParts := by
    rw [hsent.jobParts, State.jobParts, hparts, State.jobParts]
  have hpart : ∀ p, (b.sendDown (.drumbeat tide start step false stop)).part p = s.part p := fun p => by
    rw [hsent.part, State.part, hparts, State.part]
  simp only [hjob, hpart]

/-- A committing CONFIRM commits the one partition of the job at its INSTANT. -/
theorem State.confirm_commits {p : Nat} (hparts : s.jobParts = [p]) (habandoned : s.job.abandoned = false)
    (hst : (s.part p).st = .closing) (instant : Nat) (c : Cause) :
    ∃ s', exec (.confirm (s.part p).tide instant false c) s = .next s' ∧ (s'.part p).st = .boundary ∧
      (s'.part p).tide = ((s.part p).tide + 1) % 2 ^ 48 ∧ (s'.part p).commitT = (instant - s.tsStep) * nsUnits := by
  have hsent := s.sendDown_sendsOnly (.confirm (s.part p).tide instant false c)
  obtain ⟨hgap, htide, hat⟩ := State.commitJob_part (hsent.jobParts.trans hparts) (by rw [hsent.part, hst]) instant
  rw [hsent.part] at htide
  refine ⟨_, ?_, hgap, htide, hat.trans (by rw [hsent])⟩
  rw [exec_confirm, execConfirm]
  simp [hformed, State.jobTide_of_jobParts hparts, habandoned, hroot]

/-- An abandoning CONFIRM makes the one partition of the job abandon. -/
theorem State.confirm_abandons {p : Nat} (hparts : s.jobParts = [p]) (habandoned : s.job.abandoned = false)
    (hst : (s.part p).st = .open_ ∨ (s.part p).st = .closing) (instant : Nat) (c : Cause) :
    ∃ s', exec (.confirm (s.part p).tide instant true c) s = .next s' ∧ (s'.part p).st = .abandoning ∧
      s'.job.abandoned = true ∧ s'.job.cause = c ∧ (s'.part p).tide = (s.part p).tide := by
  generalize hb : ({ s with job := { s.job with abandoned := true, cause := c } } : State) = b
  have hsent := b.sendDown_sendsOnly (.confirm (s.part p).tide instant true c)
  generalize hu : b.sendDown (.confirm (s.part p).tide instant true c) = u at hsent
  have hpart : u.part p = s.part p := by
    rw [hsent.part, ← hb]
    rfl
  have hlist : u.jobParts = [p] := by
    rw [hsent.jobParts, ← hb]
    exact hparts
  have hone : u.abandonJob = u.beginAbandon p := State.abandonJob_one hlist (by rw [hpart]; exact hst)
  obtain ⟨hjob, hbegun, hsame⟩ := u.beginAbandon_begins p
  rw [hsent.job, ← hb] at hjob
  refine ⟨u.beginAbandon p, ?_, hbegun, congrArg Job.abandoned hjob, congrArg Job.cause hjob, hsame.trans (by rw [hpart])⟩
  rw [exec_confirm, execConfirm, if_neg (by simp [hformed, State.jobTide_of_jobParts hparts, habandoned]), if_pos rfl,
    if_neg (by simp [hroot])]
  simp only [hb, hu, hone]

/-- A DRUMBEAT's effect on the partitions that wait for their run's first tide, and on the ports of the children. -/
theorem State.drumbeat_acts (tide start step : Nat) (stop : Bool) :
    ∃ s', exec (.drumbeat tide start step false stop) s = .next s' ∧
      s'.job = { s.job.onBeat tide start step false stop with stopWanted := s.job.stopWanted && !stop } ∧
      (∀ p, s'.part p = if p ∈ s.jobParts ∧ (s.part p).awaiting = true ∧ (s.part p).replaying = false
        then { s.part p with tide := tide } else s.part p) ∧
      (∀ q ∈ s.job.childPorts, (s'.hport q).urgent = (s.hport q).urgent ++ s.copies q (.drumbeat tide start step false stop)) := by
  refine ⟨_, State.drumbeat_next hformed hroot tide start step stop, ?_⟩
  generalize hb : ({ s with job := { s.job.onBeat tide start step false stop with
      stopWanted := s.job.stopWanted && !stop } } : State) = b
  have hsent := b.sendDown_sendsOnly (.drumbeat tide start step false stop)
  have hpart : ∀ p, (b.sendDown (.drumbeat tide start step false stop)).part p = s.part p := fun p => by
    rw [hsent.part, ← hb]
    rfl
  refine ⟨?_, fun p => ?_, fun q hq => ?_⟩
  · rw [each_eq (π := State.job) (fun p v => v.modPart_job p _), hsent.job, ← hb]
  · rw [each_modPart_part (f := fun q => { q with tide := tide }) fun _ => rfl, hpart]
    simp only [List.mem_filter, Bool.and_eq_true, Bool.not_eq_true']
  · have hchild : q ∈ b.job.childPorts := hb ▸ hq
    rw [State.hport, each_eq (π := State.hports) (fun p v => v.modPart_hports p _), ← State.hport,
      State.sendDown_hport_of_child hchild, ← hb]
    rfl

end

theorem treeRecordsDown : Claims.TreeRecordsDown := by
  intro s hformed hroot hheld
  refine ⟨fun tide start step stop => ?_, fun p instant c hparts habandoned => ?_, fun p kind c hparts hst => ⟨?_, ?_, ?_⟩⟩
  · obtain ⟨s', hnext, hjob, hpart, hports⟩ := State.drumbeat_acts hformed hroot tide start step stop
    refine ⟨s', hnext, by rw [hjob]; rfl, by rw [hjob]; rfl, by rw [hjob]; rfl, by rw [hjob]; rfl, by rw [hjob]; rfl,
      by rw [hjob]; rfl, by rw [hjob]; rfl, by rw [hjob]; rfl, fun p => ?_, hports⟩
    rw [hpart]
    refine ⟨by split <;> rfl, fun hawait => if_neg ?_, fun hp hawait hreplay => ?_⟩
    · simp [hawait]
    · rw [if_pos ⟨hp, hawait, hreplay⟩]
  · exact ⟨fun hst => State.confirm_commits hformed hroot hparts habandoned hst instant c,
      fun hst => State.confirm_abandons hformed hroot hparts habandoned hst instant c⟩
  · obtain ⟨s', v, stop, hnext, ⟨k, hv⟩, hst', hawait, hreplays, -⟩ :=
      State.action_acts hformed hroot hheld hparts hst 0 kind c
    obtain ⟨k, -, hcourse⟩ := v.actOnAbandon_replay p stop
    obtain ⟨h1, h2, -, h4, -⟩ := Partition.of_course hcourse
    exact ⟨s', hnext, hst'.trans h1, hawait.trans h2, hreplays.trans (h4.trans (by rw [hv]))⟩
  · obtain ⟨s', v, stop, hnext, ⟨k, hv⟩, hst', -, -, htide⟩ :=
      State.action_acts hformed hroot hheld hparts hst 1 kind c
    obtain ⟨h1, h2⟩ := v.actOnAbandon_recovers p stop
    exact ⟨s', hnext, hst'.trans h1, htide.trans (h2.trans (by rw [hv]))⟩
  · obtain ⟨s', v, stop, hnext, -, hst', -⟩ := State.action_acts hformed hroot hheld hparts hst 2 kind c
    exact ⟨s', hnext, hst'.trans (v.actOnAbandon_loads p stop)⟩

/-! Links that are lost (R351, R352) -/

/-- A fault of the job is an event, and a cause in its partitions. -/
theorem State.jobFault_keeps (s : State) (code sev unit payload : Nat) (kind : FaultKind) (act : Nat) :
    (s.jobFault code sev unit payload kind act).job = s.job ∧ (s.jobFault code sev unit payload kind act).hports = s.hports := by
  unfold State.jobFault
  simp only
  rw [each_eq (π := State.job) (fun p v => v.addCause_job p _), each_eq (π := State.hports) (fun p v => v.addCause_hports p _),
    State.raiseFault_eventOnly]
  exact ⟨rfl, rfl⟩

/-- The ports after the link of port `q` is down. -/
theorem State.linkDown_hport (s : State) (q cause j : Nat) : (s.linkDown q cause).hport j = if j = q then
    { s.hport q with up := false, greeted := false, named := false,
                     absorbing := (s.hport q).absorbing || (s.job.formed && s.job.needsPort q) }
    else s.hport j := by
  have hports : (s.linkDown q cause).hports = (s.modHport q fun x => { x with
      up := false, greeted := false, named := false, absorbing := x.absorbing || (s.job.formed && s.job.needsPort q) }).hports := by
    unfold State.linkDown
    simp only
    split
    · rw [(State.jobFault_keeps _ _ _ _ _ _ _).2]
      split <;> rfl
    · exact State.raiseDev_hports _ _ _ _ _
  rw [State.hport, hports, ← State.hport]
  by_cases h : j = q
  · subst h
    rw [State.modHport_hport_self, if_pos rfl]
  · rw [State.modHport_hport_ne _ _ h, if_neg h]

/-- What a lost link leaves of the job: where its members lie and which have left. -/
structure Job.SameMembers (a b : Job) : Prop where
  formed : b.formed = a.formed
  away : b.away = a.away
  needs : ∀ q, b.needsPort q = a.needsPort q

theorem Job.SameMembers.refl (a : Job) : a.SameMembers a := ⟨rfl, rfl, fun _ => rfl⟩

theorem Job.SameMembers.trans {a b c : Job} (h : a.SameMembers b) (k : b.SameMembers c) : a.SameMembers c :=
  ⟨k.formed.trans h.formed, k.away.trans h.away, fun q => (k.needs q).trans (h.needs q)⟩

/-- The job after the link of port `q` is down: broken where the neighbour is a member that has not left. -/
theorem State.linkDown_job (s : State) (q cause : Nat) : s.job.SameMembers (s.linkDown q cause).job ∧
    (s.linkDown q cause).job.broken = (s.job.broken || (s.job.formed && s.job.needsPort q && !(s.job.away.contains (s.hport q).farRank))) := by
  unfold State.linkDown
  simp only
  generalize hv : s.modHport q _ = v
  have hjob : v.job = s.job := by rw [← hv]; rfl
  have hfar : (v.hport q).farRank = (s.hport q).farRank := by rw [← hv, State.modHport_hport_self]
  rw [hjob, hfar]
  cases hf : s.job.formed && s.job.needsPort q with
  | false => exact ⟨by simp [hjob, Job.SameMembers.refl], by simp [hjob]⟩
  | true =>
    simp only [if_true, Bool.true_and]
    rw [(State.jobFault_keeps _ _ _ _ _ _ _).1]
    cases hgone : s.job.away.contains (s.hport q).farRank with
    | true =>
      refine ⟨⟨?_, ?_, fun r => ?_⟩, ?_⟩ <;> simp [State.lostLink, hjob, Job.needsPort]
    | false =>
      refine ⟨⟨?_, ?_, fun r => ?_⟩, ?_⟩ <;> simp [State.lostLink, State.ownClock, hjob, Job.needsPort]

/-- The members, and the ranks the ports face, are as they were. -/
def SameLinks (s t : State) : Prop := s.job.SameMembers t.job ∧ ∀ q, (t.hport q).farRank = (s.hport q).farRank

theorem State.linkDown_sameLinks (s : State) (q cause : Nat) : SameLinks s (s.linkDown q cause) := by
  refine ⟨(s.linkDown_job q cause).1, fun j => ?_⟩
  rw [State.linkDown_hport]
  split
  · next h => rw [h]
  · rfl

theorem SameLinks.refl (s : State) : SameLinks s s := ⟨.refl _, fun _ => rfl⟩

theorem SameLinks.trans {s t u : State} (h : SameLinks s t) (k : SameLinks t u) : SameLinks s u :=
  ⟨h.1.trans k.1, fun q => (k.2 q).trans (h.2 q)⟩

theorem SameLinks.symm {s t : State} (h : SameLinks s t) : SameLinks t s :=
  ⟨⟨h.1.formed.symm, h.1.away.symm, fun q => (h.1.needs q).symm⟩, fun q => (h.2 q).symm⟩

/-- The link of a needed port to a member that has not left, among links that go down together, breaks the job. -/
theorem each_linkDown {s : State} {q : Nat} {l : List Nat} (hq : q ∈ l) (cause : Nat) (hformed : s.job.formed = true)
    (hneeds : s.job.needsPort q = true) (haway : s.job.away.contains (s.hport q).farRank = false) :
    ((each l (fun q st => st.linkDown q cause) s).hport q).up = false ∧
      (each l (fun q st => st.linkDown q cause) s).job.broken = true := by
  have hlinks : SameLinks s (each l (fun q st => st.linkDown q cause) s) :=
    each_induction (P := SameLinks s) (fun r t ht => ht.trans (t.linkDown_sameLinks r cause)) l s (.refl s)
  refine each_mem (a := q) (P := fun t => SameLinks s t → (t.hport q).up = false ∧ t.job.broken = true)
    (fun t ht => ?_) (fun r t h ht => ?_) l s hq hlinks
  · obtain ⟨hjob, hfar⟩ := ht.trans (t.linkDown_sameLinks q cause).symm
    rw [State.linkDown_hport, if_pos rfl, (t.linkDown_job q cause).2, hjob.formed, hjob.needs, hjob.away, hfar, hformed, hneeds, haway]
    exact ⟨rfl, by simp⟩
  · obtain ⟨hup, hbroken⟩ := h (ht.trans (t.linkDown_sameLinks r cause).symm)
    rw [State.linkDown_hport, (t.linkDown_job r cause).2, hbroken]
    refine ⟨?_, rfl⟩
    split
    · rfl
    · exact hup

/-! Members (R351) -/

theorem State.memberEvent_eventOnly (s : State) (rank st : Nat) : EventOnly s (s.memberEvent rank st) :=
  State.raiseDev_eventOnly _ _ _ _ _

theorem State.memberEvent_eventCount_lt (s : State) (rank st : Nat) : s.eventCount < (s.memberEvent rank st).eventCount :=
  State.raiseDev_eventCount_lt _ _ _ _ _

theorem State.passMember_sendsOnly (s : State) (rank st : Nat) (news : Bool) : SendsOnly s (s.passMember rank st news) := by
  unfold State.passMember
  repeat' split
  · exact s.sendDown_sendsOnly _
  · rfl
  · exact s.sendUp_sendsOnly _
  · exact s.sendDown_sendsOnly _

theorem State.subtreeClock_frame (s : State) (rank : Nat) (own : Bool) : ∃ r w, s.subtreeClock rank own =
    { s with job := { s.job with onRecovered := r }, power := w } := by
  unfold State.subtreeClock
  split
  · exact ⟨_, _, rfl⟩
  · exact ⟨s.job.onRecovered, s.power, rfl⟩

/-- Ports that absorb: the rest of every port stays. -/
theorem each_absorbing (l : List Nat) (s : State) (j : Nat) :
    (each l (fun q st => st.modHport q fun x => { x with absorbing := true }) s).hport j =
      if j ∈ l then { s.hport j with absorbing := true } else s.hport j := by
  induction l generalizing s with
  | nil => rfl
  | cons a l ih =>
    have hcons : each (a :: l) (fun q st => st.modHport q fun x => { x with absorbing := true }) s
        = each l (fun q st => st.modHport q fun x => { x with absorbing := true }) (s.modHport a fun x => { x with absorbing := true }) := rfl
    rw [hcons, ih]
    by_cases hj : j = a
    · subst hj
      simp
    · rw [State.modHport_hport_ne _ _ hj]
      simp [hj]

/-- The ports that face the member of rank `rank` over a needed link that is up. -/
def State.facing (s : State) (rank : Nat) : List Nat :=
  (List.range 6).filter fun q => (s.hport q).up && (s.hport q).farRank = rank && s.job.needsPort q

/-- What the news of a member leaves: members, the health of the job, and what the ports face, carry and absorb. -/
structure SamePorts (s t : State) : Prop where
  links : SameLinks s t
  broken : t.job.broken = s.job.broken
  up : ∀ q, (t.hport q).up = (s.hport q).up
  absorbing : ∀ q, (t.hport q).absorbing = (s.hport q).absorbing

theorem SamePorts.refl (s : State) : SamePorts s s := ⟨.refl s, rfl, fun _ => rfl, fun _ => rfl⟩

theorem SamePorts.trans {s t u : State} (h : SamePorts s t) (k : SamePorts t u) : SamePorts s u :=
  ⟨h.links.trans k.links, k.broken.trans h.broken, fun q => (k.up q).trans (h.up q), fun q => (k.absorbing q).trans (h.absorbing q)⟩

theorem SamePorts.ite {s t u : State} {b : Prop} [Decidable b] (h : SamePorts s t) (k : SamePorts s u) :
    SamePorts s (if b then t else u) := by split <;> assumption

theorem State.subtreeClock_samePorts (s : State) (rank : Nat) (own : Bool) : SamePorts s (s.subtreeClock rank own) := by
  obtain ⟨r, w, h⟩ := s.subtreeClock_frame rank own
  rw [h]
  exact ⟨⟨⟨rfl, rfl, fun _ => rfl⟩, fun _ => rfl⟩, rfl, fun _ => rfl, fun _ => rfl⟩

theorem EventOnly.samePorts {s t : State} (h : EventOnly s t) : SamePorts s t := by
  rw [h]
  exact ⟨⟨⟨rfl, rfl, fun _ => rfl⟩, fun _ => rfl⟩, rfl, fun _ => rfl, fun _ => rfl⟩

theorem State.sendDown_samePorts (s : State) (r : TreeRec) : SamePorts s (s.sendDown r) := by
  have hjob := (s.sendDown_sendsOnly r).job
  refine ⟨⟨by rw [hjob]; exact .refl _, fun q => ?_⟩, by rw [hjob], fun q => ?_, fun q => ?_⟩ <;>
    obtain ⟨l, hport⟩ := s.sendDown_hport r q <;> rw [hport]

/-- A resetting member: the ports that face it absorb, and the news may travel on; then, where the member had not left, those
ports are down. -/
theorem State.member_resets (s : State) (rank : Nat) : ∃ v,
    SamePorts (each (s.facing rank) (fun q st => st.modHport q fun x => { x with absorbing := true }) s) v ∧
    exec (.member rank 2) s = .next (if s.job.away.contains rank || !v.job.formed then v
      else each (s.facing rank) (fun q st => st.linkDown q 2) v) := by
  refine ⟨_, ?_, (apply_ite Host.Outcome.next _ _ _).symm⟩
  refine SamePorts.trans ?_ (.ite (State.sendDown_samePorts _ _) (.refl _))
  exact .ite ((State.subtreeClock_samePorts _ _ _).trans (State.memberEvent_eventOnly _ _ _).samePorts) (.refl _)

section
variable {s : State} {rank : Nat} (hformed : s.job.formed = true)
include hformed

/-- A member that leaves: it is away, and one member fewer. -/
theorem State.member_leaves (haway : s.job.away.contains rank = false) : exec (.member rank 0) s =
    .next ((State.memberEvent { s with job := { s.job with
      away := s.job.away ++ [rank], joined := s.job.joined - 1
      stopWanted := s.job.stopWanted || (s.isRoot && !s.jobParts.isEmpty) } } rank 0).passMember rank 0 true) := by
  have hin : (!s.job.formed) = false := by rw [hformed, Bool.not_true]
  simp only [exec_member, execMember, hin, haway, Bool.false_eq_true, if_false, Bool.not_false]

/-- A member heard to leave before. -/
theorem State.member_leaves_again (haway : s.job.away.contains rank = true) :
    exec (.member rank 0) s = .next (s.passMember rank 0 false) := by
  have hin : (!s.job.formed) = false := by rw [hformed, Bool.not_true]
  simp only [exec_member, execMember, hin, haway, Bool.false_eq_true, if_false, if_true, Bool.not_true]

/-- A member that joins again. -/
theorem State.member_joins (haway : s.job.away.contains rank = true) : exec (.member rank 1) s =
    .next (((State.memberEvent { s with job := { s.job with
      away := s.job.away.filter (· ≠ rank), joined := s.job.joined + 1 } } rank 1).subtreeClock rank false).passMember rank 1 true) := by
  have hin : (!s.job.formed) = false := by rw [hformed, Bool.not_true]
  simp only [exec_member, execMember, hin, haway, Bool.false_eq_true, if_false, if_true]

/-- A member that is lost. -/
theorem State.member_lost (haway : s.job.away.contains rank = false) :
    exec (.member rank 3) s = .next (((s.lostMember rank).memberEvent rank 3).passMember rank 3 true) := by
  have hin : (!s.job.formed) = false := by rw [hformed, Bool.not_true]
  simp only [exec_member, execMember, hin, haway, Bool.false_eq_true, if_false, Bool.not_false]

end

theorem memberRecords : Claims.MemberRecords := by
  intro s rank hformed
  have hfacing : ∀ q, q < 6 → (s.hport q).up = true → (s.hport q).farRank = rank → s.job.needsPort q = true →
      q ∈ s.facing rank := fun q hq hup hfar hneeds => by
    rw [State.facing, List.mem_filter, List.mem_range]
    exact ⟨hq, by simp [hup, hfar, hneeds]⟩
  have hjob : (each (s.facing rank) (fun q st => st.modHport q fun x => { x with absorbing := true }) s).job = s.job :=
    each_eq (π := State.job) (fun q v => v.modHport_job q _) _ _
  refine ⟨fun haway => ⟨?_, ?_, ?_⟩, fun haway => ⟨?_, ?_, ?_⟩⟩
  · refine ⟨_, State.member_leaves hformed haway, ?_⟩
    generalize hv : ({ s with job := _ } : State) = v
    have hsent := (v.memberEvent rank 0).passMember_sendsOnly rank 0 true
    have hevent := v.memberEvent_eventOnly rank 0
    refine ⟨?_, ?_, ?_, ?_, ?_⟩
    · rw [hsent.job, hevent.job, ← hv]
    · rw [hsent.job, hevent.job, ← hv]
    · rw [hsent.job, hevent.job, ← hv]
    · rw [hsent.eventCount]
      exact hv ▸ v.memberEvent_eventCount_lt rank 0
    · rw [hsent, hevent, ← hv]
  · refine ⟨_, State.member_lost hformed haway, ?_⟩
    have hsent := ((s.lostMember rank).memberEvent rank 3).passMember_sendsOnly rank 3 true
    have hevent := (s.lostMember rank).memberEvent_eventOnly rank 3
    refine ⟨?_, ?_, ?_⟩
    · rw [hsent.job, hevent.job]
      rfl
    · rw [hsent.job, hevent.job]
      rfl
    · rw [hsent.eventCount]
      exact (s.lostMember rank).memberEvent_eventCount_lt rank 3
  · intro q hq hup hfar hneeds
    obtain ⟨v, hv, hnext⟩ := s.member_resets rank
    have hjobv := hjob ▸ hv.links.1
    rw [haway, hjobv.formed, hformed] at hnext
    have hfarv : (v.hport q).farRank = rank := by
      rw [hv.links.2, each_absorbing, ← hfar]
      split <;> rfl
    exact ⟨_, hnext, each_linkDown (hfacing q hq hup hfar hneeds) 2 (hjobv.formed.trans hformed) ((hjobv.needs q).trans hneeds)
      (by rw [hjobv.away, hfarv, haway])⟩
  · refine ⟨_, State.member_joins hformed haway, ?_⟩
    generalize hv : ({ s with job := _ } : State) = v
    have hsent := ((v.memberEvent rank 1).subtreeClock rank false).passMember_sendsOnly rank 1 true
    have hevent := v.memberEvent_eventOnly rank 1
    obtain ⟨r, w, hclock⟩ := (v.memberEvent rank 1).subtreeClock_frame rank false
    refine ⟨?_, ?_, ?_⟩
    · rw [hsent.job, hclock, hevent, ← hv]
      simp
    · rw [hsent.job, hclock, hevent, ← hv]
    · rw [hsent.eventCount, hclock]
      exact hv ▸ v.memberEvent_eventCount_lt rank 1
  · refine ⟨_, State.member_leaves_again hformed haway, ?_⟩
    have hsent := s.passMember_sendsOnly rank 0 false
    exact ⟨hsent.job, hsent.eventCount⟩
  · intro q hq hup hfar hneeds
    obtain ⟨v, hv, hnext⟩ := s.member_resets rank
    rw [haway] at hnext
    have hmem := hfacing q hq hup hfar hneeds
    refine ⟨v, hnext, ?_, ?_⟩
    · rw [hv.absorbing, each_absorbing, if_pos hmem]
    · rw [hv.up, each_absorbing, if_pos hmem]
      exact hup

/-- Settles O42: the records of the root as this device acts on them, and the news of a member. -/
theorem treeAndMemberRecordsDown : Obligations.TreeAndMemberRecordsDown := ⟨treeRecordsDown, memberRecords⟩

end Sys2Proof.Machine
end

section
/-!
SUPPORT. Partitions that do not run, while a tile's scratchpad is read: the faults that a read may find touch other partitions
alone. The start of a run.
-/

namespace Sys2Proof.Machine

/-! What stays beside a command (R394) -/

/-- The mailbox pages, the count of completions and the time stand. -/
structure Aside (s t : State) : Prop where
  mbx : t.mbx = s.mbx
  count : t.cmdsDone = s.cmdsDone
  time : t.time = s.time

theorem Aside.refl (s : State) : Aside s s := ⟨rfl, rfl, rfl⟩

theorem Aside.trans {s t u : State} (h : Aside s t) (k : Aside t u) : Aside s u :=
  ⟨k.mbx.trans h.mbx, k.count.trans h.count, k.time.trans h.time⟩

theorem Aside.mb {s t : State} (h : Aside s t) (n : Nat) : t.mb n = s.mb n := by rw [State.mb, h.mbx, State.mb]

theorem Aside.samePage {s t : State} (h : Aside s t) (n : Nat) : s.SamePage t n := .of_eq h.mbx h.count

theorem Remaps.aside {s t : State} (h : Remaps s t) : Aside s t := ⟨by rw [h.frame], by rw [h.frame], by rw [h.frame]⟩

theorem RepairOnly.aside {s t : State} (h : RepairOnly s t) : Aside s t := h.remaps.aside

theorem EventOnly.aside {s t : State} (h : EventOnly s t) : Aside s t := ⟨by rw [h], by rw [h], by rw [h]⟩

theorem each_aside {α : Type} {f : α → State → State} (h : ∀ a t, Aside t (f a t)) (l : List α) (s : State) :
    Aside s (each l f s) := each_induction (P := Aside s) (fun a t ht => ht.trans (h a t)) l s (Aside.refl s)

theorem State.modCluster_aside (s : State) (c : Nat) (f : Cluster → Cluster) : Aside s (s.modCluster c f) := ⟨rfl, rfl, rfl⟩

theorem State.settleCanary_aside (s : State) (p : Nat) : Aside s (s.settleCanary p) :=
  Aside.trans (t := s.modPart p _) ⟨rfl, rfl, rfl⟩ (each_aside (fun _ v => (v.setObserve_repairOnly _ _).aside) _ _)

/-! What spares the partitions that do not run -/

/-- Where a partition lies and what it does, without its run. -/
def Partition.zone (q : Partition) : PState × Nat × Nat := (q.st, q.firstStripe, q.stripeCount)

/-- Partitions that do not run, the job and what stands beside a command are untouched; every partition keeps its stripes and its
state. -/
structure Spares (s t : State) : Prop extends Aside s t where
  job : t.job = s.job
  zone : ∀ j, (t.part j).zone = (s.part j).zone
  idle : ∀ j, running (s.part j).st = false → t.part j = s.part j

theorem Partition.zone_st {q r : Partition} (h : q.zone = r.zone) : q.st = r.st := congrArg Prod.fst h

theorem Spares.refl (s : State) : Spares s s := ⟨.refl s, rfl, fun _ => rfl, fun _ _ => rfl⟩

theorem Spares.trans {s t u : State} (h : Spares s t) (k : Spares t u) : Spares s u :=
  ⟨h.toAside.trans k.toAside, k.job.trans h.job, fun j => (k.zone j).trans (h.zone j), fun j hj =>
    (k.idle j (by rw [Partition.zone_st (h.zone j), hj])).trans (h.idle j hj)⟩

theorem Spares.ite {s t u : State} {b : Prop} [Decidable b] (h : Spares s t) (k : Spares s u) :
    Spares s (if b then t else u) := by split <;> assumption

theorem each_spares {α : Type} {f : α → State → State} (h : ∀ a t, Spares t (f a t)) (l : List α) (s : State) :
    Spares s (each l f s) := each_induction (P := Spares s) (fun a t ht => ht.trans (h a t)) l s (Spares.refl s)

theorem Spares.of_parts {s t : State} (ha : Aside s t) (hj : t.job = s.job) (hp : t.parts = s.parts) : Spares s t := by
  have hpart : ∀ j, t.part j = s.part j := fun j => by rw [State.part, hp, State.part]
  exact ⟨ha, hj, fun j => by rw [hpart], fun j _ => hpart j⟩

theorem Remaps.spares {s t : State} (h : Remaps s t) : Spares s t := .of_parts h.aside h.job h.parts

theorem RepairOnly.spares {s t : State} (h : RepairOnly s t) : Spares s t := h.remaps.spares

theorem EventOnly.spares {s t : State} (h : EventOnly s t) : Spares s t := .of_parts h.aside h.job h.parts

theorem Spares.exists? {s t : State} (h : Spares s t) (p : Nat) : t.exists? p = s.exists? p := by
  rw [State.exists?, State.exists?, Partition.zone_st (h.zone p)]

/-- Every tile belongs to the partition it belonged to. -/
theorem Spares.partOf {s t : State} (h : Spares s t) (u : TileId) : t.partOf u = s.partOf u := by
  have hfirst : ∀ p, (t.part p).firstStripe = (s.part p).firstStripe := fun p => congrArg (·.2.1) (h.zone p)
  have hcount : ∀ p, (t.part p).stripeCount = (s.part p).stripeCount := fun p => congrArg (·.2.2) (h.zone p)
  simp only [State.partOf, State.partOfStripe, h.exists?, hfirst, hcount]

/-- A change of a running partition that keeps its stripes and its state. -/
theorem State.modPart_spares {s : State} {p : Nat} {f : Partition → Partition} (hrun : running (s.part p).st = true)
    (hf : ∀ y : Partition, (f y).zone = y.zone) : Spares s (s.modPart p f) := by
  refine ⟨⟨rfl, rfl, rfl⟩, rfl, fun j => ?_, fun j hj => ?_⟩
  · by_cases h : j = p
    · subst h
      rw [State.modPart_part_self, hf]
    · rw [State.modPart_part_ne _ _ h]
  · refine State.modPart_part_ne _ _ fun h => ?_
    rw [h, hrun] at hj
    exact absurd hj (by decide)

theorem State.addCause_spares (s : State) (p : Nat) (c : FaultCause) : Spares s (s.addCause p c) := by
  unfold State.addCause
  split
  · next h => exact State.modPart_spares h fun _ => rfl
  · exact .refl s

theorem State.setTile_spares (s : State) (t : TileId) (x : Tile) : Spares s (s.setTile t x) := .of_parts ⟨rfl, rfl, rfl⟩ rfl rfl

theorem State.raiseTile_spares (s : State) (t : TileId) (a b c : Nat) : Spares s (s.raiseTile t a b c) :=
  (State.raiseTile_eventOnly s t a b c).spares

theorem State.tileFault_spares (s : State) (t : TileId) (code : Nat) (kind : FaultKind) (payload : Nat) :
    Spares s (s.tileFault t code kind payload) := by
  unfold State.tileFault
  dsimp only
  split
  · exact s.setTile_spares t _
  · have hraise : ∀ x, Spares s ((s.setTile t x).raiseTile t code 3 payload) := fun x =>
      (s.setTile_spares t x).trans (State.raiseTile_spares _ t code 3 payload)
    split
    · exact (hraise _).trans (State.addCause_spares _ _ _)
    · exact hraise _

/-- In a running tide the partition of the tile runs. -/
theorem State.running_of_inTide {s : State} {t : TileId} {p : Nat} (h : s.inTide t = true) (hp : s.partOf t = some p) :
    running (s.part p).st = true := by
  rw [State.inTide, hp] at h
  exact h

theorem State.hwFault_spares (s : State) (t : TileId) (code payload : Nat) : Spares s (s.hwFault t code payload) := by
  have hfault := s.tileFault_spares t code .hardware payload
  unfold State.hwFault
  dsimp only
  split
  · exact hfault
  · split
    · next hin =>
      split
      · next p hp =>
        refine hfault.trans (State.modPart_spares ?_ fun _ => rfl)
        rw [hfault.partOf] at hp
        rw [Partition.zone_st (hfault.zone p)]
        exact State.running_of_inTide hin hp
      · exact hfault
    · exact hfault.trans (State.remapNow_remaps _ _ _).spares

theorem State.retireFault_spares (s : State) (t : TileId) (payload : Nat) : Spares s (s.retireFault t payload) := by
  have hraise := s.raiseTile_spares t 0x0707 3 payload
  unfold State.retireFault
  dsimp only
  split
  · next hin =>
    split
    · next p hp =>
      have hcause := hraise.trans (State.addCause_spares _ p { kind := .hardware, code := 0x0707, unit := t })
      refine hcause.trans (State.modPart_spares ?_ fun _ => rfl)
      rw [hraise.partOf] at hp
      rw [Partition.zone_st (hcause.zone p)]
      exact State.running_of_inTide hin hp
    · exact hraise
  · exact hraise.trans (State.remapNow_remaps _ _ _).spares

theorem State.countCorrection_spares (s : State) (t : TileId) (line : Option Nat) : Spares s (s.countCorrection t line) := by
  unfold State.countCorrection
  dsimp only
  refine Spares.trans (t := _) ?_ (.ite (Spares.trans ((State.modTile_repairOnly _ _ _).trans (State.used_repairOnly _ _)).spares
    (State.retireFault_spares _ _ _)) (.refl _))
  refine Spares.trans (t := _) ?_ (.ite (Spares.trans ((State.modTile_repairOnly _ _ _).spares.trans (State.raiseTile_spares _ _ _ _ _))
    (State.beginObserve_repairOnly _ _ _ _).spares) (.refl _))
  exact State.setTile_spares _ _ _

theorem State.noteCorrection_spares (s : State) (t : TileId) (line : Nat) : Spares s (s.noteCorrection t line) := by
  unfold State.noteCorrection
  dsimp only
  exact .ite (.refl s) (Spares.trans (.ite (State.setTile_spares _ _ _) (.refl s)) (State.countCorrection_spares _ _ _))

theorem State.checkWord_spares (s : State) (t : TileId) (w : Nat) (v : Word) (m : Nat) : Spares s (s.checkWord t w v m).1 := by
  unfold State.checkWord
  split
  · exact .refl s
  · split
    · exact s.noteCorrection_spares _ _
    · split
      · exact .refl s
      · split
        · exact (s.used_repairOnly 1).spares
        · exact (s.used_repairOnly 1).spares.trans (State.noteCorrection_spares _ _ _)
        · exact (s.used_repairOnly 1).spares

theorem State.readWords_spares (t : TileId) (get : Nat → Word × Nat) : ∀ (ws : List Nat) (s : State),
    Spares s (s.readWords t get ws).1
  | [], s => .refl s
  | w :: r, s => (s.checkWord_spares t w (get w).1 (get w).2).trans (State.readWords_spares t get r _)

theorem State.readLocal_spares (s : State) (t : TileId) (a n remote req : Nat) : Spares s (s.readLocal t a n remote req).1 := by
  unfold State.readLocal
  dsimp only
  have hread : ∀ v : State, Spares s v → ∀ ws, Spares s (v.readWords t (v.tile t).readNow ws).1 :=
    fun v hv ws => hv.trans (State.readWords_spares t _ ws v)
  split
  · exact (hread _ (s.modTile_repairOnly t _).spares _).trans (State.hwFault_spares _ _ _ _)
  · exact hread _ (s.modTile_repairOnly t _).spares _

theorem State.writeMark_spares (s : State) (t : TileId) (n : Nat) : Spares s (s.writeMark t n) := by
  have hall : ∀ (l : List (Nat × Nat)) (acc : State × Nat), Spares s acc.1 → Spares s (l.foldl (fun (acc : State × Nat) w =>
      let r := acc.1.readLocal t w.1 w.2 0 6
      ({ r.1 with hbm := memPut r.1.hbm acc.2 r.2.1 }, acc.2 + w.2)) acc).1 := by
    intro l
    induction l with
    | nil => exact fun _ h => h
    | cons w l ih =>
      intro acc h
      refine ih _ ?_
      exact (h.trans (State.readLocal_spares _ _ _ _ _ _)).trans (.of_parts ⟨rfl, rfl, rfl⟩ rfl rfl)
  exact hall _ _ (.refl s)

/-! The first tide of a run (R213, R216) -/

/-- What the start of a tide outside a job leaves of its partition. -/
structure TideStarts (s : State) (p : Nat) (t : State) : Prop extends Aside s t where
  st : (t.part p).st = .open_
  awaiting : (t.part p).awaiting = false
  startT : (t.part p).startT = s.time
  tide : (t.part p).tide = (s.part p).tide
  markSlot : (t.part p).markSlot = (s.part p).markSlot
  inJob : (t.part p).inJob = false
  single : (t.part p).single = (s.part p).single
  startMbx : (t.part p).startMbx = (s.part p).startMbx

theorem State.startTide_starts {s : State} {p : Nat} (hj : (s.part p).inJob = false) : TideStarts s p (s.startTide p false) := by
  unfold State.startTide
  simp only [Bool.false_eq_true, if_false]
  have hset := s.settleCanary_sameRun p
  have haside := s.settleCanary_aside p
  generalize s.settleCanary p = v at hset haside
  have hin : (v.part p).inJob = false := (hset.field (g := Partition.inJob) (fun _ => rfl) p).trans hj
  simp only [hin, Bool.false_eq_true, if_false]
  generalize hw : each (v.clustersOf p) _ _ = w
  have hcache : Aside v (v.applyCache p) ∧ (v.applyCache p).parts = v.parts := by
    unfold State.applyCache
    split <;> exact ⟨⟨rfl, rfl, rfl⟩, rfl⟩
  have htiles : RepairOnly (v.applyCache p) (each (v.tilesOf p) (fun t st => st.modTile t (v.tideTile p (v.part p).tide t)) (v.applyCache p)) :=
    each_repairOnly (fun t u => u.modTile_repairOnly t _) _ _
  have hpart : w.part p = v.part p := by
    rw [← hw, State.part, each_eq (π := State.parts) (fun c u => u.modCluster_parts c _), htiles.remaps.parts, hcache.2, State.part]
  have hrest : Aside v w := by
    rw [← hw]
    exact (hcache.1.trans htiles.aside).trans (each_aside (fun c u => u.modCluster_aside c _) _ _)
  have hall := haside.trans hrest
  refine ⟨⟨hall.mbx, hall.count, hall.time⟩, ?_, ?_, ?_, ?_, ?_, ?_, ?_, ?_⟩ <;> rw [State.modPart_part_self]
  · exact haside.time
  · exact (congrArg Partition.tide hpart).trans (hset.field (g := Partition.tide) (fun _ => rfl) p)
  · exact (congrArg Partition.markSlot hpart).trans (hset.field (g := Partition.markSlot) (fun _ => rfl) p)
  · exact (congrArg Partition.inJob hpart).trans hin
  · exact (congrArg Partition.single hpart).trans (hset.field (g := Partition.single) (fun _ => rfl) p)
  · exact (congrArg Partition.startMbx hpart).trans (hset.field (g := Partition.startMbx) (fun _ => rfl) p)

end Sys2Proof.Machine
end

section
/-!
SUPPORT. The mailbox commands on runs (`Claims.MailboxRuns`).
-/

namespace Sys2Proof.Machine

theorem exec_runStart (s : State) (n : Nat) : exec (.runStart n) s = execRunStart n s := rfl
theorem exec_runSingle (s : State) (n : Nat) : exec (.runSingle n) s = execRunSingle n s := rfl
theorem exec_runStop (s : State) (n : Nat) : exec (.runStop n) s = execRunStop n s := rfl
theorem exec_runStartTimeout (s : State) (n : Nat) : exec (.runStartTimeout n) s = execRunStartTimeout n s := rfl

theorem State.taken_aside_mb {s t : State} {n : Nat} (h : Aside (s.taken n) t) : t.mb n = { s.mb n with running := none } := by
  rw [h.mb, State.taken_mb_self]

/-- A command that has acted and waits for what it began. -/
theorem State.waits_of_aside {s t : State} {n : Nat} (h : Aside (s.taken n) t) (hd : (s.mb n).done = false) : t.waits n := by
  rw [State.waits, State.taken_aside_mb h]
  exact ⟨hd, rfl⟩

/-! The start of a run (R216, R227, R408) -/

/-- What the start of a run outside a job leaves of its partition: the first tide runs. -/
structure RunStarts (s : State) (p : Nat) (t : State) : Prop extends Aside s t where
  st : (t.part p).st = .open_
  awaiting : (t.part p).awaiting = false
  tide : (t.part p).tide = (s.part p).tide
  startT : (t.part p).startT = s.time
  markSlot : (t.part p).markSlot = some 0
  inJob : (t.part p).inJob = false

/-- Outside a job a run starts its first tide at once: RUN_START then completes, RUN_SINGLE waits for the tide. -/
theorem State.startRun_starts {s : State} {p : Nat} (hformed : s.job.formed = false) (hst : (s.part p).st = .loaded)
    (n : Nat) (single : Bool) : ∃ t, RunStarts s p t ∧ (t.part p).single = (if single then some n else none) ∧
      s.startRun p n single none = t.okHeld (if single then none else some n) [] := by
  unfold State.startRun
  dsimp only
  have hmarks : Spares s (each (s.tilesOf p) (fun t st => st.writeMark t 0) s) := each_spares (fun t v => v.writeMark_spares t 0) _ _
  generalize each (s.tilesOf p) (fun t st => st.writeMark t 0) s = v at hmarks ⊢
  have hv : v.job.formed = false := by rw [hmarks.job, hformed]
  have hpart : v.part p = s.part p := hmarks.idle p (by rw [hst]; rfl)
  simp only [hv, Bool.false_and, Bool.false_eq_true, if_false]
  generalize hw : v.modPart p _ = w
  have hwpart : (w.part p).inJob = false ∧ (w.part p).tide = (s.part p).tide ∧ (w.part p).markSlot = some 0 ∧
      (w.part p).single = (if single then some n else none) ∧ (w.part p).startMbx = (if single then none else some n) := by
    rw [← hw, State.modPart_part_self, hpart]
    exact ⟨rfl, rfl, rfl, rfl, rfl⟩
  have hwaside : Aside s w := hmarks.toAside.trans (hw ▸ ⟨rfl, rfl, rfl⟩)
  have hwjob : w.job.formed = false := by rw [← hw]; exact hv
  obtain ⟨hin, htide, hmark, hsingle, hmbx⟩ := hwpart
  have hstarts := State.startTide_starts hin
  simp only [hwjob, Bool.false_eq_true, if_false, hmbx]
  refine ⟨(w.startTide p false).modPart p fun q => { q with startMbx := none }, ⟨?_, ?_, ?_, ?_, ?_, ?_, ?_⟩, ?_, rfl⟩
  · exact (hwaside.trans hstarts.toAside).trans ⟨rfl, rfl, rfl⟩
  · exact (congrArg Partition.st (State.modPart_part_self _ _ _)).trans hstarts.st
  · exact (congrArg Partition.awaiting (State.modPart_part_self _ _ _)).trans hstarts.awaiting
  · exact (congrArg Partition.tide (State.modPart_part_self _ _ _)).trans (hstarts.tide.trans htide)
  · exact (congrArg Partition.startT (State.modPart_part_self _ _ _)).trans (hstarts.startT.trans hwaside.time)
  · exact (congrArg Partition.markSlot (State.modPart_part_self _ _ _)).trans (hstarts.markSlot.trans hmark)
  · exact (congrArg Partition.inJob (State.modPart_part_self _ _ _)).trans hstarts.inJob
  · exact (congrArg Partition.single (State.modPart_part_self _ _ _)).trans (hstarts.single.trans hsingle)

theorem State.cancelRemove_spares (s : State) (opcode : Nat) : Spares s (s.cancelRemove opcode) :=
  .ite (Spares.trans (t := { s with removeReady := false, pins := { s.pins with attn := false } })
    (.of_parts ⟨rfl, rfl, rfl⟩ rfl rfl) (State.raiseDev_eventOnly _ _ _ _ _).spares) (.refl s)

/-- A RUN_START or RUN_SINGLE that nothing refuses or holds, of a LOADED partition outside a job. -/
theorem State.runOrHold_starts {s : State} {p : Nat} (hformed : s.job.formed = false) (hst : (s.part p).st = .loaded)
    (hprep : s.preparing = none) (hrefusal : s.runRefusal p false = none) (n : Nat) (single : Bool) :
    ∃ t, RunStarts s p t ∧ (t.part p).single = (if single then some n else none) ∧
      s.runOrHold p n single none = t.okHeld (if single then none else some n) [] := by
  have hgo : ¬ ((s.part p).stopping || s.preparing.isSome) = true := by simp [Partition.stopping, running, hst, hprep]
  have hcancel := s.cancelRemove_spares (s.mb n).opcode
  have hpart : (s.cancelRemove (s.mb n).opcode).part p = s.part p := hcancel.idle p (by rw [hst]; rfl)
  obtain ⟨t, hstarts, hsingle, hrun⟩ := State.startRun_starts (s := s.cancelRemove (s.mb n).opcode)
    (by rw [hcancel.job, hformed]) (by rw [hpart, hst]) n single
  refine ⟨t, ⟨hcancel.toAside.trans hstarts.toAside, hstarts.st, hstarts.awaiting, ?_, ?_, hstarts.markSlot, hstarts.inJob⟩,
    hsingle, ?_⟩
  · exact hstarts.tide.trans (congrArg Partition.tide hpart)
  · exact hstarts.startT.trans hcancel.time
  · rw [State.runOrHold, if_neg hgo, State.actRun]
    simp only [Option.isSome_none, hrefusal]
    exact hrun

/-- None of the checks of a run's start refuses it. -/
theorem State.runChecks_pass {s : State} {n p : Nat} (hscope : s.partScope n p = none) (hst : (s.part p).st = .loaded)
    (hrefusal : s.runRefusal p false = none) (hheld : (s.part p).enableHeld = none) (hresets : s.resets = []) :
    (s.runChecks n p false).findSome? id = none := by
  unfold State.runChecks
  simp only [hrefusal, hscope, hst, hheld, hresets]
  rfl

theorem findSome?_append_none {l m : List (Option No)} (hl : l.findSome? id = none) (hm : m.findSome? id = none) :
    (l ++ m).findSome? id = none := by rw [List.findSome?_append, hl, hm, Option.none_or]

section
variable {s : State} {n p : Nat} (hp : p ≤ 7) (hparam : s.param n 0 1 = p) (hformed : s.job.formed = false)
  (hchecks : (s.runChecks n p false).findSome? id = none)
include hp hparam hformed hchecks

theorem State.runStart_next (hasks : s.asks n 0x0501 8) (hflags : s.param n 1 1 = 0) (hfirst : s.param n 2 6 = 0) :
    exec (.runStart n) s = .next ((s.taken n).runOrHold p n false none) := by
  have hlen := hasks.badLength (by decide) false
  have hfield := hasks.badField (fields := [s.badPart n, (1, false), (2, false)]) (by simp [State.badPart, hparam, hp])
  obtain ⟨hrun, -⟩ := hasks
  have hmis : ∀ (o : Nat) (l : List (Option No)), s.mismatch n p o l = s := fun _ _ => by simp [State.mismatch, hformed]
  have hset : bit 0 0 = false := rfl
  have hnotide : (s.taken n).firstTideOf n = none := by
    simp only [State.firstTideOf, State.taken_param, hflags, hset, Bool.false_eq_true, and_false, if_false]
  rw [exec_runStart, execRunStart]
  simp only [hparam, hflags, hfirst, hmis, hset]
  rw [State.command_acts hrun, hnotide]
  refine findSome?_append_none ?_ hchecks
  rw [hlen]
  exact congrArg (fun o => [none, o].findSome? id) hfield

theorem State.runSingle_next (hasks : s.asks n 0x0503 1) :
    exec (.runSingle n) s = .next ((s.taken n).runOrHold p n true none) := by
  have hlen := hasks.badLength (by decide) false
  have hfield := hasks.partitionField (by rw [hparam]; exact hp)
  obtain ⟨hrun, -⟩ := hasks
  have hmis : ∀ (o : Nat) (l : List (Option No)), s.mismatch n p o l = s := fun _ _ => by simp [State.mismatch, hformed]
  rw [exec_runSingle, execRunSingle]
  simp only [hparam, hmis]
  rw [State.command_acts hrun]
  refine findSome?_append_none ?_ hchecks
  rw [hlen, hfield]
  rfl

end

/-! A stop asked for, and a start that not every member accepts (R222, R408) -/

/-- RUN_STOP of a partition that runs outside a job. -/
theorem State.runStop_asks {s : State} {n p : Nat} (hp : p ≤ 7) (hparam : s.param n 0 1 = p) (hscope : s.partScope n p = none)
    (hasks : s.asks n 0x0502 1) (hrun : running (s.part p).st = true) (hstop : (s.part p).stopMbx = none)
    (hsingle : (s.part p).single = none) (hheld : (s.part p).enableHeld = none) :
    exec (.runStop n) s = .next (((s.taken n).requestStop p).modPart p fun y => { y with stopMbx := some n }) := by
  have hlen := hasks.badLength (by decide) false
  have hfield := hasks.partitionField (by rw [hparam]; exact hp)
  obtain ⟨hact, -⟩ := hasks
  have hcancel : (s.taken n).cancelRunHeld p = s.taken n := by
    unfold State.cancelRunHeld
    rw [State.taken_part, hheld]
  rw [exec_runStop, execRunStop]
  simp only [hparam]
  rw [State.command_acts hact, hcancel]
  rw [hlen, hfield, hscope, hrun, hstop, hsingle]
  rfl

theorem State.runStop_refuses {s : State} {n p : Nat} (hp : p ≤ 7) (hparam : s.param n 0 1 = p) (hscope : s.partScope n p = none)
    (hasks : s.asks n 0x0502 1) (hrun : running (s.part p).st = false) :
    exec (.runStop n) s = .next ((s.taken n).refuse n { status := stDenied }) := by
  have hlen := hasks.badLength (by decide) false
  have hfield := hasks.partitionField (by rw [hparam]; exact hp)
  obtain ⟨hact, -⟩ := hasks
  rw [exec_runStop, execRunStop]
  simp only [hparam]
  rw [State.command_refuses hact (r := { status := stDenied })]
  rw [hlen, hfield, hscope, hrun]
  rfl

/-- A stop asked for in a job changes the job and what it sends. -/
theorem State.askStop_frame (s : State) : ∃ j v h, s.askStop = { s with job := j, svc := v, hports := h } := by
  unfold State.askStop
  split
  · exact ⟨s.job, s.svc, s.hports, rfl⟩
  · dsimp only
    split
    · exact ⟨_, s.svc, s.hports, rfl⟩
    · rw [State.sendUp_sendsOnly]
      exact ⟨_, _, _, rfl⟩

/-- A stop asked for is pending; in a job the request may travel on. -/
theorem State.requestStop_frame {s : State} {p : Nat} (hrun : running (s.part p).st = true) : ∃ j v h, s.requestStop p =
    { s with parts := (s.modPart p fun q => { q with stopPending := true }).parts, job := j, svc := v, hports := h } := by
  unfold State.requestStop
  rw [if_neg (by simp [hrun])]
  dsimp only
  split
  · obtain ⟨j, v, h, hask⟩ := State.askStop_frame (s.modPart p fun q => { q with stopPending := true })
    exact ⟨j, v, h, hask⟩
  · exact ⟨s.job, s.svc, s.hports, rfl⟩

theorem State.requestStop_part {s : State} {p : Nat} (hrun : running (s.part p).st = true) :
    (s.requestStop p).part p = { s.part p with stopPending := true } := by
  obtain ⟨j, v, h, hask⟩ := State.requestStop_frame hrun
  rw [hask]
  exact s.modPart_part_self p fun q => { q with stopPending := true }

/-- The completion of a command leaves a page whose command is done. -/
theorem State.finish_mb_of_done {s : State} {n : Nat} (h : (s.mb n).done = true) (m st : Nat) (resp buf : List Byte) (d o : Nat) :
    (s.finish m st resp buf d o).mb n = s.mb n := by
  cases hm : (s.mb m).done with
  | true =>
    have hsame : s.finish m st resp buf d o = s := by
      unfold State.finish
      exact if_pos hm
    rw [hsame]
  | false =>
    have hne : n ≠ m := fun e => by rw [e, hm] at h; exact absurd h (by decide)
    rw [(State.finish_eventOnly hm st resp buf d o).mb]
    exact s.modMb_mb_ne (fun x => x.completed st resp buf.length d o) hne

theorem State.freqApplied_mb_of_done {s : State} {n : Nat} (h : (s.mb n).done = true) : s.freqApplied.mb n = s.mb n := by
  unfold State.freqApplied
  split
  · rfl
  · exact State.finish_mb_of_done (s := { s with freqWait := none }) h _ _ _ _ _ _

/-- A start of the job's run that not every member accepts ends BUSY, and its partition is LOADED again. -/
theorem State.runStartTimeout_ends {s : State} {p n : Nat} {q : Partition} (hparts : s.parts = [(p, q)])
    (hmbx : q.startMbx = some n) (hj : q.inJob = true) (hst : q.st = .open_) (hawait : q.awaiting = true) (hstop : q.stopMbx = none)
    (hheld : s.nothingHeld) (hd : (s.mb n).done = false) : ∃ s', exec (.runStartTimeout n) s = .next s' ∧
      (s'.part p).st = .loaded ∧ (s'.mb n).done = true ∧ (s'.mb n).status = stBusy ∧ (s'.part p).tide = q.tide := by
  obtain ⟨hhold, hleave, -⟩ := hheld
  have hfind : s.parts.find? (fun q => q.2.startMbx = some n && q.2.inJob && q.2.st = .open_ && q.2.awaiting) = some (p, q) := by
    simp [hparts, hmbx, hj, hst, hawait]
  have hq : s.part p = q := by simp [State.part, hparts, tget]
  generalize hv : (s.modPart p fun y => { y with
      st := .loaded, awaiting := false, startMbx := none, stopPending := false, stopMbx := none, inJob := false }) = v
  have hvwaits : SameWaits s v := hv ▸ s.modPart_sameWaits p fun _ => rfl
  have hvpart : (v.part p).st = .loaded ∧ (v.part p).tide = q.tide := by
    rw [← hv, State.modPart_part_self, hq]
    exact ⟨rfl, rfl⟩
  have hvd : (v.mb n).done = false := by rw [← hv]; exact hd
  have hmb : (v.failWith n stBusy 0).mb n = (v.mb n).completed stBusy [] 0 0 0xFFFF := by
    rw [State.failWith, (State.finish_eventOnly hvd _ _ _ _ _).mb, State.complete_mb_self]
    rfl
  have hsame : SameRun v (v.failWith n stBusy 0) := v.finish_sameRun _ _ _ _ _ _
  have hnothing := (hvwaits.trans hsame.sameWaits).nothingWaits ⟨hleave, hhold⟩
  have hon := State.goOn_sameRun hnothing
  have honmb : (v.failWith n stBusy 0).goOn.mb n = (v.failWith n stBusy 0).mb n := by
    rw [State.goOn_eq hnothing]
    split
    · exact State.freqApplied_mb_of_done (by rw [hmb]; rfl)
    · rfl
  refine ⟨(v.failWith n stBusy 0).goOn, ?_, ?_, ?_, ?_, ?_⟩
  · rw [exec_runStartTimeout, execRunStartTimeout]
    simp only [hfind, hstop, hv]
    rfl
  · exact ((hsame.trans hon).field (g := Partition.st) (fun _ => rfl) p).trans hvpart.1
  · rw [honmb, hmb]
    rfl
  · rw [honmb, hmb]
    rfl
  · exact ((hsame.trans hon).field (g := Partition.tide) (fun _ => rfl) p).trans hvpart.2

theorem mailboxRuns : Claims.MailboxRuns := by
  intro s n p hp
  refine ⟨fun hparam hscope hformed => ⟨fun hst hrefusal hheld hresets hprep => ?_, ?_, ?_⟩, fun q hparts hmbx hj hst hawait hstop hheld hd => ?_, fun hparts => ?_⟩
  · have hchecks := State.runChecks_pass hscope hst hrefusal hheld hresets
    have hstarts := State.runOrHold_starts (s := s.taken n) hformed hst hprep hrefusal n
    refine ⟨fun hasks hflags hfirst => ?_, fun hasks => ?_⟩
    · obtain ⟨t, ht, -, hgo⟩ := hstarts false
      have hnext := State.runStart_next hp hparam hformed hchecks hasks hflags hfirst
      obtain ⟨-, hd, -⟩ := hasks
      have hpart : (t.okWith n []).part p = t.part p := State.finish_part _ _ _ _ _ _ _ _
      refine ⟨t.okWith n [], by rw [hnext, hgo]; rfl, ((s.taken_samePage n).trans (ht.samePage n)).ok hd [], ?_⟩
      rw [hpart]
      exact ⟨ht.st, ht.awaiting, ht.tide, ht.startT, ht.markSlot, ht.inJob⟩
    · obtain ⟨t, ht, hsingle, hgo⟩ := hstarts true
      have hnext := State.runSingle_next hp hparam hformed hchecks hasks
      obtain ⟨-, hd, -⟩ := hasks
      exact ⟨t, by rw [hnext, hgo]; rfl, State.waits_of_aside ht.toAside hd, ht.st, hsingle, ht.tide⟩
  · intro hasks hrun hstop hsingle hheld
    have hnext := State.runStop_asks hp hparam hscope hasks hrun hstop hsingle hheld
    obtain ⟨j, v, h, hasked⟩ := State.requestStop_frame (s := s.taken n) (p := p) hrun
    obtain ⟨-, hd, -⟩ := hasks
    refine ⟨_, hnext, State.waits_of_aside ?_ hd, ?_⟩
    · rw [hasked]
      exact ⟨rfl, rfl, rfl⟩
    · rw [State.modPart_part_self, State.requestStop_part (s := s.taken n) hrun]
      exact ⟨rfl, rfl, rfl⟩
  · intro hasks hrun
    have hnext := State.runStop_refuses hp hparam hscope hasks hrun
    obtain ⟨-, hd, -⟩ := hasks
    exact ⟨_, hnext, ((s.taken_samePage n).refused hd _).1, State.refuse_part _ _ _ _⟩
  · exact State.runStartTimeout_ends hparts hmbx hj hst hawait hstop hheld hd
  · rw [exec_runStartTimeout, execRunStartTimeout, hparts]
    rfl

end Sys2Proof.Machine
end

section
/-!
SUPPORT. The mailbox commands on settings, observation, repair and scans (`Claims.MailboxSettingsAndRepair`).
-/

namespace Sys2Proof.Machine

theorem exec_powerCapSet (s : State) (n : Nat) : exec (.powerCapSet n) s = execPowerCapSet n s := rfl
theorem exec_freqStepSet (s : State) (n : Nat) : exec (.freqStepSet n) s = execFreqStepSet n s := rfl
theorem exec_telemetryConfig (s : State) (n : Nat) : exec (.telemetryConfig n) s = execTelemetryConfig n s := rfl
theorem exec_canaryConfig (s : State) (n : Nat) : exec (.canaryConfig n) s = execCanaryConfig n s := rfl
theorem exec_tileObserve (s : State) (n : Nat) : exec (.tileObserve n) s = execTileObserve n s := rfl
theorem exec_tileRepair (s : State) (n : Nat) : exec (.tileRepair n) s = execTileRepair n s := rfl
theorem exec_scanRun (s : State) (n : Nat) (l : List (Nat × Nat)) : exec (.scanRun n l) s = execScanRun n l s := rfl

theorem deviceScope_zero : deviceScope 0 = none := rfl

/-! A command that has acted and completes (R391) -/

/-- What a command of page `n` has done when it is about to complete: page `n` and the count stand. -/
theorem State.okWith_eventOnly {s : State} {n : Nat} (h : (s.mb n).done = false) (resp : List Byte) :
    EventOnly (s.complete n stOk resp 0 0 0xFFFF) (s.okWith n resp) := State.finish_eventOnly h stOk resp [] 0 0xFFFF

theorem Aside.done {s t : State} {n : Nat} (h : Aside (s.taken n) t) (hd : (s.mb n).done = false) : (t.mb n).done = false := by
  rw [State.taken_aside_mb h, ← hd]

/-- A command that acts beside the pages and completes. -/
theorem State.acted_answered {s t : State} {n : Nat} (h : Aside (s.taken n) t) (hd : (s.mb n).done = false) (resp : List Byte) :
    s.answered (t.okWith n resp) n 0 resp := ((s.taken_samePage n).trans (h.samePage n)).ok hd resp

theorem State.okWith_power (s : State) (n : Nat) (resp : List Byte) : (s.okWith n resp).power = s.power :=
  (s.finish_onlyPages n stOk resp [] 0 0xFFFF).power

theorem State.okWith_flash (s : State) (n : Nat) (resp : List Byte) : (s.okWith n resp).flash = s.flash :=
  State.finish_flash _ _ _ _ _ _ _

theorem State.okWith_part (s : State) (n p : Nat) (resp : List Byte) : (s.okWith n resp).part p = s.part p :=
  State.finish_part _ _ _ _ _ _ _ _

/-! Settings (R409, R459) -/

theorem powerCap_taken {s : State} (hasks : s.asks 0 0x0601 4) (hlow : 3000 ≤ s.param 0 0 4) (hhigh : s.param 0 0 4 ≤ 18000)
    (hstep : s.param 0 0 4 % 50 = 0) : ∃ s', exec (.powerCapSet 0) s = .next s' ∧
      s.answered s' 0 0 (leBytes 4 s'.effectiveW) ∧ s'.power.capW = s.param 0 0 4 ∧ s'.power.step = s.power.step := by
  have hlen := hasks.badLength (by decide) false
  have hfield := hasks.badField (fields := [(0, decide (s.param 0 0 4 < 3000 ∨ s.param 0 0 4 > 18000 ∨ s.param 0 0 4 % 50 ≠ 0))])
    (by simp; omega)
  obtain ⟨hrun, hd, -⟩ := hasks
  generalize hv : ({ s.taken 0 with power := { (s.taken 0).power with capW := s.param 0 0 4 } } : State) = v
  have haside : Aside (s.taken 0) v := hv ▸ ⟨rfl, rfl, rfl⟩
  have hpower := v.okWith_power 0 (leBytes 4 v.effectiveW)
  have hw : ∀ resp, (v.okWith 0 resp).effectiveW = v.effectiveW := fun resp => by
    simp only [State.effectiveW, State.lostPhases, State.okWith_power, State.okWith_flash]
  refine ⟨v.okWith 0 (leBytes 4 v.effectiveW), ?_, ?_, ?_, ?_⟩
  · rw [exec_powerCapSet, execPowerCapSet]
    dsimp only
    rw [State.command_acts hrun, hv]
    rw [hlen, hfield, deviceScope_zero]
    rfl
  · rw [hw]
    exact State.acted_answered haside hd _
  · rw [hpower, ← hv]
  · rw [hpower, ← hv]
    rfl

theorem State.runningParts_eq_nil (s : State) : s.runningParts = [] ↔ (s.parts.any fun q => running q.2.st) = false := by
  rw [State.runningParts, List.map_eq_nil_iff, List.filter_eq_nil_iff, List.any_eq_false]

theorem freqStep_taken {s : State} (hasks : s.asks 0 0x0602 1) (hstep : s.param 0 0 1 ≤ 7) :
    (s.runningParts = [] → ∃ s', exec (.freqStepSet 0) s = .next s' ∧ s.answered s' 0 0 [] ∧
      s'.power.minStep = s.param 0 0 1 ∧ s'.power.step = s.power.step) ∧
    (s.runningParts ≠ [] → ∃ s', exec (.freqStepSet 0) s = .next s' ∧ s'.waits 0 ∧ s'.freqWait = some 0 ∧
      s'.power.minStep = s.param 0 0 1 ∧ s'.power.step = s.power.step) := by
  have hlen := hasks.badLength (by decide) false
  have hfield := hasks.badField (fields := [(0, decide (s.param 0 0 1 > 7))]) (by simpa using hstep)
  obtain ⟨hrun, hd, -⟩ := hasks
  generalize hv : ({ s.taken 0 with power := { (s.taken 0).power with minStep := s.param 0 0 1 } } : State) = v
  have haside : Aside (s.taken 0) v := hv ▸ ⟨rfl, rfl, rfl⟩
  have hnext : exec (.freqStepSet 0) s = .next (if s.parts.any fun q => running q.2.st then { v with freqWait := some 0 } else v.okWith 0 []) := by
    rw [exec_freqStepSet, execFreqStepSet, State.command_acts hrun]
    · rw [← hv]
      simp only [State.taken_param, State.taken_parts]
    · rw [hlen, hfield, deviceScope_zero]
      rfl
  refine ⟨fun hnone => ?_, fun hsome => ?_⟩
  · rw [State.runningParts_eq_nil] at hnone
    simp only [hnone, Bool.false_eq_true, if_false] at hnext
    have hpower := v.okWith_power 0 []
    refine ⟨v.okWith 0 [], hnext, State.acted_answered haside hd _, ?_, ?_⟩
    · rw [hpower, ← hv]
    · rw [hpower, ← hv]
      rfl
  · rw [Ne, State.runningParts_eq_nil, Bool.not_eq_false] at hsome
    simp only [hsome, if_true] at hnext
    refine ⟨{ v with freqWait := some 0 }, hnext, State.waits_of_aside (haside.trans ⟨rfl, rfl, rfl⟩) hd, rfl, ?_, ?_⟩
    · rw [← hv]
    · rw [← hv]
      rfl

theorem telemetry_taken {s : State} (hasks : s.asks 0 0x0701 8) (hlow : 1000 ≤ s.param 0 0 4) (hhigh : s.param 0 0 4 ≤ 1000000)
    (hstep : s.param 0 0 4 % 1000 = 0) (hkinds : s.param 0 4 4 ≤ 7) : ∃ s', exec (.telemetryConfig 0) s = .next s' ∧
      s.answered s' 0 0 [] ∧ s'.telemetryUs = s.param 0 0 4 ∧ s'.telemetryKinds.toNat = s.param 0 4 4 := by
  have hlen := hasks.badLength (by decide) false
  have hfield := hasks.badField (fields := [(0, decide (s.param 0 0 4 < 1000 ∨ s.param 0 0 4 > 1000000 ∨ s.param 0 0 4 % 1000 ≠ 0)),
    (4, decide (s.param 0 4 4 > 7))]) (by simp; omega)
  obtain ⟨hrun, hd, -⟩ := hasks
  generalize hv : ({ s.taken 0 with telemetryUs := s.param 0 0 4, telemetryKinds := BitVec.ofNat 3 (s.param 0 4 4) } : State) = v
  have haside : Aside (s.taken 0) v := hv ▸ ⟨rfl, rfl, rfl⟩
  have hfin := State.okWith_eventOnly (haside.done hd) []
  refine ⟨v.okWith 0 [], ?_, State.acted_answered haside hd _, ?_, ?_⟩
  · rw [exec_telemetryConfig, execTelemetryConfig]
    rw [State.command_acts hrun]
    · rw [State.taken_param, hv]
    · rw [hlen, hfield, deviceScope_zero]
      rfl
  · rw [hfin, ← hv]
    rfl
  · have hk : (v.okWith 0 []).telemetryKinds = BitVec.ofNat 3 (s.param 0 4 4) := by
      rw [hfin, ← hv]
      rfl
    rw [hk, BitVec.toNat_ofNat]
    omega

/-! Canaries and observation (R409, R477, R483) -/

/-- With no observation waiting, settling sets the canary configuration that waits. -/
theorem State.settleCanary_part {s : State} {p : Nat} {c : Bool × Nat × Nat} (hc : (s.part p).canaryNext = some c)
    (ho : (s.part p).observeNext = []) : (s.settleCanary p).part p =
      { s.part p with canaryEn := c.1, canaryInterval := c.2.1, observeTides := c.2.2, canaryNext := none } := by
  have hnone : ∀ (f : TileId × Bool → State → State) (v : State), each [] f v = v := fun _ _ => rfl
  unfold State.settleCanary
  simp only [ho, hnone, State.modPart_part_self, hc]

theorem canaryConfig_taken {s : State} {n p : Nat} (hasks : s.asks n 0x0801 12) (hparam : s.param n 0 1 = p) (hp : p ≤ 7)
    (hen : s.param n 1 1 ≤ 1) (hzero : ∀ o ∈ span 2 4, memGet (s.mb n).payload o = 0) (h1 : 1 ≤ s.param n 4 4)
    (h2 : s.param n 4 4 ≤ 65536) (h3 : 1 ≤ s.param n 8 4) (h4 : s.param n 8 4 ≤ 1000000) (hscope : s.partScope n p = none)
    (hheld : s.partHeld n p = false) :
    (running (s.part p).st = false → (s.part p).observeNext = [] → ∃ s', exec (.canaryConfig n) s = .next s' ∧
      s.answered s' n 0 [] ∧ s'.part p = { s.part p with
        canaryEn := decide (s.param n 1 1 = 1), canaryInterval := s.param n 4 4, observeTides := s.param n 8 4, canaryNext := none }) ∧
    (running (s.part p).st = true → ∃ s', exec (.canaryConfig n) s = .next s' ∧ s.answered s' n 0 [] ∧ s'.part p =
      { s.part p with canaryNext := some (decide (s.param n 1 1 = 1), s.param n 4 4, s.param n 8 4) }) := by
  have hlen := hasks.badLength (by decide) false
  obtain ⟨hrun, hd, -, hsgl⟩ := hasks
  have hfield : s.badField n [s.badPart n, (1, decide (s.param n 1 1 > 1)), (4, decide (s.param n 4 4 < 1 ∨ s.param n 4 4 > 65536)),
      (8, decide (s.param n 8 4 < 1 ∨ s.param n 8 4 > 1000000))] (span 2 4) = none := by
    refine State.badField_none ?_ hzero (by rw [Mbx.sglFaults_nil hsgl]; simp)
    simp [State.badPart, hparam]
    omega
  generalize hv : (s.taken n).modPart p (fun q => { q with
      canaryNext := some (decide (s.param n 1 1 = 1), s.param n 4 4, s.param n 8 4) }) = v
  have hvpart : v.part p = { s.part p with canaryNext := some (decide (s.param n 1 1 = 1), s.param n 4 4, s.param n 8 4) } := by
    rw [← hv, State.modPart_part_self, State.taken_part]
  have haside : Aside (s.taken n) v := hv ▸ ⟨rfl, rfl, rfl⟩
  have hnext : exec (.canaryConfig n) s = .next ((if running (v.part p).st then v else v.settleCanary p).okWith n []) := by
    rw [exec_canaryConfig, execCanaryConfig]
    simp only [hparam]
    rw [State.command_acts hrun]
    · rw [State.taken_param, hv]
    · rw [hlen, hfield, hscope, State.partBusy_free hheld]
      rfl
  refine ⟨fun hst hobs => ?_, fun hst => ?_⟩
  · have hidle : running (v.part p).st = false := by rw [hvpart]; exact hst
    simp only [hidle, Bool.false_eq_true, if_false] at hnext
    refine ⟨_, hnext, State.acted_answered (haside.trans (v.settleCanary_aside p)) hd _, ?_⟩
    rw [State.okWith_part, State.settleCanary_part (congrArg Partition.canaryNext hvpart)
      ((congrArg Partition.observeNext hvpart).trans hobs), hvpart]
  · have hidle : running (v.part p).st = true := by rw [hvpart]; exact hst
    simp only [hidle, if_true] at hnext
    exact ⟨_, hnext, State.acted_answered haside hd _, by rw [State.okWith_part, hvpart]⟩

theorem tset_any_key {α : Type} (t : Tab α) (k : Nat) (v : α) : ((tset t k v).any fun o => o.1 = k) = true := by
  induction t with
  | nil => simp [tset]
  | cons e t ih =>
    obtain ⟨i, w⟩ := e
    unfold tset
    split
    · simp
    · split
      · simp
      · simp [ih]

/-- A site placed under observation by command: its tile's event is raised. -/
theorem State.setObserve_on (s : State) (t : TileId) : ∃ l, EventOnly { s with observed := l } (s.setObserve t true) ∧
    (l.any fun o => o.1 = siteKey (s.siteOf t).1 (s.siteOf t).2) = true ∧ s.eventCount < (s.setObserve t true).eventCount := by
  have heq : s.setObserve t true = State.raiseTile
      { s with observed := tset s.observed (siteKey (s.siteOf t).1 (s.siteOf t).2) { tides := 0, cause := 2 } }
      t 0x0703 1 (2 ^ 63 + 2 * 2 ^ 60) := by
    unfold State.setObserve
    simp only [if_true]
    unfold State.beginObserve
    dsimp only
    rw [if_neg (by simp)]
  have hcount : ∀ w : State, w.eventCount = s.eventCount →
      s.eventCount < (w.raiseTile t 0x0703 1 (2 ^ 63 + 2 * 2 ^ 60)).eventCount :=
    fun w hw => hw ▸ w.raiseTile_low_eventCount_lt t _ _ (by decide)
  rw [heq]
  exact ⟨_, State.raiseTile_eventOnly _ _ _ _ _, tset_any_key _ _ _, hcount _ rfl⟩

theorem tileObserve_taken {s : State} {n : Nat} {t : TileId} (hasks : s.asks n 0x0802 5) (hparam : s.param n 0 4 = t)
    (htile : s.badTile n = (0, false)) (hon : s.param n 4 1 = 1) (hscope : s.tileScope n t = none)
    (hcanary : bit (s.tile t).canary.toNat 31 = true) (hstripe : s.withdrawn.getLsbD (tileStripe t + s.sigma0) = false)
    (hheld : ∀ p, s.partOf t = some p → s.partHeld n p = false) :
    (s.inTide t = false → ∃ s', exec (.tileObserve n) s = .next s' ∧ s.answered s' n 0 [] ∧ s'.isObserved t = true ∧
      s.eventCount < s'.eventCount ∧ s'.tiles = s.tiles) ∧
    (∀ p, s.partOf t = some p → running (s.part p).st = true → ∃ s', exec (.tileObserve n) s = .next s' ∧
      s.answered s' n 0 [] ∧ (s'.part p).observeNext = (s.part p).observeNext ++ [(t, true)] ∧ s'.observed = s.observed ∧
      s'.tiles = s.tiles) := by
  have hlen := hasks.badLength (by decide) false
  have hfield := hasks.badField (fields := [(0, false), (4, decide (1 > 1))]) (by simp)
  obtain ⟨hrun, hd, -⟩ := hasks
  have hbusy : (match s.partOf t with
      | some p => s.partBusy n p
      | none => none) = none := by
    split
    · next p hp => exact State.partBusy_free (hheld p hp)
    · rfl
  have hnext : exec (.tileObserve n) s = .next ((match s.partOf t with
      | some p => if running (s.part p).st then (s.taken n).modPart p fun q => { q with observeNext := q.observeNext ++ [(t, true)] }
        else (s.taken n).setObserve t true
      | none => (s.taken n).setObserve t true).okWith n []) := by
    rw [exec_tileObserve, execTileObserve]
    simp only [hparam, htile, hon]
    rw [State.command_acts hrun]
    · simp only [State.taken_param, hon]
      rfl
    · rw [hlen, hfield, hscope, hcanary, hstripe]
      exact congrArg (fun o => [none, none, none, none, o].findSome? id) hbusy
  refine ⟨fun hin => ?_, fun p hp hst => ?_⟩
  · have hset : (match s.partOf t with
        | some p => if running (s.part p).st then (s.taken n).modPart p fun q => { q with observeNext := q.observeNext ++ [(t, true)] }
          else (s.taken n).setObserve t true
        | none => (s.taken n).setObserve t true) = (s.taken n).setObserve t true := by
      cases hp : s.partOf t with
      | none => rfl
      | some p =>
        simp only [State.inTide, hp] at hin
        simp only [hin, Bool.false_eq_true, if_false]
    rw [hset] at hnext
    obtain ⟨l, hevent, hkey, hcount⟩ := (s.taken n).setObserve_on t
    have haside : Aside (s.taken n) ((s.taken n).setObserve t true) := ((s.taken n).setObserve_repairOnly t true).aside
    have hfin := State.okWith_eventOnly (haside.done hd) []
    refine ⟨_, hnext, State.acted_answered haside hd _, ?_, ?_, ?_⟩
    · rw [State.isObserved, hfin, hevent]
      exact hkey
    · exact Nat.lt_of_lt_of_le hcount (State.finish_eventCount_le _ _ _ _ _ _ _)
    · rw [hfin, hevent]
      rfl
  · simp only [hp, hst, if_true] at hnext
    generalize hv : (s.taken n).modPart p (fun q => { q with observeNext := q.observeNext ++ [(t, true)] }) = v at hnext
    have haside : Aside (s.taken n) v := hv ▸ ⟨rfl, rfl, rfl⟩
    have hfin := State.okWith_eventOnly (haside.done hd) []
    refine ⟨_, hnext, State.acted_answered haside hd _, ?_, ?_, ?_⟩
    · rw [State.okWith_part, ← hv, State.modPart_part_self]
      rfl
    · rw [hfin, ← hv]
      rfl
    · rw [hfin, ← hv]
      rfl

/-! TILE_REPAIR (R3, R411, R468) -/

section
variable {s : State} {px py : Nat} (hasks : s.asks 0 0x0803 4) (hx : s.param 0 0 2 = px) (hy : s.param 0 2 2 = py)
  (hpy : py < 288)
include hasks hx hy hpy

/-- A site that is disabled already, or of a stripe that is not enabled, is refused at its field PX. -/
theorem tileRepair_refused (hbad : s.disabled.contains (px, py) = true ∨ s.fuses.stripeMap.getLsbD (px / 37) = false) :
    ∃ s', exec (.tileRepair 0) s = .next s' ∧ s.answered s' 0 0x0103 [] ∧ (s'.mb 0).offset = 0 ∧
      s'.disabled = s.disabled ∧ s'.tiles = s.tiles := by
  have hlen := hasks.badLength (by decide) false
  obtain ⟨hrun, hd, -, hsgl⟩ := hasks
  have hfield : s.badField 0 [(0, decide (px ≥ 296) || !(s.fuses.stripeMap.getLsbD (px / 37)) || s.disabled.contains (px, py)),
      (2, decide (py ≥ 288))] [] = some { status := stField, offset := 0 } := by
    have hb : (!(s.fuses.stripeMap.getLsbD (px / 37)) || s.disabled.contains (px, py)) = true := by
      obtain h | h := hbad
      · rw [h, Bool.or_true]
      · rw [h]
        rfl
    have hno : decide (py ≥ 288) = false := by simpa using hpy
    rw [Bool.or_assoc, hb, hno, Bool.or_true, State.badField]
    simp only [Mbx.sglFaults_nil hsgl]
    rfl
  have hnext : exec (.tileRepair 0) s = .next ((s.taken 0).refuse 0 { status := stField, offset := 0 }) := by
    rw [exec_tileRepair, execTileRepair]
    simp only [hx, hy]
    rw [State.command_refuses hrun (r := { status := stField, offset := 0 })]
    rw [hlen, hfield]
    rfl
  obtain ⟨t, ht, -, hrefuse⟩ := (s.taken 0).refuse_eq 0 { status := stField, offset := 0 }
  have haside := ht.aside
  have hfin := State.finish_eventOnly (haside.done hd) stField [] [] 0 0
  refine ⟨_, hnext, ((s.taken_samePage 0).refused hd { status := stField, offset := 0 }).1, ?_, ?_, ?_⟩ <;> rw [hrefuse]
  · rw [hfin.mb, State.complete_mb_self]
    rfl
  · rw [hfin, ht]
    rfl
  · rw [hfin, ht]
    rfl

/-- The site of a tile is disabled, and the command waits for the reset of the tile. -/
theorem tileRepair_disables (hpx : px < 296) {t : TileId} (hquiet : s.quietPart (s.partOfPhys (px / 37)) = true)
    (hbusy : s.optBusy 0 (s.partOfPhys (px / 37)) = none) (hmap : s.fuses.stripeMap.getLsbD (px / 37) = true)
    (hsite : s.disabled.contains (px, py) = false) (hroom : s.segHasRoom px py = true) (ht : s.tileAt px py = some t) :
    ∃ s', exec (.tileRepair 0) s = .next s' ∧ s'.waits 0 ∧ s'.disabled = s.disabled ++ [(px, py)] ∧
      s.eventCount < s'.eventCount := by
  have hlen := hasks.badLength (by decide) false
  have hfield := hasks.badField (fields := [(0, decide (px ≥ 296) || !(s.fuses.stripeMap.getLsbD (px / 37)) || s.disabled.contains (px, py)),
      (2, decide (py ≥ 288))]) (by
    simp only [hmap, hsite, List.forall_mem_cons, List.not_mem_nil, false_imp_iff, implies_true, and_true]
    exact ⟨by simpa using hpx, by simpa using hpy⟩)
  obtain ⟨hrun, hd, -⟩ := hasks
  have hnext : exec (.tileRepair 0) s = .next (((s.taken 0).disableSite px py 2 0 0).attach 0 t 0 []) := by
    have hat : (s.taken 0).tileAt px py = some t := ht
    rw [exec_tileRepair, execTileRepair]
    simp only [hx, hy]
    rw [State.command_acts hrun]
    · rw [hat]
    · rw [hlen, hfield, deviceScope_zero, hquiet, hbusy, hroom]
      rfl
  obtain ⟨hrep, hcount⟩ := State.disableSite_repairOnly (s := s.taken 0) hsite 2 0 0
  have haside : Aside (s.taken 0) ((s.taken 0).disableSite px py 2 0 0) := ((s.taken 0).disableSite_remaps px py 2 0 0).aside
  exact ⟨_, hnext, State.waits_of_aside (haside.trans ⟨rfl, rfl, rfl⟩) hd, hrep.disabled, hcount⟩

end

/-! SCAN_RUN (R431, R484) -/

theorem State.openSwitches_unheld {s : State} {c : Nat} (h : (s.cluster c).heldMbx = none) :
    s.openSwitches c = (s.darken c).modCluster c Cluster.opening := by
  unfold State.openSwitches
  dsimp only
  rw [h]
  rfl

theorem State.darken_repairOnly (s : State) (c : Nat) : RepairOnly s (s.darken c) :=
  each_repairOnly (fun t v => (v.modTile_repairOnly t _).trans (State.signalAbsorb_repairOnly _ t)) _ _

/-- Power-ups that begin change clusters alone. -/
theorem State.fillSlots_frame (s : State) : ∃ l, s.fillSlots = { s with clusters := l } := by
  refine each_induction (P := fun t => ∃ l, t = { s with clusters := l }) (fun c t ⟨l, ht⟩ => ?_) _ _ ⟨s.clusters, rfl⟩
  dsimp only
  split
  · exact ⟨_, by rw [ht]; rfl⟩
  · exact ⟨l, ht⟩

/-- A cluster whose power-up waits still waits, or rises. -/
theorem State.fillSlots_cluster {s : State} {c : Nat} (h : (s.cluster c).powerUpHeld = true) :
    (s.fillSlots.cluster c).powerUpHeld = true ∨ (s.fillSlots.cluster c).rising = true := by
  refine each_induction (P := fun t => (t.cluster c).powerUpHeld = true ∨ (t.cluster c).rising = true) (fun k t ht => ?_) _ _ (.inl h)
  dsimp only
  split
  · by_cases hk : c = k
    · subst hk
      rw [State.modCluster_cluster_self]
      exact .inr rfl
    · rw [State.modCluster_cluster_ne _ _ hk]
      exact ht
  · exact ht

/-- What the request for a cluster's power leaves beside the cluster. -/
structure AsksPower (s t : State) : Prop extends Aside s t where
  scan : t.scan = s.scan
  events : s.eventCount ≤ t.eventCount

theorem EventOnly.asksPower {s t : State} (h : EventOnly s t) (hc : s.eventCount ≤ t.eventCount) : AsksPower s t :=
  ⟨h.aside, by rw [h], hc⟩

theorem AsksPower.trans {s t u : State} (h : AsksPower s t) (k : AsksPower t u) : AsksPower s u :=
  ⟨h.toAside.trans k.toAside, k.scan.trans h.scan, Nat.le_trans h.events k.events⟩

theorem State.modCluster_asksPower (s : State) (c : Nat) (f : Cluster → Cluster) : AsksPower s (s.modCluster c f) :=
  ⟨s.modCluster_aside c f, rfl, Nat.le_refl _⟩

theorem State.enableHeldEvent_asksPower (s : State) (unit opcode : Nat) : AsksPower s (s.enableHeldEvent unit opcode) :=
  (State.raiseDev_eventOnly _ _ _ _ _).asksPower (Nat.le_of_lt (State.raiseDev_eventCount_lt _ _ _ _ _))

theorem State.fillSlots_asksPower (s : State) : AsksPower s s.fillSlots := by
  obtain ⟨l, h⟩ := s.fillSlots_frame
  rw [h]
  exact ⟨⟨rfl, rfl, rfl⟩, rfl, Nat.le_refl _⟩

theorem State.powerUpBegin_asks (s : State) (c opcode : Nat) (m : Option Nat) : AsksPower s (s.powerUpBegin c opcode m) := by
  unfold State.powerUpBegin
  dsimp only
  split
  · exact ⟨.refl s, rfl, Nat.le_refl _⟩
  · split
    · exact (s.modCluster_asksPower c _).trans (State.enableHeldEvent_asksPower _ _ _)
    · exact (s.modCluster_asksPower c _).trans (State.fillSlots_asksPower _)

/-- A cluster that switches holds the request for its power, which is an event; any other begins as soon as there is a place. -/
theorem State.powerUpBegin_cluster {s : State} {c : Nat} (hpower : (s.cluster c).power = false)
    (hheld : (s.cluster c).powerUpHeld = false) (opcode : Nat) (m : Option Nat) :
    (((s.powerUpBegin c opcode m).cluster c).powerUpHeld = true ∨ ((s.powerUpBegin c opcode m).cluster c).rising = true) ∧
    ((s.cluster c).rising = false → (s.cluster c).switching = true → s.eventCount < (s.powerUpBegin c opcode m).eventCount ∧
      (s.powerUpBegin c opcode m).cluster c =
        { s.cluster c with powerUpHeld := true, heldOpcode := opcode, heldMbx := m }) := by
  have hbusy : ((s.cluster c).power || (s.cluster c).rising || (s.cluster c).powerUpHeld) = (s.cluster c).rising := by
    rw [hpower, hheld, Bool.false_or, Bool.or_false]
  unfold State.powerUpBegin
  dsimp only
  rw [hbusy]
  generalize hv : s.modCluster c _ = v
  have hvc : v.cluster c = { s.cluster c with powerUpHeld := true, heldOpcode := opcode, heldMbx := m } := by
    rw [← hv, State.modCluster_cluster_self]
  have hcount : v.eventCount = s.eventCount := by rw [← hv]; rfl
  have hevent : (v.enableHeldEvent (unitId 1 c) opcode).cluster c = v.cluster c := (State.raiseDev_eventOnly _ _ _ _ _).cluster c
  refine ⟨?_, fun hrise hsw => ?_⟩
  · cases hrise : (s.cluster c).rising with
    | true => exact .inr (by rw [if_pos rfl, hrise])
    | false =>
      rw [if_neg (by decide)]
      split
      · rw [hevent, hvc]
        exact .inl rfl
      · exact State.fillSlots_cluster (by rw [hvc])
  · rw [if_neg (by rw [hrise]; decide), if_pos hsw, hevent, ← hcount]
    exact ⟨State.raiseDev_eventCount_lt _ _ _ _ _, hvc⟩

theorem scanRun_taken {s : State} {c : Nat} (hasks : s.asks 0 0x0804 4) (hc : s.param 0 0 2 = c) (hpack : s.param 0 2 2 = 0)
    (hlt : c < 288) (hmap : s.fuses.stripeMap.getLsbD (c / 36) = true) (hquiet : s.quietPart (s.partOfPhys (c / 36)) = true)
    (hbusy : s.optBusy 0 (s.partOfPhys (c / 36)) = none) (hresets : s.resets = []) (hscan : s.scan = none)
    (hheld : (s.cluster c).powerUpHeld = false) (hmbx : (s.cluster c).heldMbx = none) (hoff : s.boot.poweredOff = false) :
    ∃ s', exec (.scanRun 0 []) s = .next s' ∧ s'.waits 0 ∧
      s'.scan = some { mbx := 0, cluster := c, pack := 0, failing := [] } ∧
      ((s.cluster c).power = true → (s'.cluster c).power = false ∧ (s'.cluster c).switching = true ∧
        (s'.cluster c).powerUpHeld = true ∧ s.eventCount < s'.eventCount) ∧
      ((s.cluster c).power = false → ((s'.cluster c).powerUpHeld = true ∨ (s'.cluster c).rising = true)) := by
  have hlen := hasks.badLength (by decide) false
  have hfield := hasks.badField (fields := [(0, decide (c ≥ 288) || !(s.fuses.stripeMap.getLsbD (c / 36))), (2, !(s.packKnown 0))]) (by
    simp only [hmap, List.forall_mem_cons, List.not_mem_nil, false_imp_iff, implies_true, and_true]
    exact ⟨by simpa using hlt, rfl⟩)
  obtain ⟨hrun, hd, -⟩ := hasks
  generalize hv : (if (s.cluster c).power then (s.taken 0).openSwitches c else s.taken 0) = v
  have hnext : exec (.scanRun 0 []) s = .next (State.powerUpBegin
      { v with scan := some { mbx := 0, cluster := c, pack := 0, failing := [] } } c 0x0804 (some 0)) := by
    rw [exec_scanRun, execScanRun]
    simp only [hc, hpack]
    rw [State.command_acts hrun, hv]
    rw [hlen, hfield, deviceScope_zero, hquiet, hbusy, hscan, hheld, hresets, hoff]
    rfl
  have hopen : (s.taken 0).openSwitches c = ((s.taken 0).darken c).modCluster c Cluster.opening := State.openSwitches_unheld hmbx
  have hcluster : v.cluster c = if (s.cluster c).power then (s.cluster c).opening else s.cluster c := by
    rw [← hv]
    split
    · exact State.openSwitches_cluster _ _
    · rfl
  have hvaside : Aside (s.taken 0) v ∧ s.eventCount = v.eventCount := by
    rw [← hv]
    split
    · rw [hopen]
      exact ⟨((s.taken 0).darken_repairOnly c).aside.trans (State.modCluster_aside _ _ _), ((s.taken 0).darken_eventCount c).symm⟩
    · exact ⟨.refl _, rfl⟩
  obtain ⟨haside, hcount⟩ := hvaside
  generalize hw : ({ v with scan := some { mbx := 0, cluster := c, pack := 0, failing := [] } } : State) = w at hnext
  have hwc : w.cluster c = if (s.cluster c).power then (s.cluster c).opening else s.cluster c := by
    rw [← hw]
    exact hcluster
  have hasksPower := w.powerUpBegin_asks c 0x0804 (some 0)
  have hwaside : Aside (s.taken 0) w := haside.trans (hw ▸ ⟨rfl, rfl, rfl⟩)
  refine ⟨_, hnext, State.waits_of_aside (hwaside.trans hasksPower.toAside) hd, ?_, fun hpower => ?_, fun hpower => ?_⟩
  · rw [hasksPower.scan, ← hw]
  · rw [hpower, if_pos rfl] at hwc
    obtain ⟨-, hheldUp⟩ := State.powerUpBegin_cluster (s := w) (c := c) (by rw [hwc]; rfl) (by rw [hwc]; rfl) 0x0804 (some 0)
    obtain ⟨hlt, hcl⟩ := hheldUp (by rw [hwc]; rfl) (by rw [hwc, Cluster.opening, hpower]; rfl)
    rw [hcl, hwc]
    refine ⟨rfl, ?_, rfl, ?_⟩
    · rw [Cluster.opening, hpower]
      rfl
    · rw [hcount]
      exact Nat.lt_of_le_of_lt (Nat.le_of_eq (by rw [← hw])) hlt
  · rw [hpower, if_neg (by decide)] at hwc
    exact (State.powerUpBegin_cluster (by rw [hwc, hpower]) (by rw [hwc, hheld]) 0x0804 (some 0)).1

theorem mailboxSettingsAndRepair : Claims.MailboxSettingsAndRepair := by
  intro s n
  refine ⟨powerCap_taken, freqStep_taken, telemetry_taken, ?_, ?_, ?_, ?_⟩
  · exact fun p hasks hparam hp hen hzero h1 h2 h3 h4 hscope hheld =>
      canaryConfig_taken hasks hparam hp hen hzero h1 h2 h3 h4 hscope hheld
  · exact fun t hasks hparam htile hon hscope hcanary hstripe hheld =>
      tileObserve_taken hasks hparam htile hon hscope hcanary hstripe hheld
  · exact fun px py hasks hx hy hpx hpy hquiet hbusy => ⟨tileRepair_refused hasks hx hy hpy,
      fun t hmap hsite hroom ht => tileRepair_disables hasks hx hy hpy hpx hquiet hbusy hmap hsite hroom ht⟩
  · exact fun c hasks hc hpack hlt hmap hquiet hbusy hresets hscan hheld hmbx hoff =>
      scanRun_taken hasks hc hpack hlt hmap hquiet hbusy hresets hscan hheld hmbx hoff

end Sys2Proof.Machine
end

section
/-!
SUPPORT. The mailbox commands on ports, jobs and firmware banks (`Claims.MailboxJobsAndFirmware`).
-/

namespace Sys2Proof.Machine

theorem exec_fabricTrain (s : State) (n : Nat) (up : BitVec 6) : exec (.fabricTrain n up) s = execFabricTrain n up s := rfl
theorem exec_jobForm (s : State) (n : Nat) : exec (.jobForm n) s = execJobForm n s := rfl
theorem exec_jobLeave (s : State) (n : Nat) : exec (.jobLeave n) s = execJobLeave n s := rfl
theorem exec_jobJoin (s : State) (n : Nat) : exec (.jobJoin n) s = execJobJoin n s := rfl
theorem exec_fwActivate (s : State) (n : Nat) : exec (.fwActivate n) s = execFwActivate n s := rfl
theorem exec_fwRollback (s : State) (n : Nat) : exec (.fwRollback n) s = execFwRollback n s := rfl
theorem exec_fwConfirm (s : State) (n : Nat) : exec (.fwConfirm n) s = execFwConfirm n s := rfl

theorem SendsOnly.aside {s t : State} (h : SendsOnly s t) : Aside s t := ⟨by rw [h], by rw [h], by rw [h]⟩

/-- What a command has answered stands while its page does. -/
theorem State.answered_aside {s t u : State} {n st : Nat} {resp : List Byte} (h : s.answered t n st resp) (k : Aside t u) :
    s.answered u n st resp := by
  unfold State.answered at h ⊢
  rw [k.mb, k.count]
  exact h

/-! Ports that change one after another (R412) -/

theorem each_modHport_sendsOnly (f : Nat → State → HPort → HPort) (l : List Nat) (s : State) :
    SendsOnly s (each l (fun q st => st.modHport q (f q st)) s) := each_sendsOnly (fun q v => (rfl : SendsOnly v (v.modHport q (f q v)))) l s

theorem each_modHport_hport_of_not_mem (f : Nat → HPort → HPort) {q : Nat} (l : List Nat) (s : State) (h : q ∉ l) :
    (each l (fun q st => st.modHport q (f q)) s).hport q = s.hport q := by
  induction l generalizing s with
  | nil => rfl
  | cons a l ih =>
    obtain ⟨ha, hl⟩ := List.ne_and_not_mem_of_not_mem_cons h
    exact (ih (s.modHport a (f a)) hl).trans (State.modHport_hport_ne _ _ ha)

theorem each_modHport_hport_of_mem (f : Nat → HPort → HPort) {q : Nat} (l : List Nat) (s : State) (hnd : l.Nodup) (h : q ∈ l) :
    (each l (fun q st => st.modHport q (f q)) s).hport q = f q (s.hport q) := by
  induction l generalizing s with
  | nil => exact absurd h List.not_mem_nil
  | cons a l ih =>
    obtain ⟨hal, hnd⟩ := List.nodup_cons.mp hnd
    obtain rfl | hq := List.mem_cons.mp h
    · exact (each_modHport_hport_of_not_mem f l (s.modHport q (f q)) hal).trans (State.modHport_hport_self _ _ _)
    · exact (ih (s.modHport a (f a)) hnd hq).trans (congrArg (f q) (State.modHport_hport_ne _ _ (ne_of_mem_of_not_mem hq hal)))

theorem trainedPort_up (x : HPort) (up : Bool) : (trainedPort x up).up = (up && !x.calFailed) := by
  unfold trainedPort
  cases h : up && !x.calFailed <;> rfl

theorem State.upMask_of_hports {s t : State} (h : t.hports = s.hports) : t.upMask = s.upMask := by
  simp only [State.upMask, State.hport, h]

theorem State.okWith_hports {s : State} {n : Nat} (h : (s.mb n).done = false) (resp : List Byte) :
    (s.okWith n resp).hports = s.hports := by
  rw [State.okWith_eventOnly h]
  rfl

/-- The outcome of training of every port of `l`, which is read from the state on the way. -/
def State.trainEach (s : State) (up : BitVec 6) (l : List Nat) : State :=
  each l (fun q st => st.modHport q fun x => trainedPort x (up.getLsbD q && st.portEnabled q && !st.boot.poweredOff)) s

theorem State.trainPorts_eq (s : State) (n ports : Nat) (up : BitVec 6) : s.trainPorts n ports up =
    (fun t : State => t.okWith n (leBytes 1 t.upMask))
      (each ((List.range 6).filter fun q => !(bit ports q)) (fun q st => st.portShutBegin q)
        (s.trainEach up ((List.range 6).filter fun q => bit ports q))) := rfl

theorem State.trainEach_sendsOnly (s : State) (up : BitVec 6) (l : List Nat) : SendsOnly s (s.trainEach up l) :=
  each_modHport_sendsOnly (fun q st x => trainedPort x (up.getLsbD q && st.portEnabled q && !st.boot.poweredOff)) l s

/-- Training reads nothing that it changes. -/
theorem State.trainEach_eq (s : State) (up : BitVec 6) (l : List Nat) : s.trainEach up l =
    each l (fun q st => st.modHport q fun x => trainedPort x (up.getLsbD q && s.portEnabled q && !s.boot.poweredOff)) s := by
  induction l generalizing s with
  | nil => rfl
  | cons a l ih =>
    exact ih (s.modHport a fun x => trainedPort x (up.getLsbD a && s.portEnabled a && !s.boot.poweredOff))

theorem State.trainEach_up {s : State} (up : BitVec 6) {l : List Nat} (hnd : l.Nodup) {q : Nat} (hq : q ∈ l) :
    ((s.trainEach up l).hport q).up = (up.getLsbD q && s.portEnabled q && !(s.hport q).calFailed && !s.boot.poweredOff) := by
  rw [State.trainEach_eq, each_modHport_hport_of_mem
    (fun q x => trainedPort x (up.getLsbD q && s.portEnabled q && !s.boot.poweredOff)) l s hnd hq, trainedPort_up, Bool.and_right_comm]

/-- With all six ports asked for, every port trains and none shuts down. -/
theorem State.trainPorts_all (s : State) (n : Nat) (up : BitVec 6) : s.trainPorts n 63 up =
    (s.trainEach up (List.range 6)).okWith n (leBytes 1 (s.trainEach up (List.range 6)).upMask) := by
  have hall : (List.range 6).filter (fun q => bit 63 q) = List.range 6 := by decide
  have hnone : (List.range 6).filter (fun q => !(bit 63 q)) = [] := by decide
  rw [State.trainPorts_eq, hall, hnone, each, List.foldl_nil]

theorem fabricTrain_taken {s : State} {up : BitVec 6} (hasks : s.asks 0 0x0901 1) (hparam : s.param 0 0 1 = 63)
    (hjob : s.inNoJob = true) (hshut : ∀ q, (s.hport q).shutting = false) : ∃ s', exec (.fabricTrain 0 up) s = .next s' ∧
      s.answered s' 0 0 (leBytes 1 s'.upMask) ∧
      ∀ q, q < 6 → (s'.hport q).up = (up.getLsbD q && s.portEnabled q && !(s.hport q).calFailed && !s.boot.poweredOff) := by
  have hlen := hasks.badLength (by decide) false
  have hfield := hasks.badField (fields := [(0, decide (63 > 63))]) (by simp)
  obtain ⟨hrun, hd, -⟩ := hasks
  have hnone : s.shuttingOf 63 = [] := by simp [State.shuttingOf, hshut]
  have hsends := (s.taken 0).trainEach_sendsOnly up (List.range 6)
  have hup := fun q (hq : q < 6) => (s.taken 0).trainEach_up up List.nodup_range (List.mem_range.mpr hq)
  have heq := (s.taken 0).trainPorts_all 0 up
  generalize (s.taken 0).trainEach up (List.range 6) = t at hsends hup heq
  have hports := State.okWith_hports (hsends.aside.done hd) (leBytes 1 t.upMask)
  refine ⟨t.okWith 0 (leBytes 1 t.upMask), ?_, ?_, fun q hq => ?_⟩
  · rw [exec_fabricTrain, execFabricTrain]
    simp only [hparam, hnone, List.isEmpty_nil, Bool.not_true, Bool.false_eq_true, and_false, if_false]
    rw [State.command_acts hrun, heq]
    rw [hlen, hfield, deviceScope_zero, hjob]
    rfl
  · rw [State.upMask_of_hports hports]
    exact State.acted_answered hsends.aside hd _
  · rw [State.hport, hports]
    exact hup q hq

/-! Forming and joining a job (R348, R351) -/

/-- What an enable leaves alone while it takes the device out of removal readiness. -/
theorem State.cancelRemove_frame (s : State) (opcode : Nat) :
    ∃ r p, EventOnly { s with removeReady := r, pins := p } (s.cancelRemove opcode) := by
  unfold State.cancelRemove
  split
  · exact ⟨_, _, State.raiseDev_eventOnly _ _ _ _ _⟩
  · exact ⟨s.removeReady, s.pins, rfl⟩

theorem Job.ports_lt {b : Job} {q : Nat} (h : q ∈ b.ports) : q < 6 := List.mem_range.mp (List.mem_of_mem_filter h)

theorem State.portEnabled_all {s : State} (hmap : s.fuses.portMap = 63) {q : Nat} (h : q < 6) : s.portEnabled q = true := by
  rw [State.portEnabled, hmap]
  interval_cases q <;> rfl

/-- Training begins with every port of the job down: all are enabled and calibrated, and none shuts down. -/
theorem State.startTraining_trains {s : State} (hmap : s.fuses.portMap = 63)
    (hports : ∀ q, (s.hport q).shutting = false ∧ (s.hport q).calFailed = false) (hoff : s.boot.poweredOff = false)
    (n opcode : Nat) : SendsOnly s (s.startTraining n opcode) ∧
      ∀ q ∈ s.job.ports, ((s.startTraining n opcode).hport q).up = false := by
  have henabled : s.job.ports.find? (fun q => !(s.portEnabled q)) = none :=
    List.find?_eq_none.mpr fun q hq => by simp [State.portEnabled_all hmap (Job.ports_lt hq)]
  have hcal : s.job.ports.find? (fun q => (s.hport q).calFailed || s.boot.poweredOff) = none :=
    List.find?_eq_none.mpr fun q _ => by simp [hports q, hoff]
  have hwait : s.job.ports.filter (fun q => (s.hport q).shutting && (s.hport q).trainHeld.isNone) = [] :=
    List.filter_eq_nil_iff.mpr fun q _ => by simp [hports q]
  have heq : s.startTraining n opcode = each s.job.ports (fun q st => st.modHport q fun x =>
      { x with up := false, beacon := none, greeted := false, named := false, rxSeq := 0, txSeq := 0, badRun := 0 }) s := by
    unfold State.startTraining
    simp only [henabled, hcal, hwait]
    rfl
  rw [heq]
  exact ⟨each_modHport_sendsOnly (fun _ _ => _) _ _, fun q hq => congrArg HPort.up
    (each_modHport_hport_of_mem (fun _ _ => _) s.job.ports s (List.nodup_range.filter _) hq)⟩

theorem State.allIdle_all {s : State} (h : s.allIdle) : (s.parts.all fun q => decide (q.2.st = .none) || q.2.idle) = true :=
  List.all_eq_true.mpr fun q hq => by simpa using h q hq

section
variable {s : State} (hmap : s.fuses.portMap = 63)
  (hports : ∀ q, (s.hport q).shutting = false ∧ (s.hport q).calFailed = false) (hoff : s.boot.poweredOff = false)
include hmap hports hoff

/-- The formation of a job with descriptor `j` begins once the device is out of removal readiness. -/
theorem State.formation_begins (n opcode : Nat) {f : State → Job}
    (hf : ∀ t : State, Aside s t → t.job = s.job → t.fuses = s.fuses → f t = f s) :
    ∃ t, t = State.startTraining { s.cancelRemove opcode with job := f (s.cancelRemove opcode) } n opcode ∧ Aside s t ∧
      t.job = f s ∧ ∀ q ∈ t.job.ports, (t.hport q).up = false := by
  obtain ⟨r, p, hframe⟩ := s.cancelRemove_frame opcode
  generalize s.cancelRemove opcode = v at hframe ⊢
  have haside : Aside s v := ⟨by rw [hframe], by rw [hframe], by rw [hframe]⟩
  have hjob : f v = f s := hf v haside (by rw [hframe]) (by rw [hframe])
  have hvports : ∀ q, v.hport q = s.hport q := fun q => by rw [State.hport, hframe, State.hport]
  generalize hw : ({ v with job := f v } : State) = w
  have hwaside : Aside s w := haside.trans (hw ▸ ⟨rfl, rfl, rfl⟩)
  have hwports : ∀ q, w.hport q = s.hport q := fun q => by rw [← hvports, ← hw]; rfl
  obtain ⟨hsends, hdown⟩ := State.startTraining_trains (s := w) (by rw [← hw, ← hmap, hframe])
    (fun q => by rw [hwports]; exact hports q) (by rw [← hw, ← hoff, hframe]) n opcode
  have htjob : (w.startTraining n opcode).job = f s := by rw [hsends.job, ← hw, ← hjob]
  refine ⟨_, rfl, hwaside.trans hsends.aside, htjob, ?_⟩
  rw [hsends.job]
  exact hdown

end

theorem jobForm_taken {s : State} (hasks : s.asks 0 0x0902 23) (hfield : s.badField 0 (s.badForm 0) [11] = none)
    (hjob : s.inNoJob = true) (hidle : s.allIdle) (hmap : s.fuses.portMap = 63)
    (hports : ∀ q, (s.hport q).shutting = false ∧ (s.hport q).calFailed = false) (hoff : s.boot.poweredOff = false) :
    ∃ s', exec (.jobForm 0) s = .next s' ∧ s'.waits 0 ∧ s'.job.formMbx = some 0 ∧ s'.job.id = s.param 0 0 8 ∧
      s'.job.dimI = s.param 0 8 1 ∧ s'.job.dimJ = s.param 0 9 1 ∧ s'.job.dimK = s.param 0 10 1 ∧
      s'.job.formingStep = (if s.param 0 12 8 = s.fuses.serial then 4 else 2) ∧ s'.job.formed = false ∧
      (∀ q ∈ s'.job.ports, (s'.hport q).up = false) := by
  have hlen := hasks.badLength (by decide) false
  obtain ⟨hrun, hd, -⟩ := hasks
  have hform : ∀ t : State, Aside (s.taken 0) t → t.job = (s.taken 0).job → t.fuses = (s.taken 0).fuses →
      t.formedJob 0 = (s.taken 0).formedJob 0 := fun t ha _ hfuses => by
    unfold State.formedJob State.param
    rw [ha.mb, hfuses]
  obtain ⟨t, ht, haside, htjob, hdown⟩ := State.formation_begins (s := s.taken 0) hmap hports hoff 0 0x0902 hform
  have hjobEq : t.job = s.formedJob 0 := by
    rw [htjob]
    simp only [State.formedJob, State.taken_param]
    rfl
  refine ⟨t, ?_, State.waits_of_aside haside hd, ?_, ?_, ?_, ?_, ?_, ?_, ?_, hdown⟩
  · rw [exec_jobForm, execJobForm, State.command_acts hrun, ht]
    rw [hlen, hfield, deviceScope_zero, hjob, State.allIdle_all hidle]
    rfl
  all_goals rw [hjobEq, State.formedJob]
  simp only [decide_eq_true_eq]

theorem jobJoin_taken {s : State} (hasks : s.asks 0 0x0904 0) (hleft : s.job.left = true) (hstep : s.job.formingStep = 0)
    (hidle : s.allIdle) (hmap : s.fuses.portMap = 63)
    (hports : ∀ q, (s.hport q).shutting = false ∧ (s.hport q).calFailed = false) (hoff : s.boot.poweredOff = false) :
    ∃ s', exec (.jobJoin 0) s = .next s' ∧ s'.waits 0 ∧ s'.job.formMbx = some 0 ∧ s'.job.joining = true ∧
      s'.job.formingStep ≠ 0 ∧ s'.job.id = s.job.id := by
  have hlen := hasks.badLength (by decide) false
  obtain ⟨hrun, hd, -⟩ := hasks
  generalize hf : (fun t : State => { t.job with
    formingStep := if decide (t.job.rootSerial = t.fuses.serial) then 4 else 2, formMbx := some 0, joining := true, formed := true }) = f
  obtain ⟨t, ht, haside, htjob, -⟩ := State.formation_begins (s := s.taken 0) hmap hports hoff 0 0x0904 (f := f)
    (fun t _ hj hfuses => by simp only [← hf, hj, hfuses])
  refine ⟨t, ?_, State.waits_of_aside haside hd, ?_, ?_, ?_, ?_⟩
  · rw [exec_jobJoin, execJobJoin, State.command_acts hrun, ht, ← hf]
    rw [hlen, deviceScope_zero, hleft, hstep, State.allIdle_all hidle]
    rfl
  all_goals rw [htjob, ← hf]
  · dsimp only
    split <;> decide
  · rfl

/-! Leaving a job (R351) -/

/-- A port that begins to shut down changes the ports alone. -/
theorem State.portShutBegin_sendsOnly (s : State) (q : Nat) : SendsOnly s (s.portShutBegin q) := by
  unfold State.portShutBegin
  split
  · rfl
  · rfl

/-- MEMBER with STATE 0 to the children of the root, and from any other member to its parent. -/
def State.tellLeaving (s : State) : State :=
  if s.isRoot then s.sendDown (.member s.jobTide s.job.rank 0) else s.sendUp (.member s.jobTide s.job.rank 0)

theorem State.beginLeave_eq (s : State) (m : Nat) : s.beginLeave m = (State.tellLeaving { s with job := { s.job with
    leaveMbx := some m, stopWanted := s.job.stopWanted || (s.isRoot && !s.jobParts.isEmpty) } }).leaveIfStopped := rfl

theorem State.tellLeaving_sendsOnly (s : State) : SendsOnly s s.tellLeaving := by
  unfold State.tellLeaving
  split
  · exact s.sendDown_sendsOnly _
  · exact s.sendUp_sendsOnly _

/-- The job left, on the device's own clock. -/
def State.leftJob (s : State) : State := { s.ownClock with job := { s.ownClock.job with leaveMbx := none, left := true } }

theorem State.leaveIfStopped_leaves {s : State} {m : Nat} (hmbx : s.job.leaveMbx = some m) (hparts : s.jobParts = []) :
    s.leaveIfStopped = (each s.job.ports (fun q st => st.portShutBegin q) s.leftJob).okWith m [] := by
  unfold State.leaveIfStopped
  simp only [hmbx, hparts, List.isEmpty_nil, if_true]
  rfl

/-- A member with no run of the job leaves at once. -/
theorem State.beginLeave_leaves {s : State} (hparts : s.jobParts = []) (m : Nat) : ∃ t, s.beginLeave m = t.okWith m [] ∧
    Aside s t ∧ t.job.left = true ∧ t.job.leaveMbx = none ∧ t.power.refOscillator = true ∧ t.parts = s.parts := by
  rw [State.beginLeave_eq]
  generalize hv : ({ s with job := { s.job with
    leaveMbx := some m, stopWanted := s.job.stopWanted || (s.isRoot && !s.jobParts.isEmpty) } } : State) = v
  have hsent := v.tellLeaving_sendsOnly
  generalize v.tellLeaving = w at hsent ⊢
  have hmbx : w.job.leaveMbx = some m := by rw [hsent.job, ← hv]
  have hnone : w.jobParts = [] := by rw [hsent.jobParts, ← hparts, ← hv]; rfl
  rw [State.leaveIfStopped_leaves hmbx hnone]
  have hshut : SendsOnly w.leftJob (each w.job.ports (fun q st => st.portShutBegin q) w.leftJob) :=
    each_sendsOnly (fun q t => t.portShutBegin_sendsOnly q) _ _
  have hvaside : Aside s v := hv ▸ ⟨rfl, rfl, rfl⟩
  have hleft : Aside w w.leftJob := ⟨rfl, rfl, rfl⟩
  refine ⟨_, rfl, ((hvaside.trans hsent.aside).trans hleft).trans hshut.aside, ?_, ?_, ?_, ?_⟩
  · rw [hshut.job, State.leftJob]
  · rw [hshut.job, State.leftJob]
  · rw [hshut]
    rfl
  · have hleftParts : w.leftJob.parts = w.parts := rfl
    rw [hshut, hleftParts, hsent, ← hv]

theorem jobLeave_taken {s : State} (hasks : s.asks 0 0x0903 0) (hin : s.inJob = true) (hparts : s.jobParts = []) :
    ∃ s', exec (.jobLeave 0) s = .next s' ∧ s.answered s' 0 0 [] ∧ s'.job.left = true ∧ s'.job.leaveMbx = none ∧
      s'.power.refOscillator = true ∧ s'.parts = s.parts := by
  have hlen := hasks.badLength (by decide) false
  obtain ⟨hrun, hd, -⟩ := hasks
  obtain ⟨t, heq, haside, hleft, hmbx, hosc, htparts⟩ := State.beginLeave_leaves (s := s.taken 0) hparts 0
  have hfin := State.okWith_eventOnly (haside.done hd) []
  refine ⟨t.okWith 0 [], ?_, State.acted_answered haside hd [], ?_, ?_, ?_, ?_⟩
  · rw [exec_jobLeave, execJobLeave, State.command_acts hrun, heq]
    rw [hlen, deviceScope_zero, hin]
    rfl
  · rw [hfin]
    exact hleft
  · rw [hfin]
    exact hmbx
  · rw [State.okWith_power, hosc]
  · rw [State.okWith, State.finish_parts, htparts]
    rfl

/-! Firmware banks (R402, R403, R505) -/

/-- The announcement of a device reset leaves the pages and the flash alone. -/
theorem State.announceDeviceReset_announces (s : State) :
    Aside s s.announceDeviceReset ∧ s.announceDeviceReset.flash = s.flash ∧ s.announceDeviceReset.boot.announced = true := by
  unfold State.announceDeviceReset
  split
  · next h => exact ⟨.refl s, rfl, h⟩
  · generalize hv : ({ s with boot := { s.boot with announced := true } } : State) = v
    have haside : Aside s v := hv ▸ ⟨rfl, rfl, rfl⟩
    have hsends : SendsOnly v v.announceReset := each_sendsOnly (fun q t => t.queueRec_sendsOnly q _) _ _
    refine ⟨haside.trans hsends.aside, ?_, ?_⟩ <;> rw [hsends, ← hv]

section
variable {s : State} {opcode : Nat} {ok : Bool} (hasks : s.asks 0 opcode 1) (hok : ok = true)
include hasks hok

theorem State.switchBank_cold (hmode : s.param 0 0 1 = 0) : ∃ s', s.switchBank 0 opcode ok = .next s' ∧ s.answered s' 0 0 [] ∧
    s'.flash.activateCold = true ∧ s'.flash.running = s.flash.running := by
  have hlen := hasks.badLength (by decide) false
  have hfield := hasks.badField (fields := [(0, decide (0 > 1))]) (by simp)
  obtain ⟨hrun, hd, -⟩ := hasks
  generalize hv : ({ s.taken 0 with flash := { (s.taken 0).flash with activateCold := true } } : State) = v
  have haside : Aside (s.taken 0) v := hv ▸ ⟨rfl, rfl, rfl⟩
  refine ⟨v.okWith 0 [], ?_, State.acted_answered haside hd [], ?_, ?_⟩
  · rw [State.switchBank]
    simp only [hmode]
    rw [State.command_acts hrun, if_neg (by decide), hv]
    · rw [hlen, hfield, deviceScope_zero, hok]
      rfl
  · rw [State.okWith_flash, ← hv]
  · rw [State.okWith_flash, ← hv]
    rfl

theorem State.switchBank_now (hmode : s.param 0 0 1 = 1) (hjob : s.inNoJob = true) (hidle : s.allIdle) :
    s.switchBank 0 opcode ok = .next ((s.taken 0).activateNow 0) := by
  have hlen := hasks.badLength (by decide) false
  have hfield := hasks.badField (fields := [(0, decide (1 > 1))]) (by simp)
  obtain ⟨hrun, hd, -⟩ := hasks
  rw [State.switchBank]
  simp only [hmode]
  rw [State.command_acts hrun, if_pos trivial]
  · rw [hlen, hfield, deviceScope_zero, hok, hjob, State.allIdle_all hidle]
    rfl

end

/-- The banks are exchanged when the command has completed, and the device reset is announced. -/
theorem State.activateNow_answered {s : State} (hd : (s.mb 0).done = false) : s.answered ((s.taken 0).activateNow 0) 0 0 [] ∧
    ((s.taken 0).activateNow 0).flash = { s.flash.swap with onTrial := true, rolledBack := false, activateCold := false } ∧
    ((s.taken 0).activateNow 0).boot.announced = true := by
  unfold State.activateNow
  dsimp only
  have hans := State.acted_answered (Aside.refl (s.taken 0)) hd []
  have hflash : ((s.taken 0).okWith 0 []).flash = s.flash := State.okWith_flash _ _ _
  generalize (s.taken 0).okWith 0 [] = v at hans hflash
  generalize hw : ({ v with
    flash := { v.flash.swap with onTrial := true, rolledBack := false, activateCold := false }
    boot := { v.boot with activation := true } } : State) = w
  obtain ⟨haside, hkept, hannounced⟩ := w.announceDeviceReset_announces
  have hvaside : Aside v w.announceDeviceReset := Aside.trans (t := w) (hw ▸ ⟨rfl, rfl, rfl⟩) haside
  refine ⟨State.answered_aside hans hvaside, ?_, hannounced⟩
  rw [hkept, ← hflash, ← hw]

theorem fwConfirm_taken {s : State} (hasks : s.asks 0 0x0A02 0) (htrial : s.flash.onTrial = true) :
    ∃ s', exec (.fwConfirm 0) s = .next s' ∧ s.answered s' 0 0 [] ∧ s'.flash.onTrial = false ∧
      s'.flash.fwFloor = max s.flash.fwFloor s.flash.running.floor ∧ s'.flash.running = s.flash.running := by
  have hlen := hasks.badLength (by decide) false
  obtain ⟨hrun, hd, -⟩ := hasks
  generalize hv : ({ s.taken 0 with flash := { (s.taken 0).flash with
      onTrial := false, fwFloor := max (s.taken 0).flash.fwFloor (s.taken 0).flash.running.floor } } : State) = v
  have haside : Aside (s.taken 0) v := hv ▸ ⟨rfl, rfl, rfl⟩
  refine ⟨v.okWith 0 [], ?_, State.acted_answered haside hd [], ?_⟩
  · rw [exec_fwConfirm, execFwConfirm, State.command_acts hrun, hv]
    rw [hlen, deviceScope_zero, htrial]
    rfl
  · rw [State.okWith_flash, ← hv]
    exact ⟨rfl, rfl, rfl⟩

theorem mailboxJobsAndFirmware : Claims.MailboxJobsAndFirmware := by
  intro s
  refine ⟨fun up => fabricTrain_taken, jobForm_taken, jobLeave_taken, jobJoin_taken, fun hvalid => ⟨?_, ?_, ?_⟩, fwConfirm_taken⟩
  · intro hverified hasks hmode
    rw [exec_fwActivate, execFwActivate]
    exact State.switchBank_cold hasks (by rw [hvalid, hverified]; rfl) hmode
  · intro hverified hasks hmode hjob hidle
    have hnext := State.switchBank_now hasks (ok := s.flash.other.valid && s.flash.other.verified)
      (by rw [hvalid, hverified]; rfl) hmode hjob hidle
    obtain ⟨-, hd, -⟩ := hasks
    obtain ⟨hans, hflash, hboot⟩ := State.activateNow_answered hd
    refine ⟨_, hnext, hans, ?_, ?_, hboot, ?_⟩ <;> rw [hflash] <;> rfl
  · intro hasks hmode
    rw [exec_fwRollback, execFwRollback]
    exact State.switchBank_cold hasks hvalid hmode

end Sys2Proof.Machine
end

section
/-!
SUPPORT. The mailbox commands on ownership, licences, debug access and removal (`Claims.MailboxSecurityAndRemoval`).
-/

namespace Sys2Proof.Machine

theorem exec_ownerSet (s : State) (n : Nat) (r : List Byte) : exec (.ownerSet n r) s = execOwnerSet n r s := rfl
theorem exec_licenceInstall (s : State) (n : Nat) : exec (.licenceInstall n) s = execLicenceInstall n s := rfl
theorem exec_debugChallenge (s : State) (n : Nat) : exec (.debugChallenge n) s = execDebugChallenge n s := rfl
theorem exec_debugUnlock (s : State) (n : Nat) : exec (.debugUnlock n) s = execDebugUnlock n s := rfl
theorem exec_nonceExpire (s : State) : exec .nonceExpire s = execNonceExpire s := rfl
theorem exec_prepareRemove (s : State) (n : Nat) : exec (.prepareRemove n) s = execPrepareRemove n s := rfl

theorem State.KeepsCommands.done {s t : State} {n : Nat} (h : (s.taken n).KeepsCommands t) (hd : (s.mb n).done = false) :
    (t.mb n).done = false := by rw [h.mb, State.taken_mb_self, ← hd]

/-- No field of a command that `badField` passes offends. -/
theorem State.fields_of_badField_none {s : State} {n : Nat} {fields : List (Nat × Bool)} {reserved : List Nat}
    (h : s.badField n fields reserved = none) : ∀ f ∈ fields, f.2 = false := by
  unfold State.badField at h
  dsimp only at h
  split at h
  · next hnil =>
    intro f hf
    have hall := List.filter_eq_nil_iff.mp (List.map_eq_nil_iff.mp hnil) f
      (List.mem_append_left _ (List.mem_append_left _ hf))
    simpa using hall
  · exact absurd h (by simp)

theorem State.okWith_dbg {s : State} {n : Nat} (h : (s.mb n).done = false) (resp : List Byte) : (s.okWith n resp).dbg = s.dbg := by
  rw [State.okWith_eventOnly h]
  rfl

theorem State.okWith_eventCount_le (s : State) (n : Nat) (resp : List Byte) : s.eventCount ≤ (s.okWith n resp).eventCount :=
  State.finish_eventCount_le _ _ _ _ _ _ _

/-! OWNER_SET (R499, R500) -/

/-- The flash and the count of events stand. -/
def SameFlash (s t : State) : Prop := t.flash = s.flash ∧ t.eventCount = s.eventCount

theorem SameFlash.trans {s t u : State} (h : SameFlash s t) (k : SameFlash t u) : SameFlash s u :=
  ⟨k.1.trans h.1, k.2.trans h.2⟩

theorem each_sameFlash {α : Type} {f : α → State → State} (h : ∀ a t, SameFlash t (f a t)) (l : List α) (s : State) :
    SameFlash s (each l f s) :=
  each_induction (P := SameFlash s) (fun a t ht => ht.trans (h a t)) l s ⟨rfl, rfl⟩

theorem State.modTile_sameFlash (s : State) (t : TileId) (f : Tile → Tile) : SameFlash s (s.modTile t f) := ⟨rfl, rfl⟩

theorem State.modPart_sameFlash (s : State) (p : Nat) (f : Partition → Partition) : SameFlash s (s.modPart p f) := ⟨rfl, rfl⟩

theorem State.wipeWeights_sameFlash (s : State) (p : Nat) : SameFlash s (s.wipeWeights p) := by
  unfold State.wipeWeights
  exact each_sameFlash (fun t v => v.modTile_sameFlash t _) _ _

/-- Sealed weights that are cleared leave the flash, and events are counted on. -/
theorem State.clearSealed_flash (s : State) (l : List Nat) (cause : Nat) :
    (s.clearSealed l cause).flash = s.flash ∧ s.eventCount ≤ (s.clearSealed l cause).eventCount := by
  unfold State.clearSealed
  split
  · exact ⟨rfl, Nat.le_refl _⟩
  · generalize hw : each l _ s = w
    have hsame : SameFlash s w := hw ▸ each_sameFlash (fun p u => (u.wipeWeights_sameFlash p).trans (State.modPart_sameFlash _ p _)) l s
    obtain ⟨hflash, hcount⟩ := hsame
    exact ⟨(w.raiseDev_flash _ _ _ (by decide)).trans hflash,
      Nat.le_of_lt (Nat.lt_of_le_of_lt (Nat.le_of_eq hcount.symm) (w.raiseDev_eventCount_lt _ _ _ _))⟩

/-- The stagings of partitions count as not verified. -/
theorem unverified_stages (l : List Stage) :
    ∀ g ∈ l.map (fun g => if ofPart g.kind then { g with verified := false } else g), ofPart g.kind = true → g.verified = false := by
  intro g hg hkind
  obtain ⟨g', -, rfl⟩ := List.mem_map.mp hg
  by_cases h : ofPart g'.kind = true
  · rw [if_pos h]
  · rw [if_neg h] at hkind
    exact absurd hkind h

/-- An ownership record in effect (R500). -/
structure TakesOwner (s : State) (r : List Byte) (t : State) : Prop where
  mbx : t.mbx = s.mbx
  count : t.cmdsDone = s.cmdsDone
  flash : t.flash = { s.flash with ownerKey := recordKey r 24, debugKey := recordKey r 160, ownerSeq := fieldOf r 16 8 }
  events : s.eventCount < t.eventCount
  stages : ∀ g ∈ t.stages, ofPart g.kind = true → g.verified = false

theorem State.takeOwner_takes (s : State) (r : List Byte) : TakesOwner s r (s.takeOwner r) := by
  unfold State.takeOwner
  dsimp only
  generalize hv : ({ s with
    flash := { s.flash with ownerKey := recordKey r 24, debugKey := recordKey r 160, ownerSeq := fieldOf r 16 8 }
    stages := s.stages.map fun g => if ofPart g.kind then { g with verified := false } else g } : State) = v
  have hkeeps := v.clearSealed_keepsCommands v.sealedParts 2
  obtain ⟨hflash, hcount⟩ := v.clearSealed_flash v.sealedParts 2
  generalize v.clearSealed v.sealedParts 2 = w at hkeeps hflash hcount
  generalize fieldOf r 6 1 * 2 ^ 56 + b01 (recordKey r 24).isNone * 2 ^ 55 + fieldOf r 16 8 % 2 ^ 48 = payload
  refine ⟨?_, ?_, ?_, ?_, ?_⟩
  · rw [State.raiseDev_mbx, hkeeps.mbx, ← hv]
  · rw [State.raiseDev_cmdsDone, hkeeps.count, ← hv]
  · rw [State.raiseDev_flash _ _ _ _ (by decide), hflash, ← hv]
  · exact Nat.lt_of_le_of_lt (Nat.le_trans (Nat.le_of_eq (by rw [← hv])) hcount) (State.raiseDev_eventCount_lt _ _ _ _ _)
  · rw [State.raiseDev_stages, hkeeps.stages, ← hv]
    exact unverified_stages s.stages

theorem fill_self {n : Nat} {l : List Byte} (h : l.length = n) : fill n l = l := by
  rw [fill, List.take_append_of_le_length (Nat.le_of_eq h.symm), ← h, List.take_length]

theorem ownerSet_taken {s : State} {r : List Byte} {size : Nat} (hasks : s.asksBuffer 0 0x0B01 0 size) (hlow : 428 ≤ size)
    (hsize : size ≤ 2 ^ 30) (haccess : s.link.access = true) (hlen : r.length = 428) (hsigner : fieldOf r 6 1 ≤ 2)
    (hform : recordForm r s.fuses.serial = true) (hparts : ∀ q ∈ s.parts, q.2.st = .none ∨ q.2.st = .empty)
    (hsigned : s.ownerSigner r = 0) (hseq : s.flash.ownerSeq < fieldOf r 16 8) :
    ∃ s', exec (.ownerSet 0 r) s = .next s' ∧ s.answered s' 0 0 [] ∧ s'.flash.ownerKey = recordKey r 24 ∧
      s'.flash.debugKey = recordKey r 160 ∧ s'.flash.ownerSeq = fieldOf r 16 8 ∧ s.eventCount < s'.eventCount ∧
      (∀ g ∈ s'.stages, ofPart g.kind = true → g.verified = false) := by
  obtain ⟨hrun, hd, hlength, hone, hsgl, hfaults⟩ := hasks
  have hblock : s.badLength 0 0 true = none :=
    State.badLength_none hlength (by decide) (.inr ⟨rfl, hone, by rw [hsgl]; exact hsize.trans (by decide)⟩)
  have hfield : s.badField 0 [] [] = none :=
    State.badField_none (fun _ hf => absurd hf List.not_mem_nil) (fun _ ho => absurd ho List.not_mem_nil)
      (by simpa [List.all_eq_true] using hfaults)
  have hreclen : recordLen r = 428 := if_neg (by omega)
  have hroom : s.tooSmall 0 428 = none := by
    rw [State.tooSmall, State.bufLen, hone, Mbx.sglTotal_one, hsgl, if_neg (by omega)]
  have hhost : s.noHost = none := by rw [State.noHost, haccess, if_pos rfl]
  have hfree : (s.parts.all fun q => decide (q.2.st = .none) || decide (q.2.st = .empty)) = true :=
    List.all_eq_true.mpr fun q hq => by simpa using hparts q hq
  have hnew : decide (fieldOf r 16 8 ≤ s.flash.ownerSeq) = false := by simpa using hseq
  have htakes := (s.taken 0).takeOwner_takes r
  have hpage : (s.taken 0).SamePage ((s.taken 0).takeOwner r) 0 := .of_eq htakes.mbx htakes.count
  refine ⟨((s.taken 0).takeOwner r).okWith 0 [], ?_, ((s.taken_samePage 0).trans hpage).ok hd [], ?_, ?_, ?_, ?_, ?_⟩
  · rw [exec_ownerSet, execOwnerSet]
    simp only [hreclen, fill_self hlen, haccess, if_true, Bool.true_and]
    rw [State.command_acts hrun]
    rw [hblock, hroom, hfield, hform, deviceScope_zero, hfree, hsigned, hnew, hhost]
    rfl
  · rw [State.okWith_flash, htakes.flash]
  · rw [State.okWith_flash, htakes.flash]
  · rw [State.okWith_flash, htakes.flash]
  · exact Nat.lt_of_lt_of_le htakes.events (State.okWith_eventCount_le _ _ _)
  · rw [State.okWith, (State.finish_onlyPages _ _ _ _ _ _ _).stages]
    exact htakes.stages

/-! LICENCE_INSTALL (R437, R510) -/

theorem mem_tset {α : Type} (t : Tab α) (k : Nat) (v : α) : (k, v) ∈ tset t k v := by
  induction t with
  | nil => simp [tset]
  | cons e t ih =>
    obtain ⟨i, w⟩ := e
    unfold tset
    split
    · simp
    · split
      · simp
      · simp [ih]

theorem licenceInstall_taken {s : State} (hasks : s.asks 0 0x0B02 256) (hplain : bit (s.param 0 7 1) 0 = false)
    (hfield : s.badField 0 (s.badLicence 0 ++ []) (span 20 124 ++ []) = none)
    (hsigned : s.vendorFault (s.paramBytes 0 0 256) false (s.paramBytes 0 124 276) 8 = 0)
    (hnew : s.issueOld (s.param 0 6 1) (s.param 0 16 4) = false) :
    ∃ s', exec (.licenceInstall 0) s = .next s' ∧ s.answered s' 0 0 [] ∧ s'.licensed (s.param 0 6 1) = true ∧
      s'.issueOld (s.param 0 6 1) (s.param 0 16 4) = true := by
  have hlen := hasks.badLength (by decide) false
  obtain ⟨hrun, hd, -⟩ := hasks
  generalize hb : s.param 0 6 1 = b at *
  generalize hissue : s.param 0 16 4 = issue at *
  generalize hv : ({ s.taken 0 with flash := { (s.taken 0).flash with
      licences := tset (s.taken 0).flash.licences b issue,
      licenceBytes := tset (s.taken 0).flash.licenceBytes b ((s.taken 0).paramBytes 0 0 256) } } : State) = v
  have hvaside : Aside (s.taken 0) v := hv ▸ ⟨rfl, rfl, rfl⟩
  have hevent := v.raiseDev_eventOnly 0x0803 0 mgmtUnit (b * 2 ^ 56 + issue)
  have hflash := v.raiseDev_flash 0x0803 mgmtUnit (b * 2 ^ 56 + issue) (b := 0) (by decide)
  generalize hw : v.raiseDev 0x0803 0 mgmtUnit (b * 2 ^ 56 + issue) = w at hevent hflash
  have hmem : (b, issue) ∈ (w.okWith 0 []).flash.licences := by
    rw [State.okWith_flash, hflash, ← hv]
    exact mem_tset _ _ _
  refine ⟨w.okWith 0 [], ?_, State.acted_answered (hvaside.trans hevent.aside) hd [], ?_, ?_⟩
  · rw [exec_licenceInstall, execLicenceInstall]
    simp only [hplain, Bool.false_eq_true, if_false, hb, hissue]
    rw [State.command_acts hrun, hv, hw]
    rw [hlen, hfield, deviceScope_zero, hsigned, hnew]
    rfl
  · exact List.any_eq_true.mpr ⟨_, hmem, by simp⟩
  · exact List.any_eq_true.mpr ⟨_, hmem, by simp⟩

/-! Debug access (R513 to R515) -/

theorem debugChallenge_taken {s : State} (hasks : s.asks 0 0x0B03 1) (hscope : s.param 0 0 1 ≤ 2) :
    ∃ s' v, exec (.debugChallenge 0) s = .next s' ∧ s'.dbg.nonce = some (s.param 0 0 1, v, s.now) ∧
      s.answered s' 0 0 (leBytes 64 v.toNat) := by
  have hlen := hasks.badLength (by decide) false
  have hfield := hasks.badField (fields := [(0, decide (s.param 0 0 1 > 2))]) (by simpa using hscope)
  obtain ⟨hrun, hd, -⟩ := hasks
  generalize hn : Config.freeNonce s.freeCtr = nonce
  generalize hv : ({ (s.taken 0).used 1 with
    dbg := { ((s.taken 0).used 1).dbg with nonce := some (s.param 0 0 1, nonce, ((s.taken 0).used 1).now) } } : State) = v
  have haside : Aside (s.taken 0) v := hv ▸ ⟨rfl, rfl, rfl⟩
  refine ⟨v.okWith 0 (leBytes 64 nonce.toNat), nonce, ?_, ?_, State.acted_answered haside hd _⟩
  · rw [exec_debugChallenge, execDebugChallenge]
    dsimp only
    rw [State.command_acts hrun, ← hv, ← hn]
    · rfl
    · rw [hlen, hfield, deviceScope_zero]
      rfl
  · rw [State.okWith_dbg (haside.done hd), ← hv]
    rfl

theorem State.scopeOpen_of_dbg {s t : State} (h : t.dbg = s.dbg) (scope : Nat) : t.scopeOpen scope = s.scopeOpen scope := by
  unfold State.scopeOpen
  rw [h]

/-- Debug access with a scope, and those below it, opened by the owner. -/
def Debug.opened (d : Debug) (scope : Nat) : Debug :=
  { d with telemetry := true, tile := d.tile || decide (scope ≥ 1), scan := d.scan || decide (scope = 2) }

theorem State.openScope_owner (s : State) (scope signer keyId : Nat) : s.openScope scope true signer keyId =
    State.raiseDev { s with dbg := s.dbg.opened scope } 0x0801 1 mgmtUnit (scope * 2 ^ 56 + signer * 2 ^ 48 + keyId) := by
  unfold State.openScope
  simp only [Bool.not_true, Bool.and_false, Bool.false_and, Bool.or_false, Bool.false_eq_true, if_false]
  rfl

theorem State.scopeOpen_opened (s : State) {scope : Nat} (h : scope ≤ 2) :
    ({ s with dbg := s.dbg.opened scope } : State).scopeOpen scope = true := by
  unfold State.scopeOpen Debug.opened
  obtain rfl | rfl | rfl : scope = 0 ∨ scope = 1 ∨ scope = 2 := by omega
  · rfl
  · exact Bool.or_true _
  · exact Bool.or_true _

/-- The owner opens a scope: an event, and nothing of the pages. -/
theorem State.openScope_opens (s : State) {scope : Nat} (h : scope ≤ 2) (signer keyId : Nat) :
    Aside s (s.openScope scope true signer keyId) ∧ (s.openScope scope true signer keyId).dbg.nonce = s.dbg.nonce ∧
      (s.openScope scope true signer keyId).scopeOpen scope = true ∧
      (s.openScope scope true signer keyId).dbg.telemetry = true ∧
      s.eventCount < (s.openScope scope true signer keyId).eventCount := by
  rw [State.openScope_owner]
  generalize scope * 2 ^ 56 + signer * 2 ^ 48 + keyId = payload
  have hopened := State.scopeOpen_opened s h
  generalize hv : ({ s with dbg := s.dbg.opened scope } : State) = v at hopened
  have haside : Aside s v := hv ▸ ⟨rfl, rfl, rfl⟩
  refine ⟨haside.trans (v.raiseDev_eventOnly _ _ _ _).aside, ?_, ?_, ?_, ?_⟩
  · rw [State.raiseDev_dbg, ← hv]
    rfl
  · rw [State.scopeOpen_of_dbg (State.raiseDev_dbg _ _ _ _ _), hopened]
  · rw [State.raiseDev_dbg, ← hv]
    rfl
  · exact Nat.lt_of_le_of_lt (Nat.le_of_eq (by rw [← hv])) (v.raiseDev_eventCount_lt _ _ _ _)

theorem debugUnlock_taken {s : State} (hasks : s.asks 0 0x0B04 228) (hplain : bit (s.param 0 5 1) 1 = false)
    (howner : bit (s.param 0 5 1) 0 = true)
    (hfield : s.badField 0 (s.badUnlock 0 ++ []) ([6, 7] ++ span 84 96 ++ []) = none) (hnonce : s.dbg.nonce.isSome = true)
    (hfault : s.unlockFault 0 = 0) :
    ∃ s', exec (.debugUnlock 0) s = .next s' ∧ s.answered s' 0 0 [] ∧ s'.dbg.nonce = none ∧
      s'.scopeOpen (s.param 0 4 1) = true ∧
      (s.scopeOpen (s.param 0 4 1) = false → s'.dbg.telemetry = true ∧ s.eventCount < s'.eventCount) := by
  have hlen := hasks.badLength (by decide) false
  have hscope : s.param 0 4 1 ≤ 2 := by
    have hbad := State.fields_of_badField_none hfield (4, decide (s.param 0 4 1 > 2)) (by simp [State.badUnlock])
    simpa using hbad
  obtain ⟨hrun, hd, -⟩ := hasks
  generalize hp : s.param 0 4 1 = scope at *
  generalize hv : ({ s.taken 0 with dbg := { (s.taken 0).dbg with nonce := none } } : State) = v
  have hvaside : Aside (s.taken 0) v := hv ▸ ⟨rfl, rfl, rfl⟩
  have hvopen : v.scopeOpen scope = s.scopeOpen scope := by rw [← hv]; rfl
  have hnext : exec (.debugUnlock 0) s = .next (State.okWith
      (if v.scopeOpen scope then v else v.openScope scope true 0 0) 0 []) := by
    rw [exec_debugUnlock, execDebugUnlock]
    simp only [hp, howner, hplain, Bool.not_true, Bool.and_false, Bool.false_and, Bool.not_false, Bool.and_true, hnonce,
      Bool.false_eq_true, if_true, if_false]
    rw [State.command_acts hrun, hv]
    rw [hlen, hfield, deviceScope_zero, hfault]
    rfl
  obtain ⟨hopen, hkept, hopened, htele, hcount⟩ := v.openScope_opens hscope 0 0
  cases hs : s.scopeOpen scope with
  | true =>
    rw [hvopen, hs, if_pos rfl] at hnext
    have hdbg := State.okWith_dbg (hvaside.done hd) []
    refine ⟨_, hnext, State.acted_answered hvaside hd [], ?_, ?_, fun h => absurd h (by decide)⟩
    · rw [hdbg, ← hv]
    · rw [State.scopeOpen_of_dbg hdbg, hvopen, hs]
  | false =>
    rw [hvopen, hs, if_neg (by decide)] at hnext
    have haside := hvaside.trans hopen
    have hdbg := State.okWith_dbg (haside.done hd) []
    refine ⟨_, hnext, State.acted_answered haside hd [], ?_, ?_, fun _ => ⟨?_, ?_⟩⟩
    · rw [hdbg, hkept, ← hv]
    · rw [State.scopeOpen_of_dbg hdbg, hopened]
    · rw [hdbg, htele]
    · exact Nat.lt_of_lt_of_le (Nat.lt_of_le_of_lt (Nat.le_of_eq (by rw [← hv]; rfl)) hcount) (State.okWith_eventCount_le _ _ _)

theorem nonceExpire_of_some {s : State} {a : Nat} {v : BitVec 512} {t : Nat} (h : s.dbg.nonce = some (a, v, t)) :
    (t + 600000000000 ≤ s.now → exec .nonceExpire s = .next { s with dbg := { s.dbg with nonce := none } }) ∧
    (s.now < t + 600000000000 → exec .nonceExpire s = .next s) := by
  rw [exec_nonceExpire, execNonceExpire]
  simp only [h, nonceLife]
  exact ⟨fun hold => if_pos hold, fun hyoung => if_neg (Nat.not_le.mpr hyoung)⟩

theorem nonceExpire_of_none {s : State} (h : s.dbg.nonce = none) : exec .nonceExpire s = .next s := by
  rw [exec_nonceExpire, execNonceExpire]
  simp only [h]

/-! PREPARE_REMOVE (R381, R382) -/

theorem tget_mem {α : Type} (d : α) (l : Tab α) (k : Nat) : tget d l k = d ∨ ∃ e ∈ l, tget d l k = e.2 := by
  induction l with
  | nil => exact .inl rfl
  | cons e l ih =>
    obtain ⟨i, w⟩ := e
    unfold tget
    split
    · exact .inr ⟨_, List.mem_cons_self, rfl⟩
    · exact ih.imp_right fun ⟨e, he, heq⟩ => ⟨e, List.mem_cons_of_mem _ he, heq⟩

theorem State.runningParts_of_running {s : State} {p : Nat} (h : running (s.part p).st = true) : s.runningParts.isEmpty = false := by
  obtain hnone | ⟨e, he, heq⟩ := tget_mem ({} : Partition) s.parts p
  · rw [State.part, hnone] at h
    exact absurd h (by decide)
  · rw [State.part, heq] at h
    refine Bool.eq_false_iff.mpr fun hempty => ?_
    rw [List.isEmpty_iff, State.runningParts_eq_nil, List.any_eq_false] at hempty
    exact hempty e he h

/-- What the completion records that are written leave: the pages, the streams and the held enables stand. -/
structure Flushes (s t : State) : Prop extends Aside s t where
  streams : t.streams = s.streams
  held : ∀ p, (t.part p).enableHeld = (s.part p).enableHeld

theorem Flushes.refl (s : State) : Flushes s s := ⟨.refl s, rfl, fun _ => rfl⟩

theorem Flushes.trans {s t u : State} (h : Flushes s t) (k : Flushes t u) : Flushes s u :=
  ⟨h.toAside.trans k.toAside, k.streams.trans h.streams, fun p => (k.held p).trans (h.held p)⟩

theorem Flushes.of_parts {s t : State} (ha : Aside s t) (hs : t.streams = s.streams) (hp : t.parts = s.parts) : Flushes s t :=
  ⟨ha, hs, fun p => by rw [State.part, hp, State.part]⟩

theorem State.modPart_flushes (s : State) (p : Nat) {f : Partition → Partition} (hf : ∀ q, (f q).enableHeld = q.enableHeld) :
    Flushes s (s.modPart p f) := ⟨⟨rfl, rfl, rfl⟩, rfl, (s.modPart_sameWaits p hf).2⟩

theorem State.msix_flushes (s : State) (v : Nat) : Flushes s (s.msix v) := by
  unfold State.msix
  split
  · exact .refl s
  · split
    · exact .of_parts ⟨rfl, rfl, rfl⟩ rfl rfl
    · split
      · exact .of_parts ⟨rfl, rfl, rfl⟩ rfl rfl
      · exact .refl s

theorem State.putRecords_flushes (s : State) (p : Nat) (l : List CompletionRec) : Flushes s (s.putRecords p l) := by
  unfold State.putRecords
  split
  · exact .refl s
  · dsimp only
    refine Flushes.trans (Flushes.trans ?_ (State.modPart_flushes _ p ?_)) (State.msix_flushes _ _)
    · exact .of_parts ⟨rfl, rfl, rfl⟩ rfl rfl
    · exact fun _ => rfl

theorem State.flushRecords_flushes (s : State) (p : Nat) : Flushes s (s.flushRecords p) := by
  unfold State.flushRecords
  refine Flushes.trans (State.modPart_flushes _ p ?_) (State.putRecords_flushes _ _ _)
  exact fun _ => rfl

theorem EventOnly.flushes {s t : State} (h : EventOnly s t) : Flushes s t := .of_parts h.aside (by rw [h]) h.parts

theorem each_flushes {α : Type} {f : α → State → State} (h : ∀ a t, Flushes t (f a t)) (l : List α) (s : State) :
    Flushes s (each l f s) := each_induction (P := Flushes s) (fun a t ht => ht.trans (h a t)) l s (.refl s)

/-- The records that wait are written to the rings that the link reaches, and HOST_REMOVE_READY is raised for `k` parked streams. -/
def State.tellReady (s : State) (k : Nat) : State :=
  (each (List.range 8) (fun p st => if st.link.access then st.flushRecords p else st) s).raiseDev 0x0905 1 cxlUnit k

theorem State.tellReady_flushes (s : State) (k : Nat) : Flushes s (s.tellReady k) := by
  unfold State.tellReady
  refine Flushes.trans (each_flushes (fun p u => ?_) _ _) (State.raiseDev_eventOnly _ _ _ _ _).flushes
  split
  · exact u.flushRecords_flushes p
  · exact .refl u

/-- The device is ready for removal. -/
def State.readied (s : State) : State := { s with preparing := none, removeReady := true, pins := { s.pins with attn := true } }

/-- With nothing held no enable acts. -/
theorem State.releaseEnables_none {s : State} (hheld : ∀ p, (s.part p).enableHeld = none) (hstreams : s.streams = []) :
    s.releaseEnables = s := by
  have heach : each (List.range 8) (fun p st => st.actHeld p) s = s :=
    each_induction (P := fun v => v = s) (fun p v hv => by rw [hv, State.actHeld_none (hheld p)]) _ _ rfl
  unfold State.releaseEnables
  rw [heach, hstreams]
  rfl

/-- With no partition running and no stream open the device becomes ready for removal. -/
theorem State.prepareGoOn_eq {s : State} {n : Nat} (hprep : s.preparing = some n) (hrun : s.runningParts = [])
    (hleave : s.job.leaveMbx = none) (hstreams : s.streams = []) (hcount : s.parkedCount = 0) :
    s.prepareGoOn = (((s.okWith n (leBytes 4 0)).tellReady 0).readied).releaseEnables := by
  have hslots : s.openSlots = [] := by simp [State.openSlots, hstreams]
  have hbusy : s.streamsBusy = false := by simp [State.streamsBusy, hstreams]
  have hsat : sat 0 0xFFFFFFFF = 0 := rfl
  have hremoved : s.removeStreams (s.param n 0 1) n (s.bufLen n) [] = s := rfl
  unfold State.prepareGoOn
  simp only [hprep, hrun, hleave, hslots, hremoved, hbusy, hcount, hsat, List.isEmpty_nil, Option.isSome_none, Bool.not_true,
    Bool.or_self, Bool.false_eq_true, if_false]
  rfl

/-- Streams that no command holds lose what is held of them, and nothing completes. -/
theorem State.cancelHeld_all {s : State} (h : ∀ x ∈ s.streams, x.2.heldMbx = none) (l : List Nat) :
    ∃ t, each l (fun k st => st.cancelHeld k) s = { s with streams := t } := by
  have hinit : ∀ k, (s.stream k).heldMbx = none := fun k => by
    obtain hnone | ⟨e, he, heq⟩ := tget_mem ({} : Stream) s.streams k
    · rw [State.stream, hnone]
    · rw [State.stream, heq]
      exact h e he
  refine (each_induction (P := fun v => (∃ t, v = { s with streams := t }) ∧ ∀ k, (v.stream k).heldMbx = none)
    (fun k v ⟨⟨t, ht⟩, hv⟩ => ?_) l s ⟨⟨s.streams, rfl⟩, hinit⟩).1
  have heq : v.cancelHeld k = v.modStream k fun x => { x with enableHeld := false, heldCmd := none, heldMbx := none } := by
    unfold State.cancelHeld
    simp only [hv k]
  rw [heq]
  refine ⟨⟨_, by rw [ht]; rfl⟩, fun j => ?_⟩
  by_cases hj : j = k
  · rw [hj, State.modStream_stream_self]
  · rw [State.modStream_stream_ne _ _ hj]
    exact hv j

theorem State.cancelRunHeld_all {s : State} (h : ∀ p, (s.part p).enableHeld = none) (l : List Nat) :
    each l (fun p st => st.cancelRunHeld p) s = s :=
  each_induction (P := fun v => v = s) (fun p v hv => by
    rw [hv, State.cancelRunHeld]
    simp only [h]) l s rfl

/-- PREPARE_REMOVE of a device in no job, with nothing held: its partitions are asked to stop, and it goes on. -/
theorem State.prepareRemove_next {s : State} (hasks : s.asks 0 0x0C02 1) (hmode : s.param 0 0 1 = 2) (hjob : s.inJob = false)
    (hheld : s.nothingHeld) (hstreams : ∀ x ∈ s.streams, x.2.heldMbx = none) : ∃ t, exec (.prepareRemove 0) s = .next
      (State.prepareGoOn (each s.runningParts (fun p st => st.requestStop p)
        { s.taken 0 with streams := t, preparing := some 0, parkedCount := 0 })) ∧ (s.streams = [] → t = []) := by
  have hlen := hasks.badLength (by decide) (decide (2 = 1))
  have hfield := hasks.badField (fields := [(0, decide (2 > 2))]) (by simp)
  obtain ⟨hrun, -⟩ := hasks
  obtain ⟨henable, -, -⟩ := hheld
  have hruns : each (List.range 8) (fun p st => st.cancelRunHeld p) (s.taken 0) = s.taken 0 :=
    State.cancelRunHeld_all (s := s.taken 0) henable _
  have hkept : s.streams = [] → each (s.streams.map fun x => x.1) (fun k st => st.cancelHeld k) (s.taken 0) = s.taken 0 := fun h => by
    rw [h]
    rfl
  obtain ⟨t, ht⟩ := State.cancelHeld_all (s := s.taken 0) hstreams ((s.taken 0).streams.map fun x => x.1)
  refine ⟨t, ?_, fun h => ?_⟩
  · rw [exec_prepareRemove, execPrepareRemove]
    simp only [hmode]
    rw [State.command_acts hrun, hruns, ht]
    · generalize hv : ({ s.taken 0 with streams := t, preparing := some 0, parkedCount := 0 } : State) = v
      have hout : v.inJob = false := by rw [← hjob, ← hv]; rfl
      have hparts : v.runningParts = s.runningParts := by rw [← hv]; rfl
      rw [hout, if_neg (by decide), hparts]
    · rw [hlen, hfield, deviceScope_zero]
      rfl
  · have hsame : s.taken 0 = { s.taken 0 with streams := t } := (hkept h).symm.trans ht
    exact (congrArg State.streams hsame).symm.trans h

theorem prepareRemove_ready {s : State} (hasks : s.asks 0 0x0C02 1) (hmode : s.param 0 0 1 = 2) (hjob : s.inJob = false)
    (hheld : s.nothingHeld) (hrun : s.runningParts = []) (hstreams : s.streams = []) :
    ∃ s', exec (.prepareRemove 0) s = .next s' ∧ s.answered s' 0 0 (leBytes 4 0) ∧ s'.removeReady = true ∧ s'.pins.attn = true ∧
      s'.preparing = none := by
  obtain ⟨t, hnext, ht⟩ := State.prepareRemove_next hasks hmode hjob hheld (by simp [hstreams])
  obtain ⟨-, hd, -⟩ := hasks
  obtain ⟨henable, hleave, -⟩ := hheld
  rw [hrun] at hnext
  generalize hv : ({ s.taken 0 with streams := t, preparing := some 0, parkedCount := 0 } : State) = v at hnext
  have haside : Aside (s.taken 0) v := hv ▸ ⟨rfl, rfl, rfl⟩
  have hgo := State.prepareGoOn_eq (s := v) (n := 0) (by rw [← hv]) (by rw [← hrun, ← hv]; rfl) (by rw [← hleave, ← hv]; rfl)
    (by rw [← hv]; exact ht hstreams) (by rw [← hv])
  have hok := State.okWith_eventOnly (haside.done hd) (leBytes 4 0)
  have htell := (v.okWith 0 (leBytes 4 0)).tellReady_flushes 0
  have hnone := State.releaseEnables_none (s := ((v.okWith 0 (leBytes 4 0)).tellReady 0).readied)
    (fun p => (htell.held p).trans (by rw [State.okWith_part, ← hv]; exact henable p))
    (htell.streams.trans (by rw [hok, ← hv]; exact ht hstreams))
  rw [each, List.foldl_nil, hgo, hnone] at hnext
  refine ⟨_, hnext, ?_, rfl, rfl, rfl⟩
  exact State.answered_aside (State.acted_answered haside hd _) (htell.toAside.trans ⟨rfl, rfl, rfl⟩)

theorem prepareRemove_stops {s : State} {p : Nat} (hasks : s.asks 0 0x0C02 1) (hmode : s.param 0 0 1 = 2) (hjob : s.inJob = false)
    (hheld : s.nothingHeld) (hparts : s.runningParts = [p]) (hrun : running (s.part p).st = true)
    (hstreams : ∀ x ∈ s.streams, x.2.heldMbx = none) : ∃ s', exec (.prepareRemove 0) s = .next s' ∧
      s'.waits 0 ∧ s'.preparing = some 0 ∧ (s'.part p).stopPending = true ∧ s'.removeReady = s.removeReady := by
  obtain ⟨t, hnext, -⟩ := State.prepareRemove_next hasks hmode hjob hheld hstreams
  obtain ⟨-, hd, -⟩ := hasks
  rw [hparts] at hnext
  generalize hv : ({ s.taken 0 with streams := t, preparing := some 0, parkedCount := 0 } : State) = v at hnext
  have hvrun : running (v.part p).st = true := by rw [← hv]; exact hrun
  have hpart := State.requestStop_part hvrun
  obtain ⟨j, w, h, hframe⟩ := State.requestStop_frame hvrun
  have hbusy : (v.requestStop p).runningParts.isEmpty = false :=
    State.runningParts_of_running (p := p) (by rw [hpart]; exact hvrun)
  have hprep : (v.requestStop p).preparing = some 0 := by rw [hframe, ← hv]
  have hgo : (v.requestStop p).prepareGoOn = v.requestStop p := by
    unfold State.prepareGoOn
    simp only [hprep, hbusy, Bool.not_false, Bool.true_or, if_true]
  have hone : each [p] (fun p st => st.requestStop p) v = v.requestStop p := rfl
  rw [hone, hgo] at hnext
  refine ⟨v.requestStop p, hnext, State.waits_of_aside ?_ hd, hprep, ?_, ?_⟩
  · rw [hframe, ← hv]
    exact ⟨rfl, rfl, rfl⟩
  · rw [hpart]
  · rw [hframe, ← hv]
    rfl

theorem mailboxSecurityAndRemoval : Claims.MailboxSecurityAndRemoval := by
  intro s
  refine ⟨fun r size => ownerSet_taken, licenceInstall_taken, debugChallenge_taken, debugUnlock_taken,
    fun a v t => nonceExpire_of_some, nonceExpire_of_none, fun hasks hmode hjob hleave hheld => ⟨?_, fun p hparts hrun hstreams => ?_⟩⟩
  · exact prepareRemove_ready hasks hmode hjob hheld
  · exact prepareRemove_stops hasks hmode hjob hheld hparts hrun hstreams

/-- Settles O60: its four claims, on runs, on settings and repair, on jobs and firmware, and on security and removal. -/
theorem mailboxRunsSettingsJobs : Obligations.MailboxRunsSettingsJobs :=
  ⟨mailboxRuns, mailboxSettingsAndRepair, mailboxJobsAndFirmware, mailboxSecurityAndRemoval⟩

end Sys2Proof.Machine
end

section
/-!
SUPPORT. Requests to CXL frames that complete, fail or are lost with their window, and the runs of the tiering script
(`Obligations.TieringAndCxlReads`).
-/

namespace Sys2Proof.Machine

/-! What the commands of the second tier call -/

theorem exec_cxlUioComplete (s : State) (f : Nat) (poison : Bool) :
    exec (.cxlUioComplete f poison) s = execCxlUioComplete f poison s := rfl
theorem exec_cxlUioTimeout (s : State) (f : Nat) (lost : Bool) :
    exec (.cxlUioTimeout f lost) s = execCxlUioTimeout f lost s := rfl
theorem exec_tieringScriptRun (s : State) (p : Nat) : exec (.tieringScriptRun p) s = execTieringScriptRun p s := rfl

/-! The repair log after an update (R486) -/

/-- The copy an update writes is the one in use after it: it is valid, and above the other where that is valid too. -/
theorem Flash.writeLog_log (f : Flash) (repairs : List RepairRec) (retired : List RetiredRec) :
    (f.writeLog repairs retired).log.valid = true ∧ (f.writeLog repairs retired).log.retired = retired := by
  unfold Flash.writeLog
  dsimp only
  split
  · have hle : f.log1.seq ≤ f.log1.seq + 1 := Nat.le_succ _
    simp [Flash.log, hle]
  · next hcopy =>
    have hvalid : f.log0.valid = true := by
      by_contra hinvalid
      simp [hinvalid] at hcopy
    simp [Flash.log, hvalid]

theorem Flash.writeLog_retired (f : Flash) (repairs : List RepairRec) (retired : List RetiredRec) :
    (f.writeLog repairs retired).retired = retired := by
  obtain ⟨hvalid, hretired⟩ := f.writeLog_log repairs retired
  rw [Flash.retired, Flash.logValid, hvalid, if_pos rfl, hretired]

@[simp] theorem State.logRetired_flash_retired (s : State) (tier cause frame : Nat) :
    (s.logRetired tier cause frame).flash.retired
      = s.flash.retired ++ [{ tier := tier, cause := cause, frame := frame, ts := s.now }] :=
  Flash.writeLog_retired _ _ _

@[simp] theorem State.logRetired_retired (s : State) (tier cause frame : Nat) :
    (s.logRetired tier cause frame).retired = s.retired ++ [tier * 2 ^ 30 + frame] := rfl

@[simp] theorem State.logRetired_page (s : State) (tier cause frame g : Nat) :
    (s.logRetired tier cause frame).page g = s.page g := rfl

/-! A page lost (R273) -/

/-- Losing a page changes pages and partitions alone. -/
theorem State.losePage_frame (s : State) (g : Nat) :
    s.losePage g = { s with pages := (s.losePage g).pages, parts := (s.losePage g).parts } := by
  unfold State.losePage
  dsimp only
  split
  · rfl
  · split <;> rfl

/-- A page lost that was bound takes the entry of a FREE page. -/
theorem State.losePage_pages (s : State) {g : Nat} (h : (s.page g).st ≠ .free) :
    (s.losePage g).pages = (s.modPage g fun _ => {}).pages := by
  unfold State.losePage
  simp only [h, if_false]
  split <;> rfl

theorem State.losePage_page_self (s : State) (g : Nat) : ((s.losePage g).page g).st = .free := by
  by_cases h : (s.page g).st = .free
  · simp only [State.losePage, h, if_true]
  · rw [State.page, s.losePage_pages h, ← State.page, State.modPage_page_self]

theorem State.losePage_page_ne (s : State) {g k : Nat} (h : k ≠ g) : (s.losePage g).page k = s.page k := by
  by_cases hst : (s.page g).st = .free
  · simp only [State.losePage, hst, if_true]
  · rw [State.page, s.losePage_pages hst, ← State.page, State.modPage_page_ne _ _ h]

@[simp] theorem State.loseIfHeld_flash (s : State) (g : Nat) : (s.loseIfHeld g).flash = s.flash := by
  unfold State.loseIfHeld
  split
  · rw [State.losePage_frame]
  · rfl

@[simp] theorem State.loseIfHeld_retired (s : State) (g : Nat) : (s.loseIfHeld g).retired = s.retired := by
  unfold State.loseIfHeld
  split
  · rw [State.losePage_frame]
  · rfl

theorem State.loseIfHeld_of_held {s : State} {g : Nat} (h : 0 < (s.page g).cfill) : s.loseIfHeld g = s.losePage g := if_pos h

theorem State.loseIfHeld_of_empty {s : State} {g : Nat} (h : (s.page g).cfill = 0) : s.loseIfHeld g = s :=
  if_neg (by rw [h]; exact Nat.lt_irrefl 0)

theorem State.loseIfHeld_page_ne (s : State) {g k : Nat} (h : k ≠ g) : (s.loseIfHeld g).page k = s.page k := by
  unfold State.loseIfHeld
  split
  · exact s.losePage_page_ne h
  · rfl

/-! A CXL frame that fails (R261) -/

@[simp] theorem State.unitFault_page (s : State) (p code sev unit payload : Nat) (kind : FaultKind) (act g : Nat) :
    (s.unitFault p code sev unit payload kind act).page g = s.page g := by
  rw [State.unitFault, State.addCause_page, State.raisePart_page]

@[simp] theorem State.unitFault_retired (s : State) (p code sev unit payload : Nat) (kind : FaultKind) (act : Nat) :
    (s.unitFault p code sev unit payload kind act).retired = s.retired := by
  rw [State.unitFault, State.addCause_retired, State.raisePart_retired]

/-- An event that is not of severity 4 starts no flash copy (R490), at once or waiting. -/
theorem State.raiseFault_flash_of_ne (s : State) (late : Bool) {e : EventRec} (h : e.sev ≠ 4) :
    (s.raiseFault late e).flash = s.flash := by
  unfold State.raiseFault
  split
  · rfl
  · exact s.raiseRec_flash h

theorem State.unitFault_flash (s : State) (p code : Nat) {sev : Nat} (unit payload : Nat) (kind : FaultKind) (act : Nat)
    (h : sev ≠ 4) : (s.unitFault p code sev unit payload kind act).flash = s.flash := by
  rw [State.unitFault, State.addCause_flash, State.raisePart, State.raiseFault_flash_of_ne _ _ h]

/-- The failure of a frame not retired yet: its fault, its record in the log, and its page lost where it held content. -/
theorem State.cxlFail_eq {s : State} {f : Nat} (p g c : Nat) (h : s.frameRetired 1 f = false) :
    s.cxlFail p f g c = ((s.unitFault p 0x0716 3 cxlUnit (c * 2 ^ 62 + g * 2 ^ 40 + f) .hardware 0).logRetired 1 2 f).loseIfHeld g := by
  unfold State.cxlFail
  dsimp only
  rw [if_neg]
  rw [State.frameRetired, State.unitFault_retired, ← State.frameRetired, h]
  exact Bool.false_ne_true

theorem State.cxlFail_retires {s : State} {f : Nat} (p g c : Nat) (h : s.frameRetired 1 f = false) :
    (s.cxlFail p f g c).flash.retired.length = s.flash.retired.length + 1 ∧
      (s.cxlFail p f g c).retired = s.retired ++ [2 ^ 30 + f] := by
  rw [State.cxlFail_eq p g c h]
  constructor
  · rw [State.loseIfHeld_flash, State.logRetired_flash_retired, State.unitFault_flash _ _ _ _ _ _ _ (by decide),
      List.length_append, List.length_singleton]
  · rw [State.loseIfHeld_retired, State.logRetired_retired, State.unitFault_retired, Nat.one_mul]

theorem State.cxlFail_page_held {s : State} {f g : Nat} (p c : Nat) (h : s.frameRetired 1 f = false)
    (hheld : 0 < (s.page g).cfill) : ((s.cxlFail p f g c).page g).st = .free := by
  rw [State.cxlFail_eq p g c h, State.loseIfHeld_of_held (by simpa using hheld)]
  exact State.losePage_page_self _ _

theorem State.cxlFail_page_empty {s : State} {f g : Nat} (p c : Nat) (h : s.frameRetired 1 f = false)
    (hempty : (s.page g).cfill = 0) : (s.cxlFail p f g c).page g = s.page g := by
  rw [State.cxlFail_eq p g c h, State.loseIfHeld_of_empty (by simpa using hempty), State.logRetired_page, State.unitFault_page]

theorem State.cxlFail_page_ne {s : State} {f g k : Nat} (p c : Nat) (h : s.frameRetired 1 f = false) (hk : k ≠ g) :
    (s.cxlFail p f g c).page k = s.page k := by
  rw [State.cxlFail_eq p g c h, State.loseIfHeld_page_ne _ hk, State.logRetired_page, State.unitFault_page]

/-! Requests to CXL frames (R245, R261, R267) -/

theorem cxlUioTimeout_of_none {s : State} {f : Nat} (h : s.takeUio f = none) : exec (.cxlUioTimeout f false) s = .next s ∧
    exec (.cxlUioTimeout f true) s = .next (s.windowGone f) := by
  simp only [exec_cxlUioTimeout, execCxlUioTimeout, h]
  exact ⟨rfl, rfl⟩

section
variable {s : State} {u : Uio} {r : List Uio}

/-- A request sent that stands first is the one its frame's completion takes. -/
theorem State.takeUio_first (hu : s.uio = u :: r) (hsent : u.sent = true) : s.takeUio u.frame = some (u, r) := by
  rw [State.takeUio, hu, takeFirst, hsent, decide_eq_true rfl]
  rfl

theorem cxlUioComplete_poison (hu : s.uio = u :: r) (hsent : u.sent = true) (hkept : s.uioDropped u = false) :
    exec (.cxlUioComplete u.frame true) s = .next (({ s with uio := r } : State).uioFail u 0) := by
  have hkept' : ({ s with uio := r } : State).uioDropped u = false := hkept
  simp only [exec_cxlUioComplete, execCxlUioComplete, State.takeUio_first hu hsent, hkept', Bool.false_eq_true, if_false, if_true]

theorem cxlUioComplete_read (hu : s.uio = u :: r) (hsent : u.sent = true) (hkept : s.uioDropped u = false)
    (hread : u.move = false) :
    exec (.cxlUioComplete u.frame false) s = .next (({ s with uio := r } : State).uioAnswer u
      (s.belowFill u.page u.off (memBytes s.cxl (u.frame * 2 ^ 19 + u.off) u.len)) false) := by
  have hkept' : ({ s with uio := r } : State).uioDropped u = false := hkept
  simp only [exec_cxlUioComplete, execCxlUioComplete, State.takeUio_first hu hsent, hkept', hread, Bool.false_eq_true, if_false]
  rfl

theorem cxlUioComplete_moveWrite (hu : s.uio = u :: r) (hsent : u.sent = true) (hkept : s.uioDropped u = false)
    (hmove : u.move = true) (hwrite : u.write = true) (hwanted : s.moveWanted u = true) :
    exec (.cxlUioComplete u.frame false) s = .next (({ s with
      uio := r, cxl := memPut s.cxl (u.frame * 2 ^ 19 + u.off) u.data } : State).moveDone u.part u.tag) := by
  have hkept' : ({ s with uio := r } : State).uioDropped u = false := hkept
  have hwanted' : ({ s with uio := r } : State).moveWanted u = true := hwanted
  simp only [exec_cxlUioComplete, execCxlUioComplete, State.takeUio_first hu hsent, hkept', hmove, hwanted', State.uioMove, hwrite,
    Bool.false_eq_true, if_false, if_true]
  rfl

theorem cxlUioTimeout_taken (hu : s.uio = u :: r) (hsent : u.sent = true) :
    exec (.cxlUioTimeout u.frame false) s = .next (({ s with uio := r } : State).uioFail u 1) ∧
      exec (.cxlUioTimeout u.frame true) s = .next ((({ s with uio := r } : State).uioFail u 2).loseWindow u.frame) := by
  simp only [exec_cxlUioTimeout, execCxlUioTimeout, State.takeUio_first hu hsent]
  exact ⟨rfl, rfl⟩

/-- A tile's read that fails is answered with zeros. -/
theorem State.uioFail_read (s : State) (cause : Nat) (hread : u.move = false) :
    s.uioFail u cause = (s.cxlFail u.part u.frame u.page cause).uioAnswer u (List.replicate u.len 0) true := by
  rw [State.uioFail, hread]
  rfl

end

theorem cxlFrameReads : Claims.CxlFrameReads := by
  refine ⟨fun s f => cxlUioTimeout_of_none, fun s u r hu hsent hkept => ⟨fun hread => ?_, fun hmove hwrite hwanted => ?_,
    fun c hfresh => ?_⟩⟩
  · obtain ⟨hlate, hlost⟩ := cxlUioTimeout_taken hu hsent
    refine ⟨cxlUioComplete_read hu hsent hkept hread, ?_, ?_, ?_⟩
    · rw [cxlUioComplete_poison hu hsent hkept, State.uioFail_read _ _ hread]
    · rw [hlate, State.uioFail_read _ _ hread]
    · rw [hlost, State.uioFail_read _ _ hread]
  · exact cxlUioComplete_moveWrite hu hsent hkept hmove hwrite hwanted
  · obtain ⟨hlog, hretired⟩ := State.cxlFail_retires u.part u.page c hfresh
    exact ⟨hlog, hretired, State.cxlFail_page_held _ _ hfresh, State.cxlFail_page_empty _ _ hfresh,
      fun g hg => State.cxlFail_page_ne _ _ hfresh hg⟩

/-! Members of a table after a change -/

theorem mem_of_mem_tset {α : Type} {e : Nat × α} {k : Nat} {v : α} :
    ∀ {l : Tab α}, e ∈ tset l k v → e = (k, v) ∨ e ∈ l
  | [], h => .inl (List.mem_singleton.mp h)
  | (i, w) :: l, h => by
    rw [tset] at h
    split at h
    · exact (List.mem_cons.mp h).imp id (List.mem_cons_of_mem _)
    · split at h
      · exact List.mem_cons.mp h
      · rcases List.mem_cons.mp h with rfl | hl
        · exact .inr List.mem_cons_self
        · exact (mem_of_mem_tset hl).imp id (List.mem_cons_of_mem _)

/-- A change of key `k` drops no entry but the one it replaces. -/
theorem mem_tset_of_mem {α : Type} (d : α) {e : Nat × α} {k : Nat} (v : α) :
    ∀ {l : Tab α}, e ∈ l → e ∈ tset l k v ∨ e = (k, tget d l k)
  | (i, w) :: l, h => by
    rw [tset, tget]
    split
    · next hik =>
      rcases List.mem_cons.mp h with rfl | hl
      · exact .inr (by rw [hik])
      · exact .inl (List.mem_cons_of_mem _ hl)
    · split
      · exact .inl (List.mem_cons_of_mem _ h)
      · rcases List.mem_cons.mp h with rfl | hl
        · exact .inl List.mem_cons_self
        · exact (mem_tset_of_mem d v hl).imp (List.mem_cons_of_mem _) id

/-- What a change at `k` keeps of an entry's list, it keeps of the lists of the whole table. -/
theorem mem_flatMap_tset {α β : Type} {d : α} {g : α → List β} {l : Tab α} {k : Nat} {v : α} (hd : g d = [])
    (hv : g v = g (tget d l k)) (x : β) : x ∈ (tset l k v).flatMap (fun e => g e.2) ↔ x ∈ l.flatMap fun e => g e.2 := by
  simp only [List.mem_flatMap]
  constructor
  · rintro ⟨e, he, hx⟩
    rcases mem_of_mem_tset he with rfl | hl
    · rw [hv] at hx
      rcases tget_mem d l k with hnone | ⟨e, hl, hget⟩
      · rw [hnone, hd] at hx
        exact absurd hx List.not_mem_nil
      · exact ⟨e, hl, hget ▸ hx⟩
    · exact ⟨e, hl, hx⟩
  · rintro ⟨e, he, hx⟩
    rcases mem_tset_of_mem (k := k) d v he with hl | rfl
    · exact ⟨e, hl, hx⟩
    · exact ⟨(k, v), mem_tset l k v, hv ▸ hx⟩

/-! What a run that is marked as made leaves as it was (R271) -/

/-- The state with the run of the tiering script of partition `p` marked as made. -/
def State.tierMade (s : State) (p : Nat) : State := s.modPart p fun q => { q with tierRan := true }

theorem State.tierMade_part (s : State) (p j : Nat) :
    (s.tierMade p).part j = { s.part j with tierRan := (s.part j).tierRan || decide (j = p) } := by
  by_cases h : j = p
  · subst h
    rw [State.tierMade, State.modPart_part_self, decide_eq_true rfl, Bool.or_true]
  · rw [State.tierMade, State.modPart_part_ne _ _ h, decide_eq_false h, Bool.or_false]

@[simp] theorem State.tierMade_pagesOf (s : State) (p n : Nat) : (s.tierMade p).pagesOf n = s.pagesOf n := rfl

@[simp] theorem State.tierMade_stream (s : State) (p n : Nat) : (s.tierMade p).stream n = s.stream n := rfl

@[simp] theorem State.tierMade_partOfSlot (s : State) (p n : Nat) : (s.tierMade p).partOfSlot n = s.partOfSlot n := by
  simp only [State.partOfSlot, State.exists?, State.tierMade_part]

@[simp] theorem State.tierMade_isAdmitted (s : State) (p n : Nat) : (s.tierMade p).isAdmitted n = s.isAdmitted n := by
  simp only [State.isAdmitted, State.tierMade_partOfSlot, State.tierMade_part]

@[simp] theorem State.tierMade_tierCandidates (s : State) (p : Nat) (sec : TieringSec) :
    (s.tierMade p).tierCandidates p sec = s.tierCandidates p sec := by
  unfold State.tierCandidates
  rw [State.tierMade_part]
  rfl

@[simp] theorem State.tierMade_tierRegs (s : State) (p : Nat) (c : Nat × Bool) (hbmFree cxlFree : Nat) :
    (s.tierMade p).tierRegs p c hbmFree cxlFree = s.tierRegs p c hbmFree cxlFree := by
  simp only [State.tierRegs, State.tierMade_part, State.tierMade_stream, State.tierMade_pagesOf]

/-- The CXL frames in use are those of pages and of moves, which the mark does not touch. -/
theorem State.tierMade_mem_framesUsed (s : State) (p f : Nat) :
    f ∈ (s.tierMade p).framesUsed 1 ↔ f ∈ s.framesUsed 1 := by
  have hmoves := mem_flatMap_tset (d := ({} : Partition)) (l := s.parts) (k := p) (v := { s.part p with tierRan := true })
    (g := fun q => (q.moves.filter fun m => m.demote = decide (1 = 1)).map fun m => m.dest) rfl rfl f
  simp only [State.framesUsed, List.mem_append]
  exact or_congr (or_congr Iff.rfl hmoves) Iff.rfl

@[simp] theorem State.tierMade_freeCxl (s : State) (p : Nat) : (s.tierMade p).freeCxl p = s.freeCxl p := by
  have hused (f : Nat) : ((s.tierMade p).framesUsed 1).contains f = (s.framesUsed 1).contains f := by
    rw [Bool.eq_iff_iff, List.contains_iff_mem, List.contains_iff_mem, s.tierMade_mem_framesUsed]
  simp only [State.freeCxl, hused, State.tierMade_part]
  rfl

/-! Runs of the tiering script (R271, R272) -/

/-- Verdict 1 on a stream not admitted asks for the demotion of its pages in HBM (R272). -/
theorem State.tierVerdict_demote {s : State} {n : Nat} (p : Nat) (h : s.isAdmitted n = false) :
    (s.tierVerdict p n 1).1 = s.modPart p fun q => { q with
      moveQueue := q.moveQueue ++ ((s.pagesOf n).filter fun g => g.2.st = .hbm).map fun g => (g.1, true, false) } := by
  simp only [State.tierVerdict, h, Bool.false_eq_true, if_false, List.map_map]
  rfl

theorem tieringScriptRun_of_none {s : State} {p : Nat} (h : ((s.part p).image.bind fun b => b.tiering) = none) :
    exec (.tieringScriptRun p) s = .next s := by
  rw [exec_tieringScriptRun, execTieringScriptRun, h]

/-- The script's registers and whether it ended, run for one candidate with every free frame at hand. -/
def State.tierScript (s : State) (p : Nat) (sec : TieringSec) (c : Nat × Bool) : List Word × Bool :=
  runScript sec.code (fun _ => 0) 1024 { regs := s.tierRegs p c (s.freeHbmCount p) (s.freeCxl p).length }

/-- What keeps partition `p` from a run of its tiering script: no boundary gap, a run made already, or frames enough. -/
def State.tierIdle (s : State) (p : Nat) (sec : TieringSec) : Prop :=
  (s.part p).st ≠ .boundary ∨ (s.part p).tierRan = true ∨ (sec.lowFree ≠ 0 ∧ s.freeHbmCount p ≥ sec.lowFree)

theorem State.not_tierIdle {s : State} {p : Nat} {sec : TieringSec} (hgap : (s.part p).st = .boundary)
    (hfirst : (s.part p).tierRan = false) (hfew : sec.lowFree = 0 ∨ s.freeHbmCount p < sec.lowFree) : ¬ s.tierIdle p sec := by
  rintro (hother | hmade | ⟨hlow, hfree⟩)
  · exact hother hgap
  · exact absurd hmade (by rw [hfirst]; exact Bool.false_ne_true)
  · omega

section
variable {s : State} {p : Nat} {sec : TieringSec} (hsec : ((s.part p).image.bind fun b => b.tiering) = some sec)
include hsec

theorem tieringScriptRun_idle (h : s.tierIdle p sec) : exec (.tieringScriptRun p) s = .next s := by
  rw [exec_tieringScriptRun, execTieringScriptRun, hsec]
  exact if_pos h

theorem tieringScriptRun_noCandidate (hdue : ¬ s.tierIdle p sec) (hnone : s.tierCandidates p sec = []) :
    exec (.tieringScriptRun p) s = .next (s.tierMade p) := by
  unfold State.tierIdle at hdue
  rw [exec_tieringScriptRun, execTieringScriptRun, hsec]
  dsimp only
  rw [if_neg hdue, ← State.tierMade, State.tierMade_tierCandidates, hnone]
  rfl

/-- A run with one candidate, whose script ends, carries out the verdict in r15. -/
theorem tieringScriptRun_single (hdue : ¬ s.tierIdle p sec) {c : Nat × Bool} (hone : s.tierCandidates p sec = [c])
    (hends : (s.tierScript p sec c).2 = true) : exec (.tieringScriptRun p) s =
      .next ((s.tierMade p).tierVerdict p c.1 ((s.tierScript p sec c).1.getD 15 0).toNat).1 := by
  rw [State.tierScript] at hends
  unfold State.tierIdle at hdue
  rw [exec_tieringScriptRun, execTieringScriptRun, hsec]
  dsimp only
  rw [if_neg hdue, ← State.tierMade, State.tierMade_tierCandidates, hone]
  simp only [List.foldl_cons, List.foldl_nil, State.tierMade_tierRegs, State.tierMade_freeCxl, hends, if_true, State.tierScript]

end

theorem tieringRuns : Claims.TieringRuns := by
  refine fun s p => ⟨tieringScriptRun_of_none, fun sec hsec => ⟨fun h => ?_, fun hlow hfree => ?_,
    fun hgap hfirst hfew hnone => ?_, fun n hgap hfirst hfew hone hout hends hverdict => ?_⟩⟩
  · exact tieringScriptRun_idle hsec (h.imp_right .inl)
  · exact tieringScriptRun_idle hsec (.inr (.inr ⟨hlow, hfree⟩))
  · exact tieringScriptRun_noCandidate hsec (State.not_tierIdle hgap hfirst hfew) hnone
  · have hr15 : ((s.tierScript p sec (n, false)).1.getD 15 0).toNat = 1 := hverdict
    rw [tieringScriptRun_single hsec (State.not_tierIdle hgap hfirst hfew) hone hends, hr15,
      State.tierVerdict_demote p (by rw [State.tierMade_isAdmitted, hout]), State.tierMade, State.modPart_modPart]
    rfl

/-- Settles O34: its two claims, on requests to CXL frames and on the runs of the tiering script. -/
theorem tieringAndCxlReads : Obligations.TieringAndCxlReads :=
  ⟨cxlFrameReads, tieringRuns⟩

end Sys2Proof.Machine
end

section
/-!
SUPPORT. What PAGE_MOVE_START can begin, and the tag that a move's requests carry (`Obligations.PageMoves`).
-/

namespace Sys2Proof.Machine

theorem exec_pageMoveStart (s : State) (g : Nat) : exec (.pageMoveStart g) s = execPageMoveStart g s := rfl

/-! Moves that begin (R265, R267, R272) -/

/-- A move as it begins: its tag is the number that `unitSeq` takes with it, one above the one it had. -/
def State.newMove (s : State) (g d : Nat) (demote forAppend : Bool) : Move :=
  { page := g, dest := d, demote := demote, forAppend := forAppend, tag := s.unitSeq + 1, sent := (s.page g).cfill }

/-- The moves of partition `p` are those it had, or a move of page `g` has begun behind them. -/
def MoveBegun (s t : State) (p g : Nat) : Prop :=
  (t.part p).moves = (s.part p).moves ∨ ∃ d demote forAppend, (t.part p).moves = (s.part p).moves ++ [s.newMove g d demote forAppend]

theorem State.startMove_begun (s : State) (p g : Nat) (demote forAppend : Bool) :
    MoveBegun s (s.startMove p g demote forAppend) p g := by
  cases demote <;> simp only [State.startMove, if_true, Bool.false_eq_true, if_false]
  all_goals
    split
    · exact .inl rfl
    · split
      · exact .inl (by rw [State.modPart_part_self])
      · exact .inr ⟨_, _, _, by rw [State.modPart_part_self]; rfl⟩

/-- The requests of a move leave the partitions as they are. -/
theorem State.moveRequest_parts (s : State) (p : Nat) (m : Move) (fr i : Nat) : (s.moveRequest p m fr i).parts = s.parts := by
  unfold State.moveRequest State.tierToPort
  dsimp only
  split
  · split <;> rfl
  · rfl

theorem State.beginMove_parts (s : State) (p g : Nat) (demote forAppend : Bool) :
    (s.beginMove p g demote forAppend).parts = (s.startMove p g demote forAppend).parts := by
  unfold State.beginMove
  dsimp only
  split
  · rfl
  · exact each_eq (π := State.parts) (fun _ v => v.moveRequest_parts _ _ _ _) _ _

/-- PAGE_MOVE_START begins a move of its page or none. -/
theorem pageMoveStart_begun {s s' : State} {p g : Nat} (howner : s.partOfSlot (s.page g).owner = some p)
    (h : exec (.pageMoveStart g) s = .next s') : MoveBegun s s' p g := by
  rw [exec_pageMoveStart, execPageMoveStart, howner] at h
  dsimp only at h
  split at h
  · cases h
    exact .inl rfl
  · split at h
    · cases h
      exact .inl rfl
    · cases h
      next m _ _ =>
      have hbegun := State.startMove_begun (s.modPart p fun q => { q with moveQueue := q.moveQueue.erase m }) p g m.2.1 m.2.2
      rwa [MoveBegun, State.part, ← State.beginMove_parts, ← State.part, State.modPart_part_self] at hbegun

/-! A page next to be demoted -/

/-- Page 0 of stream 0 stands in HBM and is next to be demoted; its partition has one CXL frame. -/
def demotionNext : State :=
  { pages := [(0, { st := .hbm })], windows := [(0, 2 ^ 19)]
    parts := [(0, { st := .loaded, slotCount := 1, cxlCount := 1, moveQueue := [(0, true, false)] })] }

/-- Refutes O33: the statement gives a move that begins the tag `unitSeq`, and its tag is one above that: the number is taken
first (`State.newMove`). -/
theorem not_pageMoves : ¬ Obligations.PageMoves := by
  intro h
  have howner : demotionNext.partOfSlot (demotionNext.page 0).owner = some 0 := by decide
  obtain ⟨hdemote, -⟩ := h demotionNext 0 0 howner
  obtain ⟨s', hexec, -, -, hmoves, -⟩ := hdemote 0 rfl rfl (by decide) (by decide)
  obtain hnone | ⟨d, demote, forAppend, hone⟩ := pageMoveStart_begun howner hexec
  · rw [hnone] at hmoves
    exact absurd hmoves (by decide)
  · rw [hone] at hmoves
    have htag : demotionNext.unitSeq + 1 = demotionNext.unitSeq := congrArg Move.tag (List.singleton_injective (List.append_cancel_left hmoves))
    exact absurd htag (Nat.succ_ne_self _)

end Sys2Proof.Machine
end

section
/-!
SUPPORT. What the commands on streams do to streams, partitions and ring lines, and what they leave alone.
-/

namespace Sys2Proof.Machine

/-! Whose a slot is, and which streams are admitted (R277, R292) -/

/-- What of a partition decides whose a slot is and which streams are admitted. -/
def Partition.seats (q : Partition) : PState × Nat × Nat × List Admit × List Admit :=
  (q.st, q.slotFirst, q.slotCount, q.admitted, q.nextAdmitted)

/-- Every partition has its slots and its admitted streams. -/
def SameSeats (s t : State) : Prop := ∀ p, (t.part p).seats = (s.part p).seats

theorem SameSeats.of_parts {s t : State} (h : t.parts = s.parts) : SameSeats s t := fun p => by rw [State.part, h, State.part]

theorem State.modPart_sameSeats (s : State) (p : Nat) {f : Partition → Partition} (hf : ∀ q, (f q).seats = q.seats) :
    SameSeats s (s.modPart p f) := fun j => by
  by_cases hj : j = p
  · rw [hj, State.modPart_part_self, hf]
  · rw [State.modPart_part_ne _ _ hj]

theorem SameSeats.partOfSlot {s t : State} (h : SameSeats s t) (n : Nat) : t.partOfSlot n = s.partOfSlot n := by
  have hst (p : Nat) : (t.part p).st = (s.part p).st := congrArg Prod.fst (h p)
  have hfirst (p : Nat) : (t.part p).slotFirst = (s.part p).slotFirst := congrArg (fun x => x.2.1) (h p)
  have hcount (p : Nat) : (t.part p).slotCount = (s.part p).slotCount := congrArg (fun x => x.2.2.1) (h p)
  simp only [State.partOfSlot, State.exists?, hst, hfirst, hcount]

theorem SameSeats.isAdmitted {s t : State} (h : SameSeats s t) (n : Nat) : t.isAdmitted n = s.isAdmitted n := by
  have hnow (p : Nat) : (t.part p).admitted = (s.part p).admitted := congrArg (fun x => x.2.2.2.1) (h p)
  have hnext (p : Nat) : (t.part p).nextAdmitted = (s.part p).nextAdmitted := congrArg (fun x => x.2.2.2.2) (h p)
  simp only [State.isAdmitted, h.partOfSlot, hnow, hnext]

/-! What stays beside the streams -/

/-- Equal but for the streams, the partitions, the ring lines and what rank 0 sends to the other devices. -/
def StreamsOnly (s t : State) : Prop :=
  t = { s with streams := t.streams, parts := t.parts, link := t.link, svc := t.svc, hports := t.hports }

theorem StreamsOnly.refl (s : State) : StreamsOnly s s := rfl

theorem StreamsOnly.trans {s t u : State} (h : StreamsOnly s t) (k : StreamsOnly t u) : StreamsOnly s u := by
  unfold StreamsOnly at *
  rw [k, h]

theorem StreamsOnly.ite {s t u : State} {b : Prop} [Decidable b] (h : StreamsOnly s t) (k : StreamsOnly s u) :
    StreamsOnly s (if b then t else u) := by split <;> assumption

theorem StreamsOnly.aside {s t : State} (h : StreamsOnly s t) : Aside s t := ⟨by rw [h], by rw [h], by rw [h]⟩
theorem StreamsOnly.pages {s t : State} (h : StreamsOnly s t) : t.pages = s.pages := by rw [h]
theorem StreamsOnly.job {s t : State} (h : StreamsOnly s t) : t.job = s.job := by rw [h]

theorem SendsOnly.streamsOnly {s t : State} (h : SendsOnly s t) : StreamsOnly s t := by
  unfold SendsOnly at h
  rw [h]
  rfl

theorem State.modStream_streamsOnly (s : State) (n : Nat) (f : Stream → Stream) : StreamsOnly s (s.modStream n f) := rfl

theorem State.modPart_streamsOnly (s : State) (p : Nat) (f : Partition → Partition) : StreamsOnly s (s.modPart p f) := rfl

theorem State.castStream_of_noJob {s : State} (h : s.job.formed = false) (n : Nat) : s.castStream n = s := by
  simp [State.castStream, h]

theorem State.modStream_congr (s : State) (n : Nat) {f g : Stream → Stream} (h : f (s.stream n) = g (s.stream n)) :
    s.modStream n f = s.modStream n g := by
  simp only [State.modStream, h]

theorem State.modPart_congr (s : State) (p : Nat) {f g : Partition → Partition} (h : f (s.part p) = g (s.part p)) :
    s.modPart p f = s.modPart p g := by
  simp only [State.modPart, h]

theorem State.stream_congr {s t : State} (h : t.streams = s.streams) (n : Nat) : t.stream n = s.stream n := by
  rw [State.stream, h, State.stream]

/-! A completion leaves streams, pages and windows -/

theorem State.okWith_store (s : State) (n : Nat) (resp : List Byte) : (s.okWith n resp).streams = s.streams ∧
    (s.okWith n resp).pages = s.pages ∧ (s.okWith n resp).windows = s.windows := by
  cases h : (s.mb n).done with
  | true =>
    have hsame : s.okWith n resp = s := by
      unfold State.okWith State.finish
      exact if_pos h
    rw [hsame]
    exact ⟨rfl, rfl, rfl⟩
  | false =>
    rw [State.okWith_eventOnly h]
    exact ⟨rfl, rfl, rfl⟩

theorem State.okWith_stream (s : State) (n k : Nat) (resp : List Byte) : (s.okWith n resp).stream k = s.stream k :=
  State.stream_congr (s.okWith_store n resp).1 k

theorem State.okWith_page (s : State) (n g : Nat) (resp : List Byte) : (s.okWith n resp).page g = s.page g := by
  rw [State.page, (s.okWith_store n resp).2.1, State.page]

/-! A stream that has come to rest (R281, R274, R381) -/

theorem State.actStreamHeld_of_none {s : State} {n : Nat} (h : (s.stream n).heldCmd = none) : s.actStreamHeld n = s := by
  unfold State.actStreamHeld
  simp only [h]

theorem State.prepareGoOn_of_none {s : State} (h : s.preparing = none) : s.prepareGoOn = s := by
  unfold State.prepareGoOn
  simp only [h]

/-- With no job, no enable held and no PREPARE_REMOVE, nothing follows a stream's end or park. -/
theorem State.atRest {s : State} {n : Nat} (hjob : s.job.formed = false) (hheld : (s.stream n).heldCmd = none)
    (hprep : s.preparing = none) : ((s.castStream n).actStreamHeld n).prepareGoOn = s := by
  rw [State.castStream_of_noJob hjob, State.actStreamHeld_of_none hheld, State.prepareGoOn_of_none hprep]

/-! A slot opened (R281, R373) -/

theorem State.openSlot_frame (s : State) (n : Nat) (d : List Byte) : ∃ l, s.openSlot n d =
    { s with streams := tset s.streams n (openStream ((s.partOfSlot n).getD 0) d), link := l } := by
  unfold State.openSlot
  dsimp only
  split <;> exact ⟨_, rfl⟩

theorem State.openSlot_streamsOnly (s : State) (n : Nat) (d : List Byte) : StreamsOnly s (s.openSlot n d) := by
  obtain ⟨l, h⟩ := s.openSlot_frame n d
  rw [h]
  rfl

theorem State.openSlot_parts (s : State) (n : Nat) (d : List Byte) : (s.openSlot n d).parts = s.parts := by
  obtain ⟨l, h⟩ := s.openSlot_frame n d
  rw [h]

theorem State.openSlot_stream_self (s : State) (n : Nat) (d : List Byte) :
    (s.openSlot n d).stream n = openStream ((s.partOfSlot n).getD 0) d := by
  obtain ⟨l, h⟩ := s.openSlot_frame n d
  rw [h]
  exact tget_tset_self _ _ _ _

theorem State.openSlot_stream_ne (s : State) {n k : Nat} (d : List Byte) (hk : k ≠ n) : (s.openSlot n d).stream k = s.stream k := by
  obtain ⟨l, h⟩ := s.openSlot_frame n d
  rw [h]
  exact tget_tset_ne _ _ _ hk

/-! A stream that drains (R281, R309) -/

theorem State.drain_of_open {s : State} {n : Nat} (h : isOpen (s.stream n).st = true) (cause : Nat) :
    s.drain n cause = s.modStream n fun x => { x with st := .draining, drainCause := cause } :=
  s.modStream_congr n (by rw [if_pos h])

theorem State.closeOut_streamsOnly (s : State) (n : Nat) (covered : Bool) : StreamsOnly s (s.closeOut n covered) := by
  unfold State.closeOut
  dsimp only
  refine .ite (StreamsOnly.trans (t := s.modStream n fun y => { y with closedWritten := true }) rfl ?_) (.refl s)
  split
  · exact .refl _
  · exact .ite (.refl _) (State.modPart_streamsOnly _ _ _)

/-- A CLOSED record changes nothing of its stream but that it is written. -/
theorem State.closeOut_stream_self (s : State) (n : Nat) (covered : Bool) :
    ∃ b, (s.closeOut n covered).stream n = { s.stream n with closedWritten := b } := by
  unfold State.closeOut
  dsimp only
  split
  · refine ⟨true, ?_⟩
    split
    · exact State.modStream_stream_self _ _ _
    · split
      · exact State.modStream_stream_self _ _ _
      · rw [State.modPart_stream]
        exact State.modStream_stream_self _ _ _
  · exact ⟨_, rfl⟩

/-- The CLOSED record of stream `n` of a partition (R309). -/
def State.closedRecord (s : State) (n p : Nat) : CompletionRec :=
  { stream := n, kind := 3, pos := (s.stream n).tokenPos % 2 ^ 32, cause := (s.stream n).drainCause, tide := (s.part p).lastCommitted }

/-- The CLOSED record of a draining stream that is not admitted joins the records that wait. -/
theorem State.closeOut_part {s : State} {n p : Nat} (hst : (s.stream n).st = .draining)
    (hwritten : (s.stream n).closedWritten = false) (hadm : s.isAdmitted n = false) (hp : s.partOfSlot n = some p)
    (hdrafter : (s.stream n).drafter = false) (hroot : s.streamRoot = true) (covered : Bool) :
    (s.closeOut n covered).part p = { s.part p with
      unreserved := (s.part p).unreserved + b01 (!covered), completions := (s.part p).completions ++ [s.closedRecord n p] } := by
  have howner : (s.modStream n fun y => { y with closedWritten := true }).partOfSlot n = some p := hp
  have hrootc : (s.modStream n fun y => { y with closedWritten := true }).streamRoot = true := hroot
  unfold State.closeOut
  simp only [hst, hwritten, hadm, howner, hdrafter, hrootc, Bool.not_false, Bool.not_true, Bool.or_self, Bool.false_eq_true,
    and_self, if_true, if_false, State.modPart_part_self]
  rfl

/-! A park that begins (R274) -/

theorem State.startPark_frame (s : State) (n target : Nat) : ∃ l, s.startPark n target =
    { s.modStream n fun x => { x with parking := true, parkTarget := target, parkBytes := 0 } with parts := l } := by
  unfold State.startPark
  dsimp only
  split
  · split <;> exact ⟨_, rfl⟩
  · exact ⟨_, rfl⟩

/-- A park to the second tier asks for the demotion of the stream's pages in HBM; one to the host for none. -/
theorem State.startPark_part {s : State} {n p : Nat} (hp : s.partOfSlot n = some p) (target : Nat) :
    (s.startPark n target).part p = { s.part p with moveQueue := (s.part p).moveQueue ++
      if target = 0 then ((s.pagesOf n).filter fun g => g.2.st = .hbm).map fun g => (g.1, true, false) else [] } := by
  have howner : (s.modStream n fun x => { x with parking := true, parkTarget := target, parkBytes := 0 }).partOfSlot n = some p := hp
  unfold State.startPark
  by_cases h : target = 0
  · simp only [h, if_true] at howner ⊢
    simp only [howner, State.modPart_part_self, State.modStream_part, State.hbmPagesOf, List.map_map]
    rfl
  · simp only [h, if_false, List.append_nil]
    rfl

/-! A parked stream that opens again (R275, R281) -/

theorem Stream.refresh_isOpen {x : Stream} (h : isOpen x.st = true) : isOpen x.refresh.st = true := by
  rw [Stream.refresh, if_pos h]
  dsimp only
  split <;> rfl

theorem Stream.refresh_tokenPos (x : Stream) : x.refresh.tokenPos = x.tokenPos := by
  unfold Stream.refresh
  split <;> rfl

theorem State.resume_frame (s : State) (n : Nat) : ∃ l, s.resume n =
    { s.modStream n fun x => ({ x with st := .open_ } : Stream).refresh with link := l } := by
  unfold State.resume
  dsimp only
  split <;> exact ⟨_, rfl⟩

theorem State.resume_parts (s : State) (n : Nat) : (s.resume n).parts = s.parts := by
  obtain ⟨l, h⟩ := s.resume_frame n
  rw [h]
  rfl

theorem State.resume_stream_self (s : State) (n : Nat) :
    isOpen ((s.resume n).stream n).st = true ∧ ((s.resume n).stream n).tokenPos = (s.stream n).tokenPos := by
  obtain ⟨l, h⟩ := s.resume_frame n
  have hstream : (s.resume n).stream n = ({ s.stream n with st := .open_ } : Stream).refresh := by
    rw [State.stream_congr (s := s.modStream n _) (by rw [h]), State.modStream_stream_self]
  rw [hstream]
  exact ⟨Stream.refresh_isOpen rfl, Stream.refresh_tokenPos _⟩

/-! The stream commands as they act (R281, R282) -/

theorem State.applyStreamCmd_open {s : State} {n : Nat} (h : (s.stream n).st = .closed) (o : Nat) (d : List Byte) :
    s.applyStreamCmd o (.open_ n d) = s.openSlot n d := if_pos h

/-- A stream that is open drains when it is closed, with cause 3. -/
theorem State.applyStreamCmd_close {s : State} {n : Nat} (h : isOpen (s.stream n).st = true) (o : Nat) :
    s.applyStreamCmd o (.close n) =
      (s.modStream n fun x => { x with st := .draining, drainCause := 3 }).closeOut n false := by
  have hparked : (s.stream n).st ≠ .parked := fun hp => by
    rw [hp] at h
    cases h
  rw [State.applyStreamCmd, if_neg hparked, State.drain_of_open h]

theorem State.applyStreamCmd_park {s : State} {n : Nat} (h : isOpen (s.stream n).st = true) (hfree : s.parkForbidden n = false)
    (o target m : Nat) :
    s.applyStreamCmd o (.park n target m) = (s.startPark n target).modStream n fun x => { x with parkMbx := m } := by
  simp only [State.applyStreamCmd, h, hfree, Bool.not_true, Bool.false_eq_true, if_false]

/-- A stream parked in the second tier comes back with no record read. -/
theorem State.applyStreamCmd_resume {s : State} {n : Nat} (h : (s.stream n).st = .parked) (o : Nat) (recs : List ParkRec) :
    s.applyStreamCmd o (.resume n 0 recs) = s.resume n := by
  simp only [State.applyStreamCmd, h, ne_eq, not_true_eq_false, if_false, Nat.zero_ne_one]
  split <;> rfl

theorem State.parked_streamsOnly (s : State) (n target m : Nat) :
    StreamsOnly s ((s.startPark n target).modStream n fun x => { x with parkMbx := m }) := by
  obtain ⟨l, h⟩ := s.startPark_frame n target
  rw [h]
  rfl

theorem State.resume_streamsOnly (s : State) (n : Nat) : StreamsOnly s (s.resume n) := by
  obtain ⟨l, h⟩ := s.resume_frame n
  rw [h]
  rfl

/-- A stream whose park has begun. -/
theorem State.parked_stream_self (s : State) (n target m : Nat) :
    ((s.startPark n target).modStream n fun x => { x with parkMbx := m }).stream n =
      { s.stream n with parking := true, parkTarget := target, parkBytes := 0, parkMbx := m } := by
  obtain ⟨l, h⟩ := s.startPark_frame n target
  rw [State.modStream_stream_self, State.stream_congr (s := s.modStream n _) (by rw [h]), State.modStream_stream_self]

end Sys2Proof.Machine
end

section
/-!
SUPPORT. The page commands that wait for a gap, and a park to the second tier that ends (`Obligations.PageCommandsAndParks`).
-/

namespace Sys2Proof.Machine

theorem exec_pageCommandApply (s : State) (p : Nat) : exec (.pageCommandApply p) s = execPageCommandApply p s := rfl
theorem exec_pageBindTimeout (s : State) (n : Nat) : exec (.pageBindTimeout n) s = execPageBindTimeout n s := rfl
theorem exec_parkComplete (s : State) (n : Nat) : exec (.parkComplete n) s = execParkComplete n s := rfl

/-! Entries changed by their keys -/

/-- A change of every entry of a table that keeps the keys and leaves the default changes each entry read. -/
theorem tget_map_keyed {α : Type} {d : α} {f : Nat × α → Nat × α} (hkey : ∀ e, (f e).1 = e.1) {k : Nat} (hd : (f (k, d)).2 = d) :
    ∀ l : Tab α, tget d (l.map f) k = (f (k, tget d l k)).2
  | [] => hd.symm
  | (i, v) :: l => by
    have hi : f (i, v) = (i, (f (i, v)).2) := Prod.ext (hkey (i, v)) rfl
    rw [List.map_cons, hi, tget, tget, tget_map_keyed hkey hd l]
    split
    · next h => rw [h]
    · rfl

theorem State.forgetMoves_part (s : State) (f : Nat → Bool) (p : Nat) : (s.forgetMoves f).part p =
    { s.part p with moveQueue := (s.part p).moveQueue.filter fun m => !(f m.1) } :=
  tget_map (d := ({} : Partition)) (f := fun q => { q with moveQueue := q.moveQueue.filter fun m => !(f m.1) }) rfl p s.parts

/-! PAGE_FREE (R264) -/

/-- The pages `f` to `f + k - 1` freed, and the moves asked for of them forgotten. -/
def State.rangeFreed (s : State) (f k : Nat) : State :=
  { s.forgetMoves fun g => decide (f ≤ g) && decide (g < f + k) with
    pages := s.pages.map fun e => if f ≤ e.1 ∧ e.1 < f + k then (e.1, ({} : Page)) else e }

theorem State.rangeFreed_page (s : State) (f k g : Nat) :
    (s.rangeFreed f k).page g = if f ≤ g ∧ g < f + k then {} else s.page g := by
  refine (tget_map_keyed (d := ({} : Page)) (fun e => ?_) ?_ s.pages).trans ?_
  · split <;> rfl
  · dsimp only
    split <;> rfl
  · dsimp only
    split <;> rfl

theorem State.rangeFreed_pageCmds (s : State) (f k p : Nat) : ((s.rangeFreed f k).part p).pageCmds = (s.part p).pageCmds := by
  have hparts : (s.rangeFreed f k).part p = (s.forgetMoves fun g => decide (f ≤ g) && decide (g < f + k)).part p := rfl
  rw [hparts, State.forgetMoves_part]

theorem mem_pageRange {f k g : Nat} : g ∈ pageRange f k ↔ f ≤ g ∧ g < f + k := by
  simp only [pageRange, List.mem_map, List.mem_range]
  constructor
  · rintro ⟨i, hi, rfl⟩
    omega
  · rintro ⟨hlow, hhigh⟩
    exact ⟨g - f, by omega, by omega⟩

/-- A PAGE_FREE none of whose pages moves or is pinned frees them. -/
theorem State.applyPageCmd_free {s : State} {f k : Nat} (h : ∀ g ∈ pageRange f k, (s.page g).st = .free ∨ (s.page g).st = .hbm ∨
    (s.page g).st = .cxl) (p n : Nat) : s.applyPageCmd p (.free n f k) = (s.rangeFreed f k).okWith n [] := by
  have hstill : ((pageRange f k).any fun g => (s.page g).st = .demoting || (s.page g).st = .promoting || (s.page g).st = .pinned)
      = false := by
    refine List.any_eq_false.mpr fun g hg => ?_
    obtain hst | hst | hst := h g hg <;> rw [hst] <;> decide
  unfold State.applyPageCmd
  dsimp only
  rw [hstill, if_neg Bool.false_ne_true]
  rfl

/-- A PAGE_FREE of pages that are FREE, or whose partitions are in a gap, does not wait. -/
theorem State.pageCmdWaits_free {s : State} {f k : Nat} (h : ∀ g ∈ pageRange f k, (s.page g).st = .free ∨
    ∃ p, s.partOfSlot (s.page g).owner = some p ∧ (s.part p).gap = true) (n : Nat) : s.pageCmdWaits (.free n f k) = false := by
  refine List.any_eq_false.mpr fun g hg => ?_
  obtain hfree | ⟨p, hp, hgap⟩ := h g hg
  · rw [hfree]
    split <;> simp
  · simp [hp, hgap]

/-- The partition's waiting page commands taken up. -/
def State.pageCmdsTaken (s : State) (p : Nat) : State := s.modPart p fun q => { q with pageCmds := [] }

theorem State.pageCmdsTaken_part (s : State) (p : Nat) : (s.pageCmdsTaken p).part p = { s.part p with pageCmds := [] } :=
  State.modPart_part_self _ _ _

theorem State.pageCmdsTaken_sameSeats (s : State) (p : Nat) : SameSeats s (s.pageCmdsTaken p) :=
  s.modPart_sameSeats p fun _ => rfl

/-- PAGE_COMMAND_APPLY of the only command that waits, a PAGE_FREE of pages of the partition that stand still. -/
theorem pageCommandApply_frees {s : State} {p n f k : Nat} (hgap : (s.part p).gap = true)
    (hcmds : (s.part p).pageCmds = [.free n f k]) (hstreams : (s.part p).streamCmds = [])
    (hpages : ∀ g ∈ pageRange f k, (s.page g).st = .free ∨
      (s.partOfSlot (s.page g).owner = some p ∧ ((s.page g).st = .hbm ∨ (s.page g).st = .cxl))) :
    exec (.pageCommandApply p) s = .next (((s.pageCmdsTaken p).rangeFreed f k).okWith n []) := by
  have hpart := s.pageCmdsTaken_part p
  have hwaits : (s.pageCmdsTaken p).pageCmdWaits (.free n f k) = false := by
    refine State.pageCmdWaits_free (s := s.pageCmdsTaken p) (fun g hg => (hpages g hg).imp_right fun ⟨hp, _⟩ => ⟨p, ?_, ?_⟩) n
    · exact ((s.pageCmdsTaken_sameSeats p).partOfSlot _).trans hp
    · rw [hpart]
      exact hgap
  have hbehind : (s.pageCmdsTaken p).pageBehind p (.free n f k) = false := by
    rw [State.pageBehind, hwaits, hpart]
    simp [hstreams]
  have hfree := State.applyPageCmd_free (s := s.pageCmdsTaken p) (f := f) (k := k)
    (fun g hg => (hpages g hg).imp_right fun ⟨_, hst⟩ => hst) p n
  rw [exec_pageCommandApply, execPageCommandApply, if_pos hgap, hcmds]
  simp only [each, List.foldl_cons, List.foldl_nil]
  rw [← State.pageCmdsTaken, hbehind, if_neg Bool.false_ne_true, hfree]

theorem pageFree_applied {s : State} {p n f k : Nat} (hgap : (s.part p).gap = true)
    (hcmds : (s.part p).pageCmds = [.free n f k]) (hstreams : (s.part p).streamCmds = []) (hd : (s.mb n).done = false)
    (hpages : ∀ g ∈ pageRange f k, (s.page g).st = .free ∨
      (s.partOfSlot (s.page g).owner = some p ∧ ((s.page g).st = .hbm ∨ (s.page g).st = .cxl))) :
    ∃ s', exec (.pageCommandApply p) s = .next s' ∧ (s'.part p).pageCmds = [] ∧ s.answered s' n 0 [] ∧
      (∀ g, f ≤ g → g < f + k → (s'.page g).st = .free) ∧ (∀ g, g < f → s'.page g = s.page g) ∧
      (∀ g, f + k ≤ g → s'.page g = s.page g) := by
  have hpage (g : Nat) : (((s.pageCmdsTaken p).rangeFreed f k).okWith n []).page g = if f ≤ g ∧ g < f + k then {} else s.page g :=
    (State.okWith_page _ _ _ _).trans (State.rangeFreed_page _ _ _ _)
  refine ⟨_, pageCommandApply_frees hgap hcmds hstreams hpages, ?_, ?_, fun g hlow hhigh => ?_, fun g hg => ?_, fun g hg => ?_⟩
  · rw [State.okWith_part, State.rangeFreed_pageCmds, State.pageCmdsTaken_part]
  · have hmbx : ((s.pageCmdsTaken p).rangeFreed f k).mbx = s.mbx := rfl
    have hcount : ((s.pageCmdsTaken p).rangeFreed f k).cmdsDone = s.cmdsDone := rfl
    exact (State.SamePage.of_eq hmbx hcount).ok hd []
  · rw [hpage, if_pos ⟨hlow, hhigh⟩]
  · rw [hpage, if_neg (by omega)]
  · rw [hpage, if_neg (by omega)]

/-! PAGE_BIND_TIMEOUT (R406) -/

theorem pageBind_timedOut {s : State} {n p f k owner : Nat} {q : Partition} (hparts : s.parts = [(p, q)])
    (hcmds : q.pageCmds = [.bind n f k owner]) (hawaits : s.awaitsOwner owner = true) (hd : (s.mb n).done = false) :
    ∃ s', exec (.pageBindTimeout n) s = .next s' ∧ (s'.part p).pageCmds = [] ∧ (s'.mb n).done = true ∧
      (s'.mb n).status = 0x0103 ∧ (s'.mb n).offset = 8 ∧ s'.pages = s.pages := by
  have hpart : s.part p = q := by simp [State.part, hparts, tget]
  have hexec : exec (.pageBindTimeout n) s = .next ((s.pageCmdsTaken p).failAt n stField 8) := by
    rw [exec_pageBindTimeout, execPageBindTimeout, hparts]
    simp only [List.find?_cons, hcmds, List.any_cons, List.any_nil, hawaits, decide_true, Bool.and_self, Bool.or_false]
    refine congrArg (fun v : State => Host.Outcome.next (v.failAt n stField 8)) (s.modPart_congr p ?_)
    simp [hpart, hcmds, hawaits]
  have hfail := State.finish_eventOnly (s := s.pageCmdsTaken p) (n := n) hd stField [] [] 0 8
  have hmb : ((s.pageCmdsTaken p).failAt n stField 8).mb n = (s.mb n).completed stField [] 0 0 8 := by
    rw [State.failAt, hfail.mb, State.complete_mb_self]
    rfl
  refine ⟨_, hexec, ?_, by rw [hmb]; rfl, by rw [hmb]; rfl, by rw [hmb]; rfl, by rw [State.failAt, hfail]; rfl⟩
  rw [State.failAt, State.finish_part, State.pageCmdsTaken, State.modPart_part_self]

/-! PARK_COMPLETE (R274) -/

theorem State.parkedEvent_eventOnly (s : State) (n target bytes : Nat) : EventOnly s (s.parkedEvent n target bytes) :=
  State.raiseRec_eventOnly _ _ _

theorem State.parkedEvent_eventCount_lt (s : State) (n target bytes : Nat) : s.eventCount < (s.parkedEvent n target bytes).eventCount :=
  State.raiseRec_eventCount_lt _ _ _

section
variable {s : State} {n : Nat} (hparking : (s.stream n).parking = true) (htarget : (s.stream n).parkTarget = 0)
include hparking htarget

theorem parkComplete_early (hprep : s.preparing = none) (h : ∃ g ∈ s.pagesOf n, g.2.st ≠ .cxl) :
    exec (.parkComplete n) s = .next s := by
  obtain ⟨g, hg, hst⟩ := h
  have hleft : ((s.pagesOf n).all fun g => g.2.st = .cxl) = false := List.all_eq_false.mpr ⟨g, hg, by simpa using hst⟩
  have hend : s.parkEnd n = s := by
    unfold State.parkEnd
    simp only [hparking, htarget, hleft, Bool.not_true, Bool.false_eq_true, if_false, if_true]
  rw [exec_parkComplete, execParkComplete, hend, State.prepareGoOn_of_none hprep]

theorem parkComplete_parks (hheld : (s.stream n).heldCmd = none) (hst : (s.stream n).st ≠ .draining)
    (hjob : s.job.formed = false) (hprep : s.preparing = none) (h : ∀ g ∈ s.pagesOf n, g.2.st = .cxl) :
    ∃ s', exec (.parkComplete n) s = .next s' ∧ (s'.stream n).st = .parked ∧ (s'.stream n).parking = false ∧
      s'.pages = s.pages ∧ s'.eventCount > s.eventCount := by
  have hall : ((s.pagesOf n).all fun g => g.2.st = .cxl) = true := List.all_eq_true.mpr fun g hg => by simpa using h g hg
  generalize hu : ({ s with parkedCount := s.parkedCount + b01 s.preparing.isSome } : State).modStream n
    (fun y => { y with st := .parked, parking := false, parkBytes := 0 }) = u
  have hevent := u.parkedEvent_eventOnly n 0 0
  have hcount := u.parkedEvent_eventCount_lt n 0 0
  generalize hv : u.parkedEvent n 0 0 = v at hevent hcount
  have hstream : (v.dropLine n).stream n = { s.stream n with st := .parked, parking := false, parkBytes := 0 } := by
    rw [State.stream_congr (s := u) (by rw [State.dropLine, hevent]), ← hu, State.modStream_stream_self]
    rfl
  have hend : s.parkEnd n = ((v.dropLine n).castStream n).actStreamHeld n := by
    unfold State.parkEnd
    simp only [hparking, htarget, hall, Bool.not_true, Bool.false_eq_true, if_false, if_true]
    unfold State.parkDone
    simp only [hst, if_false, htarget, hu, hv]
  have hexec : exec (.parkComplete n) s = .next (v.dropLine n) := by
    rw [exec_parkComplete, execParkComplete, hend, State.atRest]
    · rw [State.dropLine, hevent, ← hu]
      exact hjob
    · rw [hstream]
      exact hheld
    · rw [State.dropLine, hevent, ← hu]
      exact hprep
  refine ⟨_, hexec, by rw [hstream], by rw [hstream], ?_, ?_⟩
  · rw [State.dropLine, hevent, ← hu]
    rfl
  · rw [← hu] at hcount
    exact hcount

end

/-- Settles O35: a PAGE_FREE as its range freed, a timed-out PAGE_BIND as a completion, and a park that ends as the stream at rest. -/
theorem pageCommandsAndParks : Obligations.PageCommandsAndParks :=
  ⟨fun _ _ _ _ _ => pageFree_applied, fun _ _ _ _ _ _ _ => pageBind_timedOut,
    fun _ _ hparking htarget hheld hst hjob hprep => ⟨parkComplete_parks hparking htarget hheld hst hjob hprep,
      parkComplete_early hparking htarget hprep⟩⟩

end Sys2Proof.Machine
end

section
/-!
SUPPORT. Completion records as they are written or held, streams that have drained, and the stream commands of a gap
(`Obligations.CompletionsAndStreamCommands`).
-/

namespace Sys2Proof.Machine

theorem exec_completionWrite (s : State) (p : Nat) : exec (.completionWrite p) s = execCompletionWrite p s := rfl
theorem exec_drainComplete (s : State) (n : Nat) : exec (.drainComplete n) s = execDrainComplete n s := rfl
theorem exec_streamCommandApply (s : State) (p : Nat) : exec (.streamCommandApply p) s = execStreamCommandApply p s := rfl

/-! Records to the hold area or to the ring (R307, R309, R378, R379) -/

theorem completionWrite_holds {s : State} {p : Nat} (hlink : s.link.access = false) : ∃ s', exec (.completionWrite p) s = .next s' ∧
    (s'.part p).holdArea = (s.part p).holdArea ++ (s.part p).completions.take (32768 - (s.part p).holdArea.length) ∧
    (s'.part p).completions = (s.part p).completions.drop (32768 - (s.part p).holdArea.length) ∧ s'.posted = s.posted := by
  refine ⟨s.holdRecords p, ?_, ?_, ?_, rfl⟩
  · rw [exec_completionWrite, execCompletionWrite, hlink, if_neg Bool.false_ne_true]
  · rw [State.holdRecords, State.modPart_part_self]
    rfl
  · rw [State.holdRecords, State.modPart_part_self]
    rfl

/-- An interrupt posts one message more or none. -/
theorem State.msix_posted (s : State) (v : Nat) : ∃ l, (s.msix v).posted = s.posted ++ l := by
  unfold State.msix
  split
  · exact ⟨[], (List.append_nil _).symm⟩
  · split
    · exact ⟨[], (List.append_nil _).symm⟩
    · split
      · exact ⟨_, rfl⟩
      · exact ⟨[], (List.append_nil _).symm⟩

/-- The posted write of each record of `l` to the ring of `q`, from its producer on. -/
def Partition.ringWrites (q : Partition) (p : Nat) (l : List CompletionRec) : List Posted :=
  ((List.range l.length).zip l).map fun e =>
    Posted.completion p (q.cringBase + 128 + 32 * ((q.cringProducer + e.1) % 2 ^ q.cringLog)) (recordOf e.2)

/-- Records written are posted in order, then PRODUCER. -/
theorem State.putRecords_writes (s : State) (p : Nat) {l : List CompletionRec} (h : l ≠ []) :
    (s.putRecords p l).part p = { s.part p with cringProducer := ((s.part p).cringProducer + l.length) % 2 ^ 32 } ∧
    ∃ tail, (s.putRecords p l).posted = s.posted ++ (s.part p).ringWrites p l ++
      Posted.word p (s.part p).cringBase (BitVec.ofNat 32 (((s.part p).cringProducer + l.length) % 2 ^ 32)) :: tail := by
  unfold State.putRecords
  simp only [List.isEmpty_iff, h, if_false]
  refine ⟨?_, ?_⟩
  · rw [(State.msix_eventOnly _ _).part, State.modPart_part_self]
    rfl
  · obtain ⟨l, hl⟩ := State.msix_posted _ _
    rw [hl]
    exact ⟨l, by simp [Partition.ringWrites]⟩

/-- The records that find room, each with its place. -/
theorem zip_range_take {α : Type} (l : List α) (k : Nat) :
    (List.range (l.take k).length).zip (l.take k) = (List.range (min l.length k)).zip l := by
  have hlen : (l.take k).length = min l.length k := by rw [List.length_take, Nat.min_comm]
  have hmin : min (List.range (min l.length k)).length l.length = min l.length k := by rw [List.length_range]; omega
  have htake : l.take k = l.take (min l.length k) := List.take_eq_take_iff.mpr (by omega)
  rw [hlen, List.zip_eq_zip_take_min (l₁ := List.range _) (l₂ := l), hmin, htake,
    List.take_of_length_le (l := List.range _) (by rw [List.length_range])]

/-- The records that find room in the ring taken from those that wait. -/
def State.recordsTaken (s : State) (p : Nat) : State := s.modPart p fun q => { q with
  completions := (s.part p).completions.drop (s.part p).ringRoom, reserved := (s.part p).stillReserved
  unreserved := ((s.part p).completions.drop (s.part p).ringRoom).length }

theorem State.recordsTaken_part (s : State) (p : Nat) : (s.recordsTaken p).part p = { s.part p with
    completions := (s.part p).completions.drop (s.part p).ringRoom, reserved := (s.part p).stillReserved
    unreserved := ((s.part p).completions.drop (s.part p).ringRoom).length } := State.modPart_part_self _ _ _

theorem State.flushRecords_eq (s : State) (p : Nat) : s.flushRecords p =
    (s.recordsTaken p).putRecords p ((s.part p).completions.take (s.part p).ringRoom) := rfl

theorem completionWrite_posts {s : State} {p : Nat} (hsome : (s.part p).completions ≠ []) (hlink : s.link.access = true)
    (hroom : 0 < (s.part p).ringRoom) : ∃ s' tail, exec (.completionWrite p) s = .next s' ∧
      (s'.part p).completions = (s.part p).completions.drop (s.part p).ringRoom ∧
      (s'.part p).cringProducer = ((s.part p).cringProducer + min (s.part p).completions.length (s.part p).ringRoom) % 2 ^ 32 ∧
      s'.posted = s.posted ++ (((List.range (min (s.part p).completions.length (s.part p).ringRoom)).zip
          (s.part p).completions).map fun e => Posted.completion p ((s.part p).cringBase + 128 +
            32 * (((s.part p).cringProducer + e.1) % 2 ^ (s.part p).cringLog)) (recordOf e.2)) ++
        Posted.word p (s.part p).cringBase (BitVec.ofNat 32 (s'.part p).cringProducer) :: tail := by
  have htake : (s.part p).completions.take (s.part p).ringRoom ≠ [] := by
    rw [ne_eq, List.take_eq_nil_iff]
    exact not_or.mpr ⟨by omega, hsome⟩
  have hlen : ((s.part p).completions.take (s.part p).ringRoom).length = min (s.part p).completions.length (s.part p).ringRoom := by
    rw [List.length_take, Nat.min_comm]
  have hpart := s.recordsTaken_part p
  have hposted : (s.recordsTaken p).posted = s.posted := rfl
  obtain ⟨hputs, tail, hposts⟩ := (s.recordsTaken p).putRecords_writes p htake
  rw [← State.flushRecords_eq, hpart] at hputs
  rw [← State.flushRecords_eq, hposted, hpart] at hposts
  refine ⟨s.flushRecords p, tail, ?_, ?_, ?_, ?_⟩
  · rw [exec_completionWrite, execCompletionWrite, hlink, if_pos rfl]
  · rw [hputs]
  · rw [hputs, hlen]
  · rw [hputs, hposts, hlen, Partition.ringWrites, zip_range_take]

/-! The record's bytes (R308) -/

theorem recordOf_fields {c : CompletionRec} (hstream : c.stream < 2 ^ 16) (hpos : c.pos < 2 ^ 32) (htide : c.tide < 2 ^ 48) :
    (recordOf c).length = 32 ∧ leNat ((recordOf c).take 2) = c.stream ∧ leNat (((recordOf c).drop 4).take 4) = c.pos ∧
    leNat (((recordOf c).drop 24).take 6) = c.tide ∧
    (c.kind = 3 → c.cause < 2 ^ 32 → leNat (((recordOf c).drop 8).take 4) = c.cause) ∧
    (c.kind ≠ 3 → ∀ i, i < 4 → leNat (((recordOf c).drop (8 + 4 * i)).take 4) = (c.tokens.getD i 0).toNat) := by
  refine ⟨?_, leNat_leBytes 2 _ hstream, leNat_leBytes 4 _ hpos, ?_, fun hkind hcause => ?_, fun hkind i hi => ?_⟩
  · unfold recordOf
    split <;> rfl
  · refine Eq.trans (congrArg leNat ?_) (leNat_leBytes 6 _ htide)
    unfold recordOf
    split <;> rfl
  · refine Eq.trans (congrArg leNat ?_) (leNat_leBytes 4 _ hcause)
    rw [recordOf, if_pos hkind]
    rfl
  · refine Eq.trans (congrArg leNat ?_) (leNat_leBytes 4 (c.tokens.getD i 0).toNat (BitVec.isLt _))
    rw [recordOf, if_neg hkind]
    interval_cases i <;> rfl

theorem completionWrites : Claims.CompletionWrites :=
  ⟨fun _ _ hsome => ⟨completionWrite_holds, completionWrite_posts hsome⟩, fun _ => recordOf_fields⟩

/-! DRAIN_COMPLETE (R281) -/

theorem State.closedEvent_eventOnly (s : State) (n : Nat) (x : Stream) : EventOnly s (s.closedEvent n x) :=
  State.eventOf_eventOnly _ _ _ _ _ _

theorem State.closedEvent_eventCount_lt (s : State) (n : Nat) (x : Stream) : s.eventCount < (s.closedEvent n x).eventCount :=
  State.eventOf_eventCount_lt _ _ _ _ _ (by split <;> decide)

theorem State.freePages_page (s : State) (n g : Nat) :
    (s.freePages n).page g = if (s.page g).st ≠ .free ∧ (s.page g).owner = n then {} else s.page g := by
  refine (tget_map_keyed (d := ({} : Page)) (fun e => ?_) ?_ s.pages).trans ?_
  · split <;> rfl
  · dsimp only
    split <;> rfl
  · dsimp only
    rw [← State.page]
    split <;> rfl

/-- The slot `n` closed: its ring line given up and its pages freed. -/
def State.slotClosed (s : State) (n : Nat) : State :=
  ((s.dropLine n).freePages n).modStream n fun y => { y with st := .closed }

theorem State.slotClosed_stream_self (s : State) (n : Nat) : (s.slotClosed n).stream n = { s.stream n with st := .closed } := by
  have hstreams : ((s.dropLine n).freePages n).streams = s.streams := rfl
  rw [State.slotClosed, State.modStream_stream_self, State.stream_congr hstreams]

theorem State.slotClosed_page (s : State) (n g : Nat) :
    (s.slotClosed n).page g = if (s.page g).st ≠ .free ∧ (s.page g).owner = n then {} else s.page g := by
  have hfreed : (s.slotClosed n).page g = ((s.dropLine n).freePages n).page g := rfl
  have hpage : (s.dropLine n).page g = s.page g := rfl
  rw [hfreed, State.freePages_page, hpage]

/-- A slot closed changes streams, pages, partitions' moves and ring lines alone. -/
theorem State.slotClosed_frame (s : State) (n : Nat) : s.slotClosed n = { s with
    link := (s.slotClosed n).link, streams := (s.slotClosed n).streams, pages := (s.slotClosed n).pages
    parts := (s.slotClosed n).parts } := rfl

theorem State.slotClosed_rest (s : State) (n : Nat) : (s.slotClosed n).job = s.job ∧ (s.slotClosed n).preparing = s.preparing ∧
    (s.slotClosed n).eventCount = s.eventCount := by
  rw [State.slotClosed_frame]
  exact ⟨rfl, rfl, rfl⟩

theorem State.slotClosed_lines (s : State) (n : Nat) : (s.slotClosed n).link.lines.contains n = false := by
  have hlines : (s.slotClosed n).link.lines = s.link.lines.filter (· ≠ n) := rfl
  rw [hlines, List.contains_eq_mem, decide_eq_false]
  simp

theorem drainComplete_closes {s : State} {n p : Nat} (hp : s.partOfSlot n = some p) (hst : (s.stream n).st = .draining)
    (hadm : s.isAdmitted n = false) (hparking : (s.stream n).parking = false) (hwork : s.pagesAtWork n = false)
    (hwritten : (s.stream n).closedWritten = true) (hheld : (s.stream n).heldCmd = none) (hjob : s.job.formed = false)
    (hprep : s.preparing = none)
    (hout : ((s.part p).completions ++ (s.part p).holdArea).all (fun c => decide (c.stream ≠ n)) = true) :
    ∃ s', exec (.drainComplete n) s = .next s' ∧ (s'.stream n).st = .closed ∧ s'.link.lines.contains n = false ∧
      (∀ g, (s.page g).owner = n → (s'.page g).st = .free) ∧ (∀ g, (s.page g).owner ≠ n → s'.page g = s.page g) ∧
      s.eventCount < s'.eventCount := by
  have hdone : s.drainDone n = (((s.closedEvent n (s.stream n)).slotClosed n).castStream n).actStreamHeld n := by
    unfold State.drainDone
    simp only [hst, hp, hadm, hparking, hwork, hwritten, hout, Bool.not_false, true_or, and_self, if_true]
    rfl
  have hevent := s.closedEvent_eventOnly n (s.stream n)
  have hcount := s.closedEvent_eventCount_lt n (s.stream n)
  generalize s.closedEvent n (s.stream n) = v at hdone hevent hcount
  have hstream : v.stream n = s.stream n := State.stream_congr (by rw [hevent]) n
  have hpage (g : Nat) : v.page g = s.page g := by rw [hevent]; rfl
  obtain ⟨hjobs, hpreps, hcounts⟩ := v.slotClosed_rest n
  have hexec : exec (.drainComplete n) s = .next (v.slotClosed n) := by
    rw [exec_drainComplete, execDrainComplete, hdone, State.atRest (by rw [hjobs, hevent.job, hjob])
      (by rw [State.slotClosed_stream_self, hstream, hheld]) (by rw [hpreps, hevent, hprep])]
  refine ⟨_, hexec, by rw [State.slotClosed_stream_self], v.slotClosed_lines n, fun g hg => ?_, fun g hg => ?_, ?_⟩
  · rw [State.slotClosed_page, hpage]
    split
    · rfl
    · next h => exact not_not.mp fun hfree => h ⟨hfree, hg⟩
  · rw [State.slotClosed_page, hpage, if_neg fun h => hg h.2]
  · rw [hcounts]
    exact hcount

/-! STREAM_COMMAND_APPLY (R282, R394) -/

/-- The only stream command that waits in partition `p` taken up in its gap. -/
def State.streamCmdTaken (s : State) (p : Nat) : State :=
  s.modPart p fun q => { q with streamCmds := [], streamActed := q.streamActed + 1 }

theorem State.streamCmdTaken_sameSeats (s : State) (p : Nat) : SameSeats s (s.streamCmdTaken p) :=
  s.modPart_sameSeats p fun _ => rfl

theorem State.streamCmdTaken_part (s : State) (p : Nat) : (s.streamCmdTaken p).part p =
    { s.part p with streamCmds := [], streamActed := (s.part p).streamActed + 1 } := State.modPart_part_self _ _ _

theorem State.streamCmdTaken_parkForbidden (s : State) (p n : Nat) : (s.streamCmdTaken p).parkForbidden n = s.parkForbidden n := by
  rw [State.parkForbidden, (s.streamCmdTaken_sameSeats p).isAdmitted]
  rfl

section
variable {s : State} {p o : Nat} (hgap : (s.part p).gap = true) (hjob : s.job.formed = false) (hpages : (s.part p).pageCmds = [])
include hgap hjob hpages

/-- The only stream command that waits acts in the gap; with no job no descriptor is sent. -/
theorem streamCommandApply_acts {c : StreamCmd} (hcmds : (s.part p).streamCmds = [(o, c)])
    (hkeeps : StreamsOnly (s.streamCmdTaken p) ((s.streamCmdTaken p).applyStreamCmd o c)) :
    exec (.streamCommandApply p) s = .next ((s.streamCmdTaken p).applyStreamCmd o c) := by
  have hnext : s.streamsNext p = [(o, c)] := by
    simp [State.streamsNext, State.streamRoom, hjob, hcmds, hpages]
  have htaken : (s.modPart p fun q => { q with
      streamCmds := q.streamCmds.drop [(o, c)].length, streamActed := q.streamActed + [(o, c)].length }) = s.streamCmdTaken p :=
    s.modPart_congr p (by simp [hcmds])
  rw [exec_streamCommandApply, execStreamCommandApply]
  simp only [hgap, if_true, hnext]
  rw [htaken]
  simp only [each, List.foldl_cons, List.foldl_nil]
  rw [State.castStream_of_noJob (by rw [hkeeps.job]; exact hjob)]

theorem streamCommandApply_opens {n : Nat} (hp : s.partOfSlot n = some p) {d : List Byte}
    (hcmds : (s.part p).streamCmds = [(o, .open_ n d)]) (hst : (s.stream n).st = .closed) :
    ∃ s', exec (.streamCommandApply p) s = .next s' ∧ (s'.part p).streamCmds = [] ∧ (s'.stream n).st = .open_ ∧
      (s'.stream n).part = p ∧ (s'.stream n).tokenPos = 0 := by
  have hact : (s.streamCmdTaken p).applyStreamCmd o (.open_ n d) = (s.streamCmdTaken p).openSlot n d :=
    State.applyStreamCmd_open (s := s.streamCmdTaken p) hst o d
  have hstream : ((s.streamCmdTaken p).openSlot n d).stream n = openStream p d := by
    rw [State.openSlot_stream_self, (s.streamCmdTaken_sameSeats p).partOfSlot, hp]
    rfl
  have hexec := streamCommandApply_acts hgap hjob hpages hcmds (by rw [hact]; exact State.openSlot_streamsOnly _ _ _)
  rw [hact] at hexec
  refine ⟨_, hexec, ?_, by rw [hstream]; rfl, by rw [hstream]; rfl, by rw [hstream]; rfl⟩
  rw [State.part, State.openSlot_parts, ← State.part, State.streamCmdTaken_part]

theorem streamCommandApply_drains {n : Nat} (hp : s.partOfSlot n = some p) (hcmds : (s.part p).streamCmds = [(o, .close n)])
    (hst : isOpen (s.stream n).st = true) (hadm : s.isAdmitted n = false) (hwritten : (s.stream n).closedWritten = false)
    (hdrafter : (s.stream n).drafter = false) :
    ∃ s' c, exec (.streamCommandApply p) s = .next s' ∧ (s'.part p).streamCmds = [] ∧ (s'.stream n).st = .draining ∧
      (s'.stream n).drainCause = 3 ∧ (s'.part p).completions = (s.part p).completions ++ [c] ∧ c.stream = n ∧ c.kind = 3 ∧
      c.cause = 3 := by
  have hact : (s.streamCmdTaken p).applyStreamCmd o (.close n) =
      ((s.streamCmdTaken p).modStream n fun x => { x with st := .draining, drainCause := 3 }).closeOut n false :=
    State.applyStreamCmd_close (s := s.streamCmdTaken p) hst o
  generalize hu : ((s.streamCmdTaken p).modStream n fun x => { x with st := .draining, drainCause := 3 }) = u at hact
  have hstream : u.stream n = { s.stream n with st := .draining, drainCause := 3 } := by
    rw [← hu, State.modStream_stream_self]
    rfl
  have hseats : SameSeats s u := fun j => by
    rw [← hu]
    exact s.streamCmdTaken_sameSeats p j
  have hroot : u.streamRoot = true := by
    rw [← hu]
    simp [State.streamRoot, State.streamCmdTaken, hjob]
  have hpart : u.part p = (s.streamCmdTaken p).part p := by rw [← hu, State.modStream_part]
  have hclosed := State.closeOut_part (s := u) (n := n) (p := p) (by rw [hstream]) (by rw [hstream, hwritten])
    (by rw [hseats.isAdmitted, hadm]) (by rw [hseats.partOfSlot, hp]) (by rw [hstream, hdrafter]) hroot false
  obtain ⟨b, hafter⟩ := u.closeOut_stream_self n false
  have hexec := streamCommandApply_acts hgap hjob hpages hcmds
    (by rw [hact]; exact (StreamsOnly.trans (by rw [← hu]; exact State.modStream_streamsOnly _ _ _) (u.closeOut_streamsOnly n false)))
  rw [hact] at hexec
  refine ⟨_, u.closedRecord n p, hexec, ?_, ?_, ?_, ?_, rfl, rfl, ?_⟩
  · rw [hclosed, hpart, State.streamCmdTaken_part]
  · rw [hafter, hstream]
  · rw [hafter, hstream]
  · rw [hclosed, hpart, State.streamCmdTaken_part]
  · rw [State.closedRecord, hstream]

theorem streamCommandApply_parks {n : Nat} (hp : s.partOfSlot n = some p) {target m : Nat}
    (hcmds : (s.part p).streamCmds = [(o, .park n target m)]) (hst : isOpen (s.stream n).st = true)
    (hfree : s.parkForbidden n = false) :
    ∃ s', exec (.streamCommandApply p) s = .next s' ∧ (s'.part p).streamCmds = [] ∧ (s'.stream n).parking = true ∧
      (s'.stream n).parkTarget = target ∧ (s'.part p).moveQueue = (s.part p).moveQueue ++
        (if target = 0 then ((s.pagesOf n).filter fun g => g.2.st = .hbm).map fun g => (g.1, true, false) else []) := by
  have hact : (s.streamCmdTaken p).applyStreamCmd o (.park n target m) =
      ((s.streamCmdTaken p).startPark n target).modStream n fun x => { x with parkMbx := m } :=
    State.applyStreamCmd_park (s := s.streamCmdTaken p) hst (by rw [State.streamCmdTaken_parkForbidden, hfree]) o target m
  have hstream := (s.streamCmdTaken p).parked_stream_self n target m
  have hpart := State.startPark_part (s := s.streamCmdTaken p) (by rw [(s.streamCmdTaken_sameSeats p).partOfSlot, hp]) target
  have hexec := streamCommandApply_acts hgap hjob hpages hcmds (by rw [hact]; exact State.parked_streamsOnly _ _ _ _)
  rw [hact] at hexec
  refine ⟨_, hexec, ?_, by rw [hstream], by rw [hstream], ?_⟩
  · rw [State.modStream_part, hpart, State.streamCmdTaken_part]
  · rw [State.modStream_part, hpart, State.streamCmdTaken_part]
    rfl

theorem streamCommandApply_resumes {n : Nat} {recs : List ParkRec} (hcmds : (s.part p).streamCmds = [(o, .resume n 0 recs)])
    (hst : (s.stream n).st = .parked) :
    ∃ s', exec (.streamCommandApply p) s = .next s' ∧ (s'.part p).streamCmds = [] ∧ isOpen (s'.stream n).st = true ∧
      s'.pages = s.pages := by
  have hact : (s.streamCmdTaken p).applyStreamCmd o (.resume n 0 recs) = (s.streamCmdTaken p).resume n :=
    State.applyStreamCmd_resume (s := s.streamCmdTaken p) hst o recs
  have hkeeps := (s.streamCmdTaken p).resume_streamsOnly n
  have hexec := streamCommandApply_acts hgap hjob hpages hcmds (by rw [hact]; exact hkeeps)
  rw [hact] at hexec
  refine ⟨_, hexec, ?_, ((s.streamCmdTaken p).resume_stream_self n).1, hkeeps.pages⟩
  rw [State.part, State.resume_parts, ← State.part, State.streamCmdTaken_part]

end

theorem streamCommandsAct : Claims.StreamCommandsAct := by
  refine ⟨fun s n p => drainComplete_closes, fun s n p o hgap hjob hp hpages => ⟨fun d => ?_, ?_, fun target m => ?_, fun recs => ?_⟩⟩
  · exact streamCommandApply_opens hgap hjob hpages hp
  · exact streamCommandApply_drains hgap hjob hpages hp
  · exact streamCommandApply_parks hgap hjob hpages hp
  · exact streamCommandApply_resumes hgap hjob hpages

/-- Settles O39: its two claims, on completion records and on the stream commands of a gap. -/
theorem completionsAndStreamCommands : Obligations.CompletionsAndStreamCommands := ⟨completionWrites, streamCommandsAct⟩

end Sys2Proof.Machine
end

section
/-!
SUPPORT. The mailbox commands on streams and pages (`Obligations.MailboxStreams`).
-/

namespace Sys2Proof.Machine

theorem exec_streamOpen (s : State) (n : Nat) : exec (.streamOpen n) s = execStreamOpen n s := rfl
theorem exec_streamClose (s : State) (n : Nat) : exec (.streamClose n) s = execStreamClose n s := rfl
theorem exec_streamPark (s : State) (n : Nat) : exec (.streamPark n) s = execStreamPark n s := rfl
theorem exec_streamResume (s : State) (n : Nat) (buf : List Byte) : exec (.streamResume n buf) s = execStreamResume n buf s := rfl
theorem exec_tierWindows (s : State) (n : Nat) : exec (.tierWindows n) s = execTierWindows n s := rfl
theorem exec_pageBind (s : State) (n : Nat) : exec (.pageBind n) s = execPageBind n s := rfl
theorem exec_pageFree (s : State) (n : Nat) : exec (.pageFree n) s = execPageFree n s := rfl

/-! What refuses no stream command (R277, R310, R393) -/

theorem State.streamScope_none {s : State} {n : Nat} (hpage : s.pageExists n = true) (hroot : s.streamRoot = true) :
    s.streamScope n = none := by
  rw [State.streamScope, hpage, hroot]
  rfl

theorem State.slotLicence_none {s : State} {n o slot : Nat} (hslot : s.param n o 4 = slot) (husable : s.slotUsable slot = true) :
    s.slotLicence n o = none := by
  rw [State.slotLicence, hslot, husable]
  rfl

/-! A stream command queued (R282, R394) -/

theorem State.slotPart_congr {s t : State} (h : t.parts = s.parts) (slot : Nat) : t.slotPart slot = s.slotPart slot := by
  rw [State.slotPart, (SameSeats.of_parts h).partOfSlot, State.slotPart]

theorem State.part_congr {s t : State} (h : t.parts = s.parts) (p : Nat) : t.part p = s.part p := by
  rw [State.part, h, State.part]

/-- A stream command of a running partition waits for the gap. -/
theorem State.queueStreamCmd_waits {s : State} {c : StreamCmd} (h : running (s.part (s.slotPart c.slot)).st = true) (n : Nat) :
    s.queueStreamCmd n c =
      s.modPart (s.slotPart c.slot) fun q => { q with streamCmds := q.streamCmds ++ [((s.mb n).order, c)] } := by
  unfold State.queueStreamCmd
  simp only [h, Bool.true_or, if_true]

/-- With the partition not running and nothing before it, a stream command acts at once. -/
theorem State.queueStreamCmd_acts {s : State} {c : StreamCmd} (hidle : running (s.part (s.slotPart c.slot)).st = false)
    (hcmds : (s.part (s.slotPart c.slot)).streamCmds = []) (hpages : (s.part (s.slotPart c.slot)).pageCmds = []) (n : Nat) :
    s.queueStreamCmd n c = (s.applyStreamCmd (s.mb n).order c).castStream c.slot := by
  unfold State.queueStreamCmd
  simp only [hidle, hcmds, hpages, List.isEmpty_nil, Bool.not_true, List.any_nil, Bool.or_self, Bool.false_eq_true, if_false]

/-- A stream command of page `n` that acts at once, to `v`, completes; the streams are those of `v`. -/
theorem State.queued_acts {s u v : State} {n : Nat} {c : StreamCmd} (haside : Aside (s.taken n) u) (hparts : u.parts = s.parts)
    (hidle : running (s.part (s.slotPart c.slot)).st = false) (hcmds : (s.part (s.slotPart c.slot)).streamCmds = [])
    (hpages : (s.part (s.slotPart c.slot)).pageCmds = []) (hact : ∀ o, u.applyStreamCmd o c = v) (hkeeps : StreamsOnly u v)
    (hd : (s.mb n).done = false) : s.answered ((u.queueStreamCmd n c).okWith n []) n 0 [] ∧
      ∀ k, ((u.queueStreamCmd n c).okWith n []).stream k = v.stream k := by
  rw [← State.slotPart_congr hparts, ← State.part_congr hparts] at hidle hcmds hpages
  have hsends := v.castStream_sendsOnly c.slot
  rw [State.queueStreamCmd_acts hidle hcmds hpages, hact]
  exact ⟨State.acted_answered ((haside.trans hkeeps.aside).trans hsends.aside) hd [],
    fun k => by rw [State.okWith_stream, hsends.stream]⟩

/-- A state of removal given up leaves streams and partitions. -/
theorem State.cancelRemove_leaves (s : State) (op : Nat) : Aside s (s.cancelRemove op) ∧ (s.cancelRemove op).parts = s.parts ∧
    (s.cancelRemove op).streams = s.streams := by
  obtain ⟨r, p, h⟩ := s.cancelRemove_frame op
  rw [h]
  exact ⟨⟨rfl, rfl, rfl⟩, rfl, rfl⟩

/-! STREAM_OPEN (R281, R404, R405, R431) -/

theorem openStream_cookie (p : Nat) (d : List Byte) :
    (openStream p d).cookie = BitVec.ofNat 64 (leNat ((d.drop 80).take 8)) := rfl

theorem State.openBlock_cookie (s : State) (n : Nat) : leNat (((s.paramBytes n 8 128).drop 80).take 8) = s.param n 88 8 := by
  rw [State.paramBytes, memBytes_drop_take _ (by decide), State.param]

theorem State.taken_paramBytes (s : State) (n o k : Nat) : (s.taken n).paramBytes n o k = s.paramBytes n o k := by
  simp [State.paramBytes]

theorem State.openChecks_pass {s : State} {n slot : Nat} (hpage : s.pageExists n = true) (hroot : s.streamRoot = true)
    (husable : s.slotUsable slot = true) (hslot : s.param n 0 4 = slot) (hasks : s.asks n 0x0301 136) (hfield : s.badField n (s.badOpen n) openReserved = none)
    (hheld : (s.stream slot).enableHeld = false)
    (hdraft : s.param n 86 2 = 0xFFFF ∨ s.slotUsable (s.param n 86 2) = true)
    (hst : ((s.stream slot).st = .closed || (s.stream slot).st = .draining) = true) : (s.openChecks n).findSome? id = none := by
  have hlicence : (if s.param n 86 2 = 0xFFFF then none else noIf (!(s.slotUsable (s.param n 86 2))) stLicence) = none := by
    obtain h | h := hdraft
    · rw [if_pos h]
    · rw [h]
      split <;> rfl
  rw [State.openChecks, hslot, hasks.badLength (by decide), hfield, State.streamScope_none hpage hroot,
    State.slotLicence_none hslot husable, hlicence, hheld, hst]
  rfl

section
variable {s : State} {n slot : Nat} (hslot : s.param n 0 4 = slot)
include hslot

theorem streamOpen_opens (hprep : s.preparing = none) (hasks : s.asks n 0x0301 136) (hchecks : (s.openChecks n).findSome? id = none)
    (hcmds : (s.part (s.slotPart slot)).streamCmds = []) (hpages : (s.part (s.slotPart slot)).pageCmds = [])
    (hst : (s.stream slot).st = .closed) (hidle : running (s.part (s.slotPart slot)).st = false) :
    ∃ s', exec (.streamOpen n) s = .next s' ∧ s.answered s' n 0 [] ∧ (s'.stream slot).st = .open_ ∧
      (s'.stream slot).tokenPos = 0 ∧ (s'.stream slot).cookie = BitVec.ofNat 64 (s.param n 88 8) ∧
      (∀ k, k ≠ slot → s'.stream k = s.stream k) := by
  obtain ⟨hrun, hd, -⟩ := hasks
  obtain ⟨haside, hparts, hstreams⟩ := (s.taken n).cancelRemove_leaves 0x0301
  have hexec : exec (.streamOpen n) s = .next ((((s.taken n).cancelRemove 0x0301).queueStreamCmd n
      (.open_ slot (s.paramBytes n 8 128))).okWith n []) := by
    have hnotDraining : ((s.taken n).stream slot).st ≠ .draining := fun h => by
      rw [show (s.taken n).stream slot = s.stream slot from rfl, hst] at h
      cases h
    have hprepares : (s.taken n).preparing = none := hprep
    rw [exec_streamOpen, execStreamOpen, hslot, State.command_acts hrun hchecks]
    simp only [hnotDraining, hprepares, decide_false, Option.isSome_none, Bool.or_self, Bool.false_eq_true, if_false,
      State.taken_paramBytes]
  generalize (s.taken n).cancelRemove 0x0301 = u at haside hparts hstreams hexec
  have hstream (k : Nat) : u.stream k = s.stream k := State.stream_congr hstreams k
  obtain ⟨hanswer, hafter⟩ := State.queued_acts (v := u.openSlot slot (s.paramBytes n 8 128))
    (c := .open_ slot (s.paramBytes n 8 128)) haside hparts hidle hcmds hpages
    (fun o => State.applyStreamCmd_open (by rw [hstream, hst]) o _) (u.openSlot_streamsOnly _ _) hd
  refine ⟨_, hexec, hanswer, ?_, ?_, ?_, fun k hk => ?_⟩
  · rw [hafter, State.openSlot_stream_self]
    rfl
  · rw [hafter, State.openSlot_stream_self]
    rfl
  · rw [hafter, State.openSlot_stream_self, openStream_cookie, State.openBlock_cookie]
  · rw [hafter, State.openSlot_stream_ne _ _ hk, hstream]

/-- An enable of a slot that drains is held. -/
theorem streamOpen_held (hasks : s.asks n 0x0301 136) (hchecks : (s.openChecks n).findSome? id = none)
    (hst : (s.stream slot).st = .draining) : ∃ s', exec (.streamOpen n) s = .next s' ∧ s'.waits n ∧
      (s'.stream slot).enableHeld = true ∧ (s'.stream slot).st = .draining := by
  obtain ⟨hrun, hd, -⟩ := hasks
  have hdraining : ((s.taken n).stream slot).st = .draining := hst
  have hexec : exec (.streamOpen n) s =
      .next ((s.taken n).holdStream n slot (.open_ slot ((s.taken n).paramBytes n 8 128))) := by
    rw [exec_streamOpen, execStreamOpen, hslot, State.command_acts hrun hchecks]
    simp only [hdraining, decide_true, Bool.true_or, if_true]
  refine ⟨_, hexec, State.waits_of_aside (State.modStream_streamsOnly _ _ _).aside hd, ?_, ?_⟩
  · rw [State.holdStream, State.modStream_stream_self]
  · rw [State.holdStream, State.modStream_stream_self]
    exact hst

end

/-! STREAM_CLOSE (R281, R405) -/

theorem State.cancelHeld_of_none {s : State} {slot : Nat} (h : (s.stream slot).heldMbx = none) : s.cancelHeld slot =
    s.modStream slot fun x => { x with enableHeld := false, heldCmd := none, heldMbx := none } := by
  unfold State.cancelHeld
  simp only [h]

section
variable {s : State} {n slot : Nat} (hpage : s.pageExists n = true) (hroot : s.streamRoot = true)
  (husable : s.slotUsable slot = true) (hslot : s.param n 0 4 = slot)
include hpage hroot husable hslot

section
variable (hasks : s.asks n 0x0302 4) (hfield : s.badField n [s.badSlotAt n 0] [] = none) (hheld : (s.stream slot).heldMbx = none)
include hasks hfield hheld

/-- A STREAM_CLOSE of a slot with no enable held is queued. -/
theorem streamClose_queues : ∃ u : State, exec (.streamClose n) s = .next ((u.queueStreamCmd n (.close slot)).okWith n []) ∧
    Aside (s.taken n) u ∧ u.parts = s.parts ∧
    u.stream slot = { s.stream slot with enableHeld := false, heldCmd := none, heldMbx := none } := by
  have hlen := hasks.badLength (by decide) false
  obtain ⟨hrun, -⟩ := hasks
  refine ⟨(s.taken n).cancelHeld slot, ?_, ?_, ?_, ?_⟩
  · rw [exec_streamClose, execStreamClose, hslot, State.command_acts hrun]
    rw [hlen, hfield, State.streamScope_none hpage hroot, State.slotLicence_none hslot husable]
    rfl
  · rw [State.cancelHeld_of_none (s := s.taken n) hheld]
    exact (State.modStream_streamsOnly _ _ _).aside
  · rw [State.cancelHeld_of_none (s := s.taken n) hheld]
    rfl
  · rw [State.cancelHeld_of_none (s := s.taken n) hheld, State.modStream_stream_self]
    rfl

theorem streamClose_waits (hrunning : running (s.part (s.slotPart slot)).st = true) :
    ∃ s', exec (.streamClose n) s = .next s' ∧ s.answered s' n 0 [] ∧
      (s'.part (s.slotPart slot)).streamCmds = (s.part (s.slotPart slot)).streamCmds ++ [((s.mb n).order, .close slot)] ∧
      (s'.stream slot).st = (s.stream slot).st := by
  obtain ⟨u, hexec, haside, hparts, hstream⟩ := streamClose_queues hpage hroot husable hslot hasks hfield hheld
  obtain ⟨-, hd, -⟩ := hasks
  have hpart := State.part_congr hparts (s.slotPart slot)
  have horder : (u.mb n).order = (s.mb n).order := by rw [State.taken_aside_mb haside]
  have hqueued := State.queueStreamCmd_waits (s := u) (c := .close slot)
    (by rw [State.slotPart_congr hparts]; exact hpart.symm ▸ hrunning) n
  rw [State.slotPart_congr hparts, horder] at hqueued
  refine ⟨_, hexec, ?_, ?_, ?_⟩
  · rw [hqueued]
    exact State.acted_answered (haside.trans (State.modPart_streamsOnly _ _ _).aside) hd []
  · rw [State.okWith_part, hqueued]
    refine (congrArg Partition.streamCmds (State.modPart_part_self _ _ _)).trans ?_
    rw [← hpart]
    rfl
  · rw [State.okWith_stream, hqueued, State.modPart_stream, hstream]

theorem streamClose_drains (hst : isOpen (s.stream slot).st = true) (hidle : running (s.part (s.slotPart slot)).st = false)
    (hcmds : (s.part (s.slotPart slot)).streamCmds = []) (hpages : (s.part (s.slotPart slot)).pageCmds = []) :
    ∃ s', exec (.streamClose n) s = .next s' ∧ s.answered s' n 0 [] ∧ (s'.stream slot).st = .draining ∧
      (s'.stream slot).drainCause = 3 := by
  obtain ⟨u, hexec, haside, hparts, hstream⟩ := streamClose_queues hpage hroot husable hslot hasks hfield hheld
  obtain ⟨-, hd, -⟩ := hasks
  obtain ⟨hanswer, hafter⟩ := State.queued_acts (c := .close slot) haside hparts hidle hcmds hpages
    (State.applyStreamCmd_close (by rw [hstream]; exact hst))
    ((State.modStream_streamsOnly _ _ _).trans (State.closeOut_streamsOnly _ _ _)) hd
  obtain ⟨b, hclosed⟩ := State.closeOut_stream_self (u.modStream slot fun x => { x with st := .draining, drainCause := 3 }) slot false
  rw [State.modStream_stream_self] at hclosed
  refine ⟨_, hexec, hanswer, ?_, ?_⟩
  · rw [hafter, hclosed]
  · rw [hafter, hclosed]

end

section
variable (hidle : running (s.part (s.slotPart slot)).st = false)
  (hcmds : (s.part (s.slotPart slot)).streamCmds = []) (hpages : (s.part (s.slotPart slot)).pageCmds = [])
include hidle hcmds hpages

/-! STREAM_PARK (R274, R405) -/

theorem streamPark_parks (hasks : s.asks n 0x0303 5) (htarget : s.param n 4 1 = 0)
    (hfield : s.badField n [s.badSlotAt n 0, (4, false)] [] = none) (hst : isOpen (s.stream slot).st = true)
    (hlicence : s.licensed 2 = true) (hparking : (s.stream slot).parking = false) (hfree : s.parkForbidden slot = false) :
    ∃ s', exec (.streamPark n) s = .next s' ∧ s.answered s' n 0 [] ∧ (s'.stream slot).parking = true ∧
      (s'.stream slot).parkTarget = 0 ∧ (s'.stream slot).st = (s.stream slot).st := by
  have hlen := hasks.badLength (by decide) false
  obtain ⟨hrun, hd, -⟩ := hasks
  have hexec : exec (.streamPark n) s = .next (((s.taken n).queueStreamCmd n (.park slot 0 n)).okWith n []) := by
    rw [exec_streamPark, execStreamPark, hslot, htarget]
    rw [State.command_acts hrun]
    have hlen' : s.badLength n 5 (decide (0 ≠ 0)) = none := hlen
    have hfield' : s.badField n [s.badSlotAt n 0, (4, decide (0 > 1))] [] = none := hfield
    rw [hlen', hfield', State.streamScope_none hpage hroot, State.slotLicence_none hslot husable, hst, hlicence, hparking, hfree]
    rfl
  obtain ⟨hanswer, hafter⟩ := State.queued_acts (c := .park slot 0 n) (.refl (s.taken n)) rfl hidle hcmds hpages
    (fun o => State.applyStreamCmd_park (s := s.taken n) hst hfree o 0 n) (State.parked_streamsOnly _ _ _ _) hd
  refine ⟨_, hexec, hanswer, ?_, ?_, ?_⟩
  · rw [hafter, State.parked_stream_self]
  · rw [hafter, State.parked_stream_self]
  · rw [hafter, State.parked_stream_self]
    rfl

/-! STREAM_RESUME (R275, R405) -/

theorem streamResume_opens (hprep : s.preparing = none) (buf : List Byte) (hasks : s.asks n 0x0304 12) (hsource : s.param n 4 1 = 0)
    (hfield : s.badField n [s.badSlotAt n 0, (4, false)] (span 5 8) = none) (hst : (s.stream slot).st = .parked)
    (hparking : (s.stream slot).parking = false) (hheld : (s.stream slot).enableHeld = false) :
    ∃ s', exec (.streamResume n buf) s = .next s' ∧ s.answered s' n 0 [] ∧ isOpen (s'.stream slot).st = true ∧
      (s'.stream slot).tokenPos = (s.stream slot).tokenPos := by
  have hlen := hasks.badLength (by decide) false
  obtain ⟨hrun, hd, -⟩ := hasks
  obtain ⟨haside, hparts, hstreams⟩ := (s.taken n).cancelRemove_leaves 0x0304
  have hexec : exec (.streamResume n buf) s =
      .next ((((s.taken n).cancelRemove 0x0304).queueStreamCmd n (.resume slot 0 [])).okWith n []) := by
    have hprepares : (s.taken n).preparing = none := hprep
    rw [exec_streamResume, execStreamResume, hslot, hsource]
    dsimp only
    rw [State.command_acts hrun]
    · simp only [hparking, hprepares, Option.isSome_none, Bool.or_self, Bool.false_eq_true, if_false, Nat.zero_ne_one]
    · have hlen' : s.badLength n 12 (decide (0 ≠ 0)) = none := hlen
      have hfield' : s.badField n [s.badSlotAt n 0, (4, decide (0 > 1))] (span 5 8) = none := hfield
      rw [hlen', hfield', State.streamScope_none hpage hroot, State.slotLicence_none hslot husable, hst, hheld]
      rfl
  generalize (s.taken n).cancelRemove 0x0304 = u at haside hparts hstreams hexec
  have hstream : u.stream slot = s.stream slot := State.stream_congr hstreams slot
  obtain ⟨hanswer, hafter⟩ := State.queued_acts (c := .resume slot 0 []) haside hparts hidle hcmds hpages
    (fun o => State.applyStreamCmd_resume (by rw [hstream, hst]) o []) (u.resume_streamsOnly slot) hd
  obtain ⟨hopen, hpos⟩ := u.resume_stream_self slot
  refine ⟨_, hexec, hanswer, ?_, ?_⟩
  · rw [hafter]
    exact hopen
  · rw [hafter, hpos, hstream]

end
end

/-! TIER_WINDOWS (R260, R406) -/

theorem tierWindows_takes {s : State} (hasks : s.asks 0 0x0401 (8 + 16 * s.param 0 0 1))
    (hfield : s.badField 0 (s.badWindows 0) (span 1 8) = none) (hcount : s.param 0 0 1 ≤ 8) (huio : s.link.uioEnable = true)
    (hunused : ∀ q ∈ s.parts, q.2.st = .none ∨ q.2.cxlCount = 0) (hlicence : s.licensed 2 = true) :
    ∃ s', exec (.tierWindows 0) s = .next s' ∧ s.answered s' 0 0 [] ∧ s'.windows = s.windowsOf 0 ∧
      s'.windows.length = s.param 0 0 1 := by
  have hlen := hasks.badLength (by omega) false
  obtain ⟨hrun, hd, -⟩ := hasks
  have hall : (s.parts.all fun q => q.2.st = .none || decide (q.2.cxlCount = 0)) = true :=
    List.all_eq_true.mpr fun q hq => by simpa using hunused q hq
  have hat : (s.taken 0).windowAt 0 = s.windowAt 0 := funext fun w => by
    rw [State.windowAt, State.taken_param, State.taken_param, State.windowAt]
  have hwindows : (s.taken 0).windowsOf 0 = s.windowsOf 0 := by rw [State.windowsOf, State.taken_param, hat, State.windowsOf]
  rw [exec_tierWindows, execTierWindows, State.command_acts hrun]
  · refine ⟨_, rfl, State.acted_answered (by exact ⟨rfl, rfl, rfl⟩) hd [], ?_, ?_⟩
    · rw [(State.okWith_store _ _ _).2.2]
      exact hwindows
    · rw [(State.okWith_store _ _ _).2.2]
      exact (congrArg List.length hwindows).trans (by rw [State.windowsOf, List.length_map, List.length_range])
  · rw [hlen, hfield, deviceScope_zero, huio, hall, hlicence]
    rfl

/-! PAGE_BIND and PAGE_FREE (R264, R406) -/

/-- A page's part in its stream's park leaves pages, and what is beside the streams. -/
theorem State.parkPage_streamsOnly (s : State) (p g : Nat) : StreamsOnly s (s.parkPage p g) := by
  unfold State.parkPage
  exact .ite (State.modPart_streamsOnly _ _ _) (.refl s)

/-- A free page of a stream's range bound in HBM, where a frame is free. -/
theorem State.applyPageCmd_bind {s : State} {p g f owner : Nat} (hst : isOpen (s.stream owner).st = true)
    (hlow : (s.stream owner).pageBase ≤ g) (hhigh : g < (s.stream owner).pageBase + (s.stream owner).pageCount)
    (hfree : (s.page g).st = .free) (hframe : s.pickHbm p = some f) (n : Nat) : s.applyPageCmd p (.bind n g 1 owner) =
      (((s.used 1).modPage g fun _ => { st := .hbm, tier := 0, frame := f, owner := owner }).parkPage p g).okWith n [] := by
  have hrange : pageRange g 1 = [g] := rfl
  have hopen : ¬((s.stream owner).st = .closed ∨ (s.stream owner).st = .draining) := by
    rintro (h | h) <;> rw [h] at hst <;> cases hst
  have hgood : ([g].any fun g => decide (g < (s.stream owner).pageBase) ||
      decide (g ≥ (s.stream owner).pageBase + (s.stream owner).pageCount) || (s.page g).st ≠ .free) = false := by
    simp only [List.any_cons, List.any_nil, Bool.or_false, hfree, Bool.or_eq_false_iff, decide_eq_false_iff_not]
    exact ⟨⟨by omega, by omega⟩, fun h => h rfl⟩
  unfold State.applyPageCmd
  simp only [hopen, hrange, hgood, if_false, Bool.false_eq_true, State.bindAll, State.bindPage, hframe]

theorem State.pageBehind_bind {s : State} {p : Nat} (hroot : s.streamRoot = true) (hcmds : (s.part p).streamCmds = [])
    (n f k owner : Nat) : s.pageBehind p (.bind n f k owner) = false := by
  simp [State.pageBehind, State.pageCmdWaits, State.awaitsOwner, hroot, hcmds]

theorem pageBind_binds {s : State} {n slot g f : Nat} (hpage : s.pageExists n = true) (hroot : s.streamRoot = true)
    (husable : s.slotUsable slot = true) (hasks : s.asks n 0x0402 12)
    (hfield : s.badField n (s.badPages n 4096 ++ [s.badSlotAt n 8]) [] = none) (hslot : s.param n 8 4 = slot)
    (hg : s.param n 0 4 = g) (hone : s.param n 4 4 = 1) (hbusy : s.pagesBusy n = none) (hst : isOpen (s.stream slot).st = true)
    (hlow : (s.stream slot).pageBase ≤ g) (hhigh : g < (s.stream slot).pageBase + (s.stream slot).pageCount)
    (hfree : (s.page g).st = .free) (hidle : running (s.part (s.slotPart slot)).st = false)
    (hcmds : (s.part (s.slotPart slot)).streamCmds = []) (hframe : s.pickHbm (s.slotPart slot) = some f) :
    ∃ s', exec (.pageBind n) s = .next s' ∧ s.answered s' n 0 [] ∧ (s'.page g).st = .hbm ∧ (s'.page g).frame = f ∧
      (s'.page g).owner = slot ∧ (s'.page g).cfill = 0 ∧ (∀ k, k ≠ g → s'.page k = s.page k) := by
  have hlen := hasks.badLength (by decide) false
  obtain ⟨hrun, hd, -⟩ := hasks
  have hbind := State.applyPageCmd_bind (s := s.taken n) (p := s.slotPart slot) hst hlow hhigh hfree hframe n
  generalize hu : (((s.taken n).used 1).modPage g fun _ => { st := .hbm, tier := 0, frame := f, owner := slot }) = u at hbind
  have hexec : exec (.pageBind n) s = .next ((u.parkPage (s.slotPart slot) g).okWith n []) := by
    rw [exec_pageBind, execPageBind, hslot, State.command_acts hrun]
    · have hnow : (running ((s.taken n).part (s.slotPart slot)).st || (s.taken n).pageBehind (s.slotPart slot) (.bind n g 1 slot))
          = false := by
        rw [State.pageBehind_bind (s := s.taken n) hroot hcmds, State.taken_part, hidle]
        rfl
      have hpart : (s.taken n).slotPart slot = s.slotPart slot := rfl
      rw [State.taken_param, State.taken_param, hg, hone, State.queuePageCmd, hpart, hnow, if_neg Bool.false_ne_true, hbind]
    · rw [hlen, hfield, hpage, State.slotLicence_none hslot husable, hbusy]
      rfl
  have hparks := u.parkPage_streamsOnly (s.slotPart slot) g
  have hpages (k : Nat) : ((u.parkPage (s.slotPart slot) g).okWith n []).page k = u.page k := by
    rw [State.okWith_page, State.page, hparks.pages, State.page]
  have haside : Aside (s.taken n) u := by
    rw [← hu]
    exact ⟨rfl, rfl, rfl⟩
  have hself : u.page g = { st := .hbm, tier := 0, frame := f, owner := slot } := by
    rw [← hu]
    exact tget_tset_self _ _ _ _
  refine ⟨_, hexec, State.acted_answered (haside.trans hparks.aside) hd [], ?_, ?_, ?_, ?_, fun k hk => ?_⟩
  · rw [hpages, hself]
  · rw [hpages, hself]
  · rw [hpages, hself]
  · rw [hpages, hself]
  · rw [hpages, ← hu]
    exact tget_tset_ne _ _ _ hk

/-- A PAGE_FREE of pages that are free completes with nothing to do. -/
theorem pageFree_completes {s : State} {n : Nat} (hpage : s.pageExists n = true) (hasks : s.asks n 0x0403 8)
    (hfield : s.badField n (s.badPages n 4096) [] = none) (hunowned : s.pageOwners (s.param n 0 4) (s.param n 4 4) = [])
    (hbusy : s.pagesBusy n = none) :
    ∃ s', exec (.pageFree n) s = .next s' ∧ s.answered s' n 0 [] ∧ s'.pages = s.pages := by
  have hlen := hasks.badLength (by decide) false
  obtain ⟨hrun, hd, -⟩ := hasks
  have hexec : exec (.pageFree n) s = .next ((s.taken n).okWith n []) := by
    rw [exec_pageFree, execPageFree, hunowned]
    dsimp only
    rw [State.command_acts hrun]
    rw [hlen, hfield, hpage, hbusy]
    cases n <;> rfl
  exact ⟨_, hexec, State.acted_answered (.refl _) hd [], (State.okWith_store _ _ _).2.1⟩

/-- Settles O59: each command passes its checks and acts at once, waits for the gap, or is held. -/
theorem mailboxStreams : Obligations.MailboxStreams := by
  intro s n slot hpage hroot husable hprep
  refine ⟨fun hslot => ⟨fun hasks hfield hheld hdraft hcmds hpages => ⟨fun hst hidle => ?_, fun hst => ?_⟩,
      fun hasks hfield hheld hst => ⟨?_, fun hidle hcmds hpages => ?_⟩, ?_, ?_⟩, tierWindows_takes, fun g f => ?_, ?_⟩
  · have hchecks := State.openChecks_pass hpage hroot husable hslot hasks hfield hheld hdraft (by rw [hst]; rfl)
    exact streamOpen_opens hslot hprep hasks hchecks hcmds hpages hst hidle
  · have hchecks := State.openChecks_pass hpage hroot husable hslot hasks hfield hheld hdraft (by rw [hst]; rfl)
    exact streamOpen_held hslot hasks hchecks hst
  · exact streamClose_waits hpage hroot husable hslot hasks hfield hheld
  · exact streamClose_drains hpage hroot husable hslot hasks hfield hheld hst hidle hcmds hpages
  · intro hasks htarget hfield hst hlicence hparking hfree hidle hcmds hpages
    exact streamPark_parks hpage hroot husable hslot hidle hcmds hpages hasks htarget hfield hst hlicence hparking hfree
  · intro recs hasks hsource hfield hst hparking hheld hidle hcmds hpages
    exact streamResume_opens hpage hroot husable hslot hidle hcmds hpages hprep recs hasks hsource hfield hst hparking hheld
  · exact pageBind_binds hpage hroot husable
  · exact pageFree_completes hpage

end Sys2Proof.Machine
end

section
/-!
SUPPORT. A stream that drains with its CLOSED record, and a fault of its submission ring: what both leave of streams, partitions
and events.
-/

namespace Sys2Proof.Machine

/-! A stream drains and is closed out (R281, R306, R309) -/

/-- The stream as it drains: the first cause stands. -/
def Stream.drained (x : Stream) (cause : Nat) : Stream := if isOpen x.st then { x with st := .draining, drainCause := cause } else x

theorem State.drain_eq (s : State) (n cause : Nat) : s.drain n cause = s.modStream n fun x => x.drained cause := rfl

theorem Stream.drained_of_open {x : Stream} (h : isOpen x.st = true) (cause : Nat) :
    x.drained cause = { x with st := .draining, drainCause := cause } := if_pos h

theorem Stream.drained_frame (x : Stream) (cause : Nat) : ∃ st c, x.drained cause = { x with st := st, drainCause := c } := by
  unfold Stream.drained
  split <;> exact ⟨_, _, rfl⟩

theorem State.closeOut_stream_ne (s : State) {n k : Nat} (covered : Bool) (hk : k ≠ n) :
    (s.closeOut n covered).stream k = s.stream k := by
  have hmod : (s.modStream n fun y => { y with closedWritten := true }).stream k = s.stream k := State.modStream_stream_ne _ _ hk
  unfold State.closeOut
  dsimp only
  split
  · split
    · exact hmod
    · split <;> exact hmod
  · rfl

/-- A CLOSED record changes nothing of a partition but the records that wait. -/
theorem State.closeOut_part_frame (s : State) (n : Nat) (covered : Bool) (j : Nat) :
    ∃ u l, (s.closeOut n covered).part j = { s.part j with unreserved := u, completions := l } := by
  unfold State.closeOut
  dsimp only
  split
  · split
    · exact ⟨_, _, rfl⟩
    · next p hp =>
      split
      · exact ⟨_, _, rfl⟩
      · by_cases hj : j = p
        · rw [hj, State.modPart_part_self]
          exact ⟨_, _, rfl⟩
        · rw [State.modPart_part_ne _ _ hj]
          exact ⟨_, _, rfl⟩
  · exact ⟨_, _, rfl⟩

/-- A stream drains, and closes where it is in no admitted tide. -/
def State.drainOut (s : State) (n cause : Nat) : State := (s.drain n cause).closeOut n false

theorem State.drainOut_stream_self (s : State) (n cause : Nat) :
    ∃ b, (s.drainOut n cause).stream n = { (s.stream n).drained cause with closedWritten := b } := by
  obtain ⟨b, h⟩ := (s.drain n cause).closeOut_stream_self n false
  rw [State.drain_eq, State.modStream_stream_self, ← State.drain_eq] at h
  exact ⟨b, h⟩

theorem State.drainOut_stream_ne (s : State) {n k : Nat} (cause : Nat) (hk : k ≠ n) :
    (s.drainOut n cause).stream k = s.stream k :=
  (State.closeOut_stream_ne _ _ hk).trans (State.modStream_stream_ne _ _ hk)

theorem State.drainOut_part (s : State) (n cause j : Nat) :
    ∃ u l, (s.drainOut n cause).part j = { s.part j with unreserved := u, completions := l } :=
  State.closeOut_part_frame _ _ _ _

theorem State.drainOut_streamsOnly (s : State) (n cause : Nat) : StreamsOnly s (s.drainOut n cause) :=
  StreamsOnly.trans (State.modStream_streamsOnly _ _ _) (State.closeOut_streamsOnly _ _ _)

theorem StreamsOnly.eventCount {s t : State} (h : StreamsOnly s t) : t.eventCount = s.eventCount := by rw [h]

/-! STREAM_RING_FAULT (R285, R287, R312) -/

/-- The ring of stream `n` stops with its event. -/
def State.ringStops (s : State) (n cause : Nat) : State :=
  (s.eventOf (s.partOfSlot n) 0x0302 2 streamUnit (n * 2 ^ 49 + cause * 2 ^ 47 + (s.stream n).consumer)).modStream n
    fun y => { y with ringStopped := true }

theorem State.ringFault_eq (s : State) (n cause : Nat) : s.ringFault n cause = (s.ringStops n cause).drainOut n 5 := rfl

theorem State.ringStops_stream_self (s : State) (n cause : Nat) :
    (s.ringStops n cause).stream n = { s.stream n with ringStopped := true } := by
  rw [State.ringStops, State.modStream_stream_self, State.eventOf_eventOnly]
  rfl

theorem State.ringStops_stream_ne (s : State) {n k : Nat} (cause : Nat) (hk : k ≠ n) :
    (s.ringStops n cause).stream k = s.stream k := by
  rw [State.ringStops, State.modStream_stream_ne _ _ hk, State.eventOf_eventOnly]
  rfl

theorem State.ringFault_stream_self (s : State) (n cause : Nat) : ∃ b, (s.ringFault n cause).stream n =
    { ({ s.stream n with ringStopped := true } : Stream).drained 5 with closedWritten := b } := by
  obtain ⟨b, h⟩ := (s.ringStops n cause).drainOut_stream_self n 5
  rw [State.ringStops_stream_self] at h
  exact ⟨b, h⟩

/-- The ring of an open stream stops, and the stream drains with cause 5. -/
theorem State.ringFault_drains {s : State} {n : Nat} (h : isOpen (s.stream n).st = true) (cause : Nat) :
    ∃ b, (s.ringFault n cause).stream n =
      { s.stream n with ringStopped := true, st := .draining, drainCause := 5, closedWritten := b } := by
  obtain ⟨b, hb⟩ := s.ringFault_stream_self n cause
  rw [Stream.drained_of_open (x := { s.stream n with ringStopped := true }) h] at hb
  exact ⟨b, hb⟩

theorem State.ringFault_stream_ne (s : State) {n k : Nat} (cause : Nat) (hk : k ≠ n) :
    (s.ringFault n cause).stream k = s.stream k :=
  (State.drainOut_stream_ne _ _ hk).trans (State.ringStops_stream_ne _ _ hk)

theorem State.ringFault_part (s : State) (n cause j : Nat) :
    ∃ u l, (s.ringFault n cause).part j = { s.part j with unreserved := u, completions := l } := by
  have hpart : (s.ringStops n cause).part j = s.part j := (State.eventOf_eventOnly _ _ _ _ _ _).part j
  rw [← hpart]
  exact State.drainOut_part _ _ _ _

theorem State.ringFault_sameSeats (s : State) (n cause : Nat) : SameSeats s (s.ringFault n cause) := fun j => by
  obtain ⟨u, l, h⟩ := s.ringFault_part n cause j
  rw [h]
  rfl

theorem State.ringFault_eventCount_lt (s : State) (n cause : Nat) : s.eventCount < (s.ringFault n cause).eventCount := by
  rw [State.ringFault_eq, (State.drainOut_streamsOnly _ _ _).eventCount]
  exact State.eventOf_eventCount_lt _ _ _ _ _ (by decide)

end Sys2Proof.Machine
end

section
/-!
SUPPORT. Producer values from doorbells and from the head lines of the rings (`Obligations.DoorbellsAndHeadLines`).
-/

namespace Sys2Proof.Machine

/-! What the commands call -/

theorem exec_streamDoorbell (s : State) (n : Nat) (v : Word) (low : Bool) :
    exec (.streamDoorbell n v low) s = execStreamDoorbell n v low s := rfl
theorem exec_ringSnoop (s : State) (k : Nat) : exec (.ringSnoop k) s = execRingSnoop k s := rfl
theorem exec_ringHeadRead (s : State) (k : Nat) (v : Word) : exec (.ringHeadRead k v) s = execRingHeadRead k v s := rfl

/-! A producer value (R287) -/

/-- The entries that a producer value `v` adds to those seen. -/
def Stream.newEntries (x : Stream) (v : Nat) : Nat := (v + 2 ^ 32 - x.producerSeen) % 2 ^ 32

/-- The entries for which the ring has room beyond those seen. -/
def Stream.ringRoom (x : Stream) : Nat := (x.consumer + 2 ^ (x.ringLog + 4) + 2 ^ 32 - x.producerSeen) % 2 ^ 32

section
variable {s : State} {n v : Nat} (hclosed : (s.stream n).st ≠ .closed) (hparked : (s.stream n).st ≠ .parked)
include hclosed hparked

theorem State.producerValue_within (hroom : (s.stream n).newEntries v ≤ (s.stream n).ringRoom) :
    s.producerValue n v = (s.readEntries (s.stream n) v).modStream n fun y => { y with producerSeen := v } :=
  (if_neg (not_or.mpr ⟨hclosed, hparked⟩)).trans (if_pos hroom)

theorem State.producerValue_beyond (hroom : (s.stream n).ringRoom < (s.stream n).newEntries v) :
    s.producerValue n v = s.ringFault n 0 :=
  (if_neg (not_or.mpr ⟨hclosed, hparked⟩)).trans (if_neg (Nat.not_le.mpr hroom))

end

theorem ne_closed_of_isOpen {x : SState} (h : isOpen x = true) : x ≠ .closed := by rintro rfl; cases h
theorem ne_parked_of_isOpen {x : SState} (h : isOpen x = true) : x ≠ .parked := by rintro rfl; cases h

/-! STREAM_DOORBELL (R277, R286, R370, R380) -/

/-- A doorbell of slot `n` ignored: its partition counts it, or else the device. -/
def State.doorbellIgnored (s : State) (n : Nat) : State :=
  match s.partOfSlot n with
  | some p => s.modPart p fun q => { q with doorbellsIgnored := (q.doorbellsIgnored + 1) % 2 ^ 32 }
  | none => { s with doorbellsIgnored := (s.doorbellsIgnored + 1) % 2 ^ 32 }

theorem streamDoorbell_lost {s : State} {n : Nat} {v : Word} {low : Bool}
    (h : low = false ∨ s.hostReaches = false ∨ s.link.lost = true) : exec (.streamDoorbell n v low) s = .next s := by
  refine if_pos ?_
  obtain h | h | h := h <;> simp [h]

section
variable {s : State} {n : Nat} (v : Word) (hreach : s.hostReaches = true) (hlost : s.link.lost = false)
include hreach hlost

theorem streamDoorbell_ignored (h : s.partOfSlot n = none ∨ (s.stream n).st = .closed ∨ (s.stream n).st = .parked) :
    exec (.streamDoorbell n v true) s = .next (s.doorbellIgnored n) := by
  refine (if_neg ?_).trans (if_pos ?_)
  · simp [hreach, hlost]
  · obtain h | h | h := h <;> simp [h]

theorem streamDoorbell_taken {p : Nat} (hslot : n < 8192) (hroot : s.streamRoot = true) (hp : s.partOfSlot n = some p)
    (hclosed : (s.stream n).st ≠ .closed) (hparked : (s.stream n).st ≠ .parked) :
    exec (.streamDoorbell n v true) s = .next (s.producerValue n v.toNat) := by
  refine (if_neg ?_).trans (if_neg ?_)
  · simp [hreach, hlost]
  · simp [State.slotUsable, hslot, hroot, hp, hclosed, hparked]

end

theorem streamDoorbells : Claims.StreamDoorbells := by
  intro s n p v hslot hroot
  refine ⟨streamDoorbell_lost (.inl rfl), fun h => streamDoorbell_lost (.inr h), fun hreach hlost hp => ?_,
    fun hreach hlost hp => ⟨fun hclosed hparked hroom => ?_, fun hopen hroom => ?_, fun h => ?_⟩⟩
  · rw [streamDoorbell_ignored v hreach hlost (.inl hp), State.doorbellIgnored, hp]
  · rw [streamDoorbell_taken v hreach hlost hslot hroot hp hclosed hparked, State.producerValue_within hclosed hparked hroom]
    rfl
  · have hclosed := ne_closed_of_isOpen hopen
    have hparked := ne_parked_of_isOpen hopen
    obtain ⟨b, hstream⟩ := State.ringFault_drains hopen 0
    refine ⟨s.ringFault n 0, ?_, ?_, ?_, ?_, ?_, s.ringFault_eventCount_lt n 0, fun k hk => s.ringFault_stream_ne 0 hk⟩
    · rw [streamDoorbell_taken v hreach hlost hslot hroot hp hclosed hparked, State.producerValue_beyond hclosed hparked hroom]
    all_goals rw [hstream]
  · rw [streamDoorbell_ignored v hreach hlost (.inr h), State.doorbellIgnored, hp]

/-! RING_SNOOP and RING_HEAD_READ (R286, R307, R373, R374) -/

theorem contains_filter_ne (l : List Nat) (k : Nat) : (l.filter (· ≠ k)).contains k = false := by
  rw [List.contains_eq_mem, decide_eq_false]
  simp

theorem State.wantLine_lines (s : State) (k : Nat) : (s.wantLine k).link.lines.contains k = false := contains_filter_ne _ _

theorem State.wantLine_stale (s : State) (k : Nat) : (s.wantLine k).link.stale.contains k = true := by
  unfold State.wantLine
  dsimp only
  split
  · assumption
  · simp

/-- A ring-head line read: due no longer, and held anew where it may be cached. -/
def State.headRead (s : State) (k : Nat) : State := { s with link := { s.link with
  stale := s.link.stale.filter (· ≠ k), lines := if s.cached k then s.link.lines ++ [k] else s.link.lines } }

theorem State.headRead_lines (s : State) (k : Nat) : (s.headRead k).link.stale.contains k = false ∧
    (s.cached k = true → (s.headRead k).link.lines.contains k = true) ∧
    (s.cached k = false → (s.headRead k).link.lines = s.link.lines) := by
  refine ⟨contains_filter_ne _ _, fun hc => ?_, fun hc => ?_⟩
  · simp [State.headRead, hc]
  · simp [State.headRead, hc]

theorem ringHeadRead_notDue {s : State} {k : Nat} (v : Word) (h : s.link.access = false ∨ s.link.stale.contains k = false) :
    exec (.ringHeadRead k v) s = .next s := by
  refine if_pos ?_
  obtain h | h := h <;> simp only [h, Bool.false_and, Bool.and_false, Bool.not_false]

section
variable {s : State} (v : Word) (haccess : s.link.access = true)
include haccess

theorem ringHeadRead_consumer {p : Nat} (hdue : s.link.stale.contains (32768 + p) = true) :
    exec (.ringHeadRead (32768 + p) v) s =
      .next ((s.headRead (32768 + p)).modPart p fun q => { q with cringConsumer := v.toNat }) := by
  refine (if_neg (by rw [haccess, hdue]; decide)).trans ((if_pos (Nat.le_add_right 32768 p)).trans ?_)
  rw [Nat.add_sub_cancel_left]
  rfl

theorem ringHeadRead_producer {k : Nat} (hdue : s.link.stale.contains k = true) (hk : k < 32768) (hroot : s.streamRoot = true) :
    exec (.ringHeadRead k v) s = .next ((s.headRead k).producerValue k v.toNat) :=
  (if_neg (by rw [haccess, hdue]; decide)).trans ((if_neg (Nat.not_le.mpr hk)).trans (if_pos hroot))

end

theorem ringHeadLines : Claims.RingHeadLines := by
  intro s k v
  refine ⟨fun hheld => ⟨s.wantLine k, if_pos hheld, s.wantLine_lines k, s.wantLine_stale k, rfl, rfl⟩,
    fun haccess hdue => ⟨?_, fun hk hroot hopen hroom => ?_⟩, ringHeadRead_notDue v⟩
  · rintro p rfl
    obtain ⟨hstale, hcached, huncached⟩ := s.headRead_lines (32768 + p)
    exact ⟨_, ringHeadRead_consumer v haccess hdue, hstale, hcached, huncached, by rw [State.modPart_part_self], rfl⟩
  · obtain ⟨hstale, hcached, huncached⟩ := s.headRead_lines k
    have hexec := ringHeadRead_producer v haccess hdue hk hroot
    rw [State.producerValue_within (s := s.headRead k) (ne_closed_of_isOpen hopen) (ne_parked_of_isOpen hopen) hroom] at hexec
    exact ⟨_, hexec, hstale, hcached, huncached, by rw [State.modStream_stream_self], rfl⟩

/-- Settles O36: its two claims, on doorbells and on the head lines of the rings. -/
theorem doorbellsAndHeadLines : Obligations.DoorbellsAndHeadLines := ⟨streamDoorbells, ringHeadLines⟩

end Sys2Proof.Machine
end

section
/-!
SUPPORT. A stream's ring entries as they are taken and settled (`Obligations.SubmissionEntries`).
-/

namespace Sys2Proof.Machine

/-! Entries settled at the stream's position (R284, R303) -/

/-- The entries with stale drafts consumed, and how many were stale. -/
def Stream.staled (x : Stream) : List RingEntry × Nat := staleDrafts x.tokenPos x.ringEntries

/-- The entries left once CONSUMER has passed those done with, and how many it passed. -/
def Stream.passed (x : Stream) : List RingEntry × Nat := passEntries x.staled.1

/-- The stream with its entries settled. -/
def Stream.settled (x : Stream) : Stream := { x with ringEntries := x.passed.1, consumer := (x.consumer + x.passed.2) % 2 ^ 32 }

/-- Stale drafts counted by the partition of slot `n`, where it has one. -/
def State.countStale (s : State) (n k : Nat) : State :=
  match s.partOfSlot n with
  | some p => s.modPart p fun q => { q with draftsStale := (q.draftsStale + k) % 2 ^ 32 }
  | none => s

/-- The entries of slot `n` settled, CONSUMER not written and FINISH not looked at. -/
def State.entriesSettled (s : State) (n : Nat) : State := (s.modStream n Stream.settled).countStale n (s.stream n).staled.2

/-- Without a write of CONSUMER, settling the entries drains the stream where FINISH is due, and does no more. -/
theorem State.settleRing_false (s : State) (n : Nat) : s.settleRing n false =
    if finishDue (s.stream n).staled.1 then (s.entriesSettled n).drainOut n 2 else s.entriesSettled n := by
  have hmod : s.modStream n Stream.settled = s.modStream n fun y => { y with
      ringEntries := (s.stream n).passed.1, consumer := ((s.stream n).consumer + (s.stream n).passed.2) % 2 ^ 32 } :=
    s.modStream_congr n rfl
  unfold State.settleRing
  simp only [Bool.false_and, Bool.false_eq_true, if_false]
  rw [State.entriesSettled, hmod]
  rfl

theorem State.entriesSettled_stream (s : State) (n : Nat) : (s.entriesSettled n).stream n = (s.stream n).settled := by
  unfold State.entriesSettled State.countStale
  split <;> exact State.modStream_stream_self _ _ _

theorem State.entriesSettled_part {s : State} {n p : Nat} (hp : s.partOfSlot n = some p) : (s.entriesSettled n).part p =
    { s.part p with draftsStale := ((s.part p).draftsStale + (s.stream n).staled.2) % 2 ^ 32 } := by
  have howner : (s.modStream n Stream.settled).partOfSlot n = some p := hp
  simp only [State.entriesSettled, State.countStale, howner, State.modPart_part_self, State.modStream_part]

section
variable {s : State} {n : Nat}

theorem State.settleRing_of_finish (h : finishDue (s.stream n).staled.1 = true) :
    ∃ b, (s.settleRing n false).stream n = { (s.stream n).settled.drained 2 with closedWritten := b } := by
  obtain ⟨b, hb⟩ := (s.entriesSettled n).drainOut_stream_self n 2
  rw [State.entriesSettled_stream] at hb
  rw [State.settleRing_false, if_pos h]
  exact ⟨b, hb⟩

theorem State.settleRing_of_noFinish (h : finishDue (s.stream n).staled.1 = false) : s.settleRing n false = s.entriesSettled n := by
  rw [State.settleRing_false, h, if_neg Bool.false_ne_true]

/-- Settling changes a stream's entries, its CONSUMER and whether it drains. -/
theorem State.settleRing_stream (s : State) (n : Nat) : ∃ st c b, (s.settleRing n false).stream n =
    { (s.stream n).settled with st := st, drainCause := c, closedWritten := b } := by
  cases h : finishDue (s.stream n).staled.1 with
  | true =>
    obtain ⟨b, hb⟩ := State.settleRing_of_finish h
    obtain ⟨st, c, hd⟩ := (s.stream n).settled.drained_frame 2
    rw [hd] at hb
    exact ⟨st, c, b, hb⟩
  | false =>
    rw [State.settleRing_of_noFinish h, State.entriesSettled_stream]
    exact ⟨_, _, _, rfl⟩

end

/-! The only entry of a ring -/

/-- A DRAFTS entry alone that lies not behind the stream stays. -/
theorem Stream.settled_drafts_ahead {x : Stream} {b : Nat} {t : List Word} (hx : x.ringEntries = [.drafts b t false])
    (h : behind b x.tokenPos = false) : x.settled = { x with consumer := x.consumer % 2 ^ 32 } := by
  have hstaled : x.staled = ([.drafts b t false], 0) := by simp [Stream.staled, staleDrafts, hx, h]
  have hpassed : x.passed = (x.ringEntries, 0) := by
    rw [Stream.passed, hstaled, hx]
    rfl
  rw [Stream.settled, hpassed, Nat.add_zero]

/-- A DRAFTS entry alone that lies behind the stream is stale and passed. -/
theorem Stream.settled_drafts_behind {x : Stream} {b : Nat} {t : List Word} (hx : x.ringEntries = [.drafts b t false])
    (h : behind b x.tokenPos = true) : x.staled = ([.drafts b t true], 1) ∧
      x.settled = { x with ringEntries := [], consumer := (x.consumer + 1) % 2 ^ 32 } := by
  have hstaled : x.staled = ([.drafts b t true], 1) := by simp [Stream.staled, staleDrafts, hx, h]
  have hpassed : x.passed = ([], 1) := by
    rw [Stream.passed, hstaled]
    rfl
  exact ⟨hstaled, by rw [Stream.settled, hpassed]⟩

/-- FINISH alone is due and passed. -/
theorem Stream.settled_finish {x : Stream} (hx : x.ringEntries = [.finish]) : x.staled = ([.finish], 0) ∧
    x.settled = { x with ringEntries := [], consumer := (x.consumer + 1) % 2 ^ 32 } := by
  have hstaled : x.staled = ([.finish], 0) := by
    rw [Stream.staled, hx]
    rfl
  have hpassed : x.passed = ([], 1) := by
    rw [Stream.passed, hstaled]
    rfl
  exact ⟨hstaled, by rw [Stream.settled, hpassed]⟩

/-! A good entry as it is taken (R284, R303) -/

section
variable {s : State} {n : Nat} {e : Entry}

theorem State.takeEntry_tokens (h : e.kind = 1) : s.takeEntry n e = (s.modStream n fun x => ({ x with
    prompt := x.prompt ++ [PromptPart.toks e.tokens], promptLeft := x.promptLeft + e.count
    ringEntries := x.ringEntries ++ [RingEntry.tokens e.count] } : Stream).refresh).settleRing n false := by
  rw [State.takeEntry, h]
  rfl

theorem State.takeEntry_drafts (h : e.kind = 2) : s.takeEntry n e = (s.modStream n fun x => { x with
    ringEntries := x.ringEntries ++ [RingEntry.drafts e.pos e.tokens false] }).settleRing n false := by
  rw [State.takeEntry, h]
  rfl

theorem State.takeEntry_reference (h : e.kind = 3) : s.takeEntry n e = s.modStream n fun x => ({ x with
    prompt := x.prompt ++ [PromptPart.ref (leNat (e.payload.take 8)) (leNat ((e.payload.drop 8).take 4))]
    promptLeft := x.promptLeft + leNat ((e.payload.drop 8).take 4)
    ringEntries := x.ringEntries ++ [RingEntry.tokens (leNat ((e.payload.drop 8).take 4))] } : Stream).refresh := by
  rw [State.takeEntry, h]
  rfl

theorem State.takeEntry_finish (h : e.kind = 4) : s.takeEntry n e = (s.modStream n fun x => { x with
    ringEntries := x.ringEntries ++ [RingEntry.finish] }).settleRing n false := by
  rw [State.takeEntry, h]
  rfl

end

/-- A refresh decides between OPEN and ACTIVE only. -/
theorem Stream.refresh_frame (x : Stream) : ∃ st, x.refresh = { x with st := st } := by
  unfold Stream.refresh
  split <;> exact ⟨_, rfl⟩

theorem Stream.refresh_active {x : Stream} (hopen : isOpen x.st = true) (hleft : 0 < x.promptLeft) : x.refresh.st = .active := by
  rw [Stream.refresh, if_pos hopen]
  simp [hleft]

/-- The low byte of a number decides it modulo 4. -/
theorem leNat_take_mod4 (l : List Byte) (k : Nat) : leNat (l.take (k + 1)) % 4 = leNat (l.take 1) % 4 := by
  cases l with
  | nil => rfl
  | cons b r =>
    simp only [List.take_succ_cons, List.take_zero, leNat]
    omega

/-- A PROMPT_REF that breaks no rule names whole words in host memory, one to 2^20 of them (R285). -/
theorem Entry.reference_good {e : Entry} (hkind : e.kind = 3) (hgood : e.bad = false) : leNat (e.payload.take 8) % 4 = 0 ∧
    0 < leNat ((e.payload.drop 8).take 4) ∧ leNat ((e.payload.drop 8).take 4) ≤ 2 ^ 20 := by
  simp only [Entry.bad, hkind, Bool.or_eq_false_iff, decide_eq_false_iff_not, not_not, Nat.not_lt] at hgood
  obtain ⟨⟨⟨⟨-, hsome⟩, hmost⟩, hword⟩, -⟩ := hgood
  exact ⟨(leNat_take_mod4 _ 7).trans hword, Nat.pos_of_ne_zero hsome, hmost⟩

/-! SUBMISSION_ENTRY (R284, R285, R378, R427) -/

theorem exec_submissionEntry (s : State) (n : Nat) (e : BitVec 256) :
    exec (.submissionEntry n e) s = execSubmissionEntry n e s := rfl

section
variable {s : State} {n : Nat}

theorem submissionEntry_noAccess (e : BitVec 256) (haccess : s.link.access = false) : exec (.submissionEntry n e) s = .next s :=
  if_pos (by simp [haccess])

section
variable (hopen : isOpen (s.stream n).st = true) (e : BitVec 256) (hgoes : (s.stream n).ringStopped = false)
  (hunread : (s.stream n).ringEntries.length < ((s.stream n).producerSeen + 2 ^ 32 - (s.stream n).consumer) % 2 ^ 32)
  (hroot : s.streamRoot = true) (haccess : s.link.access = true)
include hopen hgoes hunread hroot haccess

theorem submissionEntry_read : exec (.submissionEntry n e) s =
    if s.partResets n then .next (s.absorbRead n)
    else if (entryOf e).2 ≠ 0 || (entryOf e).1.bad then .next (s.ringFault n 1) else .next (s.takeEntry n (entryOf e).1) :=
  if_neg (by simp only [hopen, hgoes, decide_eq_true hunread, hroot, haccess]; decide)

theorem submissionEntry_absorbed (hreset : s.partResets n = true) : exec (.submissionEntry n e) s = .next (s.absorbRead n) :=
  (submissionEntry_read hopen e hgoes hunread hroot haccess).trans (if_pos hreset)

variable (hreset : s.partResets n = false)
include hreset

theorem submissionEntry_bad (hbad : (entryOf e).2 ≠ 0 ∨ (entryOf e).1.bad = true) :
    exec (.submissionEntry n e) s = .next (s.ringFault n 1) := by
  rw [submissionEntry_read hopen e hgoes hunread hroot haccess, hreset, if_neg Bool.false_ne_true]
  exact if_pos (by simpa using hbad)

theorem submissionEntry_taken (hzero : (entryOf e).2 = 0) (hgood : (entryOf e).1.bad = false) :
    exec (.submissionEntry n e) s = .next (s.takeEntry n (entryOf e).1) := by
  rw [submissionEntry_read hopen e hgoes hunread hroot haccess, hreset, if_neg Bool.false_ne_true]
  exact if_neg (by simp [hzero, hgood])

end

/-! What a good entry does to its stream -/

variable {e : Entry}

theorem State.takeEntry_tokens_stream (hkind : e.kind = 1) : ((s.takeEntry n e).stream n).prompt =
      (s.stream n).prompt ++ [.toks (wordsOfBytes e.count e.payload)] ∧
    ((s.takeEntry n e).stream n).promptLeft = (s.stream n).promptLeft + e.count := by
  rw [State.takeEntry_tokens hkind]
  obtain ⟨st, c, b, h⟩ := State.settleRing_stream (s.modStream n fun x => ({ x with
    prompt := x.prompt ++ [PromptPart.toks e.tokens], promptLeft := x.promptLeft + e.count
    ringEntries := x.ringEntries ++ [RingEntry.tokens e.count] } : Stream).refresh) n
  rw [h, State.modStream_stream_self]
  obtain ⟨st', hr⟩ := Stream.refresh_frame { s.stream n with
    prompt := (s.stream n).prompt ++ [PromptPart.toks e.tokens], promptLeft := (s.stream n).promptLeft + e.count
    ringEntries := (s.stream n).ringEntries ++ [RingEntry.tokens e.count] }
  rw [hr]
  exact ⟨rfl, rfl⟩

/-- A DRAFTS entry that comes alone waits, or is passed and counted stale. -/
theorem State.takeEntry_drafts_alone (hkind : e.kind = 2) (halone : (s.stream n).ringEntries = []) :
    ((s.takeEntry n e).stream n).prompt = (s.stream n).prompt ∧
    (behind e.pos (s.stream n).tokenPos = false →
      ((s.takeEntry n e).stream n).consumer = (s.stream n).consumer % 2 ^ 32 ∧
      ((s.takeEntry n e).stream n).ringEntries = [.drafts e.pos e.tokens false]) ∧
    (behind e.pos (s.stream n).tokenPos = true → ((s.takeEntry n e).stream n).ringEntries = [] ∧
      ((s.takeEntry n e).stream n).consumer = ((s.stream n).consumer + 1) % 2 ^ 32 ∧
      ∀ p, s.partOfSlot n = some p → ((s.takeEntry n e).part p).draftsStale = ((s.part p).draftsStale + 1) % 2 ^ 32) := by
  rw [State.takeEntry_drafts hkind]
  generalize hu : (s.modStream n fun x => { x with ringEntries := x.ringEntries ++ [RingEntry.drafts e.pos e.tokens false] }) = u
  have hstream : u.stream n = { s.stream n with ringEntries := [.drafts e.pos e.tokens false] } := by
    rw [← hu, State.modStream_stream_self, halone]
    rfl
  have howner : u.partOfSlot n = s.partOfSlot n := by rw [← hu]; rfl
  have hpart (p : Nat) : u.part p = s.part p := by rw [← hu]; rfl
  obtain ⟨st, c, b, hafter⟩ := u.settleRing_stream n
  rw [hafter]
  refine ⟨by rw [Stream.settled, hstream], fun hahead => ?_, fun hbehind => ?_⟩
  · rw [Stream.settled_drafts_ahead (x := u.stream n) (by rw [hstream]) (by rw [hstream]; exact hahead), hstream]
    exact ⟨rfl, rfl⟩
  · obtain ⟨hstaled, hsettled⟩ := Stream.settled_drafts_behind (x := u.stream n) (by rw [hstream])
      (by rw [hstream]; exact hbehind)
    rw [hsettled, hstream]
    refine ⟨rfl, rfl, fun p hp => ?_⟩
    rw [State.settleRing_of_noFinish (by rw [hstaled]; rfl), State.entriesSettled_part (by rw [howner, hp]), hstaled, hpart]

theorem State.takeEntry_reference_stream (hopen : isOpen (s.stream n).st = true) (hkind : e.kind = 3) (hgood : e.bad = false) :
    ∃ a k, ((s.takeEntry n e).stream n).prompt = (s.stream n).prompt ++ [.ref a k] ∧ a % 4 = 0 ∧ 0 < k ∧ k ≤ 2 ^ 20 ∧
      ((s.takeEntry n e).stream n).promptLeft = (s.stream n).promptLeft + k ∧ ((s.takeEntry n e).stream n).st = .active := by
  obtain ⟨hword, hsome, hmost⟩ := Entry.reference_good hkind hgood
  generalize ha : leNat (e.payload.take 8) = a at hword
  generalize hk : leNat ((e.payload.drop 8).take 4) = k at hsome hmost
  generalize hx : ({ s.stream n with
    prompt := (s.stream n).prompt ++ [PromptPart.ref a k], promptLeft := (s.stream n).promptLeft + k
    ringEntries := (s.stream n).ringEntries ++ [RingEntry.tokens k] } : Stream) = x
  have hstream : (s.takeEntry n e).stream n = x.refresh := by
    rw [State.takeEntry_reference hkind, State.modStream_stream_self, ha, hk, ← hx]
  obtain ⟨st, hr⟩ := x.refresh_frame
  refine ⟨a, k, ?_, hword, hsome, hmost, ?_, ?_⟩
  · rw [hstream, hr, ← hx]
  · rw [hstream, hr, ← hx]
  · rw [hstream]
    exact Stream.refresh_active (by rw [← hx]; exact hopen) (by rw [← hx]; exact Nat.add_pos_right _ hsome)

/-- FINISH alone takes effect at once: the stream drains with cause 2. -/
theorem State.takeEntry_finish_alone (hopen : isOpen (s.stream n).st = true) (hkind : e.kind = 4)
    (halone : (s.stream n).ringEntries = []) : ((s.takeEntry n e).stream n).st = .draining ∧
    ((s.takeEntry n e).stream n).drainCause = 2 ∧
    ((s.takeEntry n e).stream n).consumer = ((s.stream n).consumer + 1) % 2 ^ 32 := by
  rw [State.takeEntry_finish hkind]
  generalize hu : (s.modStream n fun x => { x with ringEntries := x.ringEntries ++ [RingEntry.finish] }) = u
  have hstream : u.stream n = { s.stream n with ringEntries := [.finish] } := by
    rw [← hu, State.modStream_stream_self, halone]
    rfl
  obtain ⟨hstaled, hsettled⟩ := Stream.settled_finish (x := u.stream n) (by rw [hstream])
  obtain ⟨b, hb⟩ := State.settleRing_of_finish (s := u) (n := n) (by rw [hstaled]; rfl)
  rw [hb, Stream.drained_of_open (by rw [Stream.settled, hstream]; exact hopen), hsettled, hstream]
  exact ⟨rfl, rfl, rfl⟩

end

theorem ringEntries : Claims.RingEntries := by
  intro s n e hopen hgoes hunread hroot
  refine ⟨submissionEntry_noAccess e, fun haccess hreset => submissionEntry_absorbed hopen e hgoes hunread hroot haccess hreset,
    fun haccess hreset => ⟨fun hbad => ?_, fun hzero hgood => ?_⟩⟩
  · obtain ⟨b, hstream⟩ := State.ringFault_drains hopen 1
    refine ⟨_, submissionEntry_bad hopen e hgoes hunread hroot haccess hreset hbad, ?_⟩
    rw [hstream]
    exact ⟨rfl, rfl, rfl, rfl⟩
  have hexec := submissionEntry_taken hopen e hgoes hunread hroot haccess hreset hzero hgood
  refine ⟨fun hkind => ⟨_, hexec, State.takeEntry_tokens_stream hkind⟩, fun hkind => ?_, fun hkind => ?_,
    fun hkind halone => ⟨_, hexec, State.takeEntry_drafts_alone hkind halone⟩, fun hkind => ?_,
    fun hkind halone => ⟨_, hexec, State.takeEntry_finish_alone hopen hkind halone⟩⟩
  · rw [hexec, State.takeEntry_drafts hkind]
    rfl
  · rw [hexec, State.takeEntry_finish hkind]
  · obtain ⟨a, k, h⟩ := State.takeEntry_reference_stream hopen hkind hgood
    exact ⟨_, a, k, hexec, h⟩

end Sys2Proof.Machine
end

section
/-!
SUPPORT. The prompts read from the host (`Obligations.SubmissionEntries`).
-/

namespace Sys2Proof.Machine

theorem exec_promptRefRead (s : State) (n : Nat) (ok : Bool) (toks : List Word) :
    exec (.promptRefRead n ok toks) s = execPromptRefRead n ok toks s := rfl

/-! Tokens join a slot's inputs (R284) -/

theorem range_map_getD {α : Type} (l : List α) (d : α) : ((List.range l.length).map fun i => l.getD i d) = l :=
  List.ext_getElem (by simp) fun i _ hi => by simp [hi]

/-- The tokens read were all that a slot still waited for. -/
theorem Admit.fill_last {x : Admit} {a : Nat} {toks : List Word} (hwant : x.want = [.ref a toks.length]) :
    x.fill toks = { x with inputs := x.inputs ++ toks, want := [] } := by
  simp only [Admit.fill, hwant, range_map_getD, Admit.absorb, heldTokens, List.append_nil]

/-- The tokens of a read of stream `n` in their place. -/
def fillAdmits (n : Nat) (toks : List Word) (l : List Admit) : List Admit := l.map fun a => if a.stream = n then a.fill toks else a

/-- The slots left when a read of stream `n` fails. -/
def dropUnread (n : Nat) (l : List Admit) : List Admit := l.filter fun a => decide (a.stream ≠ n) || a.want.isEmpty

/-! PROMPT_REF_READ (R284, R285, R378, R427) -/

/-- The read of stream `n` has come. -/
def State.promptCame (s : State) (n : Nat) : State := s.modStream n fun x => { x with promptRef := none }

/-- The read of stream `n` has come, and partition `p` has its tokens. -/
def State.promptFilled (s : State) (n p : Nat) (toks : List Word) : State :=
  (s.promptCame n).modPart p fun q => { q with nextAdmitted := fillAdmits n toks q.nextAdmitted }

/-- The read of stream `n` has failed, and its slot of partition `p` stays empty. -/
def State.promptFailed (s : State) (n p : Nat) : State :=
  ((s.promptCame n).ringFault n 2).modPart p fun q => { q with nextAdmitted := dropUnread n q.nextAdmitted }

section
variable {s : State} {n p a k : Nat} {toks : List Word}

theorem promptRefRead_noAccess (ok : Bool) (haccess : s.link.access = false) : exec (.promptRefRead n ok toks) s = .next s :=
  if_pos (by simp [haccess])

section
variable (href : (s.stream n).promptRef = some (a, k)) (haccess : s.link.access = true)
include href haccess

theorem promptRefRead_absorbed (ok : Bool) (hreset : s.partResets n = true) :
    exec (.promptRefRead n ok toks) s = .next (s.absorbRead n) :=
  (if_neg (by simp [href, haccess])).trans (if_pos hreset)

variable (hp : s.partOfSlot n = some p) (hreset : s.partResets n = false)
include hp hreset

/-- The tables are built where they wait for the read's tokens. -/
theorem promptRefRead_fills : exec (.promptRefRead n true toks) s =
    if (s.part p).tablesDue then .next ((s.promptFilled n p toks).buildTables p) else .next (s.promptFilled n p toks) := by
  have howner : (s.promptCame n).partOfSlot n = some p := hp
  have hfilled : ((s.promptCame n).modPart p fun q => { q with
      nextAdmitted := fillAdmits n toks ((s.promptCame n).part p).nextAdmitted }) = s.promptFilled n p toks :=
    State.modPart_congr _ p rfl
  have hdue : ((s.promptFilled n p toks).part p).tablesDue = (s.part p).tablesDue := by
    rw [State.promptFilled, State.modPart_part_self]
    rfl
  refine ((if_neg (by simp [href, haccess])).trans (if_neg (by simp [hreset]))).trans ?_
  simp only [if_true]
  rw [← State.promptCame, howner]
  dsimp only
  rw [← fillAdmits, hfilled, hdue]

theorem promptRefRead_fails (hdue : (s.part p).tablesDue = false) :
    exec (.promptRefRead n false toks) s = .next (s.promptFailed n p) := by
  have howner : ((s.promptCame n).ringFault n 2).partOfSlot n = some p :=
    ((s.promptCame n).ringFault_sameSeats n 2).partOfSlot n |>.trans hp
  have hfailed : (((s.promptCame n).ringFault n 2).modPart p fun q => { q with
      nextAdmitted := dropUnread n (((s.promptCame n).ringFault n 2).part p).nextAdmitted }) = s.promptFailed n p :=
    State.modPart_congr _ p rfl
  obtain ⟨u, l, hpart⟩ := (s.promptCame n).ringFault_part n 2 p
  have hdues : ((s.promptFailed n p).part p).tablesDue = false := by
    rw [State.promptFailed, State.modPart_part_self, hpart]
    exact hdue
  refine ((if_neg (by simp [href, haccess])).trans (if_neg (by simp [hreset]))).trans ?_
  simp only [Bool.false_eq_true, if_false]
  rw [← State.promptCame, howner]
  dsimp only
  rw [← dropUnread, hfailed, hdues, if_neg Bool.false_ne_true]

end

/-! What the read leaves -/

theorem State.promptFailed_stream (s : State) (n p : Nat) : ((s.promptFailed n p).stream n).promptRef = none ∧
    (isOpen (s.stream n).st = true → ((s.promptFailed n p).stream n).st = .draining ∧
      ((s.promptFailed n p).stream n).drainCause = 5) ∧
    ((s.promptFailed n p).stream n).ringStopped = true := by
  have hcame : (s.promptCame n).stream n = { s.stream n with promptRef := none } := State.modStream_stream_self _ _ _
  obtain ⟨b, hstream⟩ := (s.promptCame n).ringFault_stream_self n 2
  obtain ⟨st, c, hd⟩ := Stream.drained_frame { (s.promptCame n).stream n with ringStopped := true } 5
  rw [State.promptFailed, State.modPart_stream]
  refine ⟨?_, fun hopen => ?_, ?_⟩
  · rw [hstream, hd, hcame]
  · obtain ⟨b, hstream⟩ := State.ringFault_drains (s := s.promptCame n) (n := n) (by rw [hcame]; exact hopen) 2
    rw [hstream]
    exact ⟨rfl, rfl⟩
  · rw [hstream, hd]

theorem State.promptFailed_eventCount_lt (s : State) (n p : Nat) : s.eventCount < (s.promptFailed n p).eventCount := by
  have hcame : (s.promptCame n).eventCount = s.eventCount := rfl
  rw [State.promptFailed, State.modPart_eventCount, ← hcame]
  exact State.ringFault_eventCount_lt _ _ _

theorem State.promptFailed_part (s : State) (n p : Nat) :
    ((s.promptFailed n p).part p).nextAdmitted = dropUnread n (s.part p).nextAdmitted := by
  obtain ⟨u, l, hpart⟩ := (s.promptCame n).ringFault_part n 2 p
  rw [State.promptFailed, State.modPart_part_self, hpart]
  rfl

/-- The tables of one slot that waits for nothing are written, with its pages checked. -/
theorem State.buildTables_ready {s : State} {p : Nat} {b : Admit} (hnext : (s.part p).nextAdmitted = [b]) (hwant : b.want = []) :
    ((s.buildTables p).part p).nextAdmitted = [{ b with noAppend := s.lacksPage b }] ∧
    ((s.buildTables p).part p).tablesDue = false ∧ ∀ n, (s.buildTables p).stream n = s.stream n := by
  have hready : ((s.part p).nextAdmitted.all fun a => a.want.isEmpty) = true := by simp [hnext, hwant]
  have hsends := (State.writeTables_sendsOnly (s.modPart p fun q => { q with
    tablesDue := false, nextAdmitted := s.checkAppends (s.part p).nextAdmitted }) p ((s.part p).admitTide.getD 0)
    (s.checkAppends (s.part p).nextAdmitted)).trans (State.castTables_sendsOnly _ p ((s.part p).admitTide.getD 0))
  rw [State.buildTables, if_pos hready]
  refine ⟨?_, ?_, fun n => hsends.stream n⟩
  · rw [hsends.part, State.modPart_part_self, hnext]
    rfl
  · rw [hsends.part, State.modPart_part_self]

/-- A partition whose one slot waited for the tokens alone has them. -/
theorem State.promptFilled_last {adm : Admit} (hnext : (s.part p).nextAdmitted = [adm]) (hstream : adm.stream = n)
    (hwant : adm.want = [.ref a toks.length]) : s.promptFilled n p toks =
      (s.promptCame n).modPart p fun q => { q with nextAdmitted := [{ adm with inputs := adm.inputs ++ toks, want := [] }] } := by
  refine State.modPart_congr _ p ?_
  have hpart : (s.promptCame n).part p = s.part p := rfl
  simp only [hpart, hnext, fillAdmits, List.map_cons, List.map_nil, hstream, if_true, Admit.fill_last hwant]

end

theorem promptReads : Claims.PromptReads := by
  intro s n p a k toks href hp
  refine ⟨fun haccess ok => promptRefRead_noAccess ok haccess,
    fun haccess hreset ok => promptRefRead_absorbed href haccess ok hreset, fun haccess hreset => ?_⟩
  have hfills := promptRefRead_fills (toks := toks) href haccess hp hreset
  refine ⟨fun hdue => ?_, fun hdue => ?_, fun hdue => ?_, fun adm hnext hstream hwant hlen => ?_⟩
  · rw [hfills, hdue]
    rfl
  · rw [hfills, hdue]
    rfl
  · obtain ⟨hnone, hdrains, hstops⟩ := s.promptFailed_stream n p
    exact ⟨_, promptRefRead_fails href haccess hp hreset hdue, hnone, hdrains, hstops, s.promptFailed_eventCount_lt n p,
      s.promptFailed_part n p⟩
  · subst hlen
    rw [State.promptFilled_last hnext hstream hwant] at hfills
    refine ⟨{ adm with inputs := adm.inputs ++ toks, want := [] }, rfl, rfl, rfl, hstream, fun hdue => ?_, fun hdue _ => ?_⟩
    · rw [hfills, hdue]
      rfl
    · obtain ⟨hslot, hbuilt, hstreams⟩ := State.buildTables_ready (s := (s.promptCame n).modPart p fun q => { q with
        nextAdmitted := [{ adm with inputs := adm.inputs ++ toks, want := [] }] }) (p := p) (by rw [State.modPart_part_self]) rfl
      rw [hfills, hdue]
      refine ⟨_, _, rfl, hslot, hbuilt, ?_⟩
      rw [hstreams, State.modPart_stream, State.promptCame, State.modStream_stream_self]

/-- Settles O37: its two claims, on ring entries (taken, then settled) and on the prompts read from the host. -/
theorem submissionEntries : Obligations.SubmissionEntries := ⟨ringEntries, promptReads⟩

end Sys2Proof.Machine
end

section
/-!
SUPPORT. What the completion of a command leaves of the fabric, and the faults of the fabric as events and causes.
-/

namespace Sys2Proof.Machine

/-! What stays of the fabric -/

/-- The partitions, the job, the ports, the power and the clock stand, and no event is taken back. -/
structure FabricStands (s t : State) : Prop where
  parts : t.parts = s.parts
  job : t.job = s.job
  hports : t.hports = s.hports
  power : t.power = s.power
  now : t.now = s.now
  count : s.eventCount ≤ t.eventCount

theorem FabricStands.refl (s : State) : FabricStands s s := ⟨rfl, rfl, rfl, rfl, rfl, Nat.le_refl _⟩

theorem FabricStands.trans {s t u : State} (h : FabricStands s t) (k : FabricStands t u) : FabricStands s u :=
  ⟨k.parts.trans h.parts, k.job.trans h.job, k.hports.trans h.hports, k.power.trans h.power, k.now.trans h.now,
    Nat.le_trans h.count k.count⟩

theorem FabricStands.ite {s t u : State} {b : Prop} [Decidable b] (h : FabricStands s t) (k : FabricStands s u) :
    FabricStands s (if b then t else u) := by split <;> assumption

theorem FabricStands.part {s t : State} (h : FabricStands s t) (p : Nat) : t.part p = s.part p := by
  rw [State.part, h.parts, State.part]

theorem FabricStands.hport {s t : State} (h : FabricStands s t) (q : Nat) : t.hport q = s.hport q := by
  rw [State.hport, h.hports, State.hport]

theorem EventOnly.fabricStands {s t : State} (h : EventOnly s t) (hc : s.eventCount ≤ t.eventCount) : FabricStands s t :=
  ⟨h.parts, h.job, by rw [h], by rw [h], h.now, hc⟩

theorem State.raiseDev_fabricStands (s : State) (a b c d : Nat) : FabricStands s (s.raiseDev a b c d) :=
  (s.raiseDev_eventOnly a b c d).fabricStands (Nat.le_of_lt (s.raiseDev_eventCount_lt a b c d))

theorem State.finish_fabricStands (s : State) (n st : Nat) (resp buf : List Byte) (d o : Nat) :
    FabricStands s (s.finish n st resp buf d o) := by
  have hcount := s.finish_eventCount_le n st resp buf d o
  cases h : (s.mb n).done with
  | true =>
    have hsame : s.finish n st resp buf d o = s := if_pos h
    rw [hsame]
    exact .refl s
  | false =>
    have hevents := State.finish_eventOnly h st resp buf d o
    exact ⟨hevents.parts, hevents.job, by rw [hevents]; rfl, by rw [hevents]; rfl, hevents.now, hcount⟩

theorem State.okHeld_fabricStands (s : State) (m : Option Nat) (resp : List Byte) : FabricStands s (s.okHeld m resp) := by
  cases m with
  | none => exact .refl s
  | some n => exact s.finish_fabricStands _ _ _ _ _ _

theorem State.freqApplied_fabricStands (s : State) : FabricStands s s.freqApplied := by
  unfold State.freqApplied
  split
  · exact .refl s
  · exact FabricStands.trans (t := { s with freqWait := none }) ⟨rfl, rfl, rfl, rfl, rfl, Nat.le_refl _⟩
      (State.finish_fabricStands _ _ _ _ _ _ _)

/-- With nothing that waits for the end of a run, what goes on is no matter of the fabric. -/
theorem State.goOn_fabricStands {s : State} (h : s.NothingWaits) : FabricStands s s.goOn := by
  rw [State.goOn_eq h]
  exact .ite s.freqApplied_fabricStands (.refl s)

theorem SendsOnly.power {s t : State} (h : SendsOnly s t) : t.power = s.power := by rw [h]
theorem SendsOnly.parts {s t : State} (h : SendsOnly s t) : t.parts = s.parts := by rw [h]

/-! Faults of the fabric (R337, R338) -/

theorem State.jobFault_power (s : State) (code sev unit payload : Nat) (kind : FaultKind) (act : Nat) :
    (s.jobFault code sev unit payload kind act).power = s.power := by
  unfold State.jobFault
  simp only
  rw [each_eq (π := State.power) (fun p v => v.addCause_power p _), State.raiseFault_eventOnly]

/-- A fault that no partition holds back is counted at once. -/
theorem State.jobFault_eventCount_lt {s : State} (h : s.jobParts.any s.afterDone = false) (code sev unit payload : Nat)
    (kind : FaultKind) (act : Nat) : s.eventCount < (s.jobFault code sev unit payload kind act).eventCount := by
  unfold State.jobFault
  simp only
  rw [each_eq (π := State.eventCount) (fun p v => v.addCause_eventCount p _)]
  exact State.raiseFault_eventCount_lt _ (.inl h)

/-- The partition of the job that runs has the fault as its cause, where it had none, and rings its fault bell. -/
theorem State.jobFault_part {s : State} {p : Nat} (hparts : s.jobParts = [p]) (hrun : running (s.part p).st = true)
    (code sev unit payload : Nat) (kind : FaultKind) (act : Nat) :
    ((s.jobFault code sev unit payload kind act).part p).st = (s.part p).st ∧
    ((s.jobFault code sev unit payload kind act).part p).faultBell = true ∧
    ((s.jobFault code sev unit payload kind act).part p).cause =
      worse (s.part p).cause (s.ranked p { kind := kind, code := code, unit := unit, act := act }) := by
  unfold State.jobFault
  simp only [hparts]
  generalize hv : s.raiseFault _ _ = v
  have hevent : EventOnly s v := hv ▸ State.raiseFault_eventOnly _ _ _
  have hone : each [p] (fun p st => st.addCause p { kind := kind, code := code, unit := unit, act := act }) v
      = v.addCause p { kind := kind, code := code, unit := unit, act := act } := rfl
  have hranked : ∀ c, v.ranked p c = s.ranked p c := fun c => by rw [State.ranked, hevent.part, hevent.job, State.ranked]
  rw [hone, State.addCause_running _ _ _ (by rw [hevent.part]; exact hrun), hevent.part, hranked]
  exact ⟨rfl, rfl, rfl⟩

theorem eq_or_mem_of_mem_tset {α : Type} {l : Tab α} {k : Nat} {v : α} {e : Nat × α} (h : e ∈ tset l k v) :
    e = (k, v) ∨ e ∈ l := by
  induction l with
  | nil => exact .inl (List.mem_singleton.mp h)
  | cons a r ih =>
    obtain ⟨i, w⟩ := a
    simp only [tset] at h
    split at h
    · exact (List.mem_cons.mp h).imp_right (List.mem_cons_of_mem _)
    · split at h
      · exact List.mem_cons.mp h
      · obtain rfl | h := List.mem_cons.mp h
        · exact .inr List.mem_cons_self
        · exact (ih h).imp_right (List.mem_cons_of_mem _)

/-- A change of a partition brings no other into the job's run. -/
theorem State.mem_jobParts_modPart {s : State} {p q : Nat} {f : Partition → Partition} (h : q ∈ (s.modPart p f).jobParts) :
    q = p ∨ q ∈ s.jobParts := by
  obtain ⟨e, he, rfl⟩ := List.mem_map.mp h
  obtain ⟨hmem, hin⟩ := List.mem_filter.mp he
  obtain rfl | hmem := eq_or_mem_of_mem_tset hmem
  · exact .inl rfl
  · exact .inr (List.mem_map.mpr ⟨e, List.mem_filter.mpr ⟨hmem, hin⟩, rfl⟩)

theorem State.mem_jobParts_addCause {s : State} {p q : Nat} {c : FaultCause} (h : q ∈ (s.addCause p c).jobParts) :
    q = p ∨ q ∈ s.jobParts := by
  unfold State.addCause at h
  simp only at h
  split at h
  · exact State.mem_jobParts_modPart h
  · exact .inr h

/-- A fault of the job brings no partition into its run. -/
theorem State.mem_jobParts_jobFault {s : State} {q code sev unit payload : Nat} {kind : FaultKind} {act : Nat}
    (h : q ∈ (s.jobFault code sev unit payload kind act).jobParts) : q ∈ s.jobParts := by
  have hfold : ∀ (c : FaultCause) (l : List Nat) (v : State), q ∈ (each l (fun p st => st.addCause p c) v).jobParts →
      q ∈ l ∨ q ∈ v.jobParts := by
    intro c l
    induction l with
    | nil => exact fun _ h => .inr h
    | cons a l ih =>
      intro v h
      obtain h | h := ih (v.addCause a c) h
      · exact .inl (List.mem_cons_of_mem _ h)
      · exact (State.mem_jobParts_addCause h).imp_left fun e : q = a => e ▸ List.mem_cons_self
  unfold State.jobFault at h
  obtain h | h := hfold _ _ _ h
  · exact h
  · rw [State.jobParts, (State.raiseFault_eventOnly _ _ _).parts] at h
    exact h

/-- A fault of the job leaves what waits for the end of a run. -/
theorem State.jobFault_sameWaits (s : State) (code sev unit payload : Nat) (kind : FaultKind) (act : Nat) :
    SameWaits s (s.jobFault code sev unit payload kind act) := by
  unfold State.jobFault
  refine SameWaits.trans (State.raiseFault_eventOnly _ _ _).sameRun.sameWaits
    (each_induction (P := SameWaits _) (fun p v hv => hv.trans ?_) _ _ (SameRun.refl _).sameWaits)
  unfold State.addCause
  split
  · exact v.modPart_sameWaits p fun _ => rfl
  · exact (SameRun.refl v).sameWaits

end Sys2Proof.Machine
end

section
/-!
SUPPORT. Records that come up the tree, what a device sends when it is done, and losses of the tree, the lock and the reference
(`Obligations.TreeRecordsUpAndLosses`).
-/

namespace Sys2Proof.Machine

theorem exec_done (s : State) (child tide count step : Nat) : exec (.done child tide count step) s = execDone child tide count step s := rfl
theorem exec_fault (s : State) (child tide kind : Nat) (c : Cause) : exec (.fault child tide kind c) s = execFault child tide kind c s := rfl
theorem exec_settled (s : State) (child tide count kind : Nat) (c : Cause) :
    exec (.settled child tide count kind c) s = execSettled child tide count kind c s := rfl
theorem exec_recovered (s : State) (child tide count : Nat) :
    exec (.recovered child tide count) s = execRecovered child tide count s := rfl
theorem exec_doneSend (s : State) : exec .doneSend s = execDoneSend s := rfl
theorem exec_confirmSend (s : State) : exec .confirmSend s = execConfirmSend s := rfl
theorem exec_treeTimeout (s : State) : exec .treeTimeout s = execTreeTimeout s := rfl
theorem exec_clockLockLoss (s : State) : exec .clockLockLoss s = execClockLockLoss s := rfl
theorem exec_referenceLoss (s : State) : exec .referenceLoss s = execReferenceLoss s := rfl

/-! Up the tree (R333, R336, R339) -/

theorem State.isRoot_of_parentPort {s : State} {q : Nat} (hformed : s.job.formed = true) (h : s.job.parentPort = some q) :
    s.isRoot = false := by
  rw [State.isRoot, hformed, h]
  rfl

/-- A member that is not the root has a parent. -/
theorem State.parentPort_of_not_root {s : State} (h : s.isRoot = false) : ∃ q, s.job.parentPort = some q := by
  refine Option.isSome_iff_exists.mp ?_
  rw [State.isRoot, Bool.or_eq_false_iff, Option.isNone_eq_false_iff] at h
  exact h.2

theorem State.sendUp_hport_of_parent {s : State} {q : Nat} (h : s.job.parentPort = some q) (r : TreeRec) :
    (s.sendUp r).hport q = { s.hport q with urgent := (s.hport q).urgent ++ s.copies q r } := by
  rw [State.sendUp, h]
  exact s.queueRec_hport_self q r

/-- SETTLED goes up with the count and the highest fault of the subtree, once its live children have settled. -/
theorem State.maybeSettled_sends {s : State} (hformed : s.job.formed = true) (hroot : s.isRoot = false)
    (hself : s.job.selfSettled = false) (hkids : s.liveChildren.length ≤ s.job.settledFrom.length)
    (hall : s.jobParts.all (fun p => (s.part p).settled) = true) :
    s.maybeSettled = State.sendUp { s with job := { s.job with selfSettled := true } }
      (.settled s.jobTide (countOf (s.job.settledFrom.map fun r => r.2.1)) s.subtreeFault.1 s.subtreeFault.2) := by
  have hroot' : State.isRoot { s with job := { s.job with selfSettled := true } } = false := hroot
  rw [State.maybeSettled, if_neg (by simp [hformed, hself, hkids, hall])]
  simp only [hroot', Bool.false_eq_true, if_false]
  rfl

/-- RECOVERED goes up with the count of the subtree, once its live children have recovered. -/
theorem State.maybeRecovered_sends {s : State} (hformed : s.job.formed = true) (hroot : s.isRoot = false)
    (hself : s.job.selfRecovered = false) (hkids : s.liveChildren.length ≤ s.job.recoveredFrom.length)
    (hall : s.jobParts.all (fun p => (s.part p).recovered) = true) :
    s.maybeRecovered = State.sendUp { s with job := { s.job with selfRecovered := true } }
      (.recovered s.jobTide (countOf (s.job.recoveredFrom.map fun r => r.2))) := by
  have hroot' : State.isRoot { s with job := { s.job with selfRecovered := true } } = false := hroot
  rw [State.maybeRecovered, if_neg (by simp [hformed, hself, hkids, hall])]
  simp only [hroot', Bool.false_eq_true, if_false]
  rfl

theorem State.dropConfirm_sendsOnly (s : State) : SendsOnly s s.dropConfirm :=
  each_sendsOnly (fun q v => (rfl : SendsOnly v (v.modHport q _))) _ _

/-- The root turns the open tide of its one partition into an abandon. -/
theorem State.rootAbandon_one {s : State} {p : Nat} (hparts : s.jobParts = [p]) (hst : (s.part p).st = .open_)
    (habandoned : s.job.abandoned = false) (c : Cause) : (s.rootAbandon c).job.abandoned = true ∧
      (s.rootAbandon c).job.cause = c ∧ ((s.rootAbandon c).part p).st = .abandoning := by
  have hconfirmed : s.confirmed = false := by simp [State.confirmed, hparts, hst]
  obtain ⟨v, hv⟩ : ∃ v, v = ({ s.dropConfirm with job := { s.dropConfirm.job with abandoned := true, cause := c } } : State) := ⟨_, rfl⟩
  have heq : s.rootAbandon c = (v.sendDown (.confirm v.jobTide v.now true c)).abandonJob := by
    rw [State.rootAbandon, if_neg (by simp [habandoned, hconfirmed]), hv]
  have hvparts : v.parts = s.parts := by rw [hv]; exact s.dropConfirm_sendsOnly.parts
  have hsent := v.sendDown_sendsOnly (.confirm v.jobTide v.now true c)
  generalize v.sendDown (.confirm v.jobTide v.now true c) = u at heq hsent
  have hpart : u.part p = s.part p := by rw [hsent.part, State.part, hvparts, State.part]
  have hlist : u.jobParts = [p] := by rw [hsent.jobParts, State.jobParts, hvparts]; exact hparts
  rw [heq, State.abandonJob_one hlist (.inl (by rw [hpart, hst]))]
  obtain ⟨hjob, hbegun, -⟩ := u.beginAbandon_begins p
  rw [hsent.job, hv] at hjob
  exact ⟨congrArg Job.abandoned hjob, congrArg Job.cause hjob, hbegun⟩

section
variable {s : State} {child : Nat} (hformed : s.job.formed = true) (hchild : s.job.childPorts.contains child = true)
include hformed hchild

/-- DONE of a child is kept once. -/
theorem State.done_counts (count step : Nat) : exec (.done child s.job.tide count step) s =
    .next (if (s.job.doneFrom.map fun d => d.1).contains child then s else { s with job := { s.job with
      doneFrom := s.job.doneFrom ++ [(child, count)], stepReq := max s.job.stepReq step } }) := by
  rw [exec_done, execDone, State.newChild, hformed, hchild]
  cases (s.job.doneFrom.map fun d => d.1).contains child <;> simp

/-- A FAULT of a child's subtree goes on up. -/
theorem State.fault_passes (hroot : s.isRoot = false) (kind : Nat) (c : Cause) :
    exec (.fault child s.jobTide kind c) s = .next (s.sendUp (.fault s.jobTide kind c)) := by
  rw [exec_fault, execFault, if_neg (by rw [hformed, hchild]; simp), if_pos (by rw [hroot]; rfl)]

/-- A FAULT that reaches the root while the tide of its one partition is open abandons the tide. -/
theorem State.fault_abandons {p : Nat} (hroot : s.isRoot = true) (hparts : s.jobParts = [p]) (hst : (s.part p).st = .open_)
    (kind : Nat) (c : Cause) : exec (.fault child s.jobTide kind c) s = .next (s.rootAbandon c) := by
  rw [exec_fault, execFault, if_neg (by rw [hformed, hchild]; simp), if_neg (by rw [hroot]; simp),
    if_neg (by simp [hparts, hst])]

section
variable {q : Nat} (hparent : s.job.parentPort = some q) (hkids : s.liveChildren = [child])
include hparent hkids

/-- SETTLED of the only live child, on a device that has settled, goes up. -/
theorem State.settled_goesUp (hnone : s.job.settledFrom = []) (hself : s.job.selfSettled = false)
    (hall : s.jobParts.all (fun p => (s.part p).settled) = true) (hwaits : s.NothingWaits) (count kind : Nat) (c : Cause) :
    ∃ s' k d, exec (.settled child s.jobTide count kind c) s = .next s' ∧ s'.job.selfSettled = true ∧
      s'.job.settledFrom = [(child, count, kind, c)] ∧ s'.parts = s.parts ∧
      (s'.hport q).urgent = (s.hport q).urgent ++ s.copies q (.settled s.jobTide (1 + count) k d) := by
  have hroot := State.isRoot_of_parentPort hformed hparent
  obtain ⟨v, hv⟩ : ∃ v, v = ({ s with job := { s.job with settledFrom := [(child, count, kind, c)] } } : State) := ⟨_, rfl⟩
  have hsends : v.maybeSettled = State.sendUp { v with job := { v.job with selfSettled := true } }
      (.settled s.jobTide (1 + count) v.subtreeFault.1 v.subtreeFault.2) := by
    have hlive : v.liveChildren.length ≤ v.job.settledFrom.length := by
      rw [hv]
      exact Nat.le_of_eq (congrArg List.length hkids)
    rw [State.maybeSettled_sends (by rw [hv]; exact hformed) (by rw [hv]; exact hroot) (by rw [hv]; exact hself) hlive
      (by rw [hv]; exact hall)]
    simp only [hv, List.map_cons, List.map_nil, countOf, List.foldl_cons, List.foldl_nil, Nat.zero_add]
    rfl
  have hnext : exec (.settled child s.jobTide count kind c) s = .next v.maybeSettled.goOn := by
    rw [exec_settled, execSettled, State.newChild, hformed, hchild, hnone, hv]
    simp
  rw [hsends] at hnext
  generalize v.subtreeFault = f at hnext
  obtain ⟨w, hw⟩ : ∃ w, w = ({ v with job := { v.job with selfSettled := true } } : State) := ⟨_, rfl⟩
  rw [← hw] at hnext
  have hsent := w.sendUp_sendsOnly (.settled s.jobTide (1 + count) f.1 f.2)
  have hport := State.sendUp_hport_of_parent (s := w) (q := q) (by rw [hw, hv]; exact hparent)
    (.settled s.jobTide (1 + count) f.1 f.2)
  have hstands := State.goOn_fabricStands (s := w.sendUp (.settled s.jobTide (1 + count) f.1 f.2))
    (hsent.sameRun.sameWaits.nothingWaits (by rw [hw, hv]; exact hwaits))
  refine ⟨_, f.1, f.2, hnext, ?_, ?_, ?_, ?_⟩
  · rw [hstands.job, hsent.job, hw]
  · rw [hstands.job, hsent.job, hw, hv]
  · rw [hstands.parts, hsent.parts, hw, hv]
  · rw [hstands.hport, hport, hw, hv]
    rfl

/-- RECOVERED of the only live child, on a device that has recovered, goes up. -/
theorem State.recovered_goesUp (hnone : s.job.recoveredFrom = []) (hself : s.job.selfRecovered = false)
    (hall : s.jobParts.all (fun p => (s.part p).recovered) = true) (count : Nat) :
    ∃ s', exec (.recovered child s.jobTide count) s = .next s' ∧ s'.job.selfRecovered = true ∧
      s'.job.recoveredFrom = [(child, count)] ∧
      (s'.hport q).urgent = (s.hport q).urgent ++ s.copies q (.recovered s.jobTide (1 + count)) := by
  have hroot := State.isRoot_of_parentPort hformed hparent
  obtain ⟨v, hv⟩ : ∃ v, v = ({ s with job := { s.job with recoveredFrom := [(child, count)] } } : State) := ⟨_, rfl⟩
  have hsends : v.maybeRecovered = State.sendUp { v with job := { v.job with selfRecovered := true } }
      (.recovered s.jobTide (1 + count)) := by
    have hlive : v.liveChildren.length ≤ v.job.recoveredFrom.length := by
      rw [hv]
      exact Nat.le_of_eq (congrArg List.length hkids)
    rw [State.maybeRecovered_sends (by rw [hv]; exact hformed) (by rw [hv]; exact hroot) (by rw [hv]; exact hself) hlive
      (by rw [hv]; exact hall)]
    simp only [hv, List.map_cons, List.map_nil, countOf, List.foldl_cons, List.foldl_nil, Nat.zero_add]
    rfl
  have hnext : exec (.recovered child s.jobTide count) s = .next v.maybeRecovered := by
    rw [exec_recovered, execRecovered, State.newChild, hformed, hchild, hnone, hv]
    simp
  rw [hsends] at hnext
  refine ⟨_, hnext, ?_, ?_, ?_⟩
  · rw [(State.sendUp_sendsOnly _ _).job]
  · rw [(State.sendUp_sendsOnly _ _).job, hv]
  · rw [State.sendUp_hport_of_parent (by rw [hv]; exact hparent), hv]
    rfl

end

end

theorem treeRecordsUp : Claims.TreeRecordsUp := by
  intro s child hformed hchild hheld
  obtain ⟨hhold, hleave, -⟩ := hheld
  refine ⟨fun count step hnew => ?_, fun count step hold => ?_, fun q kind c hparent => ?_,
    fun p kind c hroot hparts hst habandoned => ?_, fun q count kind c hparent hkids hnone hself hall => ?_,
    fun q count hparent hkids hnone hself hall => ?_⟩
  · rw [State.done_counts hformed hchild, hnew]
    rfl
  · rw [State.done_counts hformed hchild, hold]
    rfl
  · have hsent := s.sendUp_sendsOnly (.fault s.jobTide kind c)
    refine ⟨_, State.fault_passes hformed hchild (State.isRoot_of_parentPort hformed hparent) kind c, ?_, hsent.parts, hsent.job⟩
    rw [State.sendUp_hport_of_parent hparent]
    rfl
  · exact ⟨_, State.fault_abandons hformed hchild hroot hparts hst kind c, State.rootAbandon_one hparts hst habandoned c⟩
  · exact State.settled_goesUp hformed hchild hparent hkids hnone hself hall ⟨hleave, hhold⟩ count kind c
  · exact State.recovered_goesUp hformed hchild hparent hkids hnone hself hall count

/-! Sent when done (R336, R341) -/

/-- DONE goes up once this device and its subtree are done. -/
theorem State.doneSend_sends (hroot : s.isRoot = false) (hsent : s.job.doneSent = false) (hdone : s.deviceDone = true)
    (hsets : s.setsDone = true) (hstream : s.streamRoot = false) (hsingle : ∀ p ∈ s.jobParts, (s.part p).single = none) :
    exec .doneSend s = .next (State.sendUp { s with job := { s.job with doneSent := true } }
      (.done s.job.tide (countOf (s.job.doneFrom.map fun d => d.2)) (max s.job.stepReq s.stepRequest))) := by
  have hnone : (s.jobParts.any fun p => (s.part p).single.isSome) = false :=
    List.any_eq_false.mpr fun p hp => by rw [hsingle p hp]; decide
  rw [exec_doneSend, execDoneSend, hroot, hsent, hdone, hsets, hnone]
  simp only [Bool.not_true, Bool.or_self, Bool.false_eq_true, if_false, hstream]

theorem flitsOfWords_channel (type ch src dst : Nat) (n : Nat) : ∀ (i : Nat) (ws : List Word),
    ∀ f ∈ flitsOfWords type ch src dst n i ws, f.channel = ch := by
  induction n with
  | zero => exact fun _ _ _ h => absurd h List.not_mem_nil
  | succ n ih =>
    intro i ws f hf
    simp only [flitsOfWords] at hf
    generalize (if type = 3 then 256 else 64) = per at hf
    split at hf
    · rw [List.mem_singleton.mp hf]
    · obtain rfl | hf := List.mem_cons.mp hf
      · rfl
      · exact ih _ _ _ hf

/-- The outcome table goes down by the urgent queue of every child's port. -/
theorem State.treeDown_outcome {s : State} {q : Nat} (h : q ∈ s.job.childPorts) (ws : List Word) :
    ∃ l, (s.treeDown 0xFFF1 ws).hport q = { s.hport q with urgent := (s.hport q).urgent ++ l } ∧ ∀ f ∈ l, f.channel = 0xFFF1 :=
  ⟨messageFlits 3 0xFFF1 0 (s.hport q).farRank ws,
    each_modHport_hport_of_mem (fun _ x => { x with urgent := x.urgent ++ messageFlits 3 0xFFF1 0 x.farRank ws }) _ s
      s.job.childPorts_nodup h, flitsOfWords_channel _ _ _ _ _ _ _⟩

theorem State.treeDown_sendsOnly (s : State) (ch : Nat) (ws : List Word) : SendsOnly s (s.treeDown ch ws) :=
  each_sendsOnly (fun q v => v.queueTree_sendsOnly q ch ws) _ _

/-- The state whose outcome table the root sends. -/
def State.withOutcome (s : State) : State := if s.streamRoot then s.formOutcome else s

theorem State.withOutcome_frame (s : State) : ∃ o b, s.withOutcome = { s with job := { s.job with outcome := o, outcomeSent := b } } := by
  unfold State.withOutcome
  split
  · exact ⟨_, _, rfl⟩
  · exact ⟨s.job.outcome, s.job.outcomeSent, rfl⟩

/-- CONFIRM_SEND of the root: its CONFIRM is sent, and leaves this device with this command where no device is below. -/
theorem State.confirmSend_sends {s : State} (hformed : s.job.formed = true) (hroot : s.isRoot = true)
    (hsent : s.job.confirmSent = false) (hdone : s.deviceDone = true) (hsets : s.setsDone = true) :
    ∃ s', exec .confirmSend s = .next s' ∧ s'.job.confirmSent = true ∧ s'.parts = s.parts ∧
      s'.job.confirmAt = (if s.job.childPorts = [] then some s.now else none) ∧
      (∀ q ∈ s.job.childPorts, ∃ l, (s'.hport q).urgent = (s.hport q).urgent ++ l ++
        s.copies q (.confirm s.job.tide s.now false {}) ∧ ∀ f ∈ l, f.channel = 0xFFF1) := by
  obtain ⟨o, b, hv⟩ := s.withOutcome_frame
  obtain ⟨w, hw⟩ : ∃ w, w = s.withOutcome.treeDown 0xFFF1 s.withOutcome.outcomeWords := ⟨_, rfl⟩
  obtain ⟨x, hx⟩ : ∃ x, x = ({ w with job := { w.job with
    confirmSent := true, confirmAt := if w.job.childPorts.isEmpty then some w.now else none } } : State) := ⟨_, rfl⟩
  have hnext : exec .confirmSend s = .next (x.sendDown (.confirm w.job.tide w.now false {})) := by
    rw [exec_confirmSend, execConfirmSend, if_neg (by simp [hformed, hroot, hsent, hdone, hsets]), hx, hw]
    rfl
  have hdown := s.withOutcome.treeDown_sendsOnly 0xFFF1 s.withOutcome.outcomeWords
  rw [← hw] at hdown
  have hjob : w.job = { s.job with outcome := o, outcomeSent := b } := by rw [hdown.job, hv]
  have hnow : w.now = s.now := by rw [hdown, hv]; rfl
  have htide : w.job.tide = s.job.tide := by rw [hjob]
  have hkids : w.job.childPorts = s.job.childPorts := by rw [hjob]; rfl
  have hout := x.sendDown_sendsOnly (.confirm s.job.tide s.now false {})
  rw [htide, hnow] at hnext
  refine ⟨_, hnext, ?_, ?_, ?_, fun q hq => ?_⟩
  · rw [hout.job, hx]
  · rw [hout.parts, hx]
    exact hdown.parts.trans (by rw [hv])
  · rw [hout.job, hx]
    simp only [hkids, hnow, List.isEmpty_iff]
  · obtain ⟨l, hport, hl⟩ := State.treeDown_outcome (s := s.withOutcome) (q := q) (by rw [hv]; exact hq)
      s.withOutcome.outcomeWords
    rw [← hw] at hport
    have hports : x.hport q = w.hport q := by rw [hx]; rfl
    have hsame : s.withOutcome.hport q = s.hport q := by rw [hv]; rfl
    have hcopies : x.copies q (.confirm s.job.tide s.now false {}) = s.copies q (.confirm s.job.tide s.now false {}) := by
      rw [State.copies, hports, hport, hsame, hx, hjob]
      rfl
    refine ⟨l, ?_, hl⟩
    rw [State.sendDown_hport_of_child (by rw [hx]; exact hkids ▸ hq), hcopies, hports, hport, hsame]

/-! Losses (R330, R334, R352, R440) -/

/-- What is lost is this member's parent: it is silent, or four copies from it were bad. -/
def State.parentLost (s : State) : Bool :=
  match s.job.parentPort with
  | none => false
  | some q => s.parentSilent || decide ((s.hport q).badCopies ≥ 4)

/-- The job without its tree, on the device's own clock. -/
def State.treeGone (s : State) : State :=
  { s.ownClock with job := { s.ownClock.job with cut := s.job.cut || s.parentLost, broken := true, treeLost := true } }

/-- The fault that the loss of the tree raises. -/
def State.treeFault (s : State) : State := s.treeGone.jobFault 0x0504 4 mgmtUnit s.job.lastTide .stop 6

theorem State.parentLost_of_silent {s : State} (h : s.parentSilent = true) : s.parentLost = true := by
  have hroot : s.isRoot = false := by
    rw [State.parentSilent, Bool.and_eq_true, Bool.not_eq_true'] at h
    exact h.1
  obtain ⟨q, hq⟩ := State.parentPort_of_not_root hroot
  rw [State.parentLost, hq, h]
  rfl

theorem State.treeTimeout_acts {s : State} (hformed : s.job.formed = true) (hlost : s.job.treeLost = false)
    (hloss : (s.copiesLost || s.parentSilent) = true) : exec .treeTimeout s = .next (State.goOn
      (each (s.treeFault.jobParts.filter fun p => (s.treeFault.part p).st = .abandoning && (s.treeFault.part p).settled)
        (fun p st => st.actOnAbandon p 2 6) s.treeFault)) := by
  rw [exec_treeTimeout, execTreeTimeout, if_neg (by simp [hformed, hlost, hloss])]
  rfl

theorem State.treeTimeout_same {s : State} (h : s.job.treeLost = true ∨ (s.copiesLost || s.parentSilent) = false) :
    exec .treeTimeout s = .next s := by
  rw [exec_treeTimeout, execTreeTimeout, if_pos]
  obtain h | h := h <;> simp [h]

/-- The tree is lost while the one partition of the job runs its tide: the run is to stop, and without its parent the member is
cut off. -/
theorem State.treeTimeout_loses {s : State} {p : Nat} (hformed : s.job.formed = true) (hlost : s.job.treeLost = false)
    (hloss : (s.copiesLost || s.parentSilent) = true) (hparts : s.jobParts = [p]) (hst : (s.part p).st = .open_)
    (hcause : (s.part p).cause = none) (hwaits : s.NothingWaits) :
    ∃ s', exec .treeTimeout s = .next s' ∧ s'.job.treeLost = true ∧ s'.job.broken = true ∧ s.eventCount < s'.eventCount ∧
      (s.parentSilent = true → s'.job.cut = true) ∧ (s'.part p).faultBell = true ∧ (s'.part p).st = .open_ ∧
      (∃ c, (s'.part p).cause = some c ∧ c.kind = .stop ∧ c.code = 0x0504) := by
  have hpart : s.treeGone.part p = s.part p := rfl
  have hlist : s.treeGone.jobParts = [p] := hparts
  have hnow : s.treeGone.jobParts.any s.treeGone.afterDone = false := by simp [hlist, State.afterDone, hpart, hst]
  have hcount : s.eventCount < s.treeFault.eventCount := State.jobFault_eventCount_lt hnow 0x0504 4 mgmtUnit s.job.lastTide .stop 6
  obtain ⟨hfst, hfbell, hfcause⟩ : (s.treeFault.part p).st = (s.part p).st ∧ (s.treeFault.part p).faultBell = true ∧
      (s.treeFault.part p).cause = worse (s.part p).cause
        (s.treeGone.ranked p { kind := .stop, code := 0x0504, unit := mgmtUnit, act := 6 }) :=
    State.jobFault_part hlist (by rw [hpart, hst]; rfl) 0x0504 4 mgmtUnit s.job.lastTide .stop 6
  have hjob : s.treeFault.job = s.treeGone.job := (s.treeGone.jobFault_keeps 0x0504 4 mgmtUnit s.job.lastTide .stop 6).1
  have hkept : SameWaits s s.treeFault := s.treeGone.jobFault_sameWaits 0x0504 4 mgmtUnit s.job.lastTide .stop 6
  have hnone : (s.treeFault.jobParts.filter fun p => (s.treeFault.part p).st = .abandoning && (s.treeFault.part p).settled) = [] := by
    refine List.filter_eq_nil_iff.mpr fun r hr => ?_
    have hone : r ∈ s.treeGone.jobParts := State.mem_jobParts_jobFault hr
    rw [hlist, List.mem_singleton] at hone
    simp [hone, hfst, hst]
  have hnext := State.treeTimeout_acts hformed hlost hloss
  rw [hnone, each, List.foldl_nil] at hnext
  have hstands := State.goOn_fabricStands (hkept.nothingWaits hwaits)
  refine ⟨_, hnext, ?_, ?_, Nat.lt_of_lt_of_le hcount hstands.count, fun hsilent => ?_, ?_, ?_, ?_⟩
  · exact congrArg Job.treeLost (hstands.job.trans hjob)
  · exact congrArg Job.broken (hstands.job.trans hjob)
  · refine (congrArg Job.cut (hstands.job.trans hjob)).trans ?_
    rw [State.treeGone, State.parentLost_of_silent hsilent]
    exact Bool.or_true _
  · rw [hstands.part, hfbell]
  · rw [hstands.part, hfst, hst]
  · rw [hstands.part, hfcause, hcause]
    exact ⟨_, rfl, rfl, rfl⟩

/-- FABRIC_CLOCK_UNLOCK: the device runs on its own oscillator, and the event waits only where a tide is done. -/
theorem State.clockUnlock_unlocks (s : State) : s.clockUnlock.job.clockLocked = false ∧ s.clockUnlock.job.onRecovered = false ∧
    s.clockUnlock.power.refOscillator = true ∧ (s.jobParts.any s.afterDone = false → s.eventCount < s.clockUnlock.eventCount) := by
  unfold State.clockUnlock
  simp only
  obtain ⟨v, hv⟩ : ∃ v, v = ({ s with job := { s.job with clockLocked := false, onRecovered := false },
                                      power := { s.power with refOscillator := true } } : State) := ⟨_, rfl⟩
  rw [← hv, (State.jobFault_keeps _ _ _ _ _ _ _).1, State.jobFault_power]
  refine ⟨by rw [hv], by rw [hv], by rw [hv], fun hnow => ?_⟩
  have hcount := State.jobFault_eventCount_lt (s := v) (by rw [hv]; exact hnow) 0x0505 4 (unitId 0xB 0)
  rw [hv] at hcount ⊢
  exact hcount _ _ _

theorem treeSendsAndLosses : Claims.TreeSendsAndLosses := by
  intro s
  refine ⟨fun q hformed hparent hsent hdone hsets hstream hsingle => ?_, fun hsent => ?_, fun hformed hroot hsent hdone hsets =>
      State.confirmSend_sends hformed hroot hsent hdone hsets, fun hsent => ?_,
    fun p hformed hlost hloss hparts hst hcause hheld => ?_, State.treeTimeout_same, fun hformed hlocked hroot => ?_,
    fun hrec => ?_, fun hrec => ?_⟩
  · have hnext := State.doneSend_sends (State.isRoot_of_parentPort hformed hparent) hsent hdone hsets hstream hsingle
    refine ⟨_, hnext, ?_, ?_, ?_⟩
    · rw [(State.sendUp_sendsOnly _ _).job]
    · rw [(State.sendUp_sendsOnly _ _).parts]
    · rw [State.sendUp_hport_of_parent (by exact hparent)]
      rfl
  · rw [exec_doneSend, execDoneSend, if_pos (by simp [hsent])]
  · rw [exec_confirmSend, execConfirmSend, if_pos (by simp [hsent])]
  · obtain ⟨hhold, hleave, -⟩ := hheld
    exact State.treeTimeout_loses hformed hlost hloss hparts hst hcause ⟨hleave, hhold⟩
  · refine ⟨s.clockUnlock, ?_, s.clockUnlock_unlocks⟩
    rw [exec_clockLockLoss, execClockLockLoss, if_pos (by simp [hformed, hlocked, hroot])]
  · rw [exec_referenceLoss, execReferenceLoss, if_neg (by simp [hrec])]
    split
    · next hin =>
      obtain ⟨-, hrecovered, hosc, -⟩ := s.clockUnlock_unlocks
      refine ⟨_, rfl, hrecovered, hosc, fun hfree => absurd hin ?_⟩
      simp [hfree]
    · exact ⟨_, rfl, rfl, rfl, fun _ => rfl⟩
  · rw [exec_referenceLoss, execReferenceLoss, if_pos (by simp [hrec])]

/-- Settles O43: what comes up the tree goes on by `State.sendUp` with the count of the subtree; what is lost is a fault of the
job. -/
theorem treeRecordsUpAndLosses : Obligations.TreeRecordsUpAndLosses := ⟨treeRecordsUp, treeSendsAndLosses⟩

end Sys2Proof.Machine
end

section
/-!
SUPPORT. Forming a job: identity beacons, the bound of a step, and the last step (`Obligations.JobForming`).
-/

namespace Sys2Proof.Machine

theorem exec_identityBeacon (s : State) (q : Nat) (b : Beacon) : exec (.identityBeacon q b) s = execIdentityBeacon q b s := rfl
theorem exec_jobFormStepTimeout (s : State) (stop : FormStop) :
    exec (.jobFormStepTimeout stop) s = execJobFormStepTimeout stop s := rfl
theorem exec_formationComplete (s : State) (clock : Nat) (agree : Bool) (links : List (Nat × Nat)) :
    exec (.formationComplete clock agree links) s = execFormationComplete clock agree links s := rfl

/-! The command that waits for the formation (R391, R413) -/

theorem State.finish_completes {s : State} {n : Nat} (h : (s.mb n).done = false) (st : Nat) (resp buf : List Byte) (d o : Nat) :
    ((s.finish n st resp buf d o).mb n).done = true ∧ ((s.finish n st resp buf d o).mb n).status = st := by
  rw [(State.finish_eventOnly h st resp buf d o).mb, State.complete_mb_self]
  exact ⟨rfl, rfl⟩

/-! Formation fails (R349, R413) -/

/-- The job no longer forms; one that a device joins again stays formed. -/
def State.notForming (s : State) : State :=
  { s with job := { s.job with formingStep := 0, formMbx := none, joining := false, formed := s.job.formed && s.job.joining } }

/-- The job no longer forms, and JOB_FORM_FAILED says why. -/
def State.formStopped (s : State) (step cause port : Nat) : State :=
  s.notForming.raiseDev 0x0511 3 mgmtUnit (step * 2 ^ 56 + cause * 2 ^ 48 + port * 2 ^ 40)

theorem State.formStopped_eventOnly (s : State) (step cause port : Nat) : EventOnly s.notForming (s.formStopped step cause port) :=
  s.notForming.raiseDev_eventOnly _ _ _ _

theorem State.formStopped_eventCount_lt (s : State) (step cause port : Nat) :
    s.eventCount < (s.formStopped step cause port).eventCount := s.notForming.raiseDev_eventCount_lt _ _ _ _

theorem State.formFail_of_none {s : State} (h : s.job.formMbx = none) (step cause port : Nat) :
    s.formFail step cause port = s.formStopped step cause port := by
  unfold State.formFail
  simp only [h]
  rfl

theorem State.formFail_of_some {s : State} {n : Nat} (h : s.job.formMbx = some n) (step cause port : Nat) :
    s.formFail step cause port =
      (s.formStopped step cause port).failWith n (if cause = 6 then stVersion else stHw) (step * 256 + cause) := by
  unfold State.formFail
  simp only [h]
  rfl

/-- The job no longer forms, whether a command waits for it or not. -/
theorem State.formFail_fabricStands (s : State) (step cause port : Nat) :
    FabricStands (s.formStopped step cause port) (s.formFail step cause port) := by
  cases h : s.job.formMbx with
  | none =>
    rw [State.formFail_of_none h]
    exact .refl _
  | some n =>
    rw [State.formFail_of_some h]
    exact State.finish_fabricStands _ _ _ _ _ _ _

theorem State.formFail_fails (s : State) (step cause port : Nat) : (s.formFail step cause port).job.formingStep = 0 ∧
    (s.formFail step cause port).job.formMbx = none ∧
    (s.formFail step cause port).job.formed = (s.job.formed && s.job.joining) ∧
    s.eventCount < (s.formFail step cause port).eventCount := by
  have hstands := s.formFail_fabricStands step cause port
  rw [hstands.job, (s.formStopped_eventOnly step cause port).job]
  exact ⟨rfl, rfl, rfl, Nat.lt_of_lt_of_le (s.formStopped_eventCount_lt step cause port) hstands.count⟩

/-- The command that waits for the formation fails. -/
theorem State.formFail_completes {s : State} {n : Nat} (hmbx : s.job.formMbx = some n) (hdone : (s.mb n).done = false)
    (step port : Nat) {cause : Nat} (hcause : cause ≠ 6) : ((s.formFail step cause port).mb n).done = true ∧
      ((s.formFail step cause port).mb n).status = stHw := by
  rw [State.formFail_of_some hmbx, if_neg hcause]
  refine State.finish_completes ?_ _ _ _ _ _
  rw [(s.formStopped_eventOnly step cause port).mb]
  exact hdone

/-! IDENTITY_BEACON (R348, R349, R424) -/

theorem trainPort_trains {x : HPort} (h : x.calFailed = false) (q : Nat) (b : Beacon) :
    (trainPort x q b).up = true ∧ (trainPort x q b).beacon = some b := by
  rw [trainPort, if_neg (by simp [h])]
  exact ⟨rfl, rfl⟩

/-- Taking its place changes no port and raises no event. -/
theorem State.takePlace_keeps (s : State) (q : Nat) (b : Beacon) : (∀ r, (s.takePlace q b).hport r = s.hport r) ∧
    (s.takePlace q b).eventCount = s.eventCount := by
  unfold State.takePlace
  simp only
  split <;> exact ⟨fun _ => rfl, rfl⟩

theorem State.takePlace_known {s : State} (h : 4 ≤ s.job.formingStep) (q : Nat) (b : Beacon) : s.takePlace q b = s := by
  unfold State.takePlace
  simp only
  rw [if_pos]
  simp [State.coordsKnown, h]

/-- The parent's coordinates give this device its own. -/
theorem State.takePlace_places {s : State} {q : Nat} {b : Beacon} {c : Nat × Nat × Nat} (hstep : s.job.formingStep < 4)
    (hc : c = s.job.stepFrom ((q + 3) % 6) b.i b.j b.k) (hparent : s.job.parentPortAt c.1 c.2.1 c.2.2 = some q) :
    (s.takePlace q b).job.formingStep = 4 ∧
      ((s.takePlace q b).job.i, (s.takePlace q b).job.j, (s.takePlace q b).job.k) = c := by
  have hunknown : s.coordsKnown = false := by simp [State.coordsKnown, hstep]
  unfold State.takePlace
  simp only [← hc]
  rw [if_neg (by simp [hunknown, hparent])]
  exact ⟨rfl, rfl⟩

section
variable {s : State} {q : Nat} (hstep : s.job.formingStep ≠ 0) (hneeds : s.job.needsPort q = true)
  (hshut : (s.hport q).shutting = false) (hcal : (s.hport q).calFailed = false)
include hstep hneeds hshut hcal

/-- The port trains, and the beacon of another job ends the formation. -/
theorem State.identityBeacon_otherJob {b : Beacon} (hid : b.jobId ≠ s.job.id) : exec (.identityBeacon q b) s =
    .next ((s.modHport q fun x => trainPort x q b).formFail 3 2 q) := by
  rw [exec_identityBeacon, execIdentityBeacon, if_neg (by simp [hneeds, hshut, hcal]),
    if_neg (by simp [State.rejoining, hstep]), if_neg hstep]
  exact if_pos hid

theorem State.identityBeacon_unplaced {b : Beacon} (hid : b.jobId = s.job.id) (hplaced : b.placed = false) :
    exec (.identityBeacon q b) s = .next (s.modHport q fun x => trainPort x q b) := by
  rw [exec_identityBeacon, execIdentityBeacon, if_neg (by simp [hneeds, hshut, hcal]),
    if_neg (by simp [State.rejoining, hstep]), if_neg hstep]
  exact (if_neg (not_not.mpr hid)).trans (if_pos (by rw [hplaced]; rfl))

section
variable {b : Beacon} (hid : b.jobId = s.job.id) (hplaced : b.placed = true) {t : State}
  (ht : t = (s.modHport q fun x => trainPort x q b).takePlace q b)
include hid hplaced ht

theorem State.identityBeacon_placed : execIdentityBeacon q b s = match t.duplicate with
    | some r => .next (t.formFail 4 3 r)
    | none => match t.miscabled with
      | some r => .next (t.formFail 4 2 r)
      | none => .next (t.modHport q fun x => { x with farRank := t.job.rankAt b.coords }) := by
  rw [execIdentityBeacon, if_neg (by simp [hneeds, hshut, hcal]), if_neg (by simp [State.rejoining, hstep]), if_neg hstep, ht]
  exact (if_neg (not_not.mpr hid)).trans (if_neg (by rw [hplaced]; decide))

/-- A neighbour that claims the coordinates of another member ends the formation. -/
theorem State.identityBeacon_duplicate {r : Nat} (hdup : t.duplicate = some r) :
    exec (.identityBeacon q b) s = .next (t.formFail 4 3 r) := by
  rw [exec_identityBeacon, State.identityBeacon_placed hstep hneeds hshut hcal hid hplaced ht, hdup]

/-- A neighbour in another place than its port's ends the formation. -/
theorem State.identityBeacon_miscabled {r : Nat} (hdup : t.duplicate = none) (hmis : t.miscabled = some r) :
    exec (.identityBeacon q b) s = .next (t.formFail 4 2 r) := by
  rw [exec_identityBeacon, State.identityBeacon_placed hstep hneeds hshut hcal hid hplaced ht, hdup, hmis]

/-- A neighbour in its place has its rank. -/
theorem State.identityBeacon_inPlace (hdup : t.duplicate = none) (hmis : t.miscabled = none) : ∃ s',
    exec (.identityBeacon q b) s = .next s' ∧ (s'.hport q).up = true ∧ (s'.hport q).beacon = some b ∧
      (s'.hport q).farRank = t.job.rankAt b.coords ∧ s'.job = t.job := by
  obtain ⟨hup, hbeacon⟩ := trainPort_trains hcal q b
  have hport : t.hport q = trainPort (s.hport q) q b := by
    rw [ht, (State.takePlace_keeps _ q b).1]
    exact State.modHport_hport_self _ _ _
  refine ⟨t.modHport q fun x => { x with farRank := t.job.rankAt b.coords }, ?_, ?_, ?_, ?_, rfl⟩
  · rw [exec_identityBeacon, State.identityBeacon_placed hstep hneeds hshut hcal hid hplaced ht, hdup, hmis]
  · rw [State.modHport_hport_self, hport, hup]
  · rw [State.modHport_hport_self, hport, hbeacon]
  · rw [State.modHport_hport_self]

end

end

/-! JOB_FORM_STEP_TIMEOUT (R349) -/

theorem State.jobFormStepTimeout_fails {s : State} (hstep : s.job.formingStep ≠ 0) (stop : FormStop) : ∃ step cause port,
    cause ≠ 6 ∧ exec (.jobFormStepTimeout stop) s = .next (s.formFail step cause port) := by
  rw [exec_jobFormStepTimeout, execJobFormStepTimeout, if_neg hstep]
  refine ⟨_, _, _, ?_, rfl⟩
  split
  · decide
  · split <;> decide

/-! FORMATION_COMPLETE (R331, R332, R348 to R351) -/

/-- D_hop exceeds 307.2 ns where RTT_max exceeds 554.4 ns (R331). -/
theorem dHop_gt_iff (rtt : Nat) : 30 < dHop rtt ↔ 554400 < rtt := by
  unfold dHop
  omega

theorem slowLink_none {links : List (Nat × Nat)} (h : ∀ l ∈ links, l.2 ≤ 554400) : slowLink links = none := by
  refine List.find?_eq_none.mpr fun l hl => ?_
  rw [decide_eq_true_eq, dHop_gt_iff]
  exact Nat.not_lt.mpr (h l hl)

theorem slowLink_some {links : List (Nat × Nat)} {q rtt : Nat} (h : (q, rtt) ∈ links) (hslow : 554400 < rtt) :
    ∃ l, slowLink links = some l := by
  refine Option.isSome_iff_exists.mp (List.find?_isSome.mpr ⟨(q, rtt), h, ?_⟩)
  rw [decide_eq_true_eq, dHop_gt_iff]
  exact hslow

/-- The timestamp clock stepped forward by `d` ns. -/
def State.steppedBy (s : State) (d : Nat) : State := { s with tsStep := s.tsStep + d }

theorem State.steppedBy_now (s : State) (d : Nat) : (s.steppedBy d).now = s.now + d := by
  simp only [State.steppedBy, State.now, Nat.add_assoc]

/-- The timestamp clock steps forward only, by an event. -/
theorem State.stepTime_steps (s : State) (target : Nat) : (∃ d, EventOnly (s.steppedBy d) (s.stepTime target)) ∧
    (s.stepTime target).now = max target s.now ∧ s.eventCount ≤ (s.stepTime target).eventCount := by
  have hsteps : s.stepTime target = if target - s.now = 0 then s
      else (s.steppedBy (target - s.now)).raiseDev 0x0513 0 mgmtUnit (target - s.now) := rfl
  rw [hsteps]
  split
  · next h => exact ⟨⟨0, rfl⟩, by omega, Nat.le_refl _⟩
  · next h =>
    have hevent := (s.steppedBy (target - s.now)).raiseDev_eventOnly 0x0513 0 mgmtUnit (target - s.now)
    refine ⟨⟨_, hevent⟩, ?_, Nat.le_of_lt ((s.steppedBy (target - s.now)).raiseDev_eventCount_lt _ _ _ _)⟩
    rw [hevent.now, State.steppedBy_now]
    omega

/-- The job as its formation ends at time `t`. -/
def Job.whenFormed (b : Job) (t : Nat) : Job :=
  let away := if b.joining then b.away.filter (· ≠ b.rank) else []
  { b with formed := true, formingStep := 0, formMbx := none, joining := false, left := false, joined := b.devices - away.length
           fabricEpoch := 1, clockLocked := true, onRecovered := !b.parentPort.isNone, away := away, broken := false, cut := false
           treeLost := false, beat := false, stopWanted := false, endWanted := false, abandoned := false, lastControl := t }

/-- The device on the job clock, with its timestamp stepped. -/
def State.onJobClock (s : State) (clock : Nat) : State :=
  s.stepTime (if s.job.parentPort.isNone then max clock s.now + 1000000 else clock)

/-- The state with the job formed, before its event and the completion of the command. -/
def State.jobFormed (s : State) (clock : Nat) : State :=
  { s.onJobClock clock with
    job := s.job.whenFormed (s.onJobClock clock).now
    power := { (s.onJobClock clock).power with refOscillator := s.job.parentPort.isNone } }

theorem State.jobFormed_now (s : State) (clock : Nat) : (s.jobFormed clock).now =
    if s.job.parentPort.isNone then max clock s.now + 1000000 else max clock s.now := by
  have hnow : (s.jobFormed clock).now = (s.onJobClock clock).now := rfl
  obtain ⟨-, hstep, -⟩ := s.stepTime_steps (if s.job.parentPort.isNone then max clock s.now + 1000000 else clock)
  rw [hnow, State.onJobClock, hstep]
  split
  · omega
  · rfl

theorem State.jobFormed_eventCount_le (s : State) (clock : Nat) : s.eventCount ≤ (s.jobFormed clock).eventCount :=
  (s.stepTime_steps _).2.2

theorem State.jobFormed_mb (s : State) (clock n : Nat) : (s.jobFormed clock).mb n = s.mb n := by
  obtain ⟨⟨m, hevent⟩, -⟩ := s.stepTime_steps (if s.job.parentPort.isNone then max clock s.now + 1000000 else clock)
  exact hevent.mb n

section
variable {s : State} (hstep : s.job.formingStep ≠ 0) (hreached : s.stepReached = 5)
include hstep hreached

/-- A link that is too slow ends the formation. -/
theorem State.formationComplete_slow {links : List (Nat × Nat)} {l : Nat × Nat} (h : slowLink links = some l) (clock : Nat)
    (agree : Bool) : exec (.formationComplete clock agree links) s = .next (s.formFail 6 4 l.1) := by
  rw [exec_formationComplete, execFormationComplete, if_neg (by simp [hstep, hreached])]
  simp only [h]

/-- Epochs that do not agree end the formation. -/
theorem State.formationComplete_disagree {links : List (Nat × Nat)} (hlinks : slowLink links = none) {agree : Bool}
    (h : (agree && s.neighboursAgree) = false) (clock : Nat) :
    exec (.formationComplete clock agree links) s = .next (s.formFail 7 6 0) := by
  rw [exec_formationComplete, execFormationComplete, if_neg (by simp [hstep, hreached])]
  simp only [hlinks]
  refine if_pos ?_
  rw [← Bool.not_and, h]
  rfl

section
variable {links : List (Nat × Nat)} (hlinks : slowLink links = none) (hagree : s.neighboursAgree = true)
include hlinks hagree

/-- A job that forms is announced, and the command that waits completes. -/
theorem State.formationComplete_forms (hjoin : s.job.joining = false) (clock : Nat) : ∃ pay,
    exec (.formationComplete clock true links) s =
      .next (((s.jobFormed clock).raiseDev 0x0510 0 mgmtUnit pay).okHeld s.job.formMbx []) := by
  rw [exec_formationComplete, execFormationComplete, if_neg (by simp [hstep, hreached])]
  simp only [hlinks]
  rw [if_neg (by simp [hagree])]
  simp only [hjoin, Bool.false_eq_true, if_false]
  refine ⟨_, congrArg (fun v : State => Host.Outcome.next (v.okHeld s.job.formMbx [])) (congrArg (fun v : State => v.raiseDev _ _ _ _) ?_)⟩
  unfold State.jobFormed Job.whenFormed
  rw [hjoin]
  rfl

/-- A job that this device joins again hears of it. -/
theorem State.formationComplete_joins (hjoin : s.job.joining = true) (clock : Nat) : ∃ u,
    SendsOnly ((s.jobFormed clock).memberEvent s.job.rank 1) u ∧
    exec (.formationComplete clock true links) s = .next (u.okHeld s.job.formMbx []) := by
  rw [exec_formationComplete, execFormationComplete, if_neg (by simp [hstep, hreached])]
  simp only [hlinks]
  rw [if_neg (by simp [hagree])]
  simp only [hjoin, if_true]
  obtain ⟨w, hw⟩ : ∃ w, w = (s.jobFormed clock).memberEvent s.job.rank 1 := ⟨_, rfl⟩
  refine ⟨if s.job.parentPort.isNone then w.sendDown (.member w.jobTide s.job.rank 1)
    else w.sendUp (.member w.jobTide s.job.rank 1), ?_, ?_⟩
  · rw [← hw]
    split
    · exact w.sendDown_sendsOnly _
    · exact w.sendUp_sendsOnly _
  · rw [hw]
    unfold State.jobFormed Job.whenFormed
    rw [hjoin]
    rfl

/-- A job that has formed: every device is in it that is not away, the clock is locked, and the timestamp is the job clock. -/
theorem State.formationComplete_formed (hjoin : s.job.joining = false) (clock : Nat) : ∃ s',
    exec (.formationComplete clock true links) s = .next s' ∧ s'.job = s.job.whenFormed (s.jobFormed clock).now ∧
      s'.now = (s.jobFormed clock).now ∧
      (∀ n, s.job.formMbx = some n → (s.mb n).done = false → (s'.mb n).done = true ∧ (s'.mb n).status = 0) := by
  obtain ⟨pay, hnext⟩ := State.formationComplete_forms hstep hreached hlinks hagree hjoin clock
  have hevent := (s.jobFormed clock).raiseDev_eventOnly 0x0510 0 mgmtUnit pay
  have hstands := ((s.jobFormed clock).raiseDev 0x0510 0 mgmtUnit pay).okHeld_fabricStands s.job.formMbx []
  refine ⟨_, hnext, hstands.job.trans hevent.job, hstands.now.trans hevent.now, fun n hn hdone => ?_⟩
  rw [hn]
  refine State.finish_completes ?_ stOk [] [] 0 0xFFFF
  rw [hevent.mb, State.jobFormed_mb, hdone]

/-- A job that this device has joined again: its event is counted. -/
theorem State.formationComplete_joined (hjoin : s.job.joining = true) (clock : Nat) : ∃ s',
    exec (.formationComplete clock true links) s = .next s' ∧ s'.job = s.job.whenFormed (s.jobFormed clock).now ∧
      s.eventCount < s'.eventCount := by
  obtain ⟨u, hsent, hnext⟩ := State.formationComplete_joins hstep hreached hlinks hagree hjoin clock
  have hevent := (s.jobFormed clock).memberEvent_eventOnly s.job.rank 1
  have hcount := (s.jobFormed clock).memberEvent_eventCount_lt s.job.rank 1
  have hstands := u.okHeld_fabricStands s.job.formMbx []
  refine ⟨_, hnext, hstands.job.trans (hsent.job.trans hevent.job), ?_⟩
  calc s.eventCount ≤ (s.jobFormed clock).eventCount := s.jobFormed_eventCount_le clock
    _ < u.eventCount := by rw [hsent.eventCount]; exact hcount
    _ ≤ _ := hstands.count

end

end

/-- Settles O44: a formation that fails ends as `State.formFail` does; one that goes on trains its ports, takes its place, and
forms the job with `Job.whenFormed`. -/
theorem jobForming : Obligations.JobForming := by
  intro s hstep
  refine ⟨fun q b hcal => ?_, fun q b hneeds hshut hcal => ⟨fun hid => ?_, fun hid hplaced => ?_,
    fun hid hplaced t c ht hc => ⟨?_, fun hearly hparent => ?_, fun r hdup => ?_, fun r hdup hmis => ?_, fun hdup hmis =>
      State.identityBeacon_inPlace hstep hneeds hshut hcal hid hplaced ht hdup hmis⟩⟩, fun stop => ?_,
    fun clock links hreached hlinks => ⟨fun hagree hjoin => ?_, fun hagree hjoin => ?_, fun agree hagree => ?_⟩,
    fun clock agree links q rtt hreached hmem hslow => ?_⟩
  · rw [exec_identityBeacon, execIdentityBeacon, if_pos (by simp [hcal])]
  · obtain ⟨hforming, hmbx, -, hcount⟩ := (s.modHport q fun x => trainPort x q b).formFail_fails 3 2 q
    exact ⟨_, State.identityBeacon_otherJob hstep hneeds hshut hcal hid, hforming, hmbx, hcount⟩
  · obtain ⟨hup, hbeacon⟩ := trainPort_trains hcal q b
    refine ⟨_, State.identityBeacon_unplaced hstep hneeds hshut hcal hid hplaced, ?_, ?_, rfl⟩
    · rw [State.modHport_hport_self, hup]
    · rw [State.modHport_hport_self, hbeacon]
  · intro hknown
    rw [ht, State.takePlace_known (by exact hknown)]
    rfl
  · rw [ht]
    exact State.takePlace_places (s := s.modHport q fun x => trainPort x q b) hearly hc hparent
  · obtain ⟨hforming, hmbx, -, hcount⟩ := t.formFail_fails 4 3 r
    refine ⟨_, State.identityBeacon_duplicate hstep hneeds hshut hcal hid hplaced ht hdup, hforming, hmbx, ?_⟩
    rwa [ht, (State.takePlace_keeps _ q b).2, State.modHport_eventCount, ← ht] at hcount
  · obtain ⟨hforming, hmbx, -, hcount⟩ := t.formFail_fails 4 2 r
    refine ⟨_, State.identityBeacon_miscabled hstep hneeds hshut hcal hid hplaced ht hdup hmis, hforming, hmbx, ?_⟩
    rwa [ht, (State.takePlace_keeps _ q b).2, State.modHport_eventCount, ← ht] at hcount
  · obtain ⟨step, cause, port, hcause, hnext⟩ := State.jobFormStepTimeout_fails hstep stop
    obtain ⟨hforming, hmbx, -, hcount⟩ := s.formFail_fails step cause port
    exact ⟨_, hnext, hforming, hmbx, hcount, fun n hn hdone => State.formFail_completes hn hdone step port hcause⟩
  · obtain ⟨s', hnext, hjob, hnow, hmbx⟩ := State.formationComplete_formed hstep hreached (slowLink_none hlinks) hagree hjoin clock
    rw [State.jobFormed_now] at hnow
    have haway : (if s.job.joining then s.job.away.filter (· ≠ s.job.rank) else []) = [] := by rw [hjoin]; rfl
    refine ⟨s', hnext, by rw [hjob]; rfl, by rw [hjob]; rfl, ?_, by rw [hjob]; rfl, ?_, by rw [hjob]; rfl, ?_, ?_, ?_, ?_, hmbx⟩
    · rw [hjob, Job.whenFormed, haway]
      rfl
    · rw [hjob, Job.whenFormed, haway]
    · rw [hjob, Job.whenFormed, Option.not_isNone]
    · rw [hnow]
      split <;> omega
    · intro hparent
      rw [hnow, hparent]
      rfl
    · intro hparent
      rw [hnow, Option.isNone_eq_false_iff.mpr hparent]
      rfl
  · obtain ⟨s', hnext, hjob, hcount⟩ := State.formationComplete_joined hstep hreached (slowLink_none hlinks) hagree hjoin clock
    have haway : s'.job.away = s.job.away.filter (· ≠ s.job.rank) := by rw [hjob, Job.whenFormed, hjoin]; rfl
    refine ⟨s', hnext, by rw [hjob]; rfl, by rw [hjob]; rfl, haway, ?_, by rw [hjob]; rfl, hcount⟩
    rw [hjob]
    rfl
  · obtain ⟨hforming, -, hformed, hcount⟩ := s.formFail_fails 7 6 0
    exact ⟨_, State.formationComplete_disagree hstep hreached (slowLink_none hlinks) hagree clock, hforming, hformed, hcount⟩
  · obtain ⟨l, hl⟩ := slowLink_some hmem hslow
    obtain ⟨hforming, -, hformed, hcount⟩ := s.formFail_fails 6 4 l.1
    exact ⟨_, State.formationComplete_slow hstep hreached hl clock agree, hforming, hformed, hcount⟩

end Sys2Proof.Machine
end

section
/-!
SUPPORT. Flits in and out of a port (`Obligations.HikolinkFlits`).
-/

namespace Sys2Proof.Machine

theorem exec_hikolinkFlitReceive (s : State) (q : Nat) (f : HFlit) (bad : Bool) (k : Nat) :
    exec (.hikolinkFlitReceive q f bad k) s = execHikolinkFlitReceive q f bad k s := rfl
theorem exec_lossOfSignal (s : State) (q : Nat) : exec (.lossOfSignal q) s = execLossOfSignal q s := rfl
theorem exec_slotSend (s : State) (q : Nat) : exec (.slotSend q) s = execSlotSend q s := rfl

/-! A flit counts (R318, R319) -/

/-- A port after a flit, `bad` or not, of the type `ty` that its slot gives, with `k` corrected symbols. -/
def HPort.counted (y : HPort) (ty : Nat) (bad : Bool) (k : Nat) : HPort :=
  { y with
    rxSeq := (y.rxSeq + 1) % 2 ^ 48, fecCorrected := y.fecCorrected + k, badRun := if bad then y.badRun + 1 else 0
    badCopies := if ty ≠ 2 then y.badCopies else if bad then y.badCopies + 1 else 0
    badTide := y.badTide + b01 bad, badTotal := y.badTotal + b01 bad }

/-- The state with a flit counted on its port. -/
def State.flitCounted (s : State) (q : Nat) (f : HFlit) (bad : Bool) (k : Nat) : State :=
  s.modHport q fun y => y.counted (s.slotType q f) bad k

theorem State.flitCounted_hport (s : State) (q : Nat) (f : HFlit) (bad : Bool) (k : Nat) :
    (s.flitCounted q f bad k).hport q = (s.hport q).counted (s.slotType q f) bad k := State.modHport_hport_self _ _ _

section
variable {s : State} {q : Nat} (hup : (s.hport q).up = true)
include hup

/-- A flit of a known type with the CRC of its place is good. -/
theorem State.hikolinkFlitReceive_good {f : HFlit} (htype : f.type < 6)
    (hcrc : f.crc = flitCrc f (s.hport q).rxSeq (s.hport q).farRank (s.hport q).farPort) (k : Nat) :
    exec (.hikolinkFlitReceive q f false k) s = .next ((s.flitCounted q f false k).goodFlit q f) := by
  have hbad : (false || decide (f.crc ≠ flitCrc f (s.hport q).rxSeq (s.hport q).farRank (s.hport q).farPort)
      || decide (f.type ≥ 6)) = false := by simp [← hcrc, htype]
  rw [exec_hikolinkFlitReceive, execHikolinkFlitReceive]
  simp only [hup, hbad, Bool.not_true, Bool.not_false, Bool.false_eq_true, if_false, if_true]
  rfl

/-- The 16th bad flit in a row brings the port down. -/
theorem State.hikolinkFlitReceive_bad (f : HFlit) (k : Nat) : exec (.hikolinkFlitReceive q f true k) s =
    .next (if (s.hport q).badRun + 1 = 16 then ((s.flitCounted q f true k).badFlit q f).linkDown q 0
      else (s.flitCounted q f true k).badFlit q f) := by
  rw [exec_hikolinkFlitReceive, execHikolinkFlitReceive]
  simp only [hup, Bool.true_or, Bool.not_true, Bool.false_eq_true, if_false, if_true]
  rfl

end

/-! Where a good DATA flit waits (R322, R323, R343) -/

theorem State.goodFlit_data {s : State} {q : Nat} {f : HFlit} (h : f.type = 1) :
    s.goodFlit q f = if f.dst = s.job.rank then s.holdReceived q f else s.holdForward q f := by
  unfold State.goodFlit
  simp only [h]

/-- The channels of plans lie apart from the one of verdict sets. -/
theorem State.planPart_channel {s : State} {ch p : Nat} (h : s.planPart ch = some p) : ch ≠ 0xFFE0 := by
  rintro rfl
  simp [State.planPart] at h

theorem Partition.planFlit_rx (y : Partition) (k : Nat) (f : HFlit) :
    (tget {} (y.planFlit k f).plans k).rx = (tget {} y.plans k).rx ++ [f] := by
  unfold Partition.planFlit
  simp only [tget_tset_self]

/-- A plan's flit comes into its staging. -/
theorem State.holdReceived_plan {s : State} {q p : Nat} {f : HFlit} (h : s.planPart f.channel = some p) :
    s.holdReceived q f = s.modPart p fun y => y.planFlit (f.channel - 0xFF00) f := by
  unfold State.holdReceived
  rw [if_neg (State.planPart_channel h)]
  simp only [h]

/-- A flit of another channel comes into the port's receive staging, where there is room. -/
theorem State.holdReceived_staged {s : State} {q : Nat} {f : HFlit} (hset : f.channel ≠ 0xFFE0)
    (hplan : s.planPart f.channel = none) (hroom : (s.hport q).received.length < 1024) :
    s.holdReceived q f = s.modHport q fun x => { x with received := x.received ++ [f] } := by
  unfold State.holdReceived
  rw [if_neg hset]
  simp only [hplan]
  exact if_neg (Nat.not_le.mpr hroom)

/-- A flit to be forwarded waits with its arrival time, where there is room. -/
theorem State.holdForward_waits {s : State} {q : Nat} {f : HFlit} (h : s.forwards q f.channel = true)
    (hroom : (s.hport q).forward.length < 512) :
    s.holdForward q f = s.modHport q fun x => { x with forward := x.forward ++ [(s.time, f)] } := by
  unfold State.holdForward
  rw [if_neg (by simp [h]), if_neg (Nat.not_le.mpr hroom)]

/-! What a bad flit leaves of its port (R319, R323) -/

theorem State.jobFault_hport (s : State) (code sev unit payload : Nat) (kind : FaultKind) (act j : Nat) :
    (s.jobFault code sev unit payload kind act).hport j = s.hport j := by
  rw [State.hport, (s.jobFault_keeps code sev unit payload kind act).2, State.hport]

theorem State.overrun_hport (s : State) (q ch cause j : Nat) : (s.overrun q ch cause).hport j = s.hport j :=
  s.jobFault_hport _ _ _ _ _ _ _

theorem State.flitLost_hport (s : State) (q : Nat) (f : HFlit) (what j : Nat) : (s.flitLost q f what).hport j = s.hport j :=
  s.jobFault_hport _ _ _ _ _ _ _

theorem State.holdForward_hport (s : State) (q : Nat) (f : HFlit) :
    ∃ l, (s.holdForward q f).hport q = { s.hport q with forward := l } := by
  unfold State.holdForward
  split
  · exact ⟨_, s.overrun_hport _ _ _ _⟩
  · split
    · exact ⟨_, s.overrun_hport _ _ _ _⟩
    · exact ⟨_, State.modHport_hport_self _ _ _⟩

/-- A bad flit changes no more of its port than the flits to be forwarded. -/
theorem State.badFlit_hport (s : State) (q : Nat) (f : HFlit) : ∃ l, (s.badFlit q f).hport q = { s.hport q with forward := l } := by
  unfold State.badFlit
  repeat' split
  · exact s.holdForward_hport q _
  · exact ⟨_, s.flitLost_hport _ _ _ _⟩
  · exact s.holdForward_hport q _
  · exact ⟨_, s.flitLost_hport _ _ _ _⟩
  · exact ⟨_, s.flitLost_hport _ _ _ _⟩
  · exact ⟨_, rfl⟩

/-- A bad flit is counted, and leaves what the port has received. -/
theorem State.badFlit_counts {s : State} {q : Nat} (hup : (s.hport q).up = true) (f : HFlit) (k : Nat) : ∃ s',
    exec (.hikolinkFlitReceive q f true k) s = .next s' ∧
      (s'.hport q).rxSeq = ((s.hport q).rxSeq + 1) % 2 ^ 48 ∧ (s'.hport q).badRun = (s.hport q).badRun + 1 ∧
      (s'.hport q).badTotal = (s.hport q).badTotal + 1 ∧ (s'.hport q).received = (s.hport q).received ∧
      (s'.hport q).up = decide ((s.hport q).badRun ≠ 15) := by
  have hnext := State.hikolinkFlitReceive_bad hup f k
  obtain ⟨l, hport⟩ := (s.flitCounted q f true k).badFlit_hport q f
  rw [State.flitCounted_hport] at hport
  generalize (s.flitCounted q f true k).badFlit q f = v at hnext hport
  refine ⟨_, hnext, ?_⟩
  by_cases hrun : (s.hport q).badRun + 1 = 16
  · have hdown : (s.hport q).badRun = 15 := by omega
    rw [if_pos hrun, State.linkDown_hport, if_pos rfl, hport, hdown]
    exact ⟨rfl, congrArg (· + 1) hdown, rfl, rfl, rfl⟩
  · have hstays : (s.hport q).badRun ≠ 15 := by omega
    rw [if_neg hrun, hport, decide_eq_true hstays]
    exact ⟨rfl, rfl, rfl, rfl, hup⟩

/-! A link lost (R319, R351, R352) -/

/-- A lost link raises its event at once where no tide of this device is done. -/
theorem State.linkDown_eventCount_lt {s : State} (h : s.jobParts.any s.afterDone = false) (q cause : Nat) :
    s.eventCount < (s.linkDown q cause).eventCount := by
  unfold State.linkDown
  simp only
  generalize hv : s.modHport q _ = v
  have hcount : v.eventCount = s.eventCount := by rw [← hv]; rfl
  have hnow : v.jobParts.any v.afterDone = false := by rw [← hv]; exact h
  split
  · generalize hw : State.lostLink _ _ q = w
    have hsame : w.eventCount = v.eventCount ∧ w.jobParts.any w.afterDone = v.jobParts.any v.afterDone := by
      rw [← hw]
      split <;> exact ⟨rfl, rfl⟩
    rw [← hcount, ← hsame.1]
    exact State.jobFault_eventCount_lt (hsame.2.trans hnow) _ _ _ _ _ _
  · rw [← hcount]
    exact v.raiseDev_eventCount_lt _ _ _ _

theorem hikolinkFlitsReceived : Claims.HikolinkFlitsReceived := by
  intro s q f k
  refine ⟨fun hdown => ⟨fun bad => ?_, ?_⟩, fun hup => ⟨fun htype hcrc => ?_, State.badFlit_counts hup f k, ?_⟩⟩
  · rw [exec_hikolinkFlitReceive, execHikolinkFlitReceive]
    exact if_pos (by rw [hdown]; rfl)
  · rw [exec_lossOfSignal, execLossOfSignal, if_neg (by simp [hdown])]
  · have hnext := State.hikolinkFlitReceive_good hup (by omega) hcrc k
    have hport := s.flitCounted_hport q f false k
    have hpart : ∀ p, (s.flitCounted q f false k).part p = s.part p := fun _ => rfl
    have hfwd : (s.flitCounted q f false k).forwards q f.channel = s.forwards q f.channel := rfl
    have hplan : (s.flitCounted q f false k).planPart f.channel = s.planPart f.channel := rfl
    have hjob : (s.flitCounted q f false k).job = s.job := rfl
    have htime : (s.flitCounted q f false k).time = s.time := rfl
    have hevents : (s.flitCounted q f false k).eventCount = s.eventCount := rfl
    generalize s.flitCounted q f false k = v at hnext hport hpart hfwd hplan hjob htime hevents
    rw [State.goodFlit_data htype, hjob] at hnext
    refine ⟨fun p hdst hp => ?_, fun hdst hset hp hroom => ?_, fun hdst hforward hroom => ?_⟩
    · rw [if_pos hdst, State.holdReceived_plan (hplan.trans hp)] at hnext
      refine ⟨_, hnext, ?_, ?_, ?_⟩
      · rw [State.planState, State.modPart_part_self, Partition.planFlit_rx, hpart, State.planState]
      · rw [State.modPart_hport, hport]
        rfl
      · rw [State.modPart_hport, hport]
        rfl
    · rw [if_pos hdst, State.holdReceived_staged hset (hplan.trans hp) (by rw [hport]; exact hroom)] at hnext
      refine ⟨_, hnext, ?_, ?_, ?_, ?_, hevents, hjob⟩ <;> rw [State.modHport_hport_self, hport] <;> rfl
    · rw [if_neg hdst, State.holdForward_waits (hfwd.trans hforward) (by rw [hport]; exact hroom), htime] at hnext
      refine ⟨_, hnext, ?_, ?_, hjob⟩ <;> rw [State.modHport_hport_self, hport] <;> rfl
  · refine ⟨s.linkDown q 1, ?_, ?_, fun hnow => State.linkDown_eventCount_lt hnow q 1, fun p hp => ?_,
      fun hformed hneeds haway => ?_⟩
    · rw [exec_lossOfSignal, execLossOfSignal, if_pos hup]
    · rw [State.linkDown_hport, if_pos rfl]
    · rw [State.linkDown_hport, if_neg hp]
    · rw [(s.linkDown_job q 1).2, hformed, hneeds, haway]
      exact Bool.or_true _

/-! A flit on the wire (R316 to R318, R351) -/

theorem flitCrc_crc (f : HFlit) (w : Word) (n rank port : Nat) : flitCrc { f with crc := w } n rank port = flitCrc f n rank port := by
  simp only [flitCrc, flitBytes, flitCount]

/-- The flit on the wire carries the CRC of its own bytes. -/
theorem State.wired_crc (s : State) (q : Nat) (f : HFlit) :
    (s.wired q f).crc = flitCrc (s.wired q f) (s.hport q).txSeq s.job.rank q := (flitCrc_crc _ _ _ _ _).symm

/-- Where the tide, the rank and the sequence number stand, a flit goes on the wire alike. -/
theorem State.wired_congr {s t : State} {q : Nat} (htide : t.job.slotTide = s.job.slotTide) (hrank : t.job.rank = s.job.rank)
    (hseq : (t.hport q).txSeq = (s.hport q).txSeq) (f : HFlit) : t.wired q f = s.wired q f := by
  simp only [State.wired, htide, hrank, hseq]

/-- What port `q` puts on the wire for the flit `f`: IDLE toward a neighbour that absorbs. -/
def State.emitted (s : State) (q : Nat) (f : HFlit) : HFlit :=
  s.wired q (if (s.hport q).absorbing && decide (f.type ≠ 0) then s.idleFlit q else f)

/-- A port that is up, or absorbs nothing, puts a flit on the wire and counts it. -/
theorem State.emit_hport {s : State} {q : Nat} (h : (!(s.hport q).up && (s.hport q).absorbing) = false) (f : HFlit) :
    (s.emit q f).hport q = { s.hport q with
      absorbed := (s.hport q).absorbed + b01 ((s.hport q).absorbing && decide (f.type ≠ 0))
      sent := (s.hport q).sent ++ [s.emitted q f], txSeq := ((s.hport q).txSeq + 1) % 2 ^ 48 } := by
  unfold State.emit
  simp only
  generalize hv : (if (f.channel = 0xFFE0 && f.ends && decide (f.src = s.job.rank)) = true then _ else s : State) = v
  have hport : v.hport q = s.hport q := by rw [← hv]; split <;> rfl
  have hwired : v.wired q = s.wired q := by rw [← hv]; split <;> rfl
  have hidle : v.idleFlit q = s.idleFlit q := by rw [← hv]; split <;> rfl
  rw [hport, h, if_neg Bool.false_ne_true, State.modHport_hport_self, hport, hwired, hidle]
  rfl

/-- A flit on the wire may be the last of this device's verdict set; of the job no more changes. -/
theorem State.emit_job (s : State) (q : Nat) (f : HFlit) : (∃ b, (s.emit q f).job = { s.job with setSent := b }) ∧
    (f.channel ≠ 0xFFE0 → (s.emit q f).job = s.job) := by
  unfold State.emit
  simp only
  generalize hv : (if (f.channel = 0xFFE0 && f.ends && decide (f.src = s.job.rank)) = true then _ else s : State) = v
  have hemit : ∀ (b : Prop) [Decidable b] (g h : HPort → HPort), (if b then v.modHport q g else v.modHport q h).job = v.job :=
    fun b _ g h => by split <;> rfl
  rw [hemit, ← hv]
  refine ⟨?_, fun hset => ?_⟩
  · split
    · exact ⟨true, rfl⟩
    · exact ⟨s.job.setSent, rfl⟩
  · rw [if_neg (by simp [hset])]

/-! A slot's flit (R320, R321, R335) -/

/-- A port without its queues. -/
def HPort.core (x : HPort) : HPort := { x with forward := [], staged := [], urgent := [], bulk := [] }

/-- The ports but for their queues, the job and the clock stand. -/
structure SameCores (s t : State) : Prop where
  job : t.job = s.job
  now : t.now = s.now
  core : ∀ q, (t.hport q).core = (s.hport q).core

theorem SameCores.refl (s : State) : SameCores s s := ⟨rfl, rfl, fun _ => rfl⟩

/-- What does not read the queues is as before. -/
theorem SameCores.field {s t : State} (h : SameCores s t) {α : Type} {g : HPort → α} (hg : ∀ x : HPort, g x.core = g x) (q : Nat) :
    g (t.hport q) = g (s.hport q) := by rw [← hg (t.hport q), h.core, hg]

theorem State.modHport_sameCores (s : State) (q : Nat) {f : HPort → HPort} (hf : ∀ x : HPort, (f x).core = x.core) :
    SameCores s (s.modHport q f) := by
  refine ⟨rfl, rfl, fun j => ?_⟩
  by_cases hj : j = q
  · subst hj
    rw [State.modHport_hport_self, hf]
  · rw [State.modHport_hport_ne _ _ hj]

theorem State.controlSlot_sameCores (s : State) (q : Nat) : SameCores s (s.controlSlot q).1 := by
  unfold State.controlSlot
  repeat' split
  all_goals dsimp only
  · exact s.modHport_sameCores q fun _ => rfl
  · exact s.modHport_sameCores q fun _ => rfl
  · exact .refl s

theorem State.dataSlot_sameCores (s : State) (v q : Nat) : SameCores s (s.dataSlot v q).1 := by
  unfold State.dataSlot
  dsimp only
  repeat' split
  all_goals dsimp only
  · exact .refl s
  · exact s.modHport_sameCores q fun _ => rfl
  · exact .refl s
  · exact s.modHport_sameCores _ fun _ => rfl
  · exact .refl s
  · exact .refl s

theorem State.controlSlot_urgent {s : State} {q : Nat} {f : HFlit} {r : List HFlit} (h : (s.hport q).urgent = f :: r) :
    s.controlSlot q = (s.modHport q fun x => { x with urgent := r }, f) := by
  unfold State.controlSlot
  simp only [h]

theorem State.controlSlot_bulk {s : State} {q : Nat} {f : HFlit} {r : List HFlit} (hnone : (s.hport q).urgent = [])
    (h : (s.hport q).bulk = f :: r) : s.controlSlot q = (s.modHport q fun x => { x with bulk := r }, f) := by
  unfold State.controlSlot
  simp only [hnone, h]

theorem State.dataSlot_idle {s : State} {v : Nat} (h : slotKind v = 0) (q : Nat) : s.dataSlot v q = (s, s.idleFlit q) := by
  unfold State.dataSlot
  simp only [h]

theorem State.dataSlot_local {s : State} {v q : Nat} {f : HFlit} {r : List HFlit} (hkind : slotKind v = 1)
    (hstaged : (s.hport q).staged = f :: r) (hchan : f.channel = slotChan v) :
    s.dataSlot v q = (s.modHport q fun x => { x with staged := r }, f) := by
  unfold State.dataSlot
  simp only [hkind, hstaged, takeFirst, hchan, decide_true, if_true]

/-- The flit of the slot that is due, and the state without it. -/
def State.slotFlit (s : State) (q : Nat) : State × HFlit :=
  if (s.hport q).slot % 16 = 0 then s.controlSlot q else s.dataSlot (s.slotEntry q ((s.hport q).slot % 4096)) q

theorem State.slotFlit_sameCores (s : State) (q : Nat) : SameCores s (s.slotFlit q).1 := by
  unfold State.slotFlit
  split
  · exact s.controlSlot_sameCores q
  · exact s.dataSlot_sameCores _ q

/-! The slot's flit leaves (R317, R320, R336) -/

/-- A slot's flit goes on the wire, its instant fixed, and the slot has passed. -/
def State.slotLeaves (s : State) (q : Nat) (f : HFlit) : State :=
  ((s.fixInstant f).1.modHport q fun y => { y with slot := y.slot + 1 }).emit q (s.fixInstant f).2

theorem State.slotSend_leaves {s : State} {q : Nat} (hbeacon : s.beaconDue q = false) (hup : (s.hport q).up = true) :
    exec (.slotSend q) s = .next ((s.slotFlit q).1.slotLeaves q (s.slotFlit q).2) := by
  have hslot : (s.hport q).slot % 4096 % 16 = (s.hport q).slot % 16 := by omega
  rw [exec_slotSend, execSlotSend]
  simp only [hbeacon, hup, hslot, Bool.not_true, Bool.false_and, Bool.false_eq_true, if_false]
  rfl

theorem State.fixInstant_stands {s : State} {f : HFlit} (h : (s.isRoot && f.commits) = false) : s.fixInstant f = (s, f) := by
  rw [State.fixInstant, h]
  rfl

theorem State.fixInstant_fixes {s : State} {f : HFlit} (h : (s.isRoot && f.commits) = true) : s.fixInstant f =
    ({ s with job := { s.job with confirmAt := some (s.job.confirmAt.getD s.now) } },
      { f with recs := f.recs.map (stampConfirm (s.job.confirmAt.getD s.now)) }) := by
  rw [State.fixInstant, h]
  rfl

/-- Fixing the instant changes no more than the commit point and the records of the flit. -/
theorem State.fixInstant_keeps (s : State) (f : HFlit) :
    (∃ c, (s.fixInstant f).1 = { s with job := { s.job with confirmAt := c } }) ∧ ∃ l, (s.fixInstant f).2 = { f with recs := l } := by
  unfold State.fixInstant
  split
  · exact ⟨⟨_, rfl⟩, _, rfl⟩
  · exact ⟨⟨s.job.confirmAt, rfl⟩, f.recs, rfl⟩

/-- The flit that leaves, on the wire. -/
def State.slotWire (s : State) (q : Nat) (f : HFlit) : HFlit := s.wired q (s.fixInstant f).2

theorem State.slotWire_fields (s : State) (q : Nat) (f : HFlit) : (s.slotWire q f).words = f.words ∧ (s.slotWire q f).type = f.type ∧
    (s.slotWire q f).channel = f.channel ∧ (s.slotWire q f).src = f.src ∧ (s.slotWire q f).dst = f.dst ∧
    (f.type ≠ 4 → (s.slotWire q f).tideLo = s.job.slotTide % 256) := by
  obtain ⟨-, l, hf⟩ := s.fixInstant_keeps f
  rw [State.slotWire, hf]
  exact ⟨rfl, rfl, rfl, rfl, rfl, fun h => if_neg h⟩

section
variable {s : State} {q : Nat} (hup : (s.hport q).up = true)
include hup

/-- A port that is up and absorbs nothing uses the slot and one sequence number, and sends the flit. -/
theorem State.slotLeaves_sends (habs : (s.hport q).absorbing = false) (f : HFlit) : (s.slotLeaves q f).hport q =
    { s.hport q with slot := (s.hport q).slot + 1, sent := (s.hport q).sent ++ [s.slotWire q f]
                     txSeq := ((s.hport q).txSeq + 1) % 2 ^ 48 } := by
  obtain ⟨⟨c, hs⟩, -⟩ := s.fixInstant_keeps f
  obtain ⟨v, hv⟩ : ∃ v, v = (s.fixInstant f).1.modHport q fun y => { y with slot := y.slot + 1 } := ⟨_, rfl⟩
  have hport : v.hport q = { s.hport q with slot := (s.hport q).slot + 1 } := by
    rw [hv, State.modHport_hport_self, hs]
    rfl
  have hwire : v.wired q (s.fixInstant f).2 = s.slotWire q f :=
    State.wired_congr (by rw [hv, hs]; rfl) (by rw [hv, hs]; rfl) (by rw [hport]) _
  have hsent : v.emitted q (s.fixInstant f).2 = s.slotWire q f := by
    rw [State.emitted, hport, habs]
    exact hwire
  rw [State.slotLeaves, ← hv, State.emit_hport (by rw [hport, hup]; rfl), hsent, hport, habs]
  rfl

/-- Toward a neighbour that absorbs, IDLE goes in the flit's place, which is counted. -/
theorem State.slotLeaves_absorbs (habs : (s.hport q).absorbing = true) {f : HFlit} (hf : f.type ≠ 0) : ∃ g : HFlit, g.type = 0 ∧
    (s.slotLeaves q f).hport q = { s.hport q with
      slot := (s.hport q).slot + 1, sent := (s.hport q).sent ++ [g], absorbed := (s.hport q).absorbed + 1
      txSeq := ((s.hport q).txSeq + 1) % 2 ^ 48 } := by
  obtain ⟨⟨c, hs⟩, l, hl⟩ := s.fixInstant_keeps f
  obtain ⟨v, hv⟩ : ∃ v, v = (s.fixInstant f).1.modHport q fun y => { y with slot := y.slot + 1 } := ⟨_, rfl⟩
  have hport : v.hport q = { s.hport q with slot := (s.hport q).slot + 1 } := by
    rw [hv, State.modHport_hport_self, hs]
    rfl
  have hother : ((v.hport q).absorbing && decide ((s.fixInstant f).2.type ≠ 0)) = true := by
    rw [hport, habs, hl]
    simp [hf]
  refine ⟨v.emitted q (s.fixInstant f).2, ?_, ?_⟩
  · rw [State.emitted, hother]
    rfl
  · rw [State.slotLeaves, ← hv, State.emit_hport (by rw [hport, hup]; rfl), hother, hport]
    rfl

end

/-- The root's committing CONFIRM fixes the commit point as it leaves. -/
theorem State.slotLeaves_confirmAt {s : State} {f : HFlit} (h : (s.isRoot && f.commits) = true) (q : Nat) :
    (s.slotLeaves q f).job.confirmAt = some (s.job.confirmAt.getD s.now) ∧
      (s.slotWire q f).recs = f.recs.map (stampConfirm (s.job.confirmAt.getD s.now)) := by
  rw [State.slotLeaves, State.slotWire, State.fixInstant_fixes h]
  obtain ⟨⟨b, hjob⟩, -⟩ := State.emit_job (State.modHport { s with job := { s.job with
    confirmAt := some (s.job.confirmAt.getD s.now) } } q fun y => { y with slot := y.slot + 1 }) q
    { f with recs := f.recs.map (stampConfirm (s.job.confirmAt.getD s.now)) }
  rw [hjob]
  exact ⟨rfl, rfl⟩

/-- Another flit leaves with its own records. -/
theorem State.slotWire_recs {s : State} {f : HFlit} (h : (s.isRoot && f.commits) = false) (q : Nat) :
    (s.slotWire q f).recs = f.recs := by
  rw [State.slotWire, State.fixInstant_stands h]
  rfl

theorem State.slotLeaves_job {s : State} {f : HFlit} (h : (s.isRoot && f.commits) = false) (hset : f.channel ≠ 0xFFE0) (q : Nat) :
    (s.slotLeaves q f).job = s.job := by
  rw [State.slotLeaves, State.fixInstant_stands h, (State.emit_job _ q f).2 hset]
  rfl

/-- A port whose identity beacon is due sends that. -/
theorem State.slotSend_beacon {s : State} {q : Nat} (hdue : s.beaconDue q = true) (habs : (s.hport q).absorbing = false) :
    ∃ s' g, exec (.slotSend q) s = .next s' ∧ (s'.hport q).sent = (s.hport q).sent ++ [g] ∧ g.type = 5 ∧
      g.beacon = some (s.ownBeacon (s.placedNext q)) ∧ (s'.hport q).greeted = true ∧
      (s'.hport q).named = ((s.hport q).named || s.placedNext q) ∧ (s'.hport q).slot = (s.hport q).slot := by
  obtain ⟨v, hv⟩ : ∃ v, v = s.modHport q fun y => { y with greeted := true, named := y.named || s.placedNext q } := ⟨_, rfl⟩
  have hport : v.hport q = { s.hport q with greeted := true, named := (s.hport q).named || s.placedNext q } := by
    rw [hv, State.modHport_hport_self]
  have hnext : exec (.slotSend q) s = .next (v.emit q (s.beaconFlit q (s.placedNext q))) := by
    rw [exec_slotSend, execSlotSend]
    simp only [hdue, if_true, ← hv]
  have hfree : (v.hport q).absorbing = false := by rw [hport]; exact habs
  have hsent : v.emitted q (s.beaconFlit q (s.placedNext q)) = v.wired q (s.beaconFlit q (s.placedNext q)) := by
    rw [State.emitted, hfree]
    rfl
  refine ⟨_, v.wired q (s.beaconFlit q (s.placedNext q)), hnext, ?_, rfl, rfl, ?_, ?_, ?_⟩ <;>
    rw [State.emit_hport (by rw [hfree, Bool.and_false]), hsent, hport]

/-- A port that is up sends the flit of its slot, with the CRC of its own bytes and the tide of the slot. -/
theorem State.slotSend_sends {s t : State} {q : Nat} {f : HFlit} (hbeacon : s.beaconDue q = false) (hup : (s.hport q).up = true)
    (habs : (s.hport q).absorbing = false) (hflit : s.slotFlit q = (t, f)) :
    exec (.slotSend q) s = .next (t.slotLeaves q f) ∧
      (t.slotLeaves q f).hport q = { t.hport q with
        slot := (s.hport q).slot + 1, sent := (s.hport q).sent ++ [t.slotWire q f]
        txSeq := ((s.hport q).txSeq + 1) % 2 ^ 48 } ∧
      (t.slotWire q f).crc = flitCrc (t.slotWire q f) (s.hport q).txSeq s.job.rank q ∧
      ((t.slotWire q f).type ≠ 4 → (t.slotWire q f).tideLo = s.job.slotTide % 256) := by
  have hcores : SameCores s t := by
    have hsame := s.slotFlit_sameCores q
    rwa [hflit] at hsame
  have hnext := State.slotSend_leaves hbeacon hup
  rw [hflit] at hnext
  obtain ⟨-, htype, -, -, -, htide⟩ := t.slotWire_fields q f
  have hseq := hcores.field (g := HPort.txSeq) (fun _ => rfl) q
  refine ⟨hnext, ?_, ?_, fun h => ?_⟩
  · rw [State.slotLeaves_sends ((hcores.field (g := HPort.up) (fun _ => rfl) q).trans hup)
      ((hcores.field (g := HPort.absorbing) (fun _ => rfl) q).trans habs), hseq, hcores.field (g := HPort.slot) (fun _ => rfl),
      hcores.field (g := HPort.sent) (fun _ => rfl)]
  · rw [← hseq, ← hcores.job]
    exact t.wired_crc q _
  · rw [← hcores.job]
    exact htide (htype ▸ h)

theorem slotSending : Claims.SlotSending := by
  intro s q
  refine ⟨fun hbeacon hdown habs => ?_, State.slotSend_beacon, fun hbeacon hup habs hslot f r hf htype => ?_,
    fun hbeacon hup habs => ?_⟩
  · rw [exec_slotSend, execSlotSend]
    simp only [hbeacon, hdown, habs, Bool.not_false, Bool.and_self, Bool.false_eq_true, if_false, if_true]
  · have hflit : s.slotFlit q = (s.modHport q fun x => { x with urgent := r }, f) := by
      rw [State.slotFlit, if_pos hslot, State.controlSlot_urgent hf]
    have hnext := State.slotSend_leaves hbeacon hup
    rw [hflit] at hnext
    have hport := s.modHport_hport_self q fun x => { x with urgent := r }
    obtain ⟨g, hidle, hsends⟩ := State.slotLeaves_absorbs (s := s.modHport q fun x => { x with urgent := r }) (q := q)
      (by rw [hport]; exact hup) (by rw [hport]; exact habs) htype
    rw [hport] at hsends
    refine ⟨_, g, hnext, ?_, hidle, ?_, ?_, fun hset hcommit => ?_⟩
    · rw [hsends]
    · rw [hsends]
    · rw [hsends]
    · exact State.slotLeaves_job (s := s.modHport q fun x => { x with urgent := r }) hcommit hset q
  · obtain ⟨⟨t, f⟩, hflit⟩ : ∃ r, s.slotFlit q = r := ⟨_, rfl⟩
    obtain ⟨hnext, hport, hcrc, htide⟩ := State.slotSend_sends hbeacon hup habs hflit
    obtain ⟨hwords, htype, hchan, hsrc, hdst, -⟩ := t.slotWire_fields q f
    refine ⟨_, t.slotWire q f, hnext, by rw [hport], by rw [hport], by rw [hport], hcrc, htide, fun hslot => ⟨?_, ?_⟩,
      fun hslot => ⟨?_, ?_⟩⟩
    · intro e r hurgent
      rw [State.slotFlit, if_pos hslot, State.controlSlot_urgent hurgent] at hflit
      obtain ⟨rfl, rfl⟩ := Prod.mk.inj hflit
      refine ⟨hwords, htype, fun hcommit => ?_, fun hcommit => ?_, ?_, ?_⟩
      · exact State.slotWire_recs (s := s.modHport q fun x => { x with urgent := r }) hcommit q
      · exact (State.slotLeaves_confirmAt (s := s.modHport q fun x => { x with urgent := r }) hcommit q).symm
      · rw [hport, State.modHport_hport_self]
      · rw [hport, State.modHport_hport_self]
    · intro e r hnone hbulk
      rw [State.slotFlit, if_pos hslot, State.controlSlot_bulk hnone hbulk] at hflit
      obtain ⟨rfl, rfl⟩ := Prod.mk.inj hflit
      refine ⟨hwords, htype, ?_⟩
      rw [hport, State.modHport_hport_self]
    · intro hkind
      rw [State.slotFlit, if_neg hslot, State.dataSlot_idle hkind] at hflit
      obtain ⟨rfl, rfl⟩ := Prod.mk.inj hflit
      refine ⟨htype, hsrc, hdst, ?_⟩
      rw [hport]
    · intro e r hkind hstaged hchannel
      rw [State.slotFlit, if_neg hslot, State.dataSlot_local hkind hstaged hchannel] at hflit
      obtain ⟨rfl, rfl⟩ := Prod.mk.inj hflit
      refine ⟨hwords, hchan, ?_⟩
      rw [hport, State.modHport_hport_self]

/-- Settles O40: a flit received is counted and then held by its channel; the flit of a slot leaves by `State.slotLeaves`. -/
theorem hikolinkFlits : Obligations.HikolinkFlits := ⟨hikolinkFlitsReceived, slotSending⟩

end Sys2Proof.Machine
end

section
/-!
SUPPORT. The endpoint engines of channels, the end of a port's shut-down, and the collective engine
(`Obligations.EndpointsAndCollectives`).
-/

namespace Sys2Proof.Machine

theorem exec_endpointPoll (s : State) (ch : Nat) : exec (.endpointPoll ch) s = execEndpointPoll ch s := rfl
theorem exec_receiveBlockComplete (s : State) (ch : Nat) :
    exec (.receiveBlockComplete ch) s = execReceiveBlockComplete ch s := rfl
theorem exec_portShutdownDone (s : State) (q : Nat) : exec (.portShutdownDone q) s = execPortShutdownDone q s := rfl
theorem exec_collectiveScriptRun (s : State) (p k : Nat) : exec (.collectiveScriptRun p k) s = execCollectiveScriptRun p k s := rfl
theorem exec_collectiveReduce (s : State) (p k : Nat) (ports : List (Nat × Nat)) :
    exec (.collectiveReduce p k ports) s = execCollectiveReduce p k ports s := rfl

/-! Accesses of a unit (R186) -/

/-- Taking a unit's answers changes no more than the accesses at hand. -/
theorem State.unitTake_frame (s : State) (key : Nat) : ∃ l, (s.unitTake key).1 = { s with unitAcc := l } := by
  unfold State.unitTake
  split
  · exact ⟨s.unitAcc, rfl⟩
  · split
    · exact ⟨s.unitAcc, rfl⟩
    · exact ⟨_, rfl⟩

theorem State.unitTake_stands {s u : State} {key : Nat} {w : UnitWay} (h : s.unitTake key = (u, w)) :
    (∀ p, u.part p = s.part p) ∧ u.parts = s.parts ∧ u.job = s.job ∧ (∀ q, u.hport q = s.hport q) := by
  obtain ⟨l, hu⟩ := s.unitTake_frame key
  rw [h] at hu
  simp only at hu
  rw [hu]
  exact ⟨fun _ => rfl, rfl, rfl, fun _ => rfl⟩

theorem State.unitTake_pair {s : State} {key : Nat} {w : UnitWay} (h : (s.unitTake key).2 = w) : ∃ u, s.unitTake key = (u, w) :=
  ⟨_, Prod.ext rfl h⟩

theorem State.sendFromUnit_fabricStands (s : State) (u : EdgeUnit) (t : TileId) (p : Packet) : FabricStands s (s.sendFromUnit u t p) :=
  .ite ⟨rfl, rfl, rfl, rfl, rfl, Nat.le_refl _⟩
    (.ite ⟨rfl, rfl, rfl, rfl, rfl, Nat.le_refl _⟩ ⟨rfl, rfl, rfl, rfl, rfl, Nat.le_refl _⟩)

theorem State.notify_fabricStands (s : State) (v : Word) (e : Endpoint) : FabricStands s (s.notify v e) :=
  .ite (s.sendFromUnit_fabricStands _ _ _) (.refl s)

/-! Channels (R324) -/

theorem State.channel_id {s : State} {ch p : Nat} {send : Bool} {c : Channel} (h : s.channel ch send = some (p, c)) : c.id = ch := by
  obtain ⟨f, -, hf⟩ := List.exists_of_findSome?_eq_some h
  obtain ⟨d, hd, hpair⟩ := Option.map_eq_some_iff.mp hf
  have hfound := List.find?_some hd
  rw [Prod.mk.injEq] at hpair
  rw [← hpair.2]
  simp only [Bool.and_eq_true, decide_eq_true_eq] at hfound
  exact hfound.1

/-! Send endpoints (R325, R326) -/

theorem State.endpointPoll_acts {s : State} {ch p : Nat} {c : Channel} (hc : s.channel ch true = some (p, c))
    (heng : (s.part p).engines = true) : exec (.endpointPoll ch) s = .next (s.sendNext p c) := by
  rw [exec_endpointPoll, execEndpointPoll]
  simp only [hc, heng, if_true]

/-- The flits of block `b` of a channel, with its data. -/
def State.dataFlits (s : State) (c : Channel) (b : Nat) (d : List Byte) : List HFlit :=
  (List.range c.blockFlits).map fun i =>
    { type := 1, last := decide (i + 1 = c.blockFlits), channel := c.id, src := s.job.rank, dst := c.peer, block := b
      index := i, words := wordsOfBytes 60 (d.drop (240 * i)) }

theorem State.dataFlits_getElem? (s : State) (c : Channel) (b : Nat) (d : List Byte) {i : Nat} (h : i < c.blockFlits) :
    (s.dataFlits c b d)[i]? = some
      { type := 1, last := decide (i + 1 = c.blockFlits), channel := c.id, src := s.job.rank, dst := c.peer, block := b
        index := i, words := wordsOfBytes 60 (d.drop (240 * i)) } := by
  rw [State.dataFlits, List.getElem?_map, List.getElem?_range h]
  rfl

/-- A block staged: its flits behind those of its port, and the block counted. -/
theorem State.stageBlock_stages (s : State) (c : Channel) (b : Nat) (d : List Byte) :
    ((s.stageBlock c b d).hport c.port).staged = (s.hport c.port).staged ++ s.dataFlits c b d ∧
    tget 0 (s.stageBlock c b d).job.chanBlocks c.id = b + 1 ∧ (s.stageBlock c b d).parts = s.parts ∧
    ∀ q, q ≠ c.port → (s.stageBlock c b d).hport q = s.hport q := by
  obtain ⟨v, hv⟩ : ∃ v, v = s.modHport c.port fun x => { x with staged := x.staged ++ s.dataFlits c b d } := ⟨_, rfl⟩
  have hstage : s.stageBlock c b d = { v with job := { v.job with chanBlocks := tset v.job.chanBlocks c.id (b + 1) } } := by
    rw [hv]
    rfl
  rw [hstage]
  refine ⟨?_, tget_tset_self _ _ _ _, by rw [hv]; rfl, fun q hq => ?_⟩
  · have hport : v.hport c.port = { s.hport c.port with staged := (s.hport c.port).staged ++ s.dataFlits c b d } := by
      rw [hv, State.modHport_hport_self]
    exact congrArg HPort.staged hport
  · have hport : v.hport q = s.hport q := by rw [hv, State.modHport_hport_ne _ _ hq]
    exact hport

theorem endpointSends {s : State} {ch p : Nat} {c : Channel} (hc : s.channel ch true = some (p, c))
    (heng : (s.part p).engines = true) (b : Nat) (v : Word) (hb : b = tget 0 s.job.chanBlocks c.id)
    (hv : v = blockValue (s.part p).tide b) :
    ((s.unitTake (keySend c.id)).2 = .waiting → exec (.endpointPoll ch) s = .next s) ∧
    ((s.unitTake (keySend c.id)).2 = .idle → exec (.endpointPoll ch) s =
      .next (if b < c.blocks then s.unitAsk (keySend c.id) 0 p ((chanEndpoint c.port c).ask 0) else s)) ∧
    (∀ (u : State) (r : List Byte), s.unitTake (keySend c.id) = (u, .done 0 r) → exec (.endpointPoll ch) s =
      .next (if leNat r = v.toNat ∧ u.stagingRoom c = true
        then u.unitAsk (keySend c.id) 1 p ((chanEndpoint c.port c).read (240 * c.blockFlits)) else u)) ∧
    (∀ (u : State) (r : List Byte), s.unitTake (keySend c.id) = (u, .done 1 r) →
      exec (.endpointPoll ch) s = .next ((u.stageBlock c b r).unitAsk (keySend c.id) 2 p ((chanEndpoint c.port c).put 1 v))) ∧
    (∀ (u : State) (r : List Byte) (n : Nat), s.unitTake (keySend c.id) = (u, .done (n + 2) r) → exec (.endpointPoll ch) s =
      .next (u.notify (blockValue (s.part p).tide (b - 1)) (chanEndpoint c.port c))) := by
  rw [State.endpointPoll_acts hc heng, hv, hb]
  refine ⟨fun h => ?_, fun h => ?_, fun u r h => ?_, fun u r h => ?_, fun u r n h => ?_⟩
  · obtain ⟨u, hu⟩ := State.unitTake_pair h
    rw [State.sendNext, hu]
  · obtain ⟨u, hu⟩ := State.unitTake_pair h
    rw [State.sendNext, hu]
    simp only [← Nat.not_lt, ge_iff_le, ite_not]
  · rw [State.sendNext, h]
    simp only [Bool.and_eq_true, decide_eq_true_eq]
  · rw [State.sendNext, h]
    rfl
  · rw [State.sendNext, h, ← (State.unitTake_stands h).1]
    rfl

/-! Receive endpoints (R325, R327) -/

theorem State.receiveBlockComplete_eq {s : State} {ch p : Nat} {c : Channel} (hc : s.channel ch false = some (p, c))
    (heng : (s.part p).engines = true) : exec (.receiveBlockComplete ch) s =
      .next (if c.blockFlits ≤ (s.blockFlits c.id (tget 0 s.job.chanBlocks (65536 + c.id))).length then s.recvNext p c else s) := by
  rw [exec_receiveBlockComplete, execReceiveBlockComplete, ← State.channel_id hc]
  rw [← State.channel_id hc] at hc
  simp only [hc, heng, Bool.true_and, decide_eq_true_eq, ge_iff_le]
  split <;> rfl

/-- The flits of a block that a port still holds when the block has passed: none. -/
theorem notBlock_of_filter (chan b : Nat) (l : List HFlit) :
    ((l.filter fun f => !(decide (f.channel = chan) && decide (f.block = b))).filter fun f => f.channel = chan && f.block = b) = [] := by
  rw [List.filter_filter]
  refine List.filter_eq_nil_iff.mpr fun f _ => ?_
  cases decide (f.channel = chan) && decide (f.block = b) <;> decide

/-- A block that has passed is counted and out of staging. -/
theorem State.blockPassed_passes (s : State) (chan b : Nat) :
    tget 0 (s.blockPassed chan b).job.chanBlocks (65536 + chan) = b + 1 ∧ (s.blockPassed chan b).blockFlits chan b = [] ∧
    (s.blockPassed chan b).parts = s.parts := by
  obtain ⟨v, hv⟩ : ∃ v, v = each (List.range 6) (fun p st => st.modHport p fun x =>
    { x with received := x.received.filter fun f => !(decide (f.channel = chan) && decide (f.block = b)) }) s := ⟨_, rfl⟩
  have hpass : s.blockPassed chan b = { v with job := { v.job with chanBlocks := tset v.job.chanBlocks (65536 + chan) (b + 1) } } := by
    rw [hv]
    rfl
  have hsent : SendsOnly s v := hv ▸ each_modHport_sendsOnly (fun _ _ x =>
    { x with received := x.received.filter fun f => !(decide (f.channel = chan) && decide (f.block = b)) }) _ s
  rw [hpass]
  refine ⟨tget_tset_self _ _ _ _, ?_, hsent.parts⟩
  refine List.flatMap_eq_nil_iff.mpr fun q hq => ?_
  have hport : v.hport q = { s.hport q with
      received := (s.hport q).received.filter fun f => !(decide (f.channel = chan) && decide (f.block = b)) } := by
    rw [hv]
    exact each_modHport_hport_of_mem (fun _ x => { x with
      received := x.received.filter fun f => !(decide (f.channel = chan) && decide (f.block = b)) }) _ s List.nodup_range hq
  exact (congrArg (fun x : HPort => x.received.filter fun f => f.channel = chan && f.block = b) hport).trans
    (notBlock_of_filter chan b _)

theorem endpointReceives {s : State} {ch p : Nat} {c : Channel} (hc : s.channel ch false = some (p, c))
    (heng : (s.part p).engines = true) (b : Nat) (v : Word) (e : Endpoint) (hb : b = tget 0 s.job.chanBlocks (65536 + c.id))
    (hv : v = blockValue (s.part p).tide b) (he : e = chanEndpoint (s.recvPort c.id b) c) :
    ((s.blockFlits c.id b).length < c.blockFlits → exec (.receiveBlockComplete ch) s = .next s) ∧
    (c.blockFlits ≤ (s.blockFlits c.id b).length →
      ((s.unitTake (keyRecv c.id)).2 = .waiting → exec (.receiveBlockComplete ch) s = .next s) ∧
      ((s.unitTake (keyRecv c.id)).2 = .idle → exec (.receiveBlockComplete ch) s =
        .next (if c.blocks ≤ b then s
          else if b = 0 then s.unitAsk (keyRecv c.id) 1 p (e.write (blockBytes (s.blockFlits c.id b)))
          else s.unitAsk (keyRecv c.id) 0 p (e.ask 1))) ∧
      (∀ (u : State) (r : List Byte), s.unitTake (keyRecv c.id) = (u, .done 0 r) → exec (.receiveBlockComplete ch) s =
        .next (if leNat r = (blockValue (s.part p).tide (b - 1)).toNat
          then u.unitAsk (keyRecv c.id) 1 p (e.write (blockBytes (s.blockFlits c.id b))) else u)) ∧
      (∀ (u : State) (r : List Byte), s.unitTake (keyRecv c.id) = (u, .done 1 r) →
        exec (.receiveBlockComplete ch) s = .next (u.unitAsk (keyRecv c.id) 2 p (e.put 0 v))) ∧
      (∀ (u : State) (r : List Byte) (n : Nat), s.unitTake (keyRecv c.id) = (u, .done (n + 2) r) →
        exec (.receiveBlockComplete ch) s = .next ((u.blockPassed c.id b).notify v e))) := by
  have hexec := State.receiveBlockComplete_eq hc heng
  rw [← hb] at hexec
  refine ⟨fun hpart => ?_, fun hwhole => ?_⟩
  · rw [hexec, if_neg (Nat.not_le.mpr hpart)]
  · rw [if_pos hwhole] at hexec
    rw [hexec, he, hv, hb]
    refine ⟨fun h => ?_, fun h => ?_, fun u r h => ?_, fun u r h => ?_, fun u r n h => ?_⟩
    · obtain ⟨u, hu⟩ := State.unitTake_pair h
      rw [State.recvNext, hu]
    · obtain ⟨u, hu⟩ := State.unitTake_pair h
      rw [State.recvNext, hu]
    · rw [State.recvNext, h]
      rfl
    · rw [State.recvNext, h]
      rfl
    · rw [State.recvNext, h]
      rfl

theorem endpointEngines : Claims.EndpointEngines := by
  refine ⟨fun s ch p c hc heng b v hb hv => ?_, fun s ch p c hc heng b v e hb hv he => ?_, fun s ch => ⟨fun hc => ?_, fun hc => ?_,
    fun p c hc heng => ?_, fun p c hc heng => ?_⟩⟩
  · obtain ⟨hwaiting, hidle, hready, hdata, hwritten⟩ := endpointSends hc heng b v hb hv
    refine ⟨hwaiting, hidle, hready, fun u r hu => ?_, hwritten⟩
    obtain ⟨-, hparts, hjob, hports⟩ := State.unitTake_stands hu
    obtain ⟨hstaged, hcount, hkept, hothers⟩ := u.stageBlock_stages c b r
    refine ⟨u.stageBlock c b r, u.dataFlits c b r, hdata u r hu, by rw [hstaged, hports], ?_, fun i hi => ?_, hcount,
      hkept.trans hparts, fun q hq => by rw [hothers q hq, hports]⟩
    · rw [State.dataFlits, List.length_map, List.length_range]
    · rw [State.dataFlits_getElem? u c b r hi, hjob]
  · obtain ⟨hpart, hwhole⟩ := endpointReceives hc heng b v e hb hv he
    refine ⟨hpart, fun h => ?_⟩
    obtain ⟨hwaiting, hidle, hdone, hready, hnotice⟩ := hwhole h
    refine ⟨hwaiting, hidle, hdone, hready, fun u r n hu => ?_⟩
    obtain ⟨-, hparts, -, -⟩ := State.unitTake_stands hu
    obtain ⟨hcount, hnone, hkept⟩ := u.blockPassed_passes c.id b
    exact ⟨u.blockPassed c.id b, hnotice u r n hu, hcount, hnone, hkept.trans hparts⟩
  · rw [exec_endpointPoll, execEndpointPoll, hc]
  · rw [exec_receiveBlockComplete, execReceiveBlockComplete, hc]
  · rw [exec_endpointPoll, execEndpointPoll, hc]
    simp only [heng, Bool.false_eq_true, if_false]
  · rw [exec_receiveBlockComplete, execReceiveBlockComplete, hc]
    simp only [heng, Bool.false_and, Bool.false_eq_true, if_false]

/-! The end of a port's shut-down (R431) -/

/-- The reference of a device whose parent port goes as it leaves its job. -/
def State.parentPortGone (s : State) (q : Nat) : State := if s.job.left && s.job.parentPort = some q then s.ownClock else s

/-- A port whose lanes are off. -/
def HPort.emptied (x : HPort) : HPort :=
  { x with up := false, greeted := false, named := false, shutting := false, trainHeld := none, beacon := none, forward := []
           staged := [], received := [], urgent := [], bulk := [], absorbing := false }

theorem State.parentPortGone_keeps (s : State) (q : Nat) : (s.parentPortGone q).trainWait = s.trainWait ∧
    (∀ k, (s.parentPortGone q).hport k = s.hport k) := by
  unfold State.parentPortGone
  split <;> exact ⟨rfl, fun _ => rfl⟩

theorem State.portShutdownDone_acts {s : State} {q : Nat} (h : (s.hport q).shutting = true) :
    exec (.portShutdownDone q) s = .next ((s.parentPortGone q).modHport q HPort.emptied).actTrainHeld := by
  rw [exec_portShutdownDone, execPortShutdownDone, if_neg (by simp [h])]
  rfl

theorem portShutdown : Claims.PortShutdown := by
  intro s q
  refine ⟨fun hshut => ?_, fun hshut => ?_⟩
  · obtain ⟨hwait, hports⟩ := s.parentPortGone_keeps q
    have hnext := State.portShutdownDone_acts hshut
    have hport : ((s.parentPortGone q).modHport q HPort.emptied).hport q = (s.hport q).emptied := by
      rw [State.modHport_hport_self, hports]
    refine ⟨(s.parentPortGone q).modHport q HPort.emptied, hnext, fun hnone => ?_, hwait, ?_, ?_, ?_, ?_, ?_, ?_, ?_,
      fun k hk => ?_, fun hleft hparent => ?_⟩
    · rw [hnext, State.actTrainHeld, State.modHport_trainWait, hwait, hnone]
    · rw [hport]
      rfl
    · rw [hport]
      rfl
    · rw [hport]
      rfl
    · rw [hport]
      rfl
    · rw [hport]
      rfl
    · rw [hport]
      rfl
    · rw [hport]
      rfl
    · rw [State.modHport_hport_ne _ _ hk, hports]
    · rw [State.modHport_power, State.modHport_job, State.parentPortGone, if_pos (by simp [hleft, hparent])]
      exact ⟨rfl, rfl⟩
  · rw [exec_portShutdownDone, execPortShutdownDone, if_pos (by simp [hshut])]

/-! Plans (R343, R344) -/

theorem State.plan_id {s : State} {p k : Nat} {c : CollPlan} (h : s.plan p k = some c) : c.plan = k := by
  unfold State.plan at h
  split at h
  · exact absurd h (by simp)
  · exact of_decide_eq_true (p := c.plan = k) (List.find?_some (p := fun d : CollPlan => decide (d.plan = k)) h)

theorem State.planState_of_part {s t : State} {p : Nat} (h : t.part p = s.part p) (k : Nat) : t.planState p k = s.planState p k := by
  rw [State.planState, h, State.planState]

@[simp] theorem State.setPlan_planState_self (s : State) (p k : Nat) (v : PlanState) : (s.setPlan p k v).planState p k = v := by
  rw [State.planState, State.setPlan, State.modPart_part_self, tget_tset_self]

theorem State.setPlan_eventCount (s : State) (p k : Nat) (v : PlanState) : (s.setPlan p k v).eventCount = s.eventCount := rfl

section
variable {s : State} {p k : Nat} {c : CollPlan} (hplan : s.plan p k = some c)
include hplan

theorem State.collectiveScriptRun_same (hst : (s.part p).st ≠ .open_) : exec (.collectiveScriptRun p k) s = .next s := by
  rw [exec_collectiveScriptRun, execCollectiveScriptRun]
  simp only [hplan]
  exact if_pos hst

/-- A plan with no script runs in every tide. -/
theorem State.collectiveScriptRun_noScript (hst : (s.part p).st = .open_) (hcode : c.code = []) :
    exec (.collectiveScriptRun p k) s = .next (s.setPlan p k { s.planState p k with runs := true }) := by
  rw [exec_collectiveScriptRun, execCollectiveScriptRun]
  simp only [hplan, hst, hcode, ne_eq, not_true_eq_false, if_false, List.isEmpty_nil, if_true]

/-- A plan's script that ends says whether the plan runs; one that does not is an event, and the plan runs. -/
theorem State.collectiveScriptRun_script (hst : (s.part p).st = .open_) (hcode : c.code ≠ []) (r : List Word × Bool)
    (hr : r = runScript c.code (fun _ => 0) c.stepLimit { regs := scriptRegs [(1, k), (2, (s.part p).tide % 2 ^ 32),
      (3, (s.part p).tide / 2 ^ 32), (4, s.rank)] }) :
    ∃ v, v = (if r.2 then s else s.raisePart p 0x0520 2 (unitId 9 0) (k * 2 ^ 58)) ∧ exec (.collectiveScriptRun p k) s =
      .next (v.setPlan p k { v.planState p k with runs := !r.2 || decide (r.1.getD 15 0 = 0) }) := by
  refine ⟨_, rfl, ?_⟩
  rw [exec_collectiveScriptRun, execCollectiveScriptRun]
  simp only [hplan, hst, ne_eq, not_true_eq_false, if_false, List.isEmpty_iff, hcode, hr]

theorem State.collectiveReduce_same {ports : List (Nat × Nat)}
    (h : ((s.part p).engines && (s.planState p k).runs && !(s.planState p k).done) = false) :
    exec (.collectiveReduce p k ports) s = .next s := by
  rw [exec_collectiveReduce, execCollectiveReduce]
  simp only [hplan, h, Bool.false_eq_true, if_false]

theorem State.collectiveReduce_acts (heng : (s.part p).engines = true) (hruns : (s.planState p k).runs = true)
    (hdone : (s.planState p k).done = false) (ports : List (Nat × Nat)) :
    exec (.collectiveReduce p k ports) s = .next (s.planNext p c ports) := by
  rw [exec_collectiveReduce, execCollectiveReduce]
  simp only [hplan, heng, hruns, hdone, Bool.not_false, Bool.and_self, if_true]

end

theorem State.raisePart_eventCount_lt (s : State) (p : Nat) {e : Nat} (u info : Nat) :
    s.eventCount < (s.raisePart p e 2 u info).eventCount :=
  State.raiseFault_eventCount_lt s (.inr (Nat.lt_succ_self 2))

theorem scriptRuns {s : State} {p k : Nat} {c : CollPlan} (hplan : s.plan p k = some c) (hst : (s.part p).st = .open_) :
    (c.code = [] → ∃ s', exec (.collectiveScriptRun p k) s = .next s' ∧ (s'.planState p k).runs = true ∧
      (s'.planState p k).done = (s.planState p k).done) ∧
    (c.code ≠ [] → ∀ r, r = runScript c.code (fun _ => 0) c.stepLimit { regs := scriptRegs [(1, k),
        (2, (s.part p).tide % 2 ^ 32), (3, (s.part p).tide / 2 ^ 32), (4, s.rank)] } →
      (r.2 = true → ∃ s', exec (.collectiveScriptRun p k) s = .next s' ∧
        (s'.planState p k).runs = decide (r.1.getD 15 0 = 0) ∧ s'.eventCount = s.eventCount) ∧
      (r.2 = false → ∃ s', exec (.collectiveScriptRun p k) s = .next s' ∧
        (s'.planState p k).runs = true ∧ s.eventCount < s'.eventCount)) := by
  refine ⟨fun hcode => ⟨_, State.collectiveScriptRun_noScript hplan hst hcode, ?_, ?_⟩, fun hcode r hr => ?_⟩
  · rw [State.setPlan_planState_self]
  · rw [State.setPlan_planState_self]
  · obtain ⟨v, hv, hnext⟩ := State.collectiveScriptRun_script hplan hst hcode r hr
    clear hr
    refine ⟨fun hends => ⟨_, hnext, ?_, ?_⟩, fun hends => ⟨_, hnext, ?_, ?_⟩⟩
    · rw [State.setPlan_planState_self]
      simp only [hends, Bool.not_true, Bool.false_or]
    · rw [if_pos hends] at hv
      rw [State.setPlan_eventCount, hv]
    · rw [State.setPlan_planState_self]
      simp only [hends, Bool.not_false, Bool.true_or]
    · rw [if_neg (by rw [hends]; exact Bool.false_ne_true)] at hv
      rw [State.setPlan_eventCount, hv]
      exact s.raisePart_eventCount_lt p _ _

/-! The contribution read (R344, R346, R347) -/

theorem State.planSendAll_sendsOnly (s : State) (c : CollPlan) (ports : List (Nat × Nat)) (b0 : Nat) (ws : Nat → List Word) :
    SendsOnly s (s.planSendAll c ports b0 ws) := by
  refine each_sendsOnly (fun r v => ?_) _ _
  unfold State.planSend
  split <;> rfl

/-- The accumulator of a DEFERRED plan with the contribution `m` added. -/
def PlanState.tentativeSums (v : PlanState) (c : CollPlan) (m : List Nat) : List Word :=
  (List.range c.elems).map fun i => fadd (v.accum.getD i 0) (collToFp32 c.inFmt (m.getD i 0))

/-- What is kept of a contribution `m`: a DEFERRED plan's tentative sums, else the contribution. -/
def PlanState.kept (v : PlanState) (c : CollPlan) (m : List Nat) : List Nat :=
  if c.op > 2 then (v.tentativeSums c m).map (·.toNat) else m

/-- A plan's record with its contribution `m`. -/
def PlanState.contributed (v : PlanState) (c : CollPlan) (m : List Nat) : PlanState :=
  { v with mine := some (v.kept c m)
           tentative := if c.op > 2 then some (v.tentativeSums c m) else none }

theorem PlanState.tentativeSums_getD (v : PlanState) {c : CollPlan} {i : Nat} (h : i < c.elems) (m : List Nat) :
    (v.tentativeSums c m).getD i 0 = fadd (v.accum.getD i 0) (collToFp32 c.inFmt (m.getD i 0)) := by
  rw [PlanState.tentativeSums, List.getD_eq_getElem?_getD, List.getElem?_map, List.getElem?_range h]
  rfl

/-- What the others are sent of a contribution read: all of it for an ALL_GATHER, else their shards in a tide that reduces. -/
def State.contributionSent (s : State) (p : Nat) (c : CollPlan) (ports : List (Nat × Nat)) (mine : List Nat) : State :=
  if c.op = 2 then s.planSendAll c ports 0 fun _ => collWords (planSendFmt c) mine
  else if planReduces c (s.part p).tide then s.planSendAll c ports 0 fun k => collWords (planSendFmt c) (planShard c k mine)
  else s

theorem State.contributionSent_sendsOnly (s : State) (p : Nat) (c : CollPlan) (ports : List (Nat × Nat)) (mine : List Nat) :
    SendsOnly s (s.contributionSent p c ports mine) := by
  unfold State.contributionSent
  split
  · exact State.planSendAll_sendsOnly _ _ _ _ _
  · split
    · exact State.planSendAll_sendsOnly _ _ _ _ _
    · rfl

/-- The contribution is kept, sent to the others, and DONE written. -/
theorem State.planRead_contributes (s : State) (p : Nat) (c : CollPlan) (ports : List (Nat × Nat)) (b : List Byte) :
    ∃ (t : State) (l : List Packet), s.planRead p c ports b = t.unitAsk (keyPlan p c.plan) 2 p l ∧
      t.planState p c.plan = (s.planState p c.plan).contributed c (contribution c c.ins b) := by
  obtain ⟨u, hu⟩ : ∃ u, u = s.setPlan p c.plan ((s.planState p c.plan).contributed c (contribution c c.ins b)) := ⟨_, rfl⟩
  obtain ⟨t, ht⟩ : ∃ t, t = u.contributionSent p c ports ((s.planState p c.plan).kept c (contribution c c.ins b)) := ⟨_, rfl⟩
  have hsent : SendsOnly u t := ht ▸ u.contributionSent_sendsOnly p c ports _
  refine ⟨t, c.ins.flatMap fun g => (segEndpoint t.collHalf g).put 1 (blockValue (u.part p).tide 0), ?_, ?_⟩
  · rw [ht, hu]
    rfl
  · rw [State.planState_of_part (hsent.part p), hu, State.setPlan_planState_self]

/-! The steps of a plan (R325 to R327, R344, R346) -/

theorem each_notify_parts (v : Word) (l : List Endpoint) (s : State) : (each l (fun e st => st.notify v e) s).parts = s.parts :=
  each_eq (π := State.parts) (fun e t => (t.notify_fabricStands v e).parts) l s

theorem State.planState_of_parts {s t : State} (h : t.parts = s.parts) (p k : Nat) : t.planState p k = s.planState p k :=
  State.planState_of_part (by rw [State.part, h, State.part]) k

/-- The plan that has ended for the tide. -/
def State.planEnds (s : State) (p k : Nat) : State := s.setPlan p k { s.planState p k with done := true }

@[simp] theorem State.planEnds_planState (s : State) (p k : Nat) :
    (s.planEnds p k).planState p k = { s.planState p k with done := true } :=
  State.setPlan_planState_self _ _ _ _

section
variable {s : State} {p : Nat} {c : CollPlan} (ports : List (Nat × Nat))

theorem State.planNext_waiting (h : (s.unitTake (keyPlan p c.plan)).2 = .waiting) : s.planNext p c ports = s := by
  obtain ⟨u, hu⟩ := State.unitTake_pair h
  rw [State.planNext, hu]

theorem State.planNext_asks (h : (s.unitTake (keyPlan p c.plan)).2 = .idle) (hnone : (s.planState p c.plan).mine = none) :
    s.planNext p c ports = s.unitAsk (keyPlan p c.plan) 0 p (c.ins.flatMap fun g => (segEndpoint s.collHalf g).ask 0) := by
  obtain ⟨u, hu⟩ := State.unitTake_pair h
  rw [State.planNext, hu]
  simp only [hnone, List.flatMap_map]

theorem State.planNext_gathers {m : List Nat} (h : (s.unitTake (keyPlan p c.plan)).2 = .idle)
    (hmine : (s.planState p c.plan).mine = some m) : s.planNext p c ports = s.planGather p c ports m := by
  obtain ⟨u, hu⟩ := State.unitTake_pair h
  rw [State.planNext, hu]
  simp only [hmine]

variable {u : State} {b : List Byte}

theorem State.planNext_ready (h : s.unitTake (keyPlan p c.plan) = (u, .done 0 b)) : ∃ l : List Packet, s.planNext p c ports =
    if ((wordsOfBytes c.ins.length b).all fun w => w = blockValue (s.part p).tide 0) = true
    then u.unitAsk (keyPlan p c.plan) 1 p l else u := by
  refine ⟨c.ins.flatMap fun g => (segEndpoint u.collHalf g).read (g.len * collSize c.inFmt), ?_⟩
  rw [State.planNext, h]
  simp only [List.length_map]

theorem State.planNext_read (h : s.unitTake (keyPlan p c.plan) = (u, .done 1 b)) : s.planNext p c ports = u.planRead p c ports b := by
  rw [State.planNext, h]
  rfl

theorem State.planNext_notifies (h : s.unitTake (keyPlan p c.plan) = (u, .done 2 b)) : ∃ v : State, v.parts = u.parts ∧
    s.planNext p c ports = if planDelivers c (s.part p).tide then v else v.planEnds p c.plan := by
  obtain ⟨v, hv⟩ : ∃ v, v = each (c.ins.map (segEndpoint s.collHalf)) (fun e st => st.notify (blockValue (s.part p).tide 0) e) u :=
    ⟨_, rfl⟩
  have hparts : v.parts = u.parts := hv ▸ each_notify_parts _ _ u
  have hpart : v.part p = s.part p := by rw [State.part, hparts, ← State.part, (State.unitTake_stands h).1]
  have hnext : s.planNext p c ports = if planDelivers c (v.part p).tide then v else v.planEnds p c.plan := by
    rw [State.planNext, h, hv]
    rfl
  exact ⟨v, hparts, hpart ▸ hnext⟩

theorem State.planNext_written (h : s.unitTake (keyPlan p c.plan) = (u, .done 3 b)) : s.planNext p c ports =
    u.unitAsk (keyPlan p c.plan) 4 p (c.outs.flatMap fun g => (segEndpoint s.collHalf g).put 0 (blockValue (s.part p).tide 0)) := by
  rw [State.planNext, h]
  simp only [List.flatMap_map]

theorem State.planNext_last {n : Nat} (h : s.unitTake (keyPlan p c.plan) = (u, .done (n + 4) b)) : ∃ v : State, v.parts = u.parts ∧
    s.planNext p c ports = v.planEnds p c.plan := by
  refine ⟨_, each_notify_parts (blockValue (s.part p).tide 0) (c.outs.map (segEndpoint s.collHalf)) u, ?_⟩
  rw [State.planNext, h]
  rfl

end

/-! The gathering of the others' parts (R346) -/

section
variable {s : State} {p : Nat} {c : CollPlan} {m : List Nat} (ports : List (Nat × Nat))

theorem State.planGather_noPart (hown : (s.planState p c.plan).own = none)
    (hpart : planOwn c s.rank (s.planState p c.plan) m = none) : s.planGather p c ports m = s := by
  simp only [State.planGather, hown, hpart]

/-- The device's own part, formed, is kept; nothing else of the plan's record changes. -/
theorem State.planGather_part {d : List Nat} (hown : (s.planState p c.plan).own = none)
    (hpart : planOwn c s.rank (s.planState p c.plan) m = some d) :
    (s.planGather p c ports m).planState p c.plan = { s.planState p c.plan with own := some d } := by
  obtain ⟨u, hu⟩ : ∃ u, u = s.setPlan p c.plan { s.planState p c.plan with own := some d } := ⟨_, rfl⟩
  have hkeeps : u.planState p c.plan = { s.planState p c.plan with own := some d } := by rw [hu, State.setPlan_planState_self]
  have hgather : s.planGather p c ports m =
      if c.op = 1 ∨ c.op = 2 then u else u.planSendAll c ports shardBlock fun _ => collWords c.outFmt d := by
    simp only [State.planGather, hown, hpart, hu]
  rw [hgather]
  split
  · exact hkeeps
  · exact (State.planState_of_part ((State.planSendAll_sendsOnly _ _ _ _ _).part p) _).trans hkeeps

theorem State.planGather_noWhole {d : List Nat} (hown : (s.planState p c.plan).own = some d)
    (hwhole : planWhole c s.rank (s.planState p c.plan) d = none) : s.planGather p c ports m = s := by
  simp only [State.planGather, hown, hwhole]

theorem State.planGather_whole {d w : List Nat} (hown : (s.planState p c.plan).own = some d)
    (hwhole : planWhole c s.rank (s.planState p c.plan) d = some w) :
    s.planGather p c ports m = s.unitAsk (keyPlan p c.plan) 3 p (s.resultPkts c c.outs w) := by
  simp only [State.planGather, hown, hwhole]

end

/-! What a plan's record holds of a contribution (R347) -/

theorem PlanState.contributed_exact (v : PlanState) {c : CollPlan} (hop : c.op < 3) (m : List Nat) :
    (v.contributed c m).tentative = none ∧ (v.contributed c m).mine = some m := by
  simp only [PlanState.contributed, PlanState.kept, Nat.not_lt.mpr (Nat.le_of_lt_succ hop), if_false, and_self]

theorem PlanState.contributed_deferred (v : PlanState) {c : CollPlan} (hop : 3 ≤ c.op) (m : List Nat) :
    ∃ d : List Word, (v.contributed c m).tentative = some d ∧ d.length = c.elems ∧
      (v.contributed c m).mine = some (d.map (·.toNat)) ∧
      ∀ i, i < c.elems → d.getD i 0 = fadd (v.accum.getD i 0) (collToFp32 c.inFmt (m.getD i 0)) := by
  refine ⟨v.tentativeSums c m, if_pos hop, ?_, congrArg some (if_pos hop), fun i hi => v.tentativeSums_getD hi m⟩
  rw [PlanState.tentativeSums, List.length_map, List.length_range]

/-! The claim -/

/-- What a plan that runs does at a poll, by what its accesses have brought. -/
theorem planSteps {s : State} {p k : Nat} {c : CollPlan} (hplan : s.plan p k = some c) (ports : List (Nat × Nat)) (v : Word)
    (heng : (s.part p).engines = true) (hruns : (s.planState p k).runs = true) (hdone : (s.planState p k).done = false)
    (hv : v = blockValue (s.part p).tide 0) :
    ((s.unitTake (keyPlan p k)).2 = .waiting → exec (.collectiveReduce p k ports) s = .next s) ∧
    ((s.unitTake (keyPlan p k)).2 = .idle → (s.planState p k).mine = none → exec (.collectiveReduce p k ports) s
      = .next (s.unitAsk (keyPlan p k) 0 p (c.ins.flatMap fun g => (segEndpoint s.collHalf g).ask 0))) ∧
    (∀ (u : State) (b : List Byte), s.unitTake (keyPlan p k) = (u, .done 0 b) → ∃ l : List Packet, exec (.collectiveReduce p k ports) s
      = .next (if ((wordsOfBytes c.ins.length b).all fun w => w = v) = true then u.unitAsk (keyPlan p k) 1 p l else u)) ∧
    (∀ (u : State) (b : List Byte), s.unitTake (keyPlan p k) = (u, .done 1 b) →
      ∃ (t : State) (l : List Packet), exec (.collectiveReduce p k ports) s = .next (t.unitAsk (keyPlan p k) 2 p l) ∧
        t.planState p k = (s.planState p k).contributed c (contribution c c.ins b)) ∧
    (∀ (u : State) (b : List Byte), s.unitTake (keyPlan p k) = (u, .done 2 b) →
      ∃ s', exec (.collectiveReduce p k ports) s = .next s' ∧
        (s'.planState p k).done = !(planDelivers c (s.part p).tide) ∧
        (s'.planState p k).tentative = (s.planState p k).tentative) ∧
    (∀ m, (s.unitTake (keyPlan p k)).2 = .idle → (s.planState p k).mine = some m →
      exec (.collectiveReduce p k ports) s = .next (s.planGather p c ports m)) ∧
    (∀ (u : State) (b : List Byte), s.unitTake (keyPlan p k) = (u, .done 3 b) → exec (.collectiveReduce p k ports) s
      = .next (u.unitAsk (keyPlan p k) 4 p (c.outs.flatMap fun g => (segEndpoint s.collHalf g).put 0 v))) ∧
    (∀ (u : State) (b : List Byte) (n : Nat), s.unitTake (keyPlan p k) = (u, .done (n + 4) b) →
      ∃ s', exec (.collectiveReduce p k ports) s = .next s' ∧ (s'.planState p k).done = true ∧
        (s'.planState p k).tentative = (s.planState p k).tentative) := by
  obtain rfl := State.plan_id hplan
  have hkept : ∀ {u w : State} {a : UnitWay}, s.unitTake (keyPlan p c.plan) = (u, a) → w.parts = u.parts →
      w.planState p c.plan = s.planState p c.plan :=
    fun hu hw => State.planState_of_parts (hw.trans (State.unitTake_stands hu).2.1) p _
  rw [State.collectiveReduce_acts hplan heng hruns hdone, hv]
  refine ⟨fun h => ?_, fun h hnone => ?_, fun u b h => ?_, fun u b h => ?_, fun u b h => ?_, fun m h hmine => ?_, fun u b h => ?_,
    fun u b n h => ?_⟩
  · rw [State.planNext_waiting ports h]
  · rw [State.planNext_asks ports h hnone]
  · obtain ⟨l, hl⟩ := State.planNext_ready ports h
    exact ⟨l, congrArg Host.Outcome.next hl⟩
  · obtain ⟨t, l, hread, ht⟩ := u.planRead_contributes p c ports b
    exact ⟨t, l, congrArg Host.Outcome.next ((State.planNext_read ports h).trans hread), by rw [ht, hkept h rfl]⟩
  · obtain ⟨w, hw, hnext⟩ := State.planNext_notifies ports h
    refine ⟨_, congrArg Host.Outcome.next hnext, ?_⟩
    have hstate := hkept h hw
    cases planDelivers c (s.part p).tide with
    | true => exact ⟨(congrArg PlanState.done hstate).trans hdone, congrArg PlanState.tentative hstate⟩
    | false =>
      simp only [Bool.false_eq_true, if_false, State.planEnds_planState, hstate, Bool.not_false, and_self]
  · rw [State.planNext_gathers ports h hmine]
  · rw [State.planNext_written ports h]
  · obtain ⟨w, hw, hnext⟩ := State.planNext_last ports h
    refine ⟨_, congrArg Host.Outcome.next hnext, ?_, ?_⟩
    · rw [State.planEnds_planState]
    · rw [State.planEnds_planState, hkept h hw]

/-- The tree adds pairs and passes an odd last value up (R345). -/
theorem treeSum_fewValues (a b c d e : Word) : treeSum 2 [a, b] = fadd a b ∧ treeSum 3 [a, b, c] = fadd (fadd a b) c ∧
    treeSum 4 [a, b, c, d] = fadd (fadd a b) (fadd c d) ∧
    treeSum 5 [a, b, c, d, e] = fadd (fadd (fadd a b) (fadd c d)) e := by
  simp [treeSum, treeLevel]

theorem collectives : Claims.Collectives := by
  refine ⟨fun s p k c hplan => ⟨scriptRuns hplan, State.collectiveScriptRun_same hplan, fun ports => State.collectiveReduce_same hplan,
    fun ports v heng hruns hdone hv => ?_⟩, fun s p k hnone => ⟨?_, fun ports => ?_⟩, treeSum_fewValues⟩
  · obtain ⟨hwaiting, hask, hready, hread, hnotify, hgather, hwritten, hlast⟩ := planSteps hplan ports v heng hruns hdone hv
    refine ⟨hwaiting, hask, hready, fun u b hu => ?_, hnotify, fun m hidle hmine => ?_, hwritten, hlast⟩
    · obtain ⟨t, l, hnext, ht⟩ := hread u b hu
      exact ⟨t, l, hnext, by rw [ht]; exact hdone, by rw [ht]; rfl, fun hop => ht ▸ PlanState.contributed_exact _ hop _,
        fun hop => ht ▸ PlanState.contributed_deferred _ hop _⟩
    · have hnext := hgather m hidle hmine
      obtain rfl := State.plan_id hplan
      refine ⟨fun hown hpart => ?_, fun d hown hpart => ⟨_, hnext, ?_⟩, fun d hown hwhole => ?_, fun d w hown hwhole => ?_⟩
      · rw [hnext, State.planGather_noPart ports hown hpart]
      · rw [State.planGather_part ports hown hpart]
        exact ⟨rfl, hdone⟩
      · rw [hnext, State.planGather_noWhole ports hown hwhole]
      · rw [hnext, State.planGather_whole ports hown hwhole]
  · rw [exec_collectiveScriptRun, execCollectiveScriptRun, hnone]
  · rw [exec_collectiveReduce, execCollectiveReduce, hnone]

/-- Settles O41: each engine takes its next step by what its unit's accesses have brought, a port's lanes go off where its shut-down
ends, and a plan's record holds what it has read and formed. -/
theorem endpointsAndCollectives : Obligations.EndpointsAndCollectives := ⟨endpointEngines, portShutdown, collectives⟩

end Sys2Proof.Machine
end
